-- ==== Sys2Proof/Word.lean ====
section
/-! DEFINITION. The words of the model: bytes, codes, counts and sparse tables. -/

namespace Sys2Proof

/-- One byte. -/
abbrev Byte := BitVec 8

/-- A byte string: messages, frames, records, key material (00 R7: little-endian unless a table says otherwise). -/
abbrev Bytes := List (BitVec 8)

/-- A register word of 32 bits. -/
abbrev Word := BitVec 32

/-- A result code of 16 bits (04 R153). -/
abbrev Code := BitVec 16

/-- A sparse table: pairs of an index and an entry, the indices strictly rising. -/
abbrev Tab (α : Type) := List (Nat × α)

end Sys2Proof
end

