-- ==== Sys2Proof/Syntax.lean ====
section
/-! DEFINITION. The commands of the block: one constructor of `Instr` per row of spec/opcode_table.json, with the
operands that say what the row's event or operation carries. The table gives no bit fields, so the operands follow
the rules each row cites. -/

namespace Sys2Proof

/-- The fourteen regions of the die (01 R11); a bench carries its number. -/
inductive Region where
  | bench (b : Nat)
  | keyStore
  | custody
  | path (isB : Bool)
  | host
  | nvm
deriving DecidableEq, Repr

/-- The three engine kinds, with the kind codes 0, 1, 2 of 05 R175. -/
inductive EngineKind where
  | marver
  | cipher
  | punty
deriving DecidableEq, Repr

/-- The two detectors of a tamper source (17 R579). -/
inductive Detector where
  | detA
  | detB
deriving DecidableEq, Repr

/-- A transaction core, named bench.core (00 R7). -/
structure CoreRef where
  bench : Nat
  core : Nat
deriving DecidableEq, Repr

/-- The reset inputs other than PERST_N (14 R502). -/
inductive ResetPin where
  | pwrOk
  | rstN
deriving DecidableEq, Repr

/-- What the work of a start phase found (14 R506, R517); each field is read by the phase named. -/
structure PhaseFindings where
  /-- Phase 1: detectors that failed their check, as source and detector (17 R597, R598). -/
  failedDetectors : List (Nat × Detector) := []
  /-- Phase 1: the echo times of the two tamper loops (23 R732). -/
  echo : Nat × Nat := (0, 0)
  /-- Phase 2: the fuse array's code and digest are right (16 R553). -/
  fusesOk : Bool := true
  /-- Phase 3: the conditioner's SHA-256 unit gives the known answer (09 R310). -/
  conditionerOk : Bool := true
  /-- Phase 3: benches that gave no answer on their Gather channel (09 R327). -/
  noAnswer : List Nat := []
  /-- Phase 7: the array test and the journal read passed (14 R517, cause 0x08). -/
  arrayOk : Bool := true
  /-- Phase 9: paths that fail the phase, A and B (14 R511). -/
  pathAFails : Bool := false
  pathBFails : Bool := false
deriving DecidableEq, Repr

/-- What a bench reports at roll-call (14 R508, R509). -/
structure RollCall where
  digestOk : Bool := true
  failedCores : List Nat := []
  failedMarver : List Nat := []
  failedCipher : List Nat := []
  failedPunty : List Nat := []
deriving DecidableEq, Repr

/-- The remote address of a frame (13 R460): source MAC, IP address, UDP port and DSCP or traffic class. -/
structure RemoteAddr where
  mac : BitVec 48 := 0
  ipv6 : Bool := false
  ip : BitVec 128 := 0
  port : BitVec 16 := 0
  dscp : BitVec 8 := 0
deriving DecidableEq, Repr

/-- What the layers below HTL see of a received frame (13 R459), and what the sender finds at its arrival: the path's own check (20
R662), and how many requests of the ingress bridge have reached the admission stage since the path's latest frame (02 R64, R65). -/
structure LinkInfo where
  source : RemoteAddr := {}
  destMac : BitVec 48 := 0
  destIp : BitVec 128 := 0
  destPort : BitVec 16 := 47011
  vlan : Option (BitVec 12) := none
  fragmentOrOptions : Bool := false
  /-- The UDP checksum field. -/
  checksum : BitVec 16 := 0
  pathCheckFails : Bool := false
  crossed : Nat := 512
deriving DecidableEq, Repr

/-- The 20-byte HTL header (13 R462). -/
structure HtlHeader where
  version : Byte := 0x01
  type : Byte := 0x10
  length : BitVec 16 := 0
  session : BitVec 32 := 0
  seq : BitVec 64 := 0
  epoch : Byte := 0
  seg : Byte := 0
  flags : Byte := 0
deriving DecidableEq, Repr

/-- An HTL frame as it reaches a path: the link findings, the header, the payload (ciphertext for an encrypted
frame) and the 16-byte tag (empty for a clear frame). -/
structure Frame where
  link : LinkInfo := {}
  header : HtlHeader := {}
  payload : Bytes := []
  tag : Bytes := []
deriving DecidableEq, Repr

/-- What a custodian card answers in one exchange (16 R567): the status word, its serial and public key, its
signature, and a delivered component (nonce, ciphertext, tag). -/
structure CardReply where
  status : BitVec 16 := 0x9000
  serial : BitVec 64 := 0
  publicKey : Bytes := []
  signature : Bytes := []
  nonce : Bytes := []
  component : Bytes := []
  tag : Bytes := []
deriving DecidableEq, Repr

/-- The purposes of a host read that can fail (12 R454). -/
inductive ReadPurpose where
  | descriptor
  | bufferList
  | input
deriving DecidableEq, Repr

/-- The shared objects of 01 R29, in the order of its table. -/
inductive SharedObject where
  | custodyRegisters
  | keySlots
  | sessionTable
  | readyList
  | firmwareArea (bench : Nat)
  | dataArea (bench : Nat)
  | hostMemory
  | eventRecorder
  | flash
deriving DecidableEq, Repr

/-- Who makes a write: a PCI Express function or a region of the die, of a register; or a region, of a shared object at its
handshake (01 R29). -/
inductive Accessor where
  | function (f : Nat)
  | region (r : Region)
  | object (r : Region) (o : SharedObject)
deriving DecidableEq, Repr

/-- The interfaces that read counters (19 R642). -/
inductive Reader where
  | pcie
  | smbus
deriving DecidableEq, Repr

/-- A product of two limbs by one of the 16 multipliers: its low half goes to a column, its high half to the next (06 R196). -/
structure LimbProduct where
  column : Nat
  a : BitVec 64
  b : BitVec 64
deriving DecidableEq, Repr

/-- What a lane operation of polynomial mode brings to its lane: an operand to add or to take away, or the operand pairs whose 64-bit
products a lane multiplier forms, their sum reduced (07 R243 to R245, R247). -/
inductive LaneStep where
  | add (lane : Nat) (x : BitVec 32)
  | sub (lane : Nat) (x : BitVec 32)
  | mont (lane : Nat) (products : List (BitVec 32 × BitVec 32))
deriving DecidableEq, Repr

/-- A sum of products of integer or curve mode: how many products it sums, and the limb products that each row brings to the
columns (06 R196, R200, R202). -/
structure EngineProduct where
  sums : Nat := 1
  rows : List (List LimbProduct) := []
deriving DecidableEq, Repr

/-- What one engine did in its pass of an operation: the sums of products, or the lane operations of each layer; the scratch lines
it wrote, then those it read; its unblinded result (06 R196, R203, R213, R214, R228, R229; 07 R247). -/
structure EnginePass where
  products : List EngineProduct := []
  layers : List (List LaneStep) := []
  writes : List (Nat × Bytes) := []
  reads : List Nat := []
  result : Bytes := []
deriving DecidableEq, Repr

/-- What Keabor burns at the factory beside the part number, the device root and issued: the digest of the firmware keys, the watch
trim, the trims of G0 to G15, and the rest of the 1,024 calibration bits, the sensor and monitor trims (16 R551). -/
structure FactoryCalibration where
  romKeyDigest : BitVec 384 := 0
  watchTrim : BitVec 7 := 0x40
  gatherTrims : List (BitVec 6) := []
  monitorTrims : BitVec 921 := 0
deriving DecidableEq, Repr

/-- The two passes of a Marver operation (06 R213). -/
structure MarverOutcome where
  passA : EnginePass := {}
  passB : EnginePass := {}
deriving DecidableEq, Repr

/-- Where the two datapaths of a cipher or Punty engine are compared (08 R276). -/
inductive ComparePoint where
  | block
  | contextSave
  | finalOutput
deriving DecidableEq, Repr

/-- What a cipher or Punty engine showed at a comparison: whether its datapaths differ, the pair (eq, ne) of a comparison, the
valid-byte count of a last word (08 R274, R276, R279). -/
structure BlockOutcome where
  point : ComparePoint := .block
  difference : Bool := false
  flags : Option (Bool × Bool) := none
  lastCount : Option Nat := none
deriving DecidableEq, Repr

/-- What the known-answer test of an engine showed: its outputs on the vectors in the order of the ROM, and whether its detectors caught
what the test forced: a spill, or a datapath difference and a flag fault (06 R232; 08 R298). -/
structure KatFindings where
  outputs : List Bytes := []
  spill : Bool := false
  difference : Bool := false
  flag : Bool := false
deriving DecidableEq, Repr

/-- What Lehr sees at a Retire or Stage-out of the job's core and memories (20 R650, R652). -/
inductive UnitFault where
  | none
  | core
  | localMemory
  | firmwareRow (row : Nat)
  | dataRow (row : Nat)
  | pendingEntry
  | correctable (firmware : Bool) (row : Nat)
deriving DecidableEq, Repr

/-- The commands of the block, in the order of spec/opcode_table.json. -/
inductive Instr where
  -- start, straps and reset (14)
  | releaseOfReset (straps : BitVec 12)
  | resetAsserted (pin : ResetPin)
  | perstNAsserted
  | perstNDeasserted
  | hostRegionReinitEnd
  | strapChanged (live : BitVec 12)
  | startPhaseEnd (found : PhaseFindings)
  | rollCallReport (bench : Nat) (report : RollCall)
  | crystalStartTimeout
  | startPhaseBoundExceeded
  -- the fabric and its timebase (02)
  | watchTick (crystalEdge : Bool)
  | watchCalibrationSecond (second : Nat)
  | crystalEdgeLoss
  | voltageSample (millivolts : List Nat)
  | temperatureSample (diode : List Int) (oscillator : List Int)
  | handshakeTimeout (requester : Region) (far : Region) (raised : Nat)
  | lateAcknowledge (requester : Region) (far : Region)
  | heartbeatAcknowledge (region : Region)
  | tickLossDetected (region : Region)
  -- network paths (13)
  | arpRequest (isB : Bool) (link : LinkInfo)
  | neighbourSolicitation (isB : Bool) (link : LinkInfo)
  | hello (isB : Bool) (frame : Frame)
  | finish (isB : Bool) (frame : Frame)
  | htlRequest (isB : Bool) (frame : Frame)
  | htlCancel (isB : Bool) (frame : Frame)
  | keepalive (isB : Bool) (frame : Frame)
  | rekey (isB : Bool) (frame : Frame)
  | close (isB : Bool) (frame : Frame)
  | handshakeMessageTimeout (session : Nat)
  | rekeyWindowEnd (session : Nat)
  | rekeyDueTimer (session : Nat)
  | sessionIdleTimeout (session : Nat)
  | handover (isB : Bool)
  | handoverEnd
  | pathOfflineWrite (isB : Bool) (offline : Bool)
  | linkDown (isB : Bool)
  | linkUp (isB : Bool)
  -- host interface (12)
  | sqTailDoorbell (function : Nat) (queue : Nat) (tail : BitVec 12)
  | cqHeadDoorbell (function : Nat) (queue : Nat) (head : BitVec 12)
  | descriptorFetch (function : Nat) (queue : Nat) (descriptor : Bytes) (list : Bytes) (input : Bytes)
  | hostReadFailure (purpose : ReadPurpose) (function : Nat) (queue : Nat) (cid : BitVec 16)
  | coalesceTimerExpiry (function : Nat) (queue : Nat)
  | intEnableSet (function : Nat) (queue : Nat)
  | queueEnableWrite (function : Nat) (queue : Nat) (value : Word)
  | mbxFunctionInfo (function : Nat) (message : Bytes)
  | mbxRelayToManager (function : Nat) (message : Bytes)
  | mbxRelayToVf (message : Bytes)
  | mbxOutValidClear (function : Nat)
  | functionEnable (function : Nat)
  | functionDisable (function : Nat)
  | quiesceSet (function : Nat)
  | quiesceClear (function : Nat)
  | functionLevelReset (function : Nat)
  | vfEnableClear
  | drainEnd (function : Nat)
  | acuRegionWrite (function : Nat) (region : Nat) (word : Nat) (value : Word)
  | pfDefaultClear
  | pringConsWrite (function : Nat) (cons : BitVec 12)
  -- Gaffer, recipes and Lehr (04, 20, 21)
  | coreWorkRequest (core : CoreRef)
  | checkVerdict (core : CoreRef) (pairDiffers : Bool)
  | lockstepPartnerTimeout (core : CoreRef)
  | stageOut (core : CoreRef) (fault : UnitFault)
  | retire (job : Nat) (fault : UnitFault)
  | coreSelftestEnd (core : CoreRef) (passed : Bool)
  | journalEntryDurable (entry : Nat) (programmed : Bool)
  | floorReached (job : Nat)
  | gridPoint (leftA : Nat) (leftB : Nat)
  | expiryScan
  -- shares and arbitration (05)
  | creditWindowBoundary
  | arbiterRequest (core : CoreRef) (kind : Nat) (amount : Nat)
  | grantRelease (core : CoreRef) (kind : Nat) (unit : Nat) (units : Nat)
  | overHoldCutoff (core : CoreRef) (kind : Nat) (unit : Nat) (units : Nat)
  -- engines (06, 07, 08)
  | marverOperationEnd (core : CoreRef) (engineA : Nat) (engineB : Nat) (outcome : MarverOutcome)
  | engineBlockCompare (core : CoreRef) (kind : EngineKind) (engine : Nat) (outcome : BlockOutcome)
  | periodicKatWithdrawal (bench : Nat)
  | engineKatEnd (bench : Nat) (kind : EngineKind) (engine : Nat) (findings : KatFindings)
  | recoveryTraceWindowEnd
  -- key store (03)
  | keyLookup (core : CoreRef) (port : Nat) (handle : BitVec 32)
  | tagVerdict (core : CoreRef) (port : Nat)
  | remaskIntervalExpiry
  | remaskNow
  | remaskStep
  | conversionEnd
  | benchRowConversionEnd (bench : Nat)
  | sweepStep (sweep : Nat)
  -- Gather (09)
  | gatherWindowEnd (source : Nat) (bits : List Bool)
  | conditionedBlock (source : Nat)
  | reseedTimerExpiry (bench : Nat)
  | sourceWakeTestEnd (source : Nat) (passed : Bool)
  -- tamper (17)
  | detectorTrip (source : Nat) (detector : Detector)
  | culletOverwriteEnd
  | tripFuseBurn (source : Nat)
  | detectorChallenge
  | challengeEnd (tripped : Bool) (quiet : Bool)
  | analogPairMismatch (source : Nat) (detector : Detector)
  | sourceClear (source : Nat)
  | alarmStretchEnd (source : Nat)
  | nightMeshCheck (source : Nat) (failed : Bool)
  -- power and debug (22)
  | mainSuppliesFall
  | batterySwitchover (toVbat : Bool)
  | vbatMeasurement (millivolts : Nat)
  | requestDusk (core : CoreRef)
  | prepareNight (core : CoreRef)
  | abandonNightPreparation (core : CoreRef)
  | setAutomaticDusk (core : CoreRef)
  | closeDebugLevel (core : CoreRef)
  | automaticDuskTimer
  | duskEntry
  | wakeComplete
  | nightReady
  | tapOpen (level : Nat)
  | tapClose
  | diagnosticExpiry
  | tapAccessBeyondLevel
  | tamperDisableBurn (source : Nat)
  -- event recorder and SMBus (19)
  | eventAccept
  | summaryDue (code : BitVec 16)
  | flashLogPageWrite (programmed : Bool)
  | smbusDeviceIdentity
  | smbusStatus
  | smbusTemperatures
  | smbusSupplies
  | smbusRecordCounts
  | smbusNewestRecord
  | smbusClearAlertCause (value : Byte) (pecOk : Bool)
  | alertResponseAddressRead (wins : Bool)
  | hostNotifyAcknowledge
  | alertUnansweredTimeout
  | alertBackoffExpiry
  | alertResume
  | smbusClockLowTimeout
  -- self-tests and registers
  | mrvSelftestStart (bench : Nat) (engines : BitVec 8)
  | cipSelftestStart (bench : Nat) (engines : BitVec 4)
  | digSelftestStart (bench : Nat) (engines : BitVec 2)
  | digCacheFlush (bench : Nat)
  | counterLowWordRead (reader : Reader) (function : Nat) (offset : Nat)
  | evrReadD0 (reader : Reader)
  | registerWrite (accessor : Accessor) (offset : Nat) (value : Word)
  -- cards and custody verbs (16, 11)
  | cardInserted (portB : Bool)
  | cardRemoved (portB : Bool)
  | cardExchangeTimeout (portB : Bool)
  | lock (core : CoreRef)
  | openQuorum (core : CoreRef)
  | presentCard (core : CoreRef) (reply : CardReply)
  | abandonQuorum (core : CoreRef)
  | custodyInformation (core : CoreRef)
  | retireWithoutQuorum (core : CoreRef)
  | quorumExpiry
  | componentSessionExpiry (session : Nat)
  -- key management verbs (11)
  | generateSymmetricKey (core : CoreRef)
  | importKeyBlock (core : CoreRef)
  | exportKeyBlock (core : CoreRef)
  | restorePersistenceBlock (core : CoreRef)
  | deleteKey (core : CoreRef)
  | componentSessionBegin (core : CoreRef)
  | componentAdd (core : CoreRef) (reply : CardReply)
  | componentComplete (core : CoreRef)
  | deriveKey (core : CoreRef)
  | exportUnderPublicKey (core : CoreRef)
  | importUnderPrivateKey (core : CoreRef)
  | openRootRotation (core : CoreRef)
  | closeRootRotation (core : CoreRef)
  | massRewrap (core : CoreRef)
  | suspendOrResumeKey (core : CoreRef)
  | purgeTenant (core : CoreRef)
  | keyInformation (core : CoreRef)
  -- payment verbs (10)
  | pinTranslateZoneToZone (core : CoreRef)
  | pinTranslateDukptToZone (core : CoreRef)
  | pinVerifyOffset (core : CoreRef)
  | pinOffsetGenerate (core : CoreRef)
  | pinVerifyVerificationValue (core : CoreRef)
  | pinVerificationValueGenerate (core : CoreRef)
  | pinTranslateZoneToDukpt (core : CoreRef)
  | cardVerificationValueGenerate (core : CoreRef)
  | cardVerificationValueVerify (core : CoreRef)
  | arqcVerify (core : CoreRef)
  | arqcVerifyAndArpcGenerate (core : CoreRef)
  | encryptData (core : CoreRef)
  | decryptData (core : CoreRef)
  | macGenerate (core : CoreRef)
  | macVerify (core : CoreRef)
  -- classical and lattice verbs (11)
  | rsaKeyGeneration (core : CoreRef)
  | rsaSign (core : CoreRef)
  | rsaVerify (core : CoreRef)
  | rsaDecrypt (core : CoreRef)
  | rsaEncrypt (core : CoreRef)
  | ecKeyGeneration (core : CoreRef)
  | ecdsaSign (core : CoreRef)
  | ecdsaVerify (core : CoreRef)
  | ecdhToNewSlot (core : CoreRef)
  | eddsaKeyGeneration (core : CoreRef)
  | eddsaSign (core : CoreRef)
  | eddsaVerify (core : CoreRef)
  | publicKeyImport (core : CoreRef)
  | mlKemKeyGeneration (core : CoreRef)
  | mlKemEncapsulate (core : CoreRef)
  | mlKemDecapsulate (core : CoreRef)
  | mlDsaKeyGeneration (core : CoreRef)
  | mlDsaSign (core : CoreRef)
  | mlDsaVerify (core : CoreRef)
  -- digest, retention signing, random (11)
  | digest (core : CoreRef)
  | retentionSign (core : CoreRef)
  | lmsHssKeyGeneration (core : CoreRef)
  | lmsHssVerify (core : CoreRef)
  | random (core : CoreRef)
  -- cancel, flash verbs, attestation, events, tenant reset (12, 15, 18, 19, 20)
  | cancel (function : Nat) (queue : Nat) (descriptor : Bytes)
  | writeConfigurationCopy (core : CoreRef)
  | mirrorConfigurationCopy (core : CoreRef)
  | writeFirmwareImage (core : CoreRef)
  | flashWriteReadbackEnd (matched : Bool)
  | attest (core : CoreRef)
  | readCertificateChain (core : CoreRef)
  | readEventLog (core : CoreRef)
  | resetTenant (core : CoreRef)
  | keaborFactoryProgramming (part : Nat) (deviceRoot : Bytes) (calibration : FactoryCalibration)
  | lossOfVbat
  | detectorQuiet (source : Nat) (detector : Detector)
  | operatingSecond
  | atrTimeout (portB : Bool)
  | mbxOtherTypeIgnored (function : Nat) (message : Bytes)
  | vfEnableSet (numVfs : Nat)
deriving DecidableEq, Repr

end Sys2Proof
end

