-- ==== Sys2Proof/Decode.lean ====
section
/-! DEFINITION. The decoding of the opcode table's words. No row of the table gives bits (the commands are events and
operations, not words), so no word spells a command. -/

namespace Sys2Proof

/-- The command that a word spells by the table's bits: none, since the table gives no row bits. -/
def decodeTableWord (_nbits _w : Nat) : Option Instr := none

end Sys2Proof
end

