-- ==== Sys2Proof/Config.lean ====
section
/-! DEFINITION. What the specification leaves open: random draws, choices of the part, and derivations it names without
defining. Every constant here is opaque: nothing proves a value of it. -/

namespace Sys2Proof.Config

/-- The value a CMAC takes when its last part is empty and earlier parts were not (10 R375: the specification does not
say it), by algorithm code, key and chaining block. -/
opaque cmacEmptyEnd : BitVec 8 → Bytes → Bytes → Bytes
/-- The data length that padding method 3 prefixes when the data comes in parts (08 R272: not known at the first part). -/
opaque partsLength : Nat → Nat

/-- The mask key and tag key that the custody partition derives from a masking root, and the hash key from the tag key (03 R97,
R98). -/
opaque maskKey : BitVec 256 → BitVec 256
opaque tagKey : BitVec 256 → BitVec 256
opaque tagHashKey : BitVec 256 → BitVec 128

/-- A byte of the stream that masks the keys of a session table entry, by mask key, index and place (13 R487 masks them as key material; 03
R97 gives the counter blocks of key store slots alone). -/
opaque sessionMask : BitVec 256 → Nat → Nat → BitVec 8

/-- The value that a round of the Feistel network adds (03 R95: a four-round network keyed by the scramble key; its round
function is not given), by key, round and half. -/
opaque feistelValue : BitVec 128 → Nat → Nat → Nat

/-- DUKPT under a TDES key of 24 bytes, which ANSI X9.24-1 does not know (03 R77 permits it, 10 R352): the bytes of the
initial key of a base key and KSN, and of the PIN encryption key of an initial key and KSN. -/
opaque dukptInitialByte : Bytes → Bytes → Nat → BitVec 8
opaque dukptPinByte : Bytes → Bytes → Nat → BitVec 8

/-- Which of the usage codes and modes of use that a row of 11 R392 offers an exported block names (the specification
maps headers to keys, and does not say which header a key gets where several map to it). -/
opaque keyBlockChoice : Nat
/-- The filler of the padding block that completes the optional blocks of an exported header. -/
opaque keyBlockFiller : Nat → BitVec 8
/-- RSA: the candidates at which the searches of the two primes end up, from a draw, by size (06 R224, 11 R407: the search is not
described). -/
opaque rsaCandidates : Nat → Nat → Nat × Nat

/-- The key_param of a public key that stands in the input before the message (11 R405 options[3]): the specification
does not say how its size is told. -/
opaque inputKeyParam : BitVec 8 → Bytes → BitVec 8

/-- LMS and HSS (RFC 8554, 11 R410): the seed and identifier of a lower tree, by the key's material, level and number of the
tree in its level; and the randomizer of a one-time signature, by seed, identifier and leaf. RFC 8554 leaves both open. -/
opaque hssChild : Bytes → Nat → Nat → Bytes
opaque lmsRandomizer : Bytes → Bytes → Nat → Bytes

/-- A byte of the seed that a draw of a device instance waits for when the pool can form none at that moment (09 R313, R315), by
draw and position: the blocks that will form it have not arrived. -/
opaque lateSeed : Nat → Nat → BitVec 8

/-- The accumulator or lane passes that one run of a Marver operation takes, by opcode, limbs of its modulus or parameter of its
key, and processed exponent or scalar length: it depends on nothing else (06 R208), and the specification states no number. -/
opaque marverPasses : BitVec 16 → Nat → Nat → Nat

/-- The blocks or compressions that a recipe other than those of 0x05xx and 0x0801 takes, by engine kind, opcode, class of its key and
length of its input: the specification does not write its recipes out (08 R301, R302). -/
opaque recipeBlocks : Nat → BitVec 16 → BitVec 8 → Nat → Nat
/-- The ROM of the known-answer tests: what stands at a place, by engine kind (06 R232, 08 R298: the vectors are not given). -/
opaque katRom : Nat → Nat → Bytes

/-- The steps after which an RSA key or an LMS tree is found, or a copy or an image is examined, by job (06 R225; 11 R410; 15 R541). -/
opaque stepsNeeded : Nat → Nat

/-- The output of 0x0111 for the clear attributes of a key: the specification does not give its layout (11 R389). -/
opaque keyInformation : Bytes → Bytes

/-- Does the n-th choice among the free slots at an allocation (03 R87: Yunante chooses the slots). -/
opaque slotChoice : Nat → Nat

/-- Where the search for a free index of the session table begins (13 R472: Yunante allocates it). -/
opaque sessionChoice : Nat → Nat

/-- How many sessions a hand-over had copied when its path failed (13 R492, R496: the copying is not a step of its own). -/
opaque sessionsCopied : Nat → Nat

/-- The engine time that a refused recipe would have used, by recipe, engine kind and floor (04 R158). -/
opaque refusedEngineTime : BitVec 16 → Nat → Nat → Nat

/-- The 64-byte words that a grant of the hub has moved when it ends without the mover's count (05 R181), by job. -/
opaque hubMoved : Nat → Nat

/-- The rows of bench shared memory: the value that a round of the row permutation adds, by bench key, round and half; and the
keystream that masks a row, by bench key, physical row and byte (01 R14: the functions are not given). -/
opaque rowValue : BitVec 256 → Nat → Nat → Nat
opaque rowMask : BitVec 256 → Nat → Nat → BitVec 8

/-- What a known key of Keabor's firmware signing verifies (15 R545). -/
opaque firmwareSignature : Bytes → Bytes → Bool

/-- The offset that event 0x0803 gives for a failed write other than a page of the event log: the specification does not
place journal entries and failing pages (15 R521, 19 R641). -/
opaque flashOffset : Nat → Nat

/-- A raise of the trim code slows the watch oscillator (02 R42, R44: the specification gives the step, not its sense). -/
opaque trimSlows : Bool

/-- The IPv6 link-local address of a path with a MAC address (13 R459 names one and does not say how it is formed). -/
opaque linkLocal : BitVec 48 → BitVec 128

/-- The die stepping (12 R419), the revision of the part. -/
opaque dieStepping : BitVec 16

end Sys2Proof.Config
end

