-- ==== Sys2Proof/Machine/Operands.lean ====
section
/-! DEFINITION. Operand forms: byte order, bit fields, parameter blocks and checksums shared by every command. -/

namespace Sys2Proof.Machine

/-- The little-endian value of a byte string (00 R7). -/
def leNat : Bytes → Nat
  | [] => 0
  | b :: t => b.toNat + 256 * leNat t

/-- The big-endian value of a byte string. -/
def beNat (bs : Bytes) : Nat := leNat bs.reverse

/-- The `n` little-endian bytes of a value. -/
def leBytes : Nat → Nat → Bytes
  | 0, _ => []
  | n + 1, v => BitVec.ofNat 8 v :: leBytes n (v / 256)

/-- The `n` big-endian bytes of a value. -/
def beBytes (n v : Nat) : Bytes := (leBytes n v).reverse

/-- The byte at an offset; beyond the end reads as zero. -/
def byteAt (bs : Bytes) (n : Nat) : Byte := (bs[n]?).getD 0

/-- `len` bytes from an offset, zero-filled beyond the end. -/
def field (bs : Bytes) (off len : Nat) : Bytes := (List.range len).map (fun i => byteAt bs (off + i))

/-- The little-endian number in `len` bytes at an offset. -/
def num (bs : Bytes) (off len : Nat) : Nat := leNat (field bs off len)

/-- Pad with zeros, or cut, to a length. -/
def fit (len : Nat) (bs : Bytes) : Bytes := field bs 0 len

/-- Every byte in a range of offsets is zero (RSV fields). -/
def zeros (bs : Bytes) (off len : Nat) : Bool := (field bs off len).all (fun b => b == 0)

def bytesXor (a b : Bytes) : Bytes := List.zipWith (fun x y => x ^^^ y) a b

/-- A bit vector as big-endian bytes, and back. -/
def bvBytes {w : Nat} (n : Nat) (v : BitVec w) : Bytes := beBytes n v.toNat
def bytesBv (w : Nat) (bs : Bytes) : BitVec w := BitVec.ofNat w (beNat bs)

/-- ASCII letters, of labels. -/
def ascii (s : List Char) : Bytes := s.map (fun c => BitVec.ofNat 8 c.toNat)

/-- The decimal digit values 0 to 9 among nibbles. -/
def nibbles : Bytes → List Nat
  | [] => []
  | b :: t => (b.toNat / 16) :: (b.toNat % 16) :: nibbles t

/-- Pack nibbles into bytes, first nibble in the high half. -/
def packNibbles : List Nat → Bytes
  | a :: b :: t => BitVec.ofNat 8 (16 * a + b) :: packNibbles t
  | [a] => [BitVec.ofNat 8 (16 * a)]
  | [] => []

/-- One byte into the reflected CRC-32 register of IEEE 802.3 (15 R523). -/
def crcByte (crc : BitVec 32) (b : Byte) : BitVec 32 :=
  (List.range 8).foldl
    (fun c _ => if c.getLsbD 0 then (c >>> 1) ^^^ 0xEDB88320#32 else c >>> 1)
    (crc ^^^ b.setWidth 32)

/-- The CRC-32 of IEEE 802.3 over a byte string (15 R523). -/
def crc32 (bs : Bytes) : BitVec 32 := ~~~(bs.foldl crcByte 0xFFFFFFFF#32)

/-- A saturating increment of a bit vector. -/
def satInc {w : Nat} (v : BitVec w) : BitVec w := if v = BitVec.allOnes w then v else v + 1

/-- A saturating increment of a count with a ceiling. -/
def satNat (limit n : Nat) : Nat := if n < limit then n + 1 else n

/-- Round a rational a / b up. -/
def ceilDiv (a b : Nat) : Nat := (a + b - 1) / b

/-- The bytes of a string literal's characters, cut or padded to 4 bytes: the four-letter labels of derivations. -/
def label (s : String) : Bytes := ascii s.toList

end Sys2Proof.Machine
end

