-- ==== Sys2Proof/Machine/BlockCiphers.lean ====
section
/-! DEFINITION. The block primitives of 08 R270: AES (FIPS 197) and DES (NIST SP 800-67). PRESUMED: the specification names
these ciphers by their standards (00 R6) and does not write them out. -/

namespace Sys2Proof.Machine

/-! ### AES -/

/-- Multiplication by x in GF(2^8) modulo x^8 + x^4 + x^3 + x + 1. -/
def gfDouble (b : Byte) : Byte := (b <<< 1) ^^^ (if b.msb then 0x1B else 0)
/-- The substitution table of FIPS 197 and its inverse: sixteen rows of sixteen bytes. -/
def subRows : List Nat :=
  [0x637C777BF26B6FC53001672BFED7AB76, 0xCA82C97DFA5947F0ADD4A2AF9CA472C0,
   0xB7FD9326363FF7CC34A5E5F171D83115, 0x04C723C31896059A071280E2EB27B275,
   0x09832C1A1B6E5AA0523BD6B329E32F84, 0x53D100ED20FCB15B6ACBBE394A4C58CF,
   0xD0EFAAFB434D338545F9027F503C9FA8, 0x51A3408F929D38F5BCB6DA2110FFF3D2,
   0xCD0C13EC5F974417C4A77E3D645D1973, 0x60814FDC222A908846EEB814DE5E0BDB,
   0xE0323A0A4906245CC2D3AC629195E479, 0xE7C8376D8DD54EA96C56F4EA657AAE08,
   0xBA78252E1CA6B4C6E8DD741F4BBD8B8A, 0x703EB5664803F60E613557B986C11D9E,
   0xE1F8981169D98E949B1E87E9CE5528DF, 0x8CA1890DBFE6426841992D0FB054BB16]
def invSubRows : List Nat :=
  [0x52096AD53036A538BF40A39E81F3D7FB, 0x7CE339829B2FFF87348E4344C4DEE9CB,
   0x547B9432A6C2233DEE4C950B42FAC34E, 0x082EA16628D924B2765BA2496D8BD125,
   0x72F8F66486689816D4A45CCC5D65B692, 0x6C704850FDEDB9DA5E154657A78D9D84,
   0x90D8AB008CBCD30AF7E45805B8B34506, 0xD02C1E8FCA3F0F02C1AFBD0301138A6B,
   0x3A9111414F67DCEA97F2CFCEF0B4E673, 0x96AC7422E7AD3585E2F937E81C75DF6E,
   0x47F11A711D29C5896FB7620EAA18BE1B, 0xFC563E4BC6D279209ADBC0FE78CD5AF4,
   0x1FDDA8338807C731B11210592780EC5F, 0x60517FA919B54A0D2DE57A9F93C99CEF,
   0xA0E03B4DAE2AF5B0C8EBBB3C83539961, 0x172B047EBA77D626E169146355210C7D]
/-- SubBytes of a byte, and its inverse. -/
def tableByte (rows : List Nat) (a : Byte) : Byte :=
  BitVec.ofNat 8 (rows.getD (a.toNat / 16) 0 / 2 ^ (8 * (15 - a.toNat % 16)))
def subByte (a : Byte) : Byte := tableByte subRows a
def invSubByte (a : Byte) : Byte := tableByte invSubRows a
/-- ShiftRows on the state of 16 bytes, column by column, and its inverse. -/
def shiftRows (s : Bytes) : Bytes := (List.range 16).map (fun i => byteAt s (4 * ((i / 4 + i % 4) % 4) + i % 4))
def invShiftRows (s : Bytes) : Bytes := (List.range 16).map (fun i => byteAt s (4 * ((i / 4 + 4 - i % 4) % 4) + i % 4))
/-- A column of four bytes mixed. -/
def mixColumn (a b c d : Byte) : Bytes :=
  let s := a ^^^ b ^^^ c ^^^ d
  [a ^^^ s ^^^ gfDouble (a ^^^ b), b ^^^ s ^^^ gfDouble (b ^^^ c), c ^^^ s ^^^ gfDouble (c ^^^ d), d ^^^ s ^^^ gfDouble (d ^^^ a)]
/-- MixColumns, and its inverse: a column to which four times the sums of its alternate bytes are added, mixed. -/
def mixColumns : Bytes → Bytes
  | a :: b :: c :: d :: t => mixColumn a b c d ++ mixColumns t
  | _ => []
def invMixColumns : Bytes → Bytes
  | a :: b :: c :: d :: t =>
    let u := gfDouble (gfDouble (a ^^^ c))
    let v := gfDouble (gfDouble (b ^^^ d))
    mixColumn (a ^^^ u) (b ^^^ v) (c ^^^ u) (d ^^^ v) ++ invMixColumns t
  | _ => []

/-- Round constants. -/
def roundConstant : Nat → Byte
  | 0 => 0x8D
  | n + 1 => gfDouble (roundConstant n)
/-- Key expansion: words of four bytes, the latest first. -/
def expandGo (nk : Nat) : Nat → Nat → List Bytes → List Bytes
  | 0, _, ws => ws
  | fuel + 1, i, ws =>
    let prev := ws.headD []
    let t :=
      if i % nk = 0 then bytesXor ((prev.drop 1 ++ prev.take 1).map subByte) [roundConstant (i / nk), 0, 0, 0]
      else if 6 < nk ∧ i % nk = 4 then prev.map subByte else prev
    expandGo nk fuel (i + 1) (bytesXor (ws.getD (nk - 1) []) t :: ws)
/-- A key, cut or completed to 16, 24 or 32 bytes. -/
def aesKeyBytes (key : Bytes) : Bytes := fit (if key.length ≤ 16 then 16 else if key.length ≤ 24 then 24 else 32) key
/-- The round keys, first to last. -/
def aesRoundKeys (key : Bytes) : List Bytes :=
  let k := aesKeyBytes key
  let nk := k.length / 4
  let ws := (expandGo nk (4 * (nk + 7) - nk) nk ((List.range nk).map (fun i => field k (4 * i) 4)).reverse).reverse
  (List.range (nk + 7)).map (fun r => ((ws.drop (4 * r)).take 4).flatten)
def aesRounds : Bytes → List Bytes → Bytes
  | s, [] => s
  | s, [k] => bytesXor (shiftRows (s.map subByte)) k
  | s, k :: t => aesRounds (bytesXor (mixColumns (shiftRows (s.map subByte))) k) t
/-- AES encryption of a block under a key of 16, 24 or 32 bytes. -/
@[irreducible] def aesEncrypt (key : Bytes) (b : BitVec 128) : BitVec 128 :=
  match aesRoundKeys key with
  | k :: t => bytesBv 128 (aesRounds (bytesXor (bvBytes 16 b) k) t)
  | [] => b
/-- The inverse rounds, by the round keys from the last but one to the first. -/
def aesInvRounds : Bytes → List Bytes → Bytes
  | s, [] => s
  | s, [k] => bytesXor ((invShiftRows s).map invSubByte) k
  | s, k :: t => aesInvRounds (invMixColumns (bytesXor ((invShiftRows s).map invSubByte) k)) t
/-- AES decryption. -/
@[irreducible] def aesDecrypt (key : Bytes) (b : BitVec 128) : BitVec 128 :=
  match (aesRoundKeys key).reverse with
  | k :: t => bytesBv 128 (aesInvRounds (bytesXor (bvBytes 16 b) k) t)
  | [] => b

/-! ### DES -/

/-- A permutation table numbers bits from 1, the most significant first, of a value of a width. -/
def desPermute (width : Nat) (table : List Nat) (v : Nat) : Nat :=
  table.foldl (fun a i => 2 * a + (if v.testBit (width - i) then 1 else 0)) 0
/-- The initial and final permutations. -/
def desIp : List Nat :=
  [58, 50, 42, 34, 26, 18, 10, 2, 60, 52, 44, 36, 28, 20, 12, 4,
   62, 54, 46, 38, 30, 22, 14, 6, 64, 56, 48, 40, 32, 24, 16, 8,
   57, 49, 41, 33, 25, 17, 9, 1, 59, 51, 43, 35, 27, 19, 11, 3,
   61, 53, 45, 37, 29, 21, 13, 5, 63, 55, 47, 39, 31, 23, 15, 7]
/-- The final permutation. -/
def desFp : List Nat :=
  [40, 8, 48, 16, 56, 24, 64, 32, 39, 7, 47, 15, 55, 23, 63, 31,
   38, 6, 46, 14, 54, 22, 62, 30, 37, 5, 45, 13, 53, 21, 61, 29,
   36, 4, 44, 12, 52, 20, 60, 28, 35, 3, 43, 11, 51, 19, 59, 27,
   34, 2, 42, 10, 50, 18, 58, 26, 33, 1, 41, 9, 49, 17, 57, 25]
/-- The expansion of a half. -/
def desE : List Nat :=
  [32, 1, 2, 3, 4, 5, 4, 5, 6, 7, 8, 9,
   8, 9, 10, 11, 12, 13, 12, 13, 14, 15, 16, 17,
   16, 17, 18, 19, 20, 21, 20, 21, 22, 23, 24, 25,
   24, 25, 26, 27, 28, 29, 28, 29, 30, 31, 32, 1]
/-- The permutation after the S-boxes. -/
def desP : List Nat :=
  [16, 7, 20, 21, 29, 12, 28, 17, 1, 15, 23, 26, 5, 18, 31, 10,
   2, 8, 24, 14, 32, 27, 3, 9, 19, 13, 30, 6, 22, 11, 4, 25]
/-- The permuted choices of the key. -/
def desPc1 : List Nat :=
  [57, 49, 41, 33, 25, 17, 9, 1, 58, 50, 42, 34, 26, 18,
   10, 2, 59, 51, 43, 35, 27, 19, 11, 3, 60, 52, 44, 36,
   63, 55, 47, 39, 31, 23, 15, 7, 62, 54, 46, 38, 30, 22,
   14, 6, 61, 53, 45, 37, 29, 21, 13, 5, 28, 20, 12, 4]
/-- The choice of a round. -/
def desPc2 : List Nat :=
  [14, 17, 11, 24, 1, 5, 3, 28, 15, 6, 21, 10,
   23, 19, 12, 4, 26, 8, 16, 7, 27, 20, 13, 2,
   41, 52, 31, 37, 47, 55, 30, 40, 51, 45, 33, 48,
   44, 49, 39, 56, 34, 53, 46, 42, 50, 36, 29, 32]
/-- The eight S-boxes, four rows of sixteen hexadecimal digits each. -/
def desBoxes : List Nat :=
  [0xE4D12FB83A6C59070F74E2D1A6CB953841E8D62BFC973A50FC8249175B3EA06D,
   0xF18E6B34972DC05A3D47F28EC01A69B50E7BA4D158C6932FD8A13F42B67C05E9,
   0xA09E63F51DC7B428D709346A285ECBF1D6498F30B12C5AE71AD069874FE3B52C,
   0x7DE3069A1285BC4FD8B56F03472C1AE9A690CB7DF13E52843F06A1D8945BC72E,
   0x2C417AB6853FD0E9EB2C47D150FA3986421BAD78F9C5630EB8C71E2D6F09A453,
   0xC1AF92680D34E75BAF427C9561DE0B389EF528C3704A1DB6432C95FABE17608D,
   0x4B2EF08D3C975A61D0B7491AE35C2F8614BDC37EAF6805926BD814A7950FE23C,
   0xD2846FB1A93E50C71FD8A374C56B0E927B419CE206ADF35821E74A8DFC90356B]
/-- The S-boxes on 48 bits: the outer bits of six name the row. -/
def desSubstitute (v : Nat) : Nat :=
  (List.range 8).foldl (fun a n =>
    let x := v / 2 ^ (42 - 6 * n) % 64
    let entry := 16 * (2 * (x / 32) + x % 2) + x / 2 % 16
    16 * a + (desBoxes.getD n 0) / 2 ^ (4 * (63 - entry)) % 16) 0
/-- The left shifts of the key halves before each round. -/
def desShifts : List Nat := [1, 2, 4, 6, 8, 10, 12, 14, 15, 17, 19, 21, 23, 25, 27, 28]
def rotHalf (n v : Nat) : Nat := (v * 2 ^ n) % 2 ^ 28 + v / 2 ^ (28 - n)
def desRoundKeys (key : Nat) : List Nat :=
  let k := desPermute 64 desPc1 key
  desShifts.map (fun n => desPermute 56 desPc2 (rotHalf n (k / 2 ^ 28) * 2 ^ 28 + rotHalf n (k % 2 ^ 28)))
def desRound (p : Nat × Nat) (k : Nat) : Nat × Nat :=
  (p.2, p.1 ^^^ desPermute 32 desP (desSubstitute (desPermute 32 desE p.2 ^^^ k)))
/-- One block under round keys in an order. -/
def desBlock (keys : List Nat) (b : Nat) : Nat :=
  let v := desPermute 64 desIp b
  let p := keys.foldl desRound (v / 2 ^ 32, v % 2 ^ 32)
  desPermute 64 desFp (p.2 * 2 ^ 32 + p.1)
/-- Single DES (inside TDES and MAC algorithm 3). -/
@[irreducible] def desEncrypt (key b : BitVec 64) : BitVec 64 := BitVec.ofNat 64 (desBlock (desRoundKeys key.toNat) b.toNat)
@[irreducible] def desDecrypt (key b : BitVec 64) : BitVec 64 :=
  BitVec.ofNat 64 (desBlock (desRoundKeys key.toNat).reverse b.toNat)

end Sys2Proof.Machine
end

