-- ==== Sys2Proof/Machine/Digests.lean ====
section
/-! DEFINITION. The compressions of the digests of 08 R270: SHA-2 (FIPS 180-4) and the permutation of SHA-3 and SHAKE
(FIPS 202). PRESUMED: the specification names these functions by their standards (00 R6) and does not write them out. -/

namespace Sys2Proof.Machine

/-! ### SHA-2 -/

/-- The round constants of SHA-512: the fractions of the cube roots of the first 80 primes. Those of SHA-256 are the upper
halves of the first 64. -/
def shaKeys0 : List (BitVec 64) :=
  [0x428A2F98D728AE22, 0x7137449123EF65CD, 0xB5C0FBCFEC4D3B2F, 0xE9B5DBA58189DBBC,
   0x3956C25BF348B538, 0x59F111F1B605D019, 0x923F82A4AF194F9B, 0xAB1C5ED5DA6D8118,
   0xD807AA98A3030242, 0x12835B0145706FBE, 0x243185BE4EE4B28C, 0x550C7DC3D5FFB4E2,
   0x72BE5D74F27B896F, 0x80DEB1FE3B1696B1, 0x9BDC06A725C71235, 0xC19BF174CF692694,
   0xE49B69C19EF14AD2, 0xEFBE4786384F25E3, 0x0FC19DC68B8CD5B5, 0x240CA1CC77AC9C65,
   0x2DE92C6F592B0275, 0x4A7484AA6EA6E483, 0x5CB0A9DCBD41FBD4, 0x76F988DA831153B5,
   0x983E5152EE66DFAB, 0xA831C66D2DB43210, 0xB00327C898FB213F, 0xBF597FC7BEEF0EE4,
   0xC6E00BF33DA88FC2, 0xD5A79147930AA725, 0x06CA6351E003826F, 0x142929670A0E6E70,
   0x27B70A8546D22FFC, 0x2E1B21385C26C926, 0x4D2C6DFC5AC42AED, 0x53380D139D95B3DF,
   0x650A73548BAF63DE, 0x766A0ABB3C77B2A8, 0x81C2C92E47EDAEE6, 0x92722C851482353B]
def shaKeys1 : List (BitVec 64) :=
  [0xA2BFE8A14CF10364, 0xA81A664BBC423001, 0xC24B8B70D0F89791, 0xC76C51A30654BE30,
   0xD192E819D6EF5218, 0xD69906245565A910, 0xF40E35855771202A, 0x106AA07032BBD1B8,
   0x19A4C116B8D2D0C8, 0x1E376C085141AB53, 0x2748774CDF8EEB99, 0x34B0BCB5E19B48A8,
   0x391C0CB3C5C95A63, 0x4ED8AA4AE3418ACB, 0x5B9CCA4F7763E373, 0x682E6FF3D6B2B8A3,
   0x748F82EE5DEFB2FC, 0x78A5636F43172F60, 0x84C87814A1F0AB72, 0x8CC702081A6439EC,
   0x90BEFFFA23631E28, 0xA4506CEBDE82BDE9, 0xBEF9A3F7B2C67915, 0xC67178F2E372532B,
   0xCA273ECEEA26619C, 0xD186B8C721C0C207, 0xEADA7DD6CDE0EB1E, 0xF57D4F7FEE6ED178,
   0x06F067AA72176FBA, 0x0A637DC5A2C898A6, 0x113F9804BEF90DAE, 0x1B710B35131C471B,
   0x28DB77F523047D84, 0x32CAAB7B40C72493, 0x3C9EBE0A15C9BEBC, 0x431D67C49C100D4C,
   0x4CC5D4BECB3E42B6, 0x597F299CFC657E2A, 0x5FCB6FAB3AD6FAEC, 0x6C44198C4A475817]
def shaKeys : List (BitVec 64) := shaKeys0 ++ shaKeys1

/-- The initial words of SHA-512 and SHA-384: the fractions of the square roots of the first 16 primes. Those of SHA-256 are
the upper halves of the first, and those of SHA-224 the lower halves of the second. -/
def sha512Start : List (BitVec 64) :=
  [0x6A09E667F3BCC908, 0xBB67AE8584CAA73B, 0x3C6EF372FE94F82B, 0xA54FF53A5F1D36F1,
   0x510E527FADE682D1, 0x9B05688C2B3E6C1F, 0x1F83D9ABFB41BD6B, 0x5BE0CD19137E2179]
def sha384Start : List (BitVec 64) :=
  [0xCBBB9D5DC1059ED8, 0x629A292A367CD507, 0x9159015A3070DD17, 0x152FECD8F70E5939,
   0x67332667FFC00B31, 0x8EB44A8768581511, 0xDB0C2E0D64F98FA7, 0x47B5481DBEFA4FA4]
/-- The initial words of SHA-512/256. -/
def sha512t256Start : List (BitVec 64) :=
  [0x22312194FC2BF72C, 0x9F555FA3C84C64C2, 0x2393B86B6F53B151, 0x963877195940EABD,
   0x96283EE2A88EFFE3, 0xBE5E1E2553863992, 0x2B0199FC2C85B8AA, 0x0EB72DDC81C52CA2]

/-- The rotations and shifts of a word width: the functions Σ0, Σ1, σ0 and σ1. -/
structure ShaShape (w : Nat) where
  big0 : BitVec w → BitVec w
  big1 : BitVec w → BitVec w
  small0 : BitVec w → BitVec w
  small1 : BitVec w → BitVec w
def sha256Shape : ShaShape 32 :=
  { big0 := fun x => x.rotateRight 2 ^^^ x.rotateRight 13 ^^^ x.rotateRight 22
    big1 := fun x => x.rotateRight 6 ^^^ x.rotateRight 11 ^^^ x.rotateRight 25
    small0 := fun x => x.rotateRight 7 ^^^ x.rotateRight 18 ^^^ x >>> 3
    small1 := fun x => x.rotateRight 17 ^^^ x.rotateRight 19 ^^^ x >>> 10 }
def sha512Shape : ShaShape 64 :=
  { big0 := fun x => x.rotateRight 28 ^^^ x.rotateRight 34 ^^^ x.rotateRight 39
    big1 := fun x => x.rotateRight 14 ^^^ x.rotateRight 18 ^^^ x.rotateRight 41
    small0 := fun x => x.rotateRight 1 ^^^ x.rotateRight 8 ^^^ x >>> 7
    small1 := fun x => x.rotateRight 19 ^^^ x.rotateRight 61 ^^^ x >>> 6 }

/-- The message schedule, the latest word first. -/
def shaSchedule {w : Nat} (f : ShaShape w) : Nat → List (BitVec w) → List (BitVec w)
  | 0, ws => ws
  | n + 1, ws =>
    shaSchedule f n ((f.small1 (ws.getD 1 0) + ws.getD 6 0 + f.small0 (ws.getD 14 0) + ws.getD 15 0) :: ws)
/-- One round on the eight working words, with a round constant and a word of the schedule. -/
def shaRound {w : Nat} (f : ShaShape w) (s : List (BitVec w)) (kw : BitVec w × BitVec w) : List (BitVec w) :=
  match s with
  | [a, b, c, d, e, g, h, i] =>
    let t1 := i + f.big1 e + (e &&& g ^^^ ~~~e &&& h) + kw.1 + kw.2
    let t2 := f.big0 a + (a &&& b ^^^ a &&& c ^^^ b &&& c)
    [t1 + t2, a, b, c, d + t1, e, g, h]
  | _ => s
/-- One compression: the chaining words after a block of 16 words. -/
def shaCompress {w : Nat} (f : ShaShape w) (keys : List (BitVec w)) (st block : List (BitVec w)) : List (BitVec w) :=
  let ws := (shaSchedule f (keys.length - 16) block.reverse).reverse
  List.zipWith (fun a b => a + b) st ((keys.zip ws).foldl (shaRound f) st)

/-- Big-endian words of a string, and back. -/
def wordsGo (w : Nat) : Nat → Bytes → List (BitVec w)
  | 0, _ => []
  | n + 1, b => bytesBv w (b.take (w / 8)) :: wordsGo w n (b.drop (w / 8))
def bytesOfWords {w : Nat} (ws : List (BitVec w)) : Bytes := ws.flatMap (bvBytes (w / 8))
def sha256Keys : List (BitVec 32) := (shaKeys.take 64).map (fun k => k.extractLsb' 32 32)
/-- SHA-2 of 32-bit and of 64-bit words, on byte strings. -/
def sha32Block (st block : Bytes) : Bytes :=
  bytesOfWords (shaCompress sha256Shape sha256Keys (wordsGo 32 8 st) (wordsGo 32 16 block))
def sha64Block (st block : Bytes) : Bytes :=
  bytesOfWords (shaCompress sha512Shape shaKeys (wordsGo 64 8 st) (wordsGo 64 16 block))

/-! ### Keccak (07 R249: 24 passes) -/

/-- The shift register x⁸ + x⁶ + x⁵ + x⁴ + 1 whose output bits make up the round constants. -/
def keccakShift (r : Nat) : Nat := if r < 128 then 2 * r else (2 * r) ^^^ 0x171
/-- The constant of the pass that begins with the register at r: output bit j stands at bit 2^j − 1. -/
def passConstant : Nat → Nat → Nat → Nat
  | 0, _, _ => 0
  | n + 1, j, r => (if r % 2 = 1 then 2 ^ (2 ^ j - 1) else 0) + passConstant n (j + 1) (keccakShift r)
def afterPass (r : Nat) : Nat := (List.range 7).foldl (fun x _ => keccakShift x) r
/-- Where the t-th step of the walk over the 24 lanes beside lane (0, 0) stands: (1, 0) at first, then (y, 2x + 3y). -/
def laneWalk : Nat → Nat × Nat
  | 0 => (1, 0)
  | t + 1 => let p := laneWalk t; (p.2, (2 * p.1 + 3 * p.2) % 5)
/-- The five lanes of a plane, and the five planes of the state: plane y holds lanes (0, y) to (4, y). -/
abbrev Plane := List (BitVec 64)
def xorPlanes (p q : Plane) : Plane := List.zipWith (fun a b => a ^^^ b) p q
/-- A plane whose lane x is lane x + n of another. -/
def turn (n : Nat) (p : Plane) : Plane := p.drop n ++ p.take n
/-- Each lane gains the parity of the column before it and, turned by one bit, of the column after it. -/
def mixColumns5 (s : List Plane) : List Plane :=
  let parity := s.foldl xorPlanes (List.replicate 5 0)
  s.map (xorPlanes (xorPlanes (turn 4 parity) ((turn 1 parity).map (fun a => a.rotateLeft 1))))
def laneOf (s : List Plane) (p : Nat × Nat) : BitVec 64 := ((s[p.2]?).getD [])[p.1]?.getD 0
def putLane (v : BitVec 64) (p : Nat × Nat) (s : List Plane) : List Plane := s.modify p.2 (fun q => q.set p.1 v)
/-- Step t of the walk: the lane it stands at moves, turned by the triangular number of t + 1, to where the next stands. -/
def planeWalk (s : List Plane) : Nat → List Plane → List Plane
  | 0, out => out
  | t + 1, out => planeWalk s t (putLane ((laneOf s (laneWalk t)).rotateLeft ((t + 1) * (t + 2) / 2 % 64)) (laneWalk (t + 1)) out)
/-- In each plane a lane is flipped where the next lane is 0 and the one after it is 1. -/
def chooseLanes (p : Plane) : Plane := xorPlanes p (List.zipWith (fun a b => b &&& ~~~a) (turn 1 p) (turn 2 p))
/-- One pass, with the register of the constants. -/
def keccakPass (s : List Plane × Nat) : List Plane × Nat :=
  let m := mixColumns5 s.1
  let c := (planeWalk m 24 m).map chooseLanes
  (putLane (laneOf c (0, 0) ^^^ BitVec.ofNat 64 (passConstant 7 0 s.2)) (0, 0) c, afterPass s.2)
def passes (n : Nat) (s : List Plane × Nat) : List Plane × Nat := (List.range n).foldl (fun x _ => keccakPass x) s
/-- Plane y of 200 bytes, each lane little-endian. -/
def planeAt (st : Bytes) (y : Nat) : Plane := (List.range 5).map (fun x => BitVec.ofNat 64 (leNat ((st.drop (40 * y + 8 * x)).take 8)))
def keccakF (st : Bytes) : Bytes :=
  (passes 24 ((List.range 5).map (planeAt st), 1)).1.flatMap (fun p => p.flatMap (fun l => leBytes 8 l.toNat))

/-! ### By code of 08 R270 -/

/-- The initial state of a hash code. -/
@[irreducible] def hashStart (alg : Nat) : Bytes :=
  match alg with
  | 0x21 => bytesOfWords (sha384Start.map (fun k => k.extractLsb' 0 32))
  | 0x22 => bytesOfWords (sha512Start.map (fun k => k.extractLsb' 32 32))
  | 0x23 => bytesOfWords sha384Start
  | 0x24 => bytesOfWords sha512Start
  | 0x25 => bytesOfWords sha512t256Start
  | _ => List.replicate 200 0
/-- One compression of a block, or one permutation of a state that has absorbed a block of the rate. -/
@[irreducible] def hashStep (alg : Nat) (st block : Bytes) : Bytes :=
  if alg = 0x21 ∨ alg = 0x22 then sha32Block st block
  else if alg < 0x30 then sha64Block st block
  else keccakF (bytesXor (st.take block.length) block ++ st.drop block.length)

end Sys2Proof.Machine
end

