-- ==== Sys2Proof/Machine/Cipher.lean ====
section
/-! DEFINITION. The cipher and digest algorithms of 08 R270 to R275 over the block primitives: modes, MAC
algorithms, padding, and digests. -/

namespace Sys2Proof.Machine

/-- AES of one 16-byte block under a key of 16, 24 or 32 bytes. -/
def aesEnc (key b : Bytes) : Bytes := bvBytes 16 (aesEncrypt key (bytesBv 128 b))
def aesDec (key b : Bytes) : Bytes := bvBytes 16 (aesDecrypt key (bytesBv 128 b))
/-- Single DES of one 8-byte block (inside TDES, MAC algorithm 3 and card verification values only). -/
def desEnc (key b : Bytes) : Bytes := bvBytes 8 (desEncrypt (bytesBv 64 key) (bytesBv 64 b))
def desDec (key b : Bytes) : Bytes := bvBytes 8 (desDecrypt (bytesBv 64 key) (bytesBv 64 b))
/-- The three DES keys of a double- or triple-length TDES key. -/
def tdesKey (key : Bytes) (n : Nat) : Bytes := if n = 2 ∧ key.length ≤ 16 then field key 0 8 else field key (8 * n) 8
def tdesEnc (key b : Bytes) : Bytes := desEnc (tdesKey key 2) (desDec (tdesKey key 1) (desEnc (tdesKey key 0) b))
def tdesDec (key b : Bytes) : Bytes := desDec (tdesKey key 0) (desEnc (tdesKey key 1) (desDec (tdesKey key 2) b))

/-- One block under AES or TDES. -/
def blockEnc (aes : Bool) (key b : Bytes) : Bytes := if aes then aesEnc key b else tdesEnc key b
def blockDec (aes : Bool) (key b : Bytes) : Bytes := if aes then aesDec key b else tdesDec key b
def blockSize (aes : Bool) : Nat := if aes then 16 else 8

/-- Cut a string into pieces of n bytes; the last may be shorter. -/
def chunksGo (n : Nat) : Nat → Bytes → List Bytes
  | 0, _ => []
  | fuel + 1, bs => if bs.isEmpty then [] else bs.take n :: chunksGo n fuel (bs.drop n)
def chunks (n : Nat) (bs : Bytes) : List Bytes := chunksGo n bs.length bs

/-- The modes' state between parts is the chaining block; each gives the output and the next chaining block. -/
def cbcEnc (aes : Bool) (key : Bytes) : Bytes → List Bytes → Bytes × Bytes
  | iv, [] => ([], iv)
  | iv, b :: t =>
    let c := blockEnc aes key (bytesXor b iv)
    let (rest, last) := cbcEnc aes key c t
    (c ++ rest, last)
def cbcDec (aes : Bool) (key : Bytes) : Bytes → List Bytes → Bytes × Bytes
  | iv, [] => ([], iv)
  | iv, c :: t =>
    let (rest, last) := cbcDec aes key c t
    (bytesXor (blockDec aes key c) iv ++ rest, last)
/-- CFB with segments of s bytes: the register shifts in each ciphertext segment. -/
def cfb (enc : Bool) (aes : Bool) (key : Bytes) : Bytes → List Bytes → Bytes × Bytes
  | iv, [] => ([], iv)
  | iv, b :: t =>
    let o := bytesXor b (blockEnc aes key iv)
    let c := if enc then o else b
    let (rest, last) := cfb enc aes key ((iv ++ c).drop c.length) t
    (o ++ rest, last)
def ofb (aes : Bool) (key : Bytes) : Bytes → List Bytes → Bytes × Bytes
  | iv, [] => ([], iv)
  | iv, b :: t =>
    let k := blockEnc aes key iv
    let (rest, last) := ofb aes key k t
    (bytesXor b k ++ rest, last)
/-- CTR: one 128-bit big-endian counter, incremented by one per block (08 R271). -/
def ctrMode (key : Bytes) : Bytes → List Bytes → Bytes × Bytes
  | iv, [] => ([], iv)
  | iv, b :: t =>
    let (rest, last) := ctrMode key (beBytes 16 (beNat iv + 1)) t
    (bytesXor b (aesEnc key iv) ++ rest, last)

/-- The mode of an algorithm code: 0x01 to 0x06 AES, 0x11 to 0x15 TDES (08 R270). -/
def runMode (enc : Bool) (alg : Nat) (key iv : Bytes) (data : Bytes) : Bytes × Bytes :=
  let aes := decide (alg < 0x10)
  let bs := chunks (blockSize aes) data
  match alg % 16 with
  | 1 => (bs.flatMap (fun b => if enc then blockEnc aes key b else blockDec aes key b), iv)
  | 2 => if enc then cbcEnc aes key iv bs else cbcDec aes key iv bs
  | 3 => cfb enc aes key iv (chunks 1 data)
  | 4 => cfb enc aes key iv bs
  | 5 => ofb aes key iv bs
  | _ => ctrMode key iv bs

/-! ### Feeding data (08 R273 to R275) -/

/-- A message as a core feeds it: whole words of n bytes, then the last word, in the last-word register, with its valid-byte count. -/
structure FedMessage where
  words : List Bytes
  lastWord : Bytes
  count : Nat
deriving DecidableEq, Repr
def feed (n : Nat) (m : Bytes) : FedMessage :=
  let k := m.length / n * n
  { words := chunks n (m.take k), lastWord := fit n (m.drop k), count := m.length - k }
/-- What an engine takes of it: of the last word the valid bytes only (08 R273). -/
def taken (f : FedMessage) : Bytes := f.words.flatten ++ f.lastWord.take f.count
def fedBytes (n : Nat) (m : Bytes) : Bytes := taken (feed n m)
/-- The pair (eq, ne) of a comparison: eq of the primary datapath, ne of the shadow datapath, which compares the complements (08 R278). -/
def compareFlags (a b : Bytes) : Bool × Bool := (a == b, a.map (fun x => ~~~x) != b.map (fun x => ~~~x))
/-- The pair of a comparison of which the outcome is known. -/
def flagPair (ok : Bool) : Bool × Bool := (ok, !ok)

/-- Zeros that complete a block. -/
def zeroPad (n : Nat) (bs : Bytes) : Bytes := bs ++ List.replicate ((n - bs.length % n) % n) 0
/-- The padding methods of ISO/IEC 9797-1 (08 R272); 0 is none. -/
def padding (n method : Nat) (bs : Bytes) : Bytes :=
  match method with
  | 1 => if bs.isEmpty then List.replicate n 0 else zeroPad n bs
  | 2 => zeroPad n (bs ++ [0x80])
  | 3 => beBytes n (8 * bs.length) ++ zeroPad n bs
  | _ => bs

/-- MAC algorithm 1: the last block of CBC from a zero chaining block (08 R271, output transformation 1). -/
def macAlg1 (aes : Bool) (key : Bytes) (padded : Bytes) : Bytes :=
  (cbcEnc aes key (List.replicate (blockSize aes) 0) (chunks (blockSize aes) padded)).2
/-- The single-DES CBC of MAC algorithm 3. -/
def cbcDes (key : Bytes) : Bytes → List Bytes → Bytes
  | iv, [] => iv
  | iv, b :: t => cbcDes key (desEnc key (bytesXor b iv)) t
/-- MAC algorithm 3: single-DES CBC with K, then decryption under K' and encryption under K of the last block. -/
def macAlg3 (key : Bytes) (padded : Bytes) : Bytes :=
  let k := field key 0 8
  desEnc k (desDec (field key 8 8) (cbcDes k (List.replicate 8 0) (chunks 8 padded)))

/-! ### Digests (08 R270, R275) -/

/-- The digest length of a hash code of 08 R270; 0 for a code that is no hash. -/
def hashLen (alg : Nat) : Nat :=
  match alg with
  | 0x21 => 28 | 0x22 => 32 | 0x23 => 48 | 0x24 => 64 | 0x25 => 32
  | 0x31 => 28 | 0x32 => 32 | 0x33 => 48 | 0x34 => 64
  | _ => 0
def isHmac (alg : Nat) : Bool := decide (0x61 ≤ alg ∧ alg ≤ 0x65) || decide (0x71 ≤ alg ∧ alg ≤ 0x74)
def isShake (alg : Nat) : Bool := alg == 0x38 || alg == 0x39
def isSha2 (alg : Nat) : Bool := decide (alg < 0x30)
/-- The block, or the rate, of a hash code. -/
def hashRate (alg : Nat) : Nat :=
  match alg with
  | 0x21 => 64 | 0x22 => 64 | 0x31 => 144 | 0x32 => 136 | 0x33 => 104 | 0x34 => 72 | 0x38 => 168 | 0x39 => 136
  | _ => 128
/-- Bytes of the chaining state. -/
def hashStateLen (alg : Nat) : Nat := if alg = 0x21 ∨ alg = 0x22 then 32 else if isSha2 alg then 64 else 200
def hashInit (alg : Nat) : Bytes := fit (hashStateLen alg) (hashStart alg)
/-- One compression of a block, or one permutation that absorbs a block of the rate. -/
def hashBlock (alg : Nat) (st block : Bytes) : Bytes := fit (hashStateLen alg) (hashStep alg st block)
def absorb (alg : Nat) (st : Bytes) (blocks : List Bytes) : Bytes := blocks.foldl (hashBlock alg) st
/-- The last byte of a string with its top bit set. -/
def topBit (b : Bytes) : Bytes := b.dropLast ++ [(b.getLast?).getD 0 ||| 0x80]
/-- The last part of a message of `total` bytes, with the padding that Punty appends (08 R275). -/
def hashPad (alg total : Nat) (tail : Bytes) : Bytes :=
  let r := hashRate alg
  if isSha2 alg then
    let n := if r = 64 then 8 else 16
    let body := tail ++ [0x80]
    body ++ List.replicate ((2 * r - n - body.length % r) % r) 0 ++ beBytes n (8 * total)
  else topBit (zeroPad r (tail ++ [if isShake alg then 0x1F else 0x06]))
/-- Output of a sponge, rate by rate. -/
def squeezeGo (alg : Nat) : Nat → Bytes → Bytes
  | 0, _ => []
  | fuel + 1, st => st.take (hashRate alg) ++ squeezeGo alg fuel (hashBlock alg st (List.replicate (hashRate alg) 0))
def squeeze (alg len : Nat) (st : Bytes) : Bytes :=
  if isSha2 alg then st.take len else (squeezeGo alg (ceilDiv len (hashRate alg)) st).take len
/-- The end of a digest, from the state after the whole blocks of a message. -/
def hashEnd (alg len total : Nat) (st tail : Bytes) : Bytes :=
  squeeze alg len (absorb alg st (chunks (hashRate alg) (hashPad alg total tail)))
/-- The whole blocks of a string, and what is left of it. -/
def wholeBlocks (n : Nat) (b : Bytes) : Bytes × Bytes := (b.take (b.length / n * n), b.drop (b.length / n * n))
/-- A digest of an algorithm code of 08 R270, with its length. -/
def digestOf (alg : BitVec 8) (len : Nat) (m : Bytes) : Bytes :=
  let p := wholeBlocks (hashRate alg.toNat) m
  hashEnd alg.toNat len m.length (absorb alg.toNat (hashInit alg.toNat) (chunks (hashRate alg.toNat) p.1)) p.2
def sha256 (m : Bytes) : Bytes := digestOf 0x22 32 m
def sha384 (m : Bytes) : Bytes := digestOf 0x23 48 m

/-- HMAC over the hash whose code is 0x40 lower: the states after the ipad and opad blocks, and the result. -/
def hmacPad (alg : Nat) (key : Bytes) (pad : Byte) : Bytes := (fit (hashRate (alg - 0x40)) key).map (fun b => b ^^^ pad)
def hmacInner (alg : Nat) (key : Bytes) : Bytes := hashBlock (alg - 0x40) (hashInit (alg - 0x40)) (hmacPad alg key 0x36)
def hmacOuter (alg : Nat) (key : Bytes) : Bytes := hashBlock (alg - 0x40) (hashInit (alg - 0x40)) (hmacPad alg key 0x5C)
/-- The end of an HMAC, from its outer state and the inner state after the whole blocks of a message of `total` bytes. -/
def hmacEnd (alg total : Nat) (outer st tail : Bytes) : Bytes :=
  let h := alg - 0x40
  let inner := hashEnd h (hashLen h) (hashRate h + total) st tail
  hashEnd h (hashLen h) (hashRate h + inner.length) outer inner
/-- A key longer than a block is replaced by its digest, as FIPS 198-1 says. -/
def hmacKey (alg : Nat) (key : Bytes) : Bytes :=
  if hashRate (alg - 0x40) < key.length then digestOf (BitVec.ofNat 8 (alg - 0x40)) (hashLen (alg - 0x40)) key else key
def hmacOf (alg : BitVec 8) (len : Nat) (key m : Bytes) : Bytes :=
  let n := alg.toNat
  let k := hmacKey n key
  let p := wholeBlocks (hashRate (n - 0x40)) m
  (hmacEnd n m.length (hmacOuter n k) (absorb (n - 0x40) (hmacInner n k) (chunks (hashRate (n - 0x40)) p.1)) p.2).take len

/-- HKDF of RFC 5869, over the hash of an HMAC code. -/
def hkdfExtract (alg : BitVec 8) (salt ikm : Bytes) : Bytes := hmacOf alg (hashLen (alg.toNat - 0x40)) salt ikm
def hkdfGo (alg : BitVec 8) (prk info : Bytes) : Nat → Nat → Bytes → Bytes
  | 0, _, _ => []
  | fuel + 1, i, prev =>
    let t := hmacOf alg (hashLen (alg.toNat - 0x40)) prk (prev ++ info ++ leBytes 1 i)
    t ++ hkdfGo alg prk info fuel (i + 1) t
def hkdfExpandOf (alg : BitVec 8) (prk info : Bytes) (len : Nat) : Bytes :=
  (hkdfGo alg prk info (ceilDiv len (hashLen (alg.toNat - 0x40))) 1 []).take len

/-! ### CMAC (08 R270, R271) -/

/-- Doubling in the field of a block, for the subkeys. -/
def doubled (n : Nat) (b : Bytes) : Bytes :=
  let v := beNat b
  let w := 2 * v % 256 ^ n
  beBytes n (if 256 ^ n ≤ 2 * v then w ^^^ (if n = 16 then 0x87 else 0x1B) else w)
/-- The last block of a CMAC, whole or completed by 10*, after a chaining block. -/
def cmacLast (aes : Bool) (key chain tail : Bytes) : Bytes :=
  let n := blockSize aes
  let k1 := doubled n (blockEnc aes key (List.replicate n 0))
  let last := if tail.length = n then bytesXor tail k1 else bytesXor (zeroPad n (tail ++ [0x80])) (doubled n k1)
  blockEnc aes key (bytesXor chain last)
/-- What comes before the last block of a message: at least one byte, or an empty message, is left. -/
def cmacBody (n len : Nat) : Nat := (len - 1) / n * n
def cmac (aes : Bool) (key m : Bytes) : Bytes :=
  let n := blockSize aes
  let body := cmacBody n m.length
  cmacLast aes key (cbcEnc aes key (List.replicate n 0) (chunks n (m.take body))).2 (m.drop body)
def aesCmac (key m : Bytes) : BitVec 128 := bytesBv 128 (cmac true key m)

/-- What an engine forms of a key before the first block (08 R282): the states of an HMAC, else the key schedule, and for CMAC its
subkeys. -/
def keyForms (alg : Nat) (key : Bytes) : Bytes :=
  if isHmac alg then hmacInner alg (hmacKey alg key) ++ hmacOuter alg (hmacKey alg key)
  else
    let aes := decide (alg < 0x10)
    let schedule := if aes then (aesRoundKeys key).flatten
      else (List.range 3).flatMap (fun n => (desRoundKeys (beNat (tdesKey key n))).flatMap (beBytes 6))
    let k1 := doubled (blockSize aes) (blockEnc aes key (List.replicate (blockSize aes) 0))
    schedule ++ (if alg % 16 = 8 then k1 ++ doubled (blockSize aes) k1 else [])

/-! ### GCM (08 R271) -/

/-- Multiplication in GF(2^128) by the bits of the first factor, left to right. -/
def gfStep (x : BitVec 128) (p : BitVec 128 × BitVec 128) (i : Nat) : BitVec 128 × BitVec 128 :=
  (if x.getMsbD i then p.1 ^^^ p.2 else p.1,
   if p.2.getLsbD 0 then (p.2 >>> 1) ^^^ (0xE1#128 <<< 120) else p.2 >>> 1)
def gfMul (x y : BitVec 128) : BitVec 128 := ((List.range 128).foldl (gfStep x) (0, y)).1
/-- GHASH under a hash key, from an accumulator, over blocks. -/
def ghashFrom (h acc : BitVec 128) (blocks : List Bytes) : BitVec 128 :=
  blocks.foldl (fun a b => gfMul (a ^^^ bytesBv 128 (fit 16 b)) h) acc
def ghash (h : BitVec 128) (m : Bytes) : BitVec 128 := ghashFrom h 0 (chunks 16 m)
def gcmHashKey (key : Bytes) : BitVec 128 := aesEncrypt key 0
/-- The counter block before the data, and counters after it. -/
def gcmFirst (nonce : Bytes) : Bytes := fit 12 nonce ++ [0, 0, 0, 1]
def gcmNext (ctr : Bytes) : Bytes := field ctr 0 12 ++ beBytes 4 (beNat (field ctr 12 4) + 1)
/-- The data under a key from a counter block; and the counter block after it. -/
def gcmStream (key : Bytes) : Bytes → List Bytes → Bytes × Bytes
  | ctr, [] => ([], ctr)
  | ctr, b :: t =>
    let (rest, last) := gcmStream key (gcmNext ctr) t
    (bytesXor b (aesEnc key ctr) ++ rest, last)
def gcmXor (key nonce data : Bytes) : Bytes := (gcmStream key (gcmNext (gcmFirst nonce)) (chunks 16 data)).1
/-- The tag, from the accumulator over additional data and ciphertext, each completed by zeros. -/
def gcmEnd (key nonce : Bytes) (acc : BitVec 128) (aadLen len : Nat) : BitVec 128 :=
  ghashFrom (gcmHashKey key) acc [beBytes 8 (8 * aadLen) ++ beBytes 8 (8 * len)] ^^^ aesEncrypt key (bytesBv 128 (gcmFirst nonce))
def gcmTag (key nonce aad cipher : Bytes) : BitVec 128 :=
  gcmEnd key nonce (ghashFrom (gcmHashKey key) 0 (chunks 16 aad ++ chunks 16 cipher)) aad.length cipher.length
def gcmTagOf (key nonce aad cipher : Bytes) : Bytes := bvBytes 16 (gcmTag key nonce aad cipher)

/-- Odd parity on every byte of a TDES key. -/
def oddParity (b : Byte) : Byte :=
  let ones := (List.range 7).foldl (fun n i => if b.getLsbD (i + 1) then n + 1 else n) 0
  (b &&& 0xFE) ||| (if ones % 2 = 0 then 1 else 0)
def setParity (key : Bytes) : Bytes := key.map oddParity

/-- The number of one bits of a value of a width. -/
def onesIn (width v : Nat) : Nat := ((List.range width).filter (fun i => v.testBit i)).length

end Sys2Proof.Machine
end

