-- ==== Sys2Proof/Machine/State.lean ====
section
/-! DEFINITION. The state of Yunante: every register, table, queue, secret and pin the specification names, as plain
data. Field defaults are the reset values; a value the specification does not give is named by the assumption log. -/

namespace Sys2Proof.Machine

/-! ### Counters (04 R169, 19 R642) -/

/-- A 48-bit activity counter and its sticky overflow flag (04 R169). -/
structure Ctr where
  n : BitVec 48 := 0
  overflow : Bool := false
deriving DecidableEq, Repr

/-- A block of counters behind a select register, with one high-word latch per reading interface (19 R642). -/
structure CtrBlock where
  sel : Word := 0
  ctrs : Tab Ctr := []
  latchPcie : BitVec 16 := 0
  latchSmbus : BitVec 16 := 0
deriving DecidableEq, Repr

/-! ### Time, pins, reset, start (02, 14) -/

/-- The watch timebase (02 R41, R46, R734; 05 R180). -/
structure TimeBase where
  /-- Ticks since release of reset; the watch count is this modulo 2^32 and the extended count modulo 2^48. -/
  ticks : Nat := 0
  /-- The 32-bit credit window number (05 R180). -/
  window : BitVec 32 := 0
  /-- Boundaries passed since release of reset (the model's own; 05 R180). -/
  windowsDone : Nat := 0
  /-- Ticks at the latest second of crystal time (02 R44). -/
  secondAt : Nat := 0
  /-- Edges of the crystal since release of reset, and the tick of the latest (02 R44, R46). -/
  edges : Nat := 0
  lastEdge : Option Nat := none
  /-- The edge at which the present second of crystal time began (02 R44). -/
  secondEdge : Nat := 0
  /-- Ticks of the custody phase's edges 1, 257 and 513, between which the two measurements count (02 R42). -/
  marks : List Nat := []
  /-- The loss of edges has been declared, and none has come since (02 R45). -/
  edgeLost : Bool := false
  /-- CUS_WATCH_CAL fields (02 R46). -/
  trim : BitVec 7 := 0x40
  lastError : BitVec 16 := 0
  adjust : BitVec 8 := 0
deriving DecidableEq, Repr

/-- What the PF answers configuration requests with (14 R514, R515, R518). -/
inductive PfAnswer where
  | silent
  | retry
  | normal
deriving DecidableEq, Repr

/-- The pins and the reset they make (14 R497 to R504, 22 R699). -/
structure Pins where
  pwrOk : Bool := false
  rstN : Bool := false
  perstN : Bool := false
  strapLive : BitVec 12 := 0
  strapSampled : BitVec 12 := 0
  strapChanged : Bool := false
  /-- The main supplies are present; false is Night (22 R699). -/
  mainOn : Bool := true
  pfAnswer : PfAnswer := .silent
  /-- The tick of the latest rise of PERST_N, or of release when it was high (14 R514). -/
  perstRise : Option Nat := none
deriving DecidableEq, Repr

/-- One 16-byte entry of the start trace (14 R519). -/
structure StartTrace where
  ticks : BitVec 32
  phase : BitVec 8
  kind : BitVec 8
  subject : BitVec 8
  unit : BitVec 8
  detail : BitVec 16
deriving DecidableEq, Repr

/-- The start sequence and its registers (14 R506 to R520). -/
structure StartState where
  phase : Nat := 0
  done : Bool := false
  stopped : Bool := false
  cause : BitVec 8 := 0
  degraded : Bool := false
  traceFull : Bool := false
  benchesFenced : BitVec 8 := 0
  pathsFenced : BitVec 2 := 0
  time : BitVec 32 := 0
  trace : List StartTrace := []
  /-- Benches that have acknowledged the roll-call handshake, and those that have reported (14 R508). -/
  acknowledged : List Nat := []
  reported : List Nat := []
  /-- Benches fenced at roll-call, which take part in no neighbour pair until the next start (02 R54, R58). -/
  rollFenced : List Nat := []
  /-- Units retired by roll-call (14 R512), as bytes 6 and 7 of R519. -/
  unitsRetired : List (BitVec 8 × BitVec 8) := []
  /-- The tick at which the phase now running began (14 R506). -/
  phaseSince : Nat := 0
  /-- An Excursion occurred during this start: it pauses while its source is active (17 R602). -/
  excursion : Bool := false
  /-- A Breach occurred during this start: no tenant root is loaded and start ends Locked (17 R602). -/
  breached : Bool := false
deriving DecidableEq, Repr

/-! ### Fuses and the battery domain (16 R551, 22 R703) -/

/-- The part number (00 R1). -/
inductive Part where
  | ky1280
  | ky0640
  | ky0320
deriving DecidableEq, Repr

/-- A thermometer field: its width, the bits blown, and the bits that will not read back (16 R552). -/
structure Therm where
  width : Nat
  blown : List Nat := []
  weak : List Nat := []
deriving DecidableEq, Repr

/-- The fuse array (16 R551). -/
structure Fuses where
  part : Part := .ky1280
  deviceRoot : BitVec 256 := 0
  romKeyDigest : BitVec 384 := 0
  issued : Bool := false
  retired : Bool := false
  ownCount : Therm := { width := 16 }
  commissionCount : Therm := { width := 16 }
  eraseCount : Therm := { width := 16 }
  lockCount : Therm := { width := 255 }
  unlockCount : Therm := { width := 255 }
  otpEpoch : Therm := { width := 63 }
  svnFloor : Therm := { width := 63 }
  /-- Evidence counters of T0 to T15, each of 32 bits. -/
  evidence : Tab Therm := []
  /-- Authority fingerprints of ownerships 1 to 16. -/
  ownerFp : Tab Bytes := []
  /-- Bit n is the tamper_disable fuse of source n; bits 0 and 1 do not exist (17 R600). -/
  tamperDisable : BitVec 16 := 0
  /-- Calibration: the watch trim and the trims of G0 to G15 (02 R42, 09 R306). -/
  watchTrim : BitVec 7 := 0x40
  gatherTrim : Tab (BitVec 6) := []
  /-- The rest of the 1,024 calibration bits: sensor and monitor trims, which no rule of the model's reach reads (16 R551). -/
  monitorTrims : BitVec 921 := 0
deriving DecidableEq, Repr

/-- A trip latched in the battery domain until the burns it calls for are durable (17 R587, R603). -/
structure TripLatch where
  source : Nat
  seconds : BitVec 40
  night : Bool := false
  lockDue : Bool := false
  evidenceDue : Bool := false
deriving DecidableEq, Repr

/-- The battery domain (22 R703). -/
structure Battery where
  vaultKey : BitVec 256 := 0
  vaultValid : Bool := false
  floor : BitVec 48 := 0
  floorValid : Bool := false
  recordGen : BitVec 32 := 0
  cycles : BitVec 32 := 0
  opSeconds : BitVec 40 := 0
  latches : List TripLatch := []
  onVbat : Bool := false
  /-- The contents were lost since the last start (22 R704). -/
  lost : Bool := false
deriving DecidableEq, Repr

/-! ### Custody partition (16) -/

/-- The causes of Locked, CUS_LIFECYCLE.lock_cause (16 R578). -/
inductive LockCause where
  | none
  | breach
  | excursion
  | managerLock
  | vaultLost
  | recordLost
deriving DecidableEq, Repr

/-- The lifecycle states (16 R557, R578). -/
inductive Lifecycle where
  | blank
  | issued
  | owned
  | operational
  | locked
  | erased
  | retired
deriving DecidableEq, Repr

/-- A custodian card: its serial and public key (16 R562). -/
structure Card where
  serial : BitVec 64
  key : Bytes
deriving DecidableEq, Repr

/-- The custody record (16 R564), without magic, format and tag. -/
structure CustodyRecord where
  ownership : Nat := 0
  generation : BitVec 32 := 0
  mUnlock : Nat := 0
  mRoot : Nat := 0
  mDebug : Nat := 0
  mAdmin : Nat := 0
  authority : Bytes := []
  /-- Enrolled cards by slot 0 to 7. -/
  cards : Tab Card := []
deriving DecidableEq, Repr

/-- An open quorum (16 R570 to R573). -/
structure Quorum where
  number : BitVec 32
  procedure : BitVec 8
  params : Bytes
  required : Nat
  presented : List Card := []
  newCard : Option Card := none
  components : List Bytes := []
  opened : Nat
  first : Option Nat := none
  /-- The quorum was opened while the part was Locked (16 R572). -/
  openedLocked : Bool := false
deriving DecidableEq, Repr

/-- A component session (11 R396 to R399). -/
structure CompSession where
  number : BitVec 32
  tenant : Nat
  template : Bytes
  count : Nat
  custodians : List Bytes := []
  components : List Bytes := []
  opened : Nat
deriving DecidableEq, Repr

/-- A custodian card port, CUS_PORT_A or CUS_PORT_B (16 R566, R567, R578). -/
structure CardPort where
  present : Bool := false
  active : Bool := false
  lastFault : BitVec 3 := 0
  lastSw : BitVec 16 := 0
deriving DecidableEq, Repr

/-- The custody partition's own registers, secrets and sequencers (16, 18). -/
structure Custody where
  lockCause : LockCause := .none
  recordValid : Bool := false
  record : CustodyRecord := {}
  quorum : Option Quorum := none
  quorumNumber : BitVec 32 := 0
  sessions : List CompSession := []
  sessionNumber : BitVec 32 := 0
  portA : CardPort := {}
  portB : CardPort := {}
  coRegion : BitVec 8 := 0
  coCount : BitVec 16 := 0
  /-- Masking roots, scramble key, seal key (16 R554). -/
  root0 : BitVec 256 := 0
  root1 : BitVec 256 := 0
  scrambleKey : BitVec 128 := 0
  sealKey : BitVec 256 := 0
  /-- Device identity keys derived in phase 2 are formed on use (18 R606); the device fingerprint (18 R608). -/
  deviceFp : Bytes := []
  /-- The certificate chain held since phase 4 (18 R620). -/
  chain : Option Bytes := none
  /-- Jobs whose attestation statement is queued or being signed (18 R611). -/
  attesting : List Nat := []
  /-- Regions with a heartbeat outstanding, and the tick it was raised (02 R741). -/
  heartbeats : List (Region × Nat) := []
deriving DecidableEq, Repr

/-! ### Tamper (17) -/

/-- State of a tamper source (17 R580, R592, R605). -/
inductive SourceState where
  | quiet
  | tripped
  | clearing
deriving DecidableEq, Repr

/-- One tamper source (17 R579, R605). -/
structure TamperSource where
  detA : Bool := false
  detB : Bool := false
  state : SourceState := .quiet
  /-- The tick at which both detectors went quiet (17 R592). -/
  quietSince : Nat := 0
  /-- End of the ALARM_N stretch of the latest Notice (17 R604). -/
  noticeUntil : Option Nat := none
  noticeSeen : Bool := false
  night : Bool := false
  trips : BitVec 8 := 0
  notices : BitVec 8 := 0
  /-- The evidence burn of the present lock has been called for (17 R585). -/
  counted : Bool := false
deriving DecidableEq, Repr

/-- The tamper monitors and the Cullet line (17). -/
structure Tamper where
  armed : Bool := false
  sources : Tab TamperSource := []
  /-- The challenge in progress: source, detector, tick (17 R581). -/
  challenge : Option (Nat × Detector × Nat) := none
  /-- Position of the next challenge in the order T0 A, T0 B, T1 A, ... (17 R581). -/
  nextChallenge : Nat := 0
  lastChallenge : Nat := 0
  nightTrip : Bool := false
  culletFired : Bool := false
  overwriteActive : Bool := false
  overwriteDone : Bool := false
  firings : BitVec 8 := 0
  cursor : Nat := 0
  culletTick : BitVec 32 := 0
  /-- Echo times of the tamper loops measured in phase 1 (23 R732). -/
  echo : Nat × Nat := (0, 0)
  /-- The glitch windows were set again at this tick (17 R597, R599). -/
  glitchSet : Nat := 0
  /-- Latest and previous samples of the supplies in mV (02 R53) and of the regions in °C. -/
  volts : List Nat := []
  /-- Ticks of the latest supply and temperature samples (02 R53; the model's own). -/
  voltsAt : Option Nat := none
  diodeAt : Option Nat := none
  prevVolts : List Nat := []
  diode : List Int := []
  prevDiode : List Int := []
  oscillator : List Int := []
  prevOscillator : List Int := []
deriving DecidableEq, Repr

/-! ### Key store (03) -/

/-- State of a slot (03 R76 byte 71). -/
inductive SlotState where
  | free
  | active
  | continuation
  | suspended
  | root
deriving DecidableEq, Repr

/-- A slot record (03 R75, R76, R81). `material` is the stored, masked form. -/
structure Slot where
  material : BitVec 512 := 0
  keyClass : Byte := 0
  keyParam : Byte := 0
  usage : BitVec 16 := 0
  exportBits : Byte := 0
  origin : Byte := 0
  tenant : Nat := 0
  state : SlotState := .free
  epoch : Bool := false
  seedForm : Bool := false
  gen : BitVec 12 := 0
  rootVersion : Byte := 0
  suite : Byte := 0
  policySet : BitVec 16 := 0
  usageCount : BitVec 32 := 0
  usageLimit : BitVec 32 := 0
  last : Bool := false
  position : Nat := 0
  next : Nat := 0
  length : Nat := 0
  head : Nat := 0
  checkValue : Bytes := []
  fingerprint : Bytes := []
  tag : BitVec 128 := 0
  /-- The next index of an LMS or HSS key (11 R410). The rule gives the counter up to 160 bits and has it reach 2^160 on a key of 8 levels:
  it is held in 161 (DESIGN CHOICE, log entry 93). -/
  index : BitVec 161 := 0
deriving DecidableEq, Repr

/-- One lookup port of a bench (03 R102, R111). -/
structure LookupPort where
  /-- Head of the fetch in progress (03 R111). -/
  fetching : Option Nat := none
  /-- The lookup waits for the conversion of its slot (03 R110). -/
  waiting : Bool := false
  code : Code := 0
  tenant : Nat := 0
  handle : BitVec 32 := 0
  /-- The slots of the key's chain that the port has fetched (05 R181). -/
  fetchedSlots : Nat := 0
  /-- The material delivered to the engine port, slot by slot (03 R102). -/
  engineKey : List (BitVec 512) := []
  verdictDue : Bool := false
  job : Option Nat := none
  /-- The port reads a slot that Yunante itself names: a tenant root, or a head that a sweep visits (01 R18). -/
  inner : Bool := false
  /-- The tick at which the lookup arrived (05 R183). -/
  tick : Nat := 0
deriving DecidableEq, Repr

/-- A migration sweep, KST_SWEEP0 to KST_SWEEP3 (03 R115, R128). -/
structure Sweep where
  active : Bool := false
  complete : Bool := false
  tenant : Nat := 0
  cursor : Nat := 0
  suite : Byte := 0
  version : Byte := 0
  /-- The step waits on a full persistence ring (12 R443). -/
  waiting : Bool := false
  /-- Heads that a commit has written and whose block is still to be issued, the ring being full at that commit (03 R117). -/
  owed : List Nat := []
  /-- The background job that the next step of the sweep is (04 R167, 05 R177). -/
  job : Option Nat := none
deriving DecidableEq, Repr

/-- The key store region's array, sequencer and KST_ registers (03). -/
structure KeyStore where
  ready : Bool := false
  slots : Tab Slot := []
  faultMap : List Nat := []
  /-- Generation of every slot at start (03 R71). -/
  gen0 : BitVec 12 := 0
  epoch : Bool := false
  remaskActive : Bool := false
  remaskQueued : Bool := false
  remaskNow : Bool := false
  remaskInterval : Byte := 0x18
  cursor : Nat := 0
  completed : BitVec 8 := 0
  lastStep : Option Nat := none
  lastRemask : Nat := 0
  /-- Slots still to convert in the step that runs, and the head in use that the sequencer waits for (03 R105, R111). -/
  stepLeft : Nat := 0
  awaits : Option Nat := none
  /-- The slot under conversion (03 R110). -/
  converting : Option Nat := none
  /-- Erased or Locked: every lookup port refuses (03 R101). -/
  refusing : Bool := false
  tagErrCount : BitVec 11 := 0
  tagErrOverflow : Bool := false
  tagErrSlot : BitVec 20 := 0
  lookups : Ctr := {}
  lookupLatch : BitVec 16 := 0
  tenantSel : Byte := 0
  sweeps : Tab Sweep := []
  ports : Tab LookupPort := []
  /-- The key store region stopped its outgoing handshakes on tick loss (02 R63). -/
  halted : Bool := false
  /-- The count of allocations made, which selects among free slots (03 R87). -/
  allocations : Nat := 0
deriving DecidableEq, Repr

/-! ### Jobs (04) -/

/-- Ordering streams (04 R129, R130). -/
inductive Stream where
  | htl (session : BitVec 32)
  | host (function : Nat) (queue : Nat)
  | stepped (n : Nat)
  | background (n : Nat)
deriving DecidableEq, Repr

/-- Where a job came from and where its answer goes. -/
inductive Origin where
  | htl (session : BitVec 32) (seq : BitVec 64)
  | host (function : Nat) (queue : Nat) (cid : BitVec 16) (inAddr : BitVec 64) (inLen : Nat) (outAddr : BitVec 64)
  | background
deriving DecidableEq, Repr

/-- Where a job stands between entry and release (04 R129 to R152). -/
inductive Place where
  | ready
  | core (bench : Nat) (core : Nat)
  | pending (bench : Nat)
  | retired (bench : Nat)
  | answered
deriving DecidableEq, Repr

/-- Attributes of a key that a commit creates (11 R381, R386). -/
structure KeyDraft where
  keyClass : Byte
  keyParam : Byte
  usage : BitVec 16
  exportBits : Byte := 0
  origin : Byte := 0x01
  policySet : BitVec 16 := 0
  usageLimit : BitVec 32 := 0
  seedForm : Bool := false
  material : Bytes := []
  checkValue : Bytes := []
  fingerprint : Bytes := []
  index : BitVec 161 := 0
  /-- The journal record type of a key with advancing state (11 R411, R412) and the ceiling to write. -/
  journal : Option (Byte × Nat) := none
  /-- The suite and version of the root under which a key is restored (03 R117); a new key takes the tenant's. -/
  root : Option (Byte × Byte) := none
  /-- A restore: the journal must hold the key's record, and no resident copy may exist (11 R388). -/
  restored : Bool := false
deriving DecidableEq, Repr

/-- An entry of the digest cache of a bench: its name, and the inner and the outer HMAC state (08 R291). -/
structure CacheEntry where
  tenant : Nat
  slot : Nat
  gen : BitVec 12
  alg : Byte
  inner : Bytes := []
  outer : Bytes := []
deriving DecidableEq, Repr

/-- The intents of a commit set (04 R141, R142; 10 R379; 11 R418). -/
inductive Intent where
  | useKey (head : Nat) (gen : BitVec 12)
  | create (draft : KeyDraft)
  | delete (head : Nat) (gen : BitVec 12)
  | suspend (head : Nat) (gen : BitVec 12) (on : Bool)
  | setKsn (head : Nat) (material : Bytes) (counter : Nat)
  | setIndex (head : Nat) (used : Nat)
  /-- The states of an HMAC key, whether the cache held them, and the Punty engine that used or formed them (08 R291 to R294, R302). -/
  | cacheUse (entry : CacheEntry) (hit : Bool) (engine : Nat)
  | openRotation (tenant : Nat) (suite : Byte) (root : Bytes)
  /-- The sweep of a rotation that is still open begins again (03 R119). -/
  | restartSweep (tenant : Nat)
  | closeRotation (tenant : Nat)
  | purge (tenant : Nat)
  | flashImage (kind : Nat) (image : Bytes)
  | power (action : Nat) (idleMs : Nat)
  | createRoot (tenant : Nat) (suite : Byte) (version : Byte) (root : Bytes)
  | addComponent (session : BitVec 32) (custodian : Bytes) (component : Bytes)
  | endSession (session : BitVec 32)
  | beginSession (template : Bytes) (count : Nat)
  | openQuorum (procedure : Byte) (params : Bytes) (required : Nat)
  | abandonQuorum (number : BitVec 32)
  | lockPart
  | retirePart
  /-- A step of a migration sweep: its blocks and suite fields, with the random bytes drawn for its nonces (03 R115, 05 R175). -/
  | sweepStep (sweep : Nat) (nonces : Bytes)
deriving DecidableEq, Repr

/-- The step state of an ML-DSA signing attempt (07 R260): the attempt counter κ, the mask y, w and c̃ once w1 is formed. -/
structure DsaWork where
  kappa : Nat := 0
  /-- μ and the seed of the masks, from the value rnd drawn once for the job (07 R263). -/
  mu : Bytes := []
  seed : Bytes := []
  y : List (List Nat) := []
  w : List (List Nat) := []
  commit : Bytes := []
  /-- w1 is formed: the first half of the attempt has run. -/
  begun : Bool := false
deriving DecidableEq, Repr

/-- What a recipe hands to Lehr: the verdict, the verb result, the output and the commit set (04 R140). -/
structure Staged where
  code : Code := 0
  verdict : Byte := 0
  /-- The pair (eq, ne) of a comparison, on which verdict and output depend (08 R278, R280, R281). -/
  pair : Option (Bool × Bool) := none
  aux : BitVec 32 := 0
  output : Bytes := []
  intents : List Intent := []
  progress : Nat := 0
  /-- The operation has a further step (04 R164); the step is the first half of a safe-mode recomputation (06 R204). -/
  more : Bool := false
  half : Bool := false
  /-- A value drawn gives no result, as an ECDSA nonce with r = 0 or s = 0: the step draws again (00 R6). -/
  redo : Bool := false
  /-- Step state that the step saves (04 R164; 07 R260). -/
  state : Bytes := []
  /-- The code was found in Decode or Check, before any engine computed (04 R140). -/
  checked : Bool := false
deriving DecidableEq, Repr

/-- A job (04 R129), from its entry at Gaffer until its release. -/
structure Job where
  id : Nat
  tenant : Nat
  stream : Stream
  ticket : BitVec 32
  arrival : Nat
  deadline : BitVec 48
  recipe : BitVec 16
  dispatch : BitVec 48 := 0
  incarnation : BitVec 16 := 0
  cancelMark : Bool := false
  origin : Origin
  params : Bytes := []
  input : Bytes := []
  outCap : Nat := 0
  /-- 0x0117 or 0x0119 when the read of the input data was denied or failed (12 R453, R454); else 0. -/
  inputFault : Code := 0
  place : Place := .ready
  /-- Re-entered after a fault (20 R655, R656). -/
  reentered : Bool := false
  /-- The speed code of the bench at dispatch and the floor it gives (04 R155). -/
  floorEff : Nat := 0
  /-- The recipe has run; its result is in core local memory (04 R140). -/
  staged : Option Staged := none
  /-- The verdict has reached Lehr (04 R140), and with it the pair (eq, ne) of a comparison (08 R280). -/
  verdict : Option Code := none
  flags : Option (Bool × Bool) := none
  /-- The code fixed at Retire, expiry, cancel or refusal. -/
  code : Code := 0
  releasable : Option Nat := none
  /-- Held to its floor with its core still assigned (04 R158). -/
  held : Option (Nat × Nat) := none
  /-- Journal entries the Retire waits for (04 R147). -/
  gates : List Nat := []
  /-- Every gating entry is durable, and the commit waits for the conversion of a slot that it writes (03 R112). -/
  durable : Bool := false
  /-- Step number of a stepped operation, and the count of its first dispatch (04 R163 to R167, 06 R223). -/
  step : Nat := 0
  firstDispatch : BitVec 48 := 0
  progress : Nat := 0
  /-- The bench whose data area holds the state that the latest step saved, the rows that hold it, and its bytes (04 R164, 20 R657). -/
  savedBench : Option Nat := none
  savedRows : List Nat := []
  savedLen : Nat := 0
  /-- A spill has been seen in this step (06 R204). -/
  safeMode : Bool := false
  /-- The function was drained: the release writes no completion (12 R445). -/
  silentRelease : Bool := false
  /-- The result kept in the retire mirror (20 R654). -/
  mirror : Option Staged := none
  /-- The core that ran the recipe since the latest dispatch (04 R171, R172). -/
  ranOn : Option CoreRef := none
  /-- The deadline of a stepped operation's first step (04 R136, R167). -/
  opDeadline : BitVec 48 := 0
  /-- Its commit has waited on a slot lock (04 R148, R174). -/
  waitedLock : Bool := false
  /-- Random blocks drawn for it and held since its dispatch (04 R142; 09 R330, GTH_ counters 0 and 1). -/
  drawnBlocks : Nat := 0
  /-- Busy ticks of the core that ran it, counted at its Retire (04 R142, R172). -/
  busy : Nat := 0
  /-- The first of the two half-work steps of a safe-mode recomputation has run (06 R204). -/
  half : Bool := false
  /-- Handles whose keys a lookup port has fetched for it since its dispatch (03 R102). -/
  fetched : List (BitVec 32) := []
  /-- Slots that Yunante itself has read through a port for it: tenant roots, and the heads that a sweep step visits (01 R18). -/
  fetchedInner : List Nat := []
  /-- Random bytes drawn under a kind-4 grant and not yet used (05 R175, 09 R316). -/
  drawn : Bytes := []
  /-- The latest Marver operation has been computed twice and its results agree (06 R213, R214). -/
  compared : Bool := false
  /-- The bytes drawn stand for this step, a prediction-resistant draw among them (07 R263, 09 R320). -/
  drewAll : Bool := false
  /-- Blocks that cipher engines, and compressions that Punty engines, have processed for it since its dispatch (08 R284, R301, R302). -/
  cipherDone : Nat := 0
  puntyDone : Nat := 0
  /-- The context record in core local memory: the engine's state that the core saved between two segments (08 R285). -/
  context : Bytes := []
  /-- Output of the committed steps of a progressive operation, kept with its commits until the release (04 R166; 11 R403). -/
  saved : Bytes := []
deriving DecidableEq, Repr

/-- One entry of the decision trace (04 R171). -/
structure TraceEntry where
  count : BitVec 32
  kind : Byte
  tenant : Byte
  core : Byte
  deadline : BitVec 32
  recipe : BitVec 16
  code : Code
deriving DecidableEq, Repr

/-- The decision trace window kinds (04 R170, R173). -/
inductive TraceWindow where
  | start
  | test
  | recovery
deriving DecidableEq, Repr

/-- An HTL client record (15 R531 type 0x0024). -/
structure Client where
  fingerprint : Bytes
  ecKey : Bytes
  mlKey : Bytes
deriving DecidableEq, Repr

/-- A policy set record (10 R341, 15 R531 type 0x0030). -/
structure Policy where
  formatsIn : BitVec 4 := 0xF
  formatsOut : BitVec 4 := 0xF
  allowDowngrade : Bool := false
  allowUnbind : Bool := false
  allowGenerate : Bool := false
  minPinLen : Nat := 4
  arpcMethods : BitVec 2 := 0
deriving DecidableEq, Repr

/-- What the configuration gives a tenant, and its live bucket and fault state (15 R531, R532; 05 R192; 20 R667). -/
structure Tenant where
  readyCap : Nat := 4096
  deadlineUs : Nat := 1000
  quota : Nat := 0
  rate : Nat := 0
  burst : Nat := 0
  /-- Hundred-thousandths of a token (05 R192). -/
  bucket : Nat := 0
  weights : Tab Nat := []
  sessionLimit : Nat := 0
  cacheEntries : Nat := 0
  masks : Tab (BitVec 5) := []
  decTables : List Bytes := []
  clients : Tab Client := []
  policies : Tab Policy := []
  faultState : BitVec 2 := 0
  reenteredCount : BitVec 14 := 0
  lastCode : Code := 0
deriving DecidableEq, Repr

/-- Gaffer, the job table, streams and tenants (04, 20 R667). -/
structure Gaffer where
  ready : Bool := false
  /-- Dispatch is stopped by Locked, a Breach or an Excursion (04 R149). -/
  stopped : Bool := true
  jobs : List Job := []
  nextJob : Nat := 0
  arrivals : Nat := 0
  /-- Next ticket and retire pointer per stream (04 R130, R145). -/
  tickets : List (Stream × BitVec 32) := []
  retirePtr : List (Stream × BitVec 32) := []
  nextStream : Nat := 0
  /-- Requests of cores for work with their tick, oldest first (04 R137), and the bench first in the rotation. -/
  requests : List (CoreRef × Nat) := []
  turn : Nat := 0
  tenants : Tab Tenant := []
  ctr : CtrBlock := {}
  tenantSel : Byte := 0
  /-- The decision trace (04 R170 to R173). -/
  trace : List TraceEntry := []
  /-- The windows open now, in the order in which they opened. -/
  traceOpen : List TraceWindow := []
  traceFrozen : Bool := false
  traceWindow : TraceWindow := .start
  traceDropped : BitVec 16 := 0
  traceEnds : Nat := 0
  traceIdx : BitVec 10 := 0
  /-- GAF_FAULT fields (20 R667). -/
  coresRetired : BitVec 8 := 0
  benchesFenced : BitVec 8 := 0
  lastFaultKind : BitVec 4 := 0
  journalUnavailable : Bool := false
  nvmFenced : Bool := false
  /-- The last count at which the whole ready list was scanned (04 R135). -/
  lastScan : Option Nat := none
deriving DecidableEq, Repr

/-! ### Shares (05) -/

/-- A request pending at an arbiter (05 R183, R186). -/
structure ArbRequest where
  core : CoreRef
  tenant : Nat
  kind : Nat
  arrival : Nat
  /-- The tick of its arrival (05 R185). -/
  tick : Nat
  amount : Nat
  job : Nat
deriving DecidableEq, Repr

/-- A grant held, or an engine parked on its last holder (05 R181, R187). -/
structure Grant where
  bench : Nat
  kind : Nat
  unit : Nat
  core : CoreRef
  tenant : Nat
  job : Nat
  since : Nat
  parked : Bool := false
  /-- Slots fetched, blocks drawn or words moved under the grant (05 R181). -/
  moved : Nat := 0
deriving DecidableEq, Repr

/-- Credit of a tenant in a kind (05 R178, R180, R194). -/
structure Credit where
  counter : Int := 0
  /-- The tick of the latest charge or refill, and the value before the first one of that tick (05 R185). -/
  changedAt : Nat := 0
  before : Int := 0
  /-- A request of the kind was pending during the present window. -/
  requested : Bool := false
  refill : BitVec 16 := 0
  atBoundary : Int := 0
deriving DecidableEq, Repr

/-- The arbiters (05). -/
structure Shares where
  /-- Credits by 256 × kind + tenant. -/
  credits : Tab Credit := []
  capacity : Tab Nat := []
  pending : List ArbRequest := []
  arrivals : Nat := 0
  grants : List Grant := []
  sel : BitVec 11 := 0
  overFlag : Bool := false
  overKind : BitVec 3 := 0
  overTenant : Byte := 0
  overCount : BitVec 12 := 0
  limitUs : Byte := 0x14
deriving DecidableEq, Repr

/-! ### Benches (01, 04, 06, 08, 20) -/

/-- State of a core (04 R173, 20 R651). -/
inductive CoreState where
  | absent
  | idle
  | asking
  | running
  | testing
  | retired
deriving DecidableEq, Repr

/-- A transaction core. -/
structure Core where
  state : CoreState := .absent
  job : Option Nat := none
  /-- The tick at which the present state began: busy and blocked ticks are counted when it ends (04 R172). -/
  since : Nat := 0
  faults : Nat := 0
  /-- Stream and ticket of the job that met the latest fault, which event 0x0302 reports (19 R641). -/
  lastStream : Nat := 0
  lastTicket : BitVec 32 := 0
  /-- Blocked at a full Lehr pending buffer (04 R150). -/
  blockedAtLehr : Bool := false
  /-- Local memory of 128 KiB: the request of the job it runs, as much of it as fits, then the response it has built (01 R13, R17; 04
  R140). -/
  localMem : Bytes := []
deriving DecidableEq, Repr

/-- State of an engine (06 R239, 08 R301). -/
inductive EngineState where
  | absent
  | inService
  | inTest
  | retired
deriving DecidableEq, Repr

/-- A column of the accumulator: a sum word and a carry word of 72 bits each, whose sum is its value (06 R196). -/
structure Column where
  sum : BitVec 72 := 0
  carry : BitVec 72 := 0
deriving DecidableEq, Repr

/-- A Marver, cipher or Punty engine (06 R228, R238, R239; 08 R282, R301, R302). -/
structure Engine where
  state : EngineState := .absent
  /-- Marver mode 0 to 3, or the algorithm code of R270. -/
  mode : Byte := 0
  lastKat : BitVec 2 := 0
  katCause : BitVec 2 := 0
  katCount : BitVec 8 := 0
  /-- Causes of the tests that wait for the current grant to end, oldest first (06 R233). -/
  causes : List (BitVec 2) := []
  /-- The tenant tags of the scratch lines whose valid bit is set, by line index; their contents stand in the rows of the bench's
  shared memory (06 R227, R228). -/
  scratch : Tab Byte := []
  /-- The accumulator: 260 columns, of which columns 0 to 127 hold 256 lanes with their limit flags in polynomial mode; and the sticky
  spill flag (06 R196, R203; 07 R243, R247). -/
  columns : List Column := []
  spillFlag : Bool := false
  tagTenant : Byte := 0
  /-- The key register holds a valid key (08 R282, R283). -/
  keyValid : Bool := false
  /-- The key register: the material that the latest load took from the lookup port, slot by slot, and what the engine formed of it: key
  schedule, CMAC subkeys or HMAC states (08 R282). -/
  keyReg : List (BitVec 512) := []
  formed : Bytes := []
  /-- The state of the primary datapath, laid out as the body of a context record, that of the shadow datapath, which holds every value in
  complemented form, and the job whose data is in progress (08 R276, R285, R287). -/
  chain : Bytes := []
  shadow : Bytes := []
  chainJob : Option Nat := none
  /-- The last-word register and its valid-byte count (08 R273). -/
  lastWord : Bytes := []
  lastCount : Nat := 0
  /-- What the latest read of a scratch line gave (06 R227, R229). -/
  lineRead : Bytes := []
  /-- The count at which the test that runs began (06 R232, 08 R298). -/
  katSince : Nat := 0
deriving DecidableEq, Repr

/-- A register block of engines: sticky flags, selects, counters and self-test (06 R238 to R242; 08 R301, R302). -/
structure EngineBlock where
  engines : Tab Engine := []
  spill : Bool := false
  mismatch : Bool := false
  /-- MRV_STATUS.tag_fault, or CIP_/DIG_STATUS.flag_fault. -/
  fault : Bool := false
  engSel : BitVec 3 := 0
  ctr : CtrBlock := {}
  testBusy : Bool := false
  testEngines : BitVec 8 := 0
  /-- Engines of the campaign still to be withdrawn. -/
  testLeft : List Nat := []
deriving DecidableEq, Repr

/-- Lehr of a bench (04 R150, R156, R174). -/
structure Lehr where
  ready : Bool := false
  speed : BitVec 9 := 0x100
  lastGrid : BitVec 32 := 0
  /-- The grid point last served, so that at most 128 jobs leave at one (04 R152). -/
  gridDone : Option Nat := none
  ctr : CtrBlock := {}
deriving DecidableEq, Repr

/-- A count that the work of a job adds to a counter of its bench when the job retires (04 R142). -/
structure WorkCount where
  job : Nat
  kind : EngineKind
  counter : Nat
  amount : Nat
deriving DecidableEq, Repr

/-- A row of 1 KiB of bench shared memory that has been written: its masked contents and its epoch bit (01 R14). -/
structure MemRow where
  data : Bytes
  epoch : Bool
deriving DecidableEq, Repr

/-- A bench. -/
structure Bench where
  /-- The bench is in service: it passed roll-call and has not been fenced. -/
  inService : Bool := false
  fenced : Bool := false
  cores : Tab Core := []
  marver : EngineBlock := {}
  cipher : EngineBlock := {}
  punty : EngineBlock := {}
  lehr : Lehr := {}
  valSel : BitVec 11 := 0
  cache : List CacheEntry := []
  sealCount : BitVec 56 := 0
  /-- Shared-memory scrambling: current key, next key, epoch, row under conversion (01 R14, R15). -/
  benchKey : BitVec 256 := 0
  nextKey : BitVec 256 := 0
  rowEpoch : Bool := false
  rescramble : Option Nat := none
  /-- A re-mask began while the bench re-scrambled: another re-scramble follows (01 R15). -/
  rescrambleQueued : Bool := false
  /-- The 4,096 rows of the 4 MiB by row index; a row not listed holds zeros (01 R13, R14). -/
  rows : Tab MemRow := []
  /-- The firmware area holds the verified image (01 R16, 14 R508). -/
  firmware : Bool := false
  spareRows : Nat := 0
  /-- Correctable errors per row (20 R653). -/
  rowErrors : Tab Nat := []
  /-- The bench stopped its outgoing handshakes on tick loss (02 R63). -/
  halted : Bool := false
  /-- Next engine of the periodic known-answer rotation, and the time of the last withdrawal (06 R233). -/
  katNext : Nat := 0
  katLast : Nat := 0
  /-- What jobs that have not retired have added to the engines' counters (04 R142). -/
  work : List WorkCount := []
deriving DecidableEq, Repr

/-! ### Gather (09) -/

/-- State of a Gather source (09 R330). -/
inductive GatherState where
  | absent
  | starting
  | healthy
  | failed
deriving DecidableEq, Repr

/-- The working state of a CTR_DRBG instance: Key and V (09 R315). -/
structure DrbgState where
  key : BitVec 256 := 0
  v : BitVec 128 := 0
deriving DecidableEq, Repr

/-- A conditioned block in the pool, tagged with its source (09 R311, R312). -/
structure PoolBlock where
  source : Nat
  bits : BitVec 192
deriving DecidableEq, Repr

/-- A Gather source (09 R305 to R310, R330). -/
structure Source where
  state : GatherState := .absent
  cause : BitVec 3 := 0
  trim : BitVec 6 := 0x20
  lastOnes : Nat := 0
  longestRun : Nat := 0
  run : Nat := 0
  lastBit : Option Bool := none
  /-- Windows completed since start (09 R310). -/
  windows : Nat := 0
  /-- Consecutive windows with the trim code at 0 or at 63 (09 R306). -/
  pinned : Nat := 0
  /-- Window count of the conditioner header (09 R311). -/
  windowNo : BitVec 56 := 0
  /-- Windows that have passed their tests and wait for the conditioner, each as 128 bytes (09 R309, R311). -/
  passed : List Bytes := []
  /-- Test windows still to run after a wake (22 R697). -/
  waking : Bool := false
deriving DecidableEq, Repr

/-- A CTR_DRBG instance (09 R315 to R320). -/
structure Instance where
  ready : Bool := false
  stopped : Bool := false
  count : Nat := 0
  /-- The buffered seed (09 R317). -/
  seed : Option Bytes := none
  drbg : DrbgState := {}
  /-- The instance waits for the seed that instantiates it (09 R315, R328). -/
  due : Bool := false
  lastReseed : Nat := 0
  /-- 1,000 ms have passed: reseed at the next call boundary (09 R317). -/
  reseedDue : Bool := false
  /-- A prediction-resistant generate waits for the pool (09 R320). -/
  waiting : Bool := false
  /-- The tick at which the output stopped (09 R330, GTH_ counter 4). -/
  stoppedAt : Nat := 0
deriving DecidableEq, Repr

/-- Gather (09). Instances 0 to 7 are the benches', 8 the custody partition's, 9 and 10 the paths'. -/
structure Gather where
  sources : Tab Source := []
  /-- The pool, oldest block first, each tagged with its source (09 R312). -/
  pool : List PoolBlock := []
  /-- Seeds that draws of device instances took while the pool could form none: the next that it forms (09 R313, R314). -/
  owed : Nat := 0
  instances : Tab Instance := []
  service : Bool := false
  minSources : Nat := 2
  /-- Counter blocks of the benches, GTH_CNT (09 R330). -/
  ctrs : Tab CtrBlock := []
deriving DecidableEq, Repr

/-! ### Host interface (12, 21) -/

/-- A command fetched and not completed, or completed of late (12 R433, R435). -/
structure Outstanding where
  cid : BitVec 16
  job : Nat
deriving DecidableEq, Repr

/-- A queue pair (12 R426 to R438, R457). -/
structure Queue where
  sqBase : BitVec 64 := 0
  cqBase : BitVec 64 := 0
  /-- HST_Q_CFG as last written (00 R8: RW). -/
  cfg : Word := 0
  enable : Bool := false
  /-- The depth in force, taken with the write that enables the queue. -/
  log2Depth : Nat := 0
  coalesceCount : Nat := 0
  coalesceUs : Nat := 0
  intEnable : Bool := false
  error : Bool := false
  cause : BitVec 3 := 0
  sqHead : Nat := 0
  sqTail : Nat := 0
  cqTail : Nat := 0
  cqHead : Nat := 0
  phase : Bool := true
  /-- Doorbell writes with the tail they set and their tick (12 R431). -/
  doorbells : List (Nat × Nat) := []
  outstanding : List Outstanding := []
  /-- Identifiers of the last 64 completions (12 R435). -/
  recent : List (BitVec 16) := []
  unsignalled : Nat := 0
  firstUnsignalled : Option Nat := none
  heldFiring : Bool := false
  /-- enable was cleared: the queue returns to reset when it is empty (12 R457). -/
  stopping : Bool := false
deriving DecidableEq, Repr

/-- An access control region (12 R449, R458). -/
structure AcuRegion where
  base : BitVec 64 := 0
  pages : BitVec 32 := 0
  read : Bool := false
  write : Bool := false
  valid : Bool := false
deriving DecidableEq, Repr

/-- States of a function (12 R444). -/
inductive FnMode where
  | disabled
  | enabled
  | quiescing
  | quiesced
  | draining
deriving DecidableEq, Repr

/-- A PCI Express function (12 R419, R456). -/
structure Fn where
  mode : FnMode := .disabled
  enable : Bool := false
  quiesce : Bool := false
  enableHeld : Bool := false
  acuFault : Bool := false
  queueError : Bool := false
  incarnation : BitVec 16 := 1
  ctr : CtrBlock := {}
  pringBase : BitVec 64 := 0
  pringEnable : Bool := false
  pringLog2 : Nat := 0
  pringProd : Nat := 0
  pringCons : Nat := 0
  queues : Tab Queue := []
  regions : Tab AcuRegion := []
  /-- Mailbox (12 R439, R457). -/
  mbxIn : Bytes := []
  inPost : Bool := false
  mbxOut : Bytes := []
  outValid : Bool := false
  mbxHeld : List Bytes := []
  /-- MSI-X table words and pending bits (12 R423). -/
  msixTable : Tab Word := []
  msixPending : BitVec 18 := 0
  /-- The start notice of this start has been sent (12 R440 type 0x84). -/
  noticed : Bool := false
  /-- The queue from which the rotation within the function goes on (12 R436). -/
  nextQueue : Nat := 0
deriving DecidableEq, Repr

/-- The host region (12). -/
structure HostRegion where
  fns : Tab Fn := []
  numVfs : Nat := 0
  pfDefault : Bool := true
  faultValid : Bool := false
  faultOverflow : Bool := false
  faultWrite : Bool := false
  faultPurpose : BitVec 3 := 0
  faultCount : BitVec 16 := 0
  faultFunction : Byte := 0
  faultAddr : BitVec 64 := 0
  fenced : Bool := false
  halted : Bool := false
  /-- AER: host reads that failed (12 R454). -/
  aer : Nat := 0
  /-- The rotation of the queue engine: the function in turn, and the descriptors it may still fetch in this turn (12 R436). -/
  turn : Nat := 0
  turnLeft : Nat := 8
deriving DecidableEq, Repr

/-! ### Network (13) -/

/-- States of a session (13 R487). -/
inductive SessState where
  | free
  | handshake
  | established
  | rekeying
  | closing
deriving DecidableEq, Repr

/-- An entry of the session table (13 R465, R470, R476, R487). -/
structure Session where
  state : SessState := .free
  gen : BitVec 16 := 0
  tenant : Nat := 0
  epoch : Byte := 0
  /-- Masked as key material, under the masking root of `keyRoot`: the traffic secret and the traffic keys of the current epoch, and the
  traffic keys of the previous one (13 R470, R485, R487). -/
  keys : Bytes := []
  prevKeys : Option Bytes := none
  keyRoot : Bool := false
  egressNext : Nat := 0
  egressCeiling : Nat := 0
  takeoverClaim : Nat := 0
  /-- Highest admitted number, and the numbers admitted within the window below it (13 R476). -/
  high : Nat := 0
  seen : List Nat := []
  remoteA : Option RemoteAddr := none
  remoteB : Option RemoteAddr := none
  lastFrame : Nat := 0
  epochStart : Nat := 0
  /-- Numbers used in the epoch by each direction before it began (13 R482, R483). -/
  epochIngress : Nat := 0
  epochEgress : Nat := 0
  rekeyDue : Bool := false
  /-- The tick of REKEY_ACK, while both epochs are accepted (13 R485). -/
  rekeyAt : Option Nat := none
  /-- A REKEY whose REKEY_ACK is not yet released (13 R486): the secret it will set. -/
  rekeyOpen : Option Bytes := none
  /-- Handshake: client nonce, TH1, handshake key and salt, PRK, client fingerprint, tick of ACCEPT (13 R472). -/
  nonce : Bytes := []
  th1 : Bytes := []
  acceptTail : Bytes := []
  prk : Bytes := []
  clientFp : Bytes := []
  acceptAt : Nat := 0
  segments : Tab Bytes := []
  /-- Where the copies of the HELLO came from, by path (13 R472, R473); they are no learned addresses (R460). -/
  helloA : Option RemoteAddr := none
  helloB : Option RemoteAddr := none
  /-- Jobs admitted under each host number (13 R480). -/
  admitted : List (Nat × Nat) := []
deriving DecidableEq, Repr

/-- Addresses of a path from the configuration (15 R531 type 0x0040). -/
structure PathAddr where
  configured : Bool := false
  tagging : Bool := false
  vid : BitVec 12 := 0
  pcp : BitVec 3 := 0
  mac : BitVec 48 := 0
  ipv4 : Option (BitVec 32) := none
  ipv6 : Option (BitVec 128) := none
deriving DecidableEq, Repr

/-- A network path (13 R496). -/
structure NetPath where
  linkUp : Bool := false
  fenced : Bool := false
  offline : Bool := false
  mode : BitVec 2 := 0
  takeoverDone : Bool := false
  claim : Nat := 1
  handover : Bool := false
  refused : Bool := false
  aborted : Bool := false
  copied : Nat := 0
  dupCount : BitVec 31 := 0
  dupOverflow : Bool := false
  ctr : CtrBlock := {}
  sessSel : BitVec 16 := 0
  egressLatch : BitVec 32 := 0
  /-- Ticks of the path's check failures within the last second (20 R662). -/
  checkFails : List Nat := []
  addr : PathAddr := {}
  halted : Bool := false
  /-- The last egress number this path encrypted, per session index (13 R493). -/
  encrypted : Tab Nat := []
  /-- Requests in the path's ingress bridge and responses in its egress bridge (02 R64). -/
  ingress : Nat := 0
  egress : Nat := 0
deriving DecidableEq, Repr

/-- A hand-over in progress (13 R491, R492): the path that copies, and what it has copied. -/
structure Handover where
  fromB : Bool
  copied : Tab Nat := []
  /-- Take the copying path offline at the end (13 R496). -/
  thenOffline : Bool := false
deriving DecidableEq, Repr

/-- A HELLO held during a hand-over (13 R492). -/
structure HeldHello where
  isB : Bool
  frame : Frame
  /-- Where the twin on the other path came from. -/
  twin : Option RemoteAddr := none
deriving DecidableEq, Repr
/-- A client nonce seen (13 R472), the paths on which a copy of its HELLO arrived, and the reason of its ABORT (13 R473). -/
structure HelloSeen where
  nonce : Bytes
  tick : Nat
  onA : Bool := false
  onB : Bool := false
  refused : Option Byte := none
deriving DecidableEq, Repr
/-- The segments of a HELLO that is not whole, of one sender on one path (13 R471). -/
structure HelloPart where
  isB : Bool
  source : RemoteAddr
  tick : Nat
  last : Nat
  segments : Tab Bytes := []
deriving DecidableEq, Repr

/-- A frame of a session that waits for the next grid point, with no job of its own: a KEEPALIVE, a REKEY_ACK or the
answer of a CANCEL (13 R480, R481, R484). -/
structure Reply where
  index : Nat
  gen : BitVec 16
  type : Byte
  plain : Bytes
deriving DecidableEq, Repr

/-- The paths and the session table (13). -/
structure Net where
  a : NetPath := { claim := 2 }
  b : NetPath := {}
  sessions : Tab Session := []
  /-- Highest claim the table has accepted (13 R488). -/
  highClaim : Nat := 0
  handover : Option Handover := none
  heldHellos : List HeldHello := []
  replies : List Reply := []
  /-- Client nonces seen within 2 s (13 R472). -/
  nonces : List HelloSeen := []
  helloParts : List HelloPart := []
  /-- Generation of every index at start (13 R465). -/
  gen0 : BitVec 16 := 0
  htlPort : BitVec 16 := 47011
  maxFrame : Nat := 1452
  idleS : Nat := 600
  rekeyS : Nat := 3600
deriving DecidableEq, Repr

/-! ### Event recorder and SMBus (19) -/

/-- Severities (19 R623). -/
inductive Severity where
  | info
  | notice
  | warning
  | alarm
  | tamper
deriving DecidableEq, Repr

/-- A record submitted to the recorder (19 R623, R627). -/
structure Submission where
  severity : Severity
  code : BitVec 16
  /-- The region the record names, and the region whose buffer holds it. -/
  region : Region
  via : Region
  unit : Byte := 0xFF
  tenant : Option Nat := none
  detail : Bytes := []
  tick : Nat := 0
  order : Nat := 0
deriving DecidableEq, Repr

/-- A stored event record (19 R623). -/
structure Record where
  seq : Nat
  seconds : BitVec 40
  cycle : BitVec 32
  tick : BitVec 32
  severity : Severity
  code : BitVec 16
  region : Byte
  unit : Byte
  tenant : Option Nat
  summary : Bool := false
  copied : Bool := false
  suppressed : BitVec 32
  detail : Bytes
  tag : BitVec 32
deriving DecidableEq, Repr

/-- The token bucket and suppressed count of an event code (19 R630 to R632). -/
structure EventBucket where
  rate : Nat := 16
  burst : Nat := 64
  /-- Hundred-thousandths of a token. -/
  level : Nat := 6400000
  suppressed : BitVec 32 := 0
  /-- The tick of the last stored record, or of the first suppression since (19 R632). -/
  quietSince : Nat := 0
  severity : Severity := .info
  /-- A summary has fallen due and waits for a token (19 R632). -/
  summaryDue : Bool := false
deriving DecidableEq, Repr

/-- The alert sequence on SMB_ALERT_N (19 R646, R647). -/
inductive AlertPhase where
  | idle
  /-- Asserted and unanswered since a tick, after this many repetitions. -/
  | asserted (since : Nat) (repeats : Nat)
  /-- Answered: stays asserted until the causes are cleared. -/
  | answered
  /-- Released until a tick, before the given repetition. -/
  | backoff (until_ : Nat) (repeats : Nat)
  | silenced
deriving DecidableEq, Repr

/-- The event recorder, its registers and the SMBus target (19). -/
structure Events where
  /-- Submission buffers of the regions in submission order, and records waiting in units (19 R627). -/
  buffers : List Submission := []
  waiting : List Submission := []
  submitted : Nat := 0
  lastAccept : Option Nat := none
  ring : List Record := []
  nextSeq : Nat := 0
  buckets : Tab EventBucket := []
  /-- Records of severity Notice and above not yet in the flash log (19 R636). -/
  toFlash : List Record := []
  nvmOk : Bool := false
  headLatch : BitVec 32 := 0
  readSel : BitVec 14 := 0
  /-- The copy that EVR_READ_D0 took (19 R648). -/
  readCopy : Bytes := []
  hostNotify : Bool := false
  alertMin : BitVec 3 := 3
  causes : Byte := 0
  alert : AlertPhase := .idle
  rateSel : BitVec 16 := 0
  ctr : CtrBlock := {}
  /-- Records accepted per severity since start (19 R644 command 0x04). -/
  perSeverity : Tab Nat := []
  newest : Option Record := none
deriving DecidableEq, Repr

/-! ### Power and debug (22) -/

/-- Power states, PWR_STATUS.state (22 R710). -/
inductive PowerMode where
  | noon
  | duskRequested
  | dusk
  | waking
  | preparingNight
  | nightReady
deriving DecidableEq, Repr

/-- Debug levels (22 R705). -/
inductive DebugLevel where
  | closed
  | diagnostic
  | full
deriving DecidableEq, Repr

/-- The power controller and the debug gate (22). -/
structure Power where
  mode : PowerMode := .noon
  wakeCause : BitVec 3 := 0
  vbatLow : Bool := false
  batteryLost : Bool := false
  idleMs : Nat := 0
  vbatMv : Nat := 0
  idleSince : Option Nat := none
  /-- Entry to Dusk has begun; a job that arrives wakes the part when it ends (22 R696). -/
  duskEntering : Bool := false
  wakePending : Bool := false
  duskSince : Nat := 0
  ctr : CtrBlock := {}
  level : DebugLevel := .closed
  opened : Bool := false
  /-- The tick at which Diagnostic ends (22 R705). -/
  diagEnds : Nat := 0
  refusedLevel : BitVec 2 := 0
  refusedCount : BitVec 16 := 0
deriving DecidableEq, Repr

/-! ### Flash and configuration (15) -/

/-- A configuration copy in the flash: its bytes, and whether each of its two signatures verifies (15 R525, R527). -/
structure FlashCopy where
  bytes : Bytes
  ecOk : Bool
  mlOk : Bool
deriving DecidableEq, Repr

/-- A firmware image in the flash: its header and table, whether both signatures verify and every section matches
its digest (15 R545, R546). -/
structure FlashImage where
  bytes : Bytes
  signaturesOk : Bool
  sectionsOk : Bool
deriving DecidableEq, Repr

/-- A tenant root in the journal, encrypted under the TRJ key (16 R555). -/
structure RootEntry where
  tenant : Nat
  version : Byte
  suite : Byte
  nonce : Bytes
  cipher : Bytes
  tag : BitVec 128
deriving DecidableEq, Repr

/-- An entry of the retention-signing state journal (11 R412). -/
structure CeilingEntry where
  type : Byte
  tenant : Nat
  fingerprint : Bytes
  ceiling : Nat
  cycle : BitVec 32
  entrySeq : Nat
  tag : BitVec 128
deriving DecidableEq, Repr

/-- A journal entry handed to the NVM interface region and not yet durable (04 R147, 20 R660). -/
inductive JournalWrite where
  | ceiling (entry : CeilingEntry)
  | root (entry : RootEntry)
  | closeRoot (tenant : Nat) (version : Byte)
deriving DecidableEq, Repr

structure PendingWrite where
  id : Nat
  write : JournalWrite
  attempts : Nat := 0
  /-- The job to whose commit the entry belongs: the journal takes it with that commit, and never without it (01 R21). -/
  job : Option Nat := none
  /-- Its page is programmed; the commit is still to be made. -/
  durable : Bool := false
deriving DecidableEq, Repr

/-- An image write in progress (15 R540): kind 1, 2 or 3, the bytes, and the job whose Retire waits. -/
structure ImageWrite where
  kind : Nat
  image : Bytes
  job : Nat
deriving DecidableEq, Repr

/-- The external flash and the NVM interface region (15). -/
structure Flash where
  bootstrap : Bytes := []
  morning : Option FlashCopy := none
  evening : Option FlashCopy := none
  slot1 : Option FlashImage := none
  slot2 : Option FlashImage := none
  /-- Copies of the custody record, each with its tag (16 R564). -/
  record0 : Option (CustodyRecord × BitVec 128) := none
  record1 : Option (CustodyRecord × BitVec 128) := none
  roots : List RootEntry := []
  /-- The retention-signing state journal: the entries of its active half, and those of the other half until it has been erased (11
  R413). -/
  ceilings : List CeilingEntry := []
  otherHalf : List CeilingEntry := []
  /-- The second half is the active one. -/
  halfTwo : Bool := false
  certStore : Bytes := []
  /-- The event log area: its pages in the order written, oldest first, and the number in the area of the first of
  them; a page that failed to program is empty (19 R636 to R639). -/
  log : List (List Record) := []
  logFirst : Nat := 0
  /-- Journal writes in progress (11 R414, 20 R660). -/
  writes : List PendingWrite := []
  nextWrite : Nat := 0
  nextEntrySeq : Nat := 0
  /-- The tenant-root journal and the retention-signing state journal are unavailable until the next start (20 R660). -/
  rootsDown : Bool := false
  ceilingsDown : Bool := false
  imageWrite : Option ImageWrite := none
  /-- Configuration and firmware in force (15 R535, R547, R549). -/
  selected : BitVec 2 := 0
  sequence : BitVec 64 := 0
  measurement : Bytes := []
  morningResult : BitVec 4 := 0
  eveningResult : BitVec 4 := 0
  written : Bool := false
  fwSlot : BitVec 2 := 0
  fwSvn : BitVec 6 := 0
  fwVersion : Word := 0
  fwDigest : Bytes := []
  wrKind : BitVec 3 := 0
  wrResult : Code := 0
  seqLatch : BitVec 32 := 0
  floorLatch : BitVec 16 := 0
  /-- refusal_events of the device parameters (15 R531). -/
  refusalEvents : BitVec 3 := 0
  pageSize : Nat := 256
  sectorSize : Nat := 4096
  maxMhz : Nat := 50
  sizeMib : Nat := 128
  /-- Read opcode and dummy cycles in force; none for the default command of the strapped mode (15 R523, R524). -/
  readCommand : Option (BitVec 16) := none
  fenced : Bool := false
  halted : Bool := false
deriving DecidableEq, Repr

/-! ### What leaves the part -/

/-- The link layer of a frame that a path sends: its own MAC address, and VID with PCP where tagging is on (13 R459). -/
structure SentLink where
  mac : BitVec 48 := 0
  vlan : Option (BitVec 12 × BitVec 3) := none
deriving DecidableEq, Repr
/-- What a path puts below HTL around a frame: its own addresses and the UDP checksum (13 R459). -/
structure SentAs where
  link : SentLink := {}
  ip : BitVec 128 := 0
  port : BitVec 16 := 0
  checksum : BitVec 16 := 0
deriving DecidableEq, Repr
/-- The bridges between the die's regions and its interfaces (02 R64). -/
inductive Bridge where
  | ingress
  | egress
  | pcie
  | xspi
deriving DecidableEq, Repr

/-- Transfers that leave the part, in the order they leave. -/
inductive Output where
  | frame (isB : Bool) (dest : RemoteAddr) (sent : SentAs) (header : HtlHeader) (payload : Bytes) (tag : BitVec 128)
  | clearFrame (isB : Bool) (dest : RemoteAddr) (sent : SentAs) (header : HtlHeader) (payload : Bytes)
  | arpReply (isB : Bool) (dest : RemoteAddr) (link : SentLink) (address : BitVec 32)
  | neighbourReply (isB : Bool) (dest : RemoteAddr) (link : SentLink) (address : BitVec 128)
  | dmaWrite (function : Nat) (address : BitVec 64) (bytes : Bytes)
  | msix (function : Nat) (vector : Nat)
  | smbus (bytes : Bytes)
  | hostNotify
  | sclRelease
  | cardCommand (portB : Bool) (ins : Byte) (data : Bytes)
  | counterLow (value : Word)
deriving DecidableEq, Repr

/-! ### The whole state -/

/-- Everything but the queue of waiting commands. -/
structure Device where
  time : TimeBase := {}
  pins : Pins := {}
  start : StartState := {}
  fuses : Fuses := {}
  battery : Battery := {}
  custody : Custody := {}
  tamper : Tamper := {}
  keys : KeyStore := {}
  gaffer : Gaffer := {}
  shares : Shares := {}
  benches : Tab Bench := []
  gather : Gather := {}
  host : HostRegion := {}
  net : Net := {}
  events : Events := {}
  power : Power := {}
  flash : Flash := {}
  /-- Random bytes drawn since State.reset (the model's own). -/
  draws : Nat := 0
  out : List Output := []
deriving DecidableEq, Repr

/-- The state: the waiting commands, first in, first out, and the device. -/
structure State where
  pending : List Instr := []
  dev : Device := {}
deriving DecidableEq, Repr

/-- The model raises no fault: every row of the table has an effect the specification gives. The one constructor is
kept so that the type is not empty; no meaning answers with it (safe). -/
inductive Fault where
  | unreachable
deriving DecidableEq, Repr

/-- Refusals of the model. `notModelled` is the form of an arm of Dispatch.lean whose command has no meaning yet
(safe: a run stops there); no meaning answers with it. -/
inductive Refusal where
  | notModelled (mnemonic : String)
deriving DecidableEq, Repr

/-- The machine right after reset: the reset inputs low, no start begun, every register at its reset value, the
queue of commands empty. -/
def State.reset : State := {}

end Sys2Proof.Machine
end

