-- ==== Sys2Proof/Machine/Drbg.lean ====
section
/-! DEFINITION. CTR_DRBG of SP 800-90A with AES-256 and no derivation function, and the conditioner (09 R311, R313, R315):
the arithmetic of Gather. -/

namespace Sys2Proof.Machine

/-- The seed length of 384 bits, in bytes (09 R313, R315). -/
def seedBytes : Nat := 48
/-- The encryption of `n` counters that follow V. -/
def drbgBlocks (s : DrbgState) (n : Nat) : Bytes :=
  let key := bvBytes 32 s.key
  (List.range n).flatMap (fun i => bvBytes 16 (aesEncrypt key (s.v + BitVec.ofNat 128 (i + 1))))
/-- The update function: three blocks XORed with the data give the next Key and V. -/
def drbgUpdate (data : Bytes) (s : DrbgState) : DrbgState :=
  let t := bytesXor (drbgBlocks s 3) (fit seedBytes data)
  { key := bytesBv 256 (t.take 32), v := bytesBv 128 (t.drop 32) }
def drbgInstantiate (seed personal : Bytes) : DrbgState := drbgUpdate (bytesXor (fit seedBytes seed) (fit seedBytes personal)) {}
def drbgReseed (seed : Bytes) (s : DrbgState) : DrbgState := drbgUpdate seed s
/-- One call of generate: `n` blocks, and the state after its update. -/
def drbgGenerate (n : Nat) (s : DrbgState) : Bytes × DrbgState :=
  (drbgBlocks s n, drbgUpdate [] { s with v := s.v + BitVec.ofNat 128 n })
/-- The personalization string of an instance: its number, its bench (0xFF for a device instance), the power-cycle count
(09 R315; the order and widths of the fields are log entry 82's). -/
def personalization (instance_ : Nat) (cycles : BitVec 32) : Bytes :=
  fit seedBytes ([BitVec.ofNat 8 instance_, if instance_ < 8 then BitVec.ofNat 8 instance_ else 0xFF] ++ leBytes 4 cycles.toNat)

/-- The 128 bytes of a window of 1,024 raw bits, the first bit lowest in the first byte (log entry 82). -/
def windowBytes (bits : List Bool) : Bytes :=
  (List.range 128).map (fun i => BitVec.ofNat 8 (((List.range 8).map (fun j => if (bits[8 * i + j]?).getD false then 2 ^ j else 0)).sum))
/-- One conditioned block: the leftmost 192 bits of SHA-256 over the header, the source number and a 56-bit window count, and
the window (09 R311). -/
def conditionBlock (source : Nat) (window : BitVec 56) (bytes : Bytes) : BitVec 192 :=
  bytesBv 192 ((sha256 ([BitVec.ofNat 8 source] ++ leBytes 7 window.toNat ++ fit 128 bytes)).take 24)

/-- The known-answer test of instantiate, generate and reseed that a bench instance passes before it serves (09 R315): from
the seed of 48 bytes 0 to 47 and no personalization, one block, a reseed with the same seed reversed, one block. -/
def drbgTest (expected : Bytes) : Bool :=
  let seed := (List.range seedBytes).map (fun i => BitVec.ofNat 8 i)
  let p := drbgGenerate 1 (drbgInstantiate seed [])
  let q := drbgGenerate 1 (drbgReseed seed.reverse p.2)
  p.1 ++ q.1 == expected
/-- The answer that the test expects. -/
def drbgAnswer : Bytes :=
  [6, 21, 80, 35, 77, 21, 140, 94, 201, 85, 149, 254, 4, 239, 122, 37, 253, 106, 46, 89, 39, 112, 156, 10, 8, 54, 191, 207, 94,
   228, 64, 100]

end Sys2Proof.Machine
end

