-- ==== Sys2Proof/Machine/Table.lean ====
section
/-! DEFINITION. Sparse tables: the one form in which the model holds registers, slots, sessions and queues by index.
A table lists pairs with strictly rising indices. -/

namespace Sys2Proof.Machine

variable {α : Type}

/-- The entry at an index, if the table lists one. -/
def tabGet (k : Nat) : Tab α → Option α
  | [] => none
  | (j, v) :: t => if j = k then some v else tabGet k t

/-- The entry at an index, or the value an unlisted index reads as. -/
def tabGetD (k : Nat) (dflt : α) (t : Tab α) : α := (tabGet k t).getD dflt

/-- Write an entry, keeping the indices strictly rising. -/
def tabSet (k : Nat) (v : α) : Tab α → Tab α
  | [] => [(k, v)]
  | (j, w) :: t =>
    if j = k then (k, v) :: t else if k < j then (k, v) :: (j, w) :: t else (j, w) :: tabSet k v t

/-- Remove the entry at an index. -/
def tabErase (k : Nat) (t : Tab α) : Tab α := t.filter (fun p => p.1 != k)

/-- Write a cell of a memory whose unlisted cells read as `dflt`: a cell that reads as unlisted is not listed. -/
def memSet [DecidableEq α] (dflt : α) (k : Nat) (v : α) (t : Tab α) : Tab α :=
  if v = dflt then tabErase k t else tabSet k v t

/-- Change the listed entry at an index; an unlisted index stays unlisted. -/
def tabMod (k : Nat) (f : α → α) : Tab α → Tab α
  | [] => []
  | (j, v) :: t => if j = k then (j, f v) :: t else (j, v) :: tabMod k f t

/-- Change every listed entry. -/
def tabMap (f : Nat → α → α) (t : Tab α) : Tab α := t.map (fun p => (p.1, f p.1 p.2))

/-- A table of the same entry at indices 0 to n − 1. -/
def tabFill (n : Nat) (v : α) : Tab α := (List.range n).map (fun k => (k, v))

/-- Every index of the table lies above a bound. -/
def tabAbove (b : Nat) : Tab α → Bool
  | [] => true
  | (j, _) :: t => decide (b < j) && tabAbove b t

/-- The indices rise strictly. -/
def tabSorted : Tab α → Bool
  | [] => true
  | (j, _) :: t => tabAbove j t && tabSorted t

/-- The canonical form of a memory whose unlisted cells read as `dflt`. -/
def memWf [DecidableEq α] (dflt : α) (t : Tab α) : Bool :=
  tabSorted t && t.all (fun p => decide (p.2 ≠ dflt))

/-- Change the list entry at a position. -/
def listSet (n : Nat) (v : α) : List α → List α
  | [] => []
  | x :: xs => match n with
    | 0 => v :: xs
    | n + 1 => x :: listSet n v xs

/-- The least element of a list under a strict order on keys; the earliest of equals. -/
def leastBy (lt : α → α → Bool) : List α → Option α
  | [] => none
  | x :: xs => match leastBy lt xs with
    | none => some x
    | some y => if lt y x then some y else some x

end Sys2Proof.Machine
end

