-- ==== Sys2Proof/Machine/Ops.lean ====
section
/-! DEFINITION. The named operations the meanings share: time, counters, event submission, traces, random draws,
fuses, the lifecycle and the key derivations. -/

namespace Sys2Proof.Machine

/-! ### The form of a meaning -/

/-- Every meaning acts on the device alone: the queue of waiting commands is kept. -/
def runDev (f : Device → Device) (s : State) : Host.Outcome State Fault Refusal := .next { s with dev := f s.dev }

/-- Apply an operation only when its occasion has arisen (log entry 1). -/
def doIf (c : Bool) (f : Device → Device) (d : Device) : Device := if c then f d else d

/-- Apply an operation to the value of an option, if any. -/
def doWith {α : Type} (o : Option α) (f : α → Device → Device) (d : Device) : Device :=
  match o with
  | some a => f a d
  | none => d

/-- Apply an operation for each element of a list, in order. -/
def doEach {α : Type} (xs : List α) (f : α → Device → Device) (d : Device) : Device := xs.foldl (fun d x => f x d) d

/-! ### Time (02 R41, R734; 04 R130) -/

/-- Ticks since release of reset. -/
def now (d : Device) : Nat := d.time.ticks

/-- The 32-bit watch count. -/
def watch (d : Device) : BitVec 32 := BitVec.ofNat 32 d.time.ticks

/-- The extended count of 48 bits, and its signed distance from a count: every deadline and floor comparison is made modulo
2^48 (04 R130). -/
def extended (d : Device) : BitVec 48 := BitVec.ofNat 48 d.time.ticks
def ticksUntil (a : BitVec 48) (d : Device) : Int := (a - extended d).toInt
/-- The count has been reached. -/
def reached (a : BitVec 48) (d : Device) : Bool := decide (ticksUntil a d ≤ 0)
/-- Ticks since a count, 0 when it lies ahead. -/
def ticksSince (a : BitVec 48) (d : Device) : Nat := (-(ticksUntil a d)).toNat

/-- Ticks in a microsecond, a millisecond and a second of watch time (00 R7: 32 MHz). -/
def usTicks : Nat := 32
def msTicks : Nat := 32000
def secTicks : Nat := 32000000

/-! ### Counters (04 R169, 19 R642) -/

/-- Add to a 48-bit counter, which wraps and sets its sticky flag (04 R169). -/
def ctrAdd (k n : Nat) (b : CtrBlock) : CtrBlock :=
  let c := tabGetD k {} b.ctrs
  { b with ctrs := tabSet k { n := c.n + BitVec.ofNat 48 n, overflow := c.overflow || decide (2 ^ 48 ≤ c.n.toNat + n) } b.ctrs }

def ctrInc (k : Nat) (b : CtrBlock) : CtrBlock := ctrAdd k 1 b

/-- The value of a counter. -/
def ctrVal (k : Nat) (b : CtrBlock) : BitVec 48 := (tabGetD k {} b.ctrs).n

/-- Counters of Gaffer: global counter k, and counter k of a core, by the encoding of GAF_CNT_SEL (04 R172). -/
def gafCount (k : Nat) (d : Device) : Device := { d with gaffer := { d.gaffer with ctr := ctrInc k d.gaffer.ctr } }
def coreKey (c : CoreRef) (k : Nat) : Nat := 0x8000 + 256 * (16 * c.bench + c.core) + k
def coreCount (c : CoreRef) (k n : Nat) (d : Device) : Device :=
  { d with gaffer := { d.gaffer with ctr := ctrAdd (coreKey c k) n d.gaffer.ctr } }
def evrCount (k : Nat) (e : Events) : Events := { e with ctr := ctrInc k e.ctr }
def pwrCount (k : Nat) (d : Device) : Device := { d with power := { d.power with ctr := ctrInc k d.power.ctr } }

/-! ### Accessors -/

def benchOf (b : Nat) (d : Device) : Bench := tabGetD b {} d.benches
def modBench (b : Nat) (f : Bench → Bench) (d : Device) : Device := { d with benches := tabMod b f d.benches }
def lehCount (b k : Nat) (d : Device) : Device :=
  modBench b (fun x => { x with lehr := { x.lehr with ctr := ctrInc k x.lehr.ctr } }) d
def coreOf (c : CoreRef) (d : Device) : Core := tabGetD c.core {} (benchOf c.bench d).cores
def modCore (c : CoreRef) (f : Core → Core) (d : Device) : Device :=
  modBench c.bench (fun x => { x with cores := tabMod c.core f x.cores }) d
def tenantOf (t : Nat) (d : Device) : Tenant := tabGetD t {} d.gaffer.tenants
def modTenant (t : Nat) (f : Tenant → Tenant) (d : Device) : Device :=
  { d with gaffer := { d.gaffer with tenants := tabSet t (f (tenantOf t d)) d.gaffer.tenants } }
def fnOf (f : Nat) (d : Device) : Fn := tabGetD f {} d.host.fns
def modFn (f : Nat) (g : Fn → Fn) (d : Device) : Device :=
  { d with host := { d.host with fns := tabMod f g d.host.fns } }
def fnCount (f k : Nat) (d : Device) : Device := modFn f (fun x => { x with ctr := ctrInc k x.ctr }) d
def queueOf (f q : Nat) (d : Device) : Queue := tabGetD q {} (fnOf f d).queues
def modQueue (f q : Nat) (g : Queue → Queue) (d : Device) : Device :=
  modFn f (fun x => { x with queues := tabSet q (g (tabGetD q {} x.queues)) x.queues }) d
def pathOf (isB : Bool) (d : Device) : NetPath := if isB then d.net.b else d.net.a
def modPath (isB : Bool) (f : NetPath → NetPath) (d : Device) : Device :=
  { d with net := { d.net with a := if isB then d.net.a else f d.net.a, b := if isB then f d.net.b else d.net.b } }
/-- The depth of a bridge, in requests, responses, TLPs or words, and its crossing time in ns at the nominal corner: minimum, typical,
maximum (02 R64). No rule says what a full PCIe or xSPI bridge does; crossing takes less than a tick. -/
def bridgeDepth : Bridge → Nat
  | .ingress => 512
  | .egress => 512
  | .pcie => 256
  | .xspi => 64
def crossingNs : Bridge → Nat × Nat × Nat
  | .ingress => (4, 6, 10)
  | .egress => (4, 6, 10)
  | .pcie => (3, 5, 8)
  | .xspi => (8, 12, 20)
def netCount (isB : Bool) (k : Nat) (d : Device) : Device := modPath isB (fun p => { p with ctr := ctrInc k p.ctr }) d
def sessionOf (i : Nat) (d : Device) : Session := tabGetD i { gen := d.net.gen0 } d.net.sessions
def setSession (i : Nat) (s : Session) (d : Device) : Device :=
  { d with net := { d.net with sessions := tabSet i s d.net.sessions } }
def sourceOf (n : Nat) (d : Device) : TamperSource := tabGetD n {} d.tamper.sources
def setSource (n : Nat) (s : TamperSource) (d : Device) : Device :=
  { d with tamper := { d.tamper with sources := tabSet n s d.tamper.sources } }
def engineBlock (k : EngineKind) (b : Bench) : EngineBlock :=
  match k with
  | .marver => b.marver
  | .cipher => b.cipher
  | .punty => b.punty
def modEngineBlock (k : EngineKind) (f : EngineBlock → EngineBlock) (b : Bench) : Bench :=
  { b with
    marver := if k = .marver then f b.marver else b.marver
    cipher := if k = .cipher then f b.cipher else b.cipher
    punty := if k = .punty then f b.punty else b.punty }
def engineOf (b : Nat) (k : EngineKind) (n : Nat) (d : Device) : Engine :=
  tabGetD n {} (engineBlock k (benchOf b d)).engines
def modEngine (b : Nat) (k : EngineKind) (n : Nat) (f : Engine → Engine) (d : Device) : Device :=
  modBench b (modEngineBlock k (fun x => { x with engines := tabMod n f x.engines })) d
def jobOf (id : Nat) (d : Device) : Option Job := d.gaffer.jobs.find? (fun j => j.id = id)
def modJob (id : Nat) (f : Job → Job) (d : Device) : Device :=
  { d with gaffer := { d.gaffer with jobs := d.gaffer.jobs.map (fun j => if j.id = id then f j else j) } }
/-- An engine without a key, a state or a value in its accumulator (06 R231; 08 R283). -/
def emptyEngine (e : Engine) : Engine :=
  { e with columns := [], spillFlag := false, keyValid := false, keyReg := [], formed := [], chain := [], shadow := [], chainJob := none
           lastWord := [], lastCount := 0, lineRead := [] }
/-- Kind codes of 05 R175, and engines of each kind in a bench (01 R13). -/
def kindCode : EngineKind → Nat
  | .marver => 0
  | .cipher => 1
  | .punty => 2
def kindOf (n : Nat) : Option EngineKind :=
  match n with
  | 0 => some .marver
  | 1 => some .cipher
  | 2 => some .punty
  | _ => none
def kindSize : EngineKind → Nat
  | .marver => 8
  | .cipher => 4
  | .punty => 2

/-! ### The part (00 R1) and the personality (00 R5, 14 R497) -/

def partBenches : Part → Nat
  | .ky1280 => 8
  | .ky0640 => 4
  | .ky0320 => 2
def slotBits : Part → Nat
  | .ky1280 => 20
  | .ky0640 => 19
  | .ky0320 => 18
def partNumber : Part → Nat
  | .ky1280 => 1280
  | .ky0640 => 640
  | .ky0320 => 320
/-- part_mask bit of a part number (15 R526). -/
def partBit : Part → Nat
  | .ky1280 => 0
  | .ky0640 => 1
  | .ky0320 => 2
/-- The Izvi personality is strapped: STRAP_PERS is bit 11 (14 R520). -/
def izvi (d : Device) : Bool := d.pins.strapSampled.getLsbD 11
/-- Slots of the part in the personality (00 R1, 21: 65,536 in Izvi). -/
def slotCount (d : Device) : Nat := if izvi d then 65536 else 2 ^ slotBits d.fuses.part

/-! ### Event submission (19 R623, R627) -/

/-- Region numbers (19 R623 byte 24). -/
def regionNo : Region → Nat
  | .bench b => b
  | .keyStore => 0x08
  | .custody => 0x09
  | .path isB => if isB then 0x0B else 0x0A
  | .host => 0x0C
  | .nvm => 0x0D

def sevNo : Severity → Nat
  | .info => 0
  | .notice => 1
  | .warning => 2
  | .alarm => 3
  | .tamper => 4

def highSev (s : Severity) : Bool := decide (3 ≤ sevNo s)

/-- Entries of a region's submission buffer that records below Alarm cannot use: 4 are reserved for Alarm and Tamper,
and high records beyond 4 take the common 12 (19 R627, DEDUCED). -/
def lowFull (e : Events) (via : Region) : Bool :=
  let mine := e.buffers.filter (fun s => s.via = via)
  let high := (mine.filter (fun s => highSev s.severity)).length
  decide (12 ≤ (mine.length - high) + (high - 4))
def allFull (e : Events) (via : Region) : Bool := decide (16 ≤ (e.buffers.filter (fun s => s.via = via)).length)

/-- Submit a record: into the region's buffer, dropped and counted, or waiting in the submitting unit (19 R627). -/
def submitEvent (s : Submission) (e : Events) : Events :=
  let s := { s with order := e.submitted }
  let e := { e with submitted := e.submitted + 1 }
  if highSev s.severity then
    if allFull e s.via then { e with waiting := e.waiting ++ [s] } else { e with buffers := e.buffers ++ [s] }
  else if lowFull e s.via || allFull e s.via then evrCount 2 e
  else { e with buffers := e.buffers ++ [s] }

/-- Submit an event of a region through that region's own buffer. -/
def emitVia (via : Region) (sev : Severity) (code : BitVec 16) (region : Region) (unit : Byte) (tenant : Option Nat)
    (detail : Bytes) (d : Device) : Device :=
  { d with events := submitEvent { severity := sev, code := code, region := region, via := via, unit := unit,
                                   tenant := tenant, detail := fit 28 detail, tick := d.time.ticks } d.events }
def emit (sev : Severity) (code : BitVec 16) (region : Region) (detail : Bytes) (d : Device) : Device :=
  emitVia region sev code region 0xFF none detail d
/-- Submit an event of the custody partition. -/
def emitC (sev : Severity) (code : BitVec 16) (detail : Bytes) (d : Device) : Device := emit sev code .custody detail d

/-! ### Traces -/

/-- One entry of the start trace, up to 64 (14 R519). -/
def startEntry (kind subject unit : Byte) (detail : BitVec 16) (d : Device) : Device :=
  { d with start :=
      if d.start.done || d.start.stopped then d.start
      else if d.start.trace.length < 64 then
        { d.start with trace := d.start.trace ++
            [{ ticks := watch d, phase := BitVec.ofNat 8 d.start.phase, kind, subject, unit, detail }] }
      else { d.start with traceFull := true } }

/-- One entry of the decision trace, up to 1,024 while a window is open (04 R170, R171). -/
def traceEntry (kind : Byte) (tenant : Nat) (core : Byte) (deadline : BitVec 48) (recipe : BitVec 16) (code : Code)
    (d : Device) : Device :=
  { d with gaffer :=
      if d.gaffer.traceOpen.isEmpty then d.gaffer
      else if d.gaffer.trace.length < 1024 then
        { d.gaffer with trace := d.gaffer.trace ++
            [{ count := watch d, kind, tenant := BitVec.ofNat 8 tenant, core, deadline := deadline.setWidth 32,
               recipe, code }] }
      else { d.gaffer with traceDropped := satInc d.gaffer.traceDropped } }

/-- Gaffer records while a window is open (04 R170). -/
def recording (g : Gaffer) : Bool := !g.traceOpen.isEmpty
/-- Open a window. The first one open overwrites the frozen trace; windows that overlap share one trace, and a recovery window is
stretched by each withdrawal (04 R170, R171; DESIGN CHOICE where windows overlap, log entry 15). -/
def openWindow (w : TraceWindow) (d : Device) : Device :=
  { d with gaffer :=
      { d.gaffer with
        traceOpen := if d.gaffer.traceOpen.contains w then d.gaffer.traceOpen else d.gaffer.traceOpen ++ [w]
        traceFrozen := d.gaffer.traceFrozen && recording d.gaffer
        traceWindow := if recording d.gaffer then d.gaffer.traceWindow else w
        trace := if recording d.gaffer then d.gaffer.trace else []
        traceDropped := if recording d.gaffer then d.gaffer.traceDropped else 0
        traceEnds := if w = .recovery then d.time.ticks + 500 * usTicks else d.gaffer.traceEnds } }
/-- A window ends; the trace freezes when no other is open, and the register shows one that still is (04 R171). -/
def closeWindow (w : TraceWindow) (d : Device) : Device :=
  let left := d.gaffer.traceOpen.erase w
  { d with gaffer := { d.gaffer with
      traceOpen := left
      traceFrozen := d.gaffer.traceFrozen || (recording d.gaffer && left.isEmpty)
      traceWindow := if left.contains d.gaffer.traceWindow then d.gaffer.traceWindow else left.headD d.gaffer.traceWindow } }

/-! ### Random draws (09) -/

def instOf (n : Nat) (g : Gather) : Instance := tabGetD n {} g.instances
def setInst (n : Nat) (i : Instance) (g : Gather) : Gather := { g with instances := tabSet n i g.instances }
/-- An instance for which the pool has no seed yet; those that wait are served first, the device instances before the
benches' (DEDUCED: 09 R314 orders reseeds only; log entry 83). -/
def nextDue (g : Gather) : Option Nat := [8, 9, 10, 0, 1, 2, 3, 4, 5, 6, 7].find? (fun n => (instOf n g).due)
/-- Every instance that is to be instantiated before Gaffer resumes dispatch has its seed (09 R328). -/
def instancesReady (g : Gather) : Bool := (nextDue g).isNone
/-- Blocks of a draw of n bytes (09 R316). -/
def blocksOf (n : Nat) : Nat := ceilDiv n 16
/-- The ticks that an instance has been stopped at the limit by now (09 R330 counter 4). -/
def stopTicks (tick : Nat) (i : Instance) (x : CtrBlock) : CtrBlock := if i.stopped then ctrAdd 4 (tick - i.stoppedAt) x else x
/-- A draw from a generator, in calls of at most 256 blocks: the blocks, and the state after them (09 R316). -/
def drawGo : Nat → Nat → DrbgState → Bytes × DrbgState
  | 0, _, s => ([], s)
  | fuel + 1, left, s =>
    if left = 0 then ([], s)
    else
      let r := drbgGenerate (min left 256) s
      let t := drawGo fuel (left - 256) r.2
      (r.1 ++ t.1, t.2)
def drawFrom (n : Nat) (s : DrbgState) : Bytes × DrbgState := drawGo (ceilDiv (blocksOf n) 256) (blocksOf n) s
/-- The bytes that the instance of the custody partition (8) or of a path (9, 10) delivers to a draw, and the state after it:
the blocks are counted (09 R315, R317). -/
def drawn (k n : Nat) (d : Device) : Bytes := ((drawFrom n (instOf k d.gather).drbg).1).take n
def spend (k n : Nat) (d : Device) : Device :=
  let i := instOf k d.gather
  { d with draws := d.draws + n
           gather := setInst k { i with drbg := (drawFrom n i.drbg).2, count := i.count + blocksOf n } d.gather }

/-! ### Digests and derivations -/

/-- SP 800-108 counter mode with AES-CMAC under a 256-bit key (00 R735). -/
def kdfCmac (key lab ctx : Bytes) (len : Nat) : Bytes :=
  ((List.range (ceilDiv len 16)).flatMap (fun i =>
    cmac true key (beBytes 4 (i + 1) ++ lab ++ [0x00] ++ ctx ++ beBytes 4 (8 * len)))).take len
/-- SP 800-108 counter mode with HMAC-SHA3-384 (00 R735; algorithm code 0x73 of 08 R270). -/
def kdfHmac (key lab ctx : Bytes) (len : Nat) : Bytes :=
  ((List.range (ceilDiv len 48)).flatMap (fun i =>
    hmacOf 0x73 48 key (beBytes 4 (i + 1) ++ lab ++ [0x00] ++ ctx ++ beBytes 4 (8 * len)))).take len

def deviceRootBytes (d : Device) : Bytes := bvBytes 32 d.fuses.deviceRoot
/-- The record key of an ownership (16 R554). -/
def recordKey (d : Device) (ownership : Nat) : Bytes :=
  kdfCmac (deviceRootBytes d) (label "CUST") [BitVec.ofNat 8 ownership] 32
/-- The keys of the journals (16 R555). -/
def trjKey (d : Device) : Bytes := kdfCmac (bvBytes 32 d.battery.vaultKey) (label "TRJ") [] 32
def rsjKey (d : Device) : Bytes := kdfCmac (bvBytes 32 d.battery.vaultKey) (label "RSJ") [] 32
/-- The event key (19 R624). -/
def eventKey (d : Device) : Bytes := kdfCmac (deviceRootBytes d) (label "EVLG") [] 32

/-! ### Fuses (16 R551, R552) -/

/-- The thermometer fields. -/
inductive FuseField where
  | ownCount
  | commissionCount
  | eraseCount
  | lockCount
  | unlockCount
  | otpEpoch
  | svnFloor
  | evidence (source : Nat)
deriving DecidableEq, Repr

def fuseGet (f : FuseField) (x : Fuses) : Therm :=
  match f with
  | .ownCount => x.ownCount
  | .commissionCount => x.commissionCount
  | .eraseCount => x.eraseCount
  | .lockCount => x.lockCount
  | .unlockCount => x.unlockCount
  | .otpEpoch => x.otpEpoch
  | .svnFloor => x.svnFloor
  | .evidence n => tabGetD n { width := 32 } x.evidence
def fuseSet (f : FuseField) (t : Therm) (x : Fuses) : Fuses :=
  match f with
  | .ownCount => { x with ownCount := t }
  | .commissionCount => { x with commissionCount := t }
  | .eraseCount => { x with eraseCount := t }
  | .lockCount => { x with lockCount := t }
  | .unlockCount => { x with unlockCount := t }
  | .otpEpoch => { x with otpEpoch := t }
  | .svnFloor => { x with svnFloor := t }
  | .evidence n => { x with evidence := tabSet n t x.evidence }
/-- The number of a field in the detail of event 0x0903: its row in 16 R551 (DESIGN CHOICE). -/
def fuseNo : FuseField → Nat
  | .ownCount => 4
  | .commissionCount => 6
  | .eraseCount => 7
  | .lockCount => 8
  | .unlockCount => 9
  | .otpEpoch => 11
  | .svnFloor => 12
  | .evidence n => 0x80 + n

/-- The value of a thermometer: the number of its blown bits. -/
def thermVal (t : Therm) : Nat := t.blown.length
def fuseVal (f : FuseField) (d : Device) : Nat := thermVal (fuseGet f d.fuses)
/-- The unblown bits, lowest first. -/
def unblown (t : Therm) : List Nat := (List.range t.width).filter (fun b => !t.blown.contains b)
/-- The bits that a burn tries and that fail to read back. -/
def burnFails (t : Therm) : List Nat := (unblown t).takeWhile (fun b => t.weak.contains b)
/-- The bit that a burn blows, if the field is not saturated. -/
def burnBit (t : Therm) : Option Nat := (unblown t).find? (fun b => !t.weak.contains b)
def burnTherm (t : Therm) : Therm :=
  match burnBit t with
  | some b => { t with blown := t.blown ++ [b] }
  | none => t
def saturated (t : Therm) : Bool := (burnBit t).isNone

/-- One burn of a thermometer field, with an event for each bit that fails to read back (16 R552). -/
def burn (f : FuseField) (d : Device) : Device :=
  let t := fuseGet f d.fuses
  doEach (burnFails t) (fun b => emitC .alarm 0x0903 (leBytes 1 (fuseNo f) ++ leBytes 1 b))
    { d with fuses := fuseSet f (burnTherm t) d.fuses }
/-- Burn a field up to a value. -/
def burnTo (f : FuseField) (v : Nat) (d : Device) : Device :=
  (List.range (v - fuseVal f d)).foldl (fun d _ => burn f d) d

/-! ### The lifecycle (16 R557) -/

/-- The lifecycle state, derived from the fuses (16 R557). -/
def lifecycle (f : Fuses) : Lifecycle :=
  if f.retired then .retired
  else if !f.issued then .blank
  else if thermVal f.ownCount = thermVal f.eraseCount then
    if thermVal f.eraseCount = 0 then .issued else .erased
  else if thermVal f.unlockCount < thermVal f.lockCount then .locked
  else if thermVal f.commissionCount = thermVal f.ownCount then .operational
  else .owned
/-- A trip's lock is in force from the trip, though its fuse is burned later (17 R583, R587). -/
def lockPending (b : Battery) : Bool := b.latches.any (fun l => l.lockDue)
def state (d : Device) : Lifecycle :=
  let s := lifecycle d.fuses
  if lockPending d.battery && (s == .owned || s == .operational) then .locked else s
/-- The ownership in force. -/
def ownership (d : Device) : Nat := thermVal d.fuses.ownCount
def stateNo : Lifecycle → Nat
  | .blank => 0
  | .issued => 1
  | .owned => 2
  | .operational => 3
  | .locked => 4
  | .erased => 5
  | .retired => 6
def causeNo : LockCause → Nat
  | .none => 0
  | .breach => 1
  | .excursion => 2
  | .managerLock => 3
  | .vaultLost => 4
  | .recordLost => 5

/-- Record a lifecycle transition from a former state, if there was one (19 R641, event 0x0901). -/
def noteTransition (from_ : Lifecycle) (d : Device) : Device :=
  doIf (decide (from_ ≠ state d))
    (emitC .notice 0x0901 (leBytes 1 (stateNo from_) ++ leBytes 1 (stateNo (state d)) ++ leBytes 1 (causeNo d.custody.lockCause))) d

/-- The burn of a lock: lock_count in Owned and Operational, retired when it is saturated, nothing elsewhere
(16 R559, R560). -/
def burnLock (d : Device) : Device :=
  if lifecycle d.fuses = .owned || lifecycle d.fuses = .operational then
    if saturated d.fuses.lockCount then { d with fuses := { d.fuses with retired := true } } else burn .lockCount d
  else d

/-! ### Sources of tamper, as bits (17 R579, R600) -/

/-- The class of a source: T0 to T5 are Breach (17 R579). -/
def isBreach (n : Nat) : Bool := decide (n < 6)
def srcEnabled (n : Nat) (d : Device) : Bool := !d.fuses.tamperDisable.getLsbD n

/-- The part serves: start has ended and has not stopped. -/
def started (d : Device) : Bool := d.start.done && !d.start.stopped
/-- Reset is released. -/
def outOfReset (d : Device) : Bool := d.pins.pwrOk && d.pins.rstN && d.pins.mainOn
/-- A region of the part (01 R11). -/
def regionExists (d : Device) (r : Region) : Bool :=
  match r with
  | .bench b => (tabGet b d.benches).isSome
  | _ => true
/-- A region that stopped its handshakes on the loss of the watch count (02 R63). -/
def regionHalted (d : Device) (r : Region) : Bool :=
  match r with
  | .bench b => (benchOf b d).halted
  | .keyStore => d.keys.halted
  | .custody => false
  | .path isB => (pathOf isB d).halted
  | .host => d.host.halted
  | .nvm => d.flash.halted

end Sys2Proof.Machine
end

