-- ==== Sys2Proof/Machine/HostOps.lean ====
section
/-! DEFINITION. The host region's operations (12): access control, DMA, interrupts, the mailbox, completions. -/

namespace Sys2Proof.Machine

/-! ### Access control (12 R449 to R453) -/

def inRegion (addr : Nat) (r : AcuRegion) : Bool :=
  r.valid && decide (r.base.toNat ≤ addr) && decide (addr < r.base.toNat + 4096 * r.pages.toNat)
/-- A request is allowed only when every valid region that contains its first byte grants the access, and some region
contains it; the PF's default map grants everything (12 R450, R452). -/
def acuAllows (f : Nat) (addr : Nat) (write : Bool) (h : HostRegion) : Bool :=
  if f = 0 && h.pfDefault then true
  else
    let rs := ((tabGetD f {} h.fns).regions.filter (fun p => inRegion addr p.2)).map (·.2)
    !rs.isEmpty && rs.all (fun r => if write then r.write else r.read)

/-- Split a transfer at each 4 KiB boundary (12 R451): first address and length of each request. -/
def splitGo : Nat → Nat → Nat → List (Nat × Nat)
  | 0, _, _ => []
  | fuel + 1, addr, len =>
    if len = 0 then [] else
      let n := min len (4096 - addr % 4096)
      (addr, n) :: splitGo fuel (addr + n) (len - n)
def splitDma (addr len : Nat) : List (Nat × Nat) := splitGo (len / 4096 + 2) addr len
/-- Every page of an area is open to an access. -/
def areaAllowed (f addr len : Nat) (write : Bool) (h : HostRegion) : Bool :=
  (splitDma addr len).all (fun p => acuAllows f p.1 write h)

/-! ### Interrupts (12 R437) -/

/-- A vector is masked by bit 0 of the fourth word of its entry in the MSI-X table (12 R423; the meaning of the entry is
PCI Express's: log entry 20). -/
def msixMasked (f v : Nat) (d : Device) : Bool := (tabGetD (4 * v + 3) 0 (fnOf f d).msixTable).getLsbD 0
/-- A vector fires: a message leaves, or its pending bit is set while the vector is masked. -/
def fireVector (f v : Nat) (d : Device) : Device :=
  if msixMasked f v d then modFn f (fun x => { x with msixPending := x.msixPending ||| (1 <<< v) }) d
  else { d with out := d.out ++ [.msix f v] }

/-- Record a denied request (12 R453, R458). Purposes: 0 descriptor fetch, 1 buffer list, 2 input, 3 output,
4 completion, 5 persistence ring. -/
def denied (f purpose : Nat) (write : Bool) (addr : Nat) (d : Device) : Device :=
  let h := d.host
  let h := { h with faultCount := satInc h.faultCount }
  let h := if h.faultValid then { h with faultOverflow := true }
           else { h with faultValid := true, faultWrite := write, faultPurpose := BitVec.ofNat 3 purpose,
                         faultFunction := BitVec.ofNat 8 f, faultAddr := BitVec.ofNat 64 addr }
  fireVector f 17
    (emit .warning 0x0701 .host (leBytes 1 f ++ leBytes 1 purpose ++ leBytes 8 addr)
      (fnCount f 4 (modFn f (fun x => { x with acuFault := true }) { d with host := h })))

/-- A queue enters error with a cause (12 R427, R457): the flag, vector 17, event 0x0702. -/
def queueFault (f q cause : Nat) (d : Device) : Device :=
  fireVector f 17
    (emit .warning 0x0702 .host (leBytes 1 f ++ leBytes 1 q ++ leBytes 1 cause)
      (modFn f (fun x => { x with queueError := true })
        (modQueue f q (fun x => { x with error := true, cause := BitVec.ofNat 3 cause }) d)))

/-! ### Mailbox (12 R439, R440) -/

def message (type : Nat) (seq : Bytes) (peer : Nat) (payload : Bytes) : Bytes :=
  [BitVec.ofNat 8 type, 0] ++ fit 2 seq ++ leBytes 2 payload.length ++ leBytes 2 peer ++ payload
/-- Place an outbound message: in HST_MBX_OUT, or held; of more than 8 held, the oldest is discarded and counted. -/
def mbxSend (f : Nat) (m : Bytes) (d : Device) : Device :=
  let x := fnOf f d
  if !x.outValid then
    fireVector f 16 (fnCount f 6 (modFn f (fun x => { x with mbxOut := fit 256 m, outValid := true }) d))
  else if x.mbxHeld.length < 8 then modFn f (fun x => { x with mbxHeld := x.mbxHeld ++ [m] }) d
  else fnCount f 8 (modFn f (fun x => { x with mbxHeld := x.mbxHeld.drop 1 ++ [m] }) d)

/-! ### Identifiers (12 R419, R420; 21 R676) -/

/-- What configuration space reports of a function. -/
structure PciIdentity where
  vendor : BitVec 16
  device : BitVec 16
  subsystemVendor : BitVec 16
  subsystem : BitVec 16
  classCode : BitVec 24
  revision : BitVec 16
  /-- BAR0: bytes, of 64 bits, prefetchable; there is no other BAR. -/
  barBytes : Nat
  bar64 : Bool
  prefetchable : Bool
deriving DecidableEq, Repr
/-- The device identifier of the PF, by part. -/
def pfDevice : Part → BitVec 16
  | .ky1280 => 0x5801
  | .ky0640 => 0x5802
  | .ky0320 => 0x5803
/-- The subsystem identifier, by part (21 R676). -/
def partSubsystem : Part → BitVec 16
  | .ky1280 => 0x1280
  | .ky0640 => 0x0640
  | .ky0320 => 0x0320
/-- The identifiers of a function: 0 is the PF. 12 R419 names no subsystem identifiers outside the Izvi personality: they read 0 (DESIGN
CHOICE, log entry 94). -/
def pciIdentity (f : Nat) (d : Device) : PciIdentity :=
  { vendor := 0x1D4B
    device := if izvi d then (if f = 0 then 0x4016 else 0x4017) else if f = 0 then pfDevice d.fuses.part else 0x5811
    subsystemVendor := if izvi d then 0x1D4B else 0
    subsystem := if izvi d then partSubsystem d.fuses.part else 0
    classCode := 0x108000
    revision := if izvi d then 0x80 + Config.dieStepping else Config.dieStepping
    barBytes := if f = 0 then 0x1000000 else 0x10000
    bar64 := true, prefetchable := false }
/-- TotalVFs, and InitialVFs, which equals it (12 R420, 21 R676). -/
def totalVfs (d : Device) : Nat := if izvi d then 15 else 255
/-- The routing identifier of VF n: First VF Offset and VF Stride are 1 (12 R420). -/
def firstVfOffset : Nat := 1
def vfStride : Nat := 1
def routingId (pf : BitVec 16) (n : Nat) : BitVec 16 :=
  if n = 0 then pf else pf + BitVec.ofNat 16 (firstVfOffset + (n - 1) * vfStride)
/-- The page sizes that the SR-IOV capability supports, 4 KiB to 64 KiB; the ARI capability is present, VF Migration is not. -/
def vfPageSizes : List Nat := [4096, 8192, 16384, 32768, 65536]
def ariCapable : Bool := true
def vfMigration : Bool := false

/-! ### Function states (12 R444) -/

/-- The PF, or a VF up to NumVFs (12 R420). -/
def fnExists (f : Nat) (h : HostRegion) : Bool := (tabGet f h.fns).isSome && (f == 0 || decide (f ≤ h.numVfs))
def outstandingOf (x : Fn) : Nat := (x.queues.map (fun p => p.2.outstanding.length)).sum
/-- Completions and outputs are written (12 R444), and the host region works (20 R661). -/
def fnWrites (f : Nat) (d : Device) : Bool :=
  !d.host.fenced && !d.host.halted && d.pins.perstN &&
  ((fnOf f d).mode == .enabled || (fnOf f d).mode == .quiescing)
/-- A Quiescing function with no outstanding command becomes Quiesced. -/
def settleQuiesce (f : Nat) (d : Device) : Device :=
  modFn f (fun x => if x.mode == .quiescing && decide (outstandingOf x = 0) then { x with mode := .quiesced } else x) d

/-! ### Queues (12 R426, R438, R457) -/

def depthOf (q : Queue) : Nat := 2 ^ q.log2Depth
/-- Completion entries in use: written and not yet taken by the driver, and those reserved for outstanding commands. -/
def cqUsed (q : Queue) : Nat := (q.cqTail + depthOf q - q.cqHead) % depthOf q + q.outstanding.length
/-- A completion entry is free for a further command: at most depth − 1 are in use (12 R427). -/
def cqFree (q : Queue) : Bool := decide (cqUsed q < depthOf q - 1)
/-- A firing that falls due: the vector fires, or the firing is held while int_enable is 0 (12 R438). -/
def fireDue (f q : Nat) (d : Device) : Device :=
  let on := (queueOf f q d).intEnable
  let d := modQueue f q (fun x => { x with unsignalled := 0, firstUnsignalled := none,
                                           heldFiring := if on then x.heldFiring else true }) d
  if on then fireVector f q d else d
/-- A queue whose enable was cleared returns to reset once empty (12 R457). -/
def settleQueue (f q : Nat) (d : Device) : Device :=
  modQueue f q (fun x => if x.stopping && x.outstanding.isEmpty then {} else x) d

/-- A command's answer as a completion carries it. -/
structure Answer where
  code : Code := 0
  verdict : Byte := 0
  aux : BitVec 32 := 0
  output : Bytes := []
  progress : Nat := 0
  /-- The answer tells of a commit (12 R456 counter 9). -/
  commits : Bool := false
deriving DecidableEq, Repr

/-- Bytes of an output that are written: requests in ascending order, up to the first denied (12 R453). -/
def writable (f : Nat) (h : HostRegion) : List (Nat × Nat) → Nat
  | [] => 0
  | (a, n) :: t => if acuAllows f a true h then n + writable f h t else 0
/-- The requests of an output, each within one page, up to the first denied (12 R451, R453). -/
def outputWrites (f : Nat) (h : HostRegion) : List (Nat × Nat) → Bytes → List Output
  | [], _ => []
  | (a, n) :: t, data =>
    if acuAllows f a true h then .dmaWrite f (BitVec.ofNat 64 a) (data.take n) :: outputWrites f h t (data.drop n) else []
def firstDenied (f : Nat) (h : HostRegion) : List (Nat × Nat) → Option Nat
  | [] => none
  | (a, _) :: t => if acuAllows f a true h then firstDenied f h t else some a

/-- The completion entry (12 R432), or the Izvi one (21 R683). -/
def completionEntry (iz : Bool) (cid : BitVec 16) (a : Answer) (outTotal sqHead q : Nat) (phase dmaFault : Bool)
    (inc : BitVec 16) : Bytes :=
  let outLen := leBytes 2 (if 65535 < outTotal then 0xFFFF else outTotal)
  let flags := (if phase then 1 else 0) + (if dmaFault then 2 else 0)
  leBytes 2 cid.toNat ++ leBytes 2 a.code.toNat ++ [if a.code = 0 then a.verdict else 0, 0] ++ outLen ++
  leBytes 4 a.aux.toNat ++ leBytes 2 sqHead ++ leBytes 1 q ++
  (if iz then leBytes 1 (flags + 4 * (inc.toNat % 64))
   else leBytes 1 flags ++ leBytes 2 inc.toNat ++ [0, 0] ++ leBytes 4 outTotal ++ leBytes 4 a.progress ++ [0, 0, 0, 0])

/-- Note a completion written: the queue's position, phase, recent list and coalescing (12 R426, R435, R438). -/
def completionDone (cid : BitVec 16) (tick : Nat) (x : Queue) : Queue :=
  { x with
    cqTail := (x.cqTail + 1) % depthOf x
    phase := if (x.cqTail + 1) % depthOf x = 0 then !x.phase else x.phase
    outstanding := x.outstanding.filter (fun o => o.cid ≠ cid)
    recent := (x.recent ++ [cid]).drop (x.recent.length + 1 - 64)
    unsignalled := x.unsignalled + 1
    firstUnsignalled := some (x.firstUnsignalled.getD tick) }

/-- Write a command's output and completion by DMA (12 R432, R453), or drop them where the queue or function cannot
take them; the command is no longer outstanding. A commit whose completion is dropped is counted (counter 9). -/
def complete (f q : Nat) (cid inc : BitVec 16) (a : Answer) (outAddr : Nat) (d : Device) : Device :=
  let forget := modQueue f q (fun x => { x with outstanding := x.outstanding.filter (fun o => o.cid ≠ cid) })
  let lost := fun d => if a.commits then fnCount f 9 (forget d) else forget d
  if !fnWrites f d then settleQuiesce f (settleQueue f q (lost d))
  else
    let pieces := if a.code = 0 ∨ a.code = 0x0603 then splitDma outAddr a.output.length else []
    let total := writable f d.host pieces
    let bad := firstDenied f d.host pieces
    let d := doWith bad (fun addr => denied f 3 true addr) d
    let d := { d with out := d.out ++ outputWrites f d.host pieces a.output }
    let x := queueOf f q d
    let iz := izvi d
    let addr := x.cqBase.toNat + (if iz then 16 else 32) * x.cqTail
    if x.error && (x.cause == 3) then settleQuiesce f (settleQueue f q (lost d))
    else if acuAllows f addr true d.host then
      let entry := completionEntry iz cid a total x.sqHead q x.phase bad.isSome inc
      let d := { d with out := d.out ++ [.dmaWrite f (BitVec.ofNat 64 addr) entry] }
      let d := fnCount f 1 (modQueue f q (completionDone cid d.time.ticks) d)
      let y := queueOf f q d
      let d := if y.coalesceCount ≤ 1 ∨ y.coalesceCount ≤ y.unsignalled then fireDue f q d else d
      settleQuiesce f (settleQueue f q d)
    else settleQuiesce f (settleQueue f q (lost (queueFault f q 3 (denied f 4 true addr d))))

end Sys2Proof.Machine
end

