-- ==== Sys2Proof/Machine/BenchMemory.lean ====
section
/-! DEFINITION. Bench shared memory (01 R13 to R17; 06 R227 to R231): rows held masked under the bench key, the firmware area, the
scratch windows of the Marver engines, and the re-scramble. An access answers with the row's contents; that it may wait for a
conversion is timing. -/

namespace Sys2Proof.Machine

/-! ### Rows (01 R14) -/

/-- Rows of 1 KiB in 4 MiB (01 R13, R14). -/
def benchRows : Nat := 4096
def rowBytes : Nat := 1024
/-- Bytes of a core's local memory (01 R13, R17). -/
def coreMemory : Nat := 131072
/-- Rows of the firmware area: 1 MiB, the first rows (15 R545; their place is log entry 39's). -/
def firmwareRows : Nat := 1024
/-- A round of the permutation of row indices: the halves of 6 bits change places (log entry 39). -/
def rowRound (key : BitVec 256) (round : Nat) (v : Nat × Nat) : Nat × Nat := (v.2, (v.1 ^^^ Config.rowValue key round v.2) % 64)
/-- The physical row of a row index, a permutation keyed by the bench key (01 R14). -/
def physicalBenchRow (key : BitVec 256) (row : Nat) : Nat :=
  let v := (List.range 4).foldl (fun v r => rowRound key r v) (row / 64, row % 64)
  64 * v.1 + v.2
/-- A row's contents XORed with the keystream of a bench key (01 R14). -/
def maskRow (key : BitVec 256) (row : Nat) (data : Bytes) : Bytes :=
  bytesXor (fit rowBytes data) ((List.range rowBytes).map (Config.rowMask key (physicalBenchRow key row)))
/-- The key that an epoch bit selects: the current one, or the next (01 R14). -/
def rowKey (b : Bench) (epoch : Bool) : BitVec 256 := if epoch = b.rowEpoch then b.benchKey else b.nextKey
/-- The epoch under which a row is written: the next one once the re-scramble has converted it (01 R15). -/
def writeEpoch (b : Bench) (row : Nat) : Bool :=
  match b.rescramble with
  | some c => if row < c then !b.rowEpoch else b.rowEpoch
  | none => b.rowEpoch
/-- The contents of a row that an access sees; a row that nobody has written since the last erase holds zeros. -/
def readRow (b : Bench) (row : Nat) : Bytes :=
  match tabGet row b.rows with
  | some r => maskRow (rowKey b r.epoch) row r.data
  | none => List.replicate rowBytes 0
def writeRow (row : Nat) (data : Bytes) (b : Bench) : Bench :=
  let e := writeEpoch b row
  { b with rows := tabSet row { data := maskRow (rowKey b e) row data, epoch := e } b.rows }
/-- Erase the rows that a test selects. -/
def eraseRows (p : Nat → Bool) (b : Bench) : Bench := { b with rows := b.rows.filter (fun r => !p r.1) }

/-! ### The re-scramble (01 R15) -/

/-- One row is read under the old key and written under the new key and epoch. -/
def convertRow (row : Nat) (b : Bench) : Bench :=
  match tabGet row b.rows with
  | none => b
  | some r => { b with rows := tabSet row { data := maskRow (rowKey b !b.rowEpoch) row (maskRow (rowKey b r.epoch) row r.data)
                                            epoch := !b.rowEpoch } b.rows }
/-- A row is converted; after the last the old bench key is erased. -/
def rowConverted (row : Nat) (b : Bench) : Bench :=
  let b := convertRow row b
  if row + 1 < benchRows then { b with rescramble := some (row + 1) }
  else { b with rescramble := none, benchKey := b.nextKey, nextKey := 0, rowEpoch := !b.rowEpoch }

/-! ### The data area (01 R14; 04 R164) -/

/-- The rows of the data area outside the Marver windows, in which the state of stepped operations is saved (log entry 39). -/
def stateRows : List Nat := (List.range 2048).map (· + firmwareRows)
/-- Bytes written to rows, in order; and read from them. -/
def writeRows (rows : List Nat) (data : Bytes) (b : Bench) : Bench :=
  rows.zipIdx.foldl (fun b r => writeRow r.1 (field data (rowBytes * r.2) rowBytes) b) b
def readRows (b : Bench) (rows : List Nat) (len : Nat) : Bytes := (rows.flatMap (readRow b)).take len

/-! ### The firmware area (01 R16) -/

/-- The firmware area is erased, then the image's section streamed in, row by row (01 R16, 15 R545). -/
def loadFirmware (image : Bytes) (b : Bench) : Bench :=
  let b := eraseRows (fun r => decide (r < firmwareRows)) b
  (List.range (min firmwareRows (ceilDiv image.length rowBytes))).foldl
    (fun b r => writeRow r (field image (rowBytes * r) rowBytes) b) { b with firmware := true }

/-! ### Scratch of the Marver engines (06 R227 to R231) -/

/-- Lines of 64 bytes in an engine's window of 128 KiB, and the row and offset of a line: the windows are the last rows of the data
area (log entry 39). -/
def scratchLines : Nat := 2048
def scratchRow (engine line : Nat) : Nat := benchRows - 1024 + 128 * engine + line / 16
def readLine (b : Bench) (engine line : Nat) : Bytes := field (readRow b (scratchRow engine line)) (64 * (line % 16)) 64
/-- Each write by an engine sets the valid bit of the line and its tag to the tenant of the job (06 R228). -/
def writeLine (engine tenant : Nat) (b : Bench) (w : Nat × Bytes) : Bench :=
  let line := w.1 % scratchLines
  let row := scratchRow engine line
  let old := readRow b row
  let b := writeRow row (old.take (64 * (line % 16)) ++ fit 64 w.2 ++ old.drop (64 * (line % 16) + 64)) b
  modEngineBlock .marver (fun x => { x with engines := tabMod engine (fun e =>
    { e with scratch := tabSet line (BitVec.ofNat 8 tenant) e.scratch, tagTenant := BitVec.ofNat 8 tenant }) x.engines }) b
/-- An engine's lines become invalid and their contents are overwritten (06 R231). -/
def clearScratch (engine : Nat) (b : Bench) : Bench :=
  eraseRows (fun r => decide (scratchRow engine 0 ≤ r ∧ r < scratchRow engine scratchLines))
    (modEngineBlock .marver (fun x => { x with engines := tabMod engine (fun e => { e with scratch := [] }) x.engines }) b)
def clearAllScratch (b : Bench) : Bench := (List.range 8).foldl (fun b n => clearScratch n b) b

end Sys2Proof.Machine
end

