-- ==== Sys2Proof/Machine/Limbs.lean ====
section
/-! DEFINITION. The integer arithmetic of the Marver engines (06 R196 to R202): limbs, the columns of the accumulator,
Montgomery products and exponentiation. -/

namespace Sys2Proof.Machine

/-! ### Moduli (06 R197) -/

/-- Bits of a modulus; limbs of a modulus of b bits; the Montgomery radix. -/
def modulusBits (n : Nat) : Nat := if n = 0 then 0 else Nat.log2 n + 1
def limbsFor (bits : Nat) : Nat := ceilDiv (bits + 4) 64
def montRadix (n : Nat) : Nat := 2 ^ (64 * limbsFor (modulusBits n))
/-- Integer mode accepts odd moduli of 256 to 8,192 bits. -/
def integerModulus (n : Nat) : Bool := n % 2 == 1 && decide (256 ≤ modulusBits n) && decide (modulusBits n ≤ 8192)
/-- −N⁻¹ modulo a power of two, by doubling the number of right bits at each step. -/
def inverseGo (n r : Nat) : Nat → Nat → Nat
  | 0, x => x
  | fuel + 1, x => inverseGo n r fuel (x * (2 + r * r - n * x % r) % r)
def negInverse (n r : Nat) : Nat := (r - inverseGo n r 14 1) % r

/-! ### The accumulator (06 R196, R202, R203) -/

/-- The value of a column. -/
def columnValue (c : Column) : Nat := c.sum.toNat + c.carry.toNat
/-- Add a word to a column in carry-save form: no carry leaves the column. -/
def columnAdd (x : BitVec 72) (c : Column) : Column :=
  { sum := c.sum ^^^ c.carry ^^^ x
    carry := ((c.sum &&& c.carry) ||| (c.sum &&& x) ||| (c.carry &&& x)) <<< 1 }
/-- The detector of a column fires when its value would reach 2^72 (06 R203). -/
def columnSpills (x : BitVec 72) (c : Column) : Bool := decide (2 ^ 72 ≤ columnValue c + x.toNat)
def lowHalf (p : LimbProduct) : BitVec 72 := BitVec.ofNat 72 (p.a.toNat * p.b.toNat % 2 ^ 64)
def highHalf (p : LimbProduct) : BitVec 72 := BitVec.ofNat 72 (p.a.toNat * p.b.toNat / 2 ^ 64)
/-- The 260 columns of an engine, from a list whose missing columns are zero. -/
def accumulatorColumns : Nat := 260
def columnAt (cs : List Column) (j : Nat) : Column := (cs[j]?).getD {}
/-- One word into one column: the columns after it, and whether the detector fired. Beyond the last column nothing is held. -/
def addWord (j : Nat) (x : BitVec 72) (acc : List Column × Bool) : List Column × Bool :=
  if accumulatorColumns ≤ j then acc
  else (((List.range (max acc.1.length (j + 1))).map (fun i => if i = j then columnAdd x (columnAt acc.1 i) else columnAt acc.1 i)),
        acc.2 || columnSpills x (columnAt acc.1 j))
def addProduct (acc : List Column × Bool) (p : LimbProduct) : List Column × Bool :=
  addWord (p.column + 1) (highHalf p) (addWord p.column (lowHalf p) acc)
/-- Products accumulate between two drains: the columns, and the sticky spill flag. -/
def accumulate (ps : List LimbProduct) (cs : List Column) (spill : Bool) : List Column × Bool := ps.foldl addProduct (cs, spill)
/-- A drain moves bits [71:64] of every column into the next one (06 R202). -/
def drainColumns (cs : List Column) : List Column :=
  (List.range (min accumulatorColumns (cs.length + 1))).map (fun j =>
    { sum := BitVec.ofNat 72 (columnValue (columnAt cs j) % 2 ^ 64)
      carry := if j = 0 then 0 else BitVec.ofNat 72 (columnValue (columnAt cs (j - 1)) / 2 ^ 64) })

/-- Rows between two drains of the accumulator for k products; in safe mode every row is drained (06 R202, R204). -/
def drainRows (k : Nat) (safe : Bool) : Nat := if safe then 1 else 255 / (2 * k + 3)
/-- The rows of a sum of products, the first of them row n: the accumulator is drained after every so many, and at the end (06
R202). -/
def runRows (every : Nat) : Nat → List (List LimbProduct) → List Column × Bool → List Column × Bool
  | _, [], acc => (drainColumns acc.1, acc.2)
  | n, row :: rest, acc =>
    let a := accumulate row acc.1 acc.2
    runRows every (n + 1) rest (if (n + 1) % every = 0 then (drainColumns a.1, a.2) else a)
/-- A sum of products from a cleared accumulator; the spill flag stays set (06 R202, R203). -/
def runProduct (safe : Bool) (acc : List Column × Bool) (p : EngineProduct) : List Column × Bool :=
  runRows (drainRows p.sums safe) 0 p.rows ([], acc.2)

/-! ### Montgomery form (06 R198 to R201) -/

/-- The Montgomery reduction of a sum s: (s + m·N) / R, with m < R. -/
def montReduce (n r s : Nat) : Nat := (s + s * negInverse n r % r * n) / r
/-- The Montgomery product of two residues in [0, 4N), in [0, 2N) (06 R198). -/
def montProduct (n r a b : Nat) : Nat := montReduce n r (a * b)
/-- A sum of up to four products before one reduction (06 R200). -/
def montSum (n r : Nat) (ps : List (Nat × Nat)) : Nat := montReduce n r (ps.map (fun p => p.1 * p.2)).sum
/-- Modular addition and subtraction of lazy residues, and the masked subtraction (06 R199, R201). -/
def montAdd (a b : Nat) : Nat := a + b
def montSub (n a b : Nat) : Nat := a + 2 * n - b
def maskedSub (m x : Nat) : Nat := if m ≤ x then x - m else x
/-- A lazy sum or difference brought back into [0, 2N), as an input of a sum of products (06 R199). -/
def lazyAdd (n a b : Nat) : Nat := maskedSub (2 * n) (montAdd a b)
def lazySub (n a b : Nat) : Nat := maskedSub (2 * n) (montSub n a b)
/-- Conversion into Montgomery form, a product with R² mod N; and out of it, a product with 1 and one masked subtraction
(06 R201). -/
def montIn (n r x : Nat) : Nat := montProduct n r x (r * r % n)
def montOut (n r x : Nat) : Nat := maskedSub n (montProduct n r x 1)
/-- A number of up to two operands' length, below R·N, into Montgomery form. -/
def montWide (n r x : Nat) : Nat := montIn n r (montIn n r (montReduce n r x))
/-- Exponentiation over a fixed number of exponent bits, from the most significant down: at each bit a square and a product,
of which one is selected by mask (06 R201, R208, R209). -/
def montPowGo (n r x e : Nat) : Nat → Nat → Nat
  | 0, acc => acc
  | k + 1, acc =>
    let sq := montProduct n r acc acc
    montPowGo n r x e k (if e.testBit k then montProduct n r sq x else sq)
/-- The power of a residue in Montgomery form, in Montgomery form. -/
def montPower (n r x e bits : Nat) : Nat := montPowGo n r x e bits (r % n)
/-- The power of a number in [0, 4N). -/
def montPow (n x e bits : Nat) : Nat :=
  let r := montRadix n
  if n = 0 then 0 else montOut n r (montPower n r (montIn n r x) e bits)
/-- The inverse modulo a prime of a residue in Montgomery form, by the fixed exponent p − 2. -/
def montInverse (p r x : Nat) : Nat := montPower p r x (p - 2) (modulusBits p)
/-- Inversion modulo an odd number by a fixed count of division steps (06 R210): the extended Euclidean steps on (a, b) with
the coefficients of a, the count fixed by the bits of the modulus. -/
def divisionSteps : Nat → Int → Int → Int → Int → Int
  | 0, _, _, s, _ => s
  | fuel + 1, a, b, s, t => if b = 0 then divisionSteps fuel a b s t else divisionSteps fuel b (a % b) t (s - a / b * t)
def inverseMod (n a : Nat) : Nat :=
  ((divisionSteps (2 * modulusBits n + 2) (a % n : Nat) n 1 0) % (n : Int)).toNat

end Sys2Proof.Machine
end

