-- ==== Sys2Proof/Machine/Curves.lean ====
section
/-! DEFINITION. The curves of 06 R235 and their operations: points, scalar multiples by fixed windows (06 R209), ECDSA and
EdDSA (FIPS 186-5), and the shared coordinate of ECDH. PRESUMED: the specification names the curves and schemes by their
standards (00 R6, 06 R235) and does not write their constants out. -/

namespace Sys2Proof.Machine

/-! ### Domain parameters -/

/-- The field prime of a curve. -/
def curvePrime (c : Byte) : Nat :=
  match c.toNat with
  | 0x01 => 0xFFFFFFFF00000001000000000000000000000000FFFFFFFFFFFFFFFFFFFFFFFF
  | 0x02 => 0xFFFFFFFFFFFFFFFFFFFFFFFFFFFFFFFFFFFFFFFFFFFFFFFFFFFFFFFFFFFFFFFEFFFFFFFF0000000000000000FFFFFFFF
  | 0x03 => 0x1FFFFFFFFFFFFFFFFFFFFFFFFFFFFFFFFFFFFFFFFFFFFFFFFFFFFFFFFFFFFFFFFFFFFFFFFFFFFFFFFFFFFFFFFFFFFFFFFFFFFFFFFFFFFFFFFFFFFFFFFFFFFFFFFFF
  | 0x04 => 0xA9FB57DBA1EEA9BC3E660A909D838D726E3BF623D52620282013481D1F6E5377
  | 0x05 => 0x8CB91E82A3386D280F5D6F7E50E641DF152F7109ED5456B412B1DA197FB71123ACD3A729901D1A71874700133107EC53
  | 0x06 => 0xAADD9DB8DBE9C48B3FD4E6AE33C9FC07CB308DB3B3C9D20ED6639CCA703308717D4D9B009BC66842AECDA12AE6A380E62881FF2F2D82C68528AA6056583A48F3
  | 0x07 => 0xFFFFFFFFFFFFFFFFFFFFFFFFFFFFFFFFFFFFFFFFFFFFFFFFFFFFFFFEFFFFFC2F
  | 0x10 => 2 ^ 255 - 19
  | 0x11 => 2 ^ 448 - 2 ^ 224 - 1
  | _ => 0
/-- The order of the base point. -/
def curveOrder (c : Byte) : Nat :=
  match c.toNat with
  | 0x01 => 0xFFFFFFFF00000000FFFFFFFFFFFFFFFFBCE6FAADA7179E84F3B9CAC2FC632551
  | 0x02 => 0xFFFFFFFFFFFFFFFFFFFFFFFFFFFFFFFFFFFFFFFFFFFFFFFFC7634D81F4372DDF581A0DB248B0A77AECEC196ACCC52973
  | 0x03 => 0x1FFFFFFFFFFFFFFFFFFFFFFFFFFFFFFFFFFFFFFFFFFFFFFFFFFFFFFFFFFFFFFFFFA51868783BF2F966B7FCC0148F709A5D03BB5C9B8899C47AEBB6FB71E91386409
  | 0x04 => 0xA9FB57DBA1EEA9BC3E660A909D838D718C397AA3B561A6F7901E0E82974856A7
  | 0x05 => 0x8CB91E82A3386D280F5D6F7E50E641DF152F7109ED5456B31F166E6CAC0425A7CF3AB6AF6B7FC3103B883202E9046565
  | 0x06 => 0xAADD9DB8DBE9C48B3FD4E6AE33C9FC07CB308DB3B3C9D20ED6639CCA70330870553E5C414CA92619418661197FAC10471DB1D381085DDADDB58796829CA90069
  | 0x07 => 0xFFFFFFFFFFFFFFFFFFFFFFFFFFFFFFFEBAAEDCE6AF48A03BBFD25E8CD0364141
  | 0x10 => 2 ^ 252 + 0x14DEF9DEA2F79CD65812631A5CF5D3ED
  | 0x11 => 2 ^ 446 - 0x8335DC163BB124B65129C96FDE933D8D723A70AADC873D6D54A7BB0D
  | _ => 0
/-- The coefficient a: of y² = x³ + ax + b, or of ax² + y² = 1 + dx²y². -/
def curveA (c : Byte) : Nat :=
  match c.toNat with
  | 0x01 => 0xFFFFFFFF00000001000000000000000000000000FFFFFFFFFFFFFFFFFFFFFFFC
  | 0x02 => 0xFFFFFFFFFFFFFFFFFFFFFFFFFFFFFFFFFFFFFFFFFFFFFFFFFFFFFFFFFFFFFFFEFFFFFFFF0000000000000000FFFFFFFC
  | 0x03 => 0x1FFFFFFFFFFFFFFFFFFFFFFFFFFFFFFFFFFFFFFFFFFFFFFFFFFFFFFFFFFFFFFFFFFFFFFFFFFFFFFFFFFFFFFFFFFFFFFFFFFFFFFFFFFFFFFFFFFFFFFFFFFFFFFFFFC
  | 0x04 => 0x7D5A0975FC2C3057EEF67530417AFFE7FB8055C126DC5C6CE94A4B44F330B5D9
  | 0x05 => 0x7BC382C63D8C150C3C72080ACE05AFA0C2BEA28E4FB22787139165EFBA91F90F8AA5814A503AD4EB04A8C7DD22CE2826
  | 0x06 => 0x7830A3318B603B89E2327145AC234CC594CBDD8D3DF91610A83441CAEA9863BC2DED5D5AA8253AA10A2EF1C98B9AC8B57F1117A72BF2C7B9E7C1AC4D77FC94CA
  | 0x07 => 0x0
  | 0x10 => 2 ^ 255 - 20
  | 0x11 => 1
  | _ => 0
/-- The coefficient b, or d. -/
def curveB (c : Byte) : Nat :=
  match c.toNat with
  | 0x01 => 0x5AC635D8AA3A93E7B3EBBD55769886BC651D06B0CC53B0F63BCE3C3E27D2604B
  | 0x02 => 0xB3312FA7E23EE7E4988E056BE3F82D19181D9C6EFE8141120314088F5013875AC656398D8A2ED19D2A85C8EDD3EC2AEF
  | 0x03 => 0x51953EB9618E1C9A1F929A21A0B68540EEA2DA725B99B315F3B8B489918EF109E156193951EC7E937B1652C0BD3BB1BF073573DF883D2C34F1EF451FD46B503F00
  | 0x04 => 0x26DC5C6CE94A4B44F330B5D9BBD77CBF958416295CF7E1CE6BCCDC18FF8C07B6
  | 0x05 => 0x4A8C7DD22CE28268B39B55416F0447C2FB77DE107DCD2A62E880EA53EEB62D57CB4390295DBC9943AB78696FA504C11
  | 0x06 => 0x3DF91610A83441CAEA9863BC2DED5D5AA8253AA10A2EF1C98B9AC8B57F1117A72BF2C7B9E7C1AC4D77FC94CADC083E67984050B75EBAE5DD2809BD638016F723
  | 0x07 => 0x7
  | 0x10 => 0x52036CEE2B6FFE738CC740797779E89800700A4D4141D8AB75EB4DCA135978A3
  | 0x11 => 2 ^ 448 - 2 ^ 224 - 39082
  | _ => 0
/-- The base point. -/
def curveGx (c : Byte) : Nat :=
  match c.toNat with
  | 0x01 => 0x6B17D1F2E12C4247F8BCE6E563A440F277037D812DEB33A0F4A13945D898C296
  | 0x02 => 0xAA87CA22BE8B05378EB1C71EF320AD746E1D3B628BA79B9859F741E082542A385502F25DBF55296C3A545E3872760AB7
  | 0x03 => 0xC6858E06B70404E9CD9E3ECB662395B4429C648139053FB521F828AF606B4D3DBAA14B5E77EFE75928FE1DC127A2FFA8DE3348B3C1856A429BF97E7E31C2E5BD66
  | 0x04 => 0x8BD2AEB9CB7E57CB2C4B482FFC81B7AFB9DE27E1E3BD23C23A4453BD9ACE3262
  | 0x05 => 0x1D1C64F068CF45FFA2A63A81B7C13F6B8847A3E77EF14FE3DB7FCAFE0CBD10E8E826E03436D646AAEF87B2E247D4AF1E
  | 0x06 => 0x81AEE4BDD82ED9645A21322E9C4C6A9385ED9F70B5D916C1B43B62EEF4D0098EFF3B1F78E2D0D48D50D1687B93B97D5F7C6D5047406A5E688B352209BCB9F822
  | 0x07 => 0x79BE667EF9DCBBAC55A06295CE870B07029BFCDB2DCE28D959F2815B16F81798
  | 0x10 => 0x216936D3CD6E53FEC0A4E231FDD6DC5C692CC7609525A7B2C9562D608F25D51A
  | 0x11 => 0x4F1970C66BED0DED221D15A622BF36DA9E146570470F1767EA6DE324A3D3A46412AE1AF72AB66511433B80E18B00938E2626A82BC70CC05E
  | _ => 0
/-- The base point. -/
def curveGy (c : Byte) : Nat :=
  match c.toNat with
  | 0x01 => 0x4FE342E2FE1A7F9B8EE7EB4A7C0F9E162BCE33576B315ECECBB6406837BF51F5
  | 0x02 => 0x3617DE4A96262C6F5D9E98BF9292DC29F8F41DBD289A147CE9DA3113B5F0B8C00A60B1CE1D7E819D7A431D7C90EA0E5F
  | 0x03 => 0x11839296A789A3BC0045C8A5FB42C7D1BD998F54449579B446817AFBD17273E662C97EE72995EF42640C550B9013FAD0761353C7086A272C24088BE94769FD16650
  | 0x04 => 0x547EF835C3DAC4FD97F8461A14611DC9C27745132DED8E545C1D54C72F046997
  | 0x05 => 0x8ABE1D7520F9C2A45CB1EB8E95CFD55262B70B29FEEC5864E19C054FF99129280E4646217791811142820341263C5315
  | 0x06 => 0x7DDE385D566332ECC0EABFA9CF7822FDF209F70024A57B1AA000C55B881F8111B2DCDE494A5F485E5BCA4BD88A2763AED1CA2B2FA8F0540678CD1E0F3AD80892
  | 0x07 => 0x483ADA7726A3C4655DA4FBFC0E1108A8FD17B448A68554199C47D08FFB10D4B8
  | 0x10 => 0x6666666666666666666666666666666666666666666666666666666666666658
  | 0x11 => 0x693F46716EB6BC248876203756C9C7624BEA73736CA3984087789C1E05A0C2D73AD3FF1CE67C39C4FDBD132C4ED7C8AD9808795BF230FA14
  | _ => 0
/-- The cofactor. -/
def curveCofactor (c : Byte) : Nat := if c = 0x10 then 8 else if c = 0x11 then 4 else 1
def isEdwards (c : Byte) : Bool := c == 0x10 || c == 0x11
/-- Curves by identifier: the bytes of a field element, or of an Edwards encoding (06 R235). -/
def curveBytes (c : Nat) : Nat :=
  match c with
  | 0x01 => 32 | 0x02 => 48 | 0x03 => 66 | 0x04 => 32 | 0x05 => 48 | 0x06 => 64 | 0x07 => 32
  | 0x10 => 32 | 0x11 => 57
  | _ => 0
/-- Bits of a number. -/
def bitLen (n : Nat) : Nat := if n = 0 then 0 else Nat.log2 n + 1

/-! ### The field (06 R197 to R201) -/

/-- A difference of constants modulo p. -/
def subMod (p a b : Nat) : Nat := (a + p - b % p) % p

/-- A curve as an engine holds it in curve mode: its prime, the radix, and its constants in Montgomery form (06 R197, R198). -/
structure CurveField where
  p : Nat
  r : Nat
  one : Nat
  a : Nat
  /-- 3b of a prime curve, d of an Edwards curve. -/
  b : Nat
  /-- −a² of a prime curve, −a of an Edwards curve. -/
  na : Nat
  three : Nat
deriving DecidableEq, Repr
def curveField (c : Byte) : CurveField :=
  let p := curvePrime c
  let r := montRadix p
  let a := curveA c
  { p, r, one := r % p, a := montIn p r a, b := montIn p r (if isEdwards c then curveB c else 3 * curveB c % p)
    na := montIn p r (subMod p 0 (if isEdwards c then a else a * a)), three := montIn p r 3 }
def fieldMul (f : CurveField) (a b : Nat) : Nat := montProduct f.p f.r a b
/-- A number below the prime into Montgomery form, and out of it. -/
def fieldIn (f : CurveField) (x : Nat) : Nat := montIn f.p f.r x
def fieldOut (f : CurveField) (x : Nat) : Nat := montOut f.p f.r x
def fieldPow (f : CurveField) (x e : Nat) : Nat := montPower f.p f.r x e (modulusBits f.p)
def fieldInv (f : CurveField) (x : Nat) : Nat := montInverse f.p f.r x
/-- Two residues represent one number. -/
def fieldSame (f : CurveField) (x y : Nat) : Bool := fieldOut f x == fieldOut f y
/-- A sum of products with one reduction (06 R200). -/
def fieldSum (f : CurveField) (ps : List (Nat × Nat)) : Nat := montSum f.p f.r ps

/-! ### Points -/

/-- A point in projective coordinates, each a lazy residue in Montgomery form; on a prime curve the identity has z = 0, on an
Edwards curve it is (0, 1, 1). -/
structure CurvePoint where
  x : Nat
  y : Nat
  z : Nat
deriving DecidableEq, Repr
/-- A coordinate over z, out of Montgomery form. -/
def overZ (c : Byte) (v : Nat) (q : CurvePoint) : Nat :=
  let f := curveField c
  fieldOut f (fieldMul f v (fieldInv f q.z))
def affineX (c : Byte) (q : CurvePoint) : Nat := overZ c q.x q
def affineY (c : Byte) (q : CurvePoint) : Nat := overZ c q.y q
/-- Addition on a prime curve by complete formulas (06 R209): no input takes a special path. Every sum of products takes
inputs in [0, 2N) and one reduction (06 R199, R200). -/
def primeAdd (f : CurveField) (u v : CurvePoint) : CurvePoint :=
  let xx := fieldMul f u.x v.x
  let yy := fieldMul f u.y v.y
  let zz := fieldMul f u.z v.z
  let xy := fieldSum f [(u.x, v.y), (v.x, u.y)]
  let yz := fieldSum f [(u.y, v.z), (v.y, u.z)]
  let xz := fieldSum f [(u.x, v.z), (v.x, u.z)]
  let k := fieldSum f [(f.a, xz), (f.b, zz)]
  let l := fieldSum f [(f.three, xx), (f.a, zz)]
  let m := fieldSum f [(f.a, xx), (f.b, xz), (f.na, zz)]
  let lo := lazySub f.p yy k
  let hi := lazyAdd f.p yy k
  { x := fieldSum f [(xy, lo), (yz, lazySub f.p 0 m)], y := fieldSum f [(hi, lo), (l, m)], z := fieldSum f [(yz, hi), (xy, l)] }
/-- Addition on an Edwards curve by the unified formulas (06 R209). -/
def edwardsAdd (f : CurveField) (u v : CurvePoint) : CurvePoint :=
  let zz := fieldMul f u.z v.z
  let xx := fieldMul f u.x v.x
  let yy := fieldMul f u.y v.y
  let sq := fieldMul f zz zz
  let e := fieldMul f f.b (fieldMul f xx yy)
  let g := lazySub f.p sq e
  let h := lazyAdd f.p sq e
  { x := fieldMul f (fieldMul f zz g) (fieldSum f [(u.x, v.y), (u.y, v.x)])
    y := fieldMul f (fieldMul f zz h) (fieldSum f [(f.one, yy), (f.na, xx)]), z := fieldMul f g h }
def fieldAdd (c : Byte) (f : CurveField) (u v : CurvePoint) : CurvePoint := if isEdwards c then edwardsAdd f u v else primeAdd f u v
def curveAdd (c : Byte) (u v : CurvePoint) : CurvePoint := fieldAdd c (curveField c) u v
def curveZero (c : Byte) : CurvePoint :=
  let one := (curveField c).one
  if isEdwards c then ⟨0, one, one⟩ else ⟨0, one, 0⟩
/-- A point by its affine coordinates. -/
def affinePoint (c : Byte) (x y : Nat) : CurvePoint :=
  let f := curveField c
  ⟨fieldIn f x, fieldIn f y, f.one⟩
def curveBase (c : Byte) : CurvePoint := affinePoint c (curveGx c) (curveGy c)
/-- The multiples 0 to 15 of a point, and the digits of a scalar in windows of 4 bits, the first the most significant. -/
def multiplesGo (c : Byte) (f : CurveField) (q : CurvePoint) : Nat → CurvePoint → List CurvePoint
  | 0, _ => []
  | n + 1, acc => acc :: multiplesGo c f q n (fieldAdd c f acc q)
def windowsOf (bits k : Nat) : List Nat := ((List.range (ceilDiv bits 4)).map (fun i => k / 16 ^ i % 16)).reverse
/-- All 16 entries of the table are read, and one is selected by mask (06 R209). -/
def selectEntry (table : List CurvePoint) (w : Nat) (zero : CurvePoint) : CurvePoint :=
  (table.zipIdx).foldl (fun acc e => if e.2 = w then e.1 else acc) zero
def fourDoublings (c : Byte) (f : CurveField) (q : CurvePoint) : CurvePoint :=
  (List.range 4).foldl (fun acc _ => fieldAdd c f acc acc) q
/-- A scalar multiple over a fixed number of bits (06 R209). -/
def curveMul (c : Byte) (bits k : Nat) (q : CurvePoint) : CurvePoint :=
  let f := curveField c
  let table := multiplesGo c f q 16 (curveZero c)
  (windowsOf bits k).foldl (fun acc w => fieldAdd c f (fourDoublings c f acc) (selectEntry table w (curveZero c))) (curveZero c)
/-- Bits over which a private and a public scalar are processed. -/
def privateBits (c : Byte) : Nat := bitLen (curveOrder c) + 64
def publicBits (c : Byte) : Nat := bitLen (curveOrder c)
/-- Both points are one: their coordinates agree across their z. -/
def samePoint (c : Byte) (u v : CurvePoint) : Bool :=
  let f := curveField c
  fieldSame f (fieldMul f u.x v.z) (fieldMul f v.x u.z) && fieldSame f (fieldMul f u.y v.z) (fieldMul f v.y u.z)

/-! ### Blinding (06 R211, R212) -/

/-- Bytes of the blinding values of one pass: 8 of the scalar, those of λ, and those of β where a scalar is inverted. Eight
bytes beyond the size of λ and of β let a draw fall evenly (log entry 81). -/
def lambdaBytes (c : Byte) : Nat := curveBytes c.toNat + 8
def curveBlindBytes (c : Byte) : Nat := 8 + lambdaBytes c
def invertBlindBytes (c : Byte) : Nat := curveBlindBytes c + lambdaBytes c
/-- A fresh value in [1, m − 1] from drawn bytes. -/
def nonZeroBelow (m : Nat) (draw : Bytes) : Nat := beNat draw % (m - 1) + 1
/-- The blinded scalar k + r·n with a fresh non-zero 64-bit r. -/
def blindScalar (c : Byte) (k : Nat) (blind : Bytes) : Nat := k + nonZeroBelow (2 ^ 64) (blind.take 8) * curveOrder c
/-- The point with its projective coordinates multiplied by λ. -/
def blindPoint (c : Byte) (q : CurvePoint) (blind : Bytes) : CurvePoint :=
  let f := curveField c
  let w := fieldIn f (nonZeroBelow f.p ((blind.drop 8).take (lambdaBytes c)))
  ⟨fieldMul f q.x w, fieldMul f q.y w, fieldMul f q.z w⟩
/-- A multiple by a private scalar, blinded in both ways. -/
def privateMul (c : Byte) (k : Nat) (q : CurvePoint) (blind : Bytes) : CurvePoint :=
  curveMul c (privateBits c) (blindScalar c k blind) (blindPoint c q blind)
/-- Scalars modulo the order, in Montgomery form (06 R198, R199): a number in [0, 4N) into the form, one of up to two operands' length,
and out of it; a product. -/
def scalarIn (c : Byte) (k : Nat) : Nat := montIn (curveOrder c) (montRadix (curveOrder c)) k
def scalarWide (c : Byte) (k : Nat) : Nat := montWide (curveOrder c) (montRadix (curveOrder c)) k
def scalarOut (c : Byte) (k : Nat) : Nat := montOut (curveOrder c) (montRadix (curveOrder c)) k
def scalarMul (c : Byte) (a b : Nat) : Nat := montProduct (curveOrder c) (montRadix (curveOrder c)) a b
/-- The inverse of a secret scalar, (k·β)⁻¹·β, in Montgomery form. -/
def privateInverse (c : Byte) (k : Nat) (blind : Bytes) : Nat :=
  let w := scalarIn c (nonZeroBelow (curveOrder c) ((blind.drop (curveBlindBytes c)).take (lambdaBytes c)))
  scalarMul c (montInverse (curveOrder c) (montRadix (curveOrder c)) (scalarMul c (scalarIn c k) w)) w

/-! ### Encodings -/

/-- x and y of a prime curve, big-endian (03 R82). -/
def pointBytes (c : Byte) (q : CurvePoint) : Bytes :=
  let n := curveBytes c.toNat
  beBytes n (affineX c q) ++ beBytes n (affineY c q)
/-- The coordinates in the encoding of a point of a prime curve. -/
def pointXY (c : Byte) (b : Bytes) : Nat × Nat :=
  let n := curveBytes c.toNat
  (beNat (field b 0 n), beNat (field b n n))
def pointOf (c : Byte) (b : Bytes) : CurvePoint := affinePoint c (pointXY c b).1 (pointXY c b).2
/-- The bits of y in an Edwards encoding, whose top bit is the sign of x. -/
def signShift (c : Byte) : Nat := 8 * curveBytes c.toNat - 1
def edwardsBytes (c : Byte) (q : CurvePoint) : Bytes :=
  leBytes (curveBytes c.toNat) (affineY c q + affineX c q % 2 * 2 ^ signShift c)
/-- A square root in the field of an Edwards curve, of a residue that may have none; all in Montgomery form. -/
def edwardsRoot (c : Byte) (f : CurveField) (v : Nat) : Option Nat :=
  let r := fieldPow f v (if c = 0x10 then (f.p + 3) / 8 else (f.p + 1) / 4)
  let s := if c = 0x10 ∧ !fieldSame f (fieldMul f r r) v then fieldMul f r (fieldPow f (fieldIn f 2) ((f.p - 1) / 4)) else r
  if fieldSame f (fieldMul f s s) v then some s else none
/-- The point of an Edwards encoding, or none where it does not decode (RFC 8032): x² = (y² − 1) / (d·y² − a). -/
def edwardsPoint (c : Byte) (b : Bytes) : Option CurvePoint :=
  let f := curveField c
  let v := leNat (fit (curveBytes c.toNat) b)
  let y := v % 2 ^ signShift c
  let sign := v / 2 ^ signShift c
  if f.p ≤ y then none
  else
    let ym := fieldIn f y
    let y2 := fieldMul f ym ym
    match edwardsRoot c f (fieldMul f (lazySub f.p y2 f.one) (fieldInv f (lazySub f.p (fieldMul f f.b y2) f.a))) with
    | none => none
    | some x =>
      if fieldOut f x = 0 ∧ sign = 1 then none
      else some ⟨if fieldOut f x % 2 = sign then x else lazySub f.p 0 x, ym, f.one⟩
/-- The curve equation holds of coordinates below the prime, or the encoding decodes (06 R218 bit 3). -/
@[irreducible] def curveOnCurve (c : Byte) (b : Bytes) : Bool :=
  if isEdwards c then (edwardsPoint c b).isSome
  else
    let f := curveField c
    let q := pointXY c b
    let x := fieldIn f q.1
    let y := fieldIn f q.2
    decide (q.1 < f.p ∧ q.2 < f.p) &&
    fieldSame f (fieldMul f y y) (fieldSum f [(fieldMul f x x, x), (f.a, x), (fieldIn f (curveB c), f.one)])
/-- The point is the identity, or its multiple by the cofactor is (06 R218 bit 4): a prime curve's identity has no x and y. -/
@[irreducible] def curveSmall (c : Byte) (b : Bytes) : Bool :=
  if isEdwards c then
    match edwardsPoint c b with
    | some q => samePoint c (curveMul c 4 (curveCofactor c) q) (curveZero c)
    | none => false
  else false

/-! ### ECDH and ECDSA -/

/-- The public point of a private scalar: x and y. -/
@[irreducible] def curvePublic (c : Byte) (k : Nat) (blind : Bytes) : Bytes := pointBytes c (privateMul c k (curveBase c) blind)
/-- The x-coordinate of the multiple of a peer's point (11 R408). -/
@[irreducible] def curveSharedX (c : Byte) (k : Nat) (peer blind : Bytes) : Bytes :=
  beBytes (curveBytes c.toNat) (affineX c (privateMul c k (pointOf c peer) blind))
/-- The leftmost bits of a digest, as many as the order has. -/
def digestNat (c : Byte) (digest : Bytes) : Nat := beNat digest / 2 ^ (8 * digest.length - bitLen (curveOrder c))
/-- r and s of a signature with a nonce: s = k⁻¹·(e + r·d), its sum a lazy one (06 R199). -/
def ecdsaPair (c : Byte) (key : Nat) (digest : Bytes) (nonce : Nat) (blind : Bytes) : Nat × Nat :=
  let r := maskedSub (curveOrder c) (affineX c (privateMul c nonce (curveBase c) blind))
  let sum := montAdd (scalarIn c (digestNat c digest)) (scalarMul c (scalarIn c r) (scalarIn c key))
  (r, scalarOut c (scalarMul c (privateInverse c nonce blind) sum))
/-- A signature with a nonce, r and s each as wide as the order (11 R406); none where r = 0 or s = 0 (FIPS 186-5). -/
@[irreducible] def ecdsaSign (c : Byte) (key : Nat) (digest : Bytes) (nonce : Nat) (blind : Bytes) : Option Bytes :=
  let w := curveBytes c.toNat
  let p := ecdsaPair c key digest nonce blind
  if p.1 = 0 ∨ p.2 = 0 then none else some (beBytes w p.1 ++ beBytes w p.2)
/-- The signature with the first of several nonces that gives one. -/
def ecdsaFirst (c : Byte) (key : Nat) (digest : Bytes) (nonces : List Nat) : Bytes :=
  (nonces.findSome? (fun k => ecdsaSign c key digest k [])).getD []
@[irreducible] def ecdsaVerify (c : Byte) (pub digest sig : Bytes) : Bool :=
  let n := curveOrder c
  let w := curveBytes c.toNat
  let r := beNat (field sig 0 w)
  let s := beNat (field sig w w)
  let t := montInverse n (montRadix n) (scalarIn c s)
  let times := fun x => scalarOut c (scalarMul c (scalarIn c x) t)
  let q := curveAdd c (curveMul c (publicBits c) (times (digestNat c digest)) (curveBase c))
    (curveMul c (publicBits c) (times r) (pointOf c pub))
  decide (0 < r ∧ r < n ∧ 0 < s ∧ s < n) && decide (fieldOut (curveField c) q.z ≠ 0) && decide (maskedSub n (affineX c q) = r)

/-! ### EdDSA (RFC 8032): Ed25519 without a context, Ed448 with one -/

/-- The hash of a string: SHA-512, or SHAKE256 after the domain of Ed448. -/
def edwardsHash (c : Byte) (context m : Bytes) : Bytes :=
  if c = 0x11 then
    digestOf 0x39 114 (ascii "SigEd448".toList ++ [0, BitVec.ofNat 8 context.length] ++ context ++ m)
  else digestOf 0x24 64 m
/-- The two halves that a private key is expanded to: the clamped scalar, and the prefix. -/
def edwardsExpand (c : Byte) (key : Bytes) : Bytes :=
  if c = 0x11 then digestOf 0x39 114 key else digestOf 0x24 64 key
def edwardsScalar (c : Byte) (key : Bytes) : Nat :=
  let v := leNat ((edwardsExpand c key).take (curveBytes c.toNat))
  if c = 0x11 then v % 2 ^ 447 / 4 * 4 + 2 ^ 447 else v % 2 ^ 254 / 8 * 8 + 2 ^ 254
def edwardsPrefix (c : Byte) (key : Bytes) : Bytes := (edwardsExpand c key).drop (curveBytes c.toNat)
def edwardsMultiple (c : Byte) (k : Nat) (blind : Bytes) : Bytes := edwardsBytes c (privateMul c k (curveBase c) blind)
@[irreducible] def eddsaPublic (c : Byte) (key blind : Bytes) : Bytes := edwardsMultiple c (edwardsScalar c key) blind
/-- R and S of a message under a key: S = r + k·a, its sum a lazy one, the clamped scalar brought below 4N first (06 R198, R199). -/
@[irreducible] def eddsaSign (c : Byte) (key context m blind : Bytes) : Bytes :=
  let a := edwardsScalar c key
  let r := scalarWide c (leNat (edwardsHash c context (edwardsPrefix c key ++ m)))
  let big := edwardsMultiple c (scalarOut c r) blind
  let k := scalarWide c (leNat (edwardsHash c context (big ++ edwardsMultiple c a (blind.drop (curveBlindBytes c)) ++ m)))
  big ++ leBytes (curveBytes c.toNat)
    (scalarOut c (montAdd r (scalarMul c k (scalarIn c (maskedSub (4 * curveOrder c) a)))))
/-- [h][S]B = [h]R + [h][k]A for the cofactor h. -/
@[irreducible] def eddsaVerify (c : Byte) (pub context m sig : Bytes) : Bool :=
  let n := curveOrder c
  let w := curveBytes c.toNat
  let s := leNat (field sig w w)
  match edwardsPoint c (field sig 0 w), edwardsPoint c pub with
  | some r, some a =>
    let k := scalarOut c (scalarWide c (leNat (edwardsHash c context (field sig 0 w ++ fit w pub ++ m))))
    let clear := fun q => curveMul c 4 (curveCofactor c) q
    decide (s < n) && samePoint c (clear (curveMul c (publicBits c) s (curveBase c)))
      (clear (curveAdd c r (curveMul c (publicBits c) k a)))
  | _, _ => false

end Sys2Proof.Machine
end

