-- ==== Sys2Proof/Machine/Lattice.lean ====
section
/-! DEFINITION. Polynomial mode (07): lanes, transforms and rounding as R244 to R258 write them, the samplers of R249 to R253,
and on them ML-KEM (FIPS 203) and ML-DSA (FIPS 204) with the parameter sets of R268. PRESUMED: what the specification takes
from the two standards without writing it out (the order of hashing, the encodings, the transform's roots). -/

namespace Sys2Proof.Machine

/-! ### Lanes and rounding (07 R244 to R247, R255 to R258) -/

def kemQ : Nat := 3329
def dsaQ : Nat := 8380417
/-- The lane bound Λ: the largest multiple of q below 2^32 (07 R244). -/
def laneBound (q : Nat) : Nat := (2 ^ 32 - 1) / q * q
/-- Montgomery reduction with radix 2^32 (07 R244). -/
def laneMont (q x : Nat) : Nat := (x + x * negInverse q (2 ^ 32) % 2 ^ 32 * q) / 2 ^ 32
/-- The butterflies: forward (Cooley–Tukey) and inverse (Gentleman–Sande), with bound B (07 R245). -/
def forwardButterfly (q a b z : Nat) : Nat × Nat :=
  let t := laneMont q (b * z)
  (a + t, a + 2 * q - t)
def inverseButterfly (q bound a b z : Nat) : Nat × Nat := (a + b, laneMont q ((a + bound - b) * z))
/-- Fold: exact reduction into [0, q) (07 R245). -/
def laneFold (q x : Nat) : Nat := x % q

/-! ### Lane-limit detection (07 R243, R247) -/

/-- Lane i stands in column i / 2 of the accumulator, its flag in that column's highest 8 bits: an even lane in bits 31 to 0 and 64, an
odd one in bits 63 to 32 and 65 (DESIGN CHOICE: 07 R243 names no bits; log entry 80). -/
def laneAt (cs : List Column) (i : Nat) : Nat := (columnAt cs (i / 2)).sum.toNat / 2 ^ (32 * (i % 2)) % 2 ^ 32
def laneFlag (cs : List Column) (i : Nat) : Bool := (columnAt cs (i / 2)).sum.getLsbD (64 + i % 2)
/-- A lane holds a value, and its flag is set or stays. -/
def setLane (i x : Nat) (flag : Bool) (cs : List Column) : List Column :=
  (List.range 128).map (fun k =>
    let c := columnAt cs k
    if k = i / 2 then
      { sum := BitVec.ofNat 72 (c.sum.toNat - laneAt cs i * 2 ^ (32 * (i % 2)) + x % 2 ^ 32 * 2 ^ (32 * (i % 2))) |||
          BitVec.ofNat 72 (if flag then 2 ^ (64 + i % 2) else 0) }
    else c)
/-- A lane operation on the lane it names: its flag is set when an addition would reach Λ, a subtraction fall below zero, or a
Montgomery output reach 2q (07 R247); in safe mode the result is folded (07 R248). -/
def runLane (safe : Bool) (q : Nat) (cs : List Column) (s : LaneStep) : List Column :=
  let put := fun (i x : Nat) (beyond : Bool) => setLane i (if safe then laneFold q x else x) beyond cs
  match s with
  | .add i x => let v := laneAt cs i + x.toNat; put i v (decide (laneBound q ≤ v))
  | .sub i x => let v := laneAt cs i; put i (v - x.toNat) (decide (v < x.toNat))
  | .mont i ps => let v := laneMont q (ps.map (fun p => p.1.toNat * p.2.toNat)).sum; put i v (decide (2 * q ≤ v))
/-- A layer or pointwise pass: at its end the lane flags are evaluated into the engine's spill flag (07 R247). -/
def runLayer (safe : Bool) (q : Nat) (acc : List Column × Bool) (l : List LaneStep) : List Column × Bool :=
  let a := l.foldl (runLane safe q) acc.1
  (a, acc.2 || (List.range 256).any (laneFlag a))

/-- ML-KEM compression as the engine computes it, and its definition (07 R255). -/
def kemCompress (dd x : Nat) : Nat := (x * 2 ^ (dd + 1) + kemQ) * 20642679 / 2 ^ 37 % 2 ^ dd
def kemCompressSpec (dd x : Nat) : Nat := (x * 2 ^ (dd + 1) + kemQ) / (2 * kemQ) % 2 ^ dd
/-- ML-KEM decompression (07 R256). -/
def kemDecompress (dd y : Nat) : Nat := (y * kemQ + 2 ^ (dd - 1)) / 2 ^ dd
/-- r mod± m in (−m/2, m/2]. -/
def centred (r m : Nat) : Int := if m < 2 * (r % m) then (r % m : Int) - m else (r % m : Int)
/-- A result leaves the engine as a 32-bit two's-complement value (07 R259). -/
def signedWord (x : Int) : BitVec 32 := BitVec.ofInt 32 x
/-- Power2Round with d = 13: r1 and r0 (07 R257). -/
def power2Round (r : Nat) : BitVec 32 × BitVec 32 :=
  let r0 := centred r 8192
  (signedWord (((r : Int) - r0) / 8192), signedWord r0)
/-- Decompose with α = 2γ2: r1 and r0; both outcomes of the comparison are formed, and one is chosen (07 R258). -/
def dsaDecompose (alpha r : Nat) : BitVec 32 × BitVec 32 :=
  let r0 := centred r alpha
  let plain := (signedWord (((r : Int) - r0) / alpha), signedWord r0)
  let special := (signedWord 0, signedWord (r0 - 1))
  if (r : Int) - r0 = (dsaQ : Int) - 1 then special else plain

/-! ### Polynomials: 256 coefficients, each reduced or lazy (07 R243 to R248) -/

abbrev Poly := List Nat
def polyZero : Poly := List.replicate 256 0
/-- How an engine runs an operation: in safe mode it folds after every layer, product and addition (07 R248); `draw` holds
9 bytes for each pass over a polynomial derived from secret data, pass after pass (07 R254). -/
structure Schedule where
  safe : Bool := false
  draw : Bytes := []
deriving DecidableEq, Repr
/-- A value after a layer, a product or an addition. -/
def laneValue (sch : Schedule) (q x : Nat) : Nat := if sch.safe then laneFold q x else x
/-- Bytes of the values of one pass: an offset in [0, 255] and a permutation of the eight batches (07 R254). -/
def passBytes : Nat := 9
/-- The schedule after n passes. -/
def later (sch : Schedule) (n : Nat) : Schedule := { sch with draw := sch.draw.drop (passBytes * n) }
/-- A permutation of the batches: each byte picks one of those left. -/
def pickOrder : Bytes → List Nat → List Nat
  | b :: t, xs =>
    let k := b.toNat % xs.length
    (xs.drop k).take 1 ++ pickOrder t (xs.eraseIdx k)
  | [], xs => xs
/-- The order in which the coefficients of a pass come to the 32 lane multipliers, batch by batch (07 R254). -/
def passOrder (values : Bytes) : List Nat :=
  (pickOrder (values.drop 1) (List.range 8)).flatMap (fun b =>
    (List.range 32).map (fun m => (32 * b + m + (values.headD 0).toNat) % 256))
/-- The coefficients of a pass over secret data, set down in that order: the result does not depend on it. -/
def shuffled (sch : Schedule) (f : Poly) : Poly :=
  if sch.draw.isEmpty then f else (passOrder (sch.draw.take passBytes)).foldl (fun out i => out.set i (f.getD i 0)) polyZero
/-- The end of a pass: every value as it is held, in the pass's own order. -/
def endPass (sch : Schedule) (q : Nat) (f : Poly) : Poly := shuffled sch (f.map (laneValue sch q))
/-- The lowest bits of an index in reverse order. -/
def bitReverse (bits k : Nat) : Nat := (List.range bits).foldl (fun a i => 2 * a + k / 2 ^ i % 2) 0
/-- Constants of the transforms: powers modulo q, and inverses. -/
def powModGo (p a e : Nat) : Nat → Nat → Nat
  | 0, acc => acc
  | k + 1, acc =>
    let sq := acc * acc % p
    powModGo p a e k (if e.testBit k then sq * a % p else sq)
def powMod (p a e : Nat) : Nat := powModGo p (a % p) e (bitLen e) (1 % p)
def primeInv (p a : Nat) : Nat := powMod p a (p - 2)
/-- The roots of unity of the two transforms, by block number: powers of 17 and of 1,753. -/
def rootOfBlock (q k : Nat) : Nat :=
  if q = kemQ then powMod q 17 (bitReverse 7 k) else powMod q 1753 (bitReverse 8 k)
/-- A constant in Montgomery form. -/
def montForm (q x : Nat) : Nat := x * 2 ^ 32 % q
/-- Butterflies over the two halves of a block. -/
def forwardBlock (q z : Nat) (a b : Poly) : Poly :=
  let r := List.zipWith (fun x y => forwardButterfly q x y z) a b
  r.map (fun p => p.1) ++ r.map (fun p => p.2)
def inverseBlock (q bound z : Nat) (a b : Poly) : Poly :=
  let r := List.zipWith (fun x y => inverseButterfly q bound x y z) a b
  r.map (fun p => p.1) ++ r.map (fun p => p.2)
/-- Layer j over its 2^j blocks, each with its own root. -/
def blockLayer (j : Nat) (f : Poly) (block : Nat → Poly → Poly → Poly) : Poly :=
  let h := 128 / 2 ^ j
  (List.range (2 ^ j)).flatMap (fun i => block (2 ^ j + i) ((f.drop (2 * h * i)).take h) ((f.drop (2 * h * i + h)).take h))
/-- Layers: seven for ML-KEM, eight for ML-DSA (07 R244). -/
def nttLayers (q : Nat) : Nat := if q = kemQ then 7 else 8
/-- The forward transform folds its input; each layer is a pass, and outside safe mode nothing is reduced between layers (07 R246). -/
def ntt (sch : Schedule) (q : Nat) (f : Poly) : Poly :=
  (List.range (nttLayers q)).foldl (fun f j =>
    endPass (later sch j) q (blockLayer j f (fun k => forwardBlock q (montForm q (rootOfBlock q k))))) (f.map (laneFold q))
/-- The bound of the coefficients that enter inverse layer i (07 R246); in safe mode each was folded (07 R248). -/
def layerBound (sch : Schedule) (q i : Nat) : Nat := if sch.safe then q else 2 ^ i * q
/-- The inverse transform of a product folds its input; its final scaling, a Montgomery product, also takes out the radix that the
product brought (07 R246). -/
def invNtt (sch : Schedule) (q : Nat) (f : Poly) : Poly :=
  let n := nttLayers q
  let s := powMod q (2 ^ n) (q - 2) * 2 ^ 64 % q
  let g := (List.range n).foldl (fun f i =>
    endPass (later sch i) q (blockLayer (n - 1 - i) f (fun k =>
      inverseBlock q (layerBound sch q i) (montForm q (primeInv q (rootOfBlock q k)))))) (f.map (laneFold q))
  endPass (later sch n) q (g.map (fun x => laneMont q (x * s)))
/-- Passes of a forward and of an inverse transform. -/
def forwardPasses (q : Nat) : Nat := nttLayers q
def inversePasses (q : Nat) : Nat := nttLayers q + 1
/-- The base product of ML-KEM on pairs of coefficients, block by block (07 R245). -/
def basePair (sch : Schedule) (q z a0 a1 b0 b1 : Nat) : List Nat :=
  [laneMont q (a0 * b0 + laneValue sch q (laneMont q (a1 * b1)) * z), laneMont q (a0 * b1 + a1 * b0)]
def baseGo (sch : Schedule) (q : Nat) : Nat → Poly → Poly → Poly
  | i, a0 :: a1 :: a, b0 :: b1 :: b =>
    let z := montForm q (rootOfBlock q (64 + i / 2))
    basePair sch q (if i % 2 = 0 then z else q - z) a0 a1 b0 b1 ++ baseGo sch q (i + 1) a b
  | _, _, _ => []
/-- The product of two transformed polynomials, over the Montgomery radix (07 R245): one pass. -/
def polyMul (sch : Schedule) (q : Nat) (a b : Poly) : Poly :=
  endPass sch q (if q = kemQ then baseGo sch q 0 a b else List.zipWith (fun x y => laneMont q (x * y)) a b)
/-- A lazy sum, and a lane difference of a value and one below 2q (07 R245): one pass each. -/
def polyAdd (sch : Schedule) (q : Nat) (a b : Poly) : Poly := endPass sch q (List.zipWith (fun x y => x + y) a b)
def polySub (sch : Schedule) (q : Nat) (a b : Poly) : Poly := endPass sch q (List.zipWith (fun x y => x + 2 * q - y) a b)
/-- A rounding function over the coefficients, each folded first (07 R246): one pass. -/
def polyRound (sch : Schedule) (q : Nat) (g : Nat → Nat) (f : Poly) : Poly := shuffled sch (f.map (fun x => g (laneFold q x)))
/-- An operation over the polynomials of a vector, each with `stride` passes of its own. -/
def overAll {α β : Type} (sch : Schedule) (stride : Nat) (op : Schedule → α → β) (fs : List α) : List β :=
  fs.zipIdx.map (fun p => op (later sch (stride * p.2)) p.1)
def vecNtt (sch : Schedule) (q : Nat) (fs : List Poly) : List Poly := overAll sch (forwardPasses q) (fun s f => ntt s q f) fs
def vecInv (sch : Schedule) (q : Nat) (fs : List Poly) : List Poly := overAll sch (inversePasses q) (fun s f => invNtt s q f) fs
def vecAdd (sch : Schedule) (q : Nat) (fs gs : List Poly) : List Poly := overAll sch 1 (fun s p => polyAdd s q p.1 p.2) (fs.zip gs)
def vecSub (sch : Schedule) (q : Nat) (fs gs : List Poly) : List Poly := overAll sch 1 (fun s p => polySub s q p.1 p.2) (fs.zip gs)
def vecRound (sch : Schedule) (q : Nat) (g : Nat → Nat) (fs : List Poly) : List Poly := overAll sch 1 (fun s f => polyRound s q g f) fs
/-- The sum of products of two vectors of transformed polynomials (07 R245: the lazy sum), two passes for each. -/
def polyDot (sch : Schedule) (q : Nat) (a b : List Poly) : Poly :=
  (overAll sch 2 (fun s p => (s, polyMul s q p.1 p.2)) (a.zip b)).foldl (fun acc p => polyAdd (later p.1 1) q acc p.2) polyZero
def matMul (sch : Schedule) (q : Nat) (m : List (List Poly)) (v : List Poly) : List Poly :=
  overAll sch (2 * v.length) (fun s r => polyDot s q r v) m
/-- Coefficients of d bits each, packed from the lowest. -/
def packBits (d : Nat) (f : List Nat) : Bytes := leBytes (32 * d) (f.foldr (fun x a => x + 2 ^ d * a) 0)
def unpackBits (d : Nat) (b : Bytes) : Poly := let v := leNat (fit (32 * d) b); (List.range 256).map (fun i => v / 2 ^ (d * i) % 2 ^ d)

/-! ### The Keccak lane and sampling (07 R249 to R253) -/

def shake128 (len : Nat) (m : Bytes) : Bytes := digestOf 0x38 len m
def shake256 (len : Nat) (m : Bytes) : Bytes := digestOf 0x39 len m
/-- The state of a sponge that has absorbed a string, and after one more permutation. -/
def spongeOf (alg : Nat) (m : Bytes) : Bytes := absorb alg (hashInit alg) (chunks (hashRate alg) (hashPad alg m.length m))
def squeezeNext (alg : Nat) (st : Bytes) : Bytes := hashBlock alg st (List.replicate (hashRate alg) 0)
/-- The bytes of n blocks, and the state that the next block is taken from. -/
def blocksFrom (alg : Nat) : Nat → Bytes → Bytes × Bytes
  | 0, st => ([], st)
  | n + 1, st => let r := blocksFrom alg n (squeezeNext alg st); (st.take (hashRate alg) ++ r.1, r.2)
/-- Further blocks until 256 candidates are accepted (07 R251, R253). -/
def sampleGo (alg : Nat) (accept : Bytes → List Nat) : Nat → Bytes → List Nat → Poly
  | 0, _, acc => acc.take 256
  | n + 1, st, acc =>
    if 256 ≤ acc.length then acc.take 256
    else sampleGo alg accept n (squeezeNext alg st) (acc ++ accept (st.take (hashRate alg)))
/-- More blocks than any sampler meets. -/
def sampleFuel : Nat := 2 ^ 32
/-- Rejection sampling from a string: a fixed number of blocks first, whatever is accepted of them (07 R252), then as many
as are needed (07 R253); 0 blocks for public data (07 R251). -/
def sampleWith (alg fixed : Nat) (accept : Bytes → List Nat) (m : Bytes) : Poly :=
  let r := blocksFrom alg fixed (spongeOf alg m)
  sampleGo alg accept sampleFuel r.2 (accept r.1)
/-- SampleNTT of ML-KEM: two candidates of 12 bits in three bytes. -/
def kemCandidates : Bytes → List Nat
  | a :: b :: c :: t =>
    ([a.toNat + 256 * (b.toNat % 16), b.toNat / 16 + 16 * c.toNat].filter (fun x => decide (x < kemQ))) ++ kemCandidates t
  | _ => []
/-- ExpandA of ML-DSA: a candidate of 23 bits in three bytes. -/
def dsaCandidates : Bytes → List Nat
  | a :: b :: c :: t =>
    let x := a.toNat + 256 * b.toNat + 65536 * (c.toNat % 128)
    if x < dsaQ then x :: dsaCandidates t else dsaCandidates t
  | _ => []
/-- ExpandS of ML-DSA: candidates of four bits, the low half of a byte first. -/
def smallCandidates (eta : Nat) (b : Bytes) : List Nat :=
  (b.flatMap (fun x => [x.toNat % 16, x.toNat / 16])).filterMap (fun z =>
    if eta = 2 then (if z < 15 then some (subMod dsaQ 2 (z % 5)) else none)
    else if z < 9 then some (subMod dsaQ 4 z) else none)
/-- SamplePolyCBD of ML-KEM: 64η bytes, two sums of η bits for each coefficient. -/
def sampleCbd (eta : Nat) (b : Bytes) : Poly :=
  let v := leNat (fit (64 * eta) b)
  let ones := fun i => ((List.range eta).map (fun k => v / 2 ^ (i + k) % 2)).sum
  (List.range 256).map (fun i => subMod kemQ (ones (2 * eta * i)) (ones (2 * eta * i + eta)))
/-- SampleInBall of ML-DSA: positions from the bytes after the signs; each candidate above its index is passed over. The
index reached, and the polynomial. -/
def ballGo (signs tau : Nat) : Bytes → Nat → Poly → Nat × Poly
  | [], i, c => (i, c)
  | b :: t, i, c =>
    if 256 ≤ i then (i, c)
    else if b.toNat ≤ i then
      let moved := c.set i (c.getD b.toNat 0)
      ballGo signs tau t (i + 1) (moved.set b.toNat (if signs / 2 ^ (i + tau - 256) % 2 = 1 then dsaQ - 1 else 1))
    else ballGo signs tau t i c
/-- Further blocks until the last position is set (07 R253). -/
def ballMore (signs tau : Nat) : Nat → Bytes → Nat × Poly → Poly
  | 0, _, c => c.2
  | n + 1, st, c =>
    if 256 ≤ c.1 then c.2 else ballMore signs tau n (squeezeNext 0x39 st) (ballGo signs tau (st.take (hashRate 0x39)) c.1 c.2)
/-- Exactly 3 blocks of SHAKE256 first: 8 bytes of signs and 400 candidates (07 R252). -/
def sampleInBall (tau : Nat) (seed : Bytes) : Poly :=
  let r := blocksFrom 0x39 3 (spongeOf 0x39 seed)
  let signs := leNat (r.1.take 8)
  ballMore signs tau sampleFuel r.2 (ballGo signs tau (r.1.drop 8) (256 - tau) polyZero)

/-! ### ML-KEM -/

/-- A parameter set of R268, by its rank. -/
structure KemSet where
  k : Nat
  eta1 : Nat
  du : Nat
  dv : Nat
deriving DecidableEq, Repr
def kemSet (param : Byte) : KemSet :=
  if param = 2 then { k := 2, eta1 := 3, du := 10, dv := 4 }
  else if param = 3 then { k := 3, eta1 := 2, du := 10, dv := 4 }
  else { k := 4, eta1 := 2, du := 11, dv := 5 }
def sha3512 (m : Bytes) : Bytes := digestOf 0x34 64 m
def sha3256 (m : Bytes) : Bytes := digestOf 0x32 32 m
/-- The matrix, by rows, of a public seed. -/
def kemMatrix (s : KemSet) (rho : Bytes) : List (List Poly) :=
  (List.range s.k).map (fun i => (List.range s.k).map (fun j => sampleWith 0x38 0 kemCandidates (rho ++ leBytes 1 j ++ leBytes 1 i)))
def transpose (m : List (List Poly)) : List (List Poly) :=
  (List.range m.length).map (fun i => m.map (fun r => r.getD i polyZero))
/-- Secret polynomials from a seed, numbered from n. -/
def kemNoise (eta count n : Nat) (seed : Bytes) : List Poly :=
  (List.range count).map (fun i => sampleCbd eta (shake256 (64 * eta) (seed ++ leBytes 1 (n + i))))
/-- The public seed and the secret seed of a seed pair, by G (07 R250). -/
def kemSeeds (s : KemSet) (seed : Bytes) : Bytes × Bytes :=
  let g := sha3512 (field seed 0 32 ++ leBytes 1 s.k)
  (g.take 32, g.drop 32)
/-- Passes over secret polynomials of the ML-KEM operations (07 R254): k transforms, a product of the matrix and a vector, the rest. -/
def kemTransforms (s : KemSet) : Nat := s.k * forwardPasses kemQ
def kemPublicPasses (s : KemSet) : Nat := 2 * kemTransforms s + 2 * s.k * s.k + s.k
def kemEncryptPasses (s : KemSet) : Nat :=
  kemTransforms s + 2 * s.k * s.k + s.k * (inversePasses kemQ + 2) + 2 * s.k + inversePasses kemQ + 3
def kemDecryptPasses (s : KemSet) : Nat := kemTransforms s + 2 * s.k + inversePasses kemQ + 2
def kemDecapsPasses (s : KemSet) : Nat := kemPublicPasses s + kemDecryptPasses s + kemEncryptPasses s
/-- The small polynomials that multiply the matrix to a sum with others: the radix that the product takes out is put in first. -/
def withRadix (q : Nat) (f : Poly) : Poly := f.map (fun x => x * (2 ^ 32 % q))
/-- The encapsulation key of a seed pair d‖z. -/
@[irreducible] def mlKemPublic (sch : Schedule) (param : Byte) (seed : Bytes) : Bytes :=
  let s := kemSet param
  let g := kemSeeds s seed
  let n := kemTransforms s
  let v := vecNtt sch kemQ ((kemNoise s.eta1 s.k 0 g.2).map (withRadix kemQ))
  let e := vecNtt (later sch n) kemQ (kemNoise s.eta1 s.k s.k g.2)
  let rows := matMul (later sch (2 * n)) kemQ (kemMatrix s g.1) v
  (vecAdd (later sch (2 * n + 2 * s.k * s.k)) kemQ rows e).flatMap (fun f => packBits 12 (f.map (laneFold kemQ))) ++ g.1
/-- The vector of an encapsulation key. -/
def kemVector (s : KemSet) (ek : Bytes) : List Poly := (List.range s.k).map (fun i => unpackBits 12 (field ek (384 * i) 384))
/-- Pairs of 12-bit coefficients below q, three bytes each. -/
def coefficientsBelow : Bytes → Bool
  | a :: b :: c :: t => decide (a.toNat + 256 * (b.toNat % 16) < kemQ) && decide (b.toNat / 16 + 16 * c.toNat < kemQ) && coefficientsBelow t
  | _ => true
/-- A length that fits, and no coefficient at or above q (07 R267). -/
@[irreducible] def mlKemDecodes (param : Byte) (ek : Bytes) : Bool :=
  decide (ek.length = 384 * (kemSet param).k + 32) && coefficientsBelow (ek.take (384 * (kemSet param).k))
/-- Encryption of 32 bytes under randomness. -/
def kemEncrypt (sch : Schedule) (param : Byte) (ek m r : Bytes) : Bytes :=
  let s := kemSet param
  let a := kemMatrix s (field ek (384 * s.k) 32)
  let y := vecNtt sch kemQ (kemNoise s.eta1 s.k 0 r)
  let n := kemTransforms s
  let rows := matMul (later sch n) kemQ (transpose a) y
  let n := n + 2 * s.k * s.k
  let w := vecInv (later sch n) kemQ rows
  let n := n + s.k * inversePasses kemQ
  let u := vecAdd (later sch n) kemQ w (kemNoise 2 s.k s.k r)
  let u := vecRound (later sch (n + s.k)) kemQ (kemCompress s.du) u
  let n := n + 2 * s.k
  let mu := (unpackBits 1 m).map (kemDecompress 1)
  let e2 := (kemNoise 2 1 (2 * s.k) r).headD []
  let ty := polyDot (later sch n) kemQ (kemVector s ek) y
  let n := n + 2 * s.k
  let v := invNtt (later sch n) kemQ ty
  let n := n + inversePasses kemQ
  let v := polyAdd (later sch (n + 1)) kemQ (polyAdd (later sch n) kemQ v e2) mu
  let v := polyRound (later sch (n + 2)) kemQ (kemCompress s.dv) v
  u.flatMap (packBits s.du) ++ packBits s.dv v
/-- Decryption. The ciphertext is public: its transform draws nothing. -/
def kemDecrypt (sch : Schedule) (param : Byte) (seed c : Bytes) : Bytes :=
  let s := kemSet param
  let u := (List.range s.k).map (fun i => (unpackBits s.du (field c (32 * s.du * i) (32 * s.du))).map (kemDecompress s.du))
  let v := (unpackBits s.dv (field c (32 * s.du * s.k) (32 * s.dv))).map (kemDecompress s.dv)
  let x := vecNtt sch kemQ (kemNoise s.eta1 s.k 0 (kemSeeds s seed).2)
  let n := kemTransforms s
  let su := polyDot (later sch n) kemQ x (vecNtt { safe := sch.safe } kemQ u)
  let n := n + 2 * s.k
  let w := invNtt (later sch n) kemQ su
  let n := n + inversePasses kemQ
  packBits 1 (polyRound (later sch (n + 1)) kemQ (kemCompress 1) (polySub (later sch n) kemQ v w))
/-- The key and the randomness that a message and an encapsulation key give, by G. -/
def kemShared (ek m : Bytes) : Bytes := sha3512 (fit 32 m ++ sha3256 ek)
@[irreducible] def mlKemKeyOf (_ : Byte) (ek m : Bytes) : Bytes := (kemShared ek m).take 32
@[irreducible] def mlKemCiphertext (sch : Schedule) (param : Byte) (ek m : Bytes) : Bytes :=
  kemEncrypt sch param ek (fit 32 m) ((kemShared ek m).drop 32)
/-- Decapsulation: K', or the implicit-rejection key K̄ = J(z‖c) when the re-encrypted ciphertext differs (07 R265). -/
@[irreducible] def mlKemDecaps (sch : Schedule) (param : Byte) (seed c : Bytes) : Bytes :=
  let s := kemSet param
  let ek := mlKemPublic sch param seed
  let m := kemDecrypt (later sch (kemPublicPasses s)) param seed c
  if mlKemCiphertext (later sch (kemPublicPasses s + kemDecryptPasses s)) param ek m = c then mlKemKeyOf param ek m else shake256 32 (field seed 32 32 ++ c)

/-! ### ML-DSA -/

/-- A parameter set of R268, by its key_param. -/
structure DsaSet where
  k : Nat
  l : Nat
  eta : Nat
  tau : Nat
  gamma1Bits : Nat
  gamma2 : Nat
  beta : Nat
  omega : Nat
  /-- Bytes of the commitment hash. -/
  hash : Nat
deriving DecidableEq, Repr
def dsaSet (param : Byte) : DsaSet :=
  if param = 44 then { k := 4, l := 4, eta := 2, tau := 39, gamma1Bits := 17, gamma2 := 95232, beta := 78, omega := 80, hash := 32 }
  else if param = 65 then { k := 6, l := 5, eta := 4, tau := 49, gamma1Bits := 19, gamma2 := 261888, beta := 196, omega := 55, hash := 48 }
  else { k := 8, l := 7, eta := 2, tau := 60, gamma1Bits := 19, gamma2 := 261888, beta := 120, omega := 75, hash := 64 }
def dsaMatrix (s : DsaSet) (rho : Bytes) : List (List Poly) :=
  (List.range s.k).map (fun r => (List.range s.l).map (fun c => sampleWith 0x38 0 dsaCandidates (rho ++ leBytes 1 c ++ leBytes 1 r)))
/-- ρ, ρ' and K of a seed, by H (07 R250). -/
def dsaSeeds (s : DsaSet) (seed : Bytes) : Bytes := shake256 128 (fit 32 seed ++ leBytes 1 s.k ++ leBytes 1 s.l)
def dsaSmall (s : DsaSet) (seed : Bytes) (count n : Nat) : List Poly :=
  (List.range count).map (fun i => sampleWith 0x39 4 (smallCandidates s.eta) (seed ++ leBytes 2 (n + i)))
/-- An expanded private key: what the seed gives on each use (03 R80). -/
structure DsaKey where
  rho : Bytes
  kSeed : Bytes
  s1 : List Poly
  s2 : List Poly
  t1 : List Poly
  t0 : List Poly
deriving DecidableEq, Repr
def intMod (x : Int) : Nat := (x % (dsaQ : Int)).toNat
/-- Passes over secret polynomials of an ML-DSA key expansion, and of each half of an attempt after it (07 R254). -/
def expandPasses (s : DsaSet) : Nat := s.l * forwardPasses dsaQ + 2 * s.k * s.l + s.k * (inversePasses dsaQ + 2)
def beginPasses (s : DsaSet) : Nat := s.l * forwardPasses dsaQ + 2 * s.k * s.l + s.k * (inversePasses dsaQ + 1)
def timesPasses : Nat := forwardPasses dsaQ + 1 + inversePasses dsaQ
def completePasses (s : DsaSet) : Nat := forwardPasses dsaQ + timesPasses * (s.l + 2 * s.k) + s.l + 4 * s.k
/-- The private key of a seed. -/
def dsaExpand (sch : Schedule) (s : DsaSet) (seed : Bytes) : DsaKey :=
  let g := dsaSeeds s seed
  let rho := field g 0 32
  let s1 := dsaSmall s (field g 32 64) s.l 0
  let s2 := dsaSmall s (field g 32 64) s.k s.l
  let x := vecNtt sch dsaQ s1
  let n := s.l * forwardPasses dsaQ
  let rows := matMul (later sch n) dsaQ (dsaMatrix s rho) x
  let n := n + 2 * s.k * s.l
  let w := vecInv (later sch n) dsaQ rows
  let n := n + s.k * inversePasses dsaQ
  let t := vecRound (later sch (n + s.k)) dsaQ id (vecAdd (later sch n) dsaQ w s2)
  { rho := rho, kSeed := field g 96 32, s1 := s1, s2 := s2
    t1 := t.map (fun f => f.map (fun x => intMod (power2Round x).1.toInt))
    t0 := t.map (fun f => f.map (fun x => intMod (power2Round x).2.toInt)) }
def dsaPublicOf (x : DsaKey) : Bytes := x.rho ++ x.t1.flatMap (packBits 10)
@[irreducible] def mlDsaPublic (sch : Schedule) (param : Byte) (seed : Bytes) : Bytes := dsaPublicOf (dsaExpand sch (dsaSet param) seed)
/-- The string that is signed: the domain byte of the scheme, the context, and the message or the SHA-512 digest of HashML-DSA
with its object identifier. -/
def dsaFramed (scheme : Byte) (context m : Bytes) : Bytes :=
  [if scheme = 0x02 then 1 else 0, BitVec.ofNat 8 context.length] ++ context ++
  (if scheme = 0x02 then [0x06, 0x09, 0x60, 0x86, 0x48, 0x01, 0x65, 0x03, 0x04, 0x02, 0x03] else []) ++ m
/-- μ, from the public key and the framed message. -/
def dsaMu (pub framed : Bytes) : Bytes := shake256 64 (shake256 64 pub ++ framed)
def alphaOf (s : DsaSet) : Nat := 2 * s.gamma2
/-- The inputs of the rounding functions are folded first (07 R246). -/
def highBits (s : DsaSet) (x : Nat) : Nat := (dsaDecompose (alphaOf s) (laneFold dsaQ x)).1.toNat
def lowBits (s : DsaSet) (x : Nat) : Nat := intMod (dsaDecompose (alphaOf s) (laneFold dsaQ x)).2.toInt
/-- Bits of a coefficient of w1. -/
def w1Bits (s : DsaSet) : Nat := if s.gamma2 = 95232 then 6 else 4
def dsaCommit (s : DsaSet) (mu : Bytes) (w1 : List Poly) : Bytes := shake256 s.hash (mu ++ w1.flatMap (packBits (w1Bits s)))
/-- ExpandMask: exactly the prescribed length for each polynomial (07 R252). -/
def dsaMask (s : DsaSet) (seed : Bytes) (kappa : Nat) : List Poly :=
  let d := s.gamma1Bits + 1
  (List.range s.l).map (fun r =>
    (unpackBits d (shake256 (32 * d) (seed ++ leBytes 2 (kappa + r)))).map (fun x => subMod dsaQ (2 ^ s.gamma1Bits) x))
/-- The size of a coefficient about zero, and the condition that none of a vector reaches a bound. -/
def sizeOf0 (x : Nat) : Nat := min x (dsaQ - x)
def allBelow (bound : Nat) (v : List Poly) : Bool := v.all (fun f => f.all (fun x => decide (sizeOf0 x < bound)))
def makeHint (s : DsaSet) (z r : Nat) : Nat := if highBits s r = highBits s (r + z) then 0 else 1
def useHint (s : DsaSet) (h r : Nat) : Nat :=
  let m := (dsaQ - 1) / alphaOf s
  let x := dsaDecompose (alphaOf s) (laneFold dsaQ r)
  if h = 0 then x.1.toNat else if 0 < x.2.toInt then (x.1.toNat + 1) % m else (x.1.toNat + m - 1) % m
/-- The hint's encoding: positions of the ones, polynomial by polynomial, then their running counts. -/
def hintPositions (f : Poly) : List Nat := (f.zipIdx.filter (fun p => decide (p.1 ≠ 0))).map (fun p => p.2)
def packHint (s : DsaSet) (h : List Poly) : Bytes :=
  let counts := (List.range s.k).map (fun i => ((h.take (i + 1)).map (fun f => (hintPositions f).length)).sum)
  fit s.omega ((h.flatMap hintPositions).map (BitVec.ofNat 8)) ++ counts.map (BitVec.ofNat 8)
/-- Decoding of a hint: counts that do not fall, positions that rise, and zeros in the places left. -/
def risesStrictly : List Nat → Bool
  | a :: b :: t => decide (a < b) && risesStrictly (b :: t)
  | _ => true
def unpackHint (s : DsaSet) (b : Bytes) : Option (List Poly) :=
  let pos := (field b 0 s.omega).map (fun x => x.toNat)
  let ends := (field b s.omega s.k).map (fun x => x.toNat)
  let starts := 0 :: ends
  let parts := List.zipWith (fun a e => (pos.take e).drop a) starts ends
  if (List.zipWith (fun a e => decide (a ≤ e ∧ e ≤ s.omega)) starts ends).all id && parts.all risesStrictly &&
      (pos.drop (ends.getLastD 0)).all (fun x => x == 0) then
    some (parts.map (fun p => (List.range 256).map (fun i => if p.contains i then 1 else 0)))
  else none
/-- The first half of an attempt, up to w1 (07 R260): y, w as it is delivered, and c̃. -/
def dsaBegin (sch : Schedule) (s : DsaSet) (rho mu seed : Bytes) (kappa : Nat) : List Poly × List Poly × Bytes :=
  let y := dsaMask s seed kappa
  let x := vecNtt sch dsaQ y
  let n := s.l * forwardPasses dsaQ
  let rows := matMul (later sch n) dsaQ (dsaMatrix s rho) x
  let n := n + 2 * s.k * s.l
  let w := (vecInv (later sch n) dsaQ rows).map (fun f => f.map (laneFold dsaQ))
  (y, w, dsaCommit s mu (vecRound (later sch (n + s.k * inversePasses dsaQ)) dsaQ (highBits s) w))
/-- The inverse transforms of the products of a transformed polynomial and a vector's. -/
def dsaTimes (sch : Schedule) (ch : Poly) (v : List Poly) : List Poly :=
  overAll sch timesPasses (fun s f =>
    invNtt (later s (forwardPasses dsaQ + 1)) dsaQ (polyMul (later s (forwardPasses dsaQ)) dsaQ ch (ntt s dsaQ f))) v
/-- The second half, up to z and the hint: every rejection condition over every coefficient, combined at its end (07 R261); the
signature of an accepted attempt. -/
def dsaComplete (sch : Schedule) (s : DsaSet) (x : DsaKey) (y w : List Poly) (c : Bytes) : Option Bytes :=
  let ch := ntt sch dsaQ (sampleInBall s.tau c)
  let n := forwardPasses dsaQ
  let cs1 := dsaTimes (later sch n) ch x.s1
  let n := n + timesPasses * s.l
  let cs2 := dsaTimes (later sch n) ch x.s2
  let n := n + timesPasses * s.k
  let ct0 := dsaTimes (later sch n) ch x.t0
  let n := n + timesPasses * s.k
  let z := (vecAdd (later sch n) dsaQ y cs1).map (fun f => f.map (laneFold dsaQ))
  let n := n + s.l
  let r := vecSub (later sch n) dsaQ w cs2
  let r0 := vecRound (later sch (n + s.k)) dsaQ (lowBits s) r
  let t := vecRound (later sch (n + 2 * s.k)) dsaQ id ct0
  let h := overAll (later sch (n + 3 * s.k)) 1 (fun sch p => shuffled sch (List.zipWith (fun u v => makeHint s (dsaQ - v) (u + v)) p.1 p.2)) (r.zip t)
  let ok := [allBelow (2 ^ s.gamma1Bits - s.beta) z, allBelow (s.gamma2 - s.beta) r0, allBelow s.gamma2 t,
    decide ((h.map (fun f => f.sum)).sum ≤ s.omega)]
  if ok.all id then
    some (c ++ z.flatMap (fun f => packBits (s.gamma1Bits + 1) (f.map (fun v => subMod dsaQ (2 ^ s.gamma1Bits) v))) ++ packHint s h)
  else none
/-- μ and the seed of the masks, for a message under a key with rnd (07 R263). -/
def dsaStart (x : DsaKey) (scheme : Byte) (rnd context m : Bytes) : Bytes × Bytes :=
  let mu := dsaMu (dsaPublicOf x) (dsaFramed scheme context m)
  (mu, shake256 64 (x.kSeed ++ fit 32 rnd ++ mu))
/-- The rejections after which a signature is given up (07 R262). -/
def attemptLimit : Nat := 814
/-- Attempts in turn, until one is accepted or the limit is reached. -/
def attemptsGo (sch : Schedule) (s : DsaSet) (x : DsaKey) (mu seed : Bytes) : Nat → Nat → Option Bytes
  | 0, _ => none
  | n + 1, kappa =>
    let b := dsaBegin sch s x.rho mu seed kappa
    match dsaComplete sch s x b.1 b.2.1 b.2.2 with
    | some sig => some sig
    | none => attemptsGo sch s x mu seed n (kappa + s.l)
/-- A whole signature of the partition's or a path's own key (13 R468; 18 R610). -/
@[irreducible] def mlDsaSign (sch : Schedule) (param : Byte) (seed : Bytes) (scheme : Byte) (rnd context m : Bytes) : Bytes :=
  let s := dsaSet param
  let x := dsaExpand sch s seed
  let b := dsaStart x scheme rnd context m
  (attemptsGo sch s x b.1 b.2 attemptLimit 0).getD []
@[irreducible] def mlDsaVerify (sch : Schedule) (param : Byte) (pub : Bytes) (scheme : Byte) (context m sig : Bytes) : Bool :=
  let s := dsaSet param
  let d := s.gamma1Bits + 1
  let c := field sig 0 s.hash
  let z := (List.range s.l).map (fun i =>
    (unpackBits d (field sig (s.hash + 32 * d * i) (32 * d))).map (fun x => subMod dsaQ (2 ^ s.gamma1Bits) x))
  match unpackHint s (field sig (s.hash + 32 * d * s.l) (s.omega + s.k)) with
  | none => false
  | some h =>
    let t1 := (List.range s.k).map (fun i => (unpackBits 10 (field pub (32 + 320 * i) 320)).map (fun x => x * 8192))
    let ch := ntt sch dsaQ (sampleInBall s.tau c)
    let az := matMul sch dsaQ (dsaMatrix s (field pub 0 32)) (vecNtt sch dsaQ z)
    let w := vecInv sch dsaQ (vecSub sch dsaQ az (t1.map (fun t => polyMul sch dsaQ ch (ntt sch dsaQ t))))
    let w1 := List.zipWith (fun g f => List.zipWith (useHint s) g f) h w
    decide (sig.length = s.hash + 32 * d * s.l + s.omega + s.k) && allBelow (2 ^ s.gamma1Bits - s.beta) z &&
    dsaCommit s (dsaMu pub (dsaFramed scheme context m)) w1 == c

end Sys2Proof.Machine
end

