-- ==== Sys2Proof/Machine/Lms.lean ====
section
/-! DEFINITION. LMS and HSS of 11 R410 (RFC 8554): LMS_SHA256_M32_H20 over LMOTS_SHA256_N32_W4, private values formed from the
seed and identifier of 03 R79. PRESUMED: the specification names the standard and does not write it out. -/

namespace Sys2Proof.Machine

/-- Winternitz coefficients of a digest and its checksum: 64 and 3 of four bits. -/
def lmotsChains : Nat := 67
def lmotsCoefficients (digest : Bytes) : List Nat :=
  let q := nibbles (fit 32 digest)
  let sum := (q.map (fun c => 15 - c)).sum
  q ++ [sum / 256 % 16, sum / 16 % 16, sum % 16]
/-- What every hash of a tree begins with: the identifier and two numbers. -/
def lmsHead (ident : Bytes) (q i : Nat) : Bytes := fit 16 ident ++ beBytes 4 q ++ beBytes 2 i
/-- A chain from step `j`, over a number of steps. -/
def lmotsChain (ident : Bytes) (q i : Nat) : Nat → Nat → Bytes → Bytes
  | 0, _, x => x
  | n + 1, j, x => lmotsChain ident q i n (j + 1) (sha256 (lmsHead ident q i ++ leBytes 1 j ++ x))
/-- The start of a chain, from the seed (RFC 8554 appendix A). -/
def lmotsStart (seed ident : Bytes) (q i : Nat) : Bytes := sha256 (lmsHead ident q i ++ [0xFF] ++ seed)
/-- A one-time public key from the ends of its chains. -/
def lmotsKey (ident : Bytes) (q : Nat) (ends : List Bytes) : Bytes := sha256 (lmsHead ident q 0x8080 ++ ends.flatten)
def lmotsPublic (seed ident : Bytes) (q : Nat) : Bytes :=
  lmotsKey ident q ((List.range lmotsChains).map (fun i => lmotsChain ident q i 15 0 (lmotsStart seed ident q i)))
/-- The digest that is signed, with a randomizer. -/
def lmotsDigest (ident : Bytes) (q : Nat) (c m : Bytes) : Bytes := sha256 (lmsHead ident q 0x8181 ++ c ++ m)
def lmotsType : Bytes := [0, 0, 0, 3]
def lmotsSign (seed ident : Bytes) (q : Nat) (c m : Bytes) : Bytes :=
  lmotsType ++ c ++ ((lmotsCoefficients (lmotsDigest ident q c m)).zipIdx.flatMap (fun x =>
    lmotsChain ident q x.2 x.1 0 (lmotsStart seed ident q x.2)))
/-- The one-time public key that a signature leads to. -/
def lmotsRecover (ident : Bytes) (q : Nat) (m sig : Bytes) : Bytes :=
  lmotsKey ident q ((lmotsCoefficients (lmotsDigest ident q (field sig 4 32) m)).zipIdx.map (fun x =>
    lmotsChain ident q x.2 (15 - x.1) x.1 (field sig (36 + 32 * x.2) 32)))

/-! ### Trees of height 20 -/

def lmsHeight : Nat := 20
def lmsType : Bytes := [0, 0, 0, 8]
def lmsLeaf (ident : Bytes) (r : Nat) (key : Bytes) : Bytes := sha256 (lmsHead ident r 0x8282 ++ key)
def lmsInner (ident : Bytes) (r : Nat) (left right : Bytes) : Bytes := sha256 (lmsHead ident r 0x8383 ++ left ++ right)
/-- The node r at a height above the leaves of a tree of a height. -/
def lmsNode (seed ident : Bytes) (height : Nat) : Nat → Nat → Bytes
  | 0, r => lmsLeaf ident r (lmotsPublic seed ident (r - 2 ^ height))
  | h + 1, r => lmsInner ident r (lmsNode seed ident height h (2 * r)) (lmsNode seed ident height h (2 * r + 1))
/-- The siblings of the path from a leaf to the root. -/
def lmsPath (seed ident : Bytes) (height q : Nat) : List Bytes :=
  (List.range height).map (fun h => lmsNode seed ident height h ((2 ^ height + q) / 2 ^ h ^^^ 1))
def lmsTreeKey (ident root : Bytes) : Bytes := lmsType ++ lmotsType ++ fit 16 ident ++ root
def lmsTreePublic (seed ident : Bytes) (height : Nat) : Bytes := lmsTreeKey ident (lmsNode seed ident height height 1)
def lmsTreeSign (seed ident : Bytes) (height q : Nat) (c m : Bytes) : Bytes :=
  beBytes 4 q ++ lmotsSign seed ident q c m ++ lmsType ++ (lmsPath seed ident height q).flatten
/-- The root that a leaf and its path lead to. -/
def lmsClimb (ident : Bytes) : Nat → Bytes → List Bytes → Bytes
  | _, x, [] => x
  | r, x, p :: t =>
    lmsClimb ident (r / 2) (if r % 2 = 1 then lmsInner ident (r / 2) p x else lmsInner ident (r / 2) x p) t
/-- Bytes of an LMS signature. -/
def lmsTreeSigLen (height : Nat) : Nat := 12 + 32 * (lmotsChains + 1 + height)
def lmsTreeVerify (height : Nat) (pub m sig : Bytes) : Bool :=
  let ident := field pub 8 16
  let q := beNat (field sig 0 4)
  let ots := 36 + 32 * lmotsChains
  let path := (List.range height).map (fun i => field sig (8 + ots + 32 * i) 32)
  field pub 0 8 == lmsType ++ lmotsType && field sig 4 4 == lmotsType && field sig (4 + ots) 4 == lmsType && decide (q < 2 ^ height) &&
  lmsClimb ident (2 ^ height + q) (lmsLeaf ident (2 ^ height + q) (lmotsRecover ident q m (field sig 4 ots))) path == field pub 24 32

/-! ### Levels: the seeds of lower trees and the randomizers are open -/

/-- The seed and identifier of the tree that serves an index at a level, the top being level 0. -/
def hssTree (material : Bytes) (levels index level : Nat) : Bytes × Bytes :=
  if level = 0 then (field material 0 32, field material 32 16)
  else
    let x := Config.hssChild (fit 48 material) level (index / 2 ^ (lmsHeight * (levels - level)))
    (field x 0 32, field x 32 16)
/-- The leaf of an index at a level. -/
def hssLeaf (levels index level : Nat) : Nat := index / 2 ^ (lmsHeight * (levels - 1 - level)) % 2 ^ lmsHeight
def hssLevelPublic (material : Bytes) (levels index level : Nat) : Bytes :=
  let t := hssTree material levels index level
  lmsTreePublic t.1 t.2 lmsHeight
def hssLevelSign (material : Bytes) (levels index level : Nat) (m : Bytes) : Bytes :=
  let t := hssTree material levels index level
  let q := hssLeaf levels index level
  lmsTreeSign t.1 t.2 lmsHeight q (fit 32 (Config.lmsRandomizer t.1 t.2 q)) m
/-- A public key: of LMS at one level, of HSS at more. -/
@[irreducible] def lmsPublic (levels : Byte) (material : Bytes) : Bytes :=
  (if levels = 1 then [] else beBytes 4 levels.toNat) ++ hssLevelPublic material levels.toNat 0 0
/-- A signature at an index: each level but the last signs the public key of the next. -/
@[irreducible] def lmsSign (material : Bytes) (levels index : Nat) (m : Bytes) : Bytes :=
  (if levels = 1 then [] else beBytes 4 (levels - 1)) ++
  (List.range (levels - 1)).flatMap (fun l =>
    let next := hssLevelPublic material levels index (l + 1)
    hssLevelSign material levels index l next ++ next) ++
  hssLevelSign material levels index (levels - 1) m
/-- Verification of the chain of signatures under a public key, level by level. -/
def hssVerifyGo : Nat → Bytes → Bytes → Bytes → Bool
  | 0, pub, m, sig => lmsTreeVerify lmsHeight pub m sig
  | n + 1, pub, m, sig =>
    let len := lmsTreeSigLen lmsHeight
    let next := field sig len 56
    lmsTreeVerify lmsHeight pub next (sig.take len) && hssVerifyGo n next m (sig.drop (len + 56))
@[irreducible] def lmsVerify (levels : Byte) (pub m sig : Bytes) : Bool :=
  if levels = 1 then lmsTreeVerify lmsHeight pub m sig
  else beNat (field pub 0 4) == levels.toNat && beNat (field sig 0 4) == levels.toNat - 1 &&
    hssVerifyGo (levels.toNat - 1) (pub.drop 4) m (sig.drop 4)

end Sys2Proof.Machine
end

