-- ==== Sys2Proof/Machine/KeyOps.lean ====
section
/-! DEFINITION. The key store's operations (03): handles, records, masking and tags, chains, the checks of a lookup,
usage counters, allocation and deletion. -/

namespace Sys2Proof.Machine

/-! ### Handles (03 R68 to R72) -/

def handleGen (h : BitVec 32) : BitVec 12 := h.extractLsb' 20 12
def handleSlot (h : BitVec 32) : Nat := (h.extractLsb' 0 20).toNat
def mkHandle (gen : BitVec 12) (slot : Nat) : BitVec 32 := gen ++ BitVec.ofNat 20 slot
/-- The generation after a delete: 0xFFF is followed by 0x001 (03 R72). -/
def nextGen (g : BitVec 12) : BitVec 12 := if g = 0xFFF then 0x001 else g + 1
/-- The generation of every slot at a start (03 R71), and after an unlock that follows a Breach (17 R594). -/
def startGen (n : Nat) : BitVec 12 := BitVec.ofNat 12 (1 + n % 4095)

/-! ### Slots -/

/-- A slot nobody has written since the last marking: Free, of the generation of that marking (log entry 5). -/
def freeSlot (k : KeyStore) : Slot := { gen := k.gen0 }
def slotOf (i : Nat) (k : KeyStore) : Slot := tabGetD i (freeSlot k) k.slots
/-- Write a slot, keeping the array's canonical form. -/
def putSlot (i : Nat) (s : Slot) (k : KeyStore) : KeyStore := { k with slots := memSet (freeSlot k) i s k.slots }
/-- Slots that are not Free, and slots a tenant holds, its tenant-root slot excluded (03 R122, R127). -/
def slotsUsed (k : KeyStore) : Nat := (k.slots.filter (fun p => p.2.state ≠ .free)).length
def tenantUsed (t : Nat) (k : KeyStore) : Nat :=
  (k.slots.filter (fun p => decide (p.2.tenant = t) && p.2.state ≠ .free && p.2.state ≠ .root)).length

/-- The stored byte of a state (03 R76 byte 71). -/
def slotStateNo : SlotState → Nat
  | .free => 0
  | .active => 1
  | .continuation => 2
  | .suspended => 3
  | .root => 4

/-- Bytes 64 to 79 of a record, with the state, generation and epoch given (03 R76). -/
def attrBytes (s : Slot) (st : Nat) (gen : BitVec 12) (epoch : Bool) : Bytes :=
  [s.keyClass, s.keyParam] ++ leBytes 2 s.usage.toNat ++ [s.exportBits, s.origin, BitVec.ofNat 8 s.tenant,
    BitVec.ofNat 8 st] ++
  leBytes 2 (gen.toNat + (if s.seedForm then 0x4000 else 0) + (if epoch then 0x8000 else 0)) ++
  [s.suite, s.rootVersion] ++ leBytes 2 s.policySet.toNat ++ [0, 0]
/-- Bytes 0 to 111 of the stored record (03 R75, R81). -/
def recordBytes (s : Slot) : Bytes :=
  bvBytes 64 s.material ++ attrBytes s (slotStateNo s.state) s.gen s.epoch ++
  leBytes 4 s.usageCount.toNat ++ leBytes 4 s.usageLimit.toNat ++
  leBytes 4 (s.next + 0x100000 * s.position + (if s.last then 0x80000000 else 0)) ++
  leBytes 4 (s.head + 0x1000000 * s.length) ++ fit 8 s.checkValue ++ fit 8 s.fingerprint

/-! ### Masking and integrity (03 R96 to R98) -/

/-- The masking root of an epoch (03 R96). -/
def rootOf (epoch : Bool) (c : Custody) : BitVec 256 := if epoch then c.root1 else c.root0
/-- A counter block: 0x4B, the slot index in 3 bytes, the block number, 11 zero bytes (03 R97). -/
def maskBlock (i j : Nat) : BitVec 128 :=
  bytesBv 128 ([0x4B] ++ leBytes 3 i ++ [BitVec.ofNat 8 j] ++ List.replicate 11 0)
/-- The 64 masking bytes of a slot under a root (03 R97). -/
def maskPad (root : BitVec 256) (i : Nat) : BitVec 512 :=
  let key := bvBytes 32 (Config.maskKey root)
  aesEncrypt key (maskBlock i 0) ++ aesEncrypt key (maskBlock i 1) ++
  aesEncrypt key (maskBlock i 2) ++ aesEncrypt key (maskBlock i 3)
/-- The block that holds the slot index and epoch bit (03 R98; its layout is a DESIGN CHOICE). -/
def tagBlock (i : Nat) (epoch : Bool) : BitVec 128 :=
  bytesBv 128 (leBytes 3 i ++ [if epoch then 1 else 0] ++ List.replicate 12 0)
/-- The integrity tag of a record, under a hash key from the tag key (03 R98). -/
def slotTag (root : BitVec 256) (i : Nat) (s : Slot) : BitVec 128 :=
  ghash (Config.tagHashKey (Config.tagKey root)) (recordBytes s ++ bvBytes 16 (tagBlock i s.epoch)) ^^^
  aesEncrypt (bvBytes 32 (Config.tagKey root)) (tagBlock i s.epoch)

/-- The material a slot delivers: its stored form unmasked under the root of its epoch. -/
def delivered (c : Custody) (i : Nat) (s : Slot) : BitVec 512 := s.material ^^^ maskPad (rootOf s.epoch c) i
/-- A record sealed under the root of its epoch: clear material masked, the tag computed. -/
def sealSlot (c : Custody) (i : Nat) (clear : BitVec 512) (s : Slot) : Slot :=
  let s := { s with material := clear ^^^ maskPad (rootOf s.epoch c) i }
  { s with tag := slotTag (rootOf s.epoch c) i s }
def tagOk (c : Custody) (i : Nat) (s : Slot) : Bool := s.tag == slotTag (rootOf s.epoch c) i s
/-- Conversion of one record from its epoch to the other (03 R106, R107). -/
def convert (c : Custody) (i : Nat) (s : Slot) : Slot := sealSlot c i (delivered c i s) { s with epoch := !s.epoch }
/-- Change clear fields of a record and recompute its tag. -/
def retag (c : Custody) (i : Nat) (s : Slot) : Slot := { s with tag := slotTag (rootOf s.epoch c) i s }
/-- A record that a commit writes carries the epoch given to new records: during a re-mask, the new one (03 R108, R112). -/
def recommit (c : Custody) (k : KeyStore) (i : Nat) (f : Slot → Slot) : Slot :=
  let s := slotOf i k
  retag c i (f (if s.epoch = k.epoch then s else convert c i s))

/-! ### The array (03 R95, R106, R107) -/

/-- One round of the Feistel network on the halves (high, low) of an index of `bits` bits: the halves change places, and the
round's value of one is added to the other. -/
def feistelRound (key : BitVec 128) (bits round : Nat) (v : Nat × Nat) : Nat × Nat :=
  let lowBits := if round % 2 = 0 then bits / 2 else bits - bits / 2
  (v.2, (v.1 ^^^ Config.feistelValue key round v.2) % 2 ^ (bits - lowBits))
/-- The physical row of a slot: a four-round Feistel network over the part's index width, keyed by the scramble key (03 R95). -/
def physicalRow (key : BitVec 128) (bits i : Nat) : Nat :=
  let low := bits / 2
  let v := (List.range 4).foldl (fun v r => feistelRound key bits r v) (i / 2 ^ low, i % 2 ^ low)
  v.1 * 2 ^ low + v.2
def rowOfSlot (i : Nat) (d : Device) : Nat := physicalRow d.custody.scrambleKey (slotBits d.fuses.part) i
/-- The bank of the array in which a row stands, of 64 (05 R175; log entry 88). -/
def arrayBanks : Nat := 64
def bankOfSlot (i : Nat) (d : Device) : Nat := rowOfSlot i d % arrayBanks
/-- The conversion of a slot by the re-mask in progress has ended; with none in progress, every slot is of the epoch. -/
def converted (i : Nat) (k : KeyStore) : Bool := !k.remaskActive || decide (i < k.cursor)
/-- The record that the array holds at an index. A Free slot that nobody has written since the marking is not listed: its
material is masked zeros, its epoch bit that of its conversion, and its tag that of its record (03 R107, log entry 5). -/
def recordOf (i : Nat) (d : Device) : Slot :=
  match tabGet i d.keys.slots with
  | some s => s
  | none => if d.keys.gen0 = 0 then {} else sealSlot d.custody i 0 { freeSlot d.keys with epoch := if converted i d.keys then d.keys.epoch else !d.keys.epoch }

/-! ### Chains and material (03 R77, R81, R82) -/

/-- The bytes of key material of a class and parameter (03 R82). A DUKPT originator holds 44 bytes (10 R354). -/
def materialLen (cls param : Nat) (originator : Bool) : Nat :=
  match cls with
  | 0x01 => 16 | 0x02 => 24 | 0x03 => param | 0x04 => param
  | 0x05 => if originator then 44 else param
  | 0x06 => if originator then 44 else param
  | 0x10 => 80 * param + 8 | 0x11 => 32 * param + 8
  | 0x18 => curveBytes param | 0x19 => 2 * curveBytes param
  | 0x1A => curveBytes param | 0x1B => curveBytes param
  | 0x20 => 64
  | 0x21 => if param = 2 then 800 else if param = 3 then 1184 else 1568
  | 0x28 => 32
  | 0x29 => if param = 44 then 1312 else if param = 65 then 1952 else 2592
  | 0x30 => 48 | 0x31 => if param = 1 then 56 else 60 | 0x3F => 32
  | _ => 0
/-- A DUKPT originator: usage bit 6 set and bit 8 clear, of class 0x05 or 0x06 (10 R340). -/
def isOriginator (cls : Byte) (usage : BitVec 16) : Bool :=
  (cls == 0x05 || cls == 0x06) && usage.getLsbD 6 && !usage.getLsbD 8
def isBaseKey (cls : Byte) (usage : BitVec 16) : Bool :=
  (cls == 0x05 || cls == 0x06) && usage.getLsbD 8 && !usage.getLsbD 6
/-- Slots of a chain for a number of bytes. -/
def slotsFor (bytes : Nat) : Nat := max 1 (ceilDiv bytes 64)

/-- The slots of a chain from a head, in order (03 R81). -/
def chainGo (k : KeyStore) : Nat → Nat → List Nat
  | 0, _ => []
  | fuel + 1, i => i :: (if (slotOf i k).last then [] else chainGo k fuel (slotOf i k).next)
def chainOf (head : Nat) (k : KeyStore) : List Nat := chainGo k (slotOf head k).length head
/-- Bytes of a symmetric key by its class and parameter. -/
def keyLen (cls param : Byte) : Nat := if cls = 0x01 then 16 else if cls = 0x02 then 24 else if cls = 0x3F then 32 else param.toNat
/-- The material of a key, unmasked in chain order and cut to its class's length. -/
def keyBytes (d : Device) (head : Nat) : Bytes :=
  let s := slotOf head d.keys
  ((chainOf head d.keys).flatMap (fun i => bvBytes 64 (delivered d.custody i (slotOf i d.keys)))).take
    (materialLen s.keyClass.toNat s.keyParam.toNat (isOriginator s.keyClass s.usage))

/-! ### The checks of a lookup (03 R74, R99, R101; 10 R736 order) -/

/-- The check of R74: a slot of the tenant, of the handle's generation, that is the head of a key. -/
def handleOk (t : Nat) (h : BitVec 32) (k : KeyStore) : Bool :=
  let s := slotOf (handleSlot h) k
  decide (256 ≤ handleSlot h) && (s.state == .active || s.state == .suspended) && decide (s.tenant = t) &&
  s.gen == handleGen h
/-- Slot index range, then the handle (03 R4, R74; 04 R736). -/
def lookupCode (t : Nat) (h : BitVec 32) (d : Device) : Code :=
  if slotCount d ≤ handleSlot h then 0x0201
  else if d.keys.refusing || d.keys.halted then 0x0202
  else if handleOk t h d.keys then 0x0000 else 0x0202
/-- Every slot of a chain carries a matching tag and is not in the fault map (03 R99). -/
def chainSound (head : Nat) (d : Device) : Bool :=
  (chainOf head d.keys).all (fun i => tagOk d.custody i (slotOf i d.keys) && !d.keys.faultMap.contains i)
/-- The checks of a key in the order of 04 R736: range, handle, class and parameter, Suspended, usage bit. -/
def keyCheck (t : Nat) (h : BitVec 32) (classOk : Slot → Bool) (usageBit : Option Nat) (d : Device) : Code :=
  let s := slotOf (handleSlot h) d.keys
  if lookupCode t h d ≠ 0x0000 then lookupCode t h d
  else if !classOk s then 0x0203
  else if s.state == .suspended then 0x0204
  else match usageBit with
    | some b => if s.usage.getLsbD b then 0x0000 else 0x0401
    | none => 0x0000

/-! ### Check values and fingerprints (11 R383, R384) -/

def checkValueOf (cls : Byte) (material : Bytes) : Bytes :=
  if cls = 0x01 ∨ cls = 0x02 ∨ cls = 0x05 then (tdesEnc material (List.replicate 8 0)).take 3
  else if cls = 0x03 ∨ cls = 0x06 then (bvBytes 16 (aesCmac material (List.replicate 16 0))).take 5
  else if cls = 0x04 then (hmacOf 0x62 32 material (List.replicate 32 0)).take 5
  else []
/-- An RSA private key's parts: p, q, dp, dq, qinv of n/16 bytes each, e in 8 (03 R82); big-endian, e as R82 places it. -/
def rsaPart (param : Nat) (material : Bytes) (n : Nat) : Nat := beNat (field material (16 * param * n) (16 * param))
def rsaModulus (param : Nat) (material : Bytes) : Nat := rsaPart param material 0 * rsaPart param material 1
/-- The public key's encoding of a private key, a seed or a public key (11 R384; the RSA and EC forms are those of
03 R82, DEDUCED), with the blinding values of the multiple of a private scalar, or the schedule of polynomial mode (06 R211; 07
R248, R254). -/
def publicOf (cls param : Byte) (material : Bytes) (sch : Schedule) : Bytes :=
  if cls = 0x10 then beBytes (32 * param.toNat) (rsaModulus param.toNat material) ++ field material (80 * param.toNat) 8
  else if cls = 0x18 then curvePublic param (beNat material) sch.draw
  else if cls = 0x1A then eddsaPublic param material sch.draw
  else if cls = 0x20 then mlKemPublic sch param material
  else if cls = 0x28 then mlDsaPublic sch param material
  else if cls = 0x30 then lmsPublic param material
  else material
def symmetricClass (cls : Byte) : Bool := decide (cls.toNat < 0x10) || cls == 0x3F
def fingerprintOf (cls param : Byte) (material : Bytes) : Bytes :=
  let n := if cls = 0x01 then 16 else if cls = 0x02 then 24 else if cls = 0x3F then 32 else param.toNat
  (sha256 (if symmetricClass cls then ascii "KYFP".toList ++ [cls, param] ++ field material 0 n
           else publicOf cls param material {})).take 8

/-! ### Allocation, deletion, usage (03 R84 to R92) -/

/-- `n` distinct free slots for the next allocation: Yunante chooses them (03 R87); the choice is open. -/
def freeGo (k : KeyStore) (size : Nat) : Nat → Nat → Nat → List Nat → List Nat
  | 0, _, _, acc => acc
  | _ + 1, 0, _, acc => acc
  | fuel + 1, want + 1, i, acc =>
    let j := 256 + (i % (size - 256))
    if (slotOf j k).state == .free && !acc.contains j then freeGo k size fuel want (i + 1) (acc ++ [j])
    else freeGo k size fuel (want + 1) (i + 1) acc
def chooseSlots (d : Device) (n : Nat) : List Nat :=
  freeGo d.keys (slotCount d) (n + d.keys.slots.length) n (Config.slotChoice d.keys.allocations) []
/-- Free slots of the part, the reserved ones excepted. -/
def freeCount (d : Device) : Nat :=
  slotCount d - 256 - (d.keys.slots.filter (fun p => decide (256 ≤ p.1) && p.2.state ≠ .free)).length

/-- One slot of a new chain: the head holds the attributes, a Continuation its state and tenant (03 R83). A Continuation keeps
the generation of its slot and takes the epoch of new records: 03 R71 and R108 give every slot both (DESIGN CHOICE, log entry
84: R83 does not say whether they are among the attribute bytes that are zero). -/
def newSlot (d : Device) (head : Slot) (slots : List Nat) (pos : Nat) (material : Bytes) : Option (Nat × Slot) :=
  match slots[pos]?, slots.head? with
  | some i, some h =>
    let last := decide (pos + 1 = slots.length)
    let link : Slot → Slot := fun s =>
      { s with last := last, position := pos, next := (slots[pos + 1]?).getD i, head := h,
               gen := (slotOf i d.keys).gen, epoch := d.keys.epoch }
    let s := if pos = 0 then { link head with length := slots.length }
             else link { state := .continuation, tenant := head.tenant }
    some (i, sealSlot d.custody i (bytesBv 512 (fit 64 (material.drop (64 * pos)))) s)
  | _, _ => none
/-- Write a chain into chosen slots. -/
def writeChain (d : Device) (head : Slot) (material : Bytes) (slots : List Nat) : KeyStore :=
  ((List.range slots.length).filterMap (fun p => newSlot d head slots p material)).foldl
    (fun k p => putSlot p.1 p.2 k) { d.keys with allocations := d.keys.allocations + 1 }

/-- The record a deleted slot holds: material zero, generation raised, masked under the epoch of records that a commit writes (03 R89).
During a re-mask that is the new epoch, also for a slot not yet converted (DEDUCED from 03 R108, R112 beside R89, which says that the epoch
stays; log entry 89). -/
def deletedSlot (c : Custody) (epoch : Bool) (i : Nat) (s : Slot) : Slot := sealSlot c i 0 { gen := nextGen s.gen, epoch }
/-- Delete every slot of the chain of a head (03 R84, R89); a fault-map bit ends with the slot (03 R99). -/
def deleteChain (d : Device) (head : Nat) : KeyStore :=
  (chainOf head d.keys).foldl
    (fun k i => putSlot i (deletedSlot d.custody d.keys.epoch i (slotOf i d.keys)) { k with faultMap := k.faultMap.filter (fun j => j ≠ i) })
    d.keys

/-- The compare of R91 on one key of a commit set: tenant, generation and state, then the limit. -/
def usageCheck (t : Nat) (head : Nat) (gen : BitVec 12) (k : KeyStore) : Code :=
  let s := slotOf head k
  if s.tenant ≠ t ∨ s.gen ≠ gen ∨ (s.state ≠ .active ∧ s.state ≠ .suspended) then 0x0202
  else if s.state = .suspended then 0x0204
  else if s.usageLimit ≠ 0 ∧ s.usageCount = s.usageLimit then 0x0402
  else 0x0000
/-- The increment of R91: by one, saturating (03 R92); the tag is recomputed. -/
def useOnce (c : Custody) (head : Nat) (k : KeyStore) : KeyStore :=
  putSlot head (recommit c k head (fun s => { s with usageCount := satInc s.usageCount })) k

/-! ### Tenant roots (03 R70, 16 R555) -/

/-- A tenant holds a root in its reserved slot. -/
def hasRoot (t : Nat) (d : Device) : Bool := (slotOf t d.keys).state == .root
def tenantRoot (t : Nat) (d : Device) : Bytes := keyBytes d t
/-- The record of a tenant root (03 R70, R77 class 0x3F). -/
def rootSlot (t : Nat) (version suite : Byte) (root : Bytes) (s : Slot) : Slot :=
  { keyClass := 0x3F, keyParam := suite, tenant := t, state := .root, gen := s.gen, rootVersion := version,
    suite := suite, last := true, next := t, head := t, length := 1, fingerprint := fingerprintOf 0x3F suite root }
def loadRoot (t : Nat) (version suite : Byte) (root : Bytes) (d : Device) : Device :=
  { d with keys := putSlot t (sealSlot d.custody t (bytesBv 512 (fit 64 root))
      { rootSlot t version suite root (slotOf t d.keys) with epoch := d.keys.epoch }) d.keys }

/-- The key under which persistence blocks of a root are encrypted (11 R385, R386). -/
def persKey (suite : Byte) (root : Bytes) : Bytes :=
  if suite = 0x02 then kdfHmac root (label "PERS") [] 32 else kdfCmac root (label "PERS") [] 32

end Sys2Proof.Machine
end

