-- ==== Sys2Proof/Machine/Rates.lean ====
section
/-! DEFINITION. Speed factors (02 R47, R48; 04 R156), floors (04 R155, R157; 06 R223 to R226) and what each recipe
needs (04 R740). -/

namespace Sys2Proof.Machine

/-! ### The speed factor, in exact integers -/

/-- One segment of a column of R47: from (x0, f0) to (x1, f1), scaled so that the factor is an integer over `scale`. -/
def segment (scale x0 f0 x1 f1 x : Int) : Int := f0 * scale + (x - x0) * (f1 - f0) * (scale / (x1 - x0))

/-- The supply factor of a supply in mV, in units of 1/50,000 (02 R47, R48). -/
def supplyFactor (mv : Int) : Int :=
  if mv < 750 then segment 50 700 650 750 770 mv
  else if mv < 800 then segment 50 750 770 800 890 mv
  else if mv < 850 then segment 50 800 890 850 1000 mv
  else if mv < 900 then segment 50 850 1000 900 1100 mv
  else segment 50 900 1100 950 1190 mv

/-- The temperature factor of a junction in °C, in units of 1/700,000 (02 R47, R48). -/
def tempFactor (c : Int) : Int :=
  if c < 0 then segment 700 (-20) 1080 0 1060 c
  else if c < 25 then segment 700 0 1060 25 1030 c
  else if c < 60 then segment 700 25 1030 60 1000 c
  else if c < 85 then segment 700 60 1000 85 940 c
  else segment 700 85 940 105 893 c

/-- The speed code: the unrounded product times 256, rounded once, a half up (04 R156); held in 9 bits, at most 511. -/
def speedCode (mv c : Int) : BitVec 9 :=
  let p := supplyFactor mv * tempFactor c * 512 + 35000000000
  BitVec.ofNat 9 (min 511 ((p / 70000000000).toNat))

/-- floor_eff = ceil(floor × 256 / speed_code) (04 R155). -/
def floorEff (floor speed : Nat) : Nat := ceilDiv (floor * 256) speed

/-! ### Opcodes -/

/-- The verbs of the manual (10 R339, 11 R389, R404, R409, R417, 15 R538, 16 R570, 18, 19 R640, 20 R666, 22 R693). -/
def nativeVerbs : List Nat :=
  [0x0101, 0x0102, 0x0103, 0x0104, 0x0105, 0x0106, 0x0107, 0x0108, 0x0109, 0x010A, 0x010B, 0x010C, 0x010D, 0x010E,
   0x010F, 0x0110, 0x0111] ++
  [0x0201, 0x0202, 0x0203, 0x0204, 0x0205, 0x0206, 0x0207, 0x0301, 0x0302, 0x0401, 0x0402, 0x0501, 0x0502, 0x0503,
   0x0504] ++
  [0x0601, 0x0602, 0x0603, 0x0604, 0x0605, 0x0606, 0x0607, 0x0608, 0x0609, 0x060A, 0x060B, 0x060C, 0x060D, 0x0701,
   0x0702, 0x0703, 0x0704, 0x0705, 0x0706] ++
  [0x0801, 0x0802, 0x0803, 0x0804, 0x0901, 0x0A10, 0x0A11, 0x0A12, 0x0A20, 0x0A21, 0x0A30, 0x0A40, 0x0A50, 0x0B01,
   0x0B02, 0x0B03, 0x0B04, 0x0B05, 0x0B06]
/-- Verbs absent in the Izvi personality (21 R686). -/
def izviAbsent (op : Nat) : Bool := decide (op / 256 = 0x07) || decide (0x0802 ≤ op ∧ op ≤ 0x0804)
/-- An opcode that names a verb of the present personality (04 R738). -/
def verbPresent (d : Device) (op : Nat) : Bool := nativeVerbs.contains op && !(izvi d && izviAbsent op)

/-- The engine kinds a recipe needs: Marver, cipher, Punty (04 R740). `cls` is the class of a component session's
template, for 0x0107. -/
def needs (op : Nat) (params : Bytes) (cls : Byte) : Bool × Bool × Bool :=
  let alg := (byteAt params 4).toNat
  if op / 256 = 0x02 ∨ op / 256 = 0x03 ∨ op / 256 = 0x04 ∨ op = 0x0501 ∨ op = 0x0502 then (false, true, false)
  else if op = 0x0503 ∨ op = 0x0504 then (false, decide (0x08 ≤ alg ∧ alg ≤ 0x1A), decide (0x61 ≤ alg ∧ alg ≤ 0x74))
  else if op = 0x0101 ∨ op = 0x0102 ∨ op = 0x0104 ∨ op = 0x0108 ∨ op = 0x0109 then (false, true, true)
  else if op = 0x0107 then (false, cls != 0x04, cls == 0x04)
  else if op = 0x0103 then (false, true, false)
  else if op = 0x010A ∨ op = 0x010B ∨ op = 0x060D then (true, true, true)
  else if op = 0x010E then (false, true, true)
  else if op = 0x0601 ∨ op = 0x0606 ∨ op = 0x060A ∨ op = 0x0701 ∨ op = 0x0704 ∨ op = 0x0609 ∨ op = 0x0702 ∨ op = 0x0703
    then (true, true, true)
  else if op = 0x0705 ∨ op = 0x0706 then (true, false, byteAt params 8 == 0x02)
  else if op / 256 = 0x06 then (true, false, true)
  else if op = 0x0801 ∨ op = 0x0802 ∨ op = 0x0804 then (false, false, true)
  else if op = 0x0803 then (false, true, true)
  else (false, false, false)

/-! ### Floors -/

/-- The floor of an RSA private, RSA public and RSA key generation class (06 R223). -/
def rsaPrivateFloor (n : Nat) : Nat := 12800 * n ^ 3 / 2048 ^ 3
def rsaPublicFloor (n eBits : Nat) : Nat := 400 * n ^ 2 * (eBits + 1) / (18 * 2048 ^ 2)
def rsaGenFloor (n : Nat) : Nat :=
  if n = 2048 then 1600000 else if n = 3072 then 6400000 else if n = 4096 then 19200000 else 230400000
/-- ECDSA sign, verify, ECDH, key generation of a curve; EdDSA sign, verify, key generation (06 R223). -/
def curveFloors (c : Nat) : Nat × Nat × Nat × Nat :=
  match c with
  | 0x02 => (3350, 6030, 3240, 2950) | 0x05 => (3350, 6030, 3240, 2950)
  | 0x06 => (7380, 13280, 7130, 6490) | 0x03 => (7510, 13520, 7260, 6600)
  | 0x10 => (910, 1640, 0, 800) | 0x11 => (4100, 7380, 0, 3600)
  | _ => (1138, 2048, 1100, 1000)
/-- ML-KEM key generation, encapsulate, decapsulate; ML-DSA key generation, sign, verify. -/
def mlKemFloors (k : Nat) : Nat × Nat × Nat :=
  if k = 2 then (370, 420, 530) else if k = 4 then (930, 1050, 1320) else (600, 680, 853)
def mlDsaFloors (p : Nat) : Nat × Nat × Nat :=
  if p = 44 then (850, 1790, 750) else if p = 87 then (2050, 3420, 1820) else (1300, 2560, 1138)
/-- Bits of a public exponent. -/
def bitsOf (e : Nat) : Nat := if e = 0 then 0 else Nat.log2 e + 1

/-- Bits of the exponent of an RSA public key's material (06 R223). -/
def exponentBits (param : Nat) (material : Bytes) : Nat := bitsOf (beNat (field material (32 * param) 8))
/-- The request's public key stands in its input: options[3] of a 0x06xx or 0x07xx verb (11 R405). -/
def keyInInput (op : Nat) (params : Bytes) : Bool := (op / 256 == 6 || op / 256 == 7) && (byteAt params 10).getLsbD 3
/-- The key that sizes a public-key floor, and the bits of its public exponent: that of the input when it stands there, that
of key_a when its handle is valid, and else the smallest of its class (DESIGN CHOICE: the floor of a refused handle). -/
def floorKey (d : Device) (t op : Nat) (params input : Bytes) (cls : Byte) : Nat × Nat :=
  let h := BitVec.ofNat 32 (num params 0 4)
  let s := slotOf (handleSlot h) d.keys
  if keyInInput op params then
    let n := (Config.inputKeyParam cls input).toNat
    (n, exponentBits n input)
  else if handleOk t h d.keys && (s.keyClass == cls) then
    (s.keyParam.toNat, exponentBits s.keyParam.toNat (keyBytes d (handleSlot h)))
  else (if cls = 0x10 ∨ cls = 0x11 then 8 else if cls = 0x28 ∨ cls = 0x29 then 65 else if cls = 0x20 ∨ cls = 0x21 then 3 else 1, 17)
/-- The class of key_a when its handle is valid. -/
def keyClassA (d : Device) (t : Nat) (params : Bytes) : Byte :=
  let h := BitVec.ofNat 32 (num params 0 4)
  if handleOk t h d.keys then (slotOf (handleSlot h) d.keys).keyClass else 0

/-- The nominal floor of a recipe, before steps: 0 means no floor (04 R157, 06 R223). The table has no row for 0x060D: the model
gives it the public-key floor of the imported key's class (DESIGN CHOICE: log entry 29). -/
def baseFloor (d : Device) (t op : Nat) (params input : Bytes) (outCap : Nat) : Nat :=
  let L := input.length
  let fk := floorKey d t op params input
  let tCls := byteAt params 16
  let tPar := (byteAt params 17).toNat
  if op = 0x0201 ∨ op = 0x0202 ∨ op = 0x0207 then 29
  else if op / 256 = 0x02 then 36
  else if op / 256 = 0x03 then 26
  else if op / 256 = 0x04 then 38
  else if op / 256 = 0x05 then 16 + ceilDiv L 256
  else if op = 0x010A then
    if keyClassA d t params = 0x21 then (mlKemFloors (fk 0x21).1).2.1 else rsaPublicFloor (256 * (fk 0x11).1) (fk 0x11).2
  else if op = 0x010B then
    if keyClassA d t params = 0x20 then (mlKemFloors (fk 0x20).1).2.2 else rsaPrivateFloor (256 * (fk 0x10).1)
  else if op / 256 = 0x01 then 48
  else if op = 0x0601 then rsaGenFloor (256 * tPar)
  else if op = 0x0602 ∨ op = 0x0604 then rsaPrivateFloor (256 * (fk 0x10).1)
  else if op = 0x0603 ∨ op = 0x0605 then rsaPublicFloor (256 * (fk 0x11).1) (fk 0x11).2
  else if op = 0x0606 ∨ op = 0x060A then (curveFloors tPar).2.2.2
  else if op = 0x0607 then (curveFloors (fk 0x18).1).1
  else if op = 0x0608 then (curveFloors (fk 0x19).1).2.1
  else if op = 0x0609 then (curveFloors (fk 0x18).1).2.2.1
  else if op = 0x060B then (curveFloors (if (fk 0x1A).1 = 0x11 then 0x11 else 0x10)).1
  else if op = 0x060C then (curveFloors (if (fk 0x1B).1 = 0x11 then 0x11 else 0x10)).2.1
  else if op = 0x060D then
    if tCls = 0x11 then rsaPublicFloor (256 * tPar) (exponentBits tPar input) else if tCls = 0x21 then (mlKemFloors tPar).2.1
    else if tCls = 0x29 then (mlDsaFloors tPar).2.2 else (curveFloors tPar).2.1
  else if op = 0x0701 then (mlKemFloors tPar).1
  else if op = 0x0702 then (mlKemFloors (fk 0x21).1).2.1
  else if op = 0x0703 then (mlKemFloors (fk 0x20).1).2.2
  else if op = 0x0704 then (mlDsaFloors tPar).1
  else if op = 0x0705 then (mlDsaFloors (fk 0x28).1).2.1
  else if op = 0x0706 then (mlDsaFloors (fk 0x29).1).2.2
  else if op = 0x0802 then 1600
  else if op / 256 = 0x08 then 8 + ceilDiv L 1024
  else if op = 0x0901 then 12 + ceilDiv outCap 512
  else 0

/-- The step of a Marver operation at an over-hold limit of L µs (06 R225). -/
def stepTicks (limitUs : Nat) : Nat := if limitUs < 20 then 58 * limitUs * 32 / 100 else 371
/-- Classes whose operations run on Marver in steps (06 R225, R226). -/
def steppedClass (op : Nat) : Bool :=
  op / 256 = 0x06 || op / 256 = 0x07 || op = 0x0802 || op = 0x010A || op = 0x010B
/-- The floor raised for added steps when the over-hold limit is below 20 µs (06 R226). -/
def steppedFloor (floor limitUs : Nat) : Nat :=
  if limitUs < 20 then floor + 8 * (ceilDiv floor (stepTicks limitUs) - ceilDiv floor 371) else floor
def nominalFloor (d : Device) (t op : Nat) (params input : Bytes) (outCap : Nat) : Nat :=
  let f := baseFloor d t op params input outCap
  if steppedClass op then steppedFloor f d.shares.limitUs.toNat else f

/-! ### Segments (08 R270, R284, R296) -/

/-- A cipher algorithm of AES (08 R270). -/
def algAes (alg : Nat) : Bool := decide (alg < 0x10)
/-- The block of a code, or the rate (08 R270, R286). -/
def algBlock (alg : Nat) : Nat := if alg < 0x10 then 16 else if alg < 0x20 then 8 else if isHmac alg then hashRate (alg - 0x40) else hashRate alg
/-- The rate of an engine at the worst corner, in tens of megabytes per second, by algorithm code, bytes of the key and direction (08
R296): AES and TDES are faster in the modes that run in parallel. -/
def worstRate (alg keyLength : Nat) (reverse : Bool) : Nat :=
  let h := if isHmac alg then alg - 0x40 else alg
  let parallel := alg % 16 == 1 || alg == 0x06 || alg == 0x07 || (alg % 16 == 2 && reverse)
  if alg < 0x10 then
    if keyLength = 16 then (if parallel then 232 else 77) else if keyLength = 24 then (if parallel then 193 else 64)
    else if parallel then 166 else 55
  else if alg = 0x1A then 58
  else if alg < 0x20 then (if parallel then 58 else 19)
  else if h = 0x21 ∨ h = 0x22 then 116
  else if h < 0x30 then 186
  else if h = 0x31 then 246 else if h = 0x33 then 177 else if h = 0x34 then 123 else if h = 0x38 then 287 else 232
/-- Blocks of a segment: the most whole blocks whose duration at the worst corner does not exceed 10 µs and half the over-hold limit
(08 R284). -/
def segmentBlocks (alg keyLength : Nat) (reverse : Bool) (limitUs : Nat) : Nat :=
  min 10000 (500 * limitUs) * worstRate alg keyLength reverse / 100 / algBlock alg

/-! ### Stepped operations (04 R163 to R166, 06 R225) -/

/-- Verbs that always run stepped (04 R166; 11 R391, R403, R410; 15 R541). -/
def alwaysStepped (op : Nat) : Bool :=
  [0x0601, 0x0705, 0x0803, 0x010E, 0x0110, 0x0A10, 0x0A11, 0x0A12].contains op
/-- Progressive operations commit at the Retire of each step (04 R166). -/
def progressive (op : Nat) : Bool := op = 0x010E || op = 0x0110
/-- A request whose job runs as a stepped operation. -/
def steppedJob (d : Device) (t op : Nat) (params input : Bytes) (outCap : Nat) : Bool :=
  alwaysStepped op || (steppedClass op && decide (stepTicks d.shares.limitUs.toNat < baseFloor d t op params input outCap))

end Sys2Proof.Machine
end

