-- ==== Sys2Proof/Machine/ShareOps.lean ====
section
/-! DEFINITION. Shares and arbitration (05): credits, grants, parking and the arbiter. Kinds are the codes of R175. -/

namespace Sys2Proof.Machine

def creditKey (kind t : Nat) : Nat := 256 * kind + t
def creditOf (kind t : Nat) (d : Device) : Credit := tabGetD (creditKey kind t) {} d.shares.credits
def setCredit (kind t : Nat) (c : Credit) (d : Device) : Device :=
  { d with shares := { d.shares with credits := tabSet (creditKey kind t) c d.shares.credits } }
/-- The value by which a request is ranked: one that arrived in the tick of a charge or refill, by the value before
(05 R185). -/
def rankOf (arrived : Nat) (c : Credit) : Int := if c.changedAt = arrived then c.before else c.counter
/-- Change a counter at a tick, keeping the value before the tick's first change. -/
def creditTo (tick : Nat) (v : Int) (c : Credit) : Credit :=
  { c with counter := v, before := if c.changedAt = tick then c.before else c.counter, changedAt := tick }
/-- Charge a tenant (05 R181). -/
def charge (kind t n : Nat) (d : Device) : Device :=
  let c := creditOf kind t d
  setCredit kind t (creditTo d.time.ticks (c.counter - (n : Int)) c) d

/-- Weight of a tenant for a kind: 1 without a record (05 R179). -/
def weightOf (t kind : Nat) (d : Device) : Nat := tabGetD kind 1 (tenantOf t d).weights

/-- Engines of a kind in service in a bench. -/
def inServiceOf (k : EngineKind) (b : Bench) : List Nat :=
  if b.inService then ((engineBlock k b).engines.filter (fun p => p.2.state == .inService)).map (·.1) else []
/-- The units of a kind of a bench that could be granted at all (05 R175). The hub is one unit for the part. -/
def unitsOf (bench kind : Nat) (d : Device) : List Nat :=
  let b := benchOf bench d
  match kind with
  | 0 => inServiceOf .marver b
  | 1 => inServiceOf .cipher b
  | 2 => inServiceOf .punty b
  | 3 => if b.inService then [0, 1] else []
  | 4 =>
    let i := instOf bench d.gather
    if b.inService && i.ready && !i.stopped && !i.waiting then [0] else []
  | _ => if b.inService then [0] else []
/-- The capacity of a kind per window from the units in service (05 R176). -/
def capacityOf (kind : Nat) (d : Device) : Nat :=
  let units := fun k => (d.benches.map (fun p => (unitsOf p.1 k d).length)).sum
  if kind < 3 then 320 * units kind
  else if kind = 3 then 1250 * units 3
  else if kind = 4 then 320 * (d.benches.filter (fun p => p.2.inService && (instOf p.1 d.gather).ready)).length
  else 2560

/-- Two grants contend for one unit: the same bench, but for the central hub (kind 5). -/
def sameUnit (bench kind unit : Nat) (g : Grant) : Bool :=
  decide (g.kind = kind) && decide (g.unit = unit) && (decide (g.bench = bench) || decide (kind = 5))
/-- Units free to be granted: no grant holds them; a parked unit counts as free (05 R188). -/
def freeUnits (bench kind : Nat) (d : Device) : List Nat :=
  (unitsOf bench kind d).filter (fun u => !(d.shares.grants.any (fun g => sameUnit bench kind u g && !g.parked)))

/-! ### Engines under a grant (06 R231, R233, R239, R240; 08 R282, R301, R302) -/

/-- Add to a counter of an engine and of its bench: per-engine counters stand from 0x100 on, 16 to an engine. -/
def engineAdd (b : Nat) (k : EngineKind) (n c v : Nat) (d : Device) : Device :=
  modBench b (modEngineBlock k (fun x => { x with ctr := ctrAdd (0x100 + 16 * n + c) v (ctrAdd c v x.ctr) })) d
/-- The work of a job adds to a counter of an engine and of its bench; it counts when the job retires (04 R142). -/
def engineWork (b : Nat) (k : EngineKind) (n c v job : Nat) (d : Device) : Device :=
  modBench b (fun x => { x with work := x.work ++ [{ job, kind := k, counter := c, amount := v },
                                                   { job, kind := k, counter := 0x100 + 16 * n + c, amount := v }] }) d
/-- The counters of context saves and restores of a kind (08 R301, R302). -/
def saveNo (k : EngineKind) : Nat := if k = .punty then 5 else 3
/-- The core saves the state of an engine whose parking ends while the job's data is in progress, as a context record in its local memory
(08 R285). -/
def saveContext (g : Grant) (d : Device) : Device :=
  match kindOf g.kind with
  | none => d
  | some k =>
    let e := engineOf g.bench k g.unit d
    if e.chain.isEmpty || e.chainJob.isNone then d
    else
      let id := e.chainJob.getD 0
      engineWork g.bench k g.unit (saveNo k) 1 id (modJob id (fun j => { j with context := e.chain })
        (modEngine g.bench k g.unit (fun e => { e with chain := [], shadow := [], chainJob := none }) d))
/-- The parked grants that a test selects end. -/
def dropParked (p : Grant → Bool) (d : Device) : Device :=
  let d := doEach (d.shares.grants.filter (fun g => g.parked && p g)) saveContext d
  { d with shares := { d.shares with grants := d.shares.grants.filter (fun g => !(g.parked && p g)) } }
/-- The known-answer test of an engine begins, for the cause given: any parking ends. Of Marver's scratch the window of the tested engine alone
is cleared, before its first job after the test (DESIGN CHOICE: 06 R231 reads also as all scratch of the part; log entry 90). -/
def beginTest (b : Nat) (k : EngineKind) (n : Nat) (cause : BitVec 2) (d : Device) : Device :=
  let d := if k = .marver then modBench b (clearScratch n) d else d
  let d := dropParked (sameUnit b (kindCode k) n) d
  let d := modEngine b k n (fun e => { emptyEngine e with state := .inTest, katCause := cause, katSince := d.time.ticks, mode := 0 }) d
  { d with shares := { d.shares with grants := d.shares.grants.filter (fun g => !sameUnit b (kindCode k) n g) } }
/-- A test that waits for the grant of an engine to end begins (06 R233): of several causes the oldest first, one test for each (DESIGN
CHOICE: 06 R233 does not say; log entry 90). -/
def beginDue (b : Nat) (k : EngineKind) (n : Nat) (d : Device) : Device :=
  match (engineOf b k n d).causes with
  | [] => d
  | c :: t => beginTest b k n c (modEngine b k n (fun e => { e with causes := t }) d)
/-- The mode of a Marver engine under a recipe: 1 integer, 2 curve, 3 polynomial, by the class of its key (06 R195, R239). -/
def marverMode (d : Device) (t recipe : Nat) (params : Bytes) : Byte :=
  let cls := if recipe = 0x060D then byteAt params 16 else keyClassA d t params
  if recipe / 256 = 0x07 then 3
  else if recipe = 0x010A ∨ recipe = 0x010B ∨ recipe = 0x060D then
    if cls = 0x10 ∨ cls = 0x11 then 1 else if 0x20 ≤ cls.toNat ∧ cls.toNat ≤ 0x2F then 3 else if 0x18 ≤ cls.toNat ∧ cls.toNat ≤ 0x1B then 2 else 1
  else if recipe / 256 = 0x06 ∧ 0x0605 < recipe then 2 else 1
/-- The algorithm code that an engine shows under a job's recipe (08 R270, R301, R302): of a data, MAC or digest verb the code that it
names; of another the code of its key's class or of its scheme, and where it uses several codes one of them (DESIGN CHOICE: 08 R270 does
not say; log entry 89). -/
def cipherCode (j : Job) (d : Device) : Byte :=
  let aes := decide (keyClassA d j.tenant j.params = 0x03 ∨ keyClassA d j.tenant j.params = 0x06)
  match j.recipe.toNat / 256 with
  | 0x05 => if (byteAt j.params 4).toNat < 0x20 then byteAt j.params 4 else 0
  | 0x02 => if aes then 0x01 else 0x11
  | 0x03 => 0x11
  | 0x04 => if aes then 0x08 else 0x1A
  | _ => 0x07
def puntyCode (j : Job) : Byte :=
  match j.recipe.toNat / 256 with
  | 0x05 => if isHmac (byteAt j.params 4).toNat then byteAt j.params 4 else 0
  | 0x06 => if byteAt j.params 9 = 0 then 0x22 else byteAt j.params 9
  | 0x07 => 0x24
  | 0x08 => if j.recipe = 0x0801 then byteAt j.params 4 else 0x22
  | _ => 0x22
/-- What an engine does under a grant of a job's recipe: the Marver mode, or the algorithm code. -/
def modeOf (k : EngineKind) (j : Job) (d : Device) : Byte :=
  match k with
  | .marver => marverMode d j.tenant j.recipe.toNat j.params
  | .cipher => cipherCode j d
  | .punty => puntyCode j
/-- What the port delivers: the unmasked material of the chain, slot by slot. -/
def chainKeys (head : Nat) (d : Device) : List (BitVec 512) :=
  (chainOf head d.keys).map (fun i => delivered d.custody i (slotOf i d.keys))
/-- The handle of a job's key_a. -/
def handleA (j : Job) : BitVec 32 := BitVec.ofNat 32 (num j.params 0 4)
/-- The key that a lookup port of the bench has delivered for the job's key_a, if any, and its length: what still stands at the port, or once
the port serves another lookup what it delivered. -/
def keyAtPort (b : Nat) (j : Job) (d : Device) : Option (List (BitVec 512) × Nat) :=
  let h := handleA j
  let s := slotOf (handleSlot h) d.keys
  match d.keys.ports.find? (fun p => decide (p.1 / 2 = b) && decide (p.2.job = some j.id) && decide (p.2.handle = h) && !p.2.inner &&
      !p.2.engineKey.isEmpty) with
  | some p => some (p.2.engineKey, keyLen s.keyClass s.keyParam)
  | none =>
    if j.fetched.contains h && !(chainOf (handleSlot h) d.keys).isEmpty then
      some (chainKeys (handleSlot h) d, keyLen s.keyClass s.keyParam)
    else none
/-- The bytes of a key register. -/
def registerBytes (key : List (BitVec 512)) (n : Nat) : Bytes := (key.flatMap (bvBytes 64)).take n
/-- An engine loads a key: its register holds it, over whatever it held, and what it forms of it (08 R282). -/
def loadKey (key : List (BitVec 512)) (n : Nat) (e : Engine) : Engine :=
  { e with keyValid := true, keyReg := key, formed := keyForms e.mode.toNat (registerBytes key n) }
/-- The key at the port of a bench goes into an engine; CIP_ counter 2 counts the load. -/
def loadFromPort (b : Nat) (k : EngineKind) (n : Nat) (j : Job) (d : Device) : Device :=
  match (if k = .marver then none else keyAtPort b j d) with
  | some key =>
    let d := modEngine b k n (loadKey key.1 key.2) d
    if k = .cipher then engineWork b k n 2 1 j.id d else d
  | none => d
/-- The core restores the context record that it saved (08 R285). -/
def restoreContext (b : Nat) (k : EngineKind) (n : Nat) (j : Job) (d : Device) : Device :=
  if j.context.isEmpty then d
  else
    engineWork b k n (saveNo k + 1) 1 j.id (modJob j.id (fun j => { j with context := [] })
      (modEngine b k n (fun e => { e with chain := j.context, shadow := j.context.map (fun x => ~~~x), chainJob := some j.id }) d))
/-- At a grant an engine shows its operation, loads the key at its port and takes up the job's state (08 R282, R285). -/
def startEngine (b : Nat) (k : EngineKind) (n job : Nat) (d : Device) : Device :=
  doWith (jobOf job d) (fun j d =>
    restoreContext b k n j (loadFromPort b k n j (modEngine b k n (fun e => { e with mode := modeOf k j d }) d)))
    (modEngine b k n (fun e => { e with mode := 0 }) d)

/-- Of two requests of one tenant, the one that arrived first, then the one of the lower core (05 R183). -/
def earlier (r q : ArbRequest) : Bool :=
  if r.tick ≠ q.tick then decide (r.tick < q.tick)
  else if r.core ≠ q.core then decide (16 * r.core.bench + r.core.core < 16 * q.core.bench + q.core.core)
  else decide (r.arrival < q.arrival)
/-- Of two requests of different tenants, the one whose tenant has the higher counter, then by tenant from the window number (05 R183,
R185). -/
def before (d : Device) (r q : ArbRequest) : Bool :=
  let cr := rankOf r.tick (creditOf r.kind r.tenant d)
  let cq := rankOf q.tick (creditOf q.kind q.tenant d)
  let w := d.time.window.toNat % 256
  if r.tenant = q.tenant then earlier r q
  else if cr ≠ cq then decide (cq < cr)
  else decide ((r.tenant + 256 - w) % 256 < (q.tenant + 256 - w) % 256)
/-- The first request of each tenant. -/
def tenantFirsts (rs : List ArbRequest) : List ArbRequest :=
  rs.filter (fun r => !rs.any (fun q => decide (q.tenant = r.tenant) && earlier q r))
/-- The requester that an arbiter takes: each tenant's first request, ranked by the tenants' counters (05 R183). -/
def takeFirst (d : Device) (rs : List ArbRequest) : Option ArbRequest := leastBy (before d) (tenantFirsts rs)

/-- Requests pending for a kind at a bench; every bench's for the hub. -/
def pendingAt (bench kind : Nat) (d : Device) : List ArbRequest :=
  d.shares.pending.filter (fun r => decide (r.kind = kind) && (decide (r.core.bench = bench) || decide (kind = 5)))
/-- Words of 64 bytes that a hub grant has moved when nothing says how many: at most those asked for (05 R181). -/
def hubMoved (r : ArbRequest) : Nat := if r.kind = 5 then min r.amount (Config.hubMoved r.job) else 0
/-- Give one unit to one request: any parking on the unit ends. -/
def giveUnit (r : ArbRequest) (unit : Nat) (d : Device) : Device :=
  let d := dropParked (sameUnit r.core.bench r.kind unit) d
  doWith (kindOf r.kind) (fun k => startEngine r.core.bench k unit r.job)
  { d with shares := { d.shares with
      pending := d.shares.pending.filter (fun q => q ≠ r)
      grants := d.shares.grants.filter (fun g => !sameUnit r.core.bench r.kind unit g) ++
        [{ bench := r.core.bench, kind := r.kind, unit, core := r.core, tenant := r.tenant, job := r.job,
           since := d.time.ticks, moved := hubMoved r }] } }
/-- The requester ranked first, at level 1 among those of a bench; the central hub chooses among the requesters that the benches'
egress arbiters put forward, by the same rank (05 R175, R183). -/
def rankedFirst (bench kind : Nat) (d : Device) : Option ArbRequest :=
  if kind = 5 then
    takeFirst d ((List.range 8).filterMap (fun b =>
      takeFirst d ((pendingAt bench kind d).filter (fun r => decide (r.core.bench = b)))))
  else takeFirst d (pendingAt bench kind d)
/-- Grant one free unit of a kind to the pending requester ranked first (05 R183, R184). Of several free units the lowest is
granted (DESIGN CHOICE: 05 R183 is silent; log entry 86). -/
def grantOne (bench kind : Nat) (d : Device) : Device :=
  match rankedFirst bench kind d with
  | none => d
  | some r => match freeUnits r.core.bench kind d with
    | [] => d
    | u :: _ => giveUnit r u d
/-- Grant free units while requests are pending. -/
def arbitrate (bench kind : Nat) (d : Device) : Device :=
  (pendingAt bench kind d).foldl (fun d _ => grantOne bench kind d) d

/-- The charge of a grant released now: ticks held for engines, at least 1; else the slots fetched, the blocks drawn or the
words moved under it (05 R181). -/
def grantCharge (g : Grant) (d : Device) : Nat := if g.kind < 3 then max 1 (d.time.ticks - g.since) else g.moved
/-- An engine due for its test does not stay parked. -/
def mayPark (g : Grant) (d : Device) : Bool :=
  match kindOf g.kind with
  | some k => (engineOf g.bench k g.unit d).state == .inService && (engineOf g.bench k g.unit d).causes.isEmpty
  | none => false
/-- A port that a grant held serves no key any longer: the port is free (05 R181). -/
def freePort (g : Grant) (d : Device) : Device :=
  if g.kind = 3 then { d with keys := { d.keys with ports := tabMod (2 * g.bench + g.unit) (fun p => { p with fetchedSlots := 0 }) d.keys.ports } }
  else d
/-- Release a grant: charge it, park an engine on its core, drop any other unit (05 R181, R187); a test that waits for
the grant to end begins (06 R233). -/
def endGrant (g : Grant) (park : Bool) (d : Device) : Device :=
  let d := freePort g (charge g.kind g.tenant (grantCharge g d) d)
  let d := if park && mayPark g d then d else saveContext g d
  let d := { d with shares := { d.shares with
      grants := d.shares.grants.filter (fun x => x ≠ g) ++ (if park && mayPark g d then [{ g with parked := true }] else []) } }
  doWith (kindOf g.kind) (fun k d =>
    beginDue g.bench k g.unit
      (engineWork g.bench k g.unit 1 (d.time.ticks - g.since) g.job (modEngine g.bench k g.unit (fun e => { e with mode := 0 }) d))) d
/-- No engine goes on with the data of a job that has ended or begins again. -/
def forgetChain (job : Nat) (d : Device) : Device :=
  let f : EngineBlock → EngineBlock := fun x => { x with engines := tabMap (fun _ e =>
    if e.chainJob = some job then { e with chain := [], shadow := [], chainJob := none } else e) x.engines }
  { d with benches := tabMap (fun _ b => modEngineBlock .punty f (modEngineBlock .cipher f b)) d.benches }
/-- Release every grant and withdraw every request of a job (a squash, a refusal, a Retire): its engines stay parked (05 R187). -/
def dropGrants (job : Nat) (park : Bool) (d : Device) : Device :=
  let d := forgetChain job d
  let mine := d.shares.grants.filter (fun g => decide (g.job = job) && !g.parked)
  let d := doEach mine (fun g => endGrant g park) d
  let d := { d with shares := { d.shares with pending := d.shares.pending.filter (fun r => r.job ≠ job) } }
  doEach mine (fun g => arbitrate g.bench g.kind) d

end Sys2Proof.Machine
end

