-- ==== Sys2Proof/Machine/JobOps.lean ====
section
/-! DEFINITION. Jobs (04): entry, the ready list, dispatch, answers, squashes, re-entry and cancels. -/

namespace Sys2Proof.Machine

/-! ### The job table -/

def readyJobs (d : Device) : List Job := d.gaffer.jobs.filter (fun j => j.place = .ready)
def tenantReady (t : Nat) (d : Device) : Nat := ((readyJobs d).filter (fun j => decide (j.tenant = t))).length

/-- Next ticket and retire pointer of a stream: 0 before its first job (04 R130, R145). -/
def assoc (st : Stream) : List (Stream × BitVec 32) → BitVec 32
  | [] => 0
  | (s, v) :: t => if s = st then v else assoc st t
def assocSet (st : Stream) (v : BitVec 32) (l : List (Stream × BitVec 32)) : List (Stream × BitVec 32) :=
  (st, v) :: l.filter (fun p => p.1 ≠ st)
def ticketOf (st : Stream) (d : Device) : BitVec 32 := assoc st d.gaffer.tickets
def ptrOf (st : Stream) (d : Device) : BitVec 32 := assoc st d.gaffer.retirePtr
/-- The retire pointer passes the tickets of jobs that were answered or removed without a Retire (DEDUCED from 04 R145, R135,
R160: such a job never retires, and later tickets of its stream do). -/
def advanceGo (st : Stream) : Nat → Device → Device
  | 0, d => d
  | fuel + 1, d =>
    if ptrOf st d != ticketOf st d &&
        !d.gaffer.jobs.any (fun j => decide (j.stream = st) && j.ticket == ptrOf st d && j.place != .answered) then
      advanceGo st fuel { d with gaffer := { d.gaffer with retirePtr := assocSet st (ptrOf st d + 1) d.gaffer.retirePtr } }
    else d
def advancePtr (st : Stream) (d : Device) : Device := advanceGo st (ticketOf st d - ptrOf st d).toNat d

/-! ### Tenants' limits (04 R133; 05 R191 to R193) -/

/-- The ready list or the tenant's ready_cap is full (04 R134). -/
def listFull (t : Nat) (d : Device) : Bool :=
  decide (65536 ≤ (readyJobs d).length) || decide ((tenantOf t d).readyCap ≤ tenantReady t d)
/-- The tenant is limited and holds fewer than one whole token (05 R193). -/
def noToken (t : Nat) (d : Device) : Bool := decide ((tenantOf t d).rate ≠ 0) && decide ((tenantOf t d).bucket < 100000)
def takeToken (t : Nat) (d : Device) : Device :=
  if (tenantOf t d).rate = 0 then d else modTenant t (fun x => { x with bucket := x.bucket - 100000 }) d

/-- A request's relative deadline in µs: 0 selects the tenant's default (04 R131). -/
def deadlineFrom (t origin us : Nat) (d : Device) : BitVec 48 :=
  BitVec.ofNat 48 (origin + usTicks * (if us = 0 then (tenantOf t d).deadlineUs else us))

/-! ### Power (22 R692, R695) -/

/-- Wake from Dusk, or mark the entry to Dusk to be followed by a wake: cause code, PWR_ counter (22 R690, R695, R696). -/
def wake (cause : BitVec 3) (counter : Nat) (d : Device) : Device :=
  match d.power.mode with
  | .dusk => { d with power := { d.power with
      mode := .waking, wakeCause := cause,
      ctr := ctrInc counter (ctrAdd 1 (d.time.ticks - d.power.duskSince) d.power.ctr) } }
  | .duskRequested => if d.power.duskEntering then { d with power := { d.power with wakePending := true, wakeCause := cause } } else d
  | _ => d
/-- Benches take work: not in Dusk, and not while waking or entering Dusk (22 R688). -/
def benchesAwake (d : Device) : Bool :=
  d.power.mode != .dusk && d.power.mode != .waking && !d.power.duskEntering

/-! ### Cores and pairs (21 R670, R675) -/

/-- The core that stands for a pair in the Izvi personality. -/
def lead (c : CoreRef) (d : Device) : CoreRef := if izvi d then { c with core := 2 * (c.core / 2) } else c
/-- Change a core, or both cores of its pair. -/
def modUnit (c : CoreRef) (f : Core → Core) (d : Device) : Device :=
  if izvi d then modCore { c with core := 2 * (c.core / 2) } f (modCore { c with core := 2 * (c.core / 2) + 1 } f d)
  else modCore c f d
/-- A core leaves its job: it is idle, and its busy ticks are kept with the job until it retires (04 R142, R172). -/
def freeCore (c : CoreRef) (d : Device) : Device :=
  doWith (coreOf c d).job (fun id => modJob id (fun j => { j with busy := j.busy + (d.time.ticks - (coreOf c d).since) }))
    (modUnit c (fun x => { x with state := if x.state = .running then .idle else x.state, job := none,
                                  since := d.time.ticks, blockedAtLehr := false }) d)
/-- The core a job occupies: the one it runs on, or the one held to its floor. -/
def coreOfJob (j : Job) : Option CoreRef :=
  match j.held, j.place with
  | some h, _ => some { bench := h.1, core := h.2 }
  | none, .core b c => some { bench := b, core := c }
  | none, _ => none
def benchOfJob (j : Job) : Option Nat :=
  match j.place with
  | .core b _ => some b
  | .pending b => some b
  | .retired b => some b
  | _ => none
def coreByte (j : Job) : Byte :=
  match j.ranOn with
  | some c => BitVec.ofNat 8 (16 * c.bench + c.core)
  | none => 0xFF
def freeJobCore (j : Job) (d : Device) : Device := doWith (coreOfJob j) freeCore d

/-- One entry of the decision trace about a job (04 R171). -/
def traceJob (kind : Byte) (j : Job) (code : Code) (d : Device) : Device :=
  traceEntry kind j.tenant (coreByte j) j.deadline j.recipe code d

/-! ### The saved state of stepped operations (04 R164, 20 R657) -/

/-- The saved state of a job is discarded, and its rows are erased. -/
def dropState (id : Nat) (d : Device) : Device :=
  match jobOf id d with
  | none => d
  | some j =>
    let d := doWith j.savedBench (fun b => modBench b (eraseRows (fun r => j.savedRows.contains r))) d
    modJob id (fun j => { j with savedBench := none, savedRows := [], savedLen := 0 }) d
/-- Rows of a bench's data area that hold no job's state. -/
def freeRows (b : Nat) (d : Device) : List Nat :=
  let used := d.gaffer.jobs.flatMap (fun j => if j.savedBench = some b then j.savedRows else [])
  stateRows.filter (fun r => !used.contains r)
/-- The state of a job is saved in the data area of a bench, in the first rows that are free (DESIGN CHOICE: 04 R164 names no rows; log
entry 91). -/
def saveState (id b : Nat) (data : Bytes) (d : Device) : Device :=
  let d := dropState id d
  let rows := (freeRows b d).take (ceilDiv data.length rowBytes)
  modJob id (fun j => { j with savedBench := some b, savedRows := rows, savedLen := data.length }) (modBench b (writeRows rows data) d)
/-- The saved state of a job. -/
def loadState (j : Job) (d : Device) : Bytes := readRows (benchOf (j.savedBench.getD 0) d) j.savedRows j.savedLen
/-- The data area had room for all of it. -/
def savedWhole (j : Job) : Bool := decide (j.savedLen ≤ rowBytes * j.savedRows.length)
/-- What an operation's latest step saved, behind the number of the next step in 8 bytes. -/
def stepState (d : Device) (j : Job) : Bytes := (loadState j d).drop 8

/-! ### Answers, squashes, re-entry (04 R142 to R144; 20 R655, R656, R665) -/

/-- The tenant is affected by a fault code (20 R665, R667). -/
def affect (t : Nat) (code : Code) (d : Device) : Device :=
  modTenant t (fun x => { x with faultState := if x.faultState = 2 then 2 else 1, lastCode := code }) d

/-- The verbs that write the flash (15 R538). -/
def isImageVerb (op : BitVec 16) : Bool := op == 0x0A10 || op == 0x0A11 || op == 0x0A12
/-- CUS_NVM_WR: kind and code of the last completed one (15 R549). -/
def noteImage (j : Job) (code : Code) (d : Device) : Device :=
  if isImageVerb j.recipe then
    { d with flash := { d.flash with wrKind := BitVec.ofNat 3 (j.recipe.toNat - 0x0A0F), wrResult := code } }
  else d
/-- The one of these verbs that is open, if any: dispatched, not answered and not refused; the first dispatched of them. -/
def imageOpen (d : Device) : Option Job :=
  leastBy (fun a b => decide (ticksSince b.firstDispatch d < ticksSince a.firstDispatch d) ||
      (decide (a.firstDispatch = b.firstDispatch) && decide (a.id < b.id)))
    (d.gaffer.jobs.filter (fun j => isImageVerb j.recipe && j.place != .answered &&
      (match j.place with | .ready => decide (j.step ≠ 0) | .retired _ => false | _ => true) &&
      (match j.staged with | some s => s.code == 0 | none => true)))
/-- A commit that is not made leaves nothing in the journals (01 R21). -/
def dropWrites (id : Nat) (d : Device) : Device :=
  { d with flash := { d.flash with writes := d.flash.writes.filter (fun w => decide (w.job ≠ some id)) } }
/-- Give a job its code and make it releasable now, without a floor; it holds no core and no place. -/
def answerJob (id : Nat) (code : Code) (d : Device) : Device :=
  match jobOf id d with
  | none => d
  | some j =>
    advancePtr j.stream (modJob id (fun j => { j with place := .answered, code := code, releasable := some d.time.ticks,
                                                      held := none, staged := none, verdict := none, flags := none, gates := [], durable := false }) (noteImage j code (dropWrites id (dropState id d))))

/-- Add to a counter of a GTH_ block (09 R330). -/
def gthCount (b k n : Nat) (g : Gather) : Gather :=
  { g with ctrs := tabSet b (ctrAdd k n (tabGetD b {} g.ctrs)) g.ctrs }
/-- Random blocks drawn for a job are delivered at its Retire, and discarded at its squash: counters 0 and 1 of the bench
that drew them (04 R142, 09 R330). -/
def settleDraws (retired : Bool) (j : Job) (d : Device) : Device :=
  match j.ranOn with
  | some c => if j.drawnBlocks = 0 then d
    else { d with gather := gthCount c.bench (if retired then 0 else 1) j.drawnBlocks d.gather }
  | none => d
/-- What the work of a job has added to the counters of a bench: counted at its Retire, dropped at its squash (04 R142). -/
def settleBench (retired : Bool) (id : Nat) (b : Bench) : Bench :=
  let mine := b.work.filter (fun w => w.job = id)
  let b := { b with work := b.work.filter (fun w => w.job ≠ id) }
  if retired then
    mine.foldl (fun b w => modEngineBlock w.kind (fun x => { x with ctr := ctrAdd w.counter w.amount x.ctr }) b) b
  else b
def settleWork (retired : Bool) (j : Job) (d : Device) : Device :=
  settleDraws retired j { d with benches := tabMap (fun _ => settleBench retired j.id) d.benches }

/-- A job is squashed: its grants are returned, its core is free, it is released in its turn without a floor (12 R453, R454). The job is
answered at once without a Retire, and never counts as retired late (DESIGN CHOICE: 04 R136 and R142 do not say whether it has a Retire; log
entry 90). -/
def dropJob (id : Nat) (code : Code) (d : Device) : Device :=
  match jobOf id d with
  | none => d
  | some j =>
    let d := traceJob 0x05 j code (settleWork false j (freeJobCore j (dropGrants id true d)))
    let d := doWith j.ranOn (fun c => coreCount c 1 1) d
    let d := doWith (benchOfJob j) (fun b => lehCount b 3) d
    answerJob id code d
/-- A fault ends a job with a 0x05xx code (20 R656, R665). -/
def squashJob (id : Nat) (code : Code) (d : Device) : Device :=
  match jobOf id d with
  | none => d
  | some j =>
    let d := if code = 0x0503 ∨ code = 0x050B then gafCount 10 d else d
    dropJob id code (affect j.tenant code d)

/-- Re-enter a job at the head of the ready list, with its deadline, stream and ticket (04 R144, 20 R655). -/
def reenterJob (id : Nat) (d : Device) : Device :=
  match jobOf id d with
  | none => d
  | some j =>
    let d := gafCount 7 (traceJob 0x07 j 0 (settleWork false j (freeJobCore j (dropGrants id true (dropWrites id d)))))
    let d := doWith j.ranOn (fun c => coreCount c 1 1) d
    let d := doWith (benchOfJob j) (fun b => lehCount b 3) d
    let d := modTenant j.tenant (fun x => { x with faultState := if x.faultState = 2 then 2 else 1,
                                                   reenteredCount := satInc x.reenteredCount }) d
    modJob id (fun j => { j with place := .ready, reentered := true, dispatch := 0, staged := none, verdict := none, flags := none
                                 cipherDone := 0, puntyDone := 0, context := []
                                 held := none, safeMode := false, half := false, gates := [], durable := false, ranOn := none, drawnBlocks := 0,
                                 drawn := [], drewAll := false, compared := false, busy := 0 }) d

/-- A fault met by a job before its Retire: re-entry; after re-entry, or with no room on the ready list (DESIGN CHOICE: 04 R133 does not say;
log entry 85), the code given (20 R656). -/
def faultJob (id : Nat) (further : Code) (d : Device) : Device :=
  match jobOf id d with
  | none => d
  | some j => if j.reentered || listFull j.tenant d then squashJob id further d else reenterJob id d

/-! ### Dispatch (04 R135 to R139) -/

/-- The head slot of a recipe that is serial on a key (04 R139, 10 R357, 11 R416). -/
def serialHead (j : Job) : Option Nat :=
  if j.recipe = 0x0207 then some (num j.params 4 4 % 2 ^ 20)
  else if j.recipe = 0x0802 then some (num j.params 0 4 % 2 ^ 20)
  else none
/-- A job dispatched and not yet released, one squashed by a fault after its dispatch among them. -/
def inFlight (j : Job) : Bool :=
  match j.place with
  | .ready => decide (j.step ≠ 0) || j.half
  | .answered => j.ranOn.isSome
  | _ => true
def serialOk (j : Job) (d : Device) : Bool :=
  match serialHead j with
  | none => true
  | some h =>
    let heads := (d.gaffer.jobs.filter (fun o => inFlight o && decide (o.id ≠ j.id))).filterMap serialHead
    !heads.contains h && decide (heads.length < 4096)
/-- The class of the component session that 0x0107 names, for its engine needs (04 R740). -/
def sessionClass (j : Job) (d : Device) : Byte :=
  match d.custody.sessions.find? (fun s => s.number.toNat = num j.params 24 4) with
  | some s => byteAt s.template 0
  | none => 0
/-- Every engine kind the recipe needs has an engine in service in the bench (04 R138). -/
def benchServes (b : Bench) (n : Bool × Bool × Bool) : Bool :=
  (!n.1 || !(inServiceOf .marver b).isEmpty) && (!n.2.1 || !(inServiceOf .cipher b).isEmpty) &&
  (!n.2.2 || !(inServiceOf .punty b).isEmpty)
/-- A step of a background source (04 R166, R167). -/
def isBackground (j : Job) : Bool := match j.origin with | .background => true | _ => false
/-- The engine kinds that a job needs: Marver, cipher, Punty; a sweep step needs a cipher engine and Punty (04 R740). -/
def jobNeeds (j : Job) (d : Device) : Bool × Bool × Bool :=
  if isBackground j then (false, true, true) else needs j.recipe.toNat j.params (sessionClass j d)
def eligible (c : CoreRef) (d : Device) (j : Job) : Bool := benchServes (benchOf c.bench d) (jobNeeds j d) && serialOk j d

/-- Rank on the ready list: re-entered jobs first, then the deadline, then the arrival (04 R132, 20 R655). -/
def ranks (d : Device) (a b : Job) : Bool :=
  if a.reentered ≠ b.reentered then a.reentered
  else if a.deadline ≠ b.deadline then decide (ticksUntil a.deadline d < ticksUntil b.deadline d)
  else decide (a.arrival < b.arrival)
/-- A ready job whose deadline has come: re-entered jobs and later steps never expire (04 R135, R167; 20 R655). -/
def expired (d : Device) (j : Job) : Bool :=
  j.place == .ready && !j.reentered && decide (j.step = 0) && !j.half && reached j.deadline d
/-- Remove an expired job and answer it with 0x0604 (04 R135). -/
def expireJob (id : Nat) (d : Device) : Device :=
  match jobOf id d with
  | none => d
  | some j => answerJob id 0x0604 (gafCount 2 (traceJob 0x02 j 0x0604 d))
/-- Remove expired jobs found at the head of the list. -/
def expireHeads : Nat → Device → Device
  | 0, d => d
  | fuel + 1, d =>
    match leastBy (ranks d) (readyJobs d) with
    | none => d
    | some j => if expired d j then expireHeads fuel (expireJob j.id d) else d

/-- The job granted to a core: the earliest-deadline job on the list that is eligible for it (04 R137). -/
def chooseJob (c : CoreRef) (d : Device) : Option Job :=
  leastBy (ranks d) ((readyJobs d).filter (fun j => eligible c d j && !expired d j))

/-- The read of a host job's input data during Decode: 0x0117 when a page is denied by then (12 R453). -/
def decodeRead (j : Job) (d : Device) : Job × Device :=
  match j.origin with
  | .host f _ _ addr len _ =>
    match (splitDma addr.toNat len).find? (fun p => !acuAllows f p.1 false d.host) with
    | some p => ({ j with inputFault := 0x0117 }, denied f 2 false p.1 d)
    | none => (j, d)
  | _ => (j, d)
/-- The read of its input data was denied or failed: the job is squashed in Decode (12 R453, R454). -/
def unread (j : Job) : Bool := j.inputFault == 0x0117 || j.inputFault == 0x0119

/-- The tenant that a Reset tenant names, when Decode and the lifecycle state pass it (20 R666). -/
def resetTarget (j : Job) (d : Device) : Option Nat :=
  let t := num j.params 0 1
  if j.recipe = 0x0A40 ∧ j.tenant = 0 ∧ t ≠ 0 ∧ num j.params 1 1 < 4 ∧ zeros j.params 2 46 ∧ j.input = [] ∧
      (state d = .operational ∨ state d = .owned) then some t
  else none
/-- Another reset of the tenant is running: its job stands on a core and has not done its steps. -/
def resetRuns (t id : Nat) (d : Device) : Bool :=
  d.gaffer.jobs.any (fun o => decide (o.id ≠ id) && decide (o.recipe = 0x0A40) && decide (o.tenant = 0) &&
    decide (num o.params 0 1 = t) && o.staged.isNone && (match o.place with | .core _ _ => true | _ => false))
/-- Step 1 of a reset, taken with the decision whether it may run (20 R666). -/
def beginReset (j : Job) (d : Device) : Code × Device :=
  match resetTarget j d with
  | none => (0, d)
  | some t => if resetRuns t j.id d then (0x0413, d) else (0, modTenant t (fun x => { x with faultState := 2 }) d)

/-- Grant a job to a core (04 R137): dispatch count, floor from the bench's speed (04 R155), trace. A job whose opcode names no verb is
refused at its Decode at once (04 R738), and one whose input could not be read is squashed (12 R453). -/
def dispatchJob (c : CoreRef) (j : Job) (d : Device) : Device :=
  let (j, d) := decodeRead j d
  let speed := (benchOf c.bench d).lehr.speed.toNat
  let eff := floorEff (nominalFloor d j.tenant j.recipe.toNat j.params j.input j.outCap) speed
  let j := { j with place := .core c.bench c.core, dispatch := extended d
                    firstDispatch := if j.step = 0 && !j.half then extended d else j.firstDispatch
                    floorEff := if j.step = 0 && !j.half then eff else j.floorEff
                    ranOn := some c, fetched := [], fetchedInner := [] }
  let code : Code := if j.inputFault ≠ 0 then j.inputFault else if !isBackground j && !verbPresent d j.recipe.toNat then 0x0110 else 0
  let (code, d) := if code = 0 then beginReset j d else (code, d)
  let j := if code = 0 then j else { j with staged := some { code } }
  let d := coreCount c 3 (d.time.ticks - (coreOf c d).since) d
  let d := modUnit c (fun x => { x with state := .running, job := some j.id, since := d.time.ticks, localMem := (j.params ++ j.input).take coreMemory }) d
  let d := { d with gaffer := { d.gaffer with
      requests := d.gaffer.requests.filter (fun r => r.1 ≠ c), turn := (d.gaffer.turn + 1) % 8 } }
  doIf (unread j) (dropJob j.id j.inputFault) (traceJob 0x01 j 0 (gafCount 1 (modJob j.id (fun _ => j) d)))

/-- Requests in the order in which they are served: by tick of arrival, those that arrived together by the rotating
bench priority (04 R137). -/
def requestBefore (turn : Nat) (a b : CoreRef × Nat) : Bool :=
  if a.2 ≠ b.2 then decide (a.2 < b.2) else decide ((a.1.bench + 8 - turn) % 8 < (b.1.bench + 8 - turn) % 8)
/-- The request served next: the first, in order, for which some job is eligible (04 R137). -/
def nextGrant (d : Device) : Option (CoreRef × Job) :=
  match leastBy (requestBefore d.gaffer.turn) (d.gaffer.requests.filter (fun r => (chooseJob r.1 d).isSome)) with
  | none => none
  | some r => (chooseJob r.1 d).map (fun j => (r.1, j))
/-- Gaffer grants jobs: started, benches awake, every Gather instance instantiated (09 R328). A stop of 04 R149 discards the jobs of that moment; jobs that enter
afterwards are granted, so that 16 R558 serves or refuses them (DEDUCED; `stopped` is what GAF_STATUS reports). -/
def dispatching (d : Device) : Bool := d.gaffer.ready && benchesAwake d && !d.keys.halted && instancesReady d.gather
/-- Grant jobs to pending requests while any request can be served; each grant takes a job off the list. -/
def dispatchGo : Nat → Device → Device
  | 0, d => d
  | fuel + 1, d =>
    match nextGrant d with
    | none => d
    | some (c, j) => dispatchGo fuel (dispatchJob c j d)
def dispatchAll (d : Device) : Device :=
  if dispatching d then
    let d := expireHeads d.gaffer.jobs.length d
    dispatchGo d.gaffer.jobs.length d
  else d

/-! ### Entry (04 R129 to R134, 12 R431) -/

/-- A stepped operation is a stream of its own (04 R165); any other job keeps the stream of its queue or session. -/
def ownStream (j : Job) (d : Device) : Job × Device :=
  if steppedJob d j.tenant j.recipe.toNat j.params j.input j.outCap then
    ({ j with stream := .stepped d.gaffer.nextStream }, { d with gaffer := { d.gaffer with nextStream := d.gaffer.nextStream + 1 } })
  else (j, d)

/-- Enter a job: it takes the next ticket of its stream; a job whose deadline has already been reached is answered with
0x0604 and is not placed on the list (12 R431). `token` says that it counts against the tenant's bucket (05 R192). -/
def enterJob (j : Job) (token : Bool) (cause : BitVec 3) (d : Device) : Device :=
  let (j, d) := ownStream j d
  let t := ticketOf j.stream d
  let id := d.gaffer.nextJob
  let j := { j with id := id, ticket := t, arrival := d.gaffer.arrivals, place := .ready
                    opDeadline := j.deadline }
  let late := reached j.deadline d
  let d := { d with gaffer := { d.gaffer with
      nextJob := id + 1, arrivals := d.gaffer.arrivals + 1, jobs := d.gaffer.jobs ++ [j]
      tickets := assocSet j.stream (t + 1) d.gaffer.tickets } }
  if late then expireJob id d
  else dispatchAll (wake cause 2 (gafCount 0 (if token then takeToken j.tenant d else d)))

/-- A step of a background source of Gaffer enters: it arbitrates as tenant 0, with a deadline of its entry count plus 32,000
ticks; steps after the first never expire (04 R167; 05 R177). A background step names no verb: its recipe reads 0. -/
def enterBackground (n step : Nat) (d : Device) : Device :=
  enterJob { id := 0, tenant := 0, stream := .background n, ticket := 0, arrival := 0, step
             deadline := BitVec.ofNat 48 (d.time.ticks + 32000), recipe := 0, origin := .background } false 2 d

/-- A job answered before it is entered (0x0605, 0x0606): it takes its ticket and is released on the grid. -/
def refuseJob (j : Job) (code : Code) (d : Device) : Device :=
  let t := ticketOf j.stream d
  let id := d.gaffer.nextJob
  let j := { j with id := id, ticket := t, arrival := d.gaffer.arrivals, place := .answered, code := code,
                    releasable := some d.time.ticks }
  advancePtr j.stream { d with gaffer := { d.gaffer with
      nextJob := id + 1, arrivals := d.gaffer.arrivals + 1, jobs := d.gaffer.jobs ++ [j]
      tickets := assocSet j.stream (t + 1) d.gaffer.tickets
      ctr := ctrInc 5 d.gaffer.ctr } }

/-! ### Cancel (04 R160, R161, R166) -/

/-- Atomic stepped operations end a later cancel with 0x0602 at once when a step waits on the list (04 R166). The code of a
cancel whose target is answered and not released is the target's own 0x0601 or 0x0604, and else 0x0603 (DESIGN CHOICE:
04 R161 gives none; log entry 27). -/
def cancelJob (id : Nat) (d : Device) : Device × Code :=
  match jobOf id d with
  | none => (d, 0x0603)
  | some j =>
    match j.place with
    | .ready =>
      let stepped := match j.stream with | .stepped _ => true | .background _ => true | _ => false
      let code : Code := if stepped && decide (j.firstDispatch ≠ 0) then 0x0602 else 0x0601
      let d := if code = 0x0601 then gafCount 3 d else d
      (answerJob id code (traceJob 0x03 j code d), code)
    | .core _ _ => (traceJob 0x03 j 0x0602 (modJob id (fun j => { j with cancelMark := true }) d), 0x0602)
    | .pending _ => (traceJob 0x03 j 0x0602 (modJob id (fun j => { j with cancelMark := true }) d), 0x0602)
    | .retired _ => (traceJob 0x03 j 0x0603 (modJob id (fun j => { j with code := if j.code = 0 then 0x0603 else j.code }) d), 0x0603)
    | .answered => (d, if j.code = 0x0601 ∨ j.code = 0x0604 then j.code else 0x0603)

/-! ### Stopping (04 R149) -/

/-- Locked, a Breach or an Excursion: dispatch stops and every job not yet released is discarded, with no code; every grant
ends and is charged, and a test that waited for it begins (04 R149; 05 R181; 06 R233). The retire pointer of every stream passes the
tickets of its discarded jobs, to the ticket that its next job takes (DESIGN CHOICE: 04 R149 does not say; log entry 90). -/
def discardAll (d : Device) : Device :=
  let d := doEach d.gaffer.jobs (fun j => freeJobCore j) { d with shares := { d.shares with pending := [] } }
  let d := doEach (d.shares.grants.filter (fun g => !g.parked)) (fun g => endGrant g false) d
  let d := doEach (d.gaffer.jobs.map (·.id)) dropState d
  { d with
    gaffer := { d.gaffer with stopped := true, jobs := [], retirePtr := d.gaffer.tickets }
    shares := { d.shares with grants := [] }
    benches := tabMap (fun _ b => { b with work := [] }) d.benches
    flash := { d.flash with writes := d.flash.writes.filter (fun w => w.job.isNone) }
    custody := { d.custody with attesting := [] } }

/-- The host's or the list's view of a job's answer, for its completion or RESPONSE. -/
def answerOf (j : Job) : Answer :=
  match j.mirror with
  | some s => if j.code = 0 ∨ j.code = 0x0603 then
      { code := j.code, verdict := if j.code = 0 then s.verdict else 0, aux := s.aux, output := s.output, progress := j.progress
        commits := true }
    else { code := j.code, progress := j.progress }
  | none => { code := j.code, progress := j.progress, commits := j.code = 0 || j.code = 0x0603 }

end Sys2Proof.Machine
end

