-- ==== Sys2Proof/Machine/GatherOps.lean ====
section
/-! DEFINITION. Gather's operations (09): the pool, seeds, generator instances, source failures and device service.
Instances 0 to 7 are the benches', 8 the custody partition's, 9 and 10 the paths'. -/

namespace Sys2Proof.Machine

def sourceState (n : Nat) (g : Gather) : Source := tabGetD n {} g.sources
def healthy (g : Gather) : Nat := (g.sources.filter (fun p => p.2.state == .healthy)).length

/-- A seed of 384 bits, the oldest block and then the oldest from a different source, and the pool without the two
(09 R313). -/
def takeSeed : List PoolBlock → Option (Bytes × List PoolBlock)
  | [] => none
  | s :: t => match t.find? (fun x => x.source ≠ s.source) with
    | some x => some (bvBytes 24 s.bits ++ bvBytes 24 x.bits, t.erase x)
    | none => none

/-- A device instance that asks for a reseed: 256 blocks since the last, within its cap of one in 384 µs (09 R315, R319). -/
def deviceAsks (tick : Nat) (i : Instance) : Bool :=
  i.ready && (decide (256 ≤ i.count) || i.reseedDue) && decide (i.lastReseed + 384 * usTicks ≤ tick)
/-- The request served next, by priority: device reseeds, prediction-resistant generates, bench seed buffers by blocks
since reseed and then by the rotation of the window number (09 R314). Of several device instances, and of several benches whose
prediction-resistant generates wait, the lowest number comes first (DESIGN CHOICE: 09 R314 orders neither; log entry 83). -/
def nextSeedFor (tick window : Nat) (g : Gather) : Option Nat :=
  match nextDue g with
  | some n => some n
  | none => match [8, 9, 10].find? (fun n => deviceAsks tick (instOf n g)) with
    | some n => some n
    | none => match (List.range 8).find? (fun n => (instOf n g).ready && (instOf n g).waiting && (instOf n g).seed.isNone) with
      | some n => some n
      | none => leastBy
          (fun a b =>
            let ca := (instOf a g).count
            let cb := (instOf b g).count
            if ca ≠ cb then decide (cb < ca)
            else decide ((a + 8 - window % 8) % 8 < (b + 8 - window % 8) % 8))
          ((List.range 8).filter (fun n => (instOf n g).ready && (instOf n g).seed.isNone))
/-- An instance is instantiated from a seed with its personalization string (09 R315). -/
def instantiated (tick n : Nat) (cycles : BitVec 32) (seed : Bytes) : Instance :=
  { ready := true, lastReseed := tick, drbg := drbgInstantiate seed (personalization n cycles) }
/-- Give a seed to an instance: one that waits is instantiated, a device instance reseeds at once, a bench instance buffers it. -/
def giveSeed (tick n : Nat) (cycles : BitVec 32) (seed : Bytes) (g : Gather) : Gather :=
  let i := instOf n g
  if i.due then setInst n (instantiated tick n cycles seed) g
  else if 8 ≤ n then setInst n { i with count := 0, lastReseed := tick, reseedDue := false, drbg := drbgReseed seed i.drbg } g
  else setInst n { i with seed := some seed } g
/-- Serve requests while the pool can form a seed: first the draws of device instances that have taken one already, whose reseeds come first
(09 R314). -/
def serveGo (tick window : Nat) (cycles : BitVec 32) : Nat → Gather → Gather
  | 0, g => g
  | fuel + 1, g =>
    match takeSeed g.pool with
    | none => g
    | some p =>
      if g.owed ≠ 0 then serveGo tick window cycles fuel { g with pool := p.2, owed := g.owed - 1 }
      else match nextSeedFor tick window g with
        | some n => serveGo tick window cycles fuel (giveSeed tick n cycles p.1 { g with pool := p.2 })
        | none => g
def serveSeeds (d : Device) : Gather :=
  serveGo d.time.ticks d.time.window.toNat d.battery.cycles (d.gather.pool.length / 2) d.gather

/-- Reseed of a bench instance from its buffer (09 R317): counters 2, 3 after a stretched interval, and 4. -/
def reseedBench (tick b : Nat) (g : Gather) : Gather :=
  let i := instOf b g
  let g := gthCount b 2 1 (if 4096 < i.count then gthCount b 3 1 g else g)
  let g := if i.stopped then gthCount b 4 (tick - i.stoppedAt) g else g
  setInst b { i with count := 0, seed := none, lastReseed := tick, reseedDue := false, stopped := false
                     drbg := drbgReseed (i.seed.getD []) i.drbg } g

/-- A call boundary of a bench instance (09 R317): at the base interval, or after 1,000 ms, it reseeds from its buffer. -/
def callBoundary (tick b : Nat) (g : Gather) : Gather :=
  let i := instOf b g
  if i.seed.isSome && (decide (4096 ≤ i.count) || i.reseedDue) then reseedBench tick b g else g
/-- Generate calls of a draw, each of at most 256 blocks (09 R316); a call that would pass the interval limit is not
started and stops the output (09 R317): what was delivered, and the state after it. -/
def generateGo (tick b : Nat) : Nat → Nat → Gather → Bytes × Gather
  | 0, _, g => ([], g)
  | fuel + 1, left, g =>
    if left = 0 then ([], g)
    else
      let g := callBoundary tick b g
      let i := instOf b g
      let n := min left 256
      if 8192 < i.count + n then ([], setInst b { i with stopped := true, stoppedAt := tick } g)
      else
        let r := drbgGenerate n i.drbg
        let t := generateGo tick b fuel (left - n) (setInst b { i with count := i.count + n, drbg := r.2 } g)
        (r.1 ++ t.1, t.2)
def generate (tick b blocks : Nat) (g : Gather) : Bytes × Gather := generateGo tick b (ceilDiv blocks 256) blocks g
/-- The bench generator can serve a draw now: service runs, the instance is instantiated, neither stopped nor waiting. -/
def drawReady (b : Nat) (d : Device) : Bool :=
  d.gather.service && (instOf b d.gather).ready && !(instOf b d.gather).stopped && !(instOf b d.gather).waiting

/-- The seed that a device instance takes now, and Gather after it. A draw that finds none waits for the next that the pool forms, whose bytes
are free values since its blocks have not arrived: the pool owes it (DESIGN CHOICE, log entry 83). -/
def deviceSeed (d : Device) : Bytes × Gather :=
  match takeSeed d.gather.pool with
  | some p => (p.1, { d.gather with pool := p.2 })
  | none => ((List.range seedBytes).map (Config.lateSeed d.draws), { d.gather with owed := d.gather.owed + 1 })
/-- A device instance reseeds before a draw, within its cap of one reseed in 384 µs (09 R315, R319): the draw waits for the cap. An
instance whose state was erased is instantiated (DESIGN CHOICE for draws while the part is Locked, log entry 83). -/
def deviceReseed (k : Nat) (d : Device) : Device :=
  let i := instOf k d.gather
  let s := deviceSeed d
  let at_ := max d.time.ticks (i.lastReseed + 384 * usTicks)
  let next := if i.ready then { i with count := 0, lastReseed := at_, reseedDue := false, drbg := drbgReseed s.1 i.drbg }
              else instantiated d.time.ticks k d.battery.cycles s.1
  { d with gather := setInst k next s.2 }
/-- A device instance is ready for a draw of `n` bytes: it has a state, and 256 blocks are not exceeded (09 R315). -/
def forDraw (k n : Nat) (d : Device) : Device :=
  let i := instOf k d.gather
  if i.ready && decide (i.count + blocksOf n ≤ 256) then d else deviceReseed k d
/-- Draw `n` bytes from a device instance and hand them on. -/
def withDraw (k n : Nat) (f : Bytes → Device → Device) (d : Device) : Device :=
  let d := forDraw k n d
  f (drawn k n d) (spend k n d)
/-- A draw of a root or a key by the custody partition, of several at once in one draw: the instance reseeds before every one (09 R315,
R319). -/
def withKeyDraw (n : Nat) (f : Bytes → Device → Device) (d : Device) : Device :=
  let d := deviceReseed 8 d
  f (drawn 8 n d) (spend 8 n d)
/-- A path's instance can serve its draws. -/
def pathReady (isB : Bool) (d : Device) : Bool := d.gather.service && (instOf (if isB then 10 else 9) d.gather).ready
def pathInst (isB : Bool) : Nat := if isB then 10 else 9
/-- Erase the pool, every seed buffer and every instance state (09 R326, R328). -/
def eraseGather (tick : Nat) (g : Gather) : Gather :=
  { g with pool := [], owed := 0, instances := tabMap (fun _ _ => {}) g.instances
           ctrs := tabMap (fun n x => stopTicks tick (instOf n g) x) g.ctrs }
/-- Instantiate again, from the pool, every instance of a bench in service and the device instances (09 R328): an instance for
which the pool has no seed yet waits for one. -/
def instantiateAll (d : Device) : Device :=
  let fresh : Nat → Instance → Instance := fun n i =>
    if n < 8 && !(benchOf n d).inService then {} else if i.ready then i else { due := d.gather.service }
  let d := { d with gather := { d.gather with instances := tabMap fresh d.gather.instances } }
  { d with gather := serveSeeds d }

/-- Device service stops when healthy sources fall below min_sources: the state is erased and every job that waits for
a draw, whether its request is pending or granted, is squashed with 0x0508 (09 R326). -/
def checkService (d : Device) : Device :=
  if d.gather.service && decide (healthy d.gather < d.gather.minSources) then
    let waiting := (d.shares.pending.filter (fun r => r.kind = 4)).map (·.job) ++
      (d.shares.grants.filter (fun g => decide (g.kind = 4) && !g.parked)).map (·.job)
    let d := { d with gather := eraseGather d.time.ticks { d.gather with service := false } }
    let d := emitC .alarm 0x0502 (leBytes 1 (healthy d.gather) ++ leBytes 1 d.gather.minSources) d
    doEach waiting (fun id => squashJob id 0x0508) d
  else d
/-- A source failure: it stops at once; the event names the source and the cause (09 R323). -/
def failSource (n : Nat) (cause : BitVec 3) (d : Device) : Device :=
  let s := sourceState n d.gather
  let d := { d with gather := { d.gather with sources := tabSet n { s with state := .failed, cause := cause } d.gather.sources } }
  checkService (emit .alarm 0x0501 (.bench (n / 2)) (leBytes 1 n ++ leBytes 1 cause.toNat) d)
/-- The two sources of a fenced bench stop and its instance is erased (09 R325). -/
def stopBenchSources (b : Nat) (d : Device) : Device :=
  let stop := fun n (ss : Tab Source) => tabMod n (fun s => { s with state := if s.state = .failed then .failed else .absent }) ss
  checkService { d with gather := { d.gather with
    ctrs := tabMap (fun n x => if n = b then stopTicks d.time.ticks (instOf b d.gather) x else x) d.gather.ctrs
    sources := stop (2 * b) (stop (2 * b + 1) d.gather.sources)
    instances := tabMod b (fun _ => {}) d.gather.instances } }

end Sys2Proof.Machine
end

