-- ==== Sys2Proof/Machine/NetOps.lean ====
section
/-! DEFINITION. The paths' and the session table's operations (13): keys, frames, sending, numbers, claims, takeover. -/

namespace Sys2Proof.Machine

/-! ### Device identity (18 R606 to R608) -/

/-- An ECDSA private key derived from device_root: (b mod (n − 1)) + 1 over bits(n) + 64 derived bits (18 R606). -/
def identityScalar (d : Device) (lab : String) (ctx : Nat) (curve : Byte) (bytes : Nat) : Nat :=
  beNat (kdfCmac (deviceRootBytes d) (label lab) [BitVec.ofNat 8 ctx] bytes) % (curveOrder curve - 1) + 1
def identitySeed (d : Device) (lab : String) (ctx : Nat) : Bytes :=
  kdfCmac (deviceRootBytes d) (label lab) [BitVec.ofNat 8 ctx] 32
def devEc (d : Device) : Nat := identityScalar d "DIKEC" 0 0x02 56
def devSeed (d : Device) : Bytes := identitySeed d "DIKML" 0
def htlEc (d : Device) : Nat := identityScalar d "HTLEC" (ownership d) 0x01 40
def htlSeed (d : Device) : Bytes := identitySeed d "HTLML" (ownership d)
/-- An uncompressed point. -/
def uncompressed (xy : Bytes) : Bytes := 0x04 :: xy
/-- The device fingerprint (18 R608). -/
def fingerprintOfDevice (d : Device) : Bytes :=
  (sha384 (uncompressed (curvePublic 0x02 (devEc d) []) ++ mlDsaPublic {} 87 (devSeed d))).take 8

/-! ### Keys (13 R464, R470, R484) -/

def hkdfExpand (prk info : Bytes) (n : Nat) : Bytes := hkdfExpandOf 0x63 prk info n
/-- Key and salt of a direction and epoch: 32 bytes, then 4 (13 R470). -/
def trafficKey (ts : Bytes) (toPart : Bool) (epoch : Byte) : Bytes :=
  hkdfExpand ts (ascii (if toPart then "h2p".toList else "p2h".toList) ++ [epoch]) 36
def handshakeKey (prk th1 : Bytes) : Bytes := hkdfExpand prk (ascii "htl hs".toList ++ th1) 36
def nonceOf (ks : Bytes) (seq : Nat) : Bytes := ks.drop 32 ++ beBytes 8 seq

/-- The 20 header bytes, the additional data of every encrypted frame (13 R462). -/
def headerBytes (h : HtlHeader) : Bytes :=
  [h.version, h.type] ++ beBytes 2 h.length.toNat ++ beBytes 4 h.session.toNat ++ beBytes 8 h.seq.toNat ++
  [h.epoch, h.seg, h.flags, 0]
/-- A frame authenticates under a key and salt (13 R464). -/
def frameOk (ks : Bytes) (f : Frame) : Bool :=
  fit 16 f.tag == gcmTagOf (ks.take 32) (nonceOf ks f.header.seq.toNat) (headerBytes f.header) f.payload &&
  decide (f.tag.length = 16)
def framePlain (ks : Bytes) (f : Frame) : Bytes := gcmXor (ks.take 32) (nonceOf ks f.header.seq.toNat) f.payload

/-! ### The keys of a session table entry (13 R487; 03 R97) -/

/-- Mask or unmask bytes of an entry, from a place in it. -/
def sessionPad (root : BitVec 256) (i at_ : Nat) (data : Bytes) : Bytes :=
  bytesXor data ((List.range data.length).map (fun k => Config.sessionMask (Config.maskKey root) i (at_ + k)))
/-- The traffic secret of an epoch, its key and salt to the part and its key and salt to the host. -/
def epochKeys (ts : Bytes) (epoch : Byte) : Bytes := fit 48 ts ++ trafficKey ts true epoch ++ trafficKey ts false epoch
def clearKeys (d : Device) (i : Nat) (s : Session) : Bytes := sessionPad (rootOf s.keyRoot d.custody) i 0 s.keys
/-- The traffic secret of the current epoch. -/
def trafficSecret (d : Device) (i : Nat) (s : Session) : Bytes := (clearKeys d i s).take 48
def clearPrev (d : Device) (i : Nat) (s : Session) : Option Bytes := s.prevKeys.map (sessionPad (rootOf s.keyRoot d.custody) i 120)
/-- An entry takes the keys of an epoch, and with them those of the previous one, if any. -/
def withKeys (d : Device) (i : Nat) (keys : Bytes) (prev : Option Bytes) (s : Session) : Session :=
  let root := rootOf d.keys.epoch d.custody
  { s with keys := sessionPad root i 0 keys, prevKeys := prev.map (sessionPad root i 120), keyRoot := d.keys.epoch }
/-- The traffic key and salt of a direction for the epoch of a frame: the current one, or the previous one while it is still accepted. -/
def keyFor (d : Device) (i : Nat) (s : Session) (toPart : Bool) (e : Byte) : Option Bytes :=
  if s.keys.isEmpty then none
  else if e = s.epoch then some (field (clearKeys d i s) (if toPart then 48 else 84) 36)
  else if e = s.epoch - 1 then (clearPrev d i s).map (fun k => field k (if toPart then 0 else 36) 36)
  else none

/-! ### Sending (13 R459 to R461, R479) -/

/-- The one's complement sum of the 16-bit words of a byte string (RFC 1071). -/
def wordSum : Bytes → Nat
  | [] => 0
  | [a] => a.toNat * 256
  | a :: b :: t => a.toNat * 256 + b.toNat + wordSum t
/-- The UDP checksum of a datagram between two addresses (RFC 768, RFC 8200): 0 is sent as 0xFFFF. -/
def udpChecksum (v6 : Bool) (from_ to_ : BitVec 128) (fromPort toPort : BitVec 16) (data : Bytes) : BitVec 16 :=
  let n := data.length + 8
  let pseudo := if v6 then bvBytes 16 from_ ++ bvBytes 16 to_ ++ beBytes 4 n ++ [0, 0, 0, 17]
    else bvBytes 4 (from_.setWidth 32) ++ bvBytes 4 (to_.setWidth 32) ++ [0, 17] ++ beBytes 2 n
  let s := wordSum (pseudo ++ beBytes 2 fromPort.toNat ++ beBytes 2 toPort.toNat ++ beBytes 2 n ++ [0, 0] ++ data) % 65535
  if s = 0 then 0xFFFF else BitVec.ofNat 16 (65535 - s)
/-- The link layer of what a path sends. -/
def sentLink (p : NetPath) : SentLink := { mac := p.addr.mac, vlan := if p.addr.tagging then some (p.addr.vid, p.addr.pcp) else none }
/-- The address that a path sends from: its IPv6 address, its link-local address where it has no other, or its IPv4 address; and from
the port it listens on (DESIGN CHOICE: 13 R459 does not say; log entry 95). -/
def sentAs (p : NetPath) (port : BitVec 16) (dest : RemoteAddr) (data : Bytes) : SentAs :=
  let ip : BitVec 128 := if dest.ipv6 then p.addr.ipv6.getD (Config.linkLocal p.addr.mac) else (p.addr.ipv4.getD 0).setWidth 128
  { link := sentLink p, ip, port, checksum := udpChecksum dest.ipv6 ip dest.ip port dest.port data }

/-- The path carries frames: started, not fenced, not stopped by tick loss. -/
def pathAlive (p : NetPath) : Bool := !p.fenced && !p.halted && p.mode != 0
/-- One frame leaves a path for an address, or is suppressed and counted. -/
def sendOn (isB : Bool) (dest : Option RemoteAddr) (h : HtlHeader) (payload : Bytes) (tag : BitVec 128) (d : Device) : Device :=
  let p := pathOf isB d
  if !pathAlive p then d
  else match dest with
    | some a =>
      if p.linkUp && !p.offline then
        { netCount isB 1 d with out := d.out ++ [.frame isB a (sentAs p d.net.htlPort a (headerBytes h ++ payload ++ bvBytes 16 tag)) h payload tag] }
      else netCount isB 8 d
    | none => netCount isB 8 d
/-- One clear frame leaves a path for an address, or is suppressed and counted. -/
def sendClear (isB : Bool) (dest : Option RemoteAddr) (h : HtlHeader) (payload : Bytes) (d : Device) : Device :=
  let p := pathOf isB d
  if !pathAlive p then d
  else match dest with
    | some a =>
      if p.linkUp && !p.offline then { netCount isB 1 d with out := d.out ++ [.clearFrame isB a (sentAs p d.net.htlPort a (headerBytes h ++ payload)) h payload] }
      else netCount isB 8 d
    | none => netCount isB 8 d

/-! ### Authority (13 R488 to R490) -/

/-- Path B holds authority: its claim is the higher. -/
def authorityB (n : Net) : Bool := decide (n.a.claim < n.b.claim)
def liveAuthority (n : Net) : Bool := if authorityB n then pathAlive n.b else pathAlive n.a

/-- A write to the session table with a claim: accepted when it is at least the highest accepted, which it becomes;
otherwise discarded and counted (13 R488, 01 R24). -/
def tableWrite (isB : Bool) (f : Net → Net) (d : Device) : Device :=
  if d.net.highClaim ≤ (pathOf isB d).claim then
    { d with net := f { d.net with highClaim := (pathOf isB d).claim } }
  else netCount isB 6 d

/-- A write of a session's entry by the path that holds authority. -/
def pathWrite (i : Nat) (f : Session → Session) (d : Device) : Device :=
  tableWrite (authorityB d.net) (fun n => { n with sessions := tabSet i (f (tabGetD i { gen := n.gen0 } n.sessions)) n.sessions }) d

def sessionId (i : Nat) (s : Session) : BitVec 32 := s.gen ++ BitVec.ofNat 16 i
/-- The path that holds authority raises the ceiling when at most 512 reserved numbers remain (13 R489). -/
def raiseCeiling (i : Nat) (d : Device) : Device :=
  let s := sessionOf i d
  doIf (liveAuthority d.net && decide (s.egressCeiling - s.egressNext ≤ 512))
    (pathWrite i (fun s => { s with egressCeiling := s.egressCeiling + 1024 })) d
/-- A direction has used all 2^32 numbers of an epoch (13 R482). -/
def exhausted (s : Session) : Bool := decide (2 ^ 32 ≤ s.high - s.epochIngress) || decide (2 ^ 32 ≤ s.egressNext - s.epochEgress)
def inUse (s : Session) : Bool := s.state == .established || s.state == .rekeying
/-- A session whose numbers of the epoch are used up closes (13 R482). -/
def closeExhausted (i : Nat) (d : Device) : Device :=
  let s := sessionOf i d
  doIf (inUse s && exhausted s) (pathWrite i (fun s => { s with state := .closing })) d
/-- A session can issue an egress number now (13 R489). -/
def canIssue (s : Session) : Bool := decide (s.egressNext < s.egressCeiling)

/-- rekey_due: either direction has used 2^31 numbers in the epoch, or the epoch is rekey_s old (13 R483). -/
def rekeyDueNow (tick rekeyS : Nat) (s : Session) : Bool :=
  s.rekeyDue || decide (2 ^ 31 ≤ s.high - s.epochIngress) || decide (2 ^ 31 ≤ s.egressNext - s.epochEgress) ||
  decide (rekeyS * secTicks ≤ tick - s.epochStart)

/-- Note the number a path encrypted for a session (13 R493). -/
def noteEncrypted (i n : Nat) (p : NetPath) : NetPath :=
  if pathAlive p then { p with encrypted := tabSet i n p.encrypted } else p

/-- Release one encrypted frame of a session under the next egress number, with identical bytes on both paths
(13 R475, R479, R489). The caller has checked `canIssue`. -/
def sendSession (i : Nat) (type : Byte) (plain : Bytes) (d : Device) : Device :=
  let s := sessionOf i d
  let due := rekeyDueNow d.time.ticks d.net.rekeyS s
  let ks := (keyFor d i s false s.epoch).getD []
  let h : HtlHeader := { type := type, length := BitVec.ofNat 16 (plain.length + 16), session := sessionId i s,
                         seq := BitVec.ofNat 64 s.egressNext, epoch := s.epoch, flags := if due then 1 else 0 }
  let payload := gcmXor (ks.take 32) (nonceOf ks s.egressNext) plain
  let tag := gcmTag (ks.take 32) (nonceOf ks s.egressNext) (headerBytes h) payload
  let n := s.egressNext
  let d := closeExhausted i (raiseCeiling i (setSession i { s with egressNext := n + 1, rekeyDue := due } d))
  let d := { d with net := { d.net with a := noteEncrypted i n d.net.a, b := noteEncrypted i n d.net.b } }
  sendOn true s.remoteB h payload tag (sendOn false s.remoteA h payload tag d)

/-- Free a session's index: its generation increments for the next use (13 R465). -/
def freeSession (i : Nat) (d : Device) : Device := pathWrite i (fun s => { gen := s.gen + 1 }) d
/-- Sessions that are not Free, of the part and of a tenant (13 R742). -/
def liveSessions (n : Net) : List (Nat × Session) := n.sessions.filter (fun p => p.2.state ≠ .free)
def tenantSessions (t : Nat) (n : Net) : Nat := ((liveSessions n).filter (fun p => decide (p.2.tenant = t))).length

/-- The plaintext of an ABORT (13 R473). -/
def abortPlain (nonce : Bytes) (reason : Byte) : Bytes := fit 32 nonce ++ [reason, 0, 0, 0]
/-- Send ABORT on a path to an address, and count it. -/
def sendAbort (isB : Bool) (dest : Option RemoteAddr) (session : BitVec 32) (nonce : Bytes) (reason : Byte) (d : Device) : Device :=
  let h : HtlHeader := { type := 0x1F, length := 36, session := session }
  let sent := pathAlive (pathOf isB d) && (pathOf isB d).linkUp && !(pathOf isB d).offline && dest.isSome
  let e := sendClear isB dest h (abortPlain nonce reason) d
  if sent then netCount isB 9 e else e
/-- A handshake of a client nonce has failed: a further copy of its HELLO is answered with the reason (13 R473). -/
def noteRefused (nonce : Bytes) (reason : Byte) (n : Net) : Net :=
  { n with nonces := n.nonces.map (fun p => if p.nonce = nonce then { p with refused := some reason } else p) }
/-- Answer a failed handshake: ABORT on every path that received a copy of the HELLO, to the address that it came from or that the path
has learned since, and free the index (13 R473). -/
def abortSession (i : Nat) (reason : Byte) (d : Device) : Device :=
  let s := sessionOf i d
  let d := { d with net := noteRefused s.nonce reason d.net }
  let d := if s.helloA.isSome then sendAbort false (s.remoteA.or s.helloA) (sessionId i s) s.nonce reason d else d
  let d := if s.helloB.isSome then sendAbort true (s.remoteB.or s.helloB) (sessionId i s) s.nonce reason d else d
  freeSession i d

/-- Free every session without any frame (17 R583; 13 R490). -/
def freeAllSessions (d : Device) : Device :=
  { d with net := { d.net with sessions := tabMap (fun _ s => if s.state = .free then s else { gen := s.gen + 1 }) d.net.sessions
                               handover := none, heldHellos := [], helloParts := [], nonces := [], replies := [] } }

end Sys2Proof.Machine
end

