-- ==== Sys2Proof/Machine/Handshake.lean ====
section
/-! DEFINITION. The HTL handshake and the takeover (13 R469 to R474, R491 to R494): the operations that several
commands share. -/

namespace Sys2Proof.Machine

/-! ### The handshake (13 R469 to R473, R742) -/

/-- The fields of a HELLO (13 R469). -/
def helloTenant (p : Bytes) : Nat := (byteAt p 0).toNat
def helloNonce (p : Bytes) : Bytes := field p 4 32
def helloClient (p : Bytes) : Bytes := field p 36 8
def helloPoint (p : Bytes) : Bytes := field p 44 65
def helloKey (p : Bytes) : Bytes := field p 109 1184

/-- A peer point passes the checks that are forced for it: range, curve, infinity and small subgroup (06 R218, R219). -/
def pointOk (curve : Byte) (xy : Bytes) : Bool :=
  let n := xy.length / 2
  decide (beNat (xy.take n) < curvePrime curve) && decide (beNat (xy.drop n) < curvePrime curve) &&
  curveOnCurve curve xy && !curveSmall curve xy
/-- The client record of a tenant that a fingerprint names (13 R469, 15 R531). -/
def clientOf (t : Nat) (fp : Bytes) (d : Device) : Option Client :=
  ((tenantOf t d).clients.map (·.2)).find? (fun c => c.fingerprint == fp)

/-- A free index of the session table, searched from a place the specification leaves open. -/
def freeIndexGo (n : Net) : Nat → Nat → Option Nat
  | 0, _ => none
  | fuel + 1, i =>
    if (tabGetD (i % 65536) ({} : Session) n.sessions).state = .free then some (i % 65536) else freeIndexGo n fuel (i + 1)
def freeIndex (d : Device) : Option Nat :=
  if 65536 ≤ (liveSessions d.net).length then none
  else freeIndexGo d.net (d.net.sessions.length + 1) (Config.sessionChoice d.draws)

/-- Learn the remote address of a session on the path of a frame (13 R460). -/
def learn (isB : Bool) (a : RemoteAddr) (s : Session) : Session :=
  { s with remoteA := if isB then s.remoteA else some a, remoteB := if isB then some a else s.remoteB }
/-- A path received a copy of the session's HELLO from an address. -/
def via (isB : Bool) (a : RemoteAddr) (s : Session) : Session :=
  { s with helloA := if isB then s.helloA else some a, helloB := if isB then some a else s.helloB }

/-- Send a clear message of a handshake in segments that fit max_frame, on both paths (13 R471, R479). -/
def sendMessage (type : Byte) (session : BitVec 32) (a b : Option RemoteAddr) (m : Bytes) (d : Device) : Device :=
  let parts := chunks (d.net.maxFrame - 20) m
  let lastIx := parts.length - 1
  doEach (parts.zip (List.range parts.length)) (fun p d =>
    let h : HtlHeader := { type := type, length := BitVec.ofNat 16 p.1.length, session := session,
                           seg := if parts.length = 1 then 0 else BitVec.ofNat 8 (16 * p.2 + lastIx) }
    sendClear true b h p.1 (sendClear false a h p.1 d)) d

/-- Random bytes of one handshake: part nonce, ECDH scalar, encapsulation seed, ECDSA k, ML-DSA rnd, and a second k for where the first
gives no signature (log entry 81). -/
def helloDraw : Nat := 192

/-- The session entry of an accepted HELLO and its ACCEPT message (13 R469, R470, R472). -/
def acceptHello (isB : Bool) (f : Frame) (twin : Option RemoteAddr) (i : Nat) (d : Device) : Session × Bytes :=
  let p := f.payload
  let r := drawn (pathInst (authorityB d.net)) helloDraw d
  let scalar := beNat (field r 32 32) % (curveOrder 0x01 - 1) + 1
  let seed := field r 64 32
  let ek := helloKey p
  let s0 : Session := { gen := (sessionOf i d).gen }
  let head := beBytes 4 (sessionId i s0).toNat ++ field r 0 32 ++ uncompressed (curvePublic 0x01 scalar []) ++
    mlKemCiphertext {} 3 ek seed
  let th1 := sha384 (p ++ head)
  let ss := curveSharedX 0x01 scalar ((helloPoint p).drop 1) [] ++ mlKemKeyOf 3 ek seed
  let tail := fit 64 (ecdsaFirst 0x01 (htlEc d) (sha256 th1)
      [beNat (field r 96 32) % (curveOrder 0x01 - 1) + 1, beNat (field r 160 32) % (curveOrder 0x01 - 1) + 1]) ++
    mlDsaSign {} 65 (htlSeed d) 0x01 (field r 128 32) (ascii "HTL1".toList) th1
  let s1 := { s0 with state := .handshake, tenant := helloTenant p, nonce := helloNonce p, th1 := th1, acceptTail := tail
                      prk := hkdfExtract 0x63 th1 ss, clientFp := helloClient p, acceptAt := d.time.ticks, lastFrame := d.time.ticks }
  let s2 := via isB f.link.source s1
  (match twin with | some a => via (!isB) a s2 | none => s2, head ++ tail)

/-- The reason for which a HELLO is refused, if any (13 R473, R742); without device service nothing can be drawn or signed (09 R326). -/
def helloRefusal (p : Bytes) (d : Device) : Option Byte :=
  let t := helloTenant p
  if byteAt p 1 ≠ 0x01 then some 0x04
  else if (tenantOf t d).sessionLimit ≤ tenantSessions t d.net then some 0x03
  else if (freeIndex d).isNone then some 0x02
  else if byteAt p 44 ≠ 0x04 ∨ !pointOk 0x01 ((helloPoint p).drop 1) ∨ !mlKemDecodes 3 (helloKey p) ∨
      (clientOf t (helloClient p) d).isNone then some 0x04
  else if !pathReady (authorityB d.net) d then some 0x04
  else none

/-- A client nonce is seen on a path, and on the other where its twin has come already. -/
def noteNonce (isB twin : Bool) (n : Bytes) (d : Device) : Device :=
  let seen : HelloSeen := { nonce := n, tick := d.time.ticks, onA := !isB || twin, onB := isB || twin }
  { d with net := { d.net with nonces := seen :: d.net.nonces.filter (fun p => p.nonce ≠ n) } }
/-- Serve a HELLO: ABORT on every path that has a copy, or an index is allocated and ACCEPT is sent (13 R472, R473). -/
def openHello (isB : Bool) (f : Frame) (twin : Option RemoteAddr) (d : Device) : Device :=
  let p := f.payload
  let d := noteNonce isB twin.isSome (helloNonce p) d
  match helloRefusal p d with
  | some reason =>
    let d := sendAbort isB (some f.link.source) 0 (helloNonce p) reason { d with net := noteRefused (helloNonce p) reason d.net }
    if twin.isSome then sendAbort (!isB) twin 0 (helloNonce p) reason d else d
  | none => doWith (freeIndex d) (fun i d =>
      let d := forDraw (pathInst (authorityB d.net)) helloDraw d
      let (s, m) := acceptHello isB f twin i d
      let d := spend (pathInst (authorityB d.net)) helloDraw d
      sendMessage 0x02 (sessionId i s) s.helloA s.helloB m (pathWrite i (fun _ => s) d)) d

/-- Serve the HELLOs held during a hand-over (13 R492, R493). -/
def serveHeld (d : Device) : Device :=
  let held := d.net.heldHellos
  doEach held (fun h => openHello h.isB h.frame h.twin) { d with net := { d.net with heldHellos := [] } }

/-! ### Takeover (13 R493) -/

/-- The per-session rule of a takeover by path Y at its new claim. -/
def takeoverSession (y : NetPath) (copied : Tab Nat) (claim i : Nat) (s : Session) : Session :=
  if s.state = .free then s
  else
    let own := max s.egressNext (match tabGet i y.encrypted with | some n => n + 1 | none => 0)
    let next := max own (tabGetD i 0 copied) + 4096
    { s with egressNext := next, egressCeiling := next + 1024, takeoverClaim := claim,
             state := if s.state = .rekeying ∧ s.rekeyOpen.isSome then .established else s.state, rekeyOpen := none }

/-- Path Y (B when `isB`) takes over from a silent or fenced path (13 R493); a REKEY_ACK not yet released is forgotten (R486). -/
def takeover (isB : Bool) (d : Device) : Device :=
  let y := pathOf isB d
  let running := d.net.handover.isSome
  let copied := match d.net.handover with | some h => h.copied | none => []
  let old := (pathOf (!isB) d).claim
  let claim := max (max y.claim old) d.net.highClaim + 1
  let adjusted := (liveSessions d.net).length
  let d := modPath isB (fun p => { p with
    claim := claim, takeoverDone := true, aborted := p.aborted || running
    copied := if running then min adjusted (Config.sessionsCopied d.time.ticks) else p.copied }) d
  let d := tableWrite isB (fun n => { n with
    handover := none, sessions := tabMap (takeoverSession y copied claim) n.sessions, replies := n.replies.filter (fun r => r.type ≠ 0x15) }) d
  let d := emit .alarm 0x0602 (.path isB) (leBytes 4 old ++ leBytes 4 claim ++ leBytes 4 adjusted) d
  let waiting := (d.net.sessions.filter (fun p => p.2.state = .handshake)).map (·.1)
  serveHeld (doEach waiting (fun i => abortSession i 0x01) d)

/-- The receiving path of a hand-over fails or goes offline: the hand-over ends, and the held HELLOs are served (13 R491). -/
def abandonHandover (d : Device) : Device :=
  match d.net.handover with
  | none => d
  | some h => serveHeld (modPath h.fromB (fun p => { p with handover := false }) { d with net := { d.net with handover := none } })

/-- Fence a path until the next start; the other takes over when the fenced one held authority (02 R61, 13 R493, R494). -/
def fencePath (isB : Bool) (reporter : Region) (d : Device) : Device :=
  let p := pathOf isB d
  if p.fenced then d
  else
    let held := decide (authorityB d.net = isB)
    let d := modPath isB (fun p => { p with fenced := true }) d
    let d := emitVia .custody .alarm 0x0105 (.path isB) 0xFF none
      (leBytes 1 (regionNo (.path isB)) ++ leBytes 1 (regionNo reporter)) (openWindow .recovery d)
    if held && pathAlive (pathOf (!isB) d) then takeover (!isB) d else abandonHandover d

end Sys2Proof.Machine
end

