-- ==== Sys2Proof/Machine/Response.lean ====
section
/-! DEFINITION. Re-masking, the Cullet line, tamper responses, locking and the work after an unlock (03, 16, 17, 22). -/

namespace Sys2Proof.Machine

/-! ### Custody draws and re-masking (03 R105 to R109, 01 R15) -/

/-- A bench receives a new bench key and starts to re-scramble (01 R15). -/
def rescrambleWith (b : Nat) (key : Bytes) (d : Device) : Device :=
  modBench b (fun x => { x with nextKey := bytesBv 256 key, rescramble := some 0, rescrambleQueued := false }) d
def rescramble (b : Nat) (d : Device) : Device := withKeyDraw 32 (rescrambleWith b) d
/-- The benches in service. -/
def benchesInService (d : Device) : List Nat := (d.benches.filter (fun p => p.2.inService)).map (·.1)
/-- Bytes that give every bench in service a key. -/
def benchKeyBytes (d : Device) : Nat := 32 * (benchesInService d).length
/-- Every bench in service re-scrambles, at once or after the re-scramble that still runs in it (DESIGN CHOICE: 01 R15 does not say what a
re-mask does to a re-scramble that still runs; log entry 39). -/
def rescrambleAll (keys : Bytes) (d : Device) : Device :=
  let bs := benchesInService d
  doEach ((List.range bs.length).zip bs) (fun p d =>
    if (benchOf p.2 d).rescramble.isSome then modBench p.2 (fun x => { x with rescrambleQueued := true }) d
    else rescrambleWith p.2 (field keys (32 * p.1) 32) d) d
/-- A row of a bench is converted; after the last a re-scramble that waits begins. -/
def rowDone (b row : Nat) (d : Device) : Device :=
  let d := modBench b (rowConverted row) d
  if (benchOf b d).rescramble.isNone && (benchOf b d).rescrambleQueued && d.gather.service then rescramble b d else d
/-- The keys of the session table go under the new root with the first step (DESIGN CHOICE: 03 R105 converts the slots of the key store, and
13 R487 does not say when the entries are converted; log entry 97). -/
def remaskSessions (old : Device) (d : Device) : Device :=
  let convert : Nat → Session → Session := fun i s =>
    if s.keys.isEmpty then s else withKeys d i (clearKeys old i s) (clearPrev old i s) s
  { d with net := { d.net with sessions := tabMap convert d.net.sessions } }
/-- A re-mask begins: the new root goes into the register that the current epoch does not use (03 R105). It is drawn together with the keys
of the benches. -/
def startRemask (d : Device) : Device :=
  withKeyDraw (32 + benchKeyBytes d) (fun r d =>
    let new := !d.keys.epoch
    let root := bytesBv 256 (r.take 32)
    rescrambleAll (r.drop 32) (remaskSessions d { d with
      custody := { d.custody with root0 := if new then d.custody.root0 else root, root1 := if new then root else d.custody.root1 }
      keys := { d.keys with epoch := new, remaskActive := true, cursor := 0, stepLeft := 0, awaits := none, converting := none
                            lastRemask := d.time.ticks } })) d
/-- A request for a re-mask: at once, or queued and merged while one runs (03 R109). Its root cannot be drawn after device service has
stopped: the request stays queued (09 R326). -/
def requestRemask (d : Device) : Device :=
  if !d.keys.ready then d
  else if d.keys.remaskActive || !d.gather.service then { d with keys := { d.keys with remaskQueued := true } }
  else startRemask d
/-- After the last slot: the old root is erased, and a queued request starts (03 R108, R109). -/
def endRemask (d : Device) : Device :=
  let e := d.keys.epoch
  let d := { d with
    custody := { d.custody with root0 := if e then 0 else d.custody.root0, root1 := if e then d.custody.root1 else 0 }
    keys := { d.keys with remaskActive := false, completed := satInc d.keys.completed } }
  let d := emit .info 0x0202 .keyStore ([if e then 1 else 0] ++ leBytes 1 d.keys.completed.toNat) d
  if d.keys.remaskQueued && d.gather.service then startRemask { d with keys := { d.keys with remaskQueued := false } } else d

/-! ### Tenant roots of the journal (16 R555, 03 R114) -/

/-- A root of the journal, decrypted under the TRJ key, when its tag verifies. -/
def rootOfEntry (d : Device) (e : RootEntry) : Option Bytes :=
  let aad : Bytes := leBytes 1 e.tenant ++ [e.version, e.suite]
  if gcmTag (trjKey d) e.nonce aad e.cipher = e.tag then some (gcmXor (trjKey d) e.nonce e.cipher) else none
/-- The journal entry of a root. -/
def makeEntry (d : Device) (t : Nat) (version suite : Byte) (nonce root : Bytes) : RootEntry :=
  let cipher := gcmXor (trjKey d) nonce root
  { tenant := t, version, suite, nonce, cipher,
    tag := gcmTag (trjKey d) nonce (leBytes 1 t ++ [version, suite]) cipher }
/-- Load every tenant root of the journal into its reserved slot, later entries over earlier ones (03 R114 step 3). -/
def loadRoots (d : Device) : Device :=
  if !d.battery.vaultValid then d
  else doEach d.flash.roots (fun e d =>
    doWith (rootOfEntry d e) (fun r => loadRoot e.tenant e.version e.suite r) d) d

/-! ### Clears of a lock, an Excursion and the Cullet line (06 R231, 08 R283, 09 R328) -/

def clearBlock (b : EngineBlock) : EngineBlock := { b with engines := tabMap (fun _ => emptyEngine) b.engines }
/-- Invalidate every entry of a bench's digest cache, each counted (08 R295, R302). -/
def flushCache (b : Bench) : Bench :=
  { b with cache := [], punty := { b.punty with ctr := if b.cache.isEmpty then b.punty.ctr else ctrAdd 4 b.cache.length b.punty.ctr } }
def clearBench (b : Bench) : Bench :=
  let b := clearAllScratch (flushCache b)
  { b with marver := clearBlock b.marver, cipher := clearBlock b.cipher, punty := clearBlock b.punty }
/-- Scratch, key registers, digest caches, the seal key, the keys at the engine ports and the Gather state. -/
def clearUse (d : Device) : Device :=
  { d with
    benches := tabMap (fun _ => clearBench) d.benches
    custody := { d.custody with sealKey := 0 }
    keys := { d.keys with ports := [] }
    gather := eraseGather d.time.ticks d.gather }

/-- Migration sweeps end without completing (03 R119). -/
def endSweeps (k : KeyStore) : KeyStore :=
  { k with sweeps := tabMap (fun _ s => { s with active := false, waiting := false }) k.sweeps }

/-! ### Image writes (15 R540, R542) -/

/-- The copy not selected at this start is Evening; in states without a copy it is Morning (15 R538). -/
def targetEvening (f : Flash) : Bool := f.selected == 1
/-- Slot 2 is the slot not selected at this start. -/
def targetSlot2 (f : Flash) : Bool := f.fwSlot == 1
def setCopy (c : FlashCopy) (f : Flash) : Flash :=
  if targetEvening f then { f with evening := some c } else { f with morning := some c }
def setImage (i : FlashImage) (f : Flash) : Flash :=
  if targetSlot2 f then { f with slot2 := some i } else { f with slot1 := some i }
/-- An image write that is abandoned leaves its area torn: its signatures fail (15 R540, R542). -/
def tearImage (f : Flash) : Flash :=
  match f.imageWrite with
  | none => f
  | some w =>
    let f := { f with imageWrite := none }
    if w.kind = 3 then setImage { bytes := w.image, signaturesOk := false, sectionsOk := false } f
    else setCopy { bytes := w.image, ecOk := false, mlOk := false } f

/-! ### Stopping the work of the part (17 R583, 16 R572, 11 R397) -/

/-- Jobs discarded, use cleared, lookups refused, quorum, component sessions, sweeps and image write ended. -/
def stopWork (d : Device) : Device :=
  let d := clearUse (discardAll d)
  { d with
    keys := endSweeps { d.keys with refusing := true }
    custody := { d.custody with quorum := none, sessions := [] }
    flash := tearImage d.flash }

/-- The Cullet line fires (17 R588 to R590): roots, keys and session keys are erased, the array overwrite starts. -/
def fireCullet (d : Device) : Device :=
  let d := freeAllSessions (clearUse d)
  let d := { d with
    custody := { d.custody with root0 := 0, root1 := 0, scrambleKey := 0, sessions := [] }
    keys := endSweeps { d.keys with refusing := true, remaskActive := false, remaskQueued := false, converting := none
                                    stepLeft := 0, awaits := none }
    tamper := { d.tamper with culletFired := true, overwriteActive := true, overwriteDone := false
                              firings := satInc d.tamper.firings, cursor := 0, culletTick := watch d } }
  emitC .tamper 0x0A03 (leBytes 4 (watch d).toNat) d

/-! ### Debug levels (22 R705, R708) -/

def levelNo : DebugLevel → Nat
  | .closed => 0
  | .diagnostic => 1
  | .full => 2
/-- Change the debug level, with its event; a level that is already in force changes nothing. -/
def setLevel (l : DebugLevel) (hours : Nat) (d : Device) : Device :=
  if d.power.level = l then d
  else emitC .notice 0x0904 (leBytes 1 (levelNo l) ++ leBytes 1 hours)
    { d with power := { d.power with level := l, opened := d.power.opened || l != .closed } }

/-! ### Trips (17 R580, R583 to R587, R602) -/

/-- The lock cause after a trip (17 R584). -/
def tripCause (breach : Bool) (c : LockCause) : LockCause :=
  if breach then .breach else if c = .breach then .breach else .excursion
/-- The response of a source to its trip. -/
def respond (n : Nat) (night : Bool) (seconds : BitVec 40) (d : Device) : Device :=
  let s := sourceOf n d
  let from_ := state d
  let lockable := from_ == .owned || from_ == .operational
  let lockDue := lockable
  let evidenceDue := from_ != .blank && !s.counted && !saturated (fuseGet (.evidence n) d.fuses)
  let d := setSource n { s with trips := satInc s.trips, counted := s.counted || from_ != .blank } d
  let d := if isBreach n then fireCullet d else d
  let d := freeAllSessions (stopWork d)
  let d := { d with
    custody := { d.custody with lockCause :=
      if lockable || from_ == .locked then tripCause (isBreach n) d.custody.lockCause else d.custody.lockCause }
    battery := { d.battery with latches :=
      if lockDue || evidenceDue then d.battery.latches ++ [{ source := n, seconds, night, lockDue, evidenceDue }]
      else d.battery.latches }
    start := if d.start.done then d.start
             else { d.start with excursion := d.start.excursion || !isBreach n, breached := d.start.breached || isBreach n } }
  let d := noteTransition from_ d
  let dets := (if s.detA then 1 else 0) + (if s.detB then 2 else 0)
  let d := emitC .tamper 0x0A01 (leBytes 1 n ++ leBytes 1 dets ++ leBytes 1 (if isBreach n then 0 else 1)) d
  wake 3 3 (setLevel .closed 0 d)

/-- A detector trips: a quiet source trips and responds; a source tripped or clearing stays tripped (17 R580). -/
def tripSource (n : Nat) (det : Detector) (d : Device) : Device :=
  if !srcEnabled n d || !d.tamper.armed then d
  else
    let s := sourceOf n d
    let quiet := s.state == .quiet
    let d := setSource n { s with detA := s.detA || det == .detA, detB := s.detB || det == .detB, state := .tripped } d
    if quiet then respond n false d.battery.opSeconds d else d

/-- A Notice (17 R582, R604): an Alarm, 10 s of ALARM_N, a wake from Dusk. -/
def notice (n : Nat) (det : Detector) (d : Device) : Device :=
  let s := sourceOf n d
  let d := setSource n { s with notices := satInc s.notices, noticeSeen := true
                                noticeUntil := some (d.time.ticks + 10 * secTicks) } d
  wake 3 3 (emitC .alarm 0x0A02 (leBytes 1 n ++ [if det == .detA then 0 else 1]) d)

/-- A source is tripped or clearing. -/
def sourceActive (n : Nat) (d : Device) : Bool := srcEnabled n d && (sourceOf n d).state != .quiet
def anyActive (d : Device) : Bool := (List.range 16).any (fun n => sourceActive n d)

/-! ### Locks without a trip (16 R559, R577) -/

/-- Owned, Operational or Locked (16 R563, R708). -/
def ownedOrMore (d : Device) : Bool := state d == .owned || state d == .operational
def ownedOrLocked (d : Device) : Bool := ownedOrMore d || state d == .locked
/-- A level that the lifecycle state does not permit closes (22 R708, R709). -/
def closeUnpermitted (d : Device) : Device :=
  let keep : Bool := match d.power.level with
    | .closed => true
    | .diagnostic => ownedOrLocked d
    | .full => state d == .blank || state d == .erased
  if keep then d else setLevel .closed 0 d
/-- Entry to Locked for a cause other than a trip; the burn is made at once. With lock_count saturated the part is retired instead,
where no debug level above Closed may stay open (16 R560, 22 R709). -/
def enterLocked (cause : LockCause) (d : Device) : Device :=
  let from_ := state d
  if from_ ≠ .owned ∧ from_ ≠ .operational then d
  else
    let d := burnLock (stopWork { d with custody := { d.custody with lockCause := cause } })
    wake 3 3 (closeUnpermitted (noteTransition from_ d))

/-! ### Heartbeats (02 R741) -/

/-- The custody partition raises a heartbeat to a region. When a region comes into service the spec says for the benches only (the
end of roll-call); the key store, the paths, the host region and the NVM interface region take it at the ends of phases 7, 9, 10
and 4 (DESIGN CHOICE, log entry 87). -/
def beginHeartbeat (r : Region) (d : Device) : Device :=
  { d with custody := { d.custody with
      heartbeats := d.custody.heartbeats.filter (fun p => p.1 ≠ r) ++ [(r, d.time.ticks)] } }

/-! ### The work of an unlock (16 R576; 17 R594, R599) -/

/-- A new root 0 and a new scramble key, with what else is drawn with them. -/
def drawStoreKeys (more : Nat) (f : Bytes → Device → Device) (d : Device) : Device :=
  withKeyDraw (48 + more) (fun r d =>
    f (r.drop 48) { d with custody := { d.custody with root0 := bytesBv 256 (r.take 32), root1 := 0, scrambleKey := bytesBv 128 (field r 32 16) } }) d
/-- The key store is rebuilt: a new root 0 and scramble key, every slot Free of a new generation, the tenant roots. -/
def rebuildKeyStore (d : Device) : Device :=
  let d := drawStoreKeys 0 (fun _ d => d) d
  loadRoots { d with keys := { d.keys with slots := [], faultMap := [], epoch := false, cursor := 0
                                           gen0 := startGen (d.battery.cycles.toNat + thermVal d.fuses.unlockCount) } }
/-- The burns that one trip latch calls for (17 R583, R585, R587). -/
def burnLatch (l : TripLatch) (d : Device) : Device :=
  let from_ := state d
  let d := if l.lockDue then burnLock d else d
  let d := if l.evidenceDue then burn (.evidence l.source) d else d
  noteTransition from_ { d with battery := { d.battery with latches := d.battery.latches.filter (fun x => x ≠ l) } }
/-- The burns of every latch that a test selects. -/
def burnLatches (p : TripLatch → Bool) (d : Device) : Device := doEach (d.battery.latches.filter p) burnLatch d

/-- The start window ends once the part is Operational after start (04 R170). -/
def closeStartWindow (d : Device) : Device := if d.start.done && state d == .operational then closeWindow .start d else d
/-- A source that has burned evidence may burn again once the part has left Locked (17 R585). -/
def uncountSources (d : Device) : Device :=
  { d with tamper := { d.tamper with sources := tabMap (fun _ s => { s with counted := false }) d.tamper.sources } }
/-- Leave Locked: the cause cleared, Gather instantiated again, a rebuild or a re-mask, dispatch resumed (16 R576). -/
def unlockWork (d : Device) : Device :=
  let from_ := state d
  let breach := d.custody.lockCause == .breach
  let vault := d.custody.lockCause == .vaultLost
  let d := burn .unlockCount (burnLatches (fun _ => true) d)
  let d := { d with
    custody := { d.custody with lockCause := .none }
    tamper := { d.tamper with glitchSet := d.time.ticks } }
  let d := instantiateAll (noteTransition from_ (uncountSources d))
  let d := if vault then withKeyDraw 32 (fun r d =>
      { d with battery := { d.battery with vaultKey := bytesBv 256 r, vaultValid := true } }) d else d
  let d := if breach then rebuildKeyStore d else requestRemask d
  closeStartWindow { d with keys := { d.keys with refusing := state d != .operational }, gaffer := { d.gaffer with stopped := false } }

/-! ### Retirement (16 R559) -/

/-- Latches call for no lock any more: no lock is burned in Erased or Retired (16 R560). -/
def dropLocks (b : Battery) : Battery := { b with latches := b.latches.map (fun l => { l with lockDue := false }) }
/-- Every exit from Locked counts evidence anew, instantiates Gather again and starts a re-mask (03 R109; 09 R328; 17 R585); one from
another state does none of it. -/
def remaskOnExit (from_ : Lifecycle) (d : Device) : Device :=
  if from_ == .locked then requestRemask (instantiateAll (uncountSources d)) else d
/-- The retired fuse is burned (16 R559). -/
def burnRetired (d : Device) : Device :=
  let from_ := state d
  let d := { d with fuses := { d.fuses with retired := true }, battery := { dropLocks d.battery with vaultKey := 0, vaultValid := false } }
  remaskOnExit from_ (closeUnpermitted (noteTransition from_ { d with custody := { d.custody with lockCause := .none } }))

end Sys2Proof.Machine
end

