-- ==== Sys2Proof/Machine/FaultOps.lean ====
section
/-! DEFINITION. Single faults (20; 06 R203 to R234; 08 R277, R299): cores, engines, memory rows, silent regions. -/

namespace Sys2Proof.Machine

def faultKind (k : BitVec 4) (d : Device) : Device := { d with gaffer := { d.gaffer with lastFaultKind := k } }
/-- A core or bench is withdrawn: trace kind 0x08 (04 R171). -/
def traceUnit (b : Nat) (core : Byte) (d : Device) : Device := traceEntry 0x08 0 (if core = 0xFF then 0xFF else BitVec.ofNat 8 (16 * b) + core) 0 0 0 d

/-! ### Stepped operations that lose their state (20 R657) -/

/-- The saved state is lost: an atomic operation starts again with a new ticket of its stream, a progressive one ends
with 0x050B. -/
def loseState (id : Nat) (d : Device) : Device :=
  match jobOf id d with
  | none => d
  | some j =>
    if progressive j.recipe.toNat then squashJob id 0x050B d
    else if j.reentered || listFull j.tenant d then squashJob id 0x0503 d
    else
      let d := reenterJob id d
      let t := ticketOf j.stream d
      let d := modJob id (fun j => { j with ticket := t, step := 0, saved := [] }) (dropState id d)
      { d with gaffer := { d.gaffer with tickets := assocSet j.stream (t + 1) d.gaffer.tickets
                                         retirePtr := assocSet j.stream t d.gaffer.retirePtr } }
/-- The operation's state lies on a bench, or is still to be fetched from it. -/
def stateOn (b : Nat) (j : Job) : Bool :=
  decide (j.savedBench = some b) && decide (j.step ≠ 0) && j.staged.isNone &&
  (match j.place with | .ready => true | .core _ _ => true | _ => false)

/-! ### Fencing a bench (20 R651, R653, R657; 02 R61; 09 R325; 01 R16) -/

/-- A bench without units, memory or firmware. -/
def fencedBench (b : Bench) : Bench :=
  { eraseRows (fun r => decide (r < firmwareRows)) b with
           inService := false, fenced := true, firmware := false, cache := [], rescramble := none, rescrambleQueued := false
           cores := tabMap (fun _ c => { c with state := .absent, job := none, blockedAtLehr := false, localMem := [] }) b.cores
           marver := { b.marver with engines := tabMap (fun _ _ => {}) b.marver.engines, testBusy := false, testLeft := [] }
           cipher := { b.cipher with engines := tabMap (fun _ _ => {}) b.cipher.engines, testBusy := false, testLeft := [] }
           punty := { b.punty with engines := tabMap (fun _ _ => {}) b.punty.engines, testBusy := false, testLeft := [] }
           lehr := { b.lehr with ready := false } }
/-- A job of a bench that is being fenced. -/
def leaveBench (b : Nat) (j : Job) (d : Device) : Device :=
  if stateOn b j then loseState j.id d
  else match j.place with
    | .core c _ => if c = b then faultJob j.id 0x0503 d else d
    | .pending c => if c = b then faultJob j.id 0x0503 d else d
    | .retired c => if c = b then modJob j.id (fun j => { j with held := none }) d else d
    | _ => d
/-- Some campaign runs. -/
def anyCampaign (d : Device) : Bool := d.benches.any (fun p => p.2.marver.testBusy || p.2.cipher.testBusy || p.2.punty.testBusy)
/-- The campaigns of a fenced bench are over: with none left the test window ends (04 R170; 06 R241). -/
def closeIfIdle (was : Bool) (d : Device) : Device := if was && !anyCampaign d then closeWindow .test d else d
/-- Fence a bench until the next start; `reporter` is the region that reported it. -/
def fenceBench (b : Nat) (reporter : Region) (kind : BitVec 4) (d : Device) : Device :=
  if !(tabGet b d.benches).isSome || (benchOf b d).fenced then d
  else
    let d := faultKind kind (openWindow .recovery d)
    let d := doEach d.gaffer.jobs (leaveBench b) d
    let d := closeIfIdle (anyCampaign d) (modBench b fencedBench d)
    let bit : BitVec 8 := 1 <<< b
    let d := { d with
      gaffer := { d.gaffer with requests := d.gaffer.requests.filter (fun r => r.1.bench ≠ b)
                                benchesFenced := d.gaffer.benchesFenced ||| bit }
      shares := { d.shares with pending := d.shares.pending.filter (fun r => r.core.bench ≠ b)
                                grants := d.shares.grants.filter (fun g => g.bench ≠ b) }
      keys := { d.keys with ports := d.keys.ports.filter (fun p => decide (p.1 / 2 ≠ b)) }
      start := if d.start.done then d.start
        else { d.start with benchesFenced := d.start.benchesFenced ||| bit
                            rollFenced := if d.start.phase = 6 then d.start.rollFenced ++ [b] else d.start.rollFenced } }
    let d := stopBenchSources b (startEntry 0x02 (BitVec.ofNat 8 b) 0xFF 0 (traceUnit b 0xFF d))
    dispatchAll (emitVia .custody .alarm 0x0105 (.bench b) 0xFF none
      (leBytes 1 b ++ leBytes 1 (regionNo reporter)) d)

/-! ### Cores (20 R650, R651; 21 R673) -/

/-- The cores of a unit: a core, or both cores of its pair. -/
def unitCores (c : CoreRef) (d : Device) : List CoreRef :=
  if izvi d then [{ c with core := 2 * (c.core / 2) }, { c with core := 2 * (c.core / 2) + 1 }] else [c]
/-- Every core of a bench is retired; in the Izvi personality, no pair is left. -/
def benchDead (b : Nat) (d : Device) : Bool :=
  (benchOf b d).cores.all (fun p => p.2.state == .retired || p.2.state == .absent)
/-- Retire a core, or a pair, until the next start. -/
def retireCore (c : CoreRef) (d : Device) : Device :=
  let n := (unitCores c d).length
  let stream := (coreOf c d).lastStream
  let ticket := (coreOf c d).lastTicket
  let d := modUnit c (fun x => { x with state := .retired, job := none, since := d.time.ticks }) (openWindow .recovery d)
  let d := { d with gaffer := { d.gaffer with
      coresRetired := d.gaffer.coresRetired + BitVec.ofNat 8 n
      requests := d.gaffer.requests.filter (fun r => r.1 ≠ c) } }
  let d := emitVia (.bench c.bench) .alarm 0x0302 (.bench c.bench) (BitVec.ofNat 8 c.core) none
    (leBytes 4 stream ++ leBytes 4 ticket.toNat) d
  let d := traceUnit c.bench (BitVec.ofNat 8 c.core) d
  if benchDead c.bench d then fenceBench c.bench (.bench c.bench) 1 d else d
/-- The stream number that an event reports: the session, or the function and queue (19 R641, DEDUCED). -/
def streamNo (s : Stream) : Nat :=
  match s with
  | .htl n => n.toNat
  | .host f q => 256 * f + q
  | .stepped n => 0x80000000 + n % 0x40000000
  | .background n => 0xC0000000 + n % 0x40000000
/-- A core fault: its job is re-entered, or ends with a code; the core is tested, or at its fourth fault retired (20
R651, R656). -/
def coreFaultWith (further : Code) (c : CoreRef) (d : Device) : Device :=
  let c := lead c d
  let x := coreOf c d
  if x.state == .retired || x.state == .absent then d
  else
    let j := match x.job with | some id => jobOf id d | none => none
    let d := doWith x.job (fun id => faultJob id further) (faultKind 1 d)
    let d := if x.state = .asking then coreCount c 3 (d.time.ticks - x.since) d else d
    let stream := match j with | some j => streamNo j.stream | none => 0
    let ticket := match j with | some j => j.ticket | none => 0
    let d := modUnit c (fun y => { y with faults := y.faults + 1, state := .testing, job := none, since := d.time.ticks
                                          blockedAtLehr := false, lastStream := stream, lastTicket := ticket }) d
    let d := { d with gaffer := { d.gaffer with requests := d.gaffer.requests.filter (fun r => r.1 ≠ c) } }
    let d := if 4 ≤ x.faults + 1 then retireCore c d
             else traceUnit c.bench (BitVec.ofNat 8 c.core) d
    dispatchAll d

def coreFault (c : CoreRef) (d : Device) : Device := coreFaultWith 0x0503 c d

/-! ### Engines (06 R232 to R234; 08 R298, R299) -/

def engineCount (b : Nat) (k : EngineKind) (n c : Nat) (d : Device) : Device := engineAdd b k n c 1 d
/-- The counter numbers of tests run, tests failed and differences of a kind (06 R240; 08 R301, R302). -/
def testRunNo : EngineKind → Nat
  | .marver => 6
  | .cipher => 7
  | .punty => 9
def testFailNo (k : EngineKind) : Nat := testRunNo k + 1
def diffNo : EngineKind → Nat
  | .marver => 5
  | .cipher => 5
  | .punty => 7
def flagNo : EngineKind → Nat
  | .cipher => 6
  | .punty => 8
  | .marver => 9
/-- An engine is held by a grant now. -/
def engineHeld (b : Nat) (k : EngineKind) (n : Nat) (d : Device) : Bool :=
  d.shares.grants.any (fun g => sameUnit b (kindCode k) n g && !g.parked)
/-- Withdraw an engine in service for its test: at once, or when its grant ends (06 R233). -/
def withdrawEngine (b : Nat) (k : EngineKind) (n : Nat) (cause : BitVec 2) (d : Device) : Device :=
  if (engineOf b k n d).state != .inService then d
  else if engineHeld b k n d then
    modEngine b k n (fun e => { e with causes := if e.causes.contains cause then e.causes else e.causes ++ [cause] }) d
  else beginTest b k n cause d
/-- The unit byte of an engine (14 R519 byte 7). -/
def engineUnit (k : EngineKind) (n : Nat) : Byte := BitVec.ofNat 8 (0x80 + 8 * kindCode k + n)
/-- Retire an engine until the next start, with its event. -/
def retireEngine (b : Nat) (k : EngineKind) (n vector : Nat) (d : Device) : Device :=
  let cause := (engineOf b k n d).katCause
  let d := modEngine b k n (fun e => { e with state := .retired, lastKat := 2, mode := 0, causes := [] }) (faultKind 2 (openWindow .recovery d))
  emitVia (.bench b) .alarm 0x0405 (.bench b) (engineUnit k n) none (leBytes 1 cause.toNat ++ leBytes 1 vector) d

/-! ### Memories (20 R652, R653, R743) -/

def memoryEvent (b : Nat) (unit : Byte) (memory row action : Nat) (d : Device) : Device :=
  gafCount 9 (faultKind 3 (emitVia (.bench b) .alarm 0x0304 (.bench b) unit none
    (leBytes 1 memory ++ leBytes 4 row ++ leBytes 1 action) d))
/-- A firmware row is reloaded from another bench in service; with none, the bench is fenced. A row outside the firmware area is none. -/
def firmwareRow (b row : Nat) (d : Device) : Device :=
  if firmwareRows ≤ row then d
  else match d.benches.find? (fun p => decide (p.1 ≠ b) && p.2.inService) with
  | some p => memoryEvent b 0xFF 0x02 row 0x01 (modBench b (writeRow row (readRow p.2 row)) d)
  | none => fenceBench b (.bench b) 3 (memoryEvent b 0xFF 0x02 row 0x05 d)
/-- Jobs whose saved state stands in a row of a bench. -/
def savedIn (b row : Nat) (d : Device) : List Nat :=
  (d.gaffer.jobs.filter (fun j => decide (j.savedBench = some b) && j.savedRows.contains row)).map (·.id)
/-- A row of the data area is replaced by a spare one, which holds none of its contents; with none left, the bench is fenced. The job
whose saved state it held loses it, and else the job that uses it is re-entered (20 R653, R657). A row outside the data area is none. -/
def dataRow (b row : Nat) (job : Option Nat) (d : Device) : Device :=
  if row < firmwareRows ∨ benchRows ≤ row then d
  else if 64 ≤ (benchOf b d).spareRows then fenceBench b (.bench b) 3 (memoryEvent b 0xFF 0x03 row 0x05 d)
  else
    let lost := savedIn b row d
    let d := modBench b (fun x => { eraseRows (fun r => r == row) x with spareRows := x.spareRows + 1 }) (memoryEvent b 0xFF 0x03 row 0x02 d)
    dispatchAll (doEach lost loseState (doWith (if lost.isEmpty then job else none) (fun id => faultJob id 0x0503) d))
/-- A correctable error: counted, and a row's fourth in one start acts as an uncorrectable one. -/
def correctableRow (b : Nat) (firmware : Bool) (row : Nat) (job : Option Nat) (d : Device) : Device :=
  let key := (if firmware then 0x10000 else 0) + row
  let n := tabGetD key 0 (benchOf b d).rowErrors + 1
  let d := gafCount 8 (modBench b (fun x => { x with rowErrors := tabSet key n x.rowErrors }) d)
  if n < 4 then d else if firmware then firmwareRow b row d else dataRow b row job d

/-! ### Silent regions (02 R61; 20 R659, R661) -/

/-- Fence the host region: the link goes down, HTL goes on (02 R61, 20 R661). -/
def fenceHost (reporter : Region) (d : Device) : Device :=
  if d.host.fenced then d
  else
    let d := faultKind 4 (openWindow .recovery { d with host := { d.host with fenced := true }, pins := { d.pins with pfAnswer := .silent } })
    emitVia .custody .alarm 0x0105 .host 0xFF none (leBytes 1 0x0C ++ leBytes 1 (regionNo reporter)) d
/-- Jobs that wait for a journal entry or an image write (20 R659). -/
def waitsOnFlash (d : Device) (j : Job) : Bool :=
  !j.gates.isEmpty || (match d.flash.imageWrite with | some w => decide (w.job = j.id) | none => false)
/-- Fence the NVM interface region: what waits on it is squashed with 0x050A (02 R61, 20 R659). -/
def fenceNvm (reporter : Region) (d : Device) : Device :=
  if d.flash.fenced then d
  else
    let waiting := (d.gaffer.jobs.filter (waitsOnFlash d)).map (·.id)
    let d := faultKind 4 (openWindow .recovery d)
    let d := { d with
      flash := { tearImage d.flash with fenced := true, writes := d.flash.writes.filter (fun w => w.durable) }
      gaffer := { d.gaffer with nvmFenced := true }
      events := { d.events with nvmOk := false, toFlash := [] } }
    let d := emitVia .custody .alarm 0x0105 .nvm 0xFF none (leBytes 1 0x0D ++ leBytes 1 (regionNo reporter)) d
    doEach waiting (fun id => squashJob id 0x050A) d
/-- The tick at which a quorum expires: 300 s after its first counted presentation, or after it was opened (16 R572). -/
def quorumEnds (q : Quorum) : Nat := q.first.getD q.opened + 300 * secTicks
/-- The consequence of a region declared silent (02 R61). The Excursion of a tick loss governs where both arise for a region: it is
not also fenced (02 R63). The key store region stays in service, and its heartbeat is raised again (02 R741; log entry 87). -/
def regionSilent (far reporter : Region) (d : Device) : Device :=
  match far with
  | .keyStore => tripSource 14 (if reporter = .custody then .detB else .detA) (doIf (decide (reporter = .custody)) (beginHeartbeat .keyStore) d)
  | .custody => d
  | _ =>
    if regionHalted d far && srcEnabled 12 d then d
    else
      let d := { d with custody := { d.custody with heartbeats := d.custody.heartbeats.filter (fun p => p.1 ≠ far) } }
      match far with
      | .bench b => fenceBench b reporter 4 d
      | .path isB => faultKind 4 (fencePath isB reporter d)
      | .host => fenceHost reporter d
      | _ => fenceNvm reporter d

end Sys2Proof.Machine
end

