-- ==== Sys2Proof/Machine/Flags.lean ====
section
/-! DEFINITION. The words of the registers the specification lays out: status flags and the fields computed from the
state. A register not named here is a plain field of the state or a counter behind a select register. -/

namespace Sys2Proof.Machine

/-! ### Packing -/

def b2n (b : Bool) : Nat := if b then 1 else 0
/-- A register word from fields given by value and lowest bit. -/
def pack (fs : List (Nat × Nat)) : Word := BitVec.ofNat 32 ((fs.map (fun p => p.1 * 2 ^ p.2)).sum)
/-- One bit per index below a bound. -/
def bitsWhere (n : Nat) (p : Nat → Bool) : Nat := ((List.range n).map (fun i => b2n (p i) * 2 ^ i)).sum
/-- A signed byte, in two's complement. -/
def signedByte (n : Int) : Byte := BitVec.ofInt 8 n

/-! ### Outputs ALARM_N and LOCK_N (17 R604) -/

/-- A Notice of the source stretches ALARM_N. -/
def noticeOn (d : Device) (n : Nat) : Bool :=
  match (sourceOf n d).noticeUntil with
  | some t => decide (d.time.ticks < t)
  | none => false
/-- ALARM_N is low. -/
def alarmLow (d : Device) : Bool :=
  outOfReset d &&
  (anyActive d || (state d == .locked && (d.custody.lockCause == .breach || d.custody.lockCause == .excursion)) ||
   d.start.stopped || (List.range 16).any (noticeOn d))
/-- LOCK_N is low. -/
def lockLow (d : Device) : Bool := outOfReset d && state d == .locked
/-- SMB_ALERT_N is low (19 R646, R647). -/
def smbAlertLow (e : Events) : Bool :=
  match e.alert with
  | .asserted _ _ => true
  | .answered => true
  | _ => false

/-! ### CUS_ registers (02 R46, 14 R520, 15 R549, 16 R578, 17 R605) -/

def cusLifecycle (d : Device) : Word :=
  pack [(stateNo (state d), 29), (b2n (decide (fuseVal .commissionCount d = fuseVal .ownCount d)), 28),
        (causeNo d.custody.lockCause, 24), (b2n d.battery.vaultValid, 23), (b2n d.custody.recordValid, 22)]
/-- The crystal has produced an edge within the last 4 ms (02 R46). -/
def xtalOk (d : Device) : Bool :=
  match d.time.lastEdge with
  | some t => decide (d.time.ticks ≤ t + 4 * msTicks)
  | none => false
def cusWatchCal (d : Device) : Word :=
  pack [(b2n (xtalOk d), 31), (d.time.trim.toNat, 24), (d.time.lastError.toNat, 8), (d.time.adjust.toNat, 0)]
def cusOtpLc (d : Device) : Word :=
  pack [(fuseVal .lockCount d, 24), (fuseVal .unlockCount d, 16), (fuseVal .ownCount d, 11), (fuseVal .eraseCount d, 6),
        (fuseVal .commissionCount d, 1), (b2n d.fuses.retired, 0)]
def cusCustodians (d : Device) : Word :=
  let r := d.custody.record
  pack [(bitsWhere 8 (fun i => (tabGet i r.cards).isSome), 24), (r.mUnlock, 20), (r.mRoot, 16), (r.mDebug, 12), (r.mAdmin, 8),
        (r.cards.length, 4)]
/-- The slot of an enrolled card. -/
def slotOfCard (d : Device) (c : Card) : Option Nat :=
  (d.custody.record.cards.find? (fun p => p.2 == c)).map (·.1)
/-- A slot of the record is presented; under procedure 0x01 the cards fill slots in order (16 R574, R575). -/
def presentedBits (d : Device) (q : Quorum) : Nat :=
  if q.procedure = 0x01 then 2 ^ q.presented.length - 1
  else bitsWhere 8 (fun i => q.presented.any (fun c => slotOfCard d c == some i))
def cusQuorum (d : Device) : Word :=
  match d.custody.quorum with
  | some q => pack [(1, 31), (q.procedure.toNat, 24), (presentedBits d q, 16), (q.required, 12)]
  | none => 0
def cusQuorumLeft (d : Device) : Word :=
  match d.custody.quorum with
  | some q => pack [((quorumEnds q - d.time.ticks) / secTicks, 0)]
  | none => 0
def portFor (portB : Bool) (d : Device) : CardPort := if portB then d.custody.portB else d.custody.portA
/-- The port that a job's card exchange uses: byte 4 of 0x0B03, byte 28 of 0x0107 (16 R570, 11 R398). -/
def cardPortOf (j : Job) : Option Bool :=
  if j.recipe = 0x0B03 then some (num j.params 4 1 == 1) else if j.recipe = 0x0107 then some (num j.params 28 1 == 1) else none
/-- The job whose exchange a port carries: of those that name it and still run, the one dispatched first. -/
def cardHolder (portB : Bool) (d : Device) : Option Job :=
  leastBy (fun a b => decide (ticksSince b.dispatch d < ticksSince a.dispatch d))
    (d.gaffer.jobs.filter (fun j => cardPortOf j == some portB && j.staged.isNone && (match j.place with | .core _ _ => true | _ => false)))
def cusPort (portB : Bool) (d : Device) : Word :=
  let p := portFor portB d
  pack [(b2n p.present, 31), (b2n p.active, 30), (b2n (p.active && (cardHolder portB d).isSome), 29), (p.lastFault.toNat, 24),
        (p.lastSw.toNat, 0)]
def cusCoWrites (d : Device) : Word := pack [(d.custody.coRegion.toNat, 16), (d.custody.coCount.toNat, 0)]
def cusStrap (d : Device) : Word :=
  pack [(b2n d.pins.strapChanged, 31), (d.pins.strapLive.toNat, 16), (d.pins.strapSampled.toNat, 0)]
def cusStart (d : Device) : Word :=
  let s := d.start
  pack [(b2n s.done, 31), (b2n s.stopped, 30), (b2n s.degraded, 29), (b2n s.traceFull, 28), (s.phase, 24),
        (s.benchesFenced.toNat, 16), (s.cause.toNat, 8), (s.pathsFenced.toNat, 6)]
/-- The four words of a start trace entry (14 R519), little-endian. -/
def startTraceBytes (t : StartTrace) : Bytes :=
  leBytes 4 t.ticks.toNat ++ [t.phase, t.kind, t.subject, t.unit] ++ leBytes 2 t.detail.toNat ++ List.replicate 6 0
def cusCfg (d : Device) : Word :=
  let f := d.flash
  pack [(f.selected.toNat, 30), (b2n d.battery.floorValid, 29), (b2n f.written, 28), (fuseVal .otpEpoch d, 22),
        (fuseVal .svnFloor d, 16), (f.fwSlot.toNat, 14), (f.fwSvn.toNat, 8), (f.morningResult.toNat, 4), (f.eveningResult.toNat, 0)]
def cusNvmWr (d : Device) : Word :=
  let kind := match imageOpen d with
    | some j => j.recipe.toNat - 0x0A0F
    | none => d.flash.wrKind.toNat
  pack [(b2n (imageOpen d).isSome, 31), (kind, 28), (d.flash.wrResult.toNat, 0)]
def trippedBits (d : Device) : Nat := bitsWhere 16 (fun n => sourceActive n d)
def cusTamper (d : Device) : Word :=
  pack [(b2n (alarmLow d), 31), (b2n (lockLow d), 30), (b2n d.tamper.nightTrip, 29), (b2n (!d.battery.latches.isEmpty), 28),
        (trippedBits d, 0)]
def cusTamperNotice (d : Device) : Word :=
  pack [(bitsWhere 16 (fun n => (sourceOf n d).noticeSeen), 16), (bitsWhere 16 (fun n => decide (1 < n) && d.fuses.tamperDisable.getLsbD n), 0)]
def cusCullet (d : Device) : Word :=
  let t := d.tamper
  pack [(b2n t.culletFired, 31), (b2n t.overwriteActive, 30), (b2n t.overwriteDone, 29), (t.firings.toNat, 21), (t.cursor, 0)]
def sourceStateNo : SourceState → Nat
  | .quiet => 0
  | .tripped => 1
  | .clearing => 2
def cusTsrc (n : Nat) (d : Device) : Word :=
  let s := sourceOf n d
  let e := fuseVal (.evidence n) d
  pack [(b2n (srcEnabled n d), 31), (if isBreach n then 0 else 1, 29), (sourceStateNo s.state, 27), (b2n s.detA, 26),
        (b2n s.detB, 25), (b2n (noticeOn d n), 24), (b2n s.night, 23), (b2n (decide (e = 32)), 22), (e, 16),
        (s.trips.toNat, 8), (s.notices.toNat, 0)]
def cusWord (off : Nat) (d : Device) : Word :=
  if off = 0x000 then cusLifecycle d
  else if off = 0x004 then cusWatchCal d
  else if off = 0x008 then cusOtpLc d
  else if off = 0x00C then cusCustodians d
  else if off = 0x010 then d.custody.record.generation
  else if off = 0x014 then cusQuorum d
  else if off = 0x018 then d.custody.quorumNumber
  else if off = 0x01C then cusQuorumLeft d
  else if off = 0x020 then cusPort false d
  else if off = 0x024 then cusPort true d
  else if off = 0x028 then cusCoWrites d
  else if off = 0x100 then cusStrap d
  else if off = 0x104 then cusStart d
  else if off = 0x108 then d.start.time
  else if off = 0x110 then cusCfg d
  else if off = 0x114 then d.flash.sequence.setWidth 32
  else if off = 0x118 then d.flash.seqLatch
  else if off = 0x11C then d.battery.floor.setWidth 32
  else if off = 0x120 then d.flash.floorLatch.setWidth 32
  else if off = 0x124 then d.flash.fwVersion
  else if off = 0x128 then cusNvmWr d
  else if off = 0x200 then cusTamper d
  else if off = 0x204 then cusTamperNotice d
  else if off = 0x208 then cusCullet d
  else if off = 0x20C then d.tamper.culletTick
  else if 0x240 ≤ off ∧ off < 0x280 ∧ off % 4 = 0 then cusTsrc ((off - 0x240) / 4) d
  else if 0x400 ≤ off ∧ off < 0x800 ∧ off % 4 = 0 then
    match d.start.trace[(off - 0x400) / 16]? with
    | some t => BitVec.ofNat 32 (num (startTraceBytes t) (off % 16) 4)
    | none => 0
  else 0

/-! ### Counters behind a select register (04 R169, 19 R642, R643) -/

def ctrLo (k : Nat) (b : CtrBlock) : Word := (ctrVal k b).setWidth 32
def ctrHi (k : Nat) (latch : BitVec 16) (b : CtrBlock) : Word :=
  pack [(b2n (tabGetD k {} b.ctrs).overflow, 31), (latch.toNat, 0)]

/-! ### EVR_ registers (19 R648) -/

def bucketOf (code : Nat) (e : Events) : EventBucket := tabGetD code {} e.buckets
def evrAlert (e : Events) : Word :=
  pack [(b2n (e.alert == .silenced), 30), (b2n e.hostNotify, 29), (e.alertMin.toNat, 24), (e.causes.toNat, 0)]
def evrRate (e : Events) : Word :=
  let b := bucketOf e.rateSel.toNat e
  pack [(b.rate, 24), (b.burst, 16), (min 0xFFFF b.suppressed.toNat, 0)]
/-- The counter that EVR_CNT_SEL selects: values above 16 read as zero. -/
def evrSel (e : Events) : Nat := (e.ctr.sel.setWidth 5).toNat
def evrWord (off : Nat) (e : Events) : Word :=
  if off = 0x00 then pack [(b2n e.nvmOk, 31), (e.ring.length, 0)]
  else if off = 0x04 then BitVec.ofNat 32 (e.nextSeq - 1)
  else if off = 0x08 then e.headLatch
  else if off = 0x0C then e.readSel.setWidth 32
  else if off = 0x10 then evrAlert e
  else if off = 0x14 then e.rateSel.setWidth 32
  else if off = 0x18 then evrRate e
  else if off = 0x1C then e.ctr.sel
  else if off = 0x20 then ctrLo (evrSel e) e.ctr
  else if off = 0x24 then ctrHi (evrSel e) e.ctr.latchPcie e.ctr
  else if 0x40 ≤ off ∧ off < 0x80 ∧ off % 4 = 0 then BitVec.ofNat 32 (num e.readCopy (off - 0x40) 4)
  else 0

/-! ### PWR_ and DBG_ registers (22 R710) -/

def powerNo : PowerMode → Nat
  | .noon => 0
  | .duskRequested => 1
  | .dusk => 2
  | .waking => 3
  | .preparingNight => 4
  | .nightReady => 5
def pwrSel (p : Power) : Nat := (p.ctr.sel.setWidth 4).toNat
def pwrWord (off : Nat) (p : Power) : Word :=
  if off = 0x00 then pack [(powerNo p.mode, 29), (b2n p.vbatLow, 28), (b2n p.batteryLost, 27), (p.wakeCause.toNat, 24)]
  else if off = 0x04 then BitVec.ofNat 32 p.idleMs
  else if off = 0x08 then BitVec.ofNat 32 p.vbatMv
  else if off = 0x0C then p.ctr.sel
  else if off = 0x10 then ctrLo (pwrSel p) p.ctr
  else if off = 0x14 then ctrHi (pwrSel p) p.ctr.latchPcie p.ctr
  else 0
/-- Whole minutes of Diagnostic left. -/
def minutesLeft (d : Device) : Nat :=
  if d.power.level = .diagnostic then (d.power.diagEnds - d.time.ticks) / (60 * secTicks) else 0
def dbgWord (off : Nat) (d : Device) : Word :=
  if off = 0x00 then pack [(levelNo d.power.level, 30), (b2n d.power.opened, 29), (minutesLeft d, 0)]
  else if off = 0x04 then pack [(d.power.refusedLevel.toNat, 30), (d.power.refusedCount.toNat, 0)]
  else 0

/-! ### KST_ registers (03 R122 to R128) -/

def kstWord (off : Nat) (d : Device) : Word :=
  let k := d.keys
  let t := k.tenantSel.toNat
  if off = 0x00 then pack [(b2n k.ready, 31), (b2n k.remaskActive, 30), (b2n k.remaskQueued, 29), (b2n k.epoch, 28), (b2n k.refusing, 27),
      ((k.sweeps.filter (fun p => p.2.active)).length, 24), (slotsUsed k, 0)]
  else if off = 0x04 then pack [(b2n k.remaskNow, 8), (k.remaskInterval.toNat, 0)]
  else if off = 0x08 then pack [(k.cursor, 12), (k.completed.toNat, 0)]
  else if off = 0x0C then pack [(b2n k.tagErrOverflow, 31), (k.tagErrCount.toNat, 20), (k.tagErrSlot.toNat, 0)]
  else if off = 0x10 then k.lookups.n.setWidth 32
  else if off = 0x14 then pack [(b2n k.lookups.overflow, 31), (k.lookupLatch.toNat, 0)]
  else if off = 0x18 then k.tenantSel.setWidth 32
  else if off = 0x1C then BitVec.ofNat 32 (tenantOf t d).quota
  else if off = 0x20 then BitVec.ofNat 32 (tenantUsed t k)
  else if 0x24 ≤ off ∧ off ≤ 0x30 ∧ off % 4 = 0 then
    let w := tabGetD ((off - 0x24) / 4) {} k.sweeps
    pack [(b2n w.active, 31), (b2n w.complete, 30), (w.tenant, 20), (w.cursor % 2 ^ 20, 0)]
  else 0

/-! ### GAF_ registers (04 R172, R173; 05 R194; 20 R667) -/

def gafSel (g : Gaffer) : Nat :=
  if g.ctr.sel.getLsbD 15 then (g.ctr.sel &&& 0xFF1F).toNat else (g.ctr.sel &&& 0x1F).toNat
/-- The core that GAF_CNT_SEL names. -/
def gafCore (g : Gaffer) : CoreRef :=
  let n := ((g.ctr.sel >>> 8) &&& 0x7F).toNat
  { bench := n / 16, core := n % 16 }
def coreStateWord (d : Device) : Word :=
  let x := coreOf (gafCore d.gaffer) d
  let j := match x.job with | some id => jobOf id d | none => none
  let st := match x.state with
    | .absent => 0 | .idle => 1 | .asking => 1 | .running => 2 | .testing => 3 | .retired => 3
  pack [(st, 30), (b2n (x.state == .retired), 29), ((j.map (·.tenant)).getD 0, 16), ((j.map (·.recipe.toNat)).getD 0, 0)]
def traceBytes (t : TraceEntry) : Bytes :=
  leBytes 4 t.count.toNat ++ [t.kind, t.tenant, t.core, 0] ++ leBytes 4 t.deadline.toNat ++ leBytes 2 t.recipe.toNat ++
  leBytes 2 t.code.toNat
def windowNo : TraceWindow → Nat
  | .start => 0
  | .test => 1
  | .recovery => 2
def shareKind (s : Shares) : Nat := ((s.sel >>> 8) &&& 7).toNat
def shareTenant (s : Shares) : Nat := (s.sel &&& 0xFF).toNat
/-- The blocked ticks of a core count up to now while it is blocked; its busy ticks count at the Retire of its job (04 R142, R172). -/
def coreRunning (d : Device) (k : Nat) (c : CoreRef) : Nat :=
  let x := coreOf c d
  if k = 3 ∧ x.state = .asking then d.time.ticks - x.since else 0
def gafCounterVal (d : Device) : BitVec 48 :=
  let g := d.gaffer
  let k := gafSel g
  ctrVal k g.ctr + (if g.ctr.sel.getLsbD 15 then BitVec.ofNat 48 (coreRunning d (k % 32) (gafCore g)) else 0)
def gafWord (off : Nat) (d : Device) : Word :=
  let g := d.gaffer
  let s := d.shares
  let t := g.tenantSel.toNat
  let k := shareKind s
  if off = 0x00 then pack [(b2n g.ready, 31), (b2n (dispatching d), 30), (b2n (recording g), 29),
      (g.requests.length, 17), ((readyJobs d).length, 0)]
  else if off = 0x04 then g.ctr.sel
  else if off = 0x08 then (gafCounterVal d).setWidth 32
  else if off = 0x0C then ctrHi (gafSel g) g.ctr.latchPcie g.ctr
  else if off = 0x10 then coreStateWord d
  else if off = 0x14 then g.tenantSel.setWidth 32
  else if off = 0x18 then BitVec.ofNat 32 (tenantReady t d)
  else if off = 0x1C then BitVec.ofNat 32 (tenantOf t d).readyCap
  else if off = 0x20 then BitVec.ofNat 32 (tenantOf t d).deadlineUs
  else if off = 0x24 then pack [(b2n g.traceFrozen, 31), (windowNo g.traceWindow, 29), (g.traceDropped.toNat, 11), (g.trace.length, 0)]
  else if off = 0x28 then g.traceIdx.setWidth 32
  else if 0x2C ≤ off ∧ off ≤ 0x38 ∧ off % 4 = 0 then
    match g.trace[g.traceIdx.toNat]? with
    | some e => BitVec.ofNat 32 (num (traceBytes e) (off - 0x2C) 4)
    | none => 0
  else if off = 0x40 then s.sel.setWidth 32
  else if off = 0x44 then if k < 6 then BitVec.ofNat 32 (weightOf (shareTenant s) k d) else 0
  else if off = 0x48 then if k < 6 then BitVec.ofInt 32 (creditOf k (shareTenant s) d).atBoundary else 0
  else if off = 0x4C then if k < 6 then (creditOf k (shareTenant s) d).refill.setWidth 32 else 0
  else if off = 0x50 then if k < 6 then BitVec.ofNat 32 (tabGetD k 0 s.capacity) else 0
  else if off = 0x54 then pack [(b2n s.overFlag, 31), (s.overKind.toNat, 28), (s.overTenant.toNat, 20), (s.overCount.toNat, 8), (s.limitUs.toNat, 0)]
  else if off = 0x58 then BitVec.ofNat 32 (tenantOf (shareTenant s) d).rate
  else if off = 0x5C then
    if (tenantOf (shareTenant s) d).rate = 0 then 0 else BitVec.ofNat 32 (tenantOf (shareTenant s) d).burst
  else if off = 0x60 then pack [(g.coresRetired.toNat, 24), (g.benchesFenced.toNat, 16), (g.lastFaultKind.toNat, 12),
      (b2n g.journalUnavailable, 11), (b2n g.nvmFenced, 10), (b2n (d.benches.any (fun p => decide (56 < p.2.spareRows))), 9)]
  else if off = 0x64 then
    let x := tenantOf t d
    pack [(x.faultState.toNat, 30), (x.reenteredCount.toNat, 16), (x.lastCode.toNat, 0)]
  else 0

/-! ### Bench registers (04 R174; 06 R238 to R242; 08 R301, R302; 09 R330) -/

/-- A bench that is absent or fenced: every register of it reads as zero (00 R2; 04 R174; 06 R237; 08 R300; 09 R329). -/
def benchSilent (b : Nat) (d : Device) : Bool := (tabGet b d.benches).isNone || (benchOf b d).fenced
def lehPending (b : Nat) (d : Device) : Nat :=
  (d.gaffer.jobs.filter (fun j => j.place == .pending b)).length
/-- Jobs of the bench that have passed Retire and wait for their floor. -/
def lehHeld (b : Nat) (d : Device) : Nat :=
  (d.gaffer.jobs.filter (fun j => j.place == .retired b && decide (d.time.ticks < j.releasable.getD 0))).length
def lehSel (l : Lehr) : Nat := (l.ctr.sel.setWidth 4).toNat
def lehWord (off b : Nat) (d : Device) : Word :=
  let l := (benchOf b d).lehr
  if off = 0x00 then pack [(b2n l.ready, 31), (lehHeld b d, 16), (lehPending b d, 0)]
  else if off = 0x04 then l.speed.setWidth 32
  else if off = 0x08 then l.lastGrid
  else if off = 0x0C then l.ctr.sel
  else if off = 0x10 then ctrLo (lehSel l) l.ctr
  else if off = 0x14 then ctrHi (lehSel l) l.ctr.latchPcie l.ctr
  else 0
def engineIs (x : EngineBlock) (st : EngineState) (n : Nat) : Bool := (tabGetD n {} x.engines).state == st
def engineStateNo : EngineState → Nat
  | .absent => 0
  | .inService => 1
  | .inTest => 2
  | .retired => 3
/-- The counter that MRV_CNT_SEL, CIP_CNT_SEL or DIG_CNT_SEL selects, in the numbering of `engineCount`. -/
def blockSel (x : EngineBlock) : Nat :=
  (x.ctr.sel &&& 0xF).toNat + (if x.ctr.sel.getLsbD 8 then 0x100 + 16 * x.engSel.toNat else 0)
/-- The effective mask of a tenant for a validation class: the range check is forced for points, curve and subgroup
checks for ECDH peers (06 R217, R219). -/
def validationMask (t cls : Nat) (d : Device) : BitVec 5 :=
  let m := tabGetD cls 0x1F (tenantOf t d).masks
  if cls = 2 then m ||| 0x1C else if cls = 3 ∨ cls = 4 then m ||| 0x04 else m
def mrvWord (off b : Nat) (d : Device) : Word :=
  let x := (benchOf b d).marver
  let e := tabGetD x.engSel.toNat ({} : Engine) x.engines
  if off = 0x00 then pack [(bitsWhere 8 (engineIs x .inService), 24), (bitsWhere 8 (engineIs x .inTest), 16), (bitsWhere 8 (engineIs x .retired), 8),
      (b2n x.spill, 7), (b2n x.mismatch, 6), (b2n x.fault, 5)]
  else if off = 0x04 then x.engSel.setWidth 32
  else if off = 0x08 then pack [(engineStateNo e.state, 30), (e.mode.toNat % 4, 28), (b2n (!e.scratch.isEmpty), 27), (e.tagTenant.toNat, 19),
      (e.lastKat.toNat, 17), (e.katCause.toNat, 15), (e.katCount.toNat, 0)]
  else if off = 0x0C then x.ctr.sel
  else if off = 0x10 then ctrLo (blockSel x) x.ctr
  else if off = 0x14 then ctrHi (blockSel x) x.ctr.latchPcie x.ctr
  else if off = 0x18 then pack [(b2n x.testBusy, 31), (x.testEngines.toNat, 0)]
  else if off = 0x1C then (benchOf b d).valSel.setWidth 32
  else if off = 0x20 then
    let v := (benchOf b d).valSel.toNat
    if v / 256 < 5 then (validationMask (v % 256) (v / 256) d).setWidth 32 else 0
  else 0
/-- CIP_ and DIG_ engine state words. -/
def cipherEngineWord (x : EngineBlock) : Word :=
  let e := tabGetD x.engSel.toNat ({} : Engine) x.engines
  pack [(engineStateNo e.state, 30), (e.mode.toNat, 22), (e.lastKat.toNat, 20), (e.katCause.toNat, 18), (e.katCount.toNat, 0)]
def cipWord (off b : Nat) (d : Device) : Word :=
  let x := (benchOf b d).cipher
  if off = 0x00 then pack [(bitsWhere 4 (engineIs x .inService), 28), (bitsWhere 4 (engineIs x .inTest), 24), (bitsWhere 4 (engineIs x .retired), 20),
      (b2n x.mismatch, 19), (b2n x.fault, 18)]
  else if off = 0x04 then x.engSel.setWidth 32
  else if off = 0x08 then cipherEngineWord x
  else if off = 0x0C then x.ctr.sel
  else if off = 0x10 then ctrLo (blockSel x) x.ctr
  else if off = 0x14 then ctrHi (blockSel x) x.ctr.latchPcie x.ctr
  else if off = 0x18 then pack [(b2n x.testBusy, 31), (x.testEngines.toNat, 0)]
  else 0
def digWord (off b : Nat) (d : Device) : Word :=
  let x := (benchOf b d).punty
  if off = 0x00 then pack [(bitsWhere 2 (engineIs x .inService), 30), (bitsWhere 2 (engineIs x .inTest), 28), (bitsWhere 2 (engineIs x .retired), 26),
      (b2n x.mismatch, 25), (b2n x.fault, 24)]
  else if off = 0x04 then x.engSel.setWidth 32
  else if off = 0x08 then cipherEngineWord x
  else if off = 0x0C then x.ctr.sel
  else if off = 0x10 then ctrLo (blockSel x) x.ctr
  else if off = 0x14 then ctrHi (blockSel x) x.ctr.latchPcie x.ctr
  else if off = 0x18 then pack [(b2n x.testBusy, 31), (x.testEngines.toNat, 0)]
  else if off = 0x1C then pack [((benchOf b d).cache.length, 8), ((d.gaffer.tenants.map (fun p => p.2.cacheEntries)).sum, 0)]
  else 0
def gatherStateNo : GatherState → Nat
  | .absent => 0
  | .starting => 1
  | .healthy => 2
  | .failed => 3
def gthSrc (n : Nat) (g : Gather) : Word :=
  let s := sourceState n g
  pack [(gatherStateNo s.state, 30), (s.cause.toNat, 27), (s.trim.toNat, 21), (s.lastOnes, 10), (min 0x3FF s.longestRun, 0)]
def gthBlock (b : Nat) (g : Gather) : CtrBlock := tabGetD b {} g.ctrs
def gthSel (x : CtrBlock) : Nat := (x.sel.setWidth 4).toNat
/-- GTH_ counter 9 is device-wide: it is held under index 15. Counter 4 counts during a stop too. -/
def gthCtrBlock (tick b : Nat) (g : Gather) : CtrBlock :=
  let x := stopTicks tick (instOf b g) (gthBlock b g)
  if gthSel x = 9 then { x with ctrs := (gthBlock 15 g).ctrs } else x
def gthWord (off b : Nat) (d : Device) : Word :=
  let g := d.gather
  let i := instOf b g
  let x := gthCtrBlock d.time.ticks b g
  if off = 0x00 then pack [(b2n i.ready, 31), (b2n i.stopped, 30), (b2n (decide (4096 < i.count)), 29), (b2n i.seed.isSome, 28), (i.count, 0)]
  else if off = 0x04 then gthSrc (2 * b) g
  else if off = 0x08 then gthSrc (2 * b + 1) g
  else if off = 0x0C then pack [(b2n g.service, 31), (healthy g, 26), (g.minSources, 21), (g.pool.length, 0)]
  else if off = 0x10 then x.sel
  else if off = 0x14 then ctrLo (gthSel x) x
  else if off = 0x18 then ctrHi (gthSel x) x.latchPcie x
  else 0

/-! ### NET_ registers (13 R496) -/

def sessStateNo : SessState → Nat
  | .free => 0
  | .handshake => 1
  | .established => 2
  | .rekeying => 3
  | .closing => 4
def netSel (p : NetPath) : Nat := (p.ctr.sel.setWidth 4).toNat
def netWord (off : Nat) (isB : Bool) (d : Device) : Word :=
  let p := pathOf isB d
  let s := sessionOf p.sessSel.toNat d
  if p.fenced then (if off = 0x00 then pack [(1, 29)] else 0)
  else if off = 0x00 then pack [(b2n p.linkUp, 31), (b2n (decide (authorityB d.net = isB)), 30), (b2n p.fenced, 29), (b2n p.offline, 28),
      (b2n d.net.handover.isSome, 27), (b2n p.takeoverDone, 26), (p.mode.toNat, 24), ((liveSessions d.net).length, 0)]
  else if off = 0x04 then pack [(b2n p.handover, 1), (b2n p.offline, 0)]
  else if off = 0x08 then BitVec.ofNat 32 p.claim
  else if off = 0x0C then pack [(b2n p.dupOverflow, 31), (p.dupCount.toNat, 0)]
  else if off = 0x10 then p.ctr.sel
  else if off = 0x14 then ctrLo (netSel p) p.ctr
  else if off = 0x18 then ctrHi (netSel p) p.ctr.latchPcie p.ctr
  else if off = 0x1C then pack [(s.gen.toNat, 16), (p.sessSel.toNat, 0)]
  else if off = 0x20 then pack [(sessStateNo s.state, 29), (b2n (s.rekeyDue || (!s.keys.isEmpty && rekeyDueNow d.time.ticks d.net.rekeyS s)), 28), (s.epoch.toNat, 20), (s.tenant, 12)]
  else if off = 0x24 then BitVec.ofNat 32 s.egressNext
  else if off = 0x28 then p.egressLatch
  else if off = 0x2C then pack [(b2n p.refused, 31), (b2n p.aborted, 30), (p.copied, 0)]
  else 0

/-! ### HST_ and ACU_ registers (12 R456 to R458) -/

def fnModeNo : FnMode → Nat
  | .disabled => 0
  | .enabled => 1
  | .quiescing => 2
  | .quiesced => 3
  | .draining => 4
def fnSel (x : Fn) : Nat := (x.ctr.sel.setWidth 4).toNat
def fnWord (off f : Nat) (d : Device) : Word :=
  let x := fnOf f d
  if !fnExists f d.host then 0
  else if off = 0x00 then pack [(x.incarnation.toNat, 16), (b2n (f != 0), 8), (f, 0)]
  else if off = 0x04 then pack [(b2n x.quiesce, 1), (b2n x.enable, 0)]
  else if off = 0x08 then pack [(fnModeNo x.mode, 29), (b2n x.enableHeld, 28), (b2n x.acuFault, 27), (b2n x.queueError, 26), (outstandingOf x, 0)]
  else if off = 0x0C then x.ctr.sel
  else if off = 0x10 then ctrLo (fnSel x) x.ctr
  else if off = 0x14 then ctrHi (fnSel x) x.ctr.latchPcie x.ctr
  else if off = 0x20 then x.pringBase.setWidth 32
  else if off = 0x24 then (x.pringBase >>> 32).setWidth 32
  else if off = 0x28 then pack [(b2n x.pringEnable, 31), (x.pringLog2, 0)]
  else if off = 0x2C then BitVec.ofNat 32 x.pringProd
  else if off = 0x30 then BitVec.ofNat 32 x.pringCons
  else 0
def queueWord (off : Nat) (q : Queue) : Word :=
  if off = 0x00 then q.sqBase.setWidth 32
  else if off = 0x04 then (q.sqBase >>> 32).setWidth 32
  else if off = 0x08 then q.cqBase.setWidth 32
  else if off = 0x0C then (q.cqBase >>> 32).setWidth 32
  else if off = 0x10 then q.cfg
  else if off = 0x14 then pack [(b2n q.error, 31), (q.cause.toNat, 28), (b2n (!q.outstanding.isEmpty), 27), (q.sqHead, 12), (q.cqTail, 0)]
  else 0
def acuWord (off f : Nat) (d : Device) : Word :=
  let r := tabGetD (off / 16) ({} : AcuRegion) (fnOf f d).regions
  if 0x200 ≤ off then 0
  else if off % 16 = 0 then r.base.setWidth 32 ||| pack [(b2n r.write, 2), (b2n r.read, 1), (b2n r.valid, 0)]
  else if off % 16 = 4 then (r.base >>> 32).setWidth 32
  else if off % 16 = 8 then r.pages
  else 0
def acuGlobal (off : Nat) (h : HostRegion) : Word :=
  if off = 0x0 then pack [(b2n h.pfDefault, 0)]
  else if off = 0x4 then pack [(b2n h.faultValid, 31), (b2n h.faultOverflow, 30), (b2n h.faultWrite, 29), (h.faultPurpose.toNat, 26),
      (h.faultCount.toNat, 8), (h.faultFunction.toNat, 0)]
  else if off = 0x8 then h.faultAddr.setWidth 32
  else if off = 0xC then (h.faultAddr >>> 32).setWidth 32
  else 0
/-- The first 64 KiB of a function's BAR0 (12 R423). -/
def barWord (f off : Nat) (d : Device) : Word :=
  let x := fnOf f d
  if off ≤ 0x33 then fnWord off f d
  else if 0x1000 ≤ off ∧ off < 0x1400 then queueWord (off % 0x40) (queueOf f ((off - 0x1000) / 0x40) d)
  else if 0x3000 ≤ off ∧ off < 0x3100 then BitVec.ofNat 32 (num x.mbxIn (off - 0x3000) 4)
  else if 0x3100 ≤ off ∧ off < 0x3200 then BitVec.ofNat 32 (num x.mbxOut (off - 0x3100) 4)
  else if off = 0x3200 then pack [(b2n x.inPost, 31), (b2n x.outValid, 30), (x.mbxHeld.length, 0)]
  else if 0x4000 ≤ off ∧ off < 0x4200 then acuWord (off - 0x4000) f d
  else if 0x8000 ≤ off ∧ off < 0x8120 then tabGetD ((off - 0x8000) / 4) 0 x.msixTable
  else if off = 0x9000 then x.msixPending.setWidth 32
  else 0

/-- The word at an offset of a function's BAR0: its own registers, and for the PF the manager's windows (12 R423,
R424). An offset that is not listed reads zero. -/
def readWord (f off : Nat) (d : Device) : Word :=
  if off < 0x10000 then barWord f off d
  else if f ≠ 0 then 0
  else if 0x100000 ≤ off ∧ off < 0x200000 then if off % 0x1000 < 0x18 then fnWord (off % 0x1000) ((off - 0x100000) / 0x1000) d else 0
  else if 0x200000 ≤ off ∧ off < 0x240000 then acuWord (off % 0x400) ((off - 0x200000) / 0x400) d
  else if 0x240000 ≤ off ∧ off < 0x240010 then acuGlobal (off - 0x240000) d.host
  else if 0x300000 ≤ off ∧ off < 0x301000 then kstWord (off - 0x300000) d
  else if 0x301000 ≤ off ∧ off < 0x302000 then gafWord (off - 0x301000) d
  else if 0x400000 ≤ off ∧ off < 0x480000 then
    let b := (off - 0x400000) / 0x10000
    let o := off % 0x1000
    if benchSilent b d then 0
    else match off % 0x10000 / 0x1000 with
    | 0 => lehWord o b d
    | 1 => mrvWord o b d
    | 2 => cipWord o b d
    | 3 => digWord o b d
    | 4 => gthWord o b d
    | _ => 0
  else if 0x500000 ≤ off ∧ off < 0x501000 then netWord (off - 0x500000) false d
  else if 0x510000 ≤ off ∧ off < 0x511000 then netWord (off - 0x510000) true d
  else if 0x600000 ≤ off ∧ off < 0x601000 then cusWord (off - 0x600000) d
  else if 0x610000 ≤ off ∧ off < 0x611000 then evrWord (off - 0x610000) d.events
  else if 0x620000 ≤ off ∧ off < 0x621000 then pwrWord (off - 0x620000) d.power
  else if 0x630000 ≤ off ∧ off < 0x631000 then dbgWord (off - 0x630000) d
  else 0

end Sys2Proof.Machine
end

