-- ==== Sys2Proof/Machine/EventOps.lean ====
section
/-! DEFINITION. The event recorder's operations (19): records and tags, acceptance, rate limiting, the ring, the flash
log, alerting. -/

namespace Sys2Proof.Machine

/-! ### Records (19 R623, R624) -/

/-- Bytes 0 to 59 of a record. -/
def recordBody (r : Record) : Bytes :=
  leBytes 8 r.seq ++ leBytes 5 r.seconds.toNat ++ leBytes 4 r.cycle.toNat ++ leBytes 4 r.tick.toNat ++
  leBytes 1 (sevNo r.severity) ++ leBytes 2 r.code.toNat ++ [r.region, r.unit, BitVec.ofNat 8 (r.tenant.getD 0)] ++
  leBytes 1 (b2n r.tenant.isSome + 2 * b2n r.summary + 4 * b2n r.copied) ++ leBytes 4 r.suppressed.toNat ++ fit 28 r.detail
/-- The tag of a record: the leftmost 4 bytes of the CMAC, or in Blank a CRC-32, as the number its bytes spell. -/
def recordTag (d : Device) (r : Record) : BitVec 32 :=
  if state d = .blank then crc32 (recordBody r)
  else BitVec.ofNat 32 (leNat ((bvBytes 16 (aesCmac (eventKey d) (recordBody r))).take 4))
def retagRecord (d : Device) (r : Record) : Record := { r with tag := recordTag d r }
def recordValid (d : Device) (r : Record) : Bool := r.tag == recordTag d r
/-- The 64 bytes of a record. -/
def eventBytes (r : Record) : Bytes := recordBody r ++ leBytes 4 r.tag.toNat

/-! ### Alerts (19 R645 to R647) -/

/-- Assert SMB_ALERT_N after `n` repetitions, with a Host Notify where it is selected. -/
def assertAlert (n : Nat) (d : Device) : Device :=
  { d with
    events := { evrCount 8 d.events with alert := .asserted d.time.ticks n }
    out := if d.events.hostNotify then d.out ++ [.hostNotify] else d.out }
/-- A cause arises: an idle alert begins a sequence. -/
def raiseCauses (bits : Byte) (d : Device) : Device :=
  let d := { d with events := { d.events with causes := d.events.causes ||| bits } }
  if d.events.causes ≠ 0 ∧ d.events.alert = .idle then assertAlert 0 d else d
/-- Alerting resumes, with a new sequence where a cause is set. -/
def resumeAlert (d : Device) : Device :=
  if d.events.alert = .silenced then raiseCauses 0 { d with events := { d.events with alert := .idle } } else d
/-- Causes are cleared: with none left, the alert ends. -/
def clearCauses (bits : Byte) (d : Device) : Device :=
  let c := d.events.causes &&& ~~~bits
  { d with events := { d.events with causes := c, alert := if c = 0 then .idle else d.events.alert } }

/-! ### Storing (19 R631, R634 to R636) -/

/-- The ring's entries (19 R634). -/
def ringSize : Nat := 16384
/-- Remove the oldest record of a severity. -/
def dropOldest (s : Severity) : List Record → List Record
  | [] => []
  | r :: t => if r.severity = s then t else r :: dropOldest s t
/-- The lowest severity present. -/
def lowestSev (rs : List Record) : Option Severity :=
  leastBy (fun a b => decide (sevNo a < sevNo b)) (rs.map (·.severity))
/-- Place a record in the ring, replacing the oldest of the lowest severity when it is full (19 R635). -/
def placeRing (r : Record) (e : Events) : Events :=
  if e.ring.length < ringSize then { e with ring := e.ring ++ [r] }
  else match lowestSev e.ring with
    | some s => if sevNo s ≤ sevNo r.severity then evrCount 3 { e with ring := dropOldest s e.ring ++ [r] } else evrCount 4 e
    | none => e
/-- Store a record: it takes the next seq and the suppressed count of its code, and goes to the ring, to the flash from
severity Notice, and to the alert causes. -/
def storeRecord (sev : Severity) (code : BitVec 16) (region unit : Byte) (tenant : Option Nat) (summary : Bool)
    (detail : Bytes) (d : Device) : Device :=
  let b := bucketOf code.toNat d.events
  let r := retagRecord d
    { seq := d.events.nextSeq, seconds := d.battery.opSeconds, cycle := d.battery.cycles, tick := watch d, severity := sev,
      code, region, unit, tenant, summary, suppressed := b.suppressed, detail, tag := 0 }
  let e := placeRing r d.events
  let e := { e with
    nextSeq := e.nextSeq + 1
    buckets := tabSet code.toNat { b with suppressed := 0, quietSince := d.time.ticks, severity := sev, summaryDue := false } e.buckets
    toFlash := if 1 ≤ sevNo sev && !d.flash.fenced then e.toFlash ++ [r] else e.toFlash
    newest := if 2 ≤ sevNo sev then some r else e.newest }
  let bits : Byte := (if e.alertMin.toNat ≤ sevNo sev then 1 else 0) ||| (if sev = .tamper then 2 else 0)
  raiseCauses bits { d with events := e }

/-! ### Acceptance (19 R628, R630 to R633) -/

/-- The order in which the record port serves the submissions. -/
def servedBefore (a b : Submission) : Bool :=
  if sevNo a.severity ≠ sevNo b.severity then decide (sevNo b.severity < sevNo a.severity)
  else if a.tick ≠ b.tick then decide (a.tick < b.tick)
  else if regionNo a.via ≠ regionNo b.via then decide (regionNo a.via < regionNo b.via)
  else decide (a.order < b.order)
/-- Take a submission from its buffer; the first record that waits in a unit of that region moves in (19 R627). -/
def takeSubmission (s : Submission) (e : Events) : Events :=
  let e := { e with buffers := e.buffers.filter (fun x => x.order ≠ s.order) }
  match e.waiting.find? (fun x => x.via = s.via) with
  | some w => { e with buffers := e.buffers ++ [w], waiting := e.waiting.filter (fun x => x.order ≠ w.order) }
  | none => e
/-- Count an accepted record, and its severity. -/
def countAccepted (sev : Severity) (e : Events) : Events :=
  let e := evrCount 0 (evrCount (12 + sevNo sev) e)
  { e with perSeverity := tabSet (sevNo sev) (min 0xFFFFFFFF (tabGetD (sevNo sev) 0 e.perSeverity + 1)) e.perSeverity }
/-- Suppress a record (19 R631). -/
def suppressRecord (code : Nat) (sev : Severity) (tick : Nat) (e : Events) : Events :=
  let b := bucketOf code e
  let b := { b with suppressed := satInc b.suppressed, severity := sev, quietSince := if b.suppressed = 0 then tick else b.quietSince }
  evrCount 1 { e with buckets := tabSet code b e.buckets }
def takeEventToken (code : Nat) (e : Events) : Events :=
  { e with buckets := tabSet code { bucketOf code e with level := (bucketOf code e).level - 100000 } e.buckets }
/-- The port takes one record. -/
def acceptRecord (s : Submission) (d : Device) : Device :=
  let code := s.code.toNat
  let e := countAccepted s.severity { takeSubmission s d.events with lastAccept := some d.time.ticks }
  let d := { d with events := e }
  let store := storeRecord s.severity s.code (BitVec.ofNat 8 (regionNo s.region)) s.unit s.tenant false s.detail
  if s.severity = .tamper then store d
  else if (bucketOf code e).level < 100000 || (bucketOf code e).summaryDue then
    { d with events := suppressRecord code s.severity d.time.ticks e }
  else store { d with events := takeEventToken code e }
/-- The port serves one submission, at most one in 4 ticks. -/
def servePort (d : Device) : Device :=
  match leastBy servedBefore (d.events.buffers.filter (fun s => !regionHalted d s.via)), d.events.lastAccept with
  | some s, none => acceptRecord s d
  | some s, some t => if t + 4 ≤ d.time.ticks then acceptRecord s d else d
  | none, _ => d

/-- Store the summary of a code (19 R632); its region is the custody partition's. -/
def storeSummary (code : Nat) (d : Device) : Device :=
  storeRecord (bucketOf code d.events).severity (BitVec.ofNat 16 code) 0x09 0xFF none true []
    { d with events := takeEventToken code d.events }
/-- Summaries that are due take the first whole token of their bucket. -/
def serveSummaries (d : Device) : Device :=
  doEach ((d.events.buckets.filter (fun p => p.2.summaryDue && decide (100000 ≤ p.2.level))).map (·.1)) storeSummary d
/-- A window boundary refills every bucket (19 R630). -/
def refillEvents (d : Device) : Device :=
  let refill : Nat → EventBucket → EventBucket := fun _ b => { b with level := min (100000 * b.burst) (b.level + b.rate) }
  serveSummaries { d with events := { d.events with buckets := tabMap refill d.events.buckets } }

/-! ### The flash log (19 R636 to R639) -/

/-- Records in a page, pages in a sector and in the 16 MiB area. -/
def pageRecords (f : Flash) : Nat := f.pageSize / 64
def sectorPages (f : Flash) : Nat := f.sectorSize / f.pageSize
def logPages (f : Flash) : Nat := 16777216 / f.pageSize
/-- Bytes that records of chosen severities fill in the log. -/
def logFill (p : Severity → Bool) (f : Flash) : Nat :=
  64 * ((f.log.map (fun pg => (pg.filter (fun r => p r.severity)).length)).sum)
/-- Records cut into pages. -/
def intoPages (n : Nat) : Nat → List Record → List (List Record)
  | 0, _ => []
  | fuel + 1, rs => if rs.isEmpty then [] else rs.take n :: intoPages n fuel (rs.drop n)
/-- Records of the oldest sector that are copied to the head (19 R637). -/
def forwarded (f : Flash) (r : Record) : Bool :=
  (r.severity == .tamper && decide (2 * logFill (fun s => s == .tamper) f < 16777216)) ||
  (r.severity == .alarm && decide (2 * logFill highSev f < 16777216))
/-- Recycle the oldest sector: its Tamper and Alarm records are copied to the head, then it is erased. -/
def recycleSector (d : Device) : Device :=
  let f := d.flash
  let n := sectorPages f
  let copies := ((f.log.take n).flatten.filter (forwarded f)).map (fun r => retagRecord d { r with copied := true })
  { d with
    flash := { f with log := f.log.drop n ++ intoPages (pageRecords f) copies.length copies, logFirst := (f.logFirst + n) % logPages f }
    events := { d.events with ctr := if copies.isEmpty then d.events.ctr else ctrAdd 6 copies.length d.events.ctr } }
/-- Keep one sector free for the copies. -/
def makeRoom : Nat → Device → Device
  | 0, d => d
  | fuel + 1, d =>
    if d.flash.log.length + sectorPages d.flash < logPages d.flash then d else makeRoom fuel (recycleSector d)
/-- Program the next page of records, or fail and skip it: the records go into the page after it (19 R636, R639). -/
def writeLogPage (programmed : Bool) (d : Device) : Device :=
  let d := makeRoom (logPages d.flash) d
  let n := pageRecords d.flash
  let page := d.events.toFlash.take n
  let offset := d.flash.pageSize * ((d.flash.logFirst + d.flash.log.length) % logPages d.flash)
  if programmed then
    { d with
      flash := { d.flash with log := d.flash.log ++ [page] }
      events := { d.events with toFlash := d.events.toFlash.drop n, ctr := ctrAdd 5 page.length d.events.ctr } }
  else
    emit .alarm 0x0803 .nvm (leBytes 4 0x03100000 ++ leBytes 4 offset)
      { d with flash := { d.flash with log := d.flash.log ++ [[]] }, events := evrCount 7 d.events }

/-- The sectors of the log, as lists of records. -/
def sectorsGo (n : Nat) : Nat → List (List Record) → List (List Record)
  | 0, _ => []
  | fuel + 1, ps => if ps.isEmpty then [] else (ps.take n).flatten :: sectorsGo n fuel (ps.drop n)
def maxSeq (rs : List Record) : Option Nat := rs.foldl (fun m r => some (max (m.getD 0) r.seq)) none
/-- The newest valid record of the sector whose first valid record has the highest seq (19 R638). -/
def logHead (d : Device) : Option Nat :=
  let sectors := (sectorsGo (sectorPages d.flash) d.flash.log.length d.flash.log).map (fun rs => rs.filter (recordValid d))
  let best := leastBy (fun a b => decide ((a.head?.map (·.seq)).getD 0 > (b.head?.map (·.seq)).getD 0))
    (sectors.filter (fun rs => !rs.isEmpty))
  match best with
  | some rs => maxSeq rs
  | none => none
/-- Phase 4: seq continues from the head, and the records held since phase 1 take their place after it. A log in which no record
verifies starts again at the first sector. -/
def recoverLog (d : Device) : Device :=
  let head := logHead d
  let base := match head with | some s => s + 1 | none => 0
  let d := if head.isSome then d else { d with flash := { d.flash with log := [], logFirst := 0 } }
  let move : Record → Record := fun r => retagRecord d { r with seq := r.seq + base }
  { d with events := { d.events with
      ring := d.events.ring.map move, toFlash := d.events.toFlash.map move, newest := d.events.newest.map move
      nextSeq := d.events.nextSeq + base, nvmOk := true } }

end Sys2Proof.Machine
end

