-- ==== Sys2Proof/Machine/DrainOps.lean ====
section
/-! DEFINITION. Functions' states and drains (12 R421, R422, R444 to R447), and the mailbox's notices (12 R440). -/

namespace Sys2Proof.Machine

/-- The host reaches the part's registers: start has ended, the link is up and the PF answers (14 R514 to R518). -/
def hostUp (d : Device) : Bool :=
  started d && outOfReset d && d.pins.perstN && decide (d.pins.pfAnswer = .normal) && !d.host.fenced && !d.host.halted
/-- Change a function's entry, listing it where it was not. -/
def setFn (f : Nat) (g : Fn → Fn) (d : Device) : Device :=
  { d with host := { d.host with fns := tabSet f (g (fnOf f d)) d.host.fns } }

/-- Whether a job came through a function's queues. -/
def jobOfFn (f : Nat) (j : Job) : Bool :=
  match j.origin with
  | .host g _ _ _ _ _ => decide (g = f)
  | _ => false
/-- Notices of Yunante (12 R440). -/
def startNotice (f : Nat) (d : Device) : Device :=
  if (fnOf f d).noticed then d
  else mbxSend f (message 0x84 [] 0 (leBytes 4 d.battery.cycles.toNat)) (modFn f (fun x => { x with noticed := true }) d)
/-- The function becomes Enabled. -/
def becomeEnabled (f : Nat) (d : Device) : Device :=
  settleQuiesce f (startNotice f (modFn f (fun x => { x with mode := if x.quiesce then .quiescing else .enabled }) d))

/-- What the start of a drain does to one of the function's jobs (12 R445 steps 3 to 5); those on the ready list are removed. -/
def drainJob (d : Device) (j : Job) : Job :=
  let j := { j with silentRelease := true }
  match j.place with
  | .ready => j
  | .core _ _ => if j.held.isSome then { j with releasable := some d.time.ticks } else { j with cancelMark := true }
  | .pending _ => { j with cancelMark := true }
  | .retired _ => { j with releasable := some d.time.ticks }
  | .answered => j
/-- The drain cancels the job: a decision that an open window of the trace records (04 R170). -/
def cancelled (j : Job) : Bool :=
  match j.place with
  | .ready => true
  | .core _ _ => j.held.isNone
  | .pending _ => true
  | _ => false
/-- A drain begins. `reset` says that the control register returns to its reset value too. -/
def startDrain (reset : Bool) (f : Nat) (d : Device) : Device :=
  let mine := d.gaffer.jobs.filter (jobOfFn f)
  let d := modFn f (fun x => { x with
    mode := .draining, queues := [], pringBase := 0, pringEnable := false, pringLog2 := 0, pringProd := 0, pringCons := 0
    enable := x.enable && !reset, quiesce := x.quiesce && !reset, enableHeld := false }) d
  let d := doEach mine (fun j d => if j.place = .ready then dropState j.id d else d) d
  let d := { d with gaffer := { d.gaffer with jobs :=
    (d.gaffer.jobs.filter (fun j => !(jobOfFn f j && j.place == .ready))).map (fun j => if jobOfFn f j then drainJob d j else j) } }
  doEach mine (fun j d => advancePtr j.stream (if cancelled j then traceJob 0x03 j 0x0602 d else d)) d
/-- Drain every VF. -/
def drainVfs (d : Device) : Device :=
  doEach ((d.host.fns.filter (fun p => decide (1 ≤ p.1) && decide (p.1 ≤ d.host.numVfs))).map (·.1)) (startDrain true) d
/-- The function has no job left. -/
def drained (f : Nat) (d : Device) : Bool := !d.gaffer.jobs.any (jobOfFn f)
/-- The incarnation after a drain skips 0x0000 (12 R446). -/
def nextIncarnation (n : BitVec 16) : BitVec 16 := if n = 0xFFFF then 1 else n + 1
/-- A drain ends: Disabled, or Enabled with the drain-end notice. -/
def endDrain (f : Nat) (d : Device) : Device :=
  let held := (fnOf f d).enableHeld
  let d := modFn f (fun x => { x with mode := .disabled, incarnation := nextIncarnation x.incarnation, enableHeld := false }) d
  if held then
    mbxSend f (message 0x85 [] 0 (leBytes 2 (fnOf f d).incarnation.toNat)) (becomeEnabled f d)
  else d

/-! ### Register writes that several commands share (12 R444, R447, R456, R457) -/

def setEnable (f : Nat) (d : Device) : Device :=
  match (fnOf f d).mode with
  | .disabled => becomeEnabled f (modFn f (fun x => { x with enable := true }) d)
  | .draining => modFn f (fun x => { x with enable := true, enableHeld := true }) d
  | _ => modFn f (fun x => { x with enable := true }) d
def clearEnable (f : Nat) (d : Device) : Device :=
  match (fnOf f d).mode with
  | .disabled => d
  | .draining => modFn f (fun x => { x with enable := false, enableHeld := false }) d
  | _ => startDrain false f (modFn f (fun x => { x with enable := false }) d)
def setQuiesce (f : Nat) (d : Device) : Device :=
  settleQuiesce f (modFn f (fun x => { x with quiesce := true, mode := if x.mode = .enabled then .quiescing else x.mode }) d)
def clearQuiesce (f : Nat) (d : Device) : Device :=
  modFn f (fun x => { x with quiesce := false, mode := if x.mode = .quiescing ∨ x.mode = .quiesced then .enabled else x.mode }) d
/-- A held firing fires as soon as int_enable is set; the count and timer restart from it (12 R438). -/
def setIntEnable (f q : Nat) (d : Device) : Device :=
  let x := queueOf f q d
  let d := modQueue f q (fun x => { x with
    cfg := x.cfg ||| 1, intEnable := true, heldFiring := false
    unsignalled := if x.heldFiring then 0 else x.unsignalled
    firstUnsignalled := if x.heldFiring then none else x.firstUnsignalled }) d
  if x.heldFiring then fireVector f q d else d
/-- A write of HST_Q_CFG: every field reads back as written (00 R8). The depth in force is taken with the enabling write,
and a queue that is stopping goes on to its reset whatever is written (log entry 21). -/
def writeQueueCfg (f q : Nat) (v : Word) (d : Device) : Device :=
  let x := queueOf f q d
  let on := v.getLsbD 31
  let depth := (v.extractLsb' 24 4).toNat
  let d := modQueue f q (fun x => { x with
    cfg := v &&& 0x8FFFFF01, enable := on && !x.stopping, log2Depth := if x.enable || x.stopping then x.log2Depth else depth
    coalesceCount := (v.extractLsb' 16 8).toNat, coalesceUs := (v.extractLsb' 8 8).toNat
    intEnable := v.getLsbD 0 && x.intEnable, stopping := x.stopping || (x.enable && !on) }) d
  let d := if v.getLsbD 0 then setIntEnable f q d else d
  let d := if on && !x.enable && !x.stopping && (decide (depth < 4) || decide (12 < depth)) then queueFault f q 4 d else d
  settleQueue f q d

end Sys2Proof.Machine
end

