-- ==== Sys2Proof/Machine/Journal.lean ====
section
/-! DEFINITION. The journals (11 R411 to R415; 16 R555; 20 R659, R660), persistence blocks (11 R386, R387) and the
persistence rings that sweeps write (12 R442, R443; 03 R115 to R117). -/

namespace Sys2Proof.Machine

/-! ### Records of the retention-signing state journal (11 R412) -/

/-- Bytes 0 to 47 of an entry. -/
def ceilingBytes (e : CeilingEntry) : Bytes :=
  [e.type] ++ leBytes 1 e.tenant ++ [0, 0] ++ fit 8 e.fingerprint ++ leBytes 8 e.ceiling ++ leBytes 4 e.cycle.toNat ++
  leBytes 8 e.entrySeq ++ leBytes 12 (e.ceiling / 2 ^ 64) ++ [0, 0, 0, 0]
def ceilingTag (d : Device) (e : CeilingEntry) : BitVec 128 := aesCmac (rsjKey d) (ceilingBytes e)
/-- Whether an entry names a key. -/
def namesKey (t : Nat) (fp : Bytes) (e : CeilingEntry) : Bool := decide (e.tenant = t) && decide (fit 8 e.fingerprint = fit 8 fp)
/-- The entries of both halves. -/
def journalEntries (f : Flash) : List CeilingEntry := f.otherHalf ++ f.ceilings
/-- The valid record of a key: the entry with the highest entry_seq whose tag verifies (11 R413). -/
def journalEntry (d : Device) (t : Nat) (fp : Bytes) : Option CeilingEntry :=
  leastBy (fun a b => decide (b.entrySeq < a.entrySeq)) ((journalEntries d.flash).filter (fun e => namesKey t fp e && e.tag == ceilingTag d e))
/-- The durable ceiling of a key, unless its record is erased or it has none. -/
def durableCeiling (d : Device) (t : Nat) (fp : Bytes) : Option Nat :=
  match journalEntry d t fp with
  | some e => if e.type = 0x03 then none else some e.ceiling
  | none => none
/-- Records of a key handed to the NVM interface region and not yet durable. -/
def pendingCeilings (d : Device) (t : Nat) (fp : Bytes) : List (Nat × CeilingEntry) :=
  d.flash.writes.filterMap (fun w => match w.write with
    | .ceiling e => if namesKey t fp e && e.type != 0x03 then some (w.id, e) else none
    | _ => none)
/-- The highest ceiling handed to the writer: a reservation is raised once (11 R414). -/
def handedCeiling (d : Device) (t : Nat) (fp : Bytes) : Nat :=
  ((pendingCeilings d t fp).map (fun p => p.2.ceiling)).foldl max ((durableCeiling d t fp).getD 0)
/-- Keys the journal holds records for, pending ones included, at most 4,096 (11 R413). -/
def journalKeys (d : Device) : Nat :=
  let all := journalEntries d.flash ++ d.flash.writes.filterMap (fun w => match w.write with | .ceiling e => some e | _ => none)
  (((all.filter (fun e => e.type != 0x03)).map (fun e => (e.tenant, fit 8 e.fingerprint))).eraseDups.filter
    (fun k => (durableCeiling d k.1 k.2).isSome || !(pendingCeilings d k.1 k.2).isEmpty)).length

/-- The journal holds at most 4,096 keys. -/
def journalRoom (d : Device) (t : Nat) (fp : Bytes) : Bool :=
  decide (journalKeys d < 4096) || (durableCeiling d t fp).isSome || !(pendingCeilings d t fp).isEmpty
/-- The journal type of a key with advancing state (11 R411, R412). -/
def advancingType (cls : Byte) (usage : BitVec 16) : Option Byte :=
  if cls = 0x30 then some 0x01 else if isOriginator cls usage then some 0x02 else none
/-- The last ceiling of a key: 2^(20 × levels) for LMS and HSS (11 R410). -/
def ceilingCap (cls param : Byte) (c : Nat) : Nat := if cls = 0x30 then min c (2 ^ (20 * param.toNat)) else c

/-- The NVM interface region writes journal entries. -/
def nvmServes (d : Device) : Bool := !d.flash.fenced && !d.flash.halted
def isRootWrite : JournalWrite → Bool
  | .ceiling _ => false
  | .root _ => true
  | .closeRoot _ _ => true
/-- The journal that a write goes to can be written (20 R659, R660). -/
def journalUp (d : Device) (w : JournalWrite) : Bool :=
  nvmServes d && !(if isRootWrite w then d.flash.rootsDown else d.flash.ceilingsDown)
/-- Hand a write to the NVM interface region; its number is `nextWrite` before. -/
def handWrite (w : JournalWrite) (job : Option Nat) (d : Device) : Device :=
  { d with flash := { d.flash with writes := d.flash.writes ++ [{ id := d.flash.nextWrite, write := w, job }]
                                   nextWrite := d.flash.nextWrite + 1 } }
/-- A record of the retention-signing state journal, with the next entry_seq. -/
def makeCeiling (type : Byte) (t : Nat) (fp : Bytes) (c : Nat) (d : Device) : CeilingEntry × Device :=
  let e : CeilingEntry := { type, tenant := t, fingerprint := fit 8 fp, ceiling := c, cycle := d.battery.cycles
                            entrySeq := d.flash.nextEntrySeq, tag := 0 }
  ({ e with tag := ceilingTag d e }, { d with flash := { d.flash with nextEntrySeq := d.flash.nextEntrySeq + 1 } })
/-- Hand a record over without waiting for it; while the journal cannot be written it is dropped (20 R659). -/
def adviseCeiling (type : Byte) (t : Nat) (fp : Bytes) (c : Nat) (d : Device) : Device :=
  let p := makeCeiling type t fp c d
  if journalUp d (.ceiling p.1) then handWrite (.ceiling p.1) none p.2 else d
/-- Entries of 64 bytes in a half of 4 MiB. -/
def halfEntries : Nat := 65536
/-- The valid record of every key among these. -/
def validRecords (d : Device) (es : List CeilingEntry) : List CeilingEntry :=
  es.filter (fun e => e.tag == ceilingTag d e && e.type != 0x03 &&
    es.all (fun x => !(namesKey e.tenant e.fingerprint x && x.tag == ceilingTag d x) || decide (x.entrySeq ≤ e.entrySeq)))
/-- A record goes to the active half. When that fills it, the valid record of every key is copied to the other half, which becomes the
active one; the full half is erased before the next record is written (11 R413). -/
def appendCeiling (d : Device) (e : CeilingEntry) (f : Flash) : Flash :=
  let es := f.ceilings ++ [e]
  if es.length < halfEntries then { f with ceilings := es, otherHalf := [] }
  else { f with ceilings := validRecords d es, otherHalf := es, halfTwo := !f.halfTwo }
/-- What the flash holds once a write is durable. -/
def applyWrite (w : JournalWrite) (d : Device) : Device :=
  { d with flash := match w with
      | .ceiling e => appendCeiling d e d.flash
      | .root e => { d.flash with roots := d.flash.roots ++ [e] }
      | .closeRoot t v => { d.flash with roots := d.flash.roots.filter (fun e => e.tenant ≠ t || e.version = v) } }

/-- The entries of a job's commit enter the journals with it. -/
def applyWrites (id : Nat) (d : Device) : Device :=
  doEach (d.flash.writes.filter (fun w => decide (w.job = some id))) (fun w => applyWrite w.write)
    { d with flash := { d.flash with writes := d.flash.writes.filter (fun w => decide (w.job ≠ some id)) } }

/-! ### Persistence blocks (11 R386, R387) -/

/-- Bytes 0 to 47 of a block. -/
def blockHeader (suite version : Byte) (t : Nat) (s : Slot) (len : Nat) (nonce : Bytes) : Bytes :=
  [0x01, 0x00, suite, version] ++ leBytes 1 t ++ [s.keyClass, s.keyParam] ++ leBytes 1 (slotsFor len) ++
  attrBytes { s with suite := suite, rootVersion := version, tenant := t } 0 0 false ++ leBytes 4 s.usageLimit.toNat ++
  fit 8 s.fingerprint ++ fit 12 nonce
/-- The persistence block of a key under a root. -/
def makeBlock (suite version : Byte) (root : Bytes) (t : Nat) (s : Slot) (material nonce : Bytes) : Bytes :=
  let key := persKey suite root
  let aad := blockHeader suite version t s material.length nonce
  let cipher := gcmXor key nonce material
  aad ++ cipher ++ gcmTagOf key nonce aad cipher
/-- The tenant's current root: suite, version and bytes. -/
def currentRoot (t : Nat) (d : Device) : Byte × Byte × Bytes := ((slotOf t d.keys).suite, (slotOf t d.keys).rootVersion, tenantRoot t d)
/-- A block under the tenant's current root. -/
def blockNow (t : Nat) (s : Slot) (material nonce : Bytes) (d : Device) : Bytes :=
  let r := currentRoot t d
  makeBlock r.1 r.2.1 r.2.2 t s material nonce
/-- The root of a version that a tenant may restore under: the current one, or the previous one while the journal keeps it. -/
def rootOfVersion (t : Nat) (v : Byte) (d : Device) : Option (Byte × Bytes) :=
  let s := slotOf t d.keys
  if !hasRoot t d then none
  else if v = s.rootVersion then some (s.suite, tenantRoot t d)
  else if v + 1 = s.rootVersion then
    match d.flash.roots.find? (fun e => decide (e.tenant = t) && e.version == v) with
    | some e => (rootOfEntry d e).map (fun r => (e.suite, r))
    | none => none
  else none
/-- The material of a block, when its format, tenant, root version and tag are right. -/
def openBlock (t : Nat) (b : Bytes) (d : Device) : Option Bytes :=
  if b.length < 64 || num b 0 2 != 1 || num b 4 1 != t then none
  else match rootOfVersion t (byteAt b 3) d with
    | none => none
    | some (_, root) =>
      let key := persKey (byteAt b 2) root
      let cipher := field b 48 (b.length - 64)
      if gcmTagOf key (field b 36 12) (field b 0 48) cipher = field b (b.length - 16) 16 then
        let m := gcmXor key (field b 36 12) cipher
        if num b 7 1 = slotsFor m.length then some m else none
      else none
/-- The head record that a block describes. -/
def blockSlot (b : Bytes) : Slot :=
  { keyClass := byteAt b 8, keyParam := byteAt b 9, usage := BitVec.ofNat 16 (num b 10 2), exportBits := byteAt b 12
    origin := byteAt b 13, seedForm := (byteAt b 17).getLsbD 6, policySet := BitVec.ofNat 16 (num b 20 2)
    usageLimit := BitVec.ofNat 32 (num b 24 4), fingerprint := field b 28 8 }

/-! ### Persistence rings and sweeps (12 R442, R443; 03 R115 to R117) -/

/-- The ring takes entries; that of a function that drains issues no write (12 R445). -/
def ringOn (x : Fn) : Bool := x.pringEnable && decide (4 ≤ x.pringLog2) && decide (x.pringLog2 ≤ 12) && x.mode != .draining
/-- The function whose ring takes a tenant's blocks: its own, or the PF (12 R442). -/
def ringOf (t : Nat) (d : Device) : Nat := if fnExists t d.host && ringOn (fnOf t d) then t else 0
def ringFull (x : Fn) : Bool := decide ((x.pringProd + 1) % 2 ^ x.pringLog2 = x.pringCons % 2 ^ x.pringLog2)
/-- The ring can take an entry now. -/
def ringReady (t : Nat) (d : Device) : Bool :=
  let f := ringOf t d
  ringOn (fnOf f d) && !ringFull (fnOf f d) && !d.host.fenced && !d.host.halted && d.pins.perstN && fnExists f d.host
/-- Write an entry: length, handle, block; a denied write disables the ring (12 R453). -/
def ringWrite (t : Nat) (handle : BitVec 32) (block : Bytes) (d : Device) : Device × Bool :=
  let f := ringOf t d
  let x := fnOf f d
  let addr := x.pringBase.toNat + 4096 * x.pringProd
  if acuAllows f addr true d.host then
    let entry := leBytes 4 block.length ++ leBytes 4 handle.toNat ++ block
    (modFn f (fun x => { x with pringProd := (x.pringProd + 1) % 2 ^ x.pringLog2 })
      { d with out := d.out ++ [.dmaWrite f (BitVec.ofNat 64 addr) entry] }, true)
  else (modFn f (fun x => { x with pringEnable := false }) (denied f 5 true addr d), false)
/-- The tenant's sweep, while it is open. -/
def openSweep (t : Nat) (d : Device) : Option (Nat × Sweep) := d.keys.sweeps.find? (fun p => decide (p.2.tenant = t) && p.2.active)
def modSweep (n : Nat) (f : Sweep → Sweep) (k : KeyStore) : KeyStore := { k with sweeps := tabMod n f k.sweeps }
/-- A head whose suite or root version differs from a sweep's target (DESIGN CHOICE: 03 R115 names the suite, and a rotation to the
same suite changes only the version; log entry 45). -/
def sweepPends (w : Sweep) (s : Slot) : Bool := s.suite != w.suite || s.rootVersion != w.version
/-- A head takes the suite of the sweep's target (03 R115). -/
def setSuite (head : Nat) (w : Sweep) (d : Device) : Device :=
  { d with keys := putSlot head (recommit d.custody d.keys head (fun s => { s with suite := w.suite, rootVersion := w.version })) d.keys }
/-- Issue the persistence block of a head and set its suite field; `false` when the ring takes none. -/
def issueBlock (t head : Nat) (w : Sweep) (nonce : Bytes) (d : Device) : Device × Bool :=
  if !ringReady t d then (d, false)
  else
    let s := slotOf head d.keys
    let p := ringWrite t (mkHandle s.gen head) (blockNow t s (keyBytes d head) nonce d) d
    if p.2 then (setSuite head w p.1, true) else p
/-- The block of a head, with a nonce from the device's own instance; `false` too when none can be drawn. -/
def issueAtCommit (t head : Nat) (w : Sweep) (d : Device) : Device × Bool :=
  if ringReady t d && d.gather.service then
    let d := forDraw 8 12 d
    issueBlock t head w (drawn 8 12 d) (spend 8 12 d)
  else (d, false)
/-- Any commit that rewrites a head slot while a sweep of its tenant is open sets its suite to the target and issues its block (03
R117). With no room in the ring the sweep owes the block, and issues it before it completes (log entry 45). -/
def touchHead (head : Nat) (d : Device) : Device :=
  let s := slotOf head d.keys
  match openSweep s.tenant d with
  | some (n, w) =>
    let p := issueAtCommit s.tenant head w d
    if p.2 then p.1
    else
      let e := setSuite head w p.1
      { e with keys := modSweep n (fun w => if w.owed.contains head then w else { w with owed := w.owed ++ [head] }) e.keys }
  | none => d

end Sys2Proof.Machine
end

