-- ==== Sys2Proof/Machine/Commit.lean ====
section
/-! DEFINITION. The commit set at Retire (04 R141, R142, R146 to R148; 03 R87 to R92; 11 R411 to R418): limits, quota,
gating journal entries, and the writing of every intent. -/

namespace Sys2Proof.Machine

/-! ### Slots named by a commit set, and their locks (04 R148) -/

/-- Heads of a tenant's keys in ascending slot order. -/
def headsOf (t : Nat) (k : KeyStore) : List Nat :=
  (k.slots.filter (fun p => decide (p.2.tenant = t) && (p.2.state == .active || p.2.state == .suspended))).map (·.1)
/-- The heads that the next step of a sweep visits: those whose block is owed, then those at and after its cursor that differ from
its target, 64 in all (03 R115). -/
def sweepHeads (n : Nat) (k : KeyStore) : List Nat :=
  let w := tabGetD n {} k.sweeps
  (w.owed ++ (headsOf w.tenant k).filter (fun h => decide (w.cursor ≤ h) && !w.owed.contains h)).take 64
/-- A key of which a slot stands in the fault map can be read no more; a sweep passes it over (03 R99, R115; DESIGN CHOICE, log entry
45). -/
def keyMapped (h : Nat) (k : KeyStore) : Bool := (chainOf h k).any (fun i => k.faultMap.contains i)
/-- The heads among these for which a sweep issues a block. -/
def sweepOwes (n : Nat) (k : KeyStore) : List Nat :=
  let w := tabGetD n {} k.sweeps
  (sweepHeads n k).filter (fun h => !keyMapped h k && (sweepPends w (slotOf h k) || w.owed.contains h))
/-- The head and root slots that an intent changes. -/
def intentSlots (k : KeyStore) : Intent → List Nat
  | .useKey h _ => [h]
  | .delete h _ => [h]
  | .suspend h _ _ => [h]
  | .setKsn h _ _ => [h]
  | .setIndex h _ => [h]
  | .purge t => (headsOf t k).take 64
  | .openRotation t _ _ => [t]
  | .restartSweep t => [t]
  | .createRoot t _ _ _ => [t]
  | .sweepStep n _ => sweepHeads n k
  | _ => []
def commitSlots (k : KeyStore) (s : Staged) : List Nat := s.intents.flatMap (intentSlots k)
/-- Fingerprints that creations of keys with advancing state name; two of one fingerprint are ordered at commit (11 R388). -/
def commitFps (t : Nat) (s : Staged) : List (Nat × Bytes) :=
  s.intents.filterMap (fun i => match i with
    | .create d => if d.journal.isSome then some (t, fit 8 d.fingerprint) else none
    | _ => none)
/-- Jobs whose commit waits for a gating entry hold the locks of their slots until they commit. -/
def lockHolders (id : Nat) (d : Device) : List Job := d.gaffer.jobs.filter (fun j => j.id ≠ id && (!j.gates.isEmpty || j.durable))
def lockedAgainst (j : Job) (s : Staged) (d : Device) : Bool :=
  (lockHolders j.id d).any (fun o => match o.staged with
    | some x => (commitSlots d.keys s).any (fun h => (commitSlots d.keys x).contains h) ||
                (commitFps j.tenant s).any (fun f => (commitFps o.tenant x).contains f)
    | none => false)

/-! ### The compares at Retire (03 R88, R91; 11 R388) -/

/-- A slot that a commit changes must still hold the key of the handle. -/
def subjectCheck (t head : Nat) (gen : BitVec 12) (k : KeyStore) : Code :=
  let s := slotOf head k
  if s.tenant ≠ t ∨ s.gen ≠ gen ∨ (s.state ≠ .active ∧ s.state ≠ .suspended) then 0x0202 else 0
/-- The component session of a tenant under a number, while it lasts (11 R397). -/
def sessionNumbered (t : Nat) (n : BitVec 32) (c : Custody) : Option CompSession :=
  c.sessions.find? (fun x => decide (x.tenant = t) && x.number == n)
/-- A component may still be added: its session is open and its custodian new (11 R398). -/
def mayAdd (t : Nat) (n : BitVec 32) (custodian : Bytes) (c : Custody) : Bool :=
  match sessionNumbered t n c with
  | some x => !x.custodians.contains custodian
  | none => false
/-- A sweep of the tenant runs, or is complete and its rotation not closed (03 R128). -/
def sweepOf (t : Nat) (k : KeyStore) : Bool := k.sweeps.any (fun p => decide (p.2.tenant = t) && (p.2.active || p.2.complete))
/-- The tenant-root journal keeps the previous root: the tenant has not closed its rotation (03 R119; 11 R402). -/
def previousKept (t : Nat) (d : Device) : Bool :=
  hasRoot t d && d.flash.roots.any (fun e => decide (e.tenant = t) && e.version + 1 == (slotOf t d.keys).rootVersion)
/-- A rotation of the tenant is open, also when its sweep has ended without completing (11 R401, R402; 03 R119). -/
def rotationOpen (t : Nat) (d : Device) : Bool := sweepOf t d.keys || previousKept t d
def sweepDone (t : Nat) (k : KeyStore) : Bool := k.sweeps.any (fun p => decide (p.2.tenant = t) && p.2.complete)
/-- A register among KST_SWEEP0 to KST_SWEEP3 is free: a complete sweep holds its own until the rotation is closed (DESIGN CHOICE
beside 03 R116, which bounds the sweeps that run: R128 clears the register at the close; log entry 45). -/
def sweepFree (k : KeyStore) : Bool :=
  (List.range 4).any (fun i => !(tabGetD i {} k.sweeps).active && !(tabGetD i {} k.sweeps).complete)
/-- 0x010C opens a rotation (11 R401). -/
def mayOpenRotation (t : Nat) (d : Device) : Bool :=
  !rotationOpen t d && sweepFree d.keys && (slotOf t d.keys).rootVersion != 255
/-- 0x010C names the target suite of a rotation whose sweep has ended without completing: it starts that sweep again and draws no root
(DEDUCED from 03 R119, by which the driver starts the sweep again; log entry 45). -/
def mayRestartSweep (t : Nat) (suite : Byte) (d : Device) : Bool :=
  previousKept t d && !sweepOf t d.keys && sweepFree d.keys && (slotOf t d.keys).suite == suite
/-- A component session has lasted 300 s (11 R397). -/
def sessionOver (x : CompSession) (tick : Nat) : Bool := decide (x.opened + 300 * secTicks ≤ tick)
/-- Sessions that have not lasted 300 s. -/
def liveSessionsOf (d : Device) : List CompSession := d.custody.sessions.filter (fun x => !sessionOver x d.time.ticks)
/-- A session may begin: at most eight, and one to a tenant (11 R396, R397). -/
def mayBegin (t : Nat) (d : Device) : Bool :=
  decide ((liveSessionsOf d).length < 8) && !(liveSessionsOf d).any (fun x => decide (x.tenant = t))
/-- A quorum is open: named by the number, and not past its end (16 R572). -/
def quorumOpen (n : Nat) (d : Device) : Option Quorum :=
  match d.custody.quorum with
  | some q => if q.number.toNat = n ∧ d.time.ticks < quorumEnds q then some q else none
  | none => none
def quorumBusy (d : Device) : Bool :=
  match d.custody.quorum with
  | some q => decide (d.time.ticks < quorumEnds q)
  | none => false
/-- The compare that one intent makes. -/
def limitCode (t : Nat) (d : Device) (i : Intent) : Code :=
  match i with
  | .useKey h g => usageCheck t h g d.keys
  | .delete h g => subjectCheck t h g d.keys
  | .suspend h g _ => subjectCheck t h g d.keys
  | .createRoot target _ _ _ => if hasRoot target d then 0x040C else 0
  | .addComponent n custodian _ => if mayAdd t n custodian d.custody then 0 else 0x0409
  | .openRotation target _ _ => if mayOpenRotation target d then 0 else 0x0410
  | .restartSweep target => if mayRestartSweep target (slotOf target d.keys).suite d then 0 else 0x0410
  | .closeRotation target => if sweepDone target d.keys then 0 else 0x0410
  | .endSession n => if (sessionNumbered t n d.custody).isSome then 0 else 0x0409
  | .beginSession _ _ => if mayBegin t d then 0 else 0x0409
  | .openQuorum _ _ _ => if quorumBusy d then 0x040D else 0
  | .abandonQuorum n => if (quorumOpen n.toNat d).isSome then 0 else 0x040D
  | _ => 0
/-- The codes of R91, tenant, generation and state of every key before any limit. -/
def limitsCode (t : Nat) (s : Staged) (d : Device) : Code :=
  let codes := s.intents.map (limitCode t d)
  match codes.find? (fun c => c == 0x0202 || c == 0x0204) with
  | some c => c
  | none => (codes.find? (fun c => c != 0)).getD 0
/-- A key with the same fingerprint resides in the tenant's slots. -/
def residentFp (t : Nat) (fp : Bytes) (k : KeyStore) : Bool :=
  k.slots.any (fun p => decide (p.2.tenant = t) && (p.2.state == .active || p.2.state == .suspended) &&
    decide (fit 8 p.2.fingerprint = fit 8 fp))
def draftSlots (x : KeyDraft) : Nat := slotsFor x.material.length
def neededSlots (s : Staged) : Nat := (s.intents.map (fun i => match i with | .create x => draftSlots x | _ => 0)).sum
/-- Quota, free slots, the journal's room of 4,096 keys, and the fingerprint of a key with advancing state (03 R88; 11 R388, R413). -/
def quotaCode (t : Nat) (s : Staged) (d : Device) : Code :=
  let n := neededSlots s
  if n = 0 then 0
  else if (tenantOf t d).quota < tenantUsed t d.keys + n then 0x0205
  else if freeCount d < n then 0x0206
  else if (commitFps t s).any (fun f => !journalRoom d t f.2) then 0x0206
  else if (commitFps t s).any (fun f => residentFp t f.2 d.keys) then 0x0208
  else 0

/-! ### Gating entries (04 R147, 11 R414, R415; 20 R659) -/

/-- The fingerprint, type and cap of a resident key with advancing state. -/
def advancing (head : Nat) (d : Device) : Option (Byte × Bytes) :=
  let s := slotOf head d.keys
  (advancingType s.keyClass s.usage).map (fun ty => (ty, s.fingerprint))
/-- Queue or find the record that must be durable before an index at or above the durable ceiling is used. -/
def gateIndex (t head used : Nat) (d : Device) : Device × List Nat :=
  let s := slotOf head d.keys
  match advancingType s.keyClass s.usage with
  | none => (d, [])
  | some ty =>
    if used < (durableCeiling d t s.fingerprint).getD 0 then (d, [])
    else match (pendingCeilings d t s.fingerprint).find? (fun p => decide (used < p.2.ceiling)) with
      | some p => (d, [p.1])
      | none =>
        let c := ceilingCap s.keyClass s.keyParam (max (handedCeiling d t s.fingerprint) used + 1024)
        let p := makeCeiling ty t s.fingerprint c d
        (handWrite (.ceiling p.1) none p.2, [d.flash.nextWrite])
/-- The gating entries of one intent are handed over; their numbers. -/
def gateIntent (t job : Nat) (i : Intent) (d : Device) : Device × List Nat :=
  match i with
  | .create x => match x.journal with
    | some (ty, c) =>
      let p := makeCeiling ty t x.fingerprint c d
      (handWrite (.ceiling p.1) (some job) p.2, [d.flash.nextWrite])
    | none => (d, [])
  | .setKsn h _ used => gateIndex t h used d
  | .setIndex h used => gateIndex t h used d
  | .openRotation target suite root =>
    let v := (slotOf target d.keys).rootVersion + 1
    let d := forDraw 8 12 d
    (handWrite (.root (makeEntry d target v suite (drawn 8 12 d) root)) (some job) (spend 8 12 d), [d.flash.nextWrite])
  | .createRoot target suite version root =>
    let d := forDraw 8 12 d
    (handWrite (.root (makeEntry d target version suite (drawn 8 12 d) root)) (some job) (spend 8 12 d), [d.flash.nextWrite])
  | .closeRotation target => (handWrite (.closeRoot target (slotOf target d.keys).rootVersion) (some job) d, [d.flash.nextWrite])
  | _ => (d, [])
/-- The journal that an intent's gating entry needs: `none` when it needs none. -/
def intentNeeds (t : Nat) (d : Device) : Intent → Option JournalWrite
  | .create x => x.journal.map (fun p => .ceiling { type := p.1, tenant := t, fingerprint := x.fingerprint, ceiling := p.2, cycle := 0, entrySeq := 0, tag := 0 })
  | .setKsn h _ used =>
    let s := slotOf h d.keys
    if used < (durableCeiling d t s.fingerprint).getD 0 then none
    else some (.ceiling { type := 0x02, tenant := t, fingerprint := [], ceiling := 0, cycle := 0, entrySeq := 0, tag := 0 })
  | .setIndex h used =>
    let s := slotOf h d.keys
    if used < (durableCeiling d t s.fingerprint).getD 0 then none
    else some (.ceiling { type := 0x01, tenant := t, fingerprint := [], ceiling := 0, cycle := 0, entrySeq := 0, tag := 0 })
  | .openRotation target _ _ => some (.closeRoot target 0)
  | .restartSweep _ => none
  | .createRoot target _ _ _ => some (.closeRoot target 0)
  | .closeRotation target => some (.closeRoot target 0)
  | _ => none
/-- 0x050A when a durable entry is needed and its journal, or the NVM interface region, does not serve. -/
def journalCode (t : Nat) (s : Staged) (d : Device) : Code :=
  if s.intents.any (fun i => match i with | .flashImage _ _ => !nvmServes d | _ => false) then 0x050A
  else if (s.intents.filterMap (intentNeeds t d)).all (journalUp d) then 0 else 0x050A
/-- Hand over every gating entry of a job; the numbers it waits for. -/
def handGates (j : Job) (s : Staged) (d : Device) : Device × List Nat :=
  s.intents.foldl (fun p i =>
    let q := gateIntent j.tenant j.id i p.1
    (q.1, p.2 ++ q.2)) (d, [])

/-! ### Writing the intents -/

/-- Raise the ceiling in advance (11 R414): at `used + 1` within 512 of the ceiling handed over. -/
def reserveAhead (t head used : Nat) (d : Device) : Device :=
  let s := slotOf head d.keys
  let c := handedCeiling d t s.fingerprint
  let next := ceilingCap s.keyClass s.keyParam (c + 1024)
  if c ≤ used + 1 + 512 ∧ c < next then
    doWith (advancingType s.keyClass s.usage) (fun ty => adviseCeiling ty t s.fingerprint next) d
  else d
/-- The head record of a key to be created: of the tenant's root, or of the root it is restored under (03 R117). -/
def draftSlot (t : Nat) (x : KeyDraft) (d : Device) : Slot :=
  { keyClass := x.keyClass, keyParam := x.keyParam, usage := x.usage, exportBits := x.exportBits, origin := x.origin
    tenant := t, state := .active, seedForm := x.seedForm
    rootVersion := (x.root.getD ((slotOf t d.keys).suite, (slotOf t d.keys).rootVersion)).2
    suite := (x.root.getD ((slotOf t d.keys).suite, (slotOf t d.keys).rootVersion)).1, policySet := x.policySet, usageLimit := x.usageLimit
    checkValue := fit 8 x.checkValue, fingerprint := fit 8 x.fingerprint, index := x.index }
/-- An open sweep owes the block of a key restored under another suite at a slot that its cursor has passed (03 R117). -/
def oweBlock (head : Nat) (d : Device) : Device :=
  match openSweep (slotOf head d.keys).tenant d with
  | some (n, w) =>
    if sweepPends w (slotOf head d.keys) && decide (head < w.cursor) then
      { d with keys := modSweep n (fun w => { w with owed := w.owed ++ [head] }) d.keys }
    else d
  | none => d
/-- Create a key in slots that Yunante chooses; its handle. -/
def createKey (t : Nat) (x : KeyDraft) (d : Device) : Device × BitVec 32 :=
  let slots := chooseSlots d (draftSlots x)
  let head := slots.headD 0
  (oweBlock head { d with keys := writeChain d (draftSlot t x d) x.material slots }, mkHandle (slotOf head d.keys).gen head)
/-- Invalidate the digest cache entries of a slot in every bench, each counted (08 R295, R302 counter 4). -/
def dropCache (p : CacheEntry → Bool) (b : Bench) : Bench :=
  let gone := b.cache.filter p
  if gone.isEmpty then b
  else { b with cache := b.cache.filter (fun e => !p e), punty := { b.punty with ctr := ctrAdd 4 gone.length b.punty.ctr } }
def dropCaches (p : CacheEntry → Bool) (d : Device) : Device := { d with benches := tabMap (fun _ => dropCache p) d.benches }
/-- Delete a key; one with advancing state gets an erased record (11 R414, R418). -/
def deleteKeyOf (head : Nat) (d : Device) : Device :=
  let s := slotOf head d.keys
  let keys := deleteChain d head
  let d := dropCaches (fun e => decide (e.slot = head))
    { d with keys := { keys with sweeps := tabMap (fun _ w => { w with owed := w.owed.filter (fun h => h ≠ head) }) keys.sweeps } }
  doWith (advancingType s.keyClass s.usage) (fun _ => adviseCeiling 0x03 s.tenant s.fingerprint 0) d
/-- Change the head record of a key, with a fresh tag. -/
def rewriteHead (head : Nat) (f : Slot → Slot) (d : Device) : Device :=
  touchHead head { d with keys := putSlot head (recommit d.custody d.keys head f) d.keys }
/-- Two entries name one state: by tenant, slot, generation and algorithm code (08 R291). -/
def sameEntry (a b : CacheEntry) : Bool :=
  decide (a.tenant = b.tenant) && decide (a.slot = b.slot) && decide (a.gen = b.gen) && decide (a.alg = b.alg)
/-- Use or install an HMAC state in the digest cache of a bench: of the tenant's entries, the least recently used goes
when its share is full; a state computed on a miss changes nothing where an entry exists (08 R291 to R294). -/
def cacheInstall (b : Nat) (e : CacheEntry) (hit : Bool) (engine : Nat) (d : Device) : Device :=
  let cap := (tenantOf e.tenant d).cacheEntries
  let fresh := (slotOf e.slot d.keys).gen == e.gen
  modBench b (fun x =>
    let rest := x.cache.filter (fun y => !sameEntry e y)
    match x.cache.find? (sameEntry e) with
    | some held => if hit then { x with cache := rest ++ [held] } else x
    | none =>
      if hit || cap = 0 || !fresh then x
      else
        let mine := rest.filter (fun y => decide (y.tenant = e.tenant))
        let cut := if cap ≤ mine.length then (match mine with | y :: _ => rest.filter (fun z => z ≠ y) | [] => rest) else rest
        { x with cache := cut ++ [e], punty := { x.punty with ctr := ctrInc (0x100 + 16 * engine + 3) (ctrInc 3 x.punty.ctr) } }) d
/-- The next step of a sweep enters as a background job, unless it waits for the ring or the ready list has no room for it (03 R115; 04 R133,
R167; 12 R443). -/
def enterSweep (n step : Nat) (d : Device) : Device :=
  let w := tabGetD n {} d.keys.sweeps
  if w.active && !w.waiting && !listFull 0 d then enterBackground n step { d with keys := modSweep n (fun w => { w with job := some d.gaffer.nextJob }) d.keys }
  else { d with keys := modSweep n (fun w => { w with job := none }) d.keys }
/-- The sweeps whose steps waited for room on the ready list go on; only the first step of a sweep may expire (04 R133, R167). -/
def offerSweeps (d : Device) : Device :=
  doEach (d.keys.sweeps.filter (fun p => p.2.active && !p.2.waiting && p.2.job.isNone)) (fun p =>
    enterSweep p.1 (if p.2.cursor = 256 then 0 else 1)) d
/-- The driver has read entries of its ring: the sweeps that wait for it go on (12 R443). -/
def resumeSweeps (d : Device) : Device :=
  doEach (d.keys.sweeps.filter (fun p => p.2.active && p.2.waiting && ringReady p.2.tenant d)) (fun p d =>
    enterSweep p.1 1 { d with keys := modSweep p.1 (fun w => { w with waiting := false }) d.keys }) d
/-- A sweep to the suite and version of the tenant's root starts in a register that is free (03 R115, R128). -/
def openSweepOf (t : Nat) (d : Device) : Device :=
  let suite := (slotOf t d.keys).suite
  let version := (slotOf t d.keys).rootVersion
  let n := ((List.range 4).find? (fun i => !(tabGetD i {} d.keys.sweeps).active && !(tabGetD i {} d.keys.sweeps).complete)).getD 0
  enterSweep n 0
    { d with keys := { d.keys with sweeps := tabSet n { active := true, tenant := t, suite, version, cursor := 256 } d.keys.sweeps } }
/-- A rotation opens: the new root takes the reserved slot, and a sweep starts (11 R401, 03 R115). -/
def openRotation (t : Nat) (suite : Byte) (root : Bytes) (d : Device) : Device :=
  openSweepOf t (loadRoot t ((slotOf t d.keys).rootVersion + 1) suite root d)
/-- The last head has been reached: event 0x0203, message 0x86 to the function whose ring took the blocks. -/
def sweepComplete (n : Nat) (d : Device) : Device :=
  let w := tabGetD n {} d.keys.sweeps
  let d := { d with keys := modSweep n (fun w => { w with active := false, complete := true, waiting := false, job := none }) d.keys }
  let detail := leBytes 1 w.tenant ++ [w.version]
  mbxSend (ringOf w.tenant d) (message 0x86 [] 0 detail) (emit .info 0x0203 .keyStore detail d)
/-- Write the blocks and suite fields of the heads that a step visits, each with a nonce from the bytes drawn for the step; with no room
in the ring the step waits there, and with no nonce left it ends there (03 R115; 12 R443). -/
def sweepGo (n : Nat) : List Nat → Bytes → Device → Device
  | [], _, d => d
  | h :: rest, r, d =>
    let w := tabGetD n {} d.keys.sweeps
    let passed : Sweep → Sweep := fun w =>
      if w.owed.contains h then { w with owed := w.owed.filter (fun x => x ≠ h) } else { w with cursor := h + 1 }
    if !keyMapped h d.keys && (sweepPends w (slotOf h d.keys) || w.owed.contains h) then
      if r.length < 12 then d
      else
        let p := issueBlock w.tenant h w (r.take 12) d
        if p.2 then sweepGo n rest (r.drop 12) { p.1 with keys := modSweep n passed p.1.keys }
        else { p.1 with keys := modSweep n (fun w => { w with waiting := true }) p.1.keys }
    else sweepGo n rest r { d with keys := modSweep n passed d.keys }
/-- A step of a sweep is committed; it completes when no head is left. -/
def commitSweep (n : Nat) (nonces : Bytes) (d : Device) : Device :=
  if !(tabGetD n {} d.keys.sweeps).active then d
  else
    let d := sweepGo n (sweepHeads n d.keys) nonces d
    if (tabGetD n {} d.keys.sweeps).waiting || !(sweepHeads n d.keys).isEmpty then d else sweepComplete n d
/-- A rotation closes: the sweep's register is free again (11 R402, 03 R128). -/
def closeRotation (t : Nat) (d : Device) : Device :=
  { d with keys := { d.keys with sweeps := tabMap (fun _ w => if w.tenant = t then {} else w) d.keys.sweeps } }
/-- The actions of Power control (22 R693): 0x01 Dusk, 0x02 Night preparation, 0x03 its end, 0x04 automatic Dusk, 0x05 the
debug level. A request that the present power mode already answers changes nothing. -/
def powerAction (action idleMs : Nat) (d : Device) : Device :=
  let p := d.power
  match action with
  | 1 => if p.mode = .noon then { d with power := { p with mode := .duskRequested } } else d
  | 2 => if p.mode = .noon ∨ p.mode = .duskRequested then
      pwrCount 4 { d with power := { p with mode := .preparingNight, duskEntering := false, wakePending := false } }
    else d
  | 3 => if p.mode = .preparingNight ∨ p.mode = .nightReady then { d with power := { p with mode := .noon } } else d
  | 4 => { d with power := { p with idleMs := idleMs } }
  | 5 => setLevel .closed 0 d
  | _ => d
/-- A component is held for its session (11 R418). -/
def keepComponent (n : BitVec 32) (custodian part : Bytes) (d : Device) : Device :=
  { d with custody := { d.custody with sessions := d.custody.sessions.map (fun x =>
      if x.number = n then { x with custodians := x.custodians ++ [custodian], components := x.components ++ [part] } else x) } }
/-- A component session ends and its components are erased (11 R397). -/
def endSession (n : BitVec 32) (d : Device) : Device :=
  { d with custody := { d.custody with sessions := d.custody.sessions.filter (fun x => x.number ≠ n) } }
/-- A component session begins; its number (11 R396). -/
def beginSession (t : Nat) (template : Bytes) (count : Nat) (d : Device) : Device :=
  let n := d.custody.sessionNumber + 1
  { d with custody := { d.custody with
      sessionNumber := n
      sessions := liveSessionsOf d ++ [{ number := n, tenant := t, template, count, opened := d.time.ticks }] } }
/-- A quorum opens; its number (16 R572). -/
def openQuorum (procedure : Byte) (params : Bytes) (required : Nat) (d : Device) : Device :=
  let n := d.custody.quorumNumber + 1
  { d with custody := { d.custody with
      quorumNumber := n
      quorum := some { number := n, procedure, params, required, opened := d.time.ticks, openedLocked := state d == .locked } } }
/-- The bench whose core staged a job out. -/
def stagedBench (j : Job) : Nat := match j.ranOn with | some c => c.bench | none => 0
/-- Write one intent; the handle of a created key, the number of a session or quorum that it opens. -/
def writeIntent (j : Job) (i : Intent) (d : Device) : Device × Option (BitVec 32) :=
  match i with
  | .useKey h _ => (touchHead h { d with keys := useOnce d.custody h d.keys }, none)
  | .create x => let p := createKey j.tenant x d; (p.1, some p.2)
  | .delete h _ => (deleteKeyOf h d, none)
  | .suspend h _ on => (rewriteHead h (fun s => { s with state := if on then .suspended else .active }) d, none)
  | .setKsn h m used =>
    (reserveAhead j.tenant h used (touchHead h
      { d with keys := putSlot h (sealSlot d.custody h (bytesBv 512 (fit 64 m)) { slotOf h d.keys with epoch := d.keys.epoch }) d.keys }), none)
  | .setIndex h used => (reserveAhead j.tenant h used (rewriteHead h (fun s => { s with index := BitVec.ofNat 161 (used + 1) }) d), none)
  | .cacheUse e hit n => (cacheInstall (stagedBench j) e hit n d, none)
  | .openRotation t suite root => (openRotation t suite root d, none)
  | .restartSweep t => (openSweepOf t d, none)
  | .closeRotation t => (closeRotation t d, none)
  | .purge t => (doEach ((headsOf t d.keys).take 64) deleteKeyOf d, none)
  | .flashImage _ _ => (d, none)
  | .power a ms => (powerAction a ms d, none)
  | .createRoot t suite version root => (loadRoot t version suite root d, none)
  | .addComponent n custodian part => (keepComponent n custodian part d, none)
  | .endSession n => (endSession n d, none)
  | .beginSession template count => (beginSession j.tenant template count d, some (d.custody.sessionNumber + 1))
  | .openQuorum p q m => (openQuorum p q m d, some (d.custody.quorumNumber + 1))
  | .abandonQuorum _ => ({ d with custody := { d.custody with quorum := none } }, none)
  | .lockPart => (enterLocked .managerLock d, none)
  | .retirePart => (burnRetired d, none)
  | .sweepStep n r => (commitSweep n r d, none)
/-- Write every intent in order. -/
def writeIntents (j : Job) (is : List Intent) (d : Device) : Device × Option (BitVec 32) :=
  is.foldl (fun p i =>
    let q := writeIntent j i p.1
    (q.1, match q.2 with | some h => some h | none => p.2)) (d, none)

end Sys2Proof.Machine
end

