-- ==== Sys2Proof/Machine/Lehr.lean ====
section
/-! DEFINITION. Lehr (04 R140, R145 to R159, R163 to R167; 20 R650 to R657): the verdict, Stage-out, Retire, steps,
floors, the journal entries a Retire waits for. -/

namespace Sys2Proof.Machine

/-! ### The job of a core -/

/-- The core's bench works: present, not fenced, not halted, awake. -/
def benchRuns (b : Nat) (d : Device) : Bool :=
  (tabGet b d.benches).isSome && (benchOf b d).inService && !(benchOf b d).halted && benchesAwake d && outOfReset d
/-- The job whose recipe a core runs. -/
def jobOn (c : CoreRef) (d : Device) : Option Job :=
  let c := lead c d
  if benchRuns c.bench d && (coreOf c d).state == .running then
    match (coreOf c d).job with
    | some id => match jobOf id d with
      | some j => if j.place = .core c.bench c.core then some j else none
      | none => none
    | none => none
  else none

/-- Codes held to a floor (04 R153, R154). -/
def floorCode (c : Code) : Bool := decide (2 ≤ c.toNat / 256) && decide (c.toNat / 256 ≤ 4)

/-! ### The verdict (04 R140, R158; 21 R673) -/

/-- Engine kinds that a job's recipe needs. -/
def kindsOf (j : Job) (d : Device) : List Nat :=
  let n := jobNeeds j d
  (if n.1 then [0] else []) ++ (if n.2.1 then [1] else []) ++ (if n.2.2 then [2] else [])
/-- The engine time that the recipe would still have used, up to floor_eff, is charged (04 R158): how much is open. -/
def chargeRefusal (j : Job) (d : Device) : Device :=
  let left := j.floorEff - ticksSince j.dispatch d
  doEach (kindsOf j d) (fun k => charge k j.tenant (min left (Config.refusedEngineTime j.recipe k j.floorEff))) d
/-- The verdict byte of a comparison (10 R334). -/
def verdictByte (ok : Bool) : Byte := if ok then 0x5A else 0xA5
/-- A comparison has passed only when its pair reached Lehr as (1, 0): then the verdict is a match, and output whose release depends on
it is released (08 R280, R281; 10 R335). -/
def judged (j : Job) (st : Staged) : Staged :=
  match st.pair with
  | none => st
  | some _ =>
    let ok := decide (j.flags = some (true, false))
    { st with verdict := verdictByte ok, output := if ok then st.output else [] }
/-- The verdict of Check reaches Lehr, and with it the pair of a comparison, unchanged (08 R280): on a refusal the grants are returned and
the rest is charged. -/
def giveVerdict (j : Job) (code : Code) (d : Device) : Device :=
  let d := modJob j.id (fun x => { x with verdict := some code, flags := j.staged.bind (fun st => st.pair) }) d
  if code = 0 then d
  else
    let d := dropGrants j.id true d
    if floorCode code then chargeRefusal j d else d
/-- A verdict that reaches Lehr after Stage-out, of a job that the core has handed over: it only delays Retire (04 R140). -/
def lateVerdict (c : CoreRef) (d : Device) : Option Job :=
  d.gaffer.jobs.find? (fun j => j.verdict.isNone && j.staged.isSome && decide (j.ranOn = some (lead c d)) &&
    (match j.place with | .pending _ => true | _ => false))
/-- A pair differs or one core is late (21 R673): both cores go to their self-test, the job is re-entered or ends. -/
def pairFault (c : CoreRef) (d : Device) : Device := coreFaultWith 0x0501 c d

/-! ### Stage-out (04 R150, R158) -/

def pendingCount (b : Nat) (d : Device) : Nat := (d.gaffer.jobs.filter (fun j => decide (j.place = .pending b))).length
/-- A lower-numbered core of the bench has blocked at the full buffer before. -/
def blockedBefore (c : CoreRef) (d : Device) : Bool :=
  (benchOf c.bench d).cores.any (fun p => decide (p.1 < c.core) && p.2.blockedAtLehr)
/-- The job enters the pending buffer; its core stays assigned when it is refused to a floor (04 R158). -/
def enterPending (c : CoreRef) (j : Job) (code : Code) (d : Device) : Device :=
  if floorCode code then
    modUnit c (fun x => { x with blockedAtLehr := false })
      (modJob j.id (fun j => { j with place := .pending c.bench, held := some (c.bench, c.core) }) d)
  else freeCore c (modJob j.id (fun j => { j with place := .pending c.bench }) d)
/-- Stage-out of a job, or the wait for an entry. -/
def stageJob (c : CoreRef) (j : Job) (code : Code) (d : Device) : Device :=
  if 512 ≤ pendingCount c.bench d || (blockedBefore c d && !(coreOf c d).blockedAtLehr) then
    modUnit c (fun x => { x with blockedAtLehr := true }) d
  else enterPending c j code d

/-- What Lehr's checks find at Stage-out or Retire (20 R650, R652); `d` unchanged for no fault. -/
def unitFault (c : CoreRef) (id : Nat) (fault : UnitFault) (d : Device) : Device :=
  match fault with
  | .none => d
  | .core => coreFault c (faultJob id 0x0503 d)
  | .localMemory => coreFault c (faultJob id 0x0503 (memoryEvent c.bench (BitVec.ofNat 8 c.core) 0x01 0 0x06 d))
  | .firmwareRow row => firmwareRow c.bench row d
  | .dataRow row => dataRow c.bench row (some id) d
  | .pendingEntry => dispatchAll (faultJob id 0x0503 (memoryEvent c.bench 0xFF 0x04 0 0x04 d))
  | .correctable fw row => correctableRow c.bench fw row (some id) d
/-- After the fault the job still stands where it stood. -/
def stillAt (id : Nat) (p : Place) (d : Device) : Bool := match jobOf id d with | some j => decide (j.place = p) | none => false

/-! ### Retire (04 R145, R146) -/

/-- The refusal event, when the device parameters select it (15 R531, 19 R641). -/
def refusalEvent (j : Job) (code : Code) (b : Nat) (d : Device) : Device :=
  if floorCode code && d.flash.refusalEvents.getLsbD (code.toNat / 256 - 2) then
    emitVia (.bench b) .info 0x0303 (.bench b) 0xFF (some j.tenant)
      (leBytes 2 j.recipe.toNat ++ leBytes 2 code.toNat ++ leBytes 4 (streamNo j.stream) ++ leBytes 4 j.ticket.toNat) d
  else d
/-- Lehr's counter of a Retire with a code (04 R174). -/
def retireCounter (code : Code) : Nat :=
  if code = 0 then 0 else if code = 0x0602 then 2 else if code.toNat / 256 = 5 then 3 else 1
/-- The Marver engine that ran passes for a job, by what its work has added. -/
def marverOf (id : Nat) (b : Bench) : Option Nat :=
  (b.work.find? (fun w => decide (w.job = id) && decide (w.kind = .marver) && decide (0x100 ≤ w.counter))).map
    (fun w => (w.counter - 0x100) / 16)
/-- A validation refusal is counted for the bench and for the engine that ran the job (06 R240 counter 8). -/
def countValidation (id b : Nat) (d : Device) : Device :=
  modBench b (fun x => modEngineBlock .marver (fun y => { y with ctr := match marverOf id x with
    | some n => ctrInc (0x100 + 16 * n + 8) (ctrInc 8 y.ctr)
    | none => ctrInc 8 y.ctr }) x) d
/-- Counters, late count, trace and events of a Retire; the busy ticks of the core count for a job that retires with 0x0000 only
(04 R142, R172). -/
def noteRetire (j : Job) (b : Nat) (code : Code) (last : Bool) (d : Device) : Device :=
  let d := lehCount b (retireCounter code) d
  let d := if floorCode code then lehCount b 6 d else d
  let d := doWith j.ranOn (fun c => coreCount c (if code = 0 then 0 else 1) 1) d
  let d := if code = 0 then doWith j.ranOn (fun c => coreCount c 2 j.busy) d else d
  let deadline := match j.stream with | .stepped _ => j.opDeadline | .background _ => j.opDeadline | _ => j.deadline
  let d := if last && reached deadline d then gafCount 4 d else d
  let d := if code.toNat / 256 = 5 then affect j.tenant code d else d
  let d := if code = 0x0503 ∨ code = 0x050B then gafCount 10 d else d
  refusalEvent j code b (traceJob 0x04 j code d)
def isStepped (j : Job) : Bool := match j.stream with | .stepped _ => true | .background _ => true | _ => false
/-- The job leaves for its release with a code: into the retire mirror, releasable now or at its floor (04 R154, R158). -/
def finishJob (j : Job) (b : Nat) (code : Code) (staged : Option Staged) (d : Device) : Device :=
  let d := if 0x0301 ≤ code.toNat ∧ code.toNat ≤ 0x0305 then countValidation j.id b d else d
  let d := noteImage j code (noteRetire j b code true (settleWork (code == 0) j (dropGrants j.id true d)))
  let d := if code = 0 && isStepped j then doWith j.ranOn (fun c => coreCount c 4 1) d else d
  let base := if j.step = 0 && !j.half then j.dispatch else j.firstDispatch
  let at_ := if floorCode code then d.time.ticks + (j.floorEff - ticksSince base d) else d.time.ticks
  let d := if at_ ≤ d.time.ticks then freeJobCore j d else d
  let held := if at_ ≤ d.time.ticks then none else j.held
  let d := dropWrites j.id { d with gaffer := { d.gaffer with retirePtr := assocSet j.stream (j.ticket + 1) d.gaffer.retirePtr } }
  advancePtr j.stream (modJob j.id (fun j =>
    { j with place := .retired b, code := code, mirror := staged, releasable := some at_, held := held, gates := []
             durable := false, staged := none, verdict := none, flags := none, ranOn := none, drawn := [], drewAll := false }) (dropState j.id d))
/-- A step of a job has retired, and the job enters the ready list for another: the next step, or the second half of a step that is computed
again in safe mode (04 R164, R165, R167; 06 R204). A stepped operation takes the next ticket of its stream; another job, whose step is
halved, keeps its place in its queue's or session's stream (DESIGN CHOICE: 06 R204 does not say; log entry 91). -/
def requeue (j : Job) (b progress : Nat) (half : Bool) (state : Bytes) (d : Device) : Device :=
  let d := noteRetire j b 0 false (settleWork true j (dropGrants j.id true d))
  let d := doWith j.ranOn (fun c => coreCount c 4 1) d
  let deadline := if reached j.opDeadline d then BitVec.ofNat 48 (d.time.ticks + 3200) else j.opDeadline
  let t := if isStepped j then ticketOf j.stream d else j.ticket
  let step := if half then j.step else j.step + 1
  let arrival := d.gaffer.arrivals
  let d := { d with gaffer := { d.gaffer with arrivals := arrival + 1 } }
  let d := if isStepped j then
      { d with gaffer := { d.gaffer with tickets := assocSet j.stream (t + 1) d.gaffer.tickets
                                         retirePtr := assocSet j.stream (j.ticket + 1) d.gaffer.retirePtr } }
    else d
  let d := traceJob 0x06 { j with deadline } 0 (gafCount 6 d)
  let d := modJob j.id (fun j =>
    { j with place := .ready, ticket := t, arrival, deadline, step, dispatch := 0, staged := none, verdict := none
             flags := none, cipherDone := 0, puntyDone := 0, context := [], held := none, gates := [], durable := false, ranOn := none, progress := progress, safeMode := half, half := half
             drawnBlocks := if half then j.drawnBlocks else 0, drawn := if half then j.drawn else [], drewAll := half && j.drewAll
             compared := false, busy := 0, reentered := false }) d
  let d := saveState j.id b (leBytes 8 step ++ state) d
  let d := match jobOf j.id d with
    | some j => if savedWhole j then d else loseState j.id d
    | none => d
  dispatchAll (wake 2 2 d)
/-- The next step of a stepped operation (04 R164). -/
def requeueStep (j : Job) (b progress : Nat) (state : Bytes) (d : Device) : Device := requeue j b progress false state d
/-- The second half of a step that is computed again in safe mode: nothing of the step is saved yet (06 R204). -/
def requeueHalf (j : Job) (b : Nat) (d : Device) : Device := requeue j b j.progress true (stepState d j) d
/-- The progress that a completion reports: steps completed by 0x0110, blocks re-wrapped by 0x010E (12 R432). -/
def progressAfter (j : Job) (s : Staged) : Nat :=
  if j.recipe = 0x0110 then j.progress + 1 else if j.recipe = 0x010E then j.progress + s.progress else 0
/-- Every check has passed and every gating entry is durable: the intents are written. A commit that locks the part discards every job, its
own among them (04 R149). -/
def commitJob (j : Job) (b : Nat) (s : Staged) (d : Device) : Device :=
  let p := writeIntents j s.intents (applyWrites j.id d)
  let n := progressAfter j s
  if (jobOf j.id p.1).isNone then p.1
  else if s.half then requeueHalf j b p.1
  else if s.more then requeueStep j b n s.state (modJob j.id (fun j => { j with saved := j.saved ++ s.output }) p.1)
  else finishJob j b 0 (some { judged j s with aux := p.2.getD s.aux, intents := [], progress := n }) (modJob j.id (fun j => { j with progress := n }) p.1)
/-- An image write begins at the Retire of its verb: the target area is erased (15 R540). -/
def beginImage (j : Job) (s : Staged) (d : Device) : Device :=
  match s.intents.findSome? (fun i => match i with | .flashImage k im => some (k, im) | _ => none) with
  | some (k, im) => { d with flash := { d.flash with imageWrite := some { kind := k, image := im, job := j.id } } }
  | none => d
def writesImage (s : Staged) : Bool := s.intents.any (fun i => match i with | .flashImage _ _ => true | _ => false)
/-- The slots that a commit writes: chains of the keys it names, reserved slots, and the free slots that new keys take. -/
def writtenSlots (s : Staged) (d : Device) : List Nat :=
  (commitSlots d.keys s).flatMap (fun h => h :: chainOf h d.keys) ++
    s.intents.flatMap (fun i => match i with | .create x => chooseSlots d (draftSlots x) | _ => [])
/-- A commit that writes a slot under conversion waits for the conversion to end (03 R112). -/
def conversionBlocks (s : Staged) (d : Device) : Bool :=
  match d.keys.converting with
  | some i => (writtenSlots s d).contains i
  | none => false
/-- A step that leaves another waits for room on the ready list (04 R133; DESIGN CHOICE: the rule does not say what becomes of it; log entry
85). -/
def stepWaits (j : Job) (s : Staged) (d : Device) : Bool := (s.more || s.half) && listFull j.tenant d
/-- A commit draws the nonce of a root's journal entry: without device service its job is squashed (09 R326). -/
def drawsNonce (s : Staged) : Bool := s.intents.any (fun i => match i with | .openRotation _ _ _ => true | .createRoot _ _ _ _ => true | _ => false)
/-- The decision of a Retire whose turn has come (04 R146). -/
def retireJob (j : Job) (b : Nat) (verdict : Code) (s : Staged) (d : Device) : Device :=
  let code : Code := if j.cancelMark then 0x0602 else verdict
  if code ≠ 0 then finishJob j b code none d
  else if lockedAgainst j s d then
    if j.waitedLock then d else modJob j.id (fun j => { j with waitedLock := true }) (lehCount b 5 d)
  else
    let c1 := limitsCode j.tenant s d
    let c2 := if c1 = 0 then quotaCode j.tenant s d else c1
    let c3 := if c2 = 0 then journalCode j.tenant s d else c2
    if c3 ≠ 0 then finishJob j b c3 none d
    else if drawsNonce s && !d.gather.service then dispatchAll (squashJob j.id 0x0508 d)
    else if stepWaits j s d then d
    else if writesImage s then beginImage j s d
    else
      let p := handGates j s d
      if p.2.isEmpty then commitJob j b s p.1 else modJob j.id (fun j => { j with gates := p.2 }) p.1
/-- A job may retire now: its ticket is its stream's, its verdict is in, it waits for nothing. -/
def mayRetire (j : Job) (d : Device) : Bool :=
  j.gates.isEmpty && decide (j.ticket = ptrOf j.stream d) && !d.keys.halted &&
  !(match d.flash.imageWrite with | some w => decide (w.job = j.id) | none => false)

/-! ### Journal entries (04 R147; 20 R660) -/

/-- A job that waited for its last gating entry commits, or ends with the code that stands against it by now. -/
def gateOpened (j : Job) (d : Device) : Device :=
  match j.place, j.staged with
  | .pending b, some s =>
    if j.cancelMark then finishJob j b 0x0602 none d
    else if conversionBlocks s d || stepWaits j s d then modJob j.id (fun j => { j with durable := true }) d
    else
      let c1 := limitsCode j.tenant s d
      let c := if c1 = 0 then quotaCode j.tenant s d else c1
      if c ≠ 0 then finishJob j b c none d else commitJob j b s d
  | _, _ => d
/-- A page is programmed: an entry that belongs to no commit enters its journal, another enters it with its job's commit (01 R21). -/
def entryProgrammed (w : PendingWrite) (d : Device) : Device :=
  if w.job.isSome then
    { d with flash := { d.flash with writes := d.flash.writes.map (fun x => if x.id = w.id then { x with durable := true } else x) } }
  else applyWrite w.write { d with flash := { d.flash with writes := d.flash.writes.filter (fun x => x.id ≠ w.id) } }
/-- An entry is durable: every Retire that waited for it alone proceeds. -/
def entryDurable (w : PendingWrite) (d : Device) : Device :=
  let d := entryProgrammed w d
  let waiting := d.gaffer.jobs.filter (fun j => j.gates.contains w.id)
  let d := doEach waiting (fun j => modJob j.id (fun j => { j with gates := j.gates.filter (fun g => g ≠ w.id) })) d
  doEach waiting (fun j d => match jobOf j.id d with
    | some j => if j.gates.isEmpty then gateOpened j d else d
    | none => d) d
/-- The jobs that a lost entry ends, with its code. -/
def endWaiting (code : Code) (p : Nat → Bool) (d : Device) : Device :=
  doEach (d.gaffer.jobs.filter (fun j => j.gates.any p)) (fun j d => match j.place with
    | .pending b => finishJob j b code none (modJob j.id (fun j => { j with gates := [], durable := false }) d)
    | _ => d) d
/-- A page fails to program: again at the next page, up to three attempts; then the journal is unavailable (20 R660; 19 R641). -/
def entryFailed (w : PendingWrite) (d : Device) : Device :=
  let area := if isRootWrite w.write then 0x02100000 else 0x04100000
  let d := emit .alarm 0x0803 .nvm (leBytes 4 area ++ leBytes 4 (Config.flashOffset d.events.submitted)) d
  if w.attempts + 1 < 3 then
    { d with flash := { d.flash with writes := d.flash.writes.map (fun x => if x.id = w.id then { x with attempts := x.attempts + 1 } else x) } }
  else
    let root := isRootWrite w.write
    let gone := (d.flash.writes.filter (fun x => isRootWrite x.write == root)).map (·.id)
    let f := { d.flash with writes := d.flash.writes.filter (fun x => isRootWrite x.write != root)
                            rootsDown := d.flash.rootsDown || root, ceilingsDown := d.flash.ceilingsDown || !root }
    let d := faultKind 5 { d with flash := f, gaffer := { d.gaffer with journalUnavailable := true } }
    endWaiting 0x050A (fun g => gone.contains g) (endWaiting 0x0509 (fun g => g = w.id) d)

end Sys2Proof.Machine
end

