-- ==== Sys2Proof/Machine/Arbiter.lean ====
section
/-! DEFINITION. The commands of the arbiters (05) and the credit window (05 R180, R192; 19 R630). -/

namespace Sys2Proof.Machine

/-! ### The window boundary -/

/-- A tenant requested a kind during the window that ends: a request was pending in it (05 R180). -/
def requestedKind (d : Device) (kind t : Nat) : Bool :=
  (creditOf kind t d).requested || d.shares.pending.any (fun r => decide (r.kind = kind) && decide (r.tenant = t))
/-- Tenants that hold a counter of a kind, or request it now. -/
def creditTenants (d : Device) (kind : Nat) : List Nat :=
  (List.range 256).filter (fun t => (tabGet (creditKey kind t) d.shares.credits).isSome || requestedKind d kind t)
/-- The counter of a tenant after the boundary: zeroed, refilled, clamped (05 R180 steps 2 to 4). -/
def boundaryCounter (requested : Bool) (refill cap : Nat) (v : Int) : Int :=
  if requested then max (-(cap : Int)) (min (cap : Int) (v + (refill : Int))) else 0
/-- The boundary for one kind. -/
def boundaryKind (kind : Nat) (d : Device) : Device :=
  let cap := capacityOf kind d
  let ts := creditTenants d kind
  let w := ((ts.filter (requestedKind d kind)).map (fun t => weightOf t kind d)).sum
  let step := fun (t : Nat) (e : Device) =>
    let req := requestedKind d kind t
    let refill := if req && decide (w ≠ 0) then weightOf t kind d * cap / w else 0
    let c := creditOf kind t d
    let v := boundaryCounter req refill cap c.counter
    setCredit kind t { creditTo d.time.ticks v c with
      requested := d.shares.pending.any (fun r => decide (r.kind = kind) && decide (r.tenant = t))
      refill := BitVec.ofNat 16 refill, atBoundary := v } e
  let d' := doEach ts step d
  { d' with shares := { d'.shares with capacity := tabSet kind cap d'.shares.capacity } }
/-- A tenant's bucket gains its rate, up to its burst (05 R192). -/
def refillBucket (t : Tenant) : Tenant := if t.rate = 0 then t else { t with bucket := min (100000 * t.burst) (t.bucket + t.rate) }
/-- Everything that a window boundary does. -/
def windowBoundary (d : Device) : Device :=
  let d := doEach [0, 1, 2, 3, 4, 5] boundaryKind d
  let d := { d with
    time := { d.time with window := d.time.window + 1, windowsDone := d.time.windowsDone + 1 }
    gaffer := { d.gaffer with tenants := tabMap (fun _ => refillBucket) d.gaffer.tenants } }
  refillEvents d
/-- CREDIT_WINDOW_BOUNDARY: 320 ticks after the one before (05 R180). -/
def execCreditWindowBoundary (s : State) : Host.Outcome State Fault Refusal :=
  runDev (fun d => doIf (outOfReset d && decide (320 * (d.time.windowsDone + 1) ≤ d.time.ticks)) windowBoundary d) s

/-! ### Requests (05 R183, R186 to R188) -/

/-- The engine parked on a core for its tenant (05 R187). -/
def parkedFor (c : CoreRef) (kind t : Nat) (d : Device) : Option Grant :=
  d.shares.grants.find? (fun g => g.parked && decide (g.kind = kind) && decide (g.core = c) && decide (g.tenant = t) &&
    (unitsOf c.bench kind d).contains g.unit)
/-- A request by another core or for another tenant ends the parking of the kind in the bench (05 R188). -/
def endParking (c : CoreRef) (kind t : Nat) (d : Device) : Device :=
  dropParked (fun g => decide (g.kind = kind) && decide (g.bench = c.bench) && (decide (g.core ≠ c) || decide (g.tenant ≠ t))) d
/-- The parked engine is taken again, without arbitration, and shows its operation: a new segment begins. -/
def reusePark (g : Grant) (job : Nat) (d : Device) : Device :=
  doWith (kindOf g.kind) (fun k => startEngine g.bench k g.unit job)
  { d with shares := { d.shares with grants := d.shares.grants.filter (fun x => x ≠ g) ++
      [{ g with parked := false, job := job, since := d.time.ticks, moved := 0 }] } }
/-- A request is registered, and units are granted. Taking the parked engine again counts as a request of the kind in the window
(DESIGN CHOICE: 05 R180 and R187 do not say; log entry 31). -/
def request (c : CoreRef) (kind amount : Nat) (j : Job) (d : Device) : Device :=
  let cr := creditOf kind j.tenant d
  let d := setCredit kind j.tenant { cr with requested := true } d
  let alone := (pendingAt c.bench kind d).isEmpty
  match if alone then parkedFor c kind j.tenant d else none with
  | some g => reusePark g j.id d
  | none =>
    let r : ArbRequest := { core := c, tenant := j.tenant, kind, arrival := d.shares.arrivals, tick := d.time.ticks, amount, job := j.id }
    let d := endParking c kind j.tenant d
    arbitrate c.bench kind
      { d with shares := { d.shares with pending := d.shares.pending ++ [r], arrivals := d.shares.arrivals + 1 } }
/-- ARBITER_REQUEST (05 R183, R186, R187): by a core for the job it runs. Without device service a request for a draw ends the job (09
R326). -/
def execArbiterRequest (core : CoreRef) (kind amount : Nat) (s : State) : Host.Outcome State Fault Refusal :=
  runDev (fun d => match jobOn core d with
    | none => d
    | some j =>
      if kind = 4 ∧ !d.gather.service then dispatchAll (squashJob j.id 0x0508 d)
      else doIf (decide (kind < 6)) (request (lead core d) kind amount j) d) s

/-! ### Releases (05 R181, R187; 09 R316, R317) -/

def grantOf (c : CoreRef) (kind unit : Nat) (d : Device) : Option Grant :=
  d.shares.grants.find? (fun g => !g.parked && decide (g.kind = kind) && decide (g.core = c) && decide (g.unit = unit))
/-- A bench instance that received a seed it was waiting for: a stopped output reseeds and resumes, a
prediction-resistant generate may start. -/
def seedArrived (b : Nat) (d : Device) : Device :=
  let i := instOf b d.gather
  if i.seed.isNone then d
  else if i.stopped then
    arbitrate b 4 { d with gather := setInst b { instOf b (reseedBench d.time.ticks b d.gather) with waiting := i.waiting } (reseedBench d.time.ticks b d.gather) }
  else if i.waiting then arbitrate b 4 { d with gather := setInst b { i with waiting := false } d.gather }
  else d
/-- An instance that has just been instantiated serves the requests of its bench. -/
def instanceServes (before : Gather) (b : Nat) (d : Device) : Device :=
  if (instOf b before).due && (instOf b d.gather).ready then arbitrate b 4 d else d
/-- Seeds are formed and served while the pool can; Gaffer resumes dispatch once every instance has its seed (09 R328). -/
def servePool (d : Device) : Device :=
  let e := doEach (List.range 8) (instanceServes d.gather) (doEach (List.range 8) seedArrived { d with gather := serveSeeds d })
  if instancesReady d.gather then e else dispatchAll e
/-- A grant with the units that were moved under it. -/
def setMoved (g : Grant) (n : Nat) (d : Device) : Device :=
  { d with shares := { d.shares with grants := d.shares.grants.map (fun x => if x = g then { g with moved := n } else x) } }
/-- The blocks of a kind-4 grant come from the bench's generator, and are held for the job: the units moved, and the state after. The
hub moves the words that the operand names; a port has moved the slots that it fetched (05 R181, 09 R316). -/
def moveUnits (g : Grant) (units : Nat) (d : Device) : Grant × Device :=
  if g.kind = 4 then
    let p := generate d.time.ticks g.bench units d.gather
    let n := p.1.length / 16
    ({ g with moved := n }, setMoved g n (modJob g.job (fun j => { j with drawn := j.drawn ++ p.1, drawnBlocks := j.drawnBlocks + n })
      { d with gather := p.2, draws := d.draws + p.1.length }))
  else if g.kind = 5 then ({ g with moved := units }, setMoved g units d)
  else (g, d)
/-- Release: charged, parked, a due test begun, the unit granted again; a seed buffer that a draw has emptied asks the pool (09 R317). -/
def releaseGrant (g : Grant) (units : Nat) (d : Device) : Device :=
  let p := moveUnits g units d
  let d := arbitrate g.bench g.kind (endGrant p.1 true p.2)
  if g.kind = 4 then servePool d else d
/-- GRANT_RELEASE (05 R181). -/
def execGrantRelease (core : CoreRef) (kind unit units : Nat) (s : State) : Host.Outcome State Fault Refusal :=
  runDev (fun d => doWith (grantOf (lead core d) kind unit d) (fun g => releaseGrant g units) d) s

/-! ### Over-hold (05 R189, R190) -/

/-- The generator of a bench runs its test of instantiate, generate and reseed, and is instantiated again from the pool before it
serves; until then its kind-4 requests stay pending (05 R190; 09 R315, R318). -/
def reinstantiateBench (b : Nat) (d : Device) : Device :=
  let d := { d with gather := setInst b { due := drbgTest drbgAnswer } d.gather }
  { d with gather := serveSeeds d }
/-- What becomes of a unit that is withdrawn. -/
def withdrawUnit (g : Grant) (d : Device) : Device :=
  match kindOf g.kind with
  | some k => beginTest g.bench k g.unit 2 d
  | none => if g.kind = 4 then reinstantiateBench g.bench d else d
/-- A grant is cut off. -/
def cutOff (g : Grant) (units : Nat) (d : Device) : Device :=
  let held := d.time.ticks - g.since
  let p := moveUnits g units d
  let d := endGrant p.1 false p.2
  let d := { d with shares := { d.shares with
    overFlag := true, overKind := BitVec.ofNat 3 g.kind, overTenant := BitVec.ofNat 8 g.tenant, overCount := satInc d.shares.overCount } }
  let unit : Byte := match kindOf g.kind with | some k => engineUnit k g.unit | none => 0xFF
  let d := emitVia (.bench g.bench) .warning 0x0301 (.bench g.bench) unit (some g.tenant) (leBytes 1 g.kind ++ leBytes 4 held) d
  arbitrate g.bench g.kind (dispatchAll (squashJob g.job 0x0505 (withdrawUnit g d)))
/-- OVER_HOLD_CUTOFF: a grant held for longer than the limit (05 R189). -/
def execOverHoldCutoff (core : CoreRef) (kind unit units : Nat) (s : State) : Host.Outcome State Fault Refusal :=
  runDev (fun d => doWith (grantOf (lead core d) kind unit d) (fun g =>
    doIf (decide (usTicks * d.shares.limitUs.toNat < d.time.ticks - g.since)) (cutOff g units)) d) s

end Sys2Proof.Machine
end

