-- ==== Sys2Proof/Machine/ConfigImage.lean ====
section
/-! DEFINITION. The flash's signed contents (15): bootstrap header, configuration copies, firmware images, and what a
selected configuration sets; the custody record (16 R564) and the certificate store (18 R619). -/

namespace Sys2Proof.Machine

/-- A field of the sampled straps (14 R497, R520). -/
def strapBits (d : Device) (lo w : Nat) : Nat := (d.pins.strapSampled.toNat / 2 ^ lo) % 2 ^ w

/-! ### Bootstrap header (15 R523, R524) -/

/-- The place of the read command of the mode that STRAP_NVM selects: octal, quad, single. -/
def commandAt (d : Device) : Nat := 12 + 2 * min (strapBits d 9 2) 2

/-- The offset of the first failing field of a bootstrap header, if any. -/
def bootFault (b : Bytes) : Option Nat :=
  if fit 4 b ≠ label "KYBH" then some 0
  else if num b 4 2 ≠ 1 then some 4
  else if num b 4092 4 ≠ (crc32 (fit 4092 b)).toNat then some 4092
  else if !zeros b 6 2 then some 6
  else if num b 8 4 < 128 then some 8
  else if num b 18 2 < 25 ∨ 200 < num b 18 2 then some 18
  else if num b 20 4 ≠ 4096 ∧ num b 20 4 ≠ 65536 then some 20
  else if num b 24 4 ≠ 256 ∧ num b 24 4 ≠ 512 then some 24
  else if !zeros b 28 4064 then some 28
  else none
/-- Read the header: its values, or the defaults and a Warning. -/
def readBootstrap (d : Device) : Device :=
  let b := d.flash.bootstrap
  match bootFault b with
  | some off => emit .warning 0x0108 .nvm (leBytes 2 off)
      { d with flash := { d.flash with sizeMib := 128, readCommand := none, maxMhz := 50, sectorSize := 4096, pageSize := 256 } }
  | none => { d with flash := { d.flash with sizeMib := num b 8 4, readCommand := some (BitVec.ofNat 16 (num b (commandAt d) 2))
                                             maxMhz := num b 18 2, sectorSize := num b 20 4
                                             pageSize := num b 24 4 } }

/-! ### Configuration copies (15 R525 to R531) -/

def signedLen (b : Bytes) : Nat := num b 24 4
def recordCount (b : Bytes) : Nat := num b 28 4
def copySequence (b : Bytes) : Nat := num b 8 8
def copyEpoch (b : Bytes) : Nat := copySequence b / 2 ^ 48
def copyLow (b : Bytes) : Nat := copySequence b % 2 ^ 48
def signedBytes (b : Bytes) : Bytes := b.take (signedLen b)
def signatureBlock (b : Bytes) : Bytes := field b (signedLen b) 7412
/-- The authority fingerprint of a block, and the measurement of a copy (15 R527, R529). -/
def authorityOf (b : Bytes) : Bytes := (sha384 (field (signatureBlock b) 0 2689)).take 16
def measurementOf (b : Bytes) : Bytes := sha384 (signedBytes b)
/-- A copy with the verdicts of its two signatures, taken over its signed bytes (15 R527). -/
def copyOf (b : Bytes) : FlashCopy :=
  let s := signatureBlock b
  { bytes := b,
    ecOk := ecdsaVerify 0x02 (field s 1 96) (sha384 (signedBytes b)) (field s 2689 96),
    mlOk := mlDsaVerify {} 87 (field s 97 2592) 0x01 (label "KYCF") (signedBytes b) (field s 2785 4627) }

/-- The header of a copy is well formed (15 R525, R526). -/
def copyHeaderOk (b : Bytes) : Bool :=
  fit 4 b == label "KYCF" && decide (num b 4 2 = 1) && decide (signedLen b % 4 = 0) && decide (64 ≤ signedLen b) &&
  decide (signedLen b + 7412 ≤ 262144) && decide (signedLen b + 7412 ≤ b.length) && zeros b 32 32 &&
  decide ((byteAt b 7).toNat < 8)

/-- The body length a record type requires; none for an unknown type (15 R530, R531). -/
def bodyLen (type : Nat) (body : Bytes) : Option Nat :=
  match type with
  | 0x10 => some 16 | 0x20 => some 24 | 0x21 => some 8 | 0x22 => some 8
  | 0x23 => some (4 + 8 * (byteAt body 1).toNat)
  | 0x24 => some 2032 | 0x30 => some 12 | 0x40 => some 32 | 0x41 => some 16 | 0x50 => some 4
  | _ => none
/-- Parse records in order; none when a type is unknown, a length is wrong, the padding is not zero, the types fall, or
the bytes do not end with the last record. -/
def parseGo : Nat → Nat → Bytes → Option (List (Nat × Bytes))
  | 0, _, bs => if bs.isEmpty then some [] else none
  | n + 1, last, bs =>
    let type := num bs 0 2
    let len := num bs 2 2
    let whole := 4 + 4 * ceilDiv len 4
    let body := field bs 4 len
    if bs.length < whole ∨ type < last ∨ bodyLen type body ≠ some len ∨ !zeros bs (4 + len) (whole - 4 - len) then none
    else (parseGo n type (bs.drop whole)).map (fun rs => (type, body) :: rs)
def single (type : Nat) (rs : List (Nat × Bytes)) : Bool := decide ((rs.filter (fun r => r.1 = type)).length ≤ 1)
/-- The records of a copy, when they are well formed (15 R530). -/
def recordsOf (b : Bytes) : Option (List (Nat × Bytes)) :=
  match parseGo (recordCount b) 0 ((signedBytes b).drop 64) with
  | some rs => if single 0x10 rs && single 0x41 rs then some rs else none
  | none => none

/-- The instance that a record names: two records of one kind may not name the same one (15 R533). -/
def instanceOf (type : Nat) (body : Bytes) : Nat :=
  match type with
  | 0x24 => 256 * (byteAt body 1).toNat + (byteAt body 0).toNat
  | 0x30 => 65536 * (byteAt body 0).toNat + num body 2 2
  | 0x50 => num body 0 2
  | 0x10 => 0 | 0x41 => 0
  | _ => (byteAt body 0).toNat
def noTwins : List (Nat × Nat) → Bool
  | [] => true
  | x :: xs => !xs.contains x && noTwins xs

/-- A decimalization table: 16 entries of 0 to 9, each digit once or twice (10 R358, its first two conditions). -/
def tableOk (t : Bytes) : Bool :=
  let ns := nibbles (fit 8 t)
  ns.all (fun n => decide (n ≤ 9)) &&
  (List.range 10).all (fun v => decide (1 ≤ (ns.filter (fun n => n = v)).length) && decide ((ns.filter (fun n => n = v)).length ≤ 2))

def within (lo hi n : Nat) : Bool := decide (lo ≤ n) && decide (n ≤ hi)
/-- Every field of a record lies in its range; a reserved field's only value is zero (15 R533, 00 R8; DEDUCED). -/
def recordOk (izvi_ : Bool) (sources : Nat) (r : Nat × Bytes) : Bool :=
  let b := r.2
  let byte := fun n => (byteAt b n).toNat
  let tenantOk := !izvi_ || decide (byte 0 ≤ 15)
  match r.1 with
  | 0x10 => decide (byte 0 ≤ 168) && within 2 16 (byte 1) && decide (byte 1 ≤ sources) && within 2 200 (byte 2) &&
      decide (byte 3 < 8) && zeros b 4 12
  | 0x20 => tenantOk && zeros b 1 1 && (num b 2 2 == 0 || within 64 16384 (num b 2 2)) &&
      (num b 4 4 == 0 || within 20 10000000 (num b 4 4)) && zeros b 15 1 && decide (byte 20 ≤ 128) && zeros b 21 3 &&
      (num b 12 3 == 0 || decide (num b 16 2 ≠ 0))
  | 0x21 => tenantOk && (List.range 6).all (fun k => decide (1 ≤ byte (k + 1))) && zeros b 7 1
  | 0x22 => tenantOk && (List.range 5).all (fun k => decide (byte (k + 1) < 32)) && zeros b 6 2
  | 0x23 => tenantOk && within 1 16 (byte 1) && zeros b 2 2 &&
      (List.range (byte 1)).all (fun k => tableOk (field b (4 + 8 * k) 8))
  | 0x24 => tenantOk && decide (byte 1 ≤ 3) && zeros b 2 2 && zeros b 77 3 && byte 12 == 4 &&
      field b 4 8 == (sha256 (field b 80 1952)).take 8
  | 0x30 => tenantOk && zeros b 1 1 && decide (1 ≤ num b 2 2) && decide (byte 4 < 16) && decide (byte 5 < 16) &&
      decide (byte 6 < 8) && within 4 12 (byte 7) && decide (byte 8 < 4) && zeros b 9 3
  | 0x40 => decide (byte 0 ≤ 1) && decide (byte 1 < 8) && !(byteAt b 3).getLsbD 4 && zeros b 10 2
  | 0x41 => within 1 65535 (num b 0 2) && within 1400 8952 (num b 2 2) && within 10 86400 (num b 4 4) &&
      within 60 86400 (num b 8 4) && zeros b 12 4
  | 0x50 => decide (1 ≤ byte 2) && decide (1 ≤ byte 3)
  | _ => false
/-- The greatest sum of quotas of a part (03 R86) and of the Izvi personality (21 R669). -/
def quotaSum (d : Device) : Nat := if izvi d then 65280 else 2 ^ slotBits d.fuses.part - 256
/-- The records are consistent (15 R533, 21 R669). -/
def consistent (d : Device) (rs : List (Nat × Bytes)) : Bool :=
  let tenants := rs.filter (fun r => r.1 = 0x20)
  rs.all (recordOk (izvi d) (2 * partBenches d.fuses.part)) &&
  decide ((tenants.map (fun r => num r.2 8 4)).sum ≤ quotaSum d) &&
  decide ((tenants.map (fun r => (byteAt r.2 20).toNat)).sum ≤ 128) &&
  noTwins (rs.map (fun r => (r.1, instanceOf r.1 r.2)))

/-! ### Examination and selection (15 R534 to R536) -/

/-- A copy serves this part, personality and target (15 R526). -/
def servesPart (d : Device) (b : Bytes) : Bool :=
  let p := (byteAt b 6).toNat
  (p == 0xFF || p == (if izvi d then 1 else 0)) && (byteAt b 7).getLsbD (partBit d.fuses.part) &&
  (zeros b 16 8 || field b 16 8 == d.custody.deviceFp)
/-- Examine a copy: 0 when it is valid, else the cause of the first failure. `floorTest` stands for the test of the
low part (15 R534, R539). -/
def examine (d : Device) (floorTest : Bytes → Bool) (c : FlashCopy) : Nat :=
  let b := c.bytes
  let e := copyEpoch b
  let epoch := fuseVal .otpEpoch d
  if !copyHeaderOk b then 3
  else if authorityOf b ≠ (tabGetD (ownership d) [] d.fuses.ownerFp) then 4
  else if !c.ecOk || !c.mlOk then 5
  else if !servesPart d b then 6
  else if e < epoch ∨ 63 < e then 7
  else if !floorTest b then 8
  else match recordsOf b with
    | none => 9
    | some rs => if consistent d rs then 0 else 10
/-- The rollback test of a start. -/
def floorPass (d : Device) (b : Bytes) : Bool :=
  !(copyEpoch b == fuseVal .otpEpoch d && d.battery.floorValid && decide (copyLow b < d.battery.floor.toNat))
def examineAtStart (d : Device) (c : Option FlashCopy) : Nat :=
  match c with
  | none => 3
  | some c => examine d (floorPass d) c

/-- The selection: 0 none, 1 Morning, 2 Evening, with the result fields of CUS_CFG (15 R535, R549). -/
def selectCopy (d : Device) : Nat × Nat × Nat :=
  let m := examineAtStart d d.flash.morning
  let e := examineAtStart d d.flash.evening
  match d.flash.morning, d.flash.evening with
  | some cm, some ce =>
    if m = 0 ∧ e = 0 then
      if copySequence cm.bytes < copySequence ce.bytes then (2, 2, 1)
      else if copySequence ce.bytes < copySequence cm.bytes then (1, 1, 2)
      else if measurementOf cm.bytes = measurementOf ce.bytes then (1, 1, 2)
      else (0, 11, 11)
    else if m = 0 then (1, 1, e) else if e = 0 then (2, m, 1) else (0, m, e)
  | some _, none => if m = 0 then (1, 1, e) else (0, m, e)
  | none, some _ => if e = 0 then (2, m, 1) else (0, m, e)
  | none, none => (0, m, e)
/-- States whose phase 4 examines no copy (15 R534). -/
def examines (s : Lifecycle) : Bool := s == .owned || s == .operational || s == .locked
/-- The bytes and records of the copy in force: none in states without a copy. -/
def copyInForce (f : Flash) : Option FlashCopy :=
  if f.selected = 1 then f.morning else if f.selected = 2 then f.evening else none
def recordsInForce (d : Device) : List (Nat × Bytes) :=
  match copyInForce d.flash with
  | some c => (recordsOf c.bytes).getD []
  | none => []

/-- Examine and select in phase 4, set the registers of 15 R549, and move the epoch and floor (15 R535, R536). The
last value says that start must stop with cause 0x04. -/
def selectConfiguration (d : Device) : Device × Bool :=
  if !examines (state d) then ({ d with flash := { d.flash with selected := 0 } }, false)
  else
    let r := selectCopy d
    let pick := if r.1 = 1 then d.flash.morning else if r.1 = 2 then d.flash.evening else none
    let d := { d with flash := { d.flash with
        selected := BitVec.ofNat 2 r.1, morningResult := BitVec.ofNat 4 r.2.1, eveningResult := BitVec.ofNat 4 r.2.2 } }
    match pick with
    | none => (d, true)
    | some c =>
      let d := startEntry 0x04 (if r.1 = 1 then 0x20 else 0x21) 0xFF 0 d
      let d := { d with flash := { d.flash with sequence := BitVec.ofNat 64 (copySequence c.bytes)
                                                measurement := measurementOf c.bytes } }
      let d := burnTo .otpEpoch (copyEpoch c.bytes) d
      ({ d with battery := { d.battery with floor := BitVec.ofNat 48 (copyLow c.bytes), floorValid := true } }, false)

/-! ### What a configuration sets (15 R531, R532) -/

def policyOf (b : Bytes) : Policy :=
  { formatsIn := (byteAt b 4).setWidth 4, formatsOut := (byteAt b 5).setWidth 4
    allowDowngrade := (byteAt b 6).getLsbD 0, allowUnbind := (byteAt b 6).getLsbD 1, allowGenerate := (byteAt b 6).getLsbD 2
    minPinLen := (byteAt b 7).toNat, arpcMethods := (byteAt b 8).setWidth 2 }
/-- One record's effect on the tenant it names. -/
def tenantRecord (type : Nat) (b : Bytes) (t : Tenant) : Tenant :=
  match type with
  | 0x20 => { t with
      readyCap := if num b 2 2 = 0 then 4096 else num b 2 2
      deadlineUs := if num b 4 4 = 0 then 1000 else num b 4 4
      quota := num b 8 4, rate := num b 12 3, burst := num b 16 2, sessionLimit := num b 18 2
      cacheEntries := (byteAt b 20).toNat }
  | 0x21 => { t with weights := (List.range 6).map (fun k => (k, (byteAt b (k + 1)).toNat)) }
  | 0x22 => { t with masks := (List.range 5).map (fun k => (k, (byteAt b (k + 1)).setWidth 5)) }
  | 0x23 => { t with decTables := (List.range (byteAt b 1).toNat).map (fun k => field b (4 + 8 * k) 8) }
  | 0x24 =>
    let c : Client := { fingerprint := field b 4 8, ecKey := field b 13 64, mlKey := field b 80 1952 }
    { t with clients := tabSet (byteAt b 1).toNat c t.clients }
  | 0x30 => { t with policies := tabSet (num b 2 2) (policyOf b) t.policies }
  | _ => t
/-- Phase 8: the tenants' values, with each rate bucket full at its burst (14 R506, 05 R192). -/
def loadTenants (rs : List (Nat × Bytes)) : Tab Tenant :=
  let ts := rs.foldl (fun (ts : Tab Tenant) r =>
    if 0x20 ≤ r.1 ∧ r.1 ≤ 0x30 then
      let t := (byteAt r.2 0).toNat
      tabSet t (tenantRecord r.1 r.2 (tabGetD t {} ts)) ts
    else ts) []
  tabMap (fun _ t => { t with bucket := 100000 * t.burst }) ts
/-- The device parameters, or their defaults: remask_interval, min_sources, overhold_us, refusal_events (15 R532). -/
def deviceParams (rs : List (Nat × Bytes)) : Bytes :=
  match rs.find? (fun r => r.1 = 0x10) with
  | some r => r.2
  | none => [24, 2, 20, 0]
/-- End of phase 4: the event rates of the selected copy, each bucket full at its burst (19 R630). -/
def loadRates (rs : List (Nat × Bytes)) (e : Events) : Events :=
  rs.foldl (fun e r =>
    if r.1 = 0x50 then
      let code := num r.2 0 2
      let k := tabGetD code {} e.buckets
      let burst := (byteAt r.2 3).toNat
      { e with buckets := tabSet code { k with rate := (byteAt r.2 2).toNat, burst, level := 100000 * burst } e.buckets }
    else e) e
/-- Phase 9: the addresses of a path and the HTL parameters. -/
def pathRecord (isB : Bool) (rs : List (Nat × Bytes)) : PathAddr :=
  match rs.find? (fun r => decide (r.1 = 0x40) && byteAt r.2 0 == (if isB then 1 else 0)) with
  | some r =>
    let b := r.2
    { configured := true, tagging := (byteAt b 1).getLsbD 0, vid := BitVec.ofNat 12 (num b 2 2)
      pcp := BitVec.ofNat 3 (num b 2 2 / 0x2000), mac := BitVec.ofNat 48 (beNat (field b 4 6))
      ipv4 := if (byteAt b 1).getLsbD 1 then some (BitVec.ofNat 32 (beNat (field b 12 4))) else none
      ipv6 := if (byteAt b 1).getLsbD 2 then some (BitVec.ofNat 128 (beNat (field b 16 16))) else none }
  | none => {}
def loadHtl (rs : List (Nat × Bytes)) (n : Net) : Net :=
  match rs.find? (fun r => r.1 = 0x41) with
  | some r => { n with htlPort := BitVec.ofNat 16 (num r.2 0 2), maxFrame := num r.2 2 2, idleS := num r.2 4 4
                       rekeyS := num r.2 8 4 }
  | none => { n with htlPort := 47011, maxFrame := 1452, idleS := 600, rekeyS := 3600 }

/-! ### Firmware images (15 R545 to R547) -/

def imageVersion (b : Bytes) : Nat := num b 8 4
def imageSvn (b : Bytes) : Nat := (byteAt b 12).toNat
def sectionEntry (b : Bytes) (k : Nat) : Bytes := field b (64 + 64 * k) 64
/-- The header and section table are well formed; the image holds its header and its signature block. -/
def imageHeaderOk (b : Bytes) : Bool :=
  let n := num b 20 2
  fit 4 b == label "KYFW" && decide (num b 4 2 = 1) && decide ((byteAt b 6).toNat < 4) && decide ((byteAt b 7).toNat < 8) &&
  decide (imageSvn b ≤ 63) && zeros b 13 3 && within 5811 16777216 (num b 16 4) &&
  decide (num b 16 4 ≤ b.length) && within 1 16 n && zeros b 22 42 &&
  (List.range 16).all (fun k =>
    let s := sectionEntry b k
    if k < n then within 1 5 (byteAt s 0).toNat && zeros s 1 3 && zeros s 12 4 &&
      (byteAt s 0 != 0x01 || decide (num s 8 4 ≤ 1048576)) &&
      decide (1088 ≤ num s 4 4) && decide (num s 4 4 + num s 8 4 + 4723 ≤ num b 16 4)
    else zeros s 0 64)
/-- The image serves the strapped personality and the part number (15 R546, 21 R668). -/
def imageServes (d : Device) (b : Bytes) : Bool :=
  (byteAt b 6).getLsbD (if izvi d then 1 else 0) && (byteAt b 7).getLsbD (partBit d.fuses.part) &&
  (!izvi d || (List.range (num b 20 2)).any (fun k => byteAt (sectionEntry b k) 0 == 0x05))
def imageValid (d : Device) (i : FlashImage) : Bool :=
  imageHeaderOk i.bytes && i.signaturesOk && imageServes d i.bytes && decide (fuseVal .svnFloor d ≤ imageSvn i.bytes) &&
  i.sectionsOk
/-- An image given as bytes, with its verdicts. -/
def imageOf (b : Bytes) : FlashImage :=
  { bytes := b,
    signaturesOk := Config.firmwareSignature (b.take 1088) (field b (num b 16 4 - 4723) 4723),
    sectionsOk := (List.range (num b 20 2)).all (fun k =>
      let s := sectionEntry b k
      sha384 (field b (num s 4 4) (num s 8 4)) == field s 16 48) }
/-- The slot that phase 5 chooses: 1, 2, or none for cause 0x05 (15 R547). -/
def chooseSlot (d : Device) : Nat :=
  let ok : Option FlashImage → Bool := fun i => match i with
    | some i => imageValid d i
    | none => false
  let ver : Option FlashImage → Nat := fun i => match i with
    | some i => imageVersion i.bytes
    | none => 0
  if ver d.flash.slot1 < ver d.flash.slot2 then
    if ok d.flash.slot2 then 2 else if ok d.flash.slot1 then 1 else 0
  else if ok d.flash.slot1 then 1 else if ok d.flash.slot2 then 2 else 0

/-! ### Custody record (16 R564, R565) -/

def cardBytes (c : Option Card) : Bytes :=
  match c with
  | some c => bvBytes 8 c.serial ++ fit 65 c.key ++ [0x01, 0, 0, 0, 0, 0, 0]
  | none => List.replicate 80 0
/-- Bytes 0 to 671 of a custody record. -/
def custodyBytes (r : CustodyRecord) : Bytes :=
  label "KYCR" ++ leBytes 2 1 ++ leBytes 1 r.ownership ++ leBytes 1 r.cards.length ++ leBytes 4 r.generation.toNat ++
  leBytes 1 r.mUnlock ++ leBytes 1 r.mRoot ++ leBytes 1 r.mDebug ++ leBytes 1 r.mAdmin ++ fit 16 r.authority ++
  (List.range 8).flatMap (fun k => cardBytes (tabGet k r.cards))
def custodyTag (d : Device) (r : CustodyRecord) : BitVec 128 := aesCmac (recordKey d r.ownership) (custodyBytes r)
/-- A copy of the record verifies for the current ownership. -/
def recordVerifies (d : Device) (c : Option (CustodyRecord × BitVec 128)) : Option CustodyRecord :=
  match c with
  | some (r, tag) => if r.ownership = ownership d ∧ tag = custodyTag d r then some r else none
  | none => none
/-- The valid record of phase 4, and whether the battery's generation could not be used (16 R565). -/
def validRecord (d : Device) : Option CustodyRecord :=
  let a := recordVerifies d d.flash.record0
  let b := recordVerifies d d.flash.record1
  if d.battery.lost then
    match a, b with
    | some x, some y => if x.generation < y.generation then some y else some x
    | some x, none => some x
    | none, y => y
  else
    match a, b with
    | some x, some y => if x.generation = d.battery.recordGen then some x
                        else if y.generation = d.battery.recordGen then some y else none
    | some x, none => if x.generation = d.battery.recordGen then some x else none
    | none, some y => if y.generation = d.battery.recordGen then some y else none
    | none, none => none
/-- Write a new record to the copy that does not hold the valid one; the battery holds its generation (16 R565). -/
def writeRecord (r : CustodyRecord) (d : Device) : Device :=
  let r := { r with generation := d.custody.record.generation + 1 }
  let first := match recordVerifies d d.flash.record0 with
    | some x => !(d.custody.recordValid && x.generation == d.custody.record.generation)
    | none => true
  let entry := some (r, custodyTag d r)
  { d with
    custody := { d.custody with record := r, recordValid := true }
    battery := { d.battery with recordGen := r.generation }
    flash := { d.flash with record0 := if first then entry else d.flash.record0
                            record1 := if first then d.flash.record1 else entry } }

/-! ### Certificate store (18 R619, R620) -/

/-- Reads the head of a CBOR data item of a major type: its argument and what follows it (18 R619). -/
def readHead (major : Nat) (bs : Bytes) : Option (Nat × Bytes) :=
  let h := (byteAt bs 0).toNat
  let arg := fun n => some (beNat (field bs 1 n), bs.drop (n + 1))
  if bs.isEmpty || h / 32 != major then none
  else match h % 32 with
    | 24 => arg 1
    | 25 => arg 2
    | 26 => arg 4
    | 27 => arg 8
    | k => if k < 24 then some (k, bs.drop 1) else none
/-- Reads a head whose argument is a given number: a key, a tag, or the size of an array or a map. -/
def readExactly (major n : Nat) (bs : Bytes) : Option Bytes :=
  (readHead major bs).bind (fun p => if p.1 = n then some p.2 else none)
/-- Reads a byte string. -/
def readString (bs : Bytes) : Option (Bytes × Bytes) :=
  (readHead 2 bs).bind (fun p => if p.1 ≤ p.2.length then some (p.2.take p.1, p.2.drop p.1) else none)
/-- The payload of the first certificate of a chain: an array of two, each a tagged COSE_Sign of a protected header, an empty
unprotected one, the payload and the signatures (18 R614, R619). -/
def devicePayload (chain : Bytes) : Option Bytes :=
  (((((readExactly 4 2 chain).bind (readExactly 6 98)).bind (readExactly 4 4)).bind readString).bind
    (fun p => (readExactly 5 0 p.2).bind readString)).map Prod.fst
/-- The subject's EC and ML-DSA-87 public keys in a certificate's payload: keys 2 and 3 of its map of five (18 R619). -/
def subjectKeys (payload : Bytes) : Option (Bytes × Bytes) :=
  ((((readExactly 5 5 payload).bind (readExactly 0 1)).bind readString).bind (fun p => (readExactly 0 2 p.2).bind readString)).bind
    (fun ec => ((readExactly 0 3 ec.2).bind readString).map (fun ml => (ec.1, ml.1)))
/-- The check that fails in the certificate store: 1 header, 2 CRC, 3 subject keys (18 R620). -/
def certFault (d : Device) : Option Nat :=
  let b := d.flash.certStore
  let n := num b 8 4
  let chain := field b 16 n
  if fit 4 b ≠ label "KYCC" ∨ num b 4 2 ≠ 1 ∨ 65536 < n then some 1
  else if num b 12 4 ≠ (crc32 chain).toNat then some 2
  else if (devicePayload chain).bind subjectKeys ≠
      some (uncompressed (curvePublic 0x02 (devEc d) []), mlDsaPublic {} 87 (devSeed d)) then some 3
  else none
/-- Read the store: keep the chain, or none and a Warning. -/
def readChain (d : Device) : Device :=
  match certFault d with
  | none => { d with custody := { d.custody with chain := some (field d.flash.certStore 16 (num d.flash.certStore 8 4)) } }
  | some k => emitC .warning 0x0801 (leBytes 1 k) { d with custody := { d.custody with chain := none } }

end Sys2Proof.Machine
end

