-- ==== Sys2Proof/Machine/KeyStoreCmds.lean ====
section
/-! DEFINITION. The commands of the key store region (03 R99 to R112, R115 to R117; 01 R15). -/

namespace Sys2Proof.Machine

/-- The key store region works. -/
def keyStoreRuns (d : Device) : Bool := outOfReset d && d.keys.ready && !d.keys.halted

/-! ### Lookups (03 R99, R101 to R104, R110, R111) -/

def portKey (c : CoreRef) (port : Nat) : Nat := 2 * c.bench + port
def portOf (c : CoreRef) (port : Nat) (d : Device) : LookupPort := tabGetD (portKey c port) {} d.keys.ports
def setPort (c : CoreRef) (port : Nat) (p : LookupPort) (d : Device) : Device :=
  { d with keys := { d.keys with ports := tabSet (portKey c port) p d.keys.ports } }
/-- An integrity failure of a slot: fault map, KST_TAG_ERR, event 0x0201, and the job ends with 0x0504 (03 R99, R125). -/
def tagFailure (slot : Nat) (handle : BitVec 32) (job : Nat) (d : Device) : Device :=
  let k := d.keys
  let d := { d with keys := { k with
    faultMap := if k.faultMap.contains slot then k.faultMap else k.faultMap ++ [slot]
    tagErrCount := k.tagErrCount + 1
    tagErrOverflow := k.tagErrOverflow || k.tagErrCount == BitVec.allOnes 11
    tagErrSlot := BitVec.ofNat 20 slot } }
  dispatchAll (squashJob job 0x0504 (emit .alarm 0x0201 .keyStore (leBytes 4 slot ++ leBytes 4 handle.toNat) d))
/-- The first slot of a chain whose tag does not match. -/
def badSlot (head : Nat) (d : Device) : Option Nat :=
  (chainOf head d.keys).find? (fun i => !tagOk d.custody i (slotOf i d.keys))
/-- A slot of the chain stands in the fault map. -/
def mapped (head : Nat) (d : Device) : Bool := (chainOf head d.keys).any (fun i => d.keys.faultMap.contains i)
/-- The grant of a lookup port that a core holds (05 R175). -/
def portGrant (c : CoreRef) (port : Nat) (d : Device) : Option Grant :=
  d.shares.grants.find? (fun g => !g.parked && decide (g.kind = 3) && decide (g.core = c) && decide (g.unit = port))
/-- Slots fetched under the grant of a port (05 R181). -/
def chargeSlots (c : CoreRef) (port n : Nat) (d : Device) : Device :=
  { d with shares := { d.shares with grants := d.shares.grants.map (fun g =>
      if !g.parked && decide (g.kind = 3) && decide (g.bench = c.bench) && decide (g.unit = port) then { g with moved := g.moved + n } else g) } }
/-- The job of a lookup has its answer: the key of a handle, or its refusal; or the slot that Yunante itself reads. -/
def noteFetched (p : LookupPort) (d : Device) : Device :=
  modJob (p.job.getD 0) (fun j =>
    if p.inner then { j with fetchedInner := if j.fetchedInner.contains (handleSlot p.handle) then j.fetchedInner else j.fetchedInner ++ [handleSlot p.handle] }
    else { j with fetched := if j.fetched.contains p.handle then j.fetched else j.fetched ++ [p.handle] }) d
/-- The checks of R74 and R101 stand against a tenant's handle; a slot that Yunante itself names passes none of them. -/
def portCode (p : LookupPort) (d : Device) : Code := if p.inner then 0 else lookupCode p.tenant p.handle d
/-- A lookup proceeds on the records of its chain; a refused one has fetched the head alone. -/
def lookupNow (c : CoreRef) (port : Nat) (p : LookupPort) (d : Device) : Device :=
  let head := handleSlot p.handle
  let code := portCode p d
  let n := (chainOf head d.keys).length
  if code ≠ 0 then
    setPort c port { p with code, waiting := false, engineKey := [], fetching := none, verdictDue := false, fetchedSlots := p.fetchedSlots + 1 }
      (chargeSlots c port 1 (noteFetched p d))
  else if mapped head d then
    dispatchAll (squashJob (p.job.getD 0) 0x0504
      (setPort c port { p with code := 0x0504, waiting := false, engineKey := [], fetching := none, fetchedSlots := p.fetchedSlots + n }
        (chargeSlots c port n d)))
  else
    setPort c port { p with code := 0, waiting := false, fetching := some head, engineKey := chainKeys head d, verdictDue := true
                            fetchedSlots := p.fetchedSlots + n } (chargeSlots c port n (noteFetched p d))
/-- A lookup waits while the slot that it names is under conversion, whatever that slot is (03 R74, R110); one that passes its checks
waits for every slot of its chain; and while the sequencer waits to convert a slot of its key (03 R111). -/
def lookupBlocked (p : LookupPort) (d : Device) : Bool :=
  decide (d.keys.awaits = some (handleSlot p.handle)) ||
  (match d.keys.converting with
   | some i => decide (i = handleSlot p.handle) || (portCode p d == 0 && (chainOf (handleSlot p.handle) d.keys).contains i)
   | none => false)
/-- One lookup more (03 R126). -/
def countLookup (d : Device) : Device :=
  { d with keys := { d.keys with lookups :=
      { n := d.keys.lookups.n + 1, overflow := d.keys.lookups.overflow || d.keys.lookups.n == BitVec.allOnes 48 } } }
/-- A lookup as it arrives at a port. -/
def arriving (c : CoreRef) (port : Nat) (inner : Bool) (handle : BitVec 32) (j : Job) (d : Device) : LookupPort :=
  { tenant := j.tenant, handle, job := some j.id, inner, tick := d.time.ticks, fetchedSlots := (portOf c port d).fetchedSlots }
/-- A lookup request: counted; it proceeds, or waits at its port. -/
def lookupRequest (c : CoreRef) (port : Nat) (inner : Bool) (handle : BitVec 32) (j : Job) (d : Device) : Device :=
  let d := countLookup d
  let p := arriving c port inner handle j d
  if lookupBlocked p d then setPort c port { p with waiting := true } d else lookupNow c port p d
/-- KEY_LOOKUP (03 R102; 05 R175): at a port of the core's bench that the core holds and that has no fetch in progress. -/
def execKeyLookup (core : CoreRef) (port : Nat) (handle : BitVec 32) (s : State) : Host.Outcome State Fault Refusal :=
  runDev (fun d =>
    let c := lead core d
    let p := portOf c port d
    doWith (jobOn c d) (fun j => doIf (keyStoreRuns d && decide (port < 2) && (portGrant c port d).isSome && !p.waiting && !p.verdictDue)
      (lookupRequest c port false handle j)) d) s

/-! ### The array's banks (05 R175, R178, R181; 03 R104) -/

/-- The core for which a port looks up. -/
def portCore (p : Nat × LookupPort) (d : Device) : Nat :=
  match jobOf (p.2.job.getD 0) d with
  | some j => match j.place with
    | .core b c => 16 * b + c
    | _ => 8 * p.1
  | none => 8 * p.1
/-- Of two lookups that wait at one array bank the level-2 arbiter serves the one ranked first (05 R175, R181, R183): by credit and
tenant, those of one tenant by their arrival, then by the core. At different banks the lower port goes first (DESIGN CHOICE: they are
served at once; log entry 88). -/
def bankBefore (d : Device) (a b : Nat × LookupPort) : Bool :=
  let ca := rankOf a.2.tick (creditOf 3 a.2.tenant d)
  let cb := rankOf b.2.tick (creditOf 3 b.2.tenant d)
  let w := d.time.window.toNat % 256
  if bankOfSlot (handleSlot a.2.handle) d ≠ bankOfSlot (handleSlot b.2.handle) d then decide (a.1 < b.1)
  else if a.2.tenant = b.2.tenant then
    if a.2.tick ≠ b.2.tick then decide (a.2.tick < b.2.tick) else decide (portCore a d < portCore b d)
  else if ca ≠ cb then decide (cb < ca)
  else decide ((a.2.tenant + 256 - w) % 256 < (b.2.tenant + 256 - w) % 256)
/-- Lookups that wait and are no longer blocked proceed, each at its port. -/
def resumeGo : Nat → Device → Device
  | 0, d => d
  | fuel + 1, d =>
    match leastBy (bankBefore d) (d.keys.ports.filter (fun p => p.2.waiting && !lookupBlocked p.2 d)) with
    | none => d
    | some p => resumeGo fuel (lookupNow { bench := p.1 / 2, core := 0 } (p.1 % 2) p.2 d)
def resumeLookups (d : Device) : Device := resumeGo d.keys.ports.length d

/-! ### Re-masking (03 R105 to R112, R123) -/

/-- REMASK_INTERVAL_EXPIRY: remask_interval hours have passed; 0 disables them (03 R109). The interval counts from the start of the
latest re-mask, whatever began it, and first from the end of phase 7 (DESIGN CHOICE: 03 R109 does not say; log entry 89). -/
def execRemaskIntervalExpiry (s : State) : Host.Outcome State Fault Refusal :=
  runDev (fun d => doIf (keyStoreRuns d && decide (d.keys.remaskInterval ≠ 0) &&
    decide (d.keys.lastRemask + 3600 * secTicks * d.keys.remaskInterval.toNat ≤ d.time.ticks)) requestRemask d) s
/-- REMASK_NOW: a write of KST_CTRL.remask_now. -/
def execRemaskNow (s : State) : Host.Outcome State Fault Refusal :=
  runDev (fun d => doIf (keyStoreRuns d && started d) requestRemask d) s

/-- The head of the key to which a slot belongs; a free slot is its own. -/
def headOfSlot (i : Nat) (d : Device) : Nat := if (slotOf i d.keys).state == .free then i else (slotOf i d.keys).head
/-- A slot whose head stands in the fetch table is not converted now (03 R111). -/
def fetched (i : Nat) (d : Device) : Bool := d.keys.ports.any (fun p => p.2.fetching == some (headOfSlot i d))
/-- Convert one slot, unless a commit has already written it under the new epoch (03 R106 to R108). A free slot that
nobody has written since the start keeps no record of its own: its epoch bit and tag are those of `recordOf` (log entry 5). -/
def convertSlot (i : Nat) (d : Device) : Device :=
  match tabGet i d.keys.slots with
  | none => d
  | some s => if s.epoch = d.keys.epoch then d else { d with keys := putSlot i (convert d.custody i s) d.keys }
/-- The slots that the step in progress converts now: those left to it from the cursor, before the first whose key is being
fetched. -/
def stepSlots (d : Device) : List Nat :=
  ((List.range d.keys.stepLeft).map (fun i => d.keys.cursor + i)).takeWhile (fun i => !fetched i d)
/-- The step goes on. It converts its slots, the last of which is still under conversion at its end; or it comes to a slot whose
key is being fetched, and waits for that fetch (03 R111). -/
def remaskGo (d : Device) : Device :=
  let slots := stepSlots d
  if d.keys.stepLeft = 0 then d
  else if slots.length = d.keys.stepLeft then
    let last := d.keys.cursor + d.keys.stepLeft - 1
    let d := doEach slots.dropLast convertSlot d
    resumeLookups { d with keys := { d.keys with cursor := last, converting := some last, stepLeft := 0, awaits := none } }
  else
    let next := d.keys.cursor + slots.length
    let d := doEach slots convertSlot d
    resumeLookups { d with keys := { d.keys with cursor := next, stepLeft := d.keys.stepLeft - slots.length
                                                 awaits := some (headOfSlot next d) } }
/-- A step of up to 256 slots begins; one that a fetch has stopped goes on. -/
def beginStep (d : Device) : Device :=
  if d.keys.stepLeft ≠ 0 then remaskGo d
  else remaskGo { d with keys := { d.keys with stepLeft := min 256 (slotCount d - d.keys.cursor), lastStep := some d.time.ticks } }
/-- At most one step begins in 100 µs. -/
def stepDue (d : Device) : Bool :=
  match d.keys.lastStep with
  | some t => decide (t + 100 * usTicks ≤ d.time.ticks)
  | none => true
/-- REMASK_STEP (03 R105). -/
def execRemaskStep (s : State) : Host.Outcome State Fault Refusal :=
  runDev (fun d => doIf (keyStoreRuns d && d.keys.remaskActive && decide (d.keys.converting = none) &&
    (decide (d.keys.stepLeft ≠ 0) || stepDue d)) beginStep d) s

/-- The tag verdict of a fetch ends it: Lehr has it, or the job ends with 0x0504; a sequencer that waited for the fetch goes on
(03 R111). -/
def verdictIn (c : CoreRef) (port : Nat) (p : LookupPort) (job : Nat) (d : Device) : Device :=
  let head := handleSlot p.handle
  let d := match badSlot head d with
    | some i => tagFailure i p.handle job (setPort c port { p with fetching := none, verdictDue := false, engineKey := [], code := 0x0504 } d)
    | none => setPort c port { p with fetching := none, verdictDue := false } d
  if d.keys.awaits = some head then remaskGo d else d
/-- TAG_VERDICT (03 R99, R102). -/
def execTagVerdict (core : CoreRef) (port : Nat) (s : State) : Host.Outcome State Fault Refusal :=
  runDev (fun d =>
    let c := lead core d
    let p := portOf c port d
    doIf (keyStoreRuns d && p.verdictDue) (verdictIn c port p (p.job.getD 0)) d) s

/-- The conversion under way ends; after the last slot the re-mask ends (03 R108, R110). Between re-masks `cursor` stays at the slot
count, which KST_REMASK shows in its 20 bits (DESIGN CHOICE: 03 R124 does not say; log entry 89). -/
def conversionEnds (i : Nat) (d : Device) : Device :=
  let d := convertSlot i d
  let d := resumeLookups { d with keys := { d.keys with converting := none, cursor := i + 1 } }
  if slotCount d ≤ i + 1 then endRemask d else d
/-- CONVERSION_END (03 R110). -/
def execConversionEnd (s : State) : Host.Outcome State Fault Refusal :=
  runDev (fun d => doIf (keyStoreRuns d && d.keys.remaskActive) (doWith d.keys.converting conversionEnds) d) s

/-- BENCH_ROW_CONVERSION_END (01 R15). -/
def execBenchRowConversionEnd (bench : Nat) (s : State) : Host.Outcome State Fault Refusal :=
  runDev (fun d => doIf (outOfReset d && (benchOf bench d).inService && !(benchOf bench d).halted)
    (doWith (benchOf bench d).rescramble (rowDone bench)) d) s

end Sys2Proof.Machine
end

