-- ==== Sys2Proof/Machine/Recipe.lean ====
section
/-! DEFINITION. How a recipe runs (04 R140, R163 to R166, R736; 16 R558; 18 R610): a verb names its checks, its draws
and its result, and the row of the verb runs the stages from Decode to the staged result. -/

namespace Sys2Proof.Machine

/-! ### Codes in the order of R736 -/

/-- The first code that is not zero. -/
def firstCode : List Code → Code
  | [] => 0
  | c :: t => if c = 0 then firstCode t else c
/-- A check: its code when it fails. -/
def need (ok : Bool) (code : Code) : Code := if ok then 0 else code

/-- The parameter block of a job, 48 bytes, and its fields. -/
def par (j : Job) (off len : Nat) : Nat := num j.params off len
def parByte (j : Job) (off : Nat) : Byte := byteAt j.params off
def keyA (j : Job) : BitVec 32 := handleA j
def keyB (j : Job) : BitVec 32 := BitVec.ofNat 32 (par j 4 4)
/-- RSV bytes of the parameter block are zero (10 R331, 11 R389). -/
def reserved (j : Job) (off len : Nat) : Code := need (zeros j.params off len) 0x0110

/-- Verbs of tenant 0 only (11 R391, 15 R538, 16 R570, 19 R640, 20 R666, 22 R693). -/
def managerVerb (op : Nat) : Bool :=
  op = 0x0110 || decide (0x0A10 ≤ op ∧ op ≤ 0x0A12) || op = 0x0A30 || op = 0x0A40 || op = 0x0A50 || decide (op / 256 = 0x0B)
/-- What a custody verb finds in the lifecycle state (16 R558). -/
def custodyGate (d : Device) (j : Job) : Code :=
  let op := j.recipe.toNat
  let proc := (parByte j 0).toNat
  match state d with
  | .blank => 0x040C
  | .issued => need (op = 0x0B03 || op = 0x0B04 || op = 0x0B06 || (op = 0x0B02 && proc = 0x01)) 0x040C
  | .erased => need (op = 0x0B03 || op = 0x0B04 || op = 0x0B06 || (op = 0x0B02 && proc = 0x01)) 0x040C
  | .owned => need (decide (0x0B01 ≤ op ∧ op ≤ 0x0B05)) 0x040C
  | .operational => need (decide (0x0B01 ≤ op ∧ op ≤ 0x0B05)) 0x040C
  | .locked => need (op = 0x0B03 || op = 0x0B04 || op = 0x0B05 ||
      (op = 0x0B02 && (proc = 0x03 || proc = 0x0A || proc = 0x0B || proc = 0x0C)) ||
      (op = 0x0B06 && d.custody.lockCause == .recordLost)) 0x040C
  | .retired => need (op = 0x0B05) 0x040C
/-- What the lifecycle state permits (16 R558, 18 R610), with the verbs of tenant 0. -/
def gateCode (d : Device) (j : Job) : Code :=
  let op := j.recipe.toNat
  if op = 0x0A20 ∨ op = 0x0A21 then
    if state d = .blank then 0x040C else if state d ≠ .operational ∧ j.tenant ≠ 0 then 0x0401 else 0
  else if managerVerb op && decide (j.tenant ≠ 0) then 0x0401
  else if op / 256 = 0x0B then custodyGate d j
  else match state d with
    | .operational => 0
    | .owned => need (decide (op / 256 = 0x0A)) 0x040C
    | .locked => need (op = 0x0A30) 0x040C
    | _ => 0x040C

/-! ### A verb -/

structure Verb where
  /-- Decode: codes 0x01xx. -/
  decode : Device → Job → Code
  /-- The most that the verb writes to the output area. -/
  maxOut : Device → Job → Nat
  /-- The other checks, in the order of R736. -/
  checks : Device → Job → Code
  /-- The handles that it looks up. -/
  handles : Device → Job → List (BitVec 32)
  /-- The slots that it reads of itself, no handle naming them: tenant roots, heads that a sweep visits (01 R18). -/
  inner : Device → Job → List Nat
  /-- The random bytes that it draws, and how many of them Check draws, for an input that it forms with them (06 R214, R220). -/
  draws : Device → Job → Nat
  early : Device → Job → Nat
  /-- The checks of such an input. -/
  late : Device → Job → Bytes → Code
  /-- The steps that it takes (04 R163). -/
  steps : Device → Job → Nat
  /-- The result, given its draw. -/
  run : Device → Job → Bytes → Staged
  /-- What the bench notes of a completed run: engine events beside blocks (08 R301, R302), the seal counter (08 R289). -/
  note : Nat → Job → Device → Device
  /-- Its draw asks for prediction resistance (09 R320). -/
  fresh : Job → Bool
  /-- The blocks that its cipher engines process, or the compressions of its Punty engines (08 R301, R302). -/
  blocks : EngineKind → Device → Job → Nat
  /-- The state of an engine after some of them, laid out as the body of a context record (08 R285, R287). -/
  chain : Device → Job → Nat → Bytes
  /-- The data that it feeds to an engine (08 R273). -/
  feeds : Job → Bytes
  /-- The keys that a cipher engine derives for it and loads into its own register (10 R337). -/
  derived : Device → Job → List Bytes

/-- A verb that looks up no key, draws nothing and takes one step. -/
def plainVerb : Verb :=
  { decode := fun _ _ => 0, maxOut := fun _ _ => 0, checks := fun _ _ => 0, handles := fun _ _ => [], inner := fun _ _ => []
    draws := fun _ _ => 0, early := fun _ _ => 0, late := fun _ _ _ => 0
    steps := fun _ _ => 1, run := fun _ _ _ => {}, note := fun _ _ d => d, fresh := fun _ => false
    blocks := fun k d j => Config.recipeBlocks (kindCode k) j.recipe (keyClassA d j.tenant j.params) j.input.length
    chain := fun _ _ _ => [], feeds := fun _ => [], derived := fun _ _ => [] }

/-- The steps of a Marver operation of fixed duration (06 R225). -/
def fixedSteps (d : Device) (j : Job) : Nat :=
  if isStepped j then
    max 1 (ceilDiv (baseFloor d j.tenant j.recipe.toNat j.params j.input j.outCap) (stepTicks d.shares.limitUs.toNat))
  else 1

/-- The largest output that a job may give: out_cap, and in a RESPONSE no more than max_frame − 60 (12 R433, 13 R467). -/
def outRoom (d : Device) (j : Job) : Nat :=
  match j.origin with
  | .htl _ _ => min j.outCap (d.net.maxFrame - 60)
  | _ => j.outCap
/-- A code of a key check (item 2 of R736). -/
def keyCode (c : Code) : Bool := c == 0x0201 || c == 0x0202 || c == 0x0203 || c == 0x0204 || c == 0x0401
/-- The verb's checks and the lifecycle state: the checks of its keys come first, then the gate, then the rest (04 R736). -/
def gatedCode (v : Verb) (d : Device) (j : Job) : Code :=
  let k := v.checks d j
  if keyCode k then k else firstCode [gateCode d j, k]
/-- The code of Decode; a short output area is found last (12 R433, 13 R467). -/
def decodeCode (v : Verb) (d : Device) (j : Job) : Code := firstCode [v.decode d j, need (decide (v.maxOut d j ≤ outRoom d j)) 0x0118]
/-- The code of a job, in the order of R736. -/
def verbCode (v : Verb) (d : Device) (j : Job) : Code := firstCode [decodeCode v d j, gatedCode v d j]
/-- The job's result stands in core local memory. -/
def stageResult (id : Nat) (st : Staged) (d : Device) : Device := modJob id (fun j => { j with staged := some st }) d
/-- The engine of a kind that a job holds. -/
def jobEngine (k : EngineKind) (id : Nat) (d : Device) : Option Nat :=
  (d.shares.grants.find? (fun g => !g.parked && decide (g.kind = kindCode k) && decide (g.job = id))).map (·.unit)
/-- One event of an engine counter, by a job: of the bench and of the engine that it holds; it counts when the job retires (04 R142). -/
def countEvent (k : EngineKind) (counter b id : Nat) (d : Device) : Device :=
  match jobEngine k id d with
  | some n => engineWork b k n counter 1 id d
  | none => modBench b (fun x => { x with work := x.work ++ [{ job := id, kind := k, counter := counter, amount := 1 }] }) d
/-- Digest cache hits (08 R302 counter 2). -/
def noteStaged (b id : Nat) (st : Staged) (d : Device) : Device :=
  if st.intents.any (fun i => match i with | .cacheUse _ hit _ => hit | _ => false) then countEvent .punty 2 b id d else d
def stage (b : Nat) (id : Nat) (st : Staged) (d : Device) : Device := stageResult id st (noteStaged b id st d)

/-- The root of a tenant, if it holds one, is read from its reserved slot (01 R18; 03 R70). -/
def rootRead (t : Nat) (d : Device) : List Nat := if hasRoot t d then [t] else []
/-- The slots that a recipe reads of itself: while a sweep of the tenant is open the root too, for the block that its commit issues (01
R18; 03 R117). -/
def innerSlots (v : Verb) (d : Device) (j : Job) : List Nat :=
  (v.inner d j ++ (if (openSweep j.tenant d).isSome then rootRead j.tenant d else [])).eraseDups
/-- The handle of a slot. -/
def handleOf (i : Nat) (d : Device) : BitVec 32 := mkHandle (slotOf i d.keys).gen i
/-- A key that passes R74, or that Yunante reads of itself, and whose record does not match its tag or is mapped as faulty (03 R99). -/
def unsound (v : Verb) (d : Device) (j : Job) : Option (BitVec 32) :=
  ((v.handles d j).filter (fun h => decide (lookupCode j.tenant h d = 0)) ++ (innerSlots v d j).map (fun i => handleOf i d)).find?
    (fun h => !chainSound (handleSlot h) d)
/-- The job ends with 0x0504: a first mismatch is recorded, a mapped slot only ends the job (03 R99). -/
def integrityFault (h : BitVec 32) (id : Nat) (d : Device) : Device :=
  match badSlot (handleSlot h) d with
  | some i => if d.keys.faultMap.contains i then dispatchAll (squashJob id 0x0504 d) else tagFailure i h id d
  | none => dispatchAll (squashJob id 0x0504 d)

/-- The job on a core that a verb's row concerns: of the verb, with no result yet. -/
def verbJob (op : BitVec 16) (core : CoreRef) (d : Device) : Option Job :=
  match jobOn core d with
  | some j => if j.recipe = op && j.staged.isNone then some j else none
  | none => none
/-- The grant of a kind that a core holds (05 R175), and a request for one, unless one stands already. -/
def heldGrant (c : CoreRef) (kind : Nat) (p : Grant → Bool) (d : Device) : Option Grant :=
  d.shares.grants.find? (fun g => !g.parked && decide (g.kind = kind) && decide (g.core = c) && p g)
def askFor (c : CoreRef) (kind amount : Nat) (j : Job) (d : Device) : Device :=
  if d.shares.pending.any (fun r => decide (r.job = j.id) && decide (r.kind = kind)) then d else request c kind amount j d

/-! ### The keys of a recipe (01 R18; 03 R102; 05 R175) -/

/-- Keys that no port has fetched for the job yet, by a tenant's handle or of itself. -/
def keysMissing (v : Verb) (d : Device) (j : Job) : List (Bool × BitVec 32) :=
  ((v.handles d j).filter (fun h => !j.fetched.contains h)).map (fun h => (false, h)) ++
  ((innerSlots v d j).filter (fun i => !j.fetchedInner.contains i)).map (fun i => (true, handleOf i d))
/-- A lookup of the job waits at a port of its bench (03 R110, R111). -/
def awaitsKey (c : CoreRef) (j : Job) (d : Device) : Bool :=
  d.keys.ports.any (fun p => decide (p.1 / 2 = c.bench) && p.2.waiting && decide (p.2.job = some j.id))
/-- A port that the core holds and that has no fetch in progress. -/
def idlePort (c : CoreRef) (d : Device) : Option Grant :=
  heldGrant c 3 (fun g => !(portOf c g.unit d).waiting && !(portOf c g.unit d).verdictDue) d
/-- One key is fetched at a port of the bench, and its verdict comes in; without a free port the core's request stays pending. -/
def fetchKey (c : CoreRef) (j : Job) (d : Device) (h : Bool × BitVec 32) : Device :=
  if awaitsKey c j d || (verbJob j.recipe c d).isNone then d
  else
    let d := if (idlePort c d).isSome then d else askFor c 3 1 j d
    match idlePort c d with
    | none => d
    | some g =>
      let d := lookupRequest c g.unit h.1 h.2 j d
      if (portOf c g.unit d).verdictDue then verdictIn c g.unit (portOf c g.unit d) j.id d else d
/-- The ports of a core whose lookups are done are released. -/
def releasePorts (c : CoreRef) (d : Device) : Device :=
  doEach (d.shares.grants.filter (fun g => !g.parked && decide (g.kind = 3) && decide (g.core = c) &&
    !(portOf c g.unit d).waiting && !(portOf c g.unit d).verdictDue)) (fun g => releaseGrant g 0) d
/-- The recipe looks up the keys that the verb names and that KEY_LOOKUP has not fetched for it: each is fetched through a port granted
to the core, counted and charged (03 R102, R126; 05 R175, R181). -/
def fetchKeys (v : Verb) (c : CoreRef) (j : Job) (d : Device) : Device :=
  if (keysMissing v d j).isEmpty then d
  else
    let e := (keysMissing v d j).foldl (fetchKey c j) d
    if awaitsKey c j e then e else releasePorts c e

/-! ### The draw and the result -/

/-- The keys that a cipher engine derives are loaded into its own register, over each other; nothing else holds them (08 R282; 10 R337). -/
def loadDerived (b n id : Nat) (keys : List Bytes) (d : Device) : Device :=
  doEach keys (fun k d => engineWork b .cipher n 2 1 id (modEngine b .cipher n (loadKey ((List.range (ceilDiv k.length 64)).map (fun i =>
    bytesBv 512 (fit 64 (field k (64 * i) 64)))) k.length) d)) d
def noteDerived (v : Verb) (b : Nat) (j : Job) (d : Device) : Device :=
  doWith (jobEngine .cipher j.id d) (fun n => loadDerived b n j.id (v.derived d j)) d
/-- A completed run: its result staged, its engine events counted. The bytes that it used stand until the step retires, for a step that is
computed again (07 R263). Values that give no result are dropped, and the step draws others. -/
def finishRun (v : Verb) (c : CoreRef) (j : Job) (r : Bytes) (d : Device) : Device :=
  let st := v.run d j r
  if st.redo then modJob j.id (fun j => { j with drawn := [], drewAll := false }) d
  else stage c.bench j.id st (v.note c.bench j (noteDerived v c.bench j d))
/-- A reseed before a prediction-resistant generate (09 R320): from the buffered seed, never stretched. -/
def freshSeed (b : Nat) (d : Device) : Device := { d with gather := gthCount b 5 1 (reseedBench d.time.ticks b d.gather) }
/-- A prediction-resistant generate waits for the pool: its request stays pending until the seed arrives. -/
def waitSeed (c : CoreRef) (blocks : Nat) (j : Job) (d : Device) : Device :=
  let d := askFor c 4 blocks j { d with gather := setInst c.bench { instOf c.bench d.gather with waiting := true } d.gather }
  servePool d
/-- Bytes that count as drawn: a prediction-resistant draw keeps nothing that was drawn without its reseed (09 R320). -/
def drawnSo (v : Verb) (j : Job) : Nat := if v.fresh j && !j.drewAll then 0 else j.drawn.length
/-- The bytes drawn for the step are there. -/
def drawnEnough (v : Verb) (n : Nat) (j : Job) : Bool := decide (n ≤ drawnSo v j)
/-- The recipe draws what it lacks, under a grant of the bench's generator (05 R175, R181; 09 R316); with prediction resistance one generate
call, which reseeds first (09 R320). Without a grant its request stays pending. -/
def drawFor (v : Verb) (c : CoreRef) (n : Nat) (j : Job) (d : Device) : Device :=
  let missing := blocksOf (n - drawnSo v j)
  let call := if v.fresh j then min 256 missing else missing
  if v.fresh j && (instOf c.bench d.gather).seed.isNone then waitSeed c call j d
  else
    let d := if (heldGrant c 4 (fun _ => true) d).isSome then d else askFor c 4 call j d
    doWith (heldGrant c 4 (fun _ => true) d) (fun g d =>
      releaseGrant g call (if v.fresh j then
          freshSeed c.bench (modJob j.id (fun j => { j with drawn := if j.drewAll then j.drawn else [], drewAll := true }) d)
        else d)) d
/-- The calls of a draw, as many as can be made now. -/
def callsGo (v : Verb) (c : CoreRef) (n id : Nat) : Nat → Device → Device
  | 0, d => d
  | fuel + 1, d => doWith (jobOf id d) (fun j d => if drawnEnough v n j then d else callsGo v c n id fuel (drawFor v c n j d)) d
def drawCalls (v : Verb) (c : CoreRef) (n : Nat) (j : Job) (d : Device) : Device := callsGo v c n j.id (2 * ceilDiv (blocksOf n) 256) d
/-- What follows a draw of n bytes goes on once they are there. Without device service a draw ends the job (09 R326), and without output of
the bench generator it waits (09 R317, R318). -/
def withDrawn (v : Verb) (c : CoreRef) (n : Nat) (j : Job) (f : Job → Device → Device) (d : Device) : Device :=
  if n = 0 || drawnEnough v n j then f j d
  else if !d.gather.service then dispatchAll (squashJob j.id 0x0508 d)
  else
    let e := drawCalls v c n j d
    doWith (jobOf j.id e) (fun j => doIf (drawnEnough v n j) (f j)) e
/-- The step is the job's last. -/
def lastOf (v : Verb) (d : Device) (j : Job) : Bool := decide (v.steps d j ≤ j.step + 1)
/-- What Check draws: in the first step, with all else that the step draws where it is the last. -/
def checkDraw (v : Verb) (d : Device) (j : Job) : Nat :=
  if v.early d j = 0 || j.step ≠ 0 then 0 else if lastOf v d j then v.draws d j else v.early d j
/-- The bytes that Check drew: they stand with the job's bytes in the first step, then in its step state. -/
def kept (v : Verb) (d : Device) (j : Job) : Bytes := if j.step = 0 then [] else (stepState d j).take (v.early d j)
def earlyBytes (v : Verb) (d : Device) (j : Job) : Bytes := if j.step = 0 then j.drawn.take (v.early d j) else kept v d j
/-- The last step draws what is not drawn yet, computes and stages. -/
def lastStep (v : Verb) (c : CoreRef) (j : Job) (d : Device) : Device :=
  let k := kept v d j
  let n := v.draws d j - k.length
  withDrawn v c n j (fun j => finishRun v c j (k ++ j.drawn.take n)) d
/-- A step after its checks: in safe mode the first of its two halves ends first (06 R204); a step before the last has no result. -/
def runStep (v : Verb) (c : CoreRef) (j : Job) (d : Device) : Device :=
  if j.safeMode && !j.half then stage c.bench j.id { half := true } d
  else if !lastOf v d j then stage c.bench j.id { more := true, state := earlyBytes v d j } d
  else lastStep v c j d

/-! ### Segments on the cipher and Punty engines (08 R276, R284, R285) -/

/-- Submit an event of an engine. -/
def engineEvent (b : Nat) (k : EngineKind) (n : Nat) (sev : Severity) (code : BitVec 16) (detail : Bytes) (d : Device) : Device :=
  emitVia (.bench b) sev code (.bench b) (engineUnit k n) none detail d
/-- Sticky bits of a block. -/
def setSticky (b : Nat) (k : EngineKind) (f : EngineBlock → EngineBlock) (d : Device) : Device :=
  modBench b (modEngineBlock k f) d
/-- A difference, a flag fault or a count out of range: the engine goes to its test, the job is re-entered or ends with
0x0501 (08 R274, R277, R279). -/
def engineDiffers (b : Nat) (k : EngineKind) (n : Nat) (j : Job) (d : Device) : Device :=
  dispatchAll (faultJob j.id 0x0501 (faultKind 2 (withdrawEngine b k n 2 d)))
/-- A difference is noted; a count outside its range is noted as one (DESIGN CHOICE: 08 R274 names no counter and no event for it; log
entry 89). -/
def noteDifference (b : Nat) (k : EngineKind) (n : Nat) (j : Job) (d : Device) : Device :=
  let d := setSticky b k (fun x => { x with mismatch := true }) (engineCount b k n (diffNo k) d)
  engineEvent b k n .alarm 0x0403 (leBytes 1 (2 ^ n) ++ leBytes 2 j.recipe.toNat) d
/-- The shadow datapath holds the complement of what the primary one holds (08 R276). -/
def pathsAgree (e : Engine) : Bool := e.shadow == e.chain.map (fun x => ~~~x)
/-- The two datapaths are compared: after every block, at a context save and at the final output. -/
def compareEngine (b : Nat) (k : EngineKind) (n : Nat) (j : Job) (d : Device) : Device :=
  if pathsAgree (engineOf b k n d) then d else engineDiffers b k n j (noteDifference b k n j d)
/-- Blocks that the engines of a kind have processed for a job. -/
def doneBlocks (k : EngineKind) (j : Job) : Nat := match k with | .cipher => j.cipherDone | .punty => j.puntyDone | .marver => 0
def setDone (k : EngineKind) (n : Nat) (j : Job) : Job :=
  match k with | .cipher => { j with cipherDone := n } | .punty => { j with puntyDone := n } | .marver => j
/-- Blocks of a kind that are still to be processed. -/
def blocksLeft (v : Verb) (k : EngineKind) (d : Device) (j : Job) : Nat :=
  if k = .marver then 0 else v.blocks k d j - doneBlocks k j
/-- The largest segment of a job (08 R284). -/
def segmentOf (k : EngineKind) (j : Job) (d : Device) : Nat :=
  let key := (slotOf (handleSlot (handleA j)) d.keys).keyParam.toNat
  max 1 (segmentBlocks (modeOf k j d).toNat key (j.recipe == 0x0502) d.shares.limitUs.toNat)
/-- Bytes of a word of the handshake channel to an engine (08 R273). -/
def wordBytes (k : EngineKind) : Nat := if k = .punty then 8 else 16
/-- The engine of a grant processes blocks of a job: both datapaths move, the blocks are counted, and with the last the last-word register
has been written (08 R273, R276, R301, R302). -/
def processBlocks (v : Verb) (k : EngineKind) (n : Nat) (g : Grant) (j : Job) (d : Device) : Device :=
  let done := doneBlocks k j + n
  let body := v.chain d j done
  let final := decide (v.blocks k d j ≤ done)
  let f := feed (wordBytes k) (v.feeds j)
  let d := modEngine g.bench k g.unit (fun e =>
    { e with chain := body, shadow := body.map (fun x => ~~~x), chainJob := if final then none else some j.id
             lastWord := if final then f.lastWord else e.lastWord, lastCount := if final then f.count else e.lastCount }) d
  engineWork g.bench k g.unit 0 n j.id (modJob j.id (setDone k done) (setMoved g (g.moved + n) d))
/-- Blocks of a segment on an engine that the job's core holds; with the segment full and data left the grant ends, the engine stays parked
where it can, and the core asks again (08 R284, R285). -/
def segmentStep (v : Verb) (c : CoreRef) (k : EngineKind) (n : Nat) (g : Grant) (j : Job) (d : Device) : Device :=
  let left := blocksLeft v k d j
  let size := segmentOf k j d
  let e := compareEngine g.bench k g.unit j (processBlocks v k n g j d)
  if n < left && decide (size ≤ g.moved + n) then
    doWith (verbJob j.recipe c e) (fun j e => askFor c (kindCode k) 1 j (releaseGrant { g with moved := g.moved + n } 0 e)) e
  else e
/-- The rest of a segment of a job on the engine that its core holds. -/
def runSegment (v : Verb) (c : CoreRef) (k : EngineKind) (d : Device) : Device :=
  doWith (jobOn c d) (fun j d => doWith (heldGrant c (kindCode k) (fun g => decide (g.job = j.id)) d) (fun g d =>
    let left := blocksLeft v k d j
    if left = 0 then d else segmentStep v c k (min left (segmentOf k j d - g.moved)) g j d) d) d
/-- The segments of a job, as many as its engines let it run now. -/
def segmentsGo (v : Verb) (c : CoreRef) (k : EngineKind) : Nat → Device → Device
  | 0, d => d
  | fuel + 1, d => segmentsGo v c k fuel (runSegment v c k d)
def runSegments (v : Verb) (c : CoreRef) (j : Job) (d : Device) : Device :=
  doEach [EngineKind.cipher, .punty] (fun k d =>
    if (kindsOf j d).contains (kindCode k) then segmentsGo v c k (blocksLeft v k d j / segmentOf k j d + 2) d else d) d
/-- Every engine that the recipe needs has processed its blocks. -/
def blocksDone (v : Verb) (d : Device) (j : Job) : Bool :=
  [EngineKind.cipher, .punty].all (fun k => !(kindsOf j d).contains (kindCode k) || blocksLeft v k d j == 0)

/-! ### A run -/

/-- The engine kinds that the recipe needs and for which the core holds no engine for the job. -/
def enginesMissing (c : CoreRef) (j : Job) (d : Device) : List Nat :=
  (kindsOf j d).filter (fun k => (heldGrant c k (fun g => decide (g.job = j.id)) d).isNone)
/-- A step computes on engines that its core holds: what it lacks it requests, and without it waits (05 R175, R183); its data passes
through them segment by segment. -/
def runOnEngines (v : Verb) (c : CoreRef) (j : Job) (d : Device) : Device :=
  let e := (enginesMissing c j d).foldl (fun d k => askFor c k 1 j d) d
  doWith (verbJob j.recipe c e) (fun j => doIf (enginesMissing c j e).isEmpty (fun e =>
    let f := runSegments v c j e
    doWith (verbJob j.recipe c f) (fun j f => doIf (blocksDone v f j && (enginesMissing c j f).isEmpty) (runStep v c j) f) f)) e
/-- Check of an input that the verb forms with bytes that it draws (06 R220): its code, or the run goes on. -/
def checkDrawn (v : Verb) (c : CoreRef) (j : Job) (d : Device) : Device :=
  let code := if v.early d j = 0 || j.step ≠ 0 then 0 else v.late d j (j.drawn.take (v.early d j))
  if code ≠ 0 then stage c.bench j.id { code := code, checked := true } d else runOnEngines v c j d
/-- The recipe once its keys have been fetched. -/
def runChecked (v : Verb) (c : CoreRef) (j : Job) (d : Device) : Device :=
  match unsound v d j with
  | some h => integrityFault h j.id d
  | none =>
    let code := gatedCode v d j
    if code ≠ 0 then stage c.bench j.id { code := code, checked := true } d
    else withDrawn v c (checkDraw v d j) j (checkDrawn v c) d
/-- The state that the latest step saved stands in the core's own bench. -/
def stateHere (c : CoreRef) (j : Job) : Bool := j.savedRows.isEmpty || decide (j.savedBench = some c.bench)
/-- The state of a step that another bench ran moves through the cross-bench hub, under a grant of it (04 R164; 05 R175, R181); without the
grant the request stays pending. -/
def bringState (c : CoreRef) (j : Job) (d : Device) : Device :=
  if stateHere c j then d
  else
    let words := ceilDiv j.savedLen 64
    let d := if (heldGrant c 5 (fun g => decide (g.job = j.id)) d).isSome then d else askFor c 5 words j d
    doWith (heldGrant c 5 (fun g => decide (g.job = j.id)) d) (fun g d =>
      let d := saveState j.id c.bench (loadState j d) (releaseGrant g words d)
      match jobOf j.id d with
      | some j => if savedWhole j then d else dispatchAll (loseState j.id d)
      | none => d) d
/-- One run of a recipe on a core, from Decode to the staged result of its step. -/
def runVerb (v : Verb) (c : CoreRef) (j : Job) (d : Device) : Device :=
  if decodeCode v d j ≠ 0 then stage c.bench j.id { code := decodeCode v d j, checked := true } d
  else
    doWith (verbJob j.recipe c (bringState c j d)) (fun j d => doIf (stateHere c j) (fun d =>
    let e := fetchKeys v c j d
    doWith (verbJob j.recipe c e) (fun j => doIf (keysMissing v e j).isEmpty (runChecked v c j)) e) d) (bringState c j d)
/-- A row that is no verb of its own reads the slots that `v` names first. -/
def afterReading (op : BitVec 16) (v : Verb) (core : CoreRef) (row : Device → Device) (d : Device) : Device :=
  doWith (verbJob op core d) (fun j d =>
    let e := fetchKeys v (lead core d) j d
    doWith (verbJob op core e) (fun j => doIf (keysMissing v e j).isEmpty row) e) d
/-- The row of a verb. -/
def execVerb (op : BitVec 16) (v : Verb) (core : CoreRef) (d : Device) : Device :=
  doWith (verbJob op core d) (runVerb v (lead core d)) d

/-! ### Migration sweeps (03 R115 to R117; 04 R166, R167; 05 R177) -/

/-- The background job of a sweep's step runs on a core, with no result yet. -/
def sweepJob (w : Sweep) (d : Device) : Option (CoreRef × Job) :=
  match w.job with
  | some id => match jobOf id d with
    | some j => match j.place with
      | .core b c => if (verbJob j.recipe { bench := b, core := c } d).isSome then some ({ bench := b, core := c }, j) else none
      | _ => none
    | none => none
  | none => none
/-- A step of a sweep: it reads the root and the heads whose blocks it will issue through a port of its bench, and draws their nonces, under
grants that are charged to tenant 0 (01 R18; 05 R175, R177); the blocks are written at the Retire of the step (04 R142, R166). -/
def sweepVerb (n : Nat) : Verb :=
  { plainVerb with
    inner := fun d _ => match sweepOwes n d.keys with
      | [] => []
      | heads => rootRead (tabGetD n {} d.keys.sweeps).tenant d ++ heads
    draws := fun d _ => 12 * (sweepOwes n d.keys).length
    run := fun _ _ r => { intents := [.sweepStep n r] } }
/-- SWEEP_STEP (03 R115): the core that runs the step prepares its blocks. -/
def execSweepStep (sweep : Nat) (s : State) : Host.Outcome State Fault Refusal :=
  runDev (fun d =>
    let w := tabGetD sweep {} d.keys.sweeps
    doIf (keyStoreRuns d && w.active && decide (state d = .operational))
      (doWith (sweepJob w d) (fun p => runVerb (sweepVerb sweep) p.1 p.2)) d) s

end Sys2Proof.Machine
end

