-- ==== Sys2Proof/Machine/CardsCustody.lean ====
section
/-! DEFINITION. Card ports, quorums and procedures (16 R562 to R577, 23 R726), and Keabor factory programming. -/

namespace Sys2Proof.Machine

/-! ### Card ports (16 R566, R567; 23 R726) -/

def setPortOf (portB : Bool) (f : CardPort → CardPort) (d : Device) : Device :=
  { d with custody := { d.custody with
      portA := if portB then d.custody.portA else f d.custody.portA
      portB := if portB then f d.custody.portB else d.custody.portB } }
/-- A fault of a port: last_fault, and event 0x0906. -/
def portFault (portB : Bool) (fault : BitVec 3) (d : Device) : Device :=
  let d := setPortOf portB (fun p => { p with lastFault := fault }) d
  emitC .warning 0x0906 (leBytes 1 (b2n portB) ++ leBytes 1 fault.toNat ++ leBytes 2 (portFor portB d).lastSw.toNat) d
/-- The exchange of a port ends without success: its job gets 0x040B. -/
def endExchange (portB : Bool) (d : Device) : Device :=
  match cardHolder portB d with
  | some j => match j.place with
    | .core b _ => stage b j.id { code := 0x040B } d
    | _ => d
  | none => d
/-- CARD_INSERTED: the port activates its card (16 R566). -/
def execCardInserted (portB : Bool) (s : State) : Host.Outcome State Fault Refusal :=
  runDev (fun d => doIf (outOfReset d && !(portFor portB d).present)
    (setPortOf portB (fun p => { p with present := true, active := true })) d) s
/-- The card is gone; an exchange that ran ends with the fault "removed during exchange". -/
def removeCard (portB : Bool) (d : Device) : Device :=
  let ran := (portFor portB d).active && (cardHolder portB d).isSome
  let d := endExchange portB (setPortOf portB (fun p => { p with present := false, active := false }) d)
  if ran then portFault portB 4 d else d
/-- CARD_REMOVED (16 R566, R578). -/
def execCardRemoved (portB : Bool) (s : State) : Host.Outcome State Fault Refusal :=
  runDev (fun d => doIf (outOfReset d && (portFor portB d).present) (removeCard portB) d) s
/-- ATR_TIMEOUT: no answer to reset; the card is not in use (23 R726). -/
def execAtrTimeout (portB : Bool) (s : State) : Host.Outcome State Fault Refusal :=
  runDev (fun d => doIf (outOfReset d && (portFor portB d).active)
    (fun d => portFault portB 1 (setPortOf portB (fun p => { p with active := false }) d)) d) s
/-- The exchange of a port has run for 2 s. -/
def exchangeLate (portB : Bool) (d : Device) : Bool :=
  (portFor portB d).active && match cardHolder portB d with
  | some j => decide (2 * secTicks ≤ ticksSince j.dispatch d)
  | none => false
/-- CARD_EXCHANGE_TIMEOUT: a protocol fault (16 R567). -/
def execCardExchangeTimeout (portB : Bool) (s : State) : Host.Outcome State Fault Refusal :=
  runDev (fun d => doIf (outOfReset d && exchangeLate portB d) (fun d => portFault portB 2 (endExchange portB d)) d) s

/-! ### Exchanges with a card (16 R567 to R569) -/

/-- The card application's identifier. -/
def cardAid : Bytes := [0xF0, 0x4B, 0x59, 0x43, 0x55, 0x01]
/-- The port can carry this job's exchange. -/
def portServes (portB : Bool) (j : Job) (d : Device) : Bool :=
  (portFor portB d).active && match cardHolder portB d with
  | some k => decide (k.id = j.id)
  | none => false
def sendCard (portB : Bool) (ins : Byte) (data : Bytes) (d : Device) : Device :=
  { d with out := d.out ++ [.cardCommand portB ins data] }
/-- SELECT and GET IDENTITY: the status word is kept. -/
def readIdentity (portB : Bool) (reply : CardReply) (d : Device) : Device :=
  setPortOf portB (fun p => { p with lastSw := reply.status }) (sendCard portB 0x10 [] (sendCard portB 0xA4 cardAid d))
/-- The digest D that a card signs (16 R568). -/
def cardDigest (d : Device) (number : BitVec 32) (procedure : Byte) (params challenge : Bytes) : Bytes :=
  sha256 (label "KYCQ" ++ fit 8 d.custody.deviceFp ++ leBytes 4 number.toNat ++ [procedure] ++ fit 32 params ++ challenge)
/-- The card's signature verifies under its key. -/
def cardSigned (reply : CardReply) (digest : Bytes) : Bool :=
  ecdsaVerify 0x01 ((fit 65 reply.publicKey).drop 1) digest (fit 64 reply.signature)
/-- The context of a component (16 R569). -/
def cardContext (number : BitVec 32) (tenant : Nat) (suite version keyClass : Byte) : Bytes :=
  leBytes 4 number.toNat ++ leBytes 1 tenant ++ [suite, version, keyClass] ++ List.replicate 8 0
/-- HKDF of RFC 5869 over SHA-256, for one block of output. -/
def hkdfSha256 (salt ikm info : Bytes) : Bytes := hmacOf 0x62 32 (hmacOf 0x62 32 salt ikm) (info ++ [0x01])
/-- The key of a component between an ephemeral key and a card's key. -/
def componentKey (scalar : Nat) (cardKey context : Bytes) : Bytes :=
  hkdfSha256 context (curveSharedX 0x01 scalar ((fit 65 cardKey).drop 1) []) (ascii "KYCARD".toList)
/-- A component that a card delivers, when its tag verifies. -/
def openComponent (scalar : Nat) (reply : CardReply) (context : Bytes) (len : Nat) : Option Bytes :=
  let key := componentKey scalar reply.publicKey context
  let nonce := fit 12 reply.nonce
  if reply.component.length = len ∧ gcmTagOf key nonce context reply.component = reply.tag then
    some (gcmXor key nonce reply.component)
  else none
/-- The bytes that STORE COMPONENT carries. -/
def storeData (scalar : Nat) (cardKey context nonce component : Bytes) : Bytes :=
  let key := componentKey scalar cardKey context
  let cipher := gcmXor key nonce component
  uncompressed (curvePublic 0x01 scalar []) ++ context ++ nonce ++ cipher ++ gcmTagOf key nonce context cipher
/-- An enrolled card's serial and key. -/
def cardOfReply (reply : CardReply) : Card := { serial := reply.serial, key := fit 65 reply.publicKey }
def enrolled (d : Device) (key : Bytes) : Bool := d.custody.record.cards.any (fun p => decide (p.2.key = key))

/-! ### Procedures: what they ask for (16 R558, R563, R574, R575, R659) -/

/-- Bytes of the parameters that a procedure lists. -/
def procedureBytes (p : Nat) : Nat :=
  match p with
  | 0x01 => 21
  | 0x04 => 1 | 0x05 => 1 | 0x06 => 4 | 0x07 => 2
  | 0x08 => 12
  | 0x09 => 1 | 0x0A => 1
  | _ => 0
/-- Values outside their range, and RSV bytes. -/
def procedureDecode (p : Nat) (q : Bytes) : Code :=
  let n := procedureBytes p
  firstCode [
    need (decide (1 ≤ p ∧ p ≤ 0x0C)) 0x0110,
    need (zeros q n (32 - n) && (p != 0x08 || byteAt q 3 == 0)) 0x0110,
    match p with
    | 0x01 => need (decide (2 ≤ num q 16 1 ∧ num q 16 1 ≤ 8)) 0x0110
    | 0x04 => need (decide (num q 0 1 < 8)) 0x0110
    | 0x05 => need (decide (num q 0 1 < 8)) 0x0110
    | 0x07 => need (decide (num q 1 1 = 1 ∨ num q 1 1 = 2)) 0x0110
    | 0x08 => need (decide ((num q 1 1 = 1 ∨ num q 1 1 = 2) ∧ num q 2 1 ≠ 0)) 0x0110
    | 0x0A => need (decide (1 ≤ num q 0 1 ∧ num q 0 1 ≤ 24)) 0x0110
    | _ => 0]
/-- Four quorum sizes from an offset, each in 2 to N. -/
def sizesFit (n : Nat) (q : Bytes) (off : Nat) : Bool :=
  (List.range 4).all (fun i => decide (2 ≤ num q (off + i) 1 ∧ num q (off + i) 1 ≤ n))
/-- A size of the record lies above a number of cards. -/
def sizeAbove (n : Nat) (r : CustodyRecord) : Bool :=
  decide (n < r.mUnlock ∨ n < r.mRoot ∨ n < r.mDebug ∨ n < r.mAdmin)
/-- In the Izvi personality only tenants 0 to 15 exist (21 R685): a procedure for another finds no tenant state that permits it. -/
def tenantExists (t : Nat) (d : Device) : Bool := !izvi d || decide (t < 16)
/-- The procedure suits the lifecycle, enrollment and tenant state. -/
def procedureMay (p : Nat) (q : Bytes) (d : Device) : Bool :=
  let r := d.custody.record
  let slot := num q 0 1
  let rec_ := d.custody.recordValid
  match p with
  | 0x01 => (state d == .issued || state d == .erased) && sizesFit (num q 16 1) q 17 && !saturated d.fuses.ownCount
  | 0x02 => rec_ && state d == .owned && d.flash.selected != 0
  | 0x03 => rec_ && state d == .locked
  | 0x04 => rec_ && ownedOrMore d && (tabGet slot r.cards).isNone
  | 0x05 => rec_ && ownedOrMore d && (tabGet slot r.cards).isSome && !sizeAbove (r.cards.length - 1) r
  | 0x06 => rec_ && ownedOrMore d && sizesFit r.cards.length q 0
  | 0x07 => rec_ && ownedOrMore d && tenantExists slot d && !hasRoot slot d
  | 0x08 => rec_ && ownedOrMore d && tenantExists slot d && !hasRoot slot d
  | 0x09 => rec_ && ownedOrMore d && tenantExists slot d && hasRoot slot d
  | 0x0A => rec_ && ownedOrLocked d
  | 0x0B => rec_ && ownedOrLocked d
  | 0x0C => rec_ && ownedOrLocked d
  | _ => false
/-- M of a procedure (16 R573, R575). -/
def procedureM (p : Nat) (q : Bytes) (r : CustodyRecord) : Nat :=
  match p with
  | 0x01 => num q 16 1
  | 0x03 => r.mUnlock
  | 0x07 => r.mRoot
  | 0x08 => r.mRoot
  | 0x09 => r.mRoot
  | 0x0A => r.mDebug
  | _ => r.mAdmin
/-- The procedure writes a journal, the vault key or the custody record (20 R659). -/
def procedureWrites (p : Nat) (d : Device) : Bool :=
  p == 0x01 || (p == 0x03 && d.custody.lockCause == .vaultLost) || p == 0x04 || p == 0x05 || p == 0x06 || p == 0x07 || p == 0x08
/-- The NVM interface region serves and no journal is unavailable. -/
def custodyDurable (d : Device) : Bool := nvmServes d && !d.flash.rootsDown && !d.flash.ceilingsDown
/-- The cause of a lock persists (17 R593). -/
def causePersists (d : Device) : Bool :=
  anyActive d || d.tamper.overwriteActive || (d.custody.lockCause == .breach && !d.tamper.overwriteDone)
/-- The code that stands against a procedure at its completion. -/
def completionCode (q : Quorum) (d : Device) : Code :=
  let p := q.procedure.toNat
  firstCode [need (procedureMay p q.params d) 0x040C, need (p != 0x03 || !causePersists d) 0x040C,
    need (!procedureWrites p d || custodyDurable d) 0x050A]

/-! ### Procedures: what they do (16 R559 to R561, R575, R576; 22 R705, R708) -/

/-- Level Full closes before the first burn of take ownership and of factory programming (22 R705). -/
def closeFull (d : Device) : Device := if d.power.level = .full then setLevel .closed 0 d else d
/-- The scramble key has been erased with the roots, and no start has drawn another: no lookup can be served (17 R590). -/
def keysErased (c : Custody) : Bool := c.scrambleKey == 0

/-- Cards in slots 0 to n − 1 in the order in which they were presented. -/
def slotsOf (cs : List Card) : Tab Card := (List.range cs.length).zip cs
/-- 0x01: own_count and the authority fingerprint burned, the vault key drawn, the record written. -/
def takeOwnership (q : Quorum) (cards : List Card) (d : Device) : Device :=
  let from_ := state d
  let own := ownership d + 1
  let d := burn .ownCount (closeFull d)
  let d := { d with fuses := { d.fuses with ownerFp := tabSet own (field q.params 0 16) d.fuses.ownerFp } }
  let d := withKeyDraw 32 (fun r d => { d with battery := { d.battery with vaultKey := bytesBv 256 r, vaultValid := true } }) d
  let d := writeRecord { d.custody.record with
    ownership := own, authority := field q.params 0 16, cards := slotsOf cards
    mUnlock := num q.params 17 1, mRoot := num q.params 18 1, mDebug := num q.params 19 1, mAdmin := num q.params 20 1 } d
  closeUnpermitted (noteTransition from_ { d with custody := { d.custody with lockCause := .none } })
/-- 0x02: commission_count burned up to own_count; lookups are served. -/
def commission (d : Device) : Device :=
  let from_ := state d
  let d := burnTo .commissionCount (ownership d) d
  closeStartWindow (noteTransition from_ { d with keys := { d.keys with refusing := state d != .operational || keysErased d.custody } })
/-- 0x04, 0x05, 0x06: the record is written with the change. -/
def changeRecord (f : CustodyRecord → CustodyRecord) (d : Device) : Device := writeRecord (f d.custody.record) d
def setSizes (p : Bytes) (r : CustodyRecord) : CustodyRecord :=
  { r with mUnlock := num p 0 1, mRoot := num p 1 1, mDebug := num p 2 1, mAdmin := num p 3 1 }
/-- 0x0A: Diagnostic for the hours given. -/
def openDiagnostic (hours : Nat) (d : Device) : Device :=
  let d := setLevel .diagnostic hours d
  { d with power := { d.power with diagEnds := d.time.ticks + 3600 * secTicks * hours } }
/-- 0x0B: the Cullet line, the burns, the vault key, the enrollment and the journals (16 R561). -/
def eraseOwnership (d : Device) : Device :=
  let from_ := state d
  let d := fireCullet d
  let d := burnTo .unlockCount (fuseVal .lockCount d) (burnTo .eraseCount (ownership d) d)
  let d := { d with
    battery := { dropLocks d.battery with vaultKey := 0, vaultValid := false }
    custody := { d.custody with record := {}, recordValid := false, lockCause := .none }
    flash := { d.flash with roots := [], ceilings := [], otherHalf := [], halfTwo := false }
    gaffer := { d.gaffer with stopped := false } }
  remaskOnExit from_ (closeUnpermitted (noteTransition from_ d))
/-- A procedure with the cards that completed it: the device, its code, and what the verb commits at its Retire. -/
def runProcedure (q : Quorum) (d : Device) : Device × Code × List Intent :=
  let p := q.params
  let t := num p 0 1
  let burned : Lifecycle → Device → Device × Code × List Intent := fun want d => (d, need (state d == want) 0x0509, [])
  match q.procedure.toNat with
  | 0x01 => burned .owned (takeOwnership q q.presented d)
  | 0x02 => burned .operational (commission d)
  | 0x03 =>
    let d := dispatchAll (unlockWork d)
    (d, need (state d != .locked) 0x0509, [])
  | 0x04 => match q.newCard with
    | some c => (changeRecord (fun r => { r with cards := tabSet (num p 0 1) c r.cards }) d, 0, [])
    | none => (d, 0, [])
  | 0x05 => (changeRecord (fun r => { r with cards := tabErase (num p 0 1) r.cards }) d, 0, [])
  | 0x06 => (changeRecord (setSizes p) d, 0, [])
  | 0x07 =>
    let d := deviceReseed 8 d
    (spend 8 32 d, 0, [.createRoot t (byteAt p 1) 1 (drawn 8 32 d)])
  | 0x08 =>
    let root := q.components.foldl bytesXor (List.replicate 32 0)
    if fingerprintOf 0x3F (byteAt p 1) root = field p 4 8 then (d, 0, [.createRoot t (byteAt p 1) (byteAt p 2) root])
    else (d, 0x0207, [])
  | 0x0A => (openDiagnostic (num p 0 1) d, 0, [])
  | 0x0B => burned .erased (eraseOwnership d)
  | 0x0C => burned .retired (burnRetired (fireCullet d))
  | _ => (d, 0, [])

/-! ### Verbs of the partition (16 R570) -/

/-- A custody verb's row: Decode, the lifecycle gate, then what the partition does; what it commits is written at the Retire (04 R141). -/
def custodyRow (op : BitVec 16) (decode : Job → Code) (maxOut : Nat) (act : Nat → Job → Device → Device) (core : CoreRef)
    (d : Device) : Device :=
  doWith (verbJob op core d) (fun j d =>
    let b := (lead core d).bench
    let early := firstCode [decode j, need (decide (maxOut ≤ outRoom d j)) 0x0118, gateCode d j]
    if early ≠ 0 then stage b j.id { code := early } d else act b j d) d

/-- LOCK, 0x0B01 (16 R577). -/
def execLock (core : CoreRef) (s : State) : Host.Outcome State Fault Refusal :=
  runDev (custodyRow 0x0B01 (fun j => reserved j 0 48) 0 (fun b j d => stage b j.id { intents := [.lockPart] } d) core) s

def openDecode (j : Job) : Code :=
  firstCode [reserved j 1 3, reserved j 36 12, procedureDecode (par j 0 1) (field j.params 4 32)]
/-- Ask for a quorum: it opens, with its number and M, at the Retire. -/
def askQuorum (b : Nat) (j : Job) (d : Device) : Device :=
  let p := par j 0 1
  let q := field j.params 4 32
  if !procedureMay p q d then stage b j.id { code := 0x040C } d
  else if quorumBusy d then stage b j.id { code := 0x040D } d
  else stage b j.id { intents := [.openQuorum (parByte j 0) q (procedureM p q d.custody.record)] } d
/-- OPEN_QUORUM, 0x0B02 (16 R570, R572, R575). -/
def execOpenQuorum (core : CoreRef) (s : State) : Host.Outcome State Fault Refusal :=
  runDev (custodyRow 0x0B02 openDecode 0 askQuorum core) s

/-- The checks of R573 between GET IDENTITY and SIGN. -/
def cardCode (q : Quorum) (new : Bool) (key : Bytes) (d : Device) : Code :=
  let p := q.procedure
  firstCode [
    need (!new || p == 0x01 || p == 0x04) 0x040C,
    need (new || p != 0x01) 0x040C,
    need (new || enrolled d key) 0x040E,
    need (!new || !enrolled d key) 0x040C,
    need (!q.presented.any (fun c => c.key == key) && !(match q.newCard with | some c => c.key == key | none => false)) 0x040F,
    need (!(new && p == 0x04 && q.newCard.isSome)) 0x040F]
/-- The quorum with the card counted (16 R573). -/
def countCard (q : Quorum) (new : Bool) (c : Card) (tick : Nat) : Quorum :=
  let q := if new && q.procedure == 0x04 then { q with newCard := some c } else { q with presented := q.presented ++ [c] }
  { q with first := some (q.first.getD tick) }
/-- The component exchange of procedures 0x08 and 0x09; none when the card's component does not verify. -/
def exchangeComponent (portB : Bool) (q : Quorum) (reply : CardReply) (d : Device) : Device × Option Quorum :=
  let t := num q.params 0 1
  let e := forDraw 8 32 d
  let scalar := beNat (drawn 8 32 e)
  if q.procedure = 0x08 then
    let ctx := cardContext q.number t (byteAt q.params 1) (byteAt q.params 2) 0x3F
    let d := sendCard portB 0x30 (uncompressed (curvePublic 0x01 scalar []) ++ ctx) (spend 8 32 e)
    (d, (openComponent scalar reply ctx 32).map (fun c => { q with components := q.components ++ [c] }))
  else if q.procedure = 0x09 then
    let s := slotOf t d.keys
    let ctx := cardContext q.number t s.suite s.rootVersion 0x3F
    let d := forDraw 8 12 (spend 8 32 e)
    let nonce := drawn 8 12 d
    let d := spend 8 12 d
    let last := decide (q.presented.length = q.required)
    let d := if last then d else deviceReseed 8 d
    let part := if last then q.components.foldl bytesXor (tenantRoot t d) else drawn 8 32 d
    let d := if last then d else spend 8 32 d
    (sendCard portB 0x32 (storeData scalar reply.publicKey ctx nonce part) d, some { q with components := q.components ++ [part] })
  else (d, some q)
/-- The quorum has enough cards. -/
def quorumFull (q : Quorum) : Bool := decide (q.presented.length = q.required) && (q.procedure != 0x04 || q.newCard.isSome)
def presentAux (q : Quorum) : BitVec 32 :=
  BitVec.ofNat 32 (256 * q.required + q.presented.length + b2n q.newCard.isSome)
/-- The final step of a counted presentation: the quorum goes on, or its procedure runs and ends it (16 R573, R574). A
procedure that fails leaves the quorum as it was before the presentation. -/
def finishPresent (b : Nat) (j : Job) (q : Quorum) (d : Device) : Device :=
  if !quorumFull q then stage b j.id { aux := presentAux q } { d with custody := { d.custody with quorum := some q } }
  else
    let code := completionCode q d
    if code ≠ 0 then stage b j.id { code := code } d
    else
      let slots := presentedBits d q
      let r := runProcedure q d
      if r.2.1 ≠ 0 then stage b j.id { code := r.2.1 } r.1
      else
        let d := emitC .notice 0x0902 ([q.procedure] ++ leBytes 4 q.number.toNat ++ leBytes 1 slots) r.1
        stage b j.id { aux := presentAux q, intents := r.2.2 } { d with custody := { d.custody with quorum := none } }
/-- A presentation after the identity has been read. -/
def presentIdentity (b : Nat) (j : Job) (portB : Bool) (q : Quorum) (reply : CardReply) (d : Device) : Device :=
  let new := decide (par j 5 1 % 2 = 1)
  let c := cardOfReply reply
  let code := cardCode q new c.key d
  if code ≠ 0 then stage b j.id { code := code } d
  else
    let d := forDraw 8 32 d
    let challenge := drawn 8 32 d
    let d := spend 8 32 d
    let digest := cardDigest d q.number q.procedure q.params challenge
    let d := sendCard portB 0x20 digest d
    if !cardSigned reply digest then stage b j.id { code := 0x040E } d
    else match exchangeComponent portB (countCard q new c d.time.ticks) reply d with
      | (d, some q) => finishPresent b j q d
      | (d, none) => stage b j.id { code := 0x040B } d
/-- One presentation (16 R573); without device service its draw ends the job (09 R326). -/
def presentCard (reply : CardReply) (b : Nat) (j : Job) (d : Device) : Device :=
  let portB := decide (par j 4 1 = 1)
  match quorumOpen (par j 0 4) d with
  | none => stage b j.id { code := 0x040D } d
  | some q =>
    if !portServes portB j d then stage b j.id { code := 0x040B } d
    else
      let d := readIdentity portB reply d
      if reply.status ≠ 0x9000 then stage b j.id { code := 0x040B } (portFault portB 3 d)
      else if !d.gather.service then dispatchAll (squashJob j.id 0x0508 d)
      else presentIdentity b j portB q reply d
def presentDecode (j : Job) : Code :=
  firstCode [need (decide (par j 4 1 < 2)) 0x0110, need (decide (par j 5 1 < 2)) 0x0110, reserved j 6 42]
/-- The last card of a quorum that stores root components takes one formed from the root itself, which is read from its slot (01 R18; 16
R574). -/
def presentReads : Verb :=
  { plainVerb with
    inner := fun d j => match quorumOpen (par j 0 4) d with
      | some q => if q.procedure = 0x09 ∧ q.presented.length + 1 = q.required ∧ presentDecode j = 0 then rootRead (num q.params 0 1) d else []
      | none => [] }
/-- PRESENT_CARD, 0x0B03 (16 R573 to R576). -/
def execPresentCard (core : CoreRef) (reply : CardReply) (s : State) : Host.Outcome State Fault Refusal :=
  runDev (afterReading 0x0B03 presentReads core (custodyRow 0x0B03 presentDecode 0 (presentCard reply) core)) s

/-- ABANDON_QUORUM, 0x0B04 (16 R570, R572). -/
def execAbandonQuorum (core : CoreRef) (s : State) : Host.Outcome State Fault Refusal :=
  runDev (custodyRow 0x0B04 (fun j => reserved j 4 44) 0 (fun b j d => match quorumOpen (par j 0 4) d with
    | some q => stage b j.id { intents := [.abandonQuorum q.number] } d
    | none => stage b j.id { code := 0x040D } d) core) s
/-- The output of Custody information: the record, with its tag's bytes zero. -/
def custodyInfo (d : Device) : Bytes := custodyBytes d.custody.record ++ List.replicate 16 0
/-- CUSTODY_INFORMATION, 0x0B05 (16 R570). -/
def execCustodyInformation (core : CoreRef) (s : State) : Host.Outcome State Fault Refusal :=
  runDev (custodyRow 0x0B05 (fun j => reserved j 0 48) 688 (fun b j d => stage b j.id { output := custodyInfo d } d) core) s
/-- RETIRE_WITHOUT_QUORUM, 0x0B06 (16 R559, R570). -/
def execRetireWithoutQuorum (core : CoreRef) (s : State) : Host.Outcome State Fault Refusal :=
  runDev (custodyRow 0x0B06 (fun j => reserved j 0 48) 0 (fun b j d => stage b j.id { intents := [.retirePart] } d) core) s

/-- QUORUM_EXPIRY (16 R572). -/
def execQuorumExpiry (s : State) : Host.Outcome State Fault Refusal :=
  runDev (fun d => doIf (outOfReset d && d.custody.quorum.isSome && !quorumBusy d)
    (fun d => { d with custody := { d.custody with quorum := none } }) d) s
/-- COMPONENT_SESSION_EXPIRY (11 R397). -/
def execComponentSessionExpiry (session : Nat) (s : State) : Host.Outcome State Fault Refusal :=
  runDev (fun d => doIf (outOfReset d) (fun d =>
    let kept := d.custody.sessions.filter (fun x => !(decide (x.number.toNat = session) && sessionOver x d.time.ticks))
    { d with custody := { d.custody with sessions := kept } }) d) s

/-! ### Keabor factory programming (16 R551, R559; 22 R705) -/

def partOf (n : Nat) : Option Part :=
  match n with
  | 1280 => some .ky1280
  | 640 => some .ky0640
  | 320 => some .ky0320
  | _ => none
/-- The factory fields and the issued fuse are burned. -/
def programFactory (root : Bytes) (calibration : FactoryCalibration) (p : Part) (d : Device) : Device :=
  let d := closeFull d
  noteTransition .blank { d with fuses := { d.fuses with
    part := p, deviceRoot := bytesBv 256 root, romKeyDigest := calibration.romKeyDigest, watchTrim := calibration.watchTrim
    gatherTrim := (List.range 16).zip calibration.gatherTrims, monitorTrims := calibration.monitorTrims, issued := true } }
/-- KEABOR_FACTORY_PROGRAMMING (16 R559): in Blank only. -/
def execKeaborFactoryProgramming (part : Nat) (deviceRoot : Bytes) (calibration : FactoryCalibration) (s : State) :
    Host.Outcome State Fault Refusal :=
  runDev (fun d => doIf (state d == .blank && d.pins.mainOn) (doWith (partOf part) (programFactory deviceRoot calibration)) d) s

end Sys2Proof.Machine
end

