-- ==== Sys2Proof/Machine/Marver.lean ====
section
/-! DEFINITION. RSA operations and the validation of inputs on the Marver engines (06 R209, R210, R217 to R220). -/

namespace Sys2Proof.Machine

/-! ### RSA (06 R210; 03 R82) -/

def rsaModBytes (param : Nat) : Nat := 32 * param
/-- The exponent of a public key's material. -/
def rsaExponent (param : Nat) (material : Bytes) : Nat := beNat (field material (rsaModBytes param) 8)
def rsaPublicModulus (param : Nat) (material : Bytes) : Nat := beNat (field material 0 (rsaModBytes param))
/-- The public operation on a public key's material. -/
def rsaPublicOp (param : Nat) (material : Bytes) (x : Nat) : Nat :=
  let e := rsaExponent param material
  montPow (rsaPublicModulus param material) x e (modulusBits e)
/-- Bytes of the blinding values of one pass: r_p and r_q of 8 bytes each, and those of r (06 R210, R212). -/
def rsaBlindBytes (param : Nat) : Nat := 16 + rsaModBytes param
/-- A blinded CRT exponent d + r·(p − 1), with a non-zero 64-bit r. -/
def blindExponent (d p : Nat) (draw : Bytes) : Nat := d + nonZeroBelow (2 ^ 64) draw * (p - 1)
/-- r in [2, N − 2]. -/
def blindBase (n : Nat) (draw : Bytes) : Nat := 2 + beNat draw % (n - 3)
/-- A product modulo N in Montgomery form. -/
def mulMod (n a b : Nat) : Nat :=
  let r := montRadix n
  montOut n r (montProduct n r (montIn n r a) (montIn n r b))
/-- The private operation by the CRT parts p, q, dp, dq, qinv on an input below N, each exponent over bits(p) + 64 bits
(06 R209), blinded in both ways: the input by r^e, undone by r⁻¹, and both exponents (06 R210). -/
def rsaPrivateOp (param : Nat) (material blind : Bytes) (x : Nat) : Nat :=
  let p := rsaPart param material 0
  let q := rsaPart param material 1
  let n := p * q
  let e := beNat (field material (80 * param) 8)
  let r := blindBase n ((blind.drop 16).take (rsaModBytes param))
  let y := mulMod n x (montPow n r e (modulusBits e))
  let bits := 128 * param + 64
  let rp := montRadix p
  let rq := montRadix q
  let m1 := montPower p rp (montWide p rp y) (blindExponent (rsaPart param material 2) p (blind.take 8)) bits
  let m2 := montOut q rq (montPower q rq (montWide q rq y) (blindExponent (rsaPart param material 3) q ((blind.drop 8).take 8)) bits)
  let h := montOut p rp (montProduct p rp (montIn p rp (rsaPart param material 4)) (montSub p m1 (montIn p rp m2)))
  mulMod n (m2 + q * h) (inverseMod n r)

/-! ### The form of a key (06 R197, R224, R235, R236; 07 R268; 11 R410) -/

/-- key_param of the public-key classes. -/
def paramOk (cls param : Nat) : Bool :=
  match cls with
  | 0x10 => decide (8 ≤ param ∧ param ≤ 32) | 0x11 => decide (8 ≤ param ∧ param ≤ 32)
  | 0x18 => decide (1 ≤ param ∧ param ≤ 7) | 0x19 => decide (1 ≤ param ∧ param ≤ 7)
  | 0x1A => param == 0x10 || param == 0x11 | 0x1B => param == 0x10 || param == 0x11
  | 0x20 => decide (2 ≤ param ∧ param ≤ 4) | 0x21 => decide (2 ≤ param ∧ param ≤ 4)
  | 0x28 => param == 44 || param == 65 || param == 87 | 0x29 => param == 44 || param == 65 || param == 87
  | 0x30 => decide (1 ≤ param ∧ param ≤ 8) | 0x31 => decide (1 ≤ param ∧ param ≤ 8)
  | _ => false
/-- A public exponent is odd and at least 3 (06 R236). -/
def exponentOk (e : Nat) : Bool := e % 2 == 1 && decide (3 ≤ e)
/-- The form of an RSA key: a public modulus is odd and of its full size; a private key stands in CRT form, p and q odd and of exactly
half its bits, their product of its full size, its parts reduced (06 R197, R236). -/
def formOk (cls param : Nat) (material : Bytes) : Bool :=
  if cls = 0x11 then
    let n := rsaPublicModulus param material
    integerModulus n && decide (modulusBits n = 256 * param) && exponentOk (rsaExponent param material)
  else if cls = 0x10 then
    let p := rsaPart param material 0
    let q := rsaPart param material 1
    integerModulus p && integerModulus q && decide (modulusBits p = 128 * param) && decide (modulusBits q = 128 * param) &&
    decide (modulusBits (p * q) = 256 * param) && decide (rsaPart param material 2 < p) && decide (rsaPart param material 3 < q) &&
    decide (rsaPart param material 4 < p) && exponentOk (beNat (field material (80 * param) 8))
  else true

/-! ### Input validation (06 R217 to R220) -/

/-- An input of a validated operation: an integer modulo N, a scalar modulo n, or a point of a curve. -/
inductive Validated where
  | integer (x n : Nat)
  | scalar (s n : Nat)
  | point (curve : Byte) (bytes : Bytes)
deriving DecidableEq, Repr
/-- The coordinates of a point in its encoding: x and y, or y alone on an Edwards curve. -/
def pointCoordinates (curve : Byte) (b : Bytes) : List Nat :=
  let n := curveBytes curve.toNat
  if curve = 0x10 then [leNat (field b 0 32) % 2 ^ 255] else if curve = 0x11 then [leNat (field b 0 57) % 2 ^ 455]
  else [beNat (field b 0 n), beNat (field b n n)]
/-- A check of the mask fails on an input (06 R218). -/
def checkFails (bit : Nat) (v : Validated) : Bool :=
  match v, bit with
  | .integer x _, 0 => x == 0
  | .integer x n, 1 => x == 1 || x == n - 1
  | .integer x n, 2 => decide (n ≤ x)
  | .scalar s _, 0 => s == 0
  | .scalar s n, 2 => decide (n ≤ s)
  | .point c b, 2 => (pointCoordinates c b).any (fun x => decide (curvePrime c ≤ x))
  | .point c b, 3 => !curveOnCurve c b
  | .point c b, 4 => curveSmall c b
  | _, _ => false
/-- A check applies to an input: by the mask of the tenant; for a point by the mask with the forced bits (06 R219). -/
def checkApplies (t cls bit : Nat) (v : Validated) (d : Device) : Bool :=
  match v with
  | .point _ _ => (validationMask t cls d).getLsbD bit
  | _ => (tabGetD cls 0x1F (tenantOf t d).masks).getLsbD bit
/-- The code of the lowest failing bit over every input (06 R220). -/
def validate (t cls : Nat) (vs : List Validated) (d : Device) : Code :=
  match (List.range 5).find? (fun b => vs.any (fun v => checkApplies t cls b v d && checkFails b v)) with
  | some b => BitVec.ofNat 16 (0x0301 + b)
  | none => 0

end Sys2Proof.Machine
end

