-- ==== Sys2Proof/Machine/Creation.lean ====
section
/-! DEFINITION. What every verb that creates a key shares (11 R380 to R388, R413, R415): the template, the classes and
parameters of R77, the result with its persistence block, keys with advancing state. -/

namespace Sys2Proof.Machine

/-! ### Attribute templates (11 R381; 03 R76 to R78) -/

/-- A template T. -/
structure Template where
  cls : Byte
  param : Byte
  usage : BitVec 16
  exportBits : Byte
  policySet : BitVec 16
  limit : BitVec 32
deriving DecidableEq, Repr
def templateAt (b : Bytes) (off : Nat) : Template :=
  { cls := byteAt b off, param := byteAt b (off + 1), usage := BitVec.ofNat 16 (num b (off + 2) 2), exportBits := byteAt b (off + 4)
    policySet := BitVec.ofNat 16 (num b (off + 6) 2), limit := BitVec.ofNat 32 (num b (off + 8) 4) }
/-- RSV byte 5 of T, and the RSV bits of its export byte. -/
def templateRsv (j : Job) (off : Nat) : Code :=
  need (parByte j (off + 5) == 0 && (parByte j (off + 4) &&& 0x3F) == 0) 0x0110
/-- key_param of the symmetric classes (03 R77). -/
def symmetricParam (cls param : Byte) : Bool :=
  let p := param.toNat
  match cls.toNat with
  | 0x01 => p == 0
  | 0x02 => p == 0
  | 0x03 => p == 16 || p == 24 || p == 32
  | 0x04 => decide (16 ≤ p ∧ p ≤ 64)
  | 0x05 => p == 16 || p == 24
  | 0x06 => p == 16 || p == 24 || p == 32
  | _ => false
/-- Usage bits 9 to 12 and 15 suit no symmetric key (03 R78, DEDUCED). -/
def symmetricUsage (u : BitVec 16) : Bool := (u &&& 0x9E00) == 0
/-- A template of a symmetric key among the classes given; a DUKPT class must describe a base key (10 R340). -/
def symmetricTemplate (classes : List Nat) (t : Template) : Bool :=
  classes.contains t.cls.toNat && symmetricParam t.cls t.param && symmetricUsage t.usage &&
  (decide (t.cls.toNat < 0x05) || isBaseKey t.cls t.usage)
/-- TDES keys carry odd parity (11 R399). -/
def isTdes (cls : Byte) : Bool := cls == 0x01 || cls == 0x02 || cls == 0x05
def withParity (cls : Byte) (key : Bytes) : Bytes := if isTdes cls then setParity key else key
/-- The check value and fingerprint of a key, over its key bytes only (11 R383, R384). -/
def storedCheck (cls param : Byte) (material : Bytes) : Bytes :=
  fit 8 (checkValueOf cls (if symmetricClass cls then field material 0 (keyLen cls param) else material))

/-! ### The result of a creation (11 R380, R386, R387, R418) -/

/-- A key of a template. -/
def draftOf (t : Template) (origin : Byte) (material : Bytes) : KeyDraft :=
  { keyClass := t.cls, keyParam := t.param, usage := t.usage, exportBits := t.exportBits, origin := origin
    policySet := t.policySet, usageLimit := t.limit, material := material
    checkValue := storedCheck t.cls t.param material, fingerprint := fingerprintOf t.cls t.param material }
/-- The head record that a draft's persistence block describes. -/
def draftHead (x : KeyDraft) : Slot :=
  { keyClass := x.keyClass, keyParam := x.keyParam, usage := x.usage, exportBits := x.exportBits, origin := x.origin
    seedForm := x.seedForm, policySet := x.policySet, usageLimit := x.usageLimit, fingerprint := x.fingerprint }
/-- Each key used, by its head and generation, once (03 R91). -/
def usesOf (hs : List (BitVec 32)) : List Intent := hs.eraseDups.map (fun h => .useKey (handleSlot h) (handleGen h))
/-- A created key: the output given, then its persistence block under a fresh nonce. -/
def created (d : Device) (j : Job) (x : KeyDraft) (out nonce : Bytes) (used : List (BitVec 32)) : Staged :=
  { output := out ++ blockNow j.tenant (draftHead x) x.material nonce d, intents := usesOf used ++ [.create x] }
/-- Bytes of a block for material of a length. -/
def blockLen (m : Nat) : Nat := 64 + m
/-- A key is created only for a tenant that holds a root (16 R558, DEDUCED: its block needs one). -/
def rootCode (d : Device) (j : Job) : Code := need (hasRoot j.tenant d) 0x040C

/-! ### Keys with advancing state (11 R388, R411, R413, R415) -/

/-- A new key with advancing state: not resident, and with room in the journal. -/
def advancingCode (d : Device) (t : Nat) (fp : Bytes) : Code :=
  firstCode [need (journalRoom d t fp) 0x0206, need (!residentFp t fp d.keys) 0x0208]
/-- A draft whose first record is written before its commit. -/
def withJournal (type : Byte) (ceiling : Nat) (x : KeyDraft) : KeyDraft := { x with journal := some (type, ceiling) }
/-- KSN bytes of a variant: 10 for TDES, 12 for AES; and the KSN with its counter set (10 R353, R354). -/
def ksnLen (aes : Bool) : Nat := if aes then 12 else 10
def ksnCounter (aes : Bool) (ksn : Bytes) : Nat := if aes then beNat (field ksn 8 4) else beNat (field ksn 0 10) % 2 ^ 21
def setCounter (aes : Bool) (ksn : Bytes) (c : Nat) : Bytes :=
  if aes then field ksn 0 8 ++ beBytes 4 c
  else beBytes 10 (beNat (field ksn 0 10) / 2 ^ 21 * 2 ^ 21 + c % 2 ^ 21)
/-- The material of an originator: initial key, zeros up to byte 31, KSN in bytes 32 to 43 (10 R354). -/
def originatorMaterial (key ksn : Bytes) : Bytes := fit 32 key ++ fit 12 ksn
def originatorKsn (aes : Bool) (material : Bytes) : Bytes := field material 32 (ksnLen aes)
/-- An originator with counter 0, its first record holding ceiling 1,024 (11 R400, R414). -/
def originatorDraft (t : Template) (aes : Bool) (origin : Byte) (key ksn : Bytes) : KeyDraft :=
  withJournal 0x02 1024 (draftOf { t with cls := if aes then 0x06 else 0x05, param := BitVec.ofNat 8 key.length, usage := 0x0040 } origin
    (originatorMaterial key (setCounter aes ksn 0)))

/-! ### Blinding values (06 R210 to R212; 07 R254) -/

/-- How a job's step runs on the lattice engine, with the blinding values of its first pass (06 R204; 07 R248). The second pass of
repeat-and-compare draws values of its own (06 R212); its result stands in MARVER_OPERATION_END. -/
def scheduleOf (j : Job) (blind : Bytes) : Schedule := { safe := j.safeMode, draw := blind }
/-- Bytes of the blinding values of one pass of the creation of a key pair (log entry 81). -/
def creationBlind (cls param : Nat) : Nat :=
  if cls = 0x18 ∨ cls = 0x1A then curveBlindBytes (BitVec.ofNat 8 param)
  else if cls = 0x20 then passBytes * kemPublicPasses (kemSet (BitVec.ofNat 8 param))
  else if cls = 0x28 then passBytes * expandPasses (dsaSet (BitVec.ofNat 8 param))
  else 0

end Sys2Proof.Machine
end

