-- ==== Sys2Proof/Machine/Dukpt.lean ====
section
/-! DEFINITION. DUKPT (10 R352, R355): the initial key of a base key, the future-key walk and the PIN encryption key, by ANSI
X9.24-1 for TDES and ANSI X9.24-3 for AES. PRESUMED: the specification names both standards and does not write them out. -/

namespace Sys2Proof.Machine

/-! ### TDES -/

/-- The mask of a double-length key. -/
def dukptMask : Bytes := [0xC0, 0xC0, 0xC0, 0xC0, 0, 0, 0, 0, 0xC0, 0xC0, 0xC0, 0xC0, 0, 0, 0, 0]
/-- The KSN with its counter of 21 bits cleared. -/
def clearedKsn (ksn : Bytes) : Bytes := beBytes 10 (beNat (fit 10 ksn) / 2 ^ 21 * 2 ^ 21)
def tdesInitial (base ksn : Bytes) : Bytes :=
  let s := (clearedKsn ksn).take 8
  tdesEnc base s ++ tdesEnc (bytesXor base dukptMask) s
/-- Half of the non-reversible key generation. -/
def dukptHalf (key r : Bytes) : Bytes := bytesXor (desEnc (key.take 8) (bytesXor r (key.drop 8))) (key.drop 8)
/-- One step of the walk: the key of a register of 8 bytes from the key before it. -/
def tdesNext (key r : Bytes) : Bytes := dukptHalf (bytesXor key dukptMask) r ++ dukptHalf key r
/-- The set bits of a counter, from the most significant, each added to those before it. -/
def walkGo (c : Nat) : Nat → Nat → List Nat
  | 0, _ => []
  | n + 1, acc => if c.testBit n then (acc + 2 ^ n) :: walkGo c n (acc + 2 ^ n) else walkGo c n acc
def tdesPin (ikey ksn : Bytes) : Bytes :=
  let r := beNat ((clearedKsn ksn).drop 2)
  let key := (walkGo (beNat (fit 10 ksn) % 2 ^ 21) 21 0).foldl (fun k c => tdesNext k (beBytes 8 (r + c))) ikey
  bytesXor key (List.replicate 7 0 ++ [0xFF] ++ List.replicate 7 0 ++ [0xFF])

/-! ### AES -/

/-- The derivation data: version, block counter, usage, algorithm, length in bits, and eight bytes of identifier or counter. -/
def aesDukptData (block usage len : Nat) (tail : Bytes) : Bytes :=
  [0x01, BitVec.ofNat 8 block] ++ beBytes 2 usage ++ beBytes 2 (if len = 16 then 2 else if len = 24 then 3 else 4) ++
  beBytes 2 (8 * len) ++ tail
/-- A key of the length of the key it is derived from. -/
def aesDukptKey (key : Bytes) (usage : Nat) (tail : Bytes) : Bytes :=
  ((List.range (ceilDiv key.length 16)).flatMap (fun i => aesEnc key (aesDukptData (i + 1) usage key.length tail))).take key.length
def aesInitial (base ksn : Bytes) : Bytes := aesDukptKey base 0x8001 (field ksn 0 8)
def aesPin (ikey ksn : Bytes) : Bytes :=
  let c := beNat (field ksn 8 4)
  let tail := fun n => field ksn 4 4 ++ beBytes 4 n
  aesDukptKey ((walkGo c 32 0).foldl (fun k n => aesDukptKey k 0x8000 (tail n)) ikey) 0x1000 (tail c)

/-! ### Both; ANSI X9.24-1 knows double-length keys only, so what a key of 24 bytes gives is open -/

/-- The initial key: double-length for TDES, of the base key's length for AES (10 R352). -/
@[irreducible] def dukptInitial (aes : Bool) (base ksn : Bytes) : Bytes :=
  if aes then aesInitial base ksn
  else if base.length = 16 then tdesInitial base ksn
  else (List.range 16).map (Config.dukptInitialByte base ksn)
/-- The PIN encryption key of the transaction that a KSN numbers. -/
@[irreducible] def dukptPin (aes : Bool) (ikey ksn : Bytes) : Bytes :=
  if aes then aesPin ikey ksn
  else if ikey.length = 16 then tdesPin ikey ksn
  else (List.range 16).map (Config.dukptPinByte ikey ksn)

end Sys2Proof.Machine
end

