-- ==== Sys2Proof/Machine/KeyBlocks.lean ====
section
/-! DEFINITION. Key blocks of versions B and D (11 R392, R393), as ANSI X9.143 and ISO 20038 define them: optional blocks, the
keys derived from a KBPK, wrapping and unwrapping. PRESUMED: the specification names the standards and does not write the
blocks out. -/

namespace Sys2Proof.Machine

/-! ### Characters -/

def charAt (b : Bytes) (n : Nat) : Char := Char.ofNat (byteAt b n).toNat
/-- A decimal number of ASCII digits. -/
def decimal (b : Bytes) (off len : Nat) : Option Nat :=
  (field b off len).foldl (fun a c => match a with
    | some v => if 0x30 ≤ c.toNat ∧ c.toNat ≤ 0x39 then some (10 * v + (c.toNat - 0x30)) else none
    | none => none) (some 0)
def hexChar (n : Nat) : Byte := BitVec.ofNat 8 (if n < 10 then 0x30 + n else 0x41 + n - 10)
def hexBytes (b : Bytes) : Bytes := (nibbles b).map hexChar
/-- The value of an upper-case hexadecimal digit. -/
def hexDigit (c : Byte) : Option Nat :=
  if 0x30 ≤ c.toNat ∧ c.toNat ≤ 0x39 then some (c.toNat - 0x30)
  else if 0x41 ≤ c.toNat ∧ c.toNat ≤ 0x46 then some (c.toNat - 0x37) else none
/-- The bytes of a string of hexadecimal digits. -/
def unhex : Bytes → Option Bytes
  | a :: b :: t =>
    match hexDigit a, hexDigit b, unhex t with
    | some x, some y, some r => some (BitVec.ofNat 8 (16 * x + y) :: r)
    | _, _, _ => none
  | [_] => none
  | [] => some []

/-! ### Optional blocks -/

structure OptionalBlock where
  id : Bytes
  data : Bytes
deriving DecidableEq, Repr
/-- The optional block that a string begins with, and what follows it. A length of 00 is followed by the size of a longer
length field, and that field. -/
def takeOptional (b : Bytes) : Option (OptionalBlock × Bytes) :=
  match unhex ((b.drop 2).take 2) with
  | some [n] =>
    let wide := 2 * (((unhex ((b.drop 4).take 2)).getD []).headD 0).toNat
    let head := if n = 0 then 6 + wide else 4
    let len := if n = 0 then beNat ((unhex ((b.drop 6).take wide)).getD []) else n.toNat
    if head ≤ len ∧ len ≤ b.length then some (⟨b.take 2, (b.take len).drop head⟩, b.drop len) else none
  | _ => none
def takeOptionals : Nat → Bytes → Option (List OptionalBlock × Bytes)
  | 0, b => some ([], b)
  | n + 1, b =>
    match takeOptional b with
    | some (x, rest) => (takeOptionals n rest).map (fun r => (x :: r.1, r.2))
    | none => none
/-- The optional blocks of a key block, as many as its header says, and what follows them. -/
def optionalsOf (b : Bytes) : Option (List OptionalBlock × Bytes) :=
  match decimal b 12 2 with
  | some n => takeOptionals n (b.drop 16)
  | none => none
def optionalIds : List Bytes :=
  ["KS", "KC", "KP", "PB", "TS"].map (fun s => ascii s.toList)
/-- Every optional block is one of those accepted (11 R393). -/
@[irreducible] def keyBlockOptionalOk (b : Bytes) : Bool :=
  match optionalsOf b with
  | some (xs, _) => xs.all (fun x => optionalIds.contains x.id)
  | none => false
/-- The KSN of the KS optional block. -/
@[irreducible] def keyBlockKsn (b : Bytes) : Option Bytes :=
  match optionalsOf b with
  | some (xs, _) =>
    match xs.find? (fun x => x.id == ascii "KS".toList) with
    | some x => unhex x.data
    | none => none
  | none => none

/-! ### Wrapping -/

/-- The derivation data of a block: counter, purpose (0 encryption, 1 authentication), algorithm, length in bits. -/
def blockKeyData (aes : Bool) (purpose len i : Nat) : Bytes :=
  let algorithm := if aes then (if len = 16 then 2 else if len = 24 then 3 else 4) else if len = 16 then 0 else 1
  [BitVec.ofNat 8 i] ++ beBytes 2 purpose ++ [0x00] ++ beBytes 2 algorithm ++ beBytes 2 (8 * len)
/-- The key of a purpose, as long as its KBPK. -/
def blockKey (aes : Bool) (kbpk : Bytes) (purpose : Nat) : Bytes :=
  ((List.range (ceilDiv kbpk.length (blockSize aes))).flatMap (fun i =>
    cmac aes kbpk (blockKeyData aes purpose kbpk.length (i + 1)))).take kbpk.length
/-- The MAC of a header and the clear key data: it is also the chaining block of their encryption. -/
def blockMac (aes : Bool) (kbpk head clear : Bytes) : Bytes := cmac aes (blockKey aes kbpk 1) (head ++ clear)
/-- What follows the header of a block: the key's length in bits, the key and padding, enciphered, and the MAC. -/
@[irreducible] def keyBlockBody (aes : Bool) (kbpk head key pad : Bytes) : Bytes :=
  let clear := beBytes 2 (8 * key.length) ++ key ++ pad
  let mac := blockMac aes kbpk head clear
  hexBytes ((cbcEnc aes (blockKey aes kbpk 0) mac (chunks (blockSize aes) clear)).1 ++ mac)
/-- The key of clear key data. -/
def clearKey (clear : Bytes) : Option Bytes :=
  let bits := beNat (clear.take 2)
  if bits % 8 = 0 ∧ bits / 8 + 2 ≤ clear.length then some ((clear.drop 2).take (bits / 8)) else none
/-- The key of a block whose MAC verifies under a KBPK. -/
@[irreducible] def keyBlockUnwrap (aes : Bool) (kbpk b : Bytes) : Option Bytes :=
  match optionalsOf b with
  | none => none
  | some (_, rest) =>
    match unhex rest with
    | none => none
    | some body =>
      let n := blockSize aes
      let mac := body.drop (body.length - n)
      let clear := (cbcDec aes (blockKey aes kbpk 0) mac (chunks n (body.take (body.length - n)))).1
      if 2 * n ≤ body.length ∧ body.length % n = 0 ∧ blockMac aes kbpk (b.take (b.length - rest.length)) clear = mac then
        clearKey clear
      else none

end Sys2Proof.Machine
end

