-- ==== Sys2Proof/Machine/RsaCoding.lean ====
section
/-! DEFINITION. The RSA encodings of 11 R405 and R406: PKCS#1 v1.5 and PSS signatures, and OAEP (RFC 8017). PRESUMED: the
specification names these schemes and does not write them out. -/

namespace Sys2Proof.Machine

/-- MGF1 over a hash code: the hash of the seed and a counter, in turn. -/
def mgf1 (alg : Nat) (seed : Bytes) (len : Nat) : Bytes :=
  ((List.range (ceilDiv len (hashLen alg))).flatMap (fun i =>
    digestOf (BitVec.ofNat 8 alg) (hashLen alg) (seed ++ beBytes 4 i))).take len
/-- The DigestInfo of a digest: SHA-256, SHA-384 or SHA-512. -/
def digestInfo (alg : Nat) (digest : Bytes) : Bytes :=
  let n := BitVec.ofNat 8 digest.length
  [0x30, 0x11 + n, 0x30, 0x0D, 0x06, 0x09, 0x60, 0x86, 0x48, 0x01, 0x65, 0x03, 0x04, 0x02, BitVec.ofNat 8 (alg - 0x21), 0x05,
    0x00, 0x04, n] ++ digest
/-- The encoded message of PKCS#1 v1.5, of `len` bytes. -/
def pkcs1Encode (alg len : Nat) (digest : Bytes) : Bytes :=
  let t := digestInfo alg digest
  [0x00, 0x01] ++ List.replicate (len - t.length - 3) 0xFF ++ [0x00] ++ t
/-- The hash of PSS over a digest and its salt. -/
def pssHash (alg : Nat) (digest salt : Bytes) : Bytes :=
  digestOf (BitVec.ofNat 8 alg) (hashLen alg) (List.replicate 8 0 ++ digest ++ salt)
def clearTop : Bytes → Bytes
  | [] => []
  | b :: t => (b &&& 0x7F) :: t
/-- The encoded message of PSS, of `len` bytes of which the top bit is 0. -/
def pssEncode (alg len : Nat) (digest salt : Bytes) : Bytes :=
  let h := pssHash alg digest salt
  let db := List.replicate (len - salt.length - h.length - 2) 0 ++ [0x01] ++ salt
  clearTop (bytesXor db (mgf1 alg h db.length)) ++ h ++ [0xBC]
/-- A PSS encoding that agrees with a digest, its salt as long as the hash (11 R406). -/
def pssVerify (alg len : Nat) (digest em : Bytes) : Bool :=
  let n := hashLen alg
  let dbLen := len - n - 1
  let h := (em.drop dbLen).take n
  let db := clearTop (bytesXor (em.take dbLen) (mgf1 alg h dbLen))
  let salt := db.drop (dbLen - n)
  decide (2 * n + 2 ≤ len) && em.getLast? == some 0xBC && !(em.headD 0).msb &&
  (db.take (dbLen - n - 1)).all (fun b => b == 0) && byteAt db (dbLen - n - 1) == 0x01 && pssHash alg digest salt == h
/-- OAEP with SHA-256 and an empty label (11 R406): the encoded message of `len` bytes. -/
def oaepEncode (len : Nat) (m seed : Bytes) : Bytes :=
  let db := sha256 [] ++ List.replicate (len - m.length - 66) 0 ++ [0x01] ++ m
  let masked := bytesXor db (mgf1 0x22 seed db.length)
  [0x00] ++ bytesXor seed (mgf1 0x22 masked 32) ++ masked
/-- What follows the zeros and the byte 0x01 of a data block. -/
def afterZeros : Bytes → Option Bytes
  | [] => none
  | b :: t => if b = 0x00 then afterZeros t else if b = 0x01 then some t else none
def oaepDecode (em : Bytes) : Option Bytes :=
  let masked := em.drop 33
  let seed := bytesXor ((em.drop 1).take 32) (mgf1 0x22 masked 32)
  let db := bytesXor masked (mgf1 0x22 seed masked.length)
  if em.headD 0 = 0x00 ∧ db.take 32 = sha256 [] then afterZeros (db.drop 32) else none

/-! ### By scheme of 11 R405, for a modulus of 256·param bits -/

/-- The representative of a message or digest; PSS and OAEP take a salt or a seed. -/
@[irreducible] def rsaEncode (scheme hash : Byte) (param : Nat) (m salt : Bytes) : Nat :=
  beNat (if scheme = 0x01 then pkcs1Encode hash.toNat (32 * param) m
    else if scheme = 0x02 then pssEncode hash.toNat (32 * param) m salt
    else oaepEncode (32 * param) m (fit 32 salt))
/-- A representative recovered from a signature agrees with a digest. -/
@[irreducible] def rsaVerifyEncoding (scheme hash : Byte) (param : Nat) (digest : Bytes) (v : Nat) : Bool :=
  if scheme = 0x01 then decide (beNat (pkcs1Encode hash.toNat (32 * param) digest) = v)
  else pssVerify hash.toNat (32 * param) digest (beBytes (32 * param) v)
/-- The message of an OAEP representative. -/
@[irreducible] def rsaDecode (param v : Nat) : Option Bytes := oaepDecode (beBytes (32 * param) v)

end Sys2Proof.Machine
end

