-- ==== Sys2Proof/Machine/KeyVerbs.lean ====
section
/-! DEFINITION. The key management verbs 0x0101 to 0x0111 (11 R389 to R403). -/

namespace Sys2Proof.Machine

def anyClass (_ : Slot) : Bool := true
def slotClass (classes : List Nat) (s : Slot) : Bool := classes.contains s.keyClass.toNat
def headOf (h : BitVec 32) (d : Device) : Slot := slotOf (handleSlot h) d.keys
def keyOf (h : BitVec 32) (d : Device) : Bytes := keyBytes d (handleSlot h)
/-- A key that may be Suspended: the subject of 0x0105, 0x010F and 0x0111 (DEDUCED: a suspended key can be resumed). -/
def subjectOk (t : Nat) (h : BitVec 32) (d : Device) : Code := lookupCode t h d

/-! ### 0x0101: generate (11 R389) -/

def generateVerb : Verb :=
  { plainVerb with
    decode := fun _ j => firstCode [reserved j 0 8, reserved j 20 28, templateRsv j 8]
    maxOut := fun _ j => let t := templateAt j.params 8; 8 + blockLen (keyLen t.cls t.param)
    inner := fun d j => rootRead j.tenant d
    checks := fun d j => firstCode [need (symmetricTemplate [1, 2, 3, 4, 5, 6] (templateAt j.params 8)) 0x0203, rootCode d j]
    draws := fun _ j => let t := templateAt j.params 8; keyLen t.cls t.param + 12
    run := fun d j r =>
      let t := templateAt j.params 8
      let n := keyLen t.cls t.param
      let x := draftOf t 0x01 (withParity t.cls (r.take n))
      created d j x x.checkValue (r.drop n) [] }
/-- GENERATE_SYMMETRIC_KEY. -/
def execGenerateSymmetricKey (core : CoreRef) (s : State) : Host.Outcome State Fault Refusal :=
  runDev (execVerb 0x0101 generateVerb core) s

/-! ### Key blocks: 0x0102, 0x0103 (11 R392 to R394) -/

/-- A row of R392: usage codes, key classes, and modes of use with the usage bits they give. -/
structure HeaderRow where
  codes : List String
  classes : List Nat
  modes : List (Char × BitVec 16)
def headerRows : List HeaderRow :=
  [{ codes := ["B0"], classes := [0x05, 0x06], modes := [('N', 0x0100), ('X', 0x0100)] },
   { codes := ["B1"], classes := [0x05, 0x06], modes := [('N', 0x0040)] },
   { codes := ["C0"], classes := [0x01], modes := [('C', 0x2000), ('G', 0x2000), ('V', 0x2000)] },
   { codes := ["D0"], classes := [0x01, 0x02, 0x03], modes := [('E', 0x0001), ('D', 0x0002), ('B', 0x0003)] },
   { codes := ["E0"], classes := [0x01, 0x03], modes := [('X', 0x4000)] },
   { codes := ["K0"], classes := [0x01, 0x02, 0x03], modes := [('E', 0x0004), ('D', 0x0008), ('B', 0x000C)] },
   { codes := ["M1", "M3", "M6"], classes := [0x01, 0x02, 0x03], modes := [('G', 0x0010), ('V', 0x0020), ('C', 0x0030)] },
   { codes := ["P0"], classes := [0x01, 0x02, 0x03], modes := [('E', 0x0040), ('D', 0x0080), ('B', 0x00C0)] },
   { codes := ["V1", "V2"], classes := [0x01, 0x02, 0x03], modes := [('N', 0x0080), ('V', 0x0080)] }]
/-- The row and usage bits that a header's usage and mode map to. -/
def headerUse (b : Bytes) : Option (HeaderRow × BitVec 16) :=
  headerRows.findSome? (fun r =>
    if r.codes.any (fun c => c.toList = [charAt b 5, charAt b 6]) then
      (r.modes.find? (fun m => m.1 = charAt b 8)).map (fun m => (r, m.2))
    else none)
/-- AES by the algorithm of a header, for 'A' and 'T'. -/
def headerAes (b : Bytes) : Option Bool := if charAt b 7 = 'A' then some true else if charAt b 7 = 'T' then some false else none
def isAesClass (c : Nat) : Bool := c == 0x03 || c == 0x06
/-- The class that a row, an algorithm and a key length give. -/
def headerClass (r : HeaderRow) (aes : Bool) (len : Nat) : Option (Byte × Byte) :=
  let dukpt := r.classes.contains 0x05
  let want : Byte × Byte :=
    if dukpt then (if aes then 0x06 else 0x05, BitVec.ofNat 8 len)
    else if aes then (0x03, BitVec.ofNat 8 len) else (if len = 16 then 0x01 else 0x02, 0)
  let lenOk := len = 16 || len = 24 || (aes && len = 32)
  if lenOk && r.classes.contains want.1.toNat then some want else none
/-- Exportability of a header: E, S or N (11 R393). -/
def headerExport (b : Bytes) : Option Byte :=
  match charAt b 11 with
  | 'E' => some 0xC0
  | 'S' => some 0x80
  | 'N' => some 0x00
  | _ => none
/-- The header checks that need no key. -/
def headerCode (b : Bytes) : Code :=
  match headerUse b with
  | none => 0x0114
  | some (r, _) => firstCode [
      need (charAt b 0 = 'B' || charAt b 0 = 'D') 0x0114,
      need (match headerAes b with | some aes => r.classes.any (fun c => isAesClass c == aes) | none => false) 0x0114,
      need (headerExport b).isSome 0x0114,
      need (keyBlockOptionalOk b) 0x0114,
      need (!r.codes.contains "B1" || (keyBlockKsn b).isSome) 0x0114]
/-- A block whose length field does not give its length is refused as a length. -/
def blockLengthCode (b : Bytes) : Code := need (decide (16 ≤ b.length) && decimal b 1 4 == some b.length) 0x0109
/-- Version B goes with a TDES KBPK, version D with an AES KBPK. -/
def versionCode (b : Bytes) (kbpkAes : Bool) : Code := need (charAt b 0 = (if kbpkAes then 'D' else 'B')) 0x0114
/-- The key that a block holds, as a draft: 0x0207 when its MAC fails, 0x0114 when its length maps to no row. -/
def importDraft (b kbpk : Bytes) (t : Template) : Except Code KeyDraft :=
  match keyBlockUnwrap (charAt b 0 = 'D') kbpk b, headerUse b, headerAes b with
  | some key, some (r, bits), some aes =>
    match headerClass r aes key.length with
    | none => .error 0x0114
    | some (cls, param) =>
      let t := { t with cls := cls, param := param, usage := bits, exportBits := (headerExport b).getD 0 }
      if r.codes.contains "B1" then .ok (originatorDraft t aes 0x02 key ((keyBlockKsn b).getD []))
      else .ok (draftOf t 0x02 key)
  | none, _, _ => .error 0x0207
  | _, _, _ => .error 0x0114
def draftCode (d : Device) (j : Job) (x : Except Code KeyDraft) : Code :=
  match x with
  | .error c => c
  | .ok x => if x.journal.isSome then advancingCode d j.tenant x.fingerprint else 0
/-- The most bytes of material that a header can give. -/
def headerMaterial (b : Bytes) : Nat :=
  match headerUse b, headerAes b with
  | some (r, _), some aes => if r.codes.contains "B1" then 44 else if aes then 32 else 24
  | _, _ => 0
def importVerb : Verb :=
  { plainVerb with
    decode := fun _ j => firstCode [reserved j 4 4, reserved j 20 28, templateRsv j 8, blockLengthCode j.input, headerCode j.input]
    maxOut := fun _ j => 8 + blockLen (headerMaterial j.input)
    handles := fun _ j => [keyA j]
    inner := fun d j => rootRead j.tenant d
    checks := fun d j =>
      let k := keyCheck j.tenant (keyA j) (slotClass [1, 2, 3]) (some 3) d
      if k ≠ 0 then k else firstCode [
        versionCode j.input ((headOf (keyA j) d).keyClass == 0x03),
        draftCode d j (importDraft j.input (keyOf (keyA j) d) (templateAt j.params 8)), rootCode d j]
    draws := fun _ _ => 12
    run := fun d j r => match importDraft j.input (keyOf (keyA j) d) (templateAt j.params 8) with
      | .ok x => created d j x x.checkValue r [keyA j]
      | .error c => { code := c } }
/-- IMPORT_KEY_BLOCK. -/
def execImportKeyBlock (core : CoreRef) (s : State) : Host.Outcome State Fault Refusal :=
  runDev (execVerb 0x0102 importVerb core) s

/-- The rows that a key's class and usage map to. -/
def rowsOf (cls : Nat) (usage : BitVec 16) : List HeaderRow :=
  headerRows.filter (fun r => r.classes.contains cls && r.modes.any (fun m => m.2 == usage))
/-- Key bytes of a symmetric key, and its KBPK's. -/
def secretOf (h : BitVec 32) (d : Device) : Bytes := field (keyOf h d) 0 (keyLen (headOf h d).keyClass (headOf h d).keyParam)
/-- A KBPK weaker than the subject (11 R394). -/
def kbpkWeaker (kbpk subject : Slot) : Bool :=
  let aesSubject := subject.keyClass == 0x03 || subject.keyClass == 0x06
  if kbpk.keyClass == 0x03 then aesSubject && decide (kbpk.keyParam.toNat < subject.keyParam.toNat)
  else aesSubject || subject.keyClass == 0x04
def decimalBytes (len v : Nat) : Bytes := ((List.range len).map (fun i => BitVec.ofNat 8 (0x30 + v / 10 ^ (len - 1 - i) % 10)))
/-- The optional blocks of an exported originator: KS, and the padding block that completes a multiple of the cipher's
block size; and their number. -/
def optionalBlocks (aesKbpk : Bool) (s : Slot) (material : Bytes) : Bytes × Nat :=
  if isOriginator s.keyClass s.usage then
    let ks := hexBytes (originatorKsn (s.keyClass == 0x06) material)
    let ksLen := 4 + ks.length
    let first := ascii "KS".toList ++ hexBytes (leBytes 1 ksLen) ++ ks
    let unit := blockSize aesKbpk
    let rest := (unit - ksLen % unit) % unit
    let pad := if rest = 0 then 0 else if rest < 4 then rest + unit else rest
    if pad = 0 then (first, 1)
    else (first ++ ascii "PB".toList ++ hexBytes (leBytes 1 pad) ++ (List.range (pad - 4)).map Config.keyBlockFiller, 2)
  else ([], 0)
/-- Bytes of key data before encryption: a 2-byte length, the key, padding to the cipher's block size. -/
def paddedLen (aesKbpk : Bool) (n : Nat) : Nat := ceilDiv (2 + n) (blockSize aesKbpk) * blockSize aesKbpk
/-- Characters of an exported block. -/
def exportLen (aesKbpk : Bool) (s : Slot) : Nat :=
  16 + (optionalBlocks aesKbpk s []).1.length + 2 * paddedLen aesKbpk (keyLen s.keyClass s.keyParam) + 2 * blockSize aesKbpk
/-- The header of an exported block; a row with several codes or modes leaves the choice open. -/
def exportHeader (aesKbpk : Bool) (s : Slot) (r : HeaderRow) (material : Bytes) : Bytes :=
  let modes := r.modes.filter (fun m => m.2 == s.usage)
  let code := (r.codes[Config.keyBlockChoice % r.codes.length]?).getD ""
  let mode := match modes[Config.keyBlockChoice % modes.length]? with | some m => m.1 | none => 'N'
  let opt := optionalBlocks aesKbpk s material
  ascii [if aesKbpk then 'D' else 'B'] ++ decimalBytes 4 (exportLen aesKbpk s) ++ ascii code.toList ++
  ascii [if s.keyClass == 0x03 || s.keyClass == 0x06 then 'A' else 'T', mode] ++ ascii "00".toList ++
  ascii [if s.exportBits.getLsbD 6 then 'E' else if s.exportBits.getLsbD 7 then 'S' else 'N'] ++ decimalBytes 2 opt.2 ++
  ascii "00".toList ++ opt.1
/-- The block of a subject under a KBPK, with random padding. -/
def exportBlock (aesKbpk : Bool) (kbpk : Bytes) (h : BitVec 32) (pad : Bytes) (d : Device) : Bytes :=
  let s := headOf h d
  match rowsOf s.keyClass.toNat s.usage with
  | r :: _ =>
    let head := exportHeader aesKbpk s r (keyOf h d)
    head ++ fit (exportLen aesKbpk s - head.length) (keyBlockBody aesKbpk kbpk head (secretOf h d) pad)
  | [] => []
def padNeed (aesKbpk : Bool) (h : BitVec 32) (d : Device) : Nat :=
  let n := keyLen (headOf h d).keyClass (headOf h d).keyParam
  paddedLen aesKbpk n - 2 - n
/-- Both handles of a verb pass R74: the size of its answer tells nothing of a key that they do not name (03 R74). -/
def handlesServe (d : Device) (j : Job) : Bool :=
  decide (lookupCode j.tenant (keyA j) d = 0) && decide (lookupCode j.tenant (keyB j) d = 0)
def exportVerb : Verb :=
  { plainVerb with
    decode := fun _ j => reserved j 8 40
    maxOut := fun d j => if handlesServe d j then exportLen ((headOf (keyA j) d).keyClass == 0x03) (headOf (keyB j) d) else 0
    handles := fun _ j => [keyA j, keyB j]
    checks := fun d j =>
      let s := headOf (keyB j) d
      firstCode [keyCheck j.tenant (keyA j) (slotClass [1, 2, 3]) (some 2) d, keyCheck j.tenant (keyB j) anyClass none d,
        need (s.exportBits.getLsbD 7) 0x0411, need (decide ((rowsOf s.keyClass.toNat s.usage).length = 1)) 0x0411,
        need (!kbpkWeaker (headOf (keyA j) d) s) 0x0411]
    draws := fun d j => padNeed ((headOf (keyA j) d).keyClass == 0x03) (keyB j) d
    run := fun d j r =>
      { output := exportBlock ((headOf (keyA j) d).keyClass == 0x03) (secretOf (keyA j) d) (keyB j) r d
        intents := usesOf [keyA j, keyB j] } }
/-- EXPORT_KEY_BLOCK. -/
def execExportKeyBlock (core : CoreRef) (s : State) : Host.Outcome State Fault Refusal :=
  runDev (execVerb 0x0103 exportVerb core) s

/-! ### 0x0104: restore (11 R387, R388, R415) -/

/-- Classes that a record may carry, other than None and Tenant root (03 R77). -/
def restorable (cls : Nat) : Bool :=
  [0x01, 0x02, 0x03, 0x04, 0x05, 0x06, 0x10, 0x11, 0x18, 0x19, 0x1A, 0x1B, 0x20, 0x21, 0x28, 0x29, 0x30, 0x31].contains cls
/-- The next index or counter value of a restored key is its ceiling: an originator holds the value before it. -/
def resumedMaterial (s : Slot) (material : Bytes) (ceiling : Nat) : Bytes :=
  if isOriginator s.keyClass s.usage then
    let aes := s.keyClass == 0x06
    originatorMaterial (field material 0 s.keyParam.toNat)
      (setCounter aes (originatorKsn aes material) (min (ceiling - 1) (if aes then 2 ^ 32 - 1 else 2 ^ 21 - 1)))
  else material
/-- The draft of a block. -/
def restoreDraft (d : Device) (j : Job) (material : Bytes) : KeyDraft :=
  let s := blockSlot j.input
  let x : KeyDraft :=
    { keyClass := s.keyClass, keyParam := s.keyParam, usage := s.usage, exportBits := s.exportBits, origin := s.origin
      policySet := s.policySet, usageLimit := s.usageLimit, seedForm := s.seedForm, material := material
      checkValue := storedCheck s.keyClass s.keyParam material, fingerprint := s.fingerprint, restored := true }
  match advancingType s.keyClass s.usage with
  | none => x
  | some ty =>
    let c := (durableCeiling d j.tenant s.fingerprint).getD 0
    { x with material := resumedMaterial s material c, index := BitVec.ofNat 161 c
             journal := some (ty, ceilingCap s.keyClass s.keyParam (c + 1024)) }
/-- The draft, under the root of its block: while a sweep is open the block may name the previous root (03 R117, R386). -/
def restoredKey (d : Device) (j : Job) (material : Bytes) : KeyDraft :=
  { restoreDraft d j material with root := some (byteAt j.input 2, byteAt j.input 3) }
/-- A key with advancing state: not resident, and with a record (11 R388). -/
def restoreState (d : Device) (j : Job) : Code :=
  let s := blockSlot j.input
  if (advancingType s.keyClass s.usage).isSome then
    need (!residentFp j.tenant s.fingerprint d.keys && (durableCeiling d j.tenant s.fingerprint).isSome) 0x0208
  else 0
/-- The key of a block has the length, the key_param and the form that its class permits (03 R82; 06 R235, R236). -/
def restoredForm (t : Nat) (b : Bytes) (d : Device) : Bool :=
  let s := blockSlot b
  let cls := s.keyClass.toNat
  match openBlock t b d with
  | some m => decide (m.length = materialLen cls s.keyParam.toNat (isOriginator s.keyClass s.usage)) &&
      (if cls < 0x10 then symmetricParam s.keyClass s.keyParam else paramOk cls s.keyParam.toNat && formOk cls s.keyParam.toNat m)
  | none => true
def restoreVerb : Verb :=
  { plainVerb with
    decode := fun _ j => firstCode [reserved j 0 48,
      need (!(decide (64 ≤ j.input.length) && decide (num j.input 0 2 = 1)) || byteAt j.input 2 == 0x01 || byteAt j.input 2 == 0x02) 0x0110]
    maxOut := fun _ _ => 8
    inner := fun d j => rootRead j.tenant d
    checks := fun d j => firstCode [rootCode d j,
      need (openBlock j.tenant j.input d).isSome 0x0207,
      need (restorable (blockSlot j.input).keyClass.toNat) 0x0203,
      need (restoredForm j.tenant j.input d) 0x0203, restoreState d j]
    run := fun d j _ => match openBlock j.tenant j.input d with
      | some m =>
        let x := restoredKey d j m
        { output := x.checkValue, intents := [.create x] }
      | none => { code := 0x0207 } }
/-- RESTORE_PERSISTENCE_BLOCK. -/
def execRestorePersistenceBlock (core : CoreRef) (s : State) : Host.Outcome State Fault Refusal :=
  runDev (execVerb 0x0104 restoreVerb core) s

/-! ### 0x0105, 0x010F, 0x0111: one subject -/

/-- A slot in the fault map, or with a tag that fails, ends this verb with 0x0504 as it ends every lookup; only a purge or a start frees
it (DESIGN CHOICE: 03 R99 says only "until the slot is deleted"; log entry 45). -/
def deleteVerb : Verb :=
  { plainVerb with
    decode := fun _ j => firstCode [reserved j 4 44]
    handles := fun _ j => [keyA j]
    checks := fun d j => subjectOk j.tenant (keyA j) d
    run := fun _ j _ => { intents := [.delete (handleSlot (keyA j)) (handleGen (keyA j))] } }
/-- DELETE_KEY. -/
def execDeleteKey (core : CoreRef) (s : State) : Host.Outcome State Fault Refusal :=
  runDev (execVerb 0x0105 deleteVerb core) s
/-- Method 0x01 suspends, 0x02 resumes (the specification names none: DESIGN CHOICE). -/
def suspendVerb : Verb :=
  { plainVerb with
    decode := fun _ j => firstCode [reserved j 4 17, reserved j 22 26, need (parByte j 21 == 1 || parByte j 21 == 2) 0x0110]
    handles := fun _ j => [keyA j]
    checks := fun d j => subjectOk j.tenant (keyA j) d
    run := fun _ j _ => { intents := [.suspend (handleSlot (keyA j)) (handleGen (keyA j)) (parByte j 21 == 1)] } }
/-- SUSPEND_OR_RESUME_KEY. -/
def execSuspendOrResumeKey (core : CoreRef) (s : State) : Host.Outcome State Fault Refusal :=
  runDev (execVerb 0x010F suspendVerb core) s
/-- What 0x0111 reports on: the clear fields of the head record, bytes 64 to 111 (03 R75, R76). -/
def infoBytes (h : BitVec 32) (d : Device) : Bytes := (recordBytes (headOf h d)).drop 64
def infoVerb : Verb :=
  { plainVerb with
    decode := fun _ j => reserved j 4 44
    maxOut := fun d j => if lookupCode j.tenant (keyA j) d = 0 then (Config.keyInformation (infoBytes (keyA j) d)).length else 0
    handles := fun _ j => [keyA j]
    checks := fun d j => subjectOk j.tenant (keyA j) d
    run := fun d j _ => { output := Config.keyInformation (infoBytes (keyA j) d) } }
/-- KEY_INFORMATION. -/
def execKeyInformation (core : CoreRef) (s : State) : Host.Outcome State Fault Refusal :=
  runDev (execVerb 0x0111 infoVerb core) s

/-! ### Components under dual control: 0x0106 to 0x0108 (11 R396 to R399; 16 R567 to R569) -/

/-- A verb that asks the custody partition: Decode, the gate, its checks, then what the partition does; what it commits is written at
the Retire (04 R141). -/
def componentRow (op : BitVec 16) (decode : Job → Code) (maxOut : Device → Job → Nat) (checks : Device → Job → Code)
    (act : Nat → Job → Device → Device) (core : CoreRef) (d : Device) : Device :=
  doWith (verbJob op core d) (fun j d =>
    let b := (lead core d).bench
    let early := firstCode [decode j, need (decide (maxOut d j ≤ outRoom d j)) 0x0118, gateCode d j, checks d j]
    if early ≠ 0 then stage b j.id { code := early, checked := true } d else act b j d) d
def beginChecks (d : Device) (j : Job) : Code :=
  firstCode [need (symmetricTemplate [1, 2, 3, 4, 5, 6] (templateAt j.params 8)) 0x0203, need (mayBegin j.tenant d) 0x0409]
/-- Ask for a session: it opens, with its number, at the Retire. -/
def askSession (b : Nat) (j : Job) (d : Device) : Device :=
  stage b j.id { intents := [.beginSession (field j.params 8 12) (par j 23 1)] } d
/-- COMPONENT_SESSION_BEGIN, 0x0106. -/
def execComponentSessionBegin (core : CoreRef) (s : State) : Host.Outcome State Fault Refusal :=
  runDev (componentRow 0x0106 (fun j => firstCode [reserved j 0 8, reserved j 20 3, reserved j 24 24, templateRsv j 8,
    need (parByte j 23 == 2 || parByte j 23 == 3) 0x0110]) (fun _ _ => 0) beginChecks askSession core) s

/-- The live session that a verb names for its tenant. -/
def sessionNamed (d : Device) (j : Job) : Option CompSession :=
  (liveSessionsOf d).find? (fun x => decide (x.tenant = j.tenant) && decide (x.number.toNat = par j 24 4))
/-- A component after the identity of its card has been read. -/
def addComponent (b : Nat) (j : Job) (portB : Bool) (x : CompSession) (reply : CardReply) (d : Device) : Device :=
  let key := fit 65 reply.publicKey
  let t := templateAt x.template 0
  if !enrolled d key then stage b j.id { code := 0x040E } d
  else if x.custodians.contains key then stage b j.id { code := 0x0409 } d
  else
    let d := forDraw 8 32 d
    let challenge := drawn 8 32 d
    let d := spend 8 32 d
    let digest := cardDigest d x.number 0x80 x.template challenge
    let d := sendCard portB 0x20 digest d
    if !cardSigned reply digest then stage b j.id { code := 0x040E } d
    else
      let d := forDraw 8 32 d
      let scalar := beNat (drawn 8 32 d)
      let root := slotOf j.tenant d.keys
      let ctx := cardContext x.number j.tenant root.suite root.rootVersion t.cls
      let d := sendCard portB 0x30 (uncompressed (curvePublic 0x01 scalar []) ++ ctx) (spend 8 32 d)
      match openComponent scalar reply ctx (keyLen t.cls t.param) with
      | some c => stage b j.id { output := storedCheck t.cls t.param c, intents := [.addComponent x.number key c] } d
      | none => stage b j.id { code := 0x040B } d
def exchangeAdd (reply : CardReply) (b : Nat) (j : Job) (d : Device) : Device :=
  let portB := decide (par j 28 1 = 1)
  match sessionNamed d j with
  | none => stage b j.id { code := 0x0409 } d
  | some x =>
    if !portServes portB j d then stage b j.id { code := 0x040B } d
    else
      let d := readIdentity portB reply d
      if reply.status ≠ 0x9000 then stage b j.id { code := 0x040B } (portFault portB 3 d)
      else if !d.gather.service then dispatchAll (squashJob j.id 0x0508 d)
      else addComponent b j portB x reply d
/-- COMPONENT_ADD, 0x0107. -/
def execComponentAdd (core : CoreRef) (reply : CardReply) (s : State) : Host.Outcome State Fault Refusal :=
  runDev (componentRow 0x0107 (fun j => firstCode [reserved j 0 24, reserved j 29 19, need (decide (par j 28 1 < 2)) 0x0110])
    (fun _ _ => 8) (fun _ _ => 0) (exchangeAdd reply) core) s

/-- The key that a session's components form. -/
def sessionDraft (x : CompSession) : KeyDraft :=
  let t := templateAt x.template 0
  let n := keyLen t.cls t.param
  draftOf t 0x03 (withParity t.cls (x.components.foldl bytesXor (List.replicate n 0)))
def completeVerb : Verb :=
  { plainVerb with
    decode := fun _ j => firstCode [reserved j 0 24, reserved j 28 20]
    maxOut := fun d j => match sessionNamed d j with
      | some x => 8 + blockLen (keyLen (byteAt x.template 0) (byteAt x.template 1))
      | none => 0
    inner := fun d j => rootRead j.tenant d
    checks := fun d j => firstCode [
      need (match sessionNamed d j with | some x => decide (x.components.length = x.count) | none => false) 0x0409, rootCode d j]
    draws := fun _ _ => 12
    run := fun d j r => match sessionNamed d j with
      | some x =>
        let st := created d j (sessionDraft x) (sessionDraft x).checkValue r []
        { st with intents := st.intents ++ [.endSession x.number] }
      | none => { code := 0x0409 } }
/-- COMPONENT_COMPLETE, 0x0108. -/
def execComponentComplete (core : CoreRef) (s : State) : Host.Outcome State Fault Refusal :=
  runDev (execVerb 0x0108 completeVerb core) s

/-! ### 0x0109: derive (11 R400, 00 R735) -/

/-- SP 800-108 counter mode under an AES key, with Label, 0x00 and context given as one string. -/
def kdfInput (key fixed : Bytes) (len : Nat) : Bytes :=
  ((List.range (ceilDiv len 16)).flatMap (fun i =>
    bvBytes 16 (aesCmac key (beBytes 4 (i + 1) ++ fixed ++ beBytes 4 (8 * len))))).take len
/-- The initial key of an originator: double-length for TDES, of the base key's length for AES (10 R352). -/
def initialKey (aes : Bool) (base ksn : Bytes) : Bytes :=
  dukptInitial aes base (setCounter aes ksn 0)
/-- The draft of a method. -/
def deriveDraft (d : Device) (j : Job) : KeyDraft :=
  let t := templateAt j.params 8
  let s := headOf (keyA j) d
  if parByte j 21 = 0x01 then
    draftOf t 0x04 (withParity t.cls (kdfInput (secretOf (keyA j) d) j.input (keyLen t.cls t.param)))
  else
    let aes := s.keyClass == 0x06
    originatorDraft t aes 0x04 (initialKey aes (secretOf (keyA j) d) j.input) j.input
def deriveChecks (d : Device) (j : Job) : Code :=
  let t := templateAt j.params 8
  let s := headOf (keyA j) d
  let one := parByte j 21 == 0x01
  let k := keyCheck j.tenant (keyA j) (fun s => if one then slotClass [3] s else slotClass [5, 6] s && isBaseKey s.keyClass s.usage) (some 8) d
  if k ≠ 0 then k
  else firstCode [
    need (one || decide (j.input.length = ksnLen (s.keyClass == 0x06))) 0x0109,
    need (if one then symmetricTemplate [1, 2, 3, 4] t
          else t.usage == 0x0040 && t.cls == (deriveDraft d j).keyClass && t.param == (deriveDraft d j).keyParam) 0x0203,
    if one then 0 else advancingCode d j.tenant (deriveDraft d j).fingerprint, rootCode d j]
def deriveVerb : Verb :=
  { plainVerb with
    decode := fun _ j => firstCode [reserved j 4 4, reserved j 20 1, reserved j 22 26, templateRsv j 8,
      need (parByte j 21 == 0x01 || parByte j 21 == 0x02) 0x0110,
      need (if parByte j 21 = 0x01 then decide (1 ≤ j.input.length ∧ j.input.length ≤ 64)
            else decide (j.input.length = 10 ∨ j.input.length = 12)) 0x0109]
    maxOut := fun _ j =>
      let t := templateAt j.params 8
      8 + blockLen (if parByte j 21 = 0x01 then keyLen t.cls t.param else 44)
    handles := fun _ j => [keyA j]
    inner := fun d j => rootRead j.tenant d
    checks := deriveChecks
    draws := fun _ _ => 12
    run := fun d j r => let x := deriveDraft d j; created d j x x.checkValue r [keyA j] }
/-- DERIVE_KEY. -/
def execDeriveKey (core : CoreRef) (s : State) : Host.Outcome State Fault Refusal :=
  runDev (execVerb 0x0109 deriveVerb core) s

/-! ### 0x010A, 0x010B: public-key wrapping (11 R395) -/

/-- A recipient: an ML-KEM encapsulation key of rank 3 or 4, or an RSA public key of 2,048 bits or more. -/
def recipientClass (s : Slot) : Bool :=
  (s.keyClass == 0x21 && (s.keyParam == 3 || s.keyParam == 4)) || (s.keyClass == 0x11 && decide (8 ≤ s.keyParam.toNat))
def unwrapClass (s : Slot) : Bool :=
  (s.keyClass == 0x20 && (s.keyParam == 3 || s.keyParam == 4)) || (s.keyClass == 0x10 && decide (8 ≤ s.keyParam.toNat))
def kemCiphertextLen (rank : Nat) : Nat := if rank = 2 then 768 else if rank = 3 then 1088 else 1568
/-- Bytes of the ciphertext before the key block. -/
def wrapLen (s : Slot) : Nat := if s.keyClass == 0x21 || s.keyClass == 0x20 then kemCiphertextLen s.keyParam.toNat else rsaModBytes s.keyParam.toNat
/-- RSA-OAEP with SHA-256 and an empty label (11 R406). -/
def oaepPoint (s : Slot) (message seed : Bytes) : Nat := rsaEncode 0x03 0x22 s.keyParam.toNat message seed
/-- The ciphertext to a recipient and the KBPK, from a draw: 32 bytes of encapsulation randomness, or a KBPK and a seed. -/
def wrapTo (sch : Schedule) (s : Slot) (key r : Bytes) : Bytes × Bytes :=
  if s.keyClass == 0x21 then
    (fit (kemCiphertextLen s.keyParam.toNat) (mlKemCiphertext sch s.keyParam key (r.take 32)),
     fit 32 (mlKemKeyOf s.keyParam key (r.take 32)))
  else
    let kbpk := r.take 32
    (beBytes (rsaModBytes s.keyParam.toNat) (rsaPublicOp s.keyParam.toNat key (oaepPoint s kbpk (field r 32 32))), kbpk)
/-- Bytes of the values of one pass of a wrapping: those of ML-KEM's polynomials; RSA encryption has none (06 R212; log entry 81). -/
def wrapBlind (s : Slot) : Nat := if s.keyClass == 0x21 then passBytes * kemEncryptPasses (kemSet s.keyParam) else 0
/-- Validation class 1 of the representative that RSA wraps (06 R217, R220). -/
def wrapValidation (d : Device) (j : Job) (r : Bytes) : Code :=
  let s := headOf (keyA j) d
  if s.keyClass == 0x21 then 0
  else validate j.tenant 1 [.integer (oaepPoint s (r.take 32) (field r 32 32)) (rsaPublicModulus s.keyParam.toNat (keyOf (keyA j) d))] d
def wrapVerb : Verb :=
  { plainVerb with
    decode := fun _ j => reserved j 8 40
    maxOut := fun d j => if handlesServe d j then wrapLen (headOf (keyA j) d) + exportLen true (headOf (keyB j) d) else 0
    handles := fun _ j => [keyA j, keyB j]
    checks := fun d j =>
      let s := headOf (keyB j) d
      firstCode [keyCheck j.tenant (keyA j) recipientClass (some 2) d, keyCheck j.tenant (keyB j) anyClass none d,
        need (s.exportBits.getLsbD 6) 0x0411, need (decide ((rowsOf s.keyClass.toNat s.usage).length = 1)) 0x0411]
    draws := fun d j => 64 + padNeed true (keyB j) d + 2 * wrapBlind (headOf (keyA j) d)
    early := fun d j => if (headOf (keyA j) d).keyClass == 0x21 then 0 else 64
    late := wrapValidation
    steps := fixedSteps
    run := fun d j r =>
      let s := headOf (keyA j) d
      let n := padNeed true (keyB j) d
      let w := wrapTo (scheduleOf j (field r (64 + n) (wrapBlind s))) s (keyOf (keyA j) d) r
      { output := w.1 ++ exportBlock true w.2 (keyB j) (field r 64 n) d, intents := usesOf [keyA j, keyB j] } }
/-- EXPORT_UNDER_PUBLIC_KEY. -/
def execExportUnderPublicKey (core : CoreRef) (s : State) : Host.Outcome State Fault Refusal :=
  runDev (execVerb 0x010A wrapVerb core) s
/-- ML-KEM decapsulation: K', or the implicit-rejection key (07 R265, R266). -/
def kemDecaps (sch : Schedule) (param : Byte) (seed c : Bytes) : Bytes := fit 32 (mlKemDecaps sch param seed c)
/-- The KBPK that a ciphertext carries. -/
def unwrapKbpk (sch : Schedule) (s : Slot) (key c : Bytes) : Option Bytes :=
  if s.keyClass == 0x20 then some (kemDecaps sch s.keyParam key c)
  else match rsaDecode s.keyParam.toNat (rsaPrivateOp s.keyParam.toNat key sch.draw (beNat c)) with
    | some k => if k.length = 32 then some k else none
    | none => none
/-- Bytes of the blinding values of one pass of an unwrapping. -/
def unwrapBlind (s : Slot) : Nat := if s.keyClass == 0x20 then passBytes * kemDecapsPasses (kemSet s.keyParam) else rsaBlindBytes s.keyParam.toNat
/-- The imported key; a ciphertext that yields no KBPK fails authentication. -/
def unwrapDraft (d : Device) (j : Job) (blind : Bytes) : Except Code KeyDraft :=
  let s := headOf (keyA j) d
  let n := wrapLen s
  match unwrapKbpk (scheduleOf j blind) s (keyOf (keyA j) d) (j.input.take n) with
  | some k => importDraft (j.input.drop n) k (templateAt j.params 8)
  | none => .error 0x0207
/-- Validation of an RSA ciphertext (06 R217, class 0). -/
def unwrapValidation (d : Device) (j : Job) : Code :=
  let s := headOf (keyA j) d
  if s.keyClass == 0x10 then
    validate j.tenant 0 [.integer (beNat (j.input.take (wrapLen s))) (rsaModulus s.keyParam.toNat (keyOf (keyA j) d))] d
  else 0
def unwrapVerb : Verb :=
  { plainVerb with
    decode := fun _ j => firstCode [reserved j 4 4, reserved j 20 28, templateRsv j 8]
    maxOut := fun _ _ => 8 + blockLen 44
    handles := fun _ j => [keyA j]
    inner := fun d j => rootRead j.tenant d
    checks := fun d j =>
      let k := keyCheck j.tenant (keyA j) unwrapClass (some 3) d
      if k ≠ 0 then k
      else
        let block := j.input.drop (wrapLen (headOf (keyA j) d))
        let head := firstCode [blockLengthCode block, headerCode block, versionCode block true]
        let v := unwrapValidation d j
        if head ≠ 0 then head
        else if v ≠ 0 then v
        else rootCode d j
    draws := fun d j => 2 * unwrapBlind (headOf (keyA j) d) + 12
    steps := fixedSteps
    run := fun d j r => match unwrapDraft d j (r.take (unwrapBlind (headOf (keyA j) d))) with
      | .ok x =>
        let code := draftCode d j (.ok x)
        if code ≠ 0 then { code := code } else created d j x x.checkValue (r.drop (2 * unwrapBlind (headOf (keyA j) d))) [keyA j]
      | .error c => { code := c } }
/-- IMPORT_UNDER_PRIVATE_KEY. -/
def execImportUnderPrivateKey (core : CoreRef) (s : State) : Host.Outcome State Fault Refusal :=
  runDev (execVerb 0x010B unwrapVerb core) s

/-! ### Root rotation, re-wrap, purge: 0x010C, 0x010D, 0x010E, 0x0110 (11 R391, R401 to R403; 04 R166) -/

/-- Only tenant 0 names another tenant (11 R391). -/
def targetCode (j : Job) : Code := need (decide (j.tenant = 0 ∨ par j 20 1 = j.tenant)) 0x0401
def targetRoot (d : Device) (j : Job) : Code := need (hasRoot (par j 20 1) d) 0x040C
def rotateVerb : Verb :=
  { plainVerb with
    decode := fun _ j => firstCode [reserved j 0 20, reserved j 21 1, reserved j 23 25,
      need (parByte j 22 == 0x01 || parByte j 22 == 0x02) 0x0110]
    checks := fun d j => firstCode [targetCode j, targetRoot d j,
      need (mayOpenRotation (par j 20 1) d || mayRestartSweep (par j 20 1) (parByte j 22) d) 0x0410]
    draws := fun d j => if mayOpenRotation (par j 20 1) d then 32 else 0
    run := fun d j r =>
      { intents := [if mayOpenRotation (par j 20 1) d then .openRotation (par j 20 1) (parByte j 22) r else .restartSweep (par j 20 1)] } }
/-- OPEN_ROOT_ROTATION. -/
def execOpenRootRotation (core : CoreRef) (s : State) : Host.Outcome State Fault Refusal :=
  runDev (execVerb 0x010C rotateVerb core) s
def closeVerb : Verb :=
  { plainVerb with
    decode := fun _ j => firstCode [reserved j 0 20, reserved j 21 27]
    checks := fun d j => firstCode [targetCode j, targetRoot d j, need (sweepDone (par j 20 1) d.keys) 0x0410]
    run := fun _ j _ => { intents := [.closeRotation (par j 20 1)] } }
/-- CLOSE_ROOT_ROTATION. -/
def execCloseRootRotation (core : CoreRef) (s : State) : Host.Outcome State Fault Refusal :=
  runDev (execVerb 0x010D closeVerb core) s

/-- The length of the block at the head of a string, by its class, parameter and usage. -/
def blockAt (b : Bytes) : Nat :=
  blockLen (materialLen (num b 5 1) (num b 6 1) (isOriginator (byteAt b 5) (BitVec.ofNat 16 (num b 10 2))))
/-- Cut the input into its blocks. -/
def blocksGo : Nat → Bytes → List Bytes
  | 0, _ => []
  | n + 1, b => b.take (blockAt b) :: blocksGo n (b.drop (blockAt b))
def rewrapBlocks (j : Job) : List Bytes := blocksGo (par j 24 2) j.input
/-- One block under the current root and the target suite, or itself marked as failed. -/
def rewrapOne (d : Device) (t : Nat) (suite : Byte) (b nonce : Bytes) : Bytes × Bool :=
  match openBlock t b d with
  | some m =>
    let r := currentRoot t d
    (makeBlock suite r.2.1 r.2.2 t (blockSlot b) m nonce, true)
  | none => ([0xFF, 0xFF] ++ b.drop 2, false)
/-- The blocks of the present step, at most 32, each with its nonce. -/
def rewrapStep (d : Device) (j : Job) (r : Bytes) : Staged :=
  let bs := ((rewrapBlocks j).drop (32 * j.step)).take 32
  let outs := (List.range bs.length).map (fun i => rewrapOne d j.tenant (parByte j 22) ((bs[i]?).getD []) (field r (12 * i) 12))
  let here := outs.flatMap (·.1)
  let more := decide (32 * (j.step + 1) < par j 24 2)
  { output := if more then here else j.saved ++ here, progress := (outs.filter (·.2)).length, more := more }
def rewrapVerb : Verb :=
  { plainVerb with
    decode := fun _ j => firstCode [reserved j 0 22, reserved j 23 1, reserved j 26 22,
      need (parByte j 22 == 0x01 || parByte j 22 == 0x02) 0x0110, need (decide (1 ≤ par j 24 2 ∧ par j 24 2 ≤ 4096)) 0x0110,
      need (decide ((rewrapBlocks j).flatten = j.input) && (rewrapBlocks j).all (fun b => decide (64 ≤ b.length ∧ b.length = blockAt b))) 0x0109]
    maxOut := fun _ j => j.input.length
    inner := fun d j => rootRead j.tenant d
    checks := fun d j => rootCode d j
    draws := fun _ j => 12 * min 32 (par j 24 2 - 32 * j.step)
    run := rewrapStep }
/-- MASS_REWRAP. -/
def execMassRewrap (core : CoreRef) (s : State) : Host.Outcome State Fault Refusal :=
  runDev (execVerb 0x010E rewrapVerb core) s
def purgeVerb : Verb :=
  { plainVerb with
    decode := fun _ j => firstCode [reserved j 0 20, reserved j 21 27]
    run := fun d j _ => { intents := [.purge (par j 20 1)], more := decide (64 < (headsOf (par j 20 1) d.keys).length) } }
/-- PURGE_TENANT. -/
def execPurgeTenant (core : CoreRef) (s : State) : Host.Outcome State Fault Refusal :=
  runDev (execVerb 0x0110 purgeVerb core) s

end Sys2Proof.Machine
end

