-- ==== Sys2Proof/Machine/PinVerbs.lean ====
section
/-! DEFINITION. The PIN verbs 0x0201 to 0x0207 (10 R331 to R364, R379). -/

namespace Sys2Proof.Machine

/-! ### PANs (10 R332, R333) -/

/-- The digits of a PAN field: 12 to 19 decimal digits, followed by 0xF nibbles only. -/
def panDigits (b : Bytes) : Option (List Nat) :=
  let ns := nibbles b
  let digits := ns.takeWhile (fun n => decide (n < 10))
  let rest := ns.drop digits.length
  if 12 ≤ digits.length ∧ digits.length ≤ 19 ∧ rest.all (fun n => n == 15) then some digits else none
/-- The last k of a list, with zeros on the left where it is shorter. -/
def rightmost (k : Nat) (xs : List Nat) : List Nat :=
  let ys := List.replicate k 0 ++ xs
  ys.drop (ys.length - k)
/-- The rightmost digits of a PAN, its check digit excluded (10 R343, R359, R364). -/
def panTail (k : Nat) (pan : List Nat) : List Nat := rightmost k pan.dropLast

/-! ### PIN blocks (10 R342 to R346) -/

/-- A format code of R342. -/
def isFormat (f : Nat) : Bool := f == 0 || f == 1 || f == 3 || f == 4
/-- Format 4 goes with AES keys, formats 0, 1 and 3 with TDES keys (10 R342). -/
def formatFits (f : Nat) (s : Slot) : Bool := decide (f = 4) == isAesClass s.keyClass.toNat
/-- The bit of a format in formats_in and formats_out (15 R531). -/
def formatBit (f : Nat) : Nat := if f = 3 then 2 else if f = 4 then 3 else f
def blockBytes (f : Nat) : Nat := if f = 4 then 16 else 8
/-- The PAN field of a format (10 R343); format 1 has none. -/
def panField (f : Nat) (pan : List Nat) : Bytes :=
  if f = 1 then List.replicate 8 0
  else if f = 4 then packNibbles (((pan.length - 12) :: pan ++ List.replicate 32 0).take 32)
  else packNibbles ([0, 0, 0, 0] ++ panTail 12 pan)
/-- One fill nibble: fixed, or taken from a random one (10 R343). The mapping of a draw to 0xA to 0xF is a DESIGN CHOICE. -/
def fillNibble (f r : Nat) : Nat := if f = 0 then 15 else if f = 1 then r else if f = 3 then 10 + r % 6 else 10
/-- The PIN field of a format, with its fill (10 R343). -/
def pinField (f : Nat) (pin : List Nat) (r : Bytes) : Bytes :=
  let rs := nibbles r
  let fill := (List.range (14 - pin.length)).map (fun i => fillNibble f ((rs[i + pin.length + 2]?).getD 0))
  packNibbles ([f, pin.length] ++ pin ++ fill) ++ (if f = 4 then field r 8 8 else [])
/-- Encipher a PIN field, and decipher a PIN block (10 R343). -/
def pinEncipher (f : Nat) (key : Bytes) (pan : List Nat) (x : Bytes) : Bytes :=
  if f = 4 then aesEnc key (bytesXor (aesEnc key x) (panField 4 pan)) else tdesEnc key (bytesXor x (panField f pan))
def pinDecipher (f : Nat) (key : Bytes) (pan : List Nat) (b : Bytes) : Bytes :=
  if f = 4 then aesDec key (bytesXor (aesDec key b) (panField 4 pan)) else bytesXor (tdesDec key b) (panField f pan)
/-- What a fill nibble must be (10 R344). -/
def fillOk (f n : Nat) : Bool := if f = 0 then n == 15 else if f = 1 then true else if f = 3 then decide (10 ≤ n) else n == 10
/-- The conditions of R344 on a PIN field. -/
def pinValid (f minLen : Nat) (x : Bytes) : Bool :=
  let ns := nibbles (x.take 8)
  let n := (ns[1]?).getD 0
  let digits := (ns.drop 2).take n
  ns[0]? == some f && decide (4 ≤ n ∧ n ≤ 12) && decide (minLen ≤ n) &&
  digits.all (fun v => decide (v < 10)) && (ns.drop (2 + n)).all (fillOk f)
/-- The PIN digits of a field; they mean something only where R344 holds. -/
def pinDigits (x : Bytes) : List Nat :=
  let ns := nibbles (x.take 8)
  (ns.drop 2).take ((ns[1]?).getD 0)

/-! ### The parameter block (10 R348) and policy sets (10 R341) -/

def fmtIn (j : Job) : Nat := (parByte j 8).toNat
def fmtOut (j : Job) : Nat := (parByte j 9).toNat
def panOf (j : Job) : Option (List Nat) := panDigits (field j.params 10 10)
def pan (j : Job) : List Nat := (panOf j).getD []
def pinBlock (j : Job) : Bytes := field j.params 32 (blockBytes (fmtIn j))
/-- The policy set of a key: set 0 and a set without a record give the defaults (15 R532). -/
def policyFor (s : Slot) (d : Device) : Policy :=
  if s.policySet = 0 then {} else tabGetD s.policySet.toNat {} (tenantOf s.tenant d).policies
def policyA (j : Job) (d : Device) : Policy := policyFor (headOf (keyA j) d) d
def policyB (j : Job) (d : Device) : Policy := policyFor (headOf (keyB j) d) d
/-- The format and PAN checks of a PIN verb; `reads` when the verb itself reads the PAN. -/
def pinDecode (translate reads : Bool) (j : Job) : Code :=
  let none1 := decide (fmtIn j = 1) && (!translate || decide (fmtOut j = 1)) && !reads
  firstCode [need (isFormat (fmtIn j)) 0x0110,
    if translate then need (isFormat (fmtOut j)) 0x0110 else reserved j 9 1,
    if fmtIn j = 4 then 0 else reserved j 40 8,
    if none1 then reserved j 10 10 else need (panOf j).isSome 0x0111]
def noInput (j : Job) : Code := need j.input.isEmpty 0x0109
def formatIn (j : Job) (d : Device) : Bool := (policyA j d).formatsIn.getLsbD (formatBit (fmtIn j))
/-- The incoming field under a key. -/
def incoming (j : Job) (key : Bytes) : Bytes := pinDecipher (fmtIn j) key (pan j) (pinBlock j)
def incomingOk (j : Job) (key : Bytes) (d : Device) : Bool := pinValid (fmtIn j) (policyA j d).minPinLen (incoming j key)

/-! ### Translations: 0x0201, 0x0202, 0x0207 (10 R350, R351) -/

/-- The refusals of a translation by the policy sets, in the order of R338. -/
def translateCode (j : Job) (d : Device) : Code :=
  let o := policyB j d
  firstCode [
    need (!(decide (fmtIn j = 4) && decide (fmtOut j ≠ 4)) || o.allowDowngrade) 0x0403,
    need (!(decide (fmtIn j ≠ 1) && decide (fmtOut j = 1)) || o.allowUnbind) 0x0403,
    need (formatIn j d && o.formatsOut.getLsbD (formatBit (fmtOut j))) 0x0404]
/-- Random bytes of the fill: a draw for every output block (10 R347). -/
def fillDraw (j : Job) : Nat := blockBytes (fmtOut j)
/-- The outgoing block under a key. -/
def outgoing (j : Job) (inKey outKey r : Bytes) : Bytes :=
  pinEncipher (fmtOut j) outKey (pan j) (pinField (fmtOut j) (pinDigits (incoming j inKey)) r)
/-- A zone key of a PIN verb, of the kind that a format asks. -/
def zoneKey (f : Nat) (s : Slot) : Bool := slotClass [1, 2, 3] s && formatFits f s

def zoneVerb : Verb :=
  { plainVerb with
    decode := fun _ j => firstCode [reserved j 20 12, pinDecode true false j, noInput j]
    maxOut := fun _ j => blockBytes (fmtOut j)
    handles := fun _ j => [keyA j, keyB j]
    checks := fun d j => firstCode [keyCheck j.tenant (keyA j) (zoneKey (fmtIn j)) (some 7) d,
      keyCheck j.tenant (keyB j) (zoneKey (fmtOut j)) (some 6) d, translateCode j d,
      need (incomingOk j (secretOf (keyA j) d) d) 0x0306]
    draws := fun _ j => fillDraw j
    run := fun d j r =>
      { output := outgoing j (secretOf (keyA j) d) (secretOf (keyB j) d) r, intents := usesOf [keyA j, keyB j] } }
/-- PIN_TRANSLATE_ZONE_TO_ZONE, 0x0201. -/
def execPinTranslateZoneToZone (core : CoreRef) (s : State) : Host.Outcome State Fault Refusal :=
  runDev (execVerb 0x0201 zoneVerb core) s

/-! ### DUKPT (10 R352 to R357) -/

/-- The one bits that a counter may hold, and the last counter of a variant (10 R353, R356). -/
def maxOnes (aes : Bool) : Nat := if aes then 16 else 10
def lastCounter (aes : Bool) : Nat := if aes then 0xFFFF0000 else 0x1FF800
def counterBits (aes : Bool) : Nat := if aes then 32 else 21
/-- A counter that a received KSN may carry (10 R353). -/
def counterOk (aes : Bool) (c : Nat) : Bool := decide (c ≠ 0) && decide (onesIn (counterBits aes) c ≤ maxOnes aes)
/-- The lowest set bit of a number. -/
def lowBit (n : Nat) : Nat := n - (n &&& (n - 1))
def nextGo (aes : Bool) : Nat → Nat → Nat
  | 0, n => n
  | fuel + 1, n => if onesIn (counterBits aes + 1) n ≤ maxOnes aes then n else nextGo aes fuel (n + lowBit n)
/-- The smallest greater counter with few enough one bits (10 R355). -/
def nextCounter (aes : Bool) (c : Nat) : Nat := nextGo aes 33 (c + 1)
/-- The PIN encryption key of a transaction (10 R352): double-length for TDES, of the initial key's length for AES. -/
def pinKey (aes : Bool) (ikey ksn : Bytes) : Bytes :=
  dukptPin aes ikey ksn
def aesKeyA (j : Job) (d : Device) : Bool := isAesClass (headOf (keyA j) d).keyClass.toNat
def aesKeyB (j : Job) (d : Device) : Bool := isAesClass (headOf (keyB j) d).keyClass.toNat
def requestKsn (j : Job) (d : Device) : Bytes := field j.params 20 (ksnLen (aesKeyA j d))
/-- The checks of the KSN, which need the base key's class (10 R349, R353). -/
def ksnCode (d : Device) (j : Job) : Code :=
  if lookupCode j.tenant (keyA j) d ≠ 0 ∨ slotClass [5, 6] (headOf (keyA j) d) = false then 0
  else
    let aes := aesKeyA j d
    firstCode [if aes then 0 else reserved j 30 2, need (counterOk aes (ksnCounter aes (requestKsn j d))) 0x0112]
def baseKey (f : Nat) (s : Slot) : Bool := slotClass [5, 6] s && isBaseKey s.keyClass s.usage && formatFits f s
/-- The key under which the received block stands. -/
def receivedKey (j : Job) (d : Device) : Bytes :=
  let aes := aesKeyA j d
  let ksn := requestKsn j d
  pinKey aes (initialKey aes (secretOf (keyA j) d) ksn) ksn

def dukptVerb : Verb :=
  { plainVerb with
    decode := fun d j => firstCode [pinDecode true false j, noInput j, ksnCode d j]
    maxOut := fun _ j => blockBytes (fmtOut j)
    handles := fun _ j => [keyA j, keyB j]
    checks := fun d j => firstCode [keyCheck j.tenant (keyA j) (baseKey (fmtIn j)) (some 8) d,
      keyCheck j.tenant (keyB j) (zoneKey (fmtOut j)) (some 6) d, translateCode j d, need (incomingOk j (receivedKey j d) d) 0x0306]
    draws := fun _ j => fillDraw j
    derived := fun d j => [initialKey (aesKeyA j d) (secretOf (keyA j) d) (requestKsn j d), receivedKey j d]
    run := fun d j r => { output := outgoing j (receivedKey j d) (secretOf (keyB j) d) r, intents := usesOf [keyA j, keyB j] } }
/-- PIN_TRANSLATE_DUKPT_TO_ZONE, 0x0202. -/
def execPinTranslateDukptToZone (core : CoreRef) (s : State) : Host.Outcome State Fault Refusal :=
  runDev (execVerb 0x0202 dukptVerb core) s

def originatorKey (f : Nat) (s : Slot) : Bool := slotClass [5, 6] s && isOriginator s.keyClass s.usage && formatFits f s
/-- The committed KSN of the originator, and the next one (10 R354, R355). -/
def committedKsn (j : Job) (d : Device) : Bytes := originatorKsn (aesKeyB j d) (keyOf (keyB j) d)
def committedCounter (j : Job) (d : Device) : Nat := ksnCounter (aesKeyB j d) (committedKsn j d)
def newCounter (j : Job) (d : Device) : Nat := nextCounter (aesKeyB j d) (committedCounter j d)
def newKsn (j : Job) (d : Device) : Bytes := setCounter (aesKeyB j d) (committedKsn j d) (newCounter j d)
/-- The result of 0x0207: block and KSN out, the new KSN committed to the slot. -/
def originate (d : Device) (j : Job) (r : Bytes) : Staged :=
  let aes := aesKeyB j d
  let ikey := secretOf (keyB j) d
  { output := outgoing j (secretOf (keyA j) d) (pinKey aes ikey (newKsn j d)) r ++ newKsn j d
    aux := BitVec.ofNat 32 (newCounter j d)
    intents := usesOf [keyA j, keyB j] ++
      [.setKsn (handleSlot (keyB j)) (originatorMaterial ikey (newKsn j d)) (newCounter j d)] }
def originatorVerb : Verb :=
  { plainVerb with
    decode := fun _ j => firstCode [reserved j 20 12, pinDecode true false j, need (decide (fmtOut j ≠ 1)) 0x0110, noInput j]
    maxOut := fun _ j => if fmtOut j = 4 then 28 else 18
    handles := fun _ j => [keyA j, keyB j]
    checks := fun d j => firstCode [keyCheck j.tenant (keyA j) (zoneKey (fmtIn j)) (some 7) d,
      keyCheck j.tenant (keyB j) (originatorKey (fmtOut j)) (some 6) d, translateCode j d,
      need (decide (committedCounter j d < lastCounter (aesKeyB j d))) 0x0407,
      need (incomingOk j (secretOf (keyA j) d) d) 0x0306]
    draws := fun _ j => fillDraw j
    derived := fun d j => [pinKey (aesKeyB j d) (secretOf (keyB j) d) (newKsn j d)]
    run := originate }
/-- PIN_TRANSLATE_ZONE_TO_DUKPT, 0x0207. -/
def execPinTranslateZoneToDukpt (core : CoreRef) (s : State) : Host.Outcome State Fault Refusal :=
  runDev (execVerb 0x0207 originatorVerb core) s

/-! ### Offsets: 0x0203, 0x0204 (10 R358 to R362) -/

def checkLen (j : Job) : Nat := (parByte j 26).toNat
def vdMode (j : Job) : Nat := (parByte j 27).toNat
/-- The first check_len nibbles of the offset; whatever the others hold is accepted (DESIGN CHOICE: 10 R362 refuses none of it; log entry
56). -/
def offsetDigits (j : Job) : List Nat := (nibbles (field j.params 20 6)).take (checkLen j)
/-- The decimalization table of the input, and its rules (10 R358). -/
def decTable (j : Job) : Bytes := field j.input 0 8
def decTableOk (registered : List Bytes) (t : Bytes) : Bool :=
  let ns := nibbles t
  ns.all (fun v => decide (v < 10)) &&
  (List.range 10).all (fun k => decide (1 ≤ ns.count k ∧ ns.count k ≤ 2)) && (registered.isEmpty || registered.contains t)
/-- The validation block of a key's block size (10 R359). -/
def validationBlock (aes : Bool) (j : Job) : Bytes :=
  let n := blockSize aes
  if vdMode j = 0 then field j.input 8 n
  else packNibbles (panTail 12 (pan j) ++ List.replicate (2 * n - 12) ((parByte j 28).toNat % 16))
/-- The natural PIN (10 R360). -/
def naturalPin (aes : Bool) (key table block : Bytes) (len : Nat) : List Nat :=
  let t := nibbles table
  (((nibbles (blockEnc aes key block)).take 16).map (fun h => (t[h]?).getD 0)).take len
def naturalOf (j : Job) (d : Device) : List Nat :=
  let aes := aesKeyB j d
  naturalPin aes (secretOf (keyB j) d) (decTable j) (validationBlock aes j) (checkLen j)
/-- Digit-wise arithmetic modulo 10 (10 R361). -/
def offsetOf (pin natural : List Nat) : List Nat := List.zipWith (fun p n => (p + 10 - n) % 10) pin natural
def offsetMatches (pin natural offset : List Nat) : Bool :=
  decide (pin.length = natural.length) && decide (List.zipWith (fun n o => (n + o) % 10) natural offset = pin)
/-- Digits packed left-justified with 0xF nibbles (10 R332). -/
def packDigits (n : Nat) (digits : List Nat) : Bytes := packNibbles (digits ++ List.replicate (2 * n - digits.length) 15)

def offsetDecode (generate : Bool) (d : Device) (j : Job) : Code :=
  let size := blockSize (aesKeyB j d)
  let known := decide (lookupCode j.tenant (keyB j) d = 0)
  firstCode [if generate then reserved j 20 6 else 0, reserved j 29 3, need (decide ((parByte j 28).toNat < 16)) 0x0110,
    need (decide (4 ≤ checkLen j ∧ checkLen j ≤ 12)) 0x0110, need (decide (vdMode j ≤ 1)) 0x0110,
    pinDecode false (decide (vdMode j = 1)) j,
    need (generate || (offsetDigits j).all (fun v => decide (v < 10))) 0x0110,
    need (if vdMode j = 1 then decide (j.input.length = 8)
          else if known then decide (j.input.length = 8 + size) else decide (j.input.length = 16 ∨ j.input.length = 24)) 0x0109]
/-- Keys, formats and table; a generation also needs allow_generate of key_b (DEDUCED). -/
def offsetChecks (generate : Bool) (d : Device) (j : Job) : Code :=
  firstCode [keyCheck j.tenant (keyA j) (zoneKey (fmtIn j)) (some 7) d,
    keyCheck j.tenant (keyB j) (slotClass [1, 2, 3]) (some 7) d, need (formatIn j d) 0x0404,
    need (decTableOk (tenantOf j.tenant d).decTables (decTable j)) 0x0405,
    need (!generate || (policyB j d).allowGenerate) 0x0406,
    need (!generate || (incomingOk j (secretOf (keyA j) d) d &&
      decide ((pinDigits (incoming j (secretOf (keyA j) d))).length = checkLen j))) 0x0306]
/-- The match of 0x0203: a malformed block or another length is no match (10 R346, R362). -/
def offsetVerdict (d : Device) (j : Job) : Bool :=
  let key := secretOf (keyA j) d
  incomingOk j key d && offsetMatches (pinDigits (incoming j key)) (naturalOf j d) (offsetDigits j)
def offsetVerifyVerb : Verb :=
  { plainVerb with
    decode := offsetDecode false
    handles := fun _ j => [keyA j, keyB j]
    checks := offsetChecks false
    run := fun d j _ => { pair := some (flagPair (offsetVerdict d j)), intents := usesOf [keyA j, keyB j] } }
/-- PIN_VERIFY_OFFSET, 0x0203. -/
def execPinVerifyOffset (core : CoreRef) (s : State) : Host.Outcome State Fault Refusal :=
  runDev (execVerb 0x0203 offsetVerifyVerb core) s
def offsetGenerateVerb : Verb :=
  { plainVerb with
    decode := offsetDecode true
    maxOut := fun _ _ => 6
    handles := fun _ j => [keyA j, keyB j]
    checks := offsetChecks true
    run := fun d j _ =>
      { output := packDigits 6 (offsetOf (pinDigits (incoming j (secretOf (keyA j) d))) (naturalOf j d))
        intents := usesOf [keyA j, keyB j] } }
/-- PIN_OFFSET_GENERATE, 0x0204. -/
def execPinOffsetGenerate (core : CoreRef) (s : State) : Host.Outcome State Fault Refusal :=
  runDev (execVerb 0x0204 offsetGenerateVerb core) s

/-! ### Verification values: 0x0205, 0x0206 (10 R363, R364) -/

/-- Digit extraction (10 R363): decimal nibbles first, then the others less ten. -/
def extractDigits (k : Nat) (b : Bytes) : List Nat :=
  let ns := (nibbles b).take 16
  (ns.filter (fun n => decide (n < 10)) ++ (ns.filter (fun n => decide (10 ≤ n))).map (fun n => n - 10)).take k
def pvki (j : Job) : Nat := (parByte j 22).toNat
/-- The PIN verification value (10 R364). -/
def pinValue (key : Bytes) (pan pin : List Nat) (index : Nat) : List Nat :=
  extractDigits 4 (tdesEnc key (packNibbles (panTail 11 pan ++ [index] ++ pin.take 4)))
def valueOf (j : Job) (d : Device) : List Nat :=
  pinValue (secretOf (keyB j) d) (pan j) (pinDigits (incoming j (secretOf (keyA j) d))) (pvki j)
def valueDecode (generate : Bool) (j : Job) : Code :=
  firstCode [if generate then reserved j 20 2 else 0, reserved j 23 9, need (decide (pvki j ≤ 9)) 0x0110, pinDecode false true j,
    noInput j]
def valueChecks (generate : Bool) (d : Device) (j : Job) : Code :=
  firstCode [keyCheck j.tenant (keyA j) (zoneKey (fmtIn j)) (some 7) d, keyCheck j.tenant (keyB j) (slotClass [1]) (some 7) d,
    need (formatIn j d) 0x0404, need (!generate || (policyB j d).allowGenerate) 0x0406,
    need (!generate || incomingOk j (secretOf (keyA j) d) d) 0x0306]
def valueVerifyVerb : Verb :=
  { plainVerb with
    decode := fun _ j => valueDecode false j
    handles := fun _ j => [keyA j, keyB j]
    checks := valueChecks false
    run := fun d j _ =>
      { pair := some (flagPair (incomingOk j (secretOf (keyA j) d) d && decide (valueOf j d = nibbles (field j.params 20 2))))
        intents := usesOf [keyA j, keyB j] } }
/-- PIN_VERIFY_VERIFICATION_VALUE, 0x0205. -/
def execPinVerifyVerificationValue (core : CoreRef) (s : State) : Host.Outcome State Fault Refusal :=
  runDev (execVerb 0x0205 valueVerifyVerb core) s
def valueGenerateVerb : Verb :=
  { plainVerb with
    decode := fun _ j => valueDecode true j
    maxOut := fun _ _ => 2
    handles := fun _ j => [keyA j, keyB j]
    checks := valueChecks true
    run := fun d j _ => { output := packNibbles (valueOf j d), intents := usesOf [keyA j, keyB j] } }
/-- PIN_VERIFICATION_VALUE_GENERATE, 0x0206. -/
def execPinVerificationValueGenerate (core : CoreRef) (s : State) : Host.Outcome State Fault Refusal :=
  runDev (execVerb 0x0206 valueGenerateVerb core) s

end Sys2Proof.Machine
end

