-- ==== Sys2Proof/Machine/CardVerbs.lean ====
section
/-! DEFINITION. Card verification values 0x03xx and EMV cryptograms 0x04xx (10 R363 to R371). -/

namespace Sys2Proof.Machine

/-! ### Card verification values: 0x0301, 0x0302 (10 R365, R366) -/

/-- A number of decimal digits at the head of a field, filled by 0xF nibbles. -/
def digitsThenF (k : Nat) (b : Bytes) : Bool :=
  let ns := nibbles b
  (ns.take k).all (fun n => decide (n < 10)) && (ns.drop k).all (fun n => n == 15)
def cvvDigits (j : Job) : Nat := (parByte j 8).toNat
/-- The 32-nibble string of a card. -/
def cvvString (j : Job) : List Nat :=
  (pan j ++ nibbles (field j.params 20 2) ++ (nibbles (field j.params 22 2)).take 3 ++ List.replicate 32 0).take 32
/-- R1, R2 and R3 of R365. -/
def cvvBlock (key : Bytes) (ns : List Nat) : Bytes :=
  let ka := field key 0 8
  let r1 := desEnc ka (packNibbles (ns.take 16))
  let r2 := bytesXor r1 (packNibbles (ns.drop 16))
  desEnc ka (desDec (field key 8 8) (desEnc ka r2))
def cvvOf (j : Job) (d : Device) : List Nat := extractDigits (cvvDigits j) (cvvBlock (secretOf (keyA j) d) (cvvString j))
def cvvDecode (generate : Bool) (j : Job) : Code :=
  firstCode [reserved j 4 4, reserved j 9 1, reserved j 27 21, if generate then reserved j 24 3 else 0,
    need (decide (3 ≤ cvvDigits j ∧ cvvDigits j ≤ 5)) 0x0110,
    need (digitsThenF 4 (field j.params 20 2)) 0x0110, need (digitsThenF 3 (field j.params 22 2)) 0x0110,
    need (generate || digitsThenF (cvvDigits j) (field j.params 24 3)) 0x0110, need (panOf j).isSome 0x0111]
def cvvCheck (j : Job) (d : Device) : Code := keyCheck j.tenant (keyA j) (slotClass [1]) (some 13) d
def cvvGenerateVerb : Verb :=
  { plainVerb with
    decode := fun _ j => cvvDecode true j
    maxOut := fun _ _ => 3
    handles := fun _ j => [keyA j]
    checks := fun d j => firstCode [cvvCheck j d, need (policyA j d).allowGenerate 0x0406]
    run := fun d j _ => { output := packDigits 3 (cvvOf j d), intents := usesOf [keyA j] } }
/-- CARD_VERIFICATION_VALUE_GENERATE, 0x0301. -/
def execCardVerificationValueGenerate (core : CoreRef) (s : State) : Host.Outcome State Fault Refusal :=
  runDev (execVerb 0x0301 cvvGenerateVerb core) s
def cvvVerifyVerb : Verb :=
  { plainVerb with
    decode := fun _ j => cvvDecode false j
    handles := fun _ j => [keyA j]
    checks := fun d j => cvvCheck j d
    run := fun d j _ =>
      { pair := some (compareFlags (packDigits 3 (cvvOf j d)) (field j.params 24 3)), intents := usesOf [keyA j] } }
/-- CARD_VERIFICATION_VALUE_VERIFY, 0x0302. -/
def execCardVerificationValueVerify (core : CoreRef) (s : State) : Host.Outcome State Fault Refusal :=
  runDev (execVerb 0x0302 cvvVerifyVerb core) s

/-! ### EMV: 0x0401, 0x0402 (10 R367 to R371) -/

def skd (j : Job) : Nat := (parByte j 8).toNat % 4
def arpcMethod (j : Job) : Nat := (parByte j 8).toNat / 4 % 4
/-- Y: the rightmost 16 digits of PAN and sequence number, zeros on the left (10 R368). -/
def emvY (j : Job) : Bytes := packNibbles (rightmost 16 (pan j ++ nibbles (field j.params 9 1)))
def ones8 : Bytes := List.replicate 8 0xFF
/-- The ICC master key (10 R368). -/
def iccKey (aes : Bool) (key y : Bytes) : Bytes :=
  if aes then (aesEnc key (y ++ List.replicate 8 0) ++ aesEnc key (y ++ ones8)).take key.length
  else setParity (tdesEnc key y ++ tdesEnc key (bytesXor y ones8))
/-- The common session key of an ATC (10 R368). -/
def commonKey (aes : Bool) (mk atc : Bytes) : Bytes :=
  if aes then (aesEnc mk (fit 16 (atc ++ [0xF0])) ++ aesEnc mk (fit 16 (atc ++ [0x0F]))).take mk.length
  else tdesEnc mk (fit 8 (atc ++ [0xF0])) ++ tdesEnc mk (fit 8 (atc ++ [0x0F]))
def sessionKey (j : Job) (d : Device) : Bytes :=
  let aes := aesKeyA j d
  let mk := iccKey aes (secretOf (keyA j) d) (emvY j)
  if skd j = 1 then commonKey aes mk (field j.params 20 2) else mk
/-- The cryptogram of data under a session key (10 R369). -/
def cryptogram (aes : Bool) (sk data : Bytes) : Bytes :=
  if aes then (cmac true sk data).take 8 else macAlg3 sk (padding 8 2 data)
def arqc (j : Job) : Bytes := field j.params 22 8
/-- The ARPC (10 R370). -/
def arpcOf (j : Job) (d : Device) : Bytes :=
  let aes := aesKeyA j d
  let sk := sessionKey j d
  if arpcMethod j = 1 then
    let z := bytesXor (arqc j) (fit 8 (field j.params 30 2))
    if aes then (aesEnc sk (fit 16 z)).take 8 else tdesEnc sk z
  else (cryptogram aes sk (arqc j ++ field j.params 32 4 ++ field j.params 36 (parByte j 44).toNat)).take 4
/-- The cryptogram against the one received (08 R278). -/
def arqcFlags (j : Job) (d : Device) : Bool × Bool := compareFlags (cryptogram (aesKeyA j d) (sessionKey j d) j.input) (arqc j)
/-- The keys that the engine derives: the ICC master key, and the session key. -/
def emvKeys (d : Device) (j : Job) : List Bytes := [iccKey (aesKeyA j d) (secretOf (keyA j) d) (emvY j), sessionKey j d]
def emvDecode (arpc : Bool) (j : Job) : Code :=
  firstCode [reserved j 4 4, reserved j 45 3, if arpc then 0 else reserved j 30 15,
    need (decide ((parByte j 8).toNat < 16)) 0x0110, need (decide (skd j ≤ 1)) 0x0110,
    need (if arpc then arpcMethod j == 1 || arpcMethod j == 2 else arpcMethod j == 0) 0x0110,
    need ((nibbles (field j.params 9 1)).all (fun n => decide (n < 10))) 0x0110,
    need (decide ((parByte j 44).toNat ≤ 8)) 0x0110, need (panOf j).isSome 0x0111,
    need (decide (1 ≤ j.input.length ∧ j.input.length ≤ 256)) 0x0109]
def issuerCheck (j : Job) (d : Device) : Code := keyCheck j.tenant (keyA j) (slotClass [1, 3]) (some 14) d
def arqcVerb : Verb :=
  { plainVerb with
    decode := fun _ j => emvDecode false j
    handles := fun _ j => [keyA j]
    checks := fun d j => issuerCheck j d
    note := fun b j => countEvent .cipher 9 b j.id
    derived := emvKeys
    run := fun d j _ => { pair := some (arqcFlags j d), intents := usesOf [keyA j] } }
/-- ARQC_VERIFY, 0x0401. -/
def execArqcVerify (core : CoreRef) (s : State) : Host.Outcome State Fault Refusal :=
  runDev (execVerb 0x0401 arqcVerb core) s
/-- The ARPC waits in the pending buffer and leaves only with a match (10 R371; 08 R281). -/
def arpcVerb : Verb :=
  { plainVerb with
    decode := fun _ j => emvDecode true j
    maxOut := fun _ j => if arpcMethod j = 1 then 8 else 4
    handles := fun _ j => [keyA j]
    checks := fun d j => firstCode [issuerCheck j d, need ((policyA j d).arpcMethods.getLsbD (arpcMethod j - 1)) 0x0406]
    note := fun b j => countEvent .cipher 9 b j.id
    derived := emvKeys
    run := fun d j _ => { pair := some (arqcFlags j d), output := arpcOf j d, intents := usesOf [keyA j] } }
/-- ARQC_VERIFY_AND_ARPC_GENERATE, 0x0402. -/
def execArqcVerifyAndArpcGenerate (core : CoreRef) (s : State) : Host.Outcome State Fault Refusal :=
  runDev (execVerb 0x0402 arpcVerb core) s

end Sys2Proof.Machine
end

