-- ==== Sys2Proof/Machine/DataVerbs.lean ====
section
/-! DEFINITION. Symmetric data and MAC verbs 0x0501 to 0x0504 (10 R372 to R378) and the digest verb 0x0801 (11 R409), whole
or in parts, with their sealed contexts (08 R284 to R295). -/

namespace Sys2Proof.Machine

/-! ### Context records (08 R287 to R290) -/

/-- The body of a context record. -/
structure Context where
  alg : Nat := 0
  /-- Decrypt or verify direction. -/
  reverse : Bool := false
  aadClosed : Bool := false
  pad : Nat := 0
  squeezing : Bool := false
  handle : BitVec 32 := 0
  processed : Nat := 0
  aad : Nat := 0
  squeezed : Nat := 0
  state : Bytes := []
deriving DecidableEq, Repr
/-- A flag of the body at its bit. -/
def flagBit (b : Bool) (n : Nat) : Nat := if b then 2 ^ n else 0
def contextBytes (c : Context) : Bytes :=
  [BitVec.ofNat 8 c.alg,
   BitVec.ofNat 8 (flagBit c.reverse 0 + flagBit c.aadClosed 1 + 4 * (c.pad % 4) + flagBit c.squeezing 4), 0, 0] ++
  leBytes 4 c.handle.toNat ++ leBytes 8 c.processed ++ leBytes 8 c.aad ++ leBytes 8 c.squeezed ++ fit 200 c.state ++
  List.replicate 24 0
def contextOf (b : Bytes) : Context :=
  let f := byteAt b 1
  { alg := (byteAt b 0).toNat, reverse := f.getLsbD 0, aadClosed := f.getLsbD 1, pad := f.toNat / 4 % 4, squeezing := f.getLsbD 4
    handle := BitVec.ofNat 32 (num b 4 4), processed := num b 8 8, aad := num b 16 8, squeezed := num b 24 8
    state := field b 32 200 }
/-- Bytes of a sealed record. -/
def sealedLen : Nat := 288
/-- The kind of a record: 0x01 cipher, 0x02 Punty. -/
def contextKind (alg : Nat) : Byte := if alg < 0x20 then 0x01 else 0x02
/-- The header of a record, whose bytes 4 to 15 are the nonce (08 R288). -/
def sealHeader (kind : Byte) (tenant bench : Nat) (count : BitVec 56) (cycle : BitVec 32) : Bytes :=
  [0x01, 0x00, kind] ++ leBytes 1 tenant ++ leBytes 1 bench ++ leBytes 7 count.toNat ++ leBytes 4 cycle.toNat
def sealContext (key : Bytes) (header : Bytes) (c : Context) : Bytes :=
  let nonce := field header 4 12
  let body := gcmXor key nonce (contextBytes c)
  header ++ body ++ gcmTagOf key nonce header body
/-- The record at the head of a string, for a tenant; 0x0108 where it does not open (08 R290). -/
def unsealContext (key : Bytes) (tenant : Nat) (b : Bytes) : Except Code Context :=
  let header := field b 0 16
  let nonce := field header 4 12
  let body := field b 16 256
  if gcmTagOf key nonce header body ≠ field b 272 16 ∨ num b 0 2 ≠ 1 ∨ num b 3 1 ≠ tenant then .error 0x0108
  else .ok (contextOf (gcmXor key nonce body))
def sealKeyBytes (d : Device) : Bytes := bvBytes 32 d.custody.sealKey
/-- The bench on which a job stands. -/
def jobBench (j : Job) : Nat := match j.place with | .core b _ => b | .pending b => b | .retired b => b | _ => 0
/-- A record is sealed under the seal key that stands, which after a lock and its unlock is all zeros until the next start (DESIGN CHOICE: 08
R283 erases it and no rule draws it again before a start; log entry 59). -/
def sealNow (j : Job) (d : Device) (c : Context) : Bytes :=
  let b := jobBench j
  sealContext (sealKeyBytes d) (sealHeader (contextKind c.alg) j.tenant b (benchOf b d).sealCount d.battery.cycles) c
/-- A saturated seal counter seals nothing further (08 R289). -/
def sealRoom (j : Job) (d : Device) : Bool := (benchOf (jobBench j) d).sealCount != BitVec.allOnes 56
def countSeal (b : Nat) (d : Device) : Device := modBench b (fun x => { x with sealCount := satInc x.sealCount }) d

/-! ### The parameter block (10 R372 to R376) -/

def dataAlg (j : Job) : Nat := (parByte j 4).toNat
/-- Whole, first, middle, final. -/
def partNo (j : Job) : Nat := (parByte j 5).toNat % 4
def isStart (j : Job) : Bool := partNo j == 0 || partNo j == 1
def isEnd (j : Job) : Bool := partNo j == 0 || partNo j == 3
def macLen (j : Job) : Nat := (parByte j 6).toNat
def padMethod (j : Job) : Nat := (parByte j 7).toNat
def aadLen (j : Job) : Nat := par j 40 4
def isGcm (alg : Nat) : Bool := alg == 0x07
/-- The modes that need whole blocks, and those with a MAC or tag. -/
def isBlockMode (alg : Nat) : Bool := alg % 16 == 1 || alg % 16 == 2
def isMacCode (alg : Nat) : Bool := [0x08, 0x09, 0x18, 0x19, 0x1A].contains alg || isHmac alg
def isDataCode (alg : Nat) : Bool := decide (0x01 ≤ alg ∧ alg ≤ 0x07) || decide (0x11 ≤ alg ∧ alg ≤ 0x15)
/-- The range of a MAC or tag length (08 R270). -/
def macRange (alg : Nat) : Nat × Nat :=
  if isGcm alg then (12, 16) else if isHmac alg then (4, hashLen (alg - 0x40)) else (4, algBlock alg)
/-- The data of a job, without its sealed context. -/
def partData (j : Job) : Bytes := if isStart j then j.input else j.input.drop sealedLen
/-- What an engine of a kind takes of it, word by word (08 R273). -/
def fedData (k : EngineKind) (j : Job) : Bytes := fedBytes (wordBytes k) (partData j)
/-- The key in the register of the engine that the job holds: the one that it loaded at the grant (08 R282). -/
def workKey (k : EngineKind) (d : Device) (j : Job) : Bytes :=
  match jobEngine k j.id d with
  | some n =>
    let e := engineOf (jobBench j) k n d
    if e.keyValid then registerBytes e.keyReg (keyLen (headOf (keyA j) d).keyClass (headOf (keyA j) d).keyParam) else secretOf (keyA j) d
  | none => secretOf (keyA j) d
/-- The rest of a block count when `before` of it come first. -/
def countFrom (before n : Nat) : Nat := n - min n before
/-- What serves a code (08 R270): MAC algorithm 3 takes double-length keys only. -/
def classServes (alg : Nat) (s : Slot) : Bool :=
  let c := s.keyClass.toNat
  if isHmac alg then c == 4 else if algAes alg then c == 3 else if alg = 0x1A then c == 1 else c == 1 || c == 2
/-- Lengths of non-final parts (08 R286); the additional data of GCM comes before the data (DEDUCED). -/
def partLengthCode (alg : Nat) (aad : Nat) (j : Job) : Code :=
  if isEnd j then 0 else need (decide (((partData j).length - aad) % algBlock alg = 0)) 0x0109
/-- The record that a middle or final part carries. -/
def carried (j : Job) (d : Device) : Except Code Context := unsealContext (sealKeyBytes d) j.tenant j.input
/-- A record must belong to the verb, the key and the algorithm (10 R375, R338). -/
def contextCode (alg : Nat) (reverse : Bool) (handle : BitVec 32) (j : Job) (d : Device) : Code :=
  if isStart j then 0
  else if j.input.length < sealedLen then 0x0109
  else match carried j d with
    | .error c => c
    | .ok c => need (c.alg == alg && c.reverse == reverse && c.handle == handle && byteAt j.input 2 == contextKind alg) 0x0113
/-- The record a part starts from: the one it carries, or a new one. -/
def startContext (fresh : Context) (j : Job) (d : Device) : Context :=
  if isStart j then fresh else match carried j d with | .ok c => c | .error _ => fresh
/-- A part that ends with a record needs a seal (08 R289). -/
def sealCode (j : Job) (d : Device) : Code := need (isEnd j || sealRoom j d) 0x0109

/-! ### Encrypt and decrypt: 0x0501, 0x0502 -/

/-- Bytes of iv that a code reads: a block, 12 bytes for GCM, none for ECB (10 R372). -/
def ivLen (alg : Nat) : Nat := if alg % 16 = 1 then 0 else if isGcm alg then 12 else algBlock alg
/-- The context of a first part. -/
def freshData (reverse : Bool) (j : Job) : Context :=
  let alg := dataAlg j
  let iv := field j.params 8 (ivLen alg)
  { alg := alg, reverse := reverse, pad := padMethod j, handle := keyA j
    state := if isGcm alg then gcmNext (gcmFirst iv) ++ List.replicate 16 0 else fit (algBlock alg) iv }
/-- One part of a mode: output, and the context after it. -/
def modePart (key data : Bytes) (c : Context) : Bytes × Context :=
  let r := runMode (!c.reverse) c.alg key (c.state.take (algBlock c.alg)) data
  (r.1, { c with processed := c.processed + data.length, state := r.2 })
/-- One part of GCM: additional data, then data; the accumulator runs over the ciphertext. -/
def gcmPart (key aad data : Bytes) (c : Context) : Bytes × Context :=
  let r := gcmStream key (field c.state 0 16) (chunks 16 data)
  let cipher := if c.reverse then data else r.1
  let acc := ghashFrom (gcmHashKey key) (bytesBv 128 (field c.state 16 16)) (chunks 16 aad ++ chunks 16 cipher)
  (r.1, { c with processed := c.processed + data.length, aad := c.aad + aad.length,
                 aadClosed := c.aadClosed || !data.isEmpty || decide (aad.length % 16 ≠ 0), state := r.2 ++ bvBytes 16 acc })
/-- The tag after the last part. -/
def gcmFinish (key : Bytes) (c : Context) (len : Nat) : Bytes :=
  (bvBytes 16 (gcmEnd key (field c.state 0 12) (bytesBv 128 (field c.state 16 16)) c.aad c.processed)).take len
/-- The data of a part, padded at the end where the context says so (10 R374). -/
def paddedPart (c : Context) (j : Job) : Bytes :=
  let x := (fedData .cipher j).drop (if isGcm c.alg then aadLen j else 0)
  if isEnd j && decide (c.pad = 2) then padding (algBlock c.alg) 2 x else x
def dataPart (key : Bytes) (c : Context) (j : Job) : Bytes × Context :=
  if isGcm c.alg then gcmPart key ((fedData .cipher j).take (aadLen j)) (paddedPart c j) c else modePart key (paddedPart c j) c
/-- Blocks of a part: additional data, data and, of GCM, the length block (08 R301 counter 0). -/
def aadBlocks (c : Context) (j : Job) : Nat := if isGcm c.alg then ceilDiv (aadLen j) 16 else 0
def dataBlocks (c : Context) (j : Job) : Nat :=
  aadBlocks c j + ceilDiv (paddedPart c j).length (algBlock c.alg) + (if isGcm c.alg && isEnd j then 1 else 0)
/-- The context after some of its blocks. -/
def dataAfter (key : Bytes) (c : Context) (j : Job) (n : Nat) : Context :=
  let x := (paddedPart c j).take (algBlock c.alg * countFrom (aadBlocks c j) n)
  if isGcm c.alg then (gcmPart key ((fedData .cipher j).take (min (16 * n) (aadLen j))) x c).2 else (modePart key x c).2
/-- The counter block of CTR; a counter of zero after data has come to its end. -/
def counterAt (c : Context) : Nat :=
  let n := beNat (field c.state 0 16)
  if n = 0 ∧ c.processed ≠ 0 then 2 ^ 128 else n
/-- CTR would wrap; GCM's limits on data and additional data (08 R271). -/
def dataLimit (c : Context) (j : Job) : Code :=
  let n := (paddedPart c j).length
  if c.alg = 0x06 then need (decide (counterAt c + ceilDiv n 16 ≤ 2 ^ 128)) 0x0109
  else if isGcm c.alg then need (decide (c.processed + n ≤ 2 ^ 36 - 32) && decide (c.aad + aadLen j < 2 ^ 32) &&
    !(c.aadClosed && decide (aadLen j ≠ 0))) 0x0109
  else if isBlockMode c.alg && isEnd j then need (decide (n % algBlock c.alg = 0)) 0x0109
  else 0
def dataDecode (reverse : Bool) (d : Device) (j : Job) : Code :=
  let alg := dataAlg j
  let verifies := reverse && isGcm alg
  firstCode [need (isDataCode alg) 0x0110, need (decide ((parByte j 5).toNat < 4)) 0x0110, reserved j 44 4,
    if isGcm alg then need (decide (12 ≤ macLen j ∧ macLen j ≤ 16)) 0x0110 else reserved j 6 1,
    need (decide (padMethod j = 0) || (!reverse && decide (padMethod j = 2))) 0x0110,
    reserved j (8 + ivLen alg) (16 - ivLen alg),
    if verifies && isEnd j then reserved j (24 + macLen j) (16 - macLen j) else reserved j 24 16,
    if isGcm alg then 0 else reserved j 40 4,
    contextCode alg reverse (keyA j) j d,
    need (!isGcm alg || decide (aadLen j ≤ (partData j).length)) 0x0109,
    partLengthCode alg (if isGcm alg then aadLen j else 0) j, dataLimit (startContext (freshData reverse j) j d) j, sealCode j d]
def dataOut (reverse : Bool) (d : Device) (j : Job) : Nat :=
  let c := startContext (freshData reverse j) j d
  (paddedPart c j).length + (if isEnd j then (if isGcm c.alg && !reverse then macLen j else 0) else sealedLen)
def dataCheck (usage : Nat) (d : Device) (j : Job) : Code :=
  keyCheck j.tenant (keyA j) (fun s => slotClass [1, 2, 3] s && classServes (dataAlg j) s) (some usage) d
/-- Context saves and restores of the cipher engines (counters 3, 4), comparisons (9), and the seal counter. -/
def noteData (reverse : Bool) (b : Nat) (j : Job) (d : Device) : Device :=
  let d := if isStart j then d else countEvent .cipher 4 b j.id d
  let d := if isEnd j then d else countSeal b (countEvent .cipher 3 b j.id d)
  if reverse && isEnd j && isGcm (dataAlg j) then countEvent .cipher 9 b j.id d else d
/-- The context of an encryption or decryption as its part begins. -/
def dataStart (reverse : Bool) (d : Device) (j : Job) : Context := startContext (freshData reverse j) j d
/-- What the engines of an encryption or decryption do. -/
def dataVerb (reverse : Bool) (usage : Nat) : Verb :=
  { plainVerb with
    decode := dataDecode reverse
    maxOut := dataOut reverse
    handles := fun _ j => [keyA j]
    checks := dataCheck usage
    note := noteData reverse
    blocks := fun _ d j => dataBlocks (dataStart reverse d j) j
    chain := fun d j n => contextBytes (dataAfter (workKey .cipher d j) (dataStart reverse d j) j n)
    feeds := partData }
def encryptRun (d : Device) (j : Job) : Staged :=
  let key := workKey .cipher d j
  let r := dataPart key (dataStart false d j) j
  { output := r.1 ++ (if isEnd j then (if isGcm r.2.alg then gcmFinish key r.2 (macLen j) else []) else sealNow j d r.2)
    intents := usesOf [keyA j] }
def encryptVerb : Verb := { dataVerb false 0 with run := fun d j _ => encryptRun d j }
/-- ENCRYPT_DATA, 0x0501. -/
def execEncryptData (core : CoreRef) (s : State) : Host.Outcome State Fault Refusal :=
  runDev (execVerb 0x0501 encryptVerb core) s
/-- Decryption: with GCM, the end of the data compares the tag, and without a match no output is released (08 R278, R281; 10 R377). -/
def decryptRun (d : Device) (j : Job) : Staged :=
  let key := workKey .cipher d j
  let r := dataPart key (dataStart true d j) j
  let uses := usesOf [keyA j]
  if !isEnd j then { output := r.1 ++ sealNow j d r.2, intents := uses }
  else if !isGcm r.2.alg then { output := r.1, intents := uses }
  else { pair := some (compareFlags (gcmFinish key r.2 (macLen j)) (field j.params 24 (macLen j))), output := r.1, intents := uses }
def decryptVerb : Verb := { dataVerb true 1 with run := fun d j _ => decryptRun d j }
/-- DECRYPT_DATA, 0x0502. -/
def execDecryptData (core : CoreRef) (s : State) : Host.Outcome State Fault Refusal :=
  runDev (execVerb 0x0502 decryptVerb core) s

/-! ### MAC generate and verify: 0x0503, 0x0504 -/

/-- A first part begins from a zero chaining block; method 3 begins with the block that holds the data's length. -/
def freshMac (verify : Bool) (key : Bytes) (j : Job) : Context :=
  let alg := dataAlg j
  let n := algBlock alg
  let c : Context := { alg := alg, reverse := verify, pad := padMethod j, handle := keyA j, state := List.replicate n 0 }
  let lengthBlock := beBytes n (8 * (if isEnd j then (partData j).length else Config.partsLength (partData j).length))
  if isHmac alg then { c with state := [] }
  else if padMethod j ≠ 3 then c
  else if alg = 0x1A then { c with state := cbcDes (field key 0 8) c.state [lengthBlock] }
  else { c with state := (cbcEnc (algAes alg) key c.state [lengthBlock]).2 }
/-- What an engine holds of the key of a MAC: the key, and for an HMAC its inner and its outer state (08 R282). -/
structure MacKey where
  key : Bytes
  inner : Bytes := []
  outer : Bytes := []
deriving DecidableEq, Repr
/-- The entry of the digest cache that serves a job, before its states are known (08 R291). -/
def entryName (j : Job) : CacheEntry := { tenant := j.tenant, slot := handleSlot (keyA j), gen := handleGen (keyA j), alg := parByte j 4 }
/-- The engine kind of a MAC code. -/
def macKind (alg : Nat) : EngineKind := if isHmac alg then .punty else .cipher
/-- The states of the job's key in its bench's digest cache; a tenant without entries never uses it (08 R292). -/
def cachedStates (d : Device) (j : Job) : Option CacheEntry :=
  if (tenantOf j.tenant d).cacheEntries = 0 then none else (benchOf (jobBench j) d).cache.find? (sameEntry (entryName j))
/-- The key of a job, with the states of the cache on a hit, and else with those formed from the key (08 R293). -/
def macKey (d : Device) (j : Job) : MacKey :=
  let key := workKey (macKind (dataAlg j)) d j
  if !isHmac (dataAlg j) then { key }
  else match cachedStates d j with
    | some e => { key, inner := e.inner, outer := e.outer }
    | none => { key, inner := hmacInner (dataAlg j) key, outer := hmacOuter (dataAlg j) key }
/-- The chaining after whole blocks. HMAC: the inner state, with which the first block begins. -/
def macBlocks (k : MacKey) (data : Bytes) (c : Context) : Bytes :=
  let bs := chunks (algBlock c.alg) data
  if isHmac c.alg then absorb (c.alg - 0x40) (if c.processed = 0 then k.inner else c.state.take (hashStateLen (c.alg - 0x40))) bs
  else if c.alg = 0x1A then cbcDes (field k.key 0 8) (c.state.take 8) bs
  else (cbcEnc (algAes c.alg) k.key (c.state.take (algBlock c.alg)) bs).2
/-- A record never holds the HMAC state of the key alone (08 R287). -/
def macMiddle (k : MacKey) (data : Bytes) (c : Context) : Context :=
  let n := c.processed + data.length
  { c with processed := n, state := if isHmac c.alg && decide (n = 0) then [] else macBlocks k data c }
/-- What padding methods 1 to 3 leave to add at the end of data; method 3 has its length block already. -/
def macTail (c : Context) (data : Bytes) : Bytes :=
  let n := algBlock c.alg
  if c.pad = 2 then padding n 2 data
  else if c.pad = 1 && decide (c.processed = 0) && data.isEmpty then List.replicate n 0
  else zeroPad n data
/-- The full value at the end of the data (08 R271, R272). -/
def macEnd (k : MacKey) (data : Bytes) (c : Context) : Bytes :=
  let n := algBlock c.alg
  if isHmac c.alg then
    let p := wholeBlocks n data
    hmacEnd c.alg (c.processed + data.length) k.outer (macBlocks k p.1 c) p.2
  else if c.alg % 16 = 8 then
    if data.isEmpty ∧ c.processed ≠ 0 then fit n (Config.cmacEmptyEnd (BitVec.ofNat 8 c.alg) k.key c.state)
    else cmacLast (algAes c.alg) k.key (macBlocks k (data.take (cmacBody n data.length)) c) (data.drop (cmacBody n data.length))
  else
    let x := macBlocks k (macTail c data) c
    if c.alg = 0x1A then desEnc (field k.key 0 8) (desDec (field k.key 8 8) x) else x
def macContext (verify : Bool) (d : Device) (j : Job) : Context := startContext (freshMac verify (macKey d j).key j) j d
def macData (j : Job) : Bytes := fedData (macKind (dataAlg j)) j
def macValue (verify : Bool) (d : Device) (j : Job) : Bytes :=
  (macEnd (macKey d j) (macData j) (macContext verify d j)).take (macLen j)
/-- Blocks that come before those of the data: the length block of padding method 3; of an HMAC without a cache hit its ipad and opad blocks
(08 R293, R301, R302 counter 0). -/
def macLead (d : Device) (j : Job) : Nat :=
  if isHmac (dataAlg j) then (if (cachedStates d j).isNone then 2 else 0) else if isStart j && decide (padMethod j = 3) then 1 else 0
/-- Blocks of the data: at its end with all padding, and of an HMAC the outer hash. -/
def macBodyBlocks (c : Context) (j : Job) : Nat :=
  let n := algBlock c.alg
  let data := macData j
  if !isEnd j then data.length / n
  else if isHmac c.alg then
    let h := c.alg - 0x40
    let total := hashRate h + c.processed + data.length
    data.length / n + (hashPad h total (wholeBlocks n data).2).length / n +
      (hashPad h (hashRate h + hashLen h) (List.replicate (hashLen h) 0)).length / n
  else if c.alg % 16 = 8 then max 1 (ceilDiv data.length n)
  else (macTail c data).length / n
/-- The context after some of the blocks. -/
def macAfter (k : MacKey) (c : Context) (d : Device) (j : Job) (n : Nat) : Context :=
  macMiddle k ((macData j).take (algBlock c.alg * countFrom (macLead d j) n)) c
/-- The HMAC states that the bench's digest cache holds, or may hold from the retire on (08 R291 to R294). -/
def cacheIntent (d : Device) (j : Job) : List Intent :=
  if isHmac (dataAlg j) then
    let k := macKey d j
    [.cacheUse { entryName j with inner := k.inner, outer := k.outer } (cachedStates d j).isSome ((jobEngine .punty j.id d).getD 0)]
  else []
def macDecode (verify : Bool) (d : Device) (j : Job) : Code :=
  let alg := dataAlg j
  let iso := alg == 0x09 || alg == 0x19 || alg == 0x1A
  let range := macRange alg
  firstCode [need (isMacCode alg) 0x0110, need (decide ((parByte j 5).toNat < 4)) 0x0110, reserved j 8 16, reserved j 40 8,
    need (decide (range.1 ≤ macLen j ∧ macLen j ≤ range.2)) 0x0110,
    need (if iso then decide (1 ≤ padMethod j ∧ padMethod j ≤ 3) else decide (padMethod j = 0)) 0x0110,
    if verify && isEnd j then reserved j (24 + macLen j) (16 - macLen j) else reserved j 24 16,
    contextCode alg verify (keyA j) j d, partLengthCode alg 0 j, sealCode j d]
def macCheck (usage : Nat) (d : Device) (j : Job) : Code :=
  keyCheck j.tenant (keyA j) (fun s => slotClass [1, 2, 3, 4] s && classServes (dataAlg j) s) (some usage) d
/-- Saves, restores and comparisons of the engines that serve the code. -/
def noteMac (verify : Bool) (b : Nat) (j : Job) (d : Device) : Device :=
  let hmac := isHmac (dataAlg j)
  let k := if hmac then EngineKind.punty else EngineKind.cipher
  let d := if isStart j then d else countEvent k (if hmac then 6 else 4) b j.id d
  let d := if isEnd j then d else countSeal b (countEvent k (if hmac then 5 else 3) b j.id d)
  if verify && isEnd j && !hmac then countEvent .cipher 9 b j.id d else d
/-- A value to verify stands in the parameter block from byte 24 on; of an HMAC value longer than 16 bytes, the bytes that follow the mac
field are read, those past the block as zeros (DESIGN CHOICE: 10 R372 gives mac 16 bytes, 08 R270 allows longer values; log entry 58). -/
def macRun (verify : Bool) (d : Device) (j : Job) : Staged :=
  let uses := usesOf [keyA j] ++ cacheIntent d j
  if !isEnd j then { output := sealNow j d (macMiddle (macKey d j) (macData j) (macContext verify d j)), intents := uses }
  else if verify then { pair := some (compareFlags (macValue true d j) (field j.params 24 (macLen j))), intents := uses }
  else { output := macValue false d j, intents := uses }
def macVerb (verify : Bool) (usage : Nat) : Verb :=
  { plainVerb with
    decode := macDecode verify
    maxOut := fun _ j => if !isEnd j then sealedLen else if verify then 0 else macLen j
    handles := fun _ j => [keyA j]
    checks := macCheck usage
    note := noteMac verify
    blocks := fun _ d j => macLead d j + macBodyBlocks (macContext verify d j) j
    chain := fun d j n => contextBytes (macAfter (macKey d j) (macContext verify d j) d j n)
    feeds := partData
    run := fun d j _ => macRun verify d j }

def macGenerateVerb : Verb := macVerb false 4

/-- MAC_GENERATE, 0x0503. -/
def execMacGenerate (core : CoreRef) (s : State) : Host.Outcome State Fault Refusal :=
  runDev (execVerb 0x0503 macGenerateVerb core) s

def macVerifyVerb : Verb := macVerb true 5

/-- MAC_VERIFY, 0x0504. -/
def execMacVerify (core : CoreRef) (s : State) : Host.Outcome State Fault Refusal :=
  runDev (execVerb 0x0504 macVerifyVerb core) s

/-! ### Digest: 0x0801 (11 R409) -/

def isDigestCode (alg : Nat) : Bool := decide (hashLen alg ≠ 0) || isShake alg
/-- The digest's length; of a SHAKE, mac_len (DEDUCED). -/
def digestLen (j : Job) : Nat := if isShake (dataAlg j) then macLen j else hashLen (dataAlg j)
def freshDigest (j : Job) : Context := { alg := dataAlg j, state := hashInit (dataAlg j) }
def digestDecode (d : Device) (j : Job) : Code :=
  let alg := dataAlg j
  firstCode [reserved j 0 4, need (isDigestCode alg) 0x0110, need (decide ((parByte j 5).toNat < 4)) 0x0110, reserved j 7 41,
    if isShake alg then need (decide (1 ≤ macLen j)) 0x0110 else reserved j 6 1,
    contextCode alg false 0 j d, partLengthCode alg 0 j, sealCode j d]
/-- The context after whole blocks of data. -/
def digestAfter (c : Context) (data : Bytes) : Context :=
  { c with processed := c.processed + data.length
           state := absorb c.alg (c.state.take (hashStateLen c.alg)) (chunks (hashRate c.alg) data) }
def digestStart (d : Device) (j : Job) : Context := startContext (freshDigest j) j d
def digestRun (d : Device) (j : Job) : Staged :=
  let c := digestStart d j
  let p := wholeBlocks (hashRate c.alg) (fedData .punty j)
  let e := digestAfter c p.1
  if isEnd j then { output := hashEnd c.alg (digestLen j) (e.processed + p.2.length) e.state p.2 }
  else { output := sealNow j d e }
/-- Compressions or permutations of a part: of its whole blocks, and at the end of the padding and of the output after the first rate (08 R302
counter 0). -/
def digestBlocks (c : Context) (j : Job) : Nat :=
  let r := hashRate c.alg
  let p := wholeBlocks r (fedData .punty j)
  p.1.length / r +
    (if isEnd j then (hashPad c.alg (c.processed + (partData j).length) p.2).length / r +
        (if isSha2 c.alg then 0 else ceilDiv (digestLen j) r - 1)
     else 0)
def noteDigest (b : Nat) (j : Job) (d : Device) : Device :=
  let d := if isStart j then d else countEvent .punty 6 b j.id d
  if isEnd j then d else countSeal b (countEvent .punty 5 b j.id d)
def digestVerb : Verb :=
  { plainVerb with
    decode := digestDecode
    maxOut := fun _ j => if isEnd j then digestLen j else sealedLen
    note := noteDigest
    blocks := fun _ d j => digestBlocks (digestStart d j) j
    chain := fun d j n =>
      let c := digestStart d j
      contextBytes (digestAfter c ((wholeBlocks (hashRate c.alg) (fedData .punty j)).1.take (hashRate c.alg * n)))
    feeds := partData
    run := fun d j _ => digestRun d j }
/-- DIGEST, 0x0801. -/
def execDigest (core : CoreRef) (s : State) : Host.Outcome State Fault Refusal :=
  runDev (execVerb 0x0801 digestVerb core) s

end Sys2Proof.Machine
end

