-- ==== Sys2Proof/Machine/SigningVerbs.lean ====
section
/-! DEFINITION. The public-key verbs 0x0601 to 0x060D (11 R404 to R408; 06 R210 to R236), and what every verb with the
parameter block of R405 shares. -/

namespace Sys2Proof.Machine

/-! ### The parameter block (11 R405) -/

def scheme (j : Job) : Nat := (parByte j 8).toNat
def hashCode (j : Job) : Nat := (parByte j 9).toNat
def optBit (j : Job) (n : Nat) : Bool := (parByte j 10).getLsbD n
def ctxLen (j : Job) : Nat := (parByte j 11).toNat
def newKey (j : Job) : Template := templateAt j.params 16
def hashes : List Nat := [0x22, 0x23, 0x24]
/-- What a verb permits in the block: schemes, hashes, option bits, a context, a template, a handle. -/
structure Block where
  schemes : List Nat := [0]
  hashes : List Nat := [0]
  options : List Nat := [2]
  context : Bool := false
  template : Bool := false
  key : Bool := true
deriving DecidableEq, Repr
/-- The checks of the block that need no key. -/
def blockCode (x : Block) (j : Job) : Code :=
  firstCode [reserved j 4 4, reserved j 12 4, reserved j 28 20, if x.template then templateRsv j 16 else reserved j 16 12,
    if x.key && !optBit j 3 then 0 else reserved j 0 4,
    need (x.schemes.contains (scheme j)) 0x0110, need (x.hashes.contains (hashCode j)) 0x0110,
    need ((List.range 8).all (fun n => !optBit j n || x.options.contains n)) 0x0110,
    need (x.context || decide (ctxLen j = 0)) 0x0110]

/-! ### Keys -/

/-- The usage bits that suit a class (03 R78; 11 R389, R404, R409; DEDUCED). -/
def usageMask (cls : Nat) : BitVec 16 :=
  match cls with
  | 0x10 => 0x020A | 0x11 => 0x0405 | 0x18 => 0x0300 | 0x1A => 0x0200 | 0x20 => 0x1008 | 0x21 => 0x0804 | 0x28 => 0x0200
  | 0x30 => 0x8000
  | _ => 0x0400
def suits (t : Template) : Bool := paramOk t.cls.toNat t.param.toNat && (t.usage &&& ~~~usageMask t.cls.toNat) == 0
/-- A template of one class. -/
def templateOf (cls : Nat) (t : Template) : Bool := decide (t.cls.toNat = cls) && suits t
def clsByte (cls : Nat) : Byte := BitVec.ofNat 8 cls
/-- A public key of a class: that of key_a, or the head of the input (options[3]). -/
def pubParam (cls : Nat) (d : Device) (j : Job) : Nat :=
  if optBit j 3 then (Config.inputKeyParam (clsByte cls) j.input).toNat else (headOf (keyA j) d).keyParam.toNat
def pubBytes (cls : Nat) (d : Device) (j : Job) : Nat := materialLen cls (pubParam cls d j) false
def pubKey (cls : Nat) (d : Device) (j : Job) : Bytes := if optBit j 3 then j.input.take (pubBytes cls d j) else keyOf (keyA j) d
/-- The input after a public key. -/
def afterKey (cls : Nat) (d : Device) (j : Job) : Bytes := if optBit j 3 then j.input.drop (pubBytes cls d j) else j.input
/-- The size of the key is known: it stands in the input, or key_a names a key of the class. -/
def sizeKnown (cls : Nat) (d : Device) (j : Job) : Bool :=
  if optBit j 3 then paramOk cls (pubParam cls d j)
  else decide (lookupCode j.tenant (keyA j) d = 0) && decide ((headOf (keyA j) d).keyClass.toNat = cls)
/-- A check of lengths, made where the size of the key is known. -/
def sizedCode (cls : Nat) (d : Device) (j : Job) (ok : Bool) : Code := if sizeKnown cls d j then need ok 0x0109 else 0
/-- The key check of a verb that reads a public key. -/
def pubCheck (cls usage : Nat) (d : Device) (j : Job) : Code :=
  if optBit j 3 then need (paramOk cls (pubParam cls d j) && formOk cls (pubParam cls d j) (pubKey cls d j)) 0x0203
  else keyCheck j.tenant (keyA j) (slotClass [cls]) (some usage) d
def privCheck (cls usage : Nat) (d : Device) (j : Job) : Code := keyCheck j.tenant (keyA j) (slotClass [cls]) (some usage) d
def privParam (d : Device) (j : Job) : Nat := (headOf (keyA j) d).keyParam.toNat
/-- Handles looked up, and uses counted, of a verb whose key may stand in the input. -/
def pubHandles (j : Job) : List (BitVec 32) := if optBit j 3 then [] else [keyA j]

/-! ### Messages (11 R405, R406): the signature comes first, then the message or digest, then the context (DEDUCED) -/

/-- The message of a string that holds a signature of `n` bytes before it and the context after it. -/
def messageOf (n : Nat) (j : Job) (b : Bytes) : Bytes := (b.drop n).take (b.length - n - ctxLen j)
def contextOfJob (j : Job) (b : Bytes) : Bytes := b.drop (b.length - ctxLen j)
/-- The lengths fit: a digest has its hash's length. -/
def messageFits (n : Nat) (j : Job) (b : Bytes) (digest : Nat) : Bool :=
  decide (n + ctxLen j ≤ b.length) && (!optBit j 0 || decide (b.length = n + digest + ctxLen j))
/-- The digest of a message, or the digest given. -/
def messageDigest (j : Job) (m : Bytes) : Bytes :=
  if optBit j 0 then m else digestOf (parByte j 9) (hashLen (hashCode j)) m

/-! ### Creation of a key pair (11 R407) -/

/-- Bytes of the public key's encoding, of the class next to a private one. -/
def publicLen (t : Template) : Nat := materialLen (t.cls.toNat + 1) t.param.toNat false
/-- The public key's encoding, then the block. -/
def createdPair (d : Device) (j : Job) (x : KeyDraft) (blind nonce : Bytes) : Staged :=
  created d j x (fit (publicLen (newKey j)) (publicOf x.keyClass x.keyParam x.material (scheduleOf j blind))) nonce []
def pairBlind (j : Job) : Nat := creationBlind (newKey j).cls.toNat (newKey j).param.toNat
def pairOut (j : Job) : Nat := publicLen (newKey j) + blockLen (materialLen (newKey j).cls.toNat (newKey j).param.toNat false)
/-- A key generation: its template, the bytes of its material drawn, and the material they give. -/
def pairVerb (cls : Nat) (drawLen : Job → Nat) (steps : Device → Job → Nat) (draft : Job → Bytes → KeyDraft) : Verb :=
  { plainVerb with
    decode := fun _ j => blockCode { template := true, key := false } j
    maxOut := fun _ j => pairOut j
    inner := fun d j => rootRead j.tenant d
    checks := fun d j => firstCode [need (templateOf cls (newKey j)) 0x0203, rootCode d j]
    draws := fun _ j => drawLen j + 2 * pairBlind j + 12
    steps := steps
    fresh := fun j => optBit j 2
    run := fun d j r =>
      createdPair d j (draft j (r.take (drawLen j))) (field r (drawLen j) (pairBlind j)) (r.drop (drawLen j + 2 * pairBlind j)) }
/-- The key of an agreement or encapsulation: AES of 32 bytes, with the usage of T (11 R408). -/
def agreedOk (t : Template) : Bool := t.cls == 0x03 && t.param == 32 && symmetricUsage t.usage
def agreedOut : Nat := 8 + blockLen 32
def agreedKey (d : Device) (j : Job) (head secret nonce : Bytes) : Staged :=
  let x := draftOf (newKey j) 0x04 (fit 32 secret)
  created d j x (head ++ x.checkValue) nonce (pubHandles j)

/-! ### RSA: 0x0601 to 0x0605 -/

/-- A CRT private key from its primes, with e = 65,537 (03 R82, 06 R236). -/
def rsaMaterial (param : Nat) (p q : Nat) : Bytes :=
  let n := 16 * param
  beBytes n p ++ beBytes n q ++ beBytes n (inverseMod (p - 1) 65537) ++ beBytes n (inverseMod (q - 1) 65537) ++
  beBytes n (inverseMod p q) ++ beBytes 8 65537
/-- The four sizes of generation (06 R224). -/
def generatedSize (t : Template) : Bool := t.param == 8 || t.param == 12 || t.param == 16 || t.param == 32
/-- Steps of an operation whose length depends on what it draws. -/
def searchSteps (_ : Device) (j : Job) : Nat := if isStepped j then max 1 (Config.stepsNeeded j.id) else 1
/-- A candidate of exactly half the modulus's bits: its two highest bits and its lowest are set, so that the modulus has its full size (06
R236). -/
def primeShape (param x : Nat) : Nat := 3 * 2 ^ (128 * param - 2) + x % 2 ^ (128 * param - 3) * 2 + 1
/-- One round of the Miller and Rabin test of n, with n − 1 = 2^k·m (FIPS 186-5). -/
def squaresMeet (n : Nat) : Nat → Nat → Bool
  | 0, _ => false
  | fuel + 1, x => x == n - 1 || squaresMeet n fuel (x * x % n)
def twoPart : Nat → Nat → Nat × Nat
  | 0, m => (0, m)
  | fuel + 1, m => if m % 2 = 0 then ((twoPart fuel (m / 2)).1 + 1, (twoPart fuel (m / 2)).2) else (0, m)
def roundPasses (n a : Nat) : Bool :=
  let q := twoPart (bitLen n) (n - 1)
  let x := montPow n a q.2 (bitLen q.2)
  x == 1 || squaresMeet n q.1 x
/-- Bases of the test (DESIGN CHOICE: 00 R6 and 06 R224 name no bases; log entry 92). -/
def testBases : List Nat := [2, 3, 5, 7, 11, 13, 17, 19, 23, 29, 31, 37, 41, 43, 47, 53, 59, 61, 67, 71]
def probablePrime (n : Nat) : Bool := testBases.all (fun a => n % a != 0 && roundPasses n a)
/-- A prime whose predecessor shares no factor with e, at or after a candidate that the search draws; none where a long run of candidates
holds none. Which candidate it draws is open. -/
def searchPrime (param x : Nat) : Option Nat :=
  ((List.range 65536).map (fun i => primeShape param (x + i))).find? (fun p => probablePrime p && decide (Nat.gcd (p - 1) 65537 = 1))
def rsaPrimesOf (param : Nat) (r : Bytes) : Option (Nat × Nat) :=
  let c := Config.rsaCandidates param (beNat r)
  match searchPrime param c.1, searchPrime param c.2 with
  | some p, some q => if p = q then none else some (p, q)
  | _, _ => none
def rsaDraft (j : Job) (r : Bytes) : KeyDraft :=
  let n := (newKey j).param.toNat
  let ps := (rsaPrimesOf n r).getD (0, 0)
  draftOf (newKey j) 0x01 (rsaMaterial n ps.1 ps.2)
def rsaGenerateVerb : Verb :=
  let v := pairVerb 0x10 (fun j => 32 * (newKey j).param.toNat) searchSteps rsaDraft
  { v with
    checks := fun d j => firstCode [need (generatedSize (newKey j)) 0x0203, v.checks d j]
    run := fun d j r =>
      let n := (newKey j).param.toNat
      if (rsaPrimesOf n (r.take (32 * n))).isNone then { redo := true } else v.run d j r }
/-- RSA_KEY_GENERATION, 0x0601. -/
def execRsaKeyGeneration (core : CoreRef) (s : State) : Host.Outcome State Fault Refusal :=
  runDev (execVerb 0x0601 rsaGenerateVerb core) s

/-- The encoded representative of a message (11 R406); PSS takes a salt of the hash's length. -/
def rsaPoint (j : Job) (param : Nat) (m salt : Bytes) : Nat :=
  rsaEncode (parByte j 8) (parByte j 9) param (messageDigest j m) salt
def saltLen (j : Job) : Nat := if scheme j = 2 then hashLen (hashCode j) else 0
def rsaSignBlock : Block := { schemes := [1, 2], hashes := hashes, options := [0, 2] }
/-- Validation class 0 of the representative of a signature, formed with its salt (06 R217, R220). -/
def signValidation (d : Device) (j : Job) (salt : Bytes) : Code :=
  validate j.tenant 0 [.integer (rsaPoint j (privParam d j) j.input salt) (rsaModulus (privParam d j) (keyOf (keyA j) d))] d
def rsaSignVerb : Verb :=
  { plainVerb with
    decode := fun _ j => firstCode [blockCode rsaSignBlock j, need (messageFits 0 j j.input (hashLen (hashCode j))) 0x0109]
    maxOut := fun d j => if sizeKnown 0x10 d j then rsaModBytes (privParam d j) else 0
    handles := fun _ j => [keyA j]
    checks := fun d j => let k := privCheck 0x10 9 d j; if k ≠ 0 then k else if scheme j = 1 then signValidation d j [] else 0
    draws := fun d j => saltLen j + 2 * rsaBlindBytes (privParam d j)
    early := fun _ j => saltLen j
    late := signValidation
    steps := fixedSteps
    fresh := fun j => optBit j 2
    run := fun d j r =>
      let n := privParam d j
      { output := beBytes (rsaModBytes n) (rsaPrivateOp n (keyOf (keyA j) d) (field r (saltLen j) (rsaBlindBytes n))
          (rsaPoint j n j.input (r.take (saltLen j))))
        intents := usesOf [keyA j] } }
/-- RSA_SIGN, 0x0602. -/
def execRsaSign (core : CoreRef) (s : State) : Host.Outcome State Fault Refusal :=
  runDev (execVerb 0x0602 rsaSignVerb core) s
def rsaVerifyBlock : Block := { schemes := [1, 2], hashes := hashes, options := [0, 2, 3] }
def rsaSigLen (d : Device) (j : Job) : Nat := rsaModBytes (pubParam 0x11 d j)
def rsaSignature (d : Device) (j : Job) : Nat := beNat ((afterKey 0x11 d j).take (rsaSigLen d j))
def rsaValid (d : Device) (j : Job) : Bool :=
  let n := pubParam 0x11 d j
  rsaVerifyEncoding (parByte j 8) (parByte j 9) n (messageDigest j (messageOf (rsaSigLen d j) j (afterKey 0x11 d j)))
    (rsaPublicOp n (pubKey 0x11 d j) (rsaSignature d j))
def rsaVerifyVerb : Verb :=
  { plainVerb with
    decode := fun d j => firstCode [blockCode rsaVerifyBlock j,
      sizedCode 0x11 d j (messageFits (rsaSigLen d j) j (afterKey 0x11 d j) (hashLen (hashCode j)))]
    handles := fun _ j => pubHandles j
    checks := fun d j =>
      let k := pubCheck 0x11 10 d j
      if k ≠ 0 then k
      else validate j.tenant 1 [.integer (rsaSignature d j) (rsaPublicModulus (pubParam 0x11 d j) (pubKey 0x11 d j))] d
    steps := fixedSteps
    run := fun d j _ => { verdict := verdictByte (rsaValid d j), intents := usesOf (pubHandles j) } }
/-- RSA_VERIFY, 0x0603. -/
def execRsaVerify (core : CoreRef) (s : State) : Host.Outcome State Fault Refusal :=
  runDev (execVerb 0x0603 rsaVerifyVerb core) s
/-- OAEP (11 R406): the ciphertext of a modulus, and the longest message it carries. -/
def oaepRoom (param : Nat) : Nat := rsaModBytes param - 66
def rsaDecryptVerb : Verb :=
  { plainVerb with
    decode := fun d j => firstCode [blockCode { schemes := [3], hashes := hashes } j,
      sizedCode 0x10 d j (decide (j.input.length = rsaModBytes (privParam d j)))]
    maxOut := fun d j => if sizeKnown 0x10 d j then oaepRoom (privParam d j) else 0
    handles := fun _ j => [keyA j]
    checks := fun d j =>
      let k := privCheck 0x10 1 d j
      let n := privParam d j
      let key := keyOf (keyA j) d
      if k ≠ 0 then k else validate j.tenant 0 [.integer (beNat j.input) (rsaModulus n key)] d
    draws := fun d j => 2 * rsaBlindBytes (privParam d j)
    steps := fixedSteps
    fresh := fun j => optBit j 2
    run := fun d j r => match rsaDecode (privParam d j)
        (rsaPrivateOp (privParam d j) (keyOf (keyA j) d) (r.take (rsaBlindBytes (privParam d j))) (beNat j.input)) with
      | some m => { output := m.take (oaepRoom (privParam d j)), intents := usesOf [keyA j] }
      | none => { code := 0x0306 } }
/-- RSA_DECRYPT, 0x0604. -/
def execRsaDecrypt (core : CoreRef) (s : State) : Host.Outcome State Fault Refusal :=
  runDev (execVerb 0x0604 rsaDecryptVerb core) s
/-- The representative of a message under its seed, and its validation (06 R217, class 1). -/
def oaepOf (d : Device) (j : Job) (seed : Bytes) : Nat := rsaEncode 0x03 0x22 (pubParam 0x11 d j) (afterKey 0x11 d j) seed
def encryptValidation (d : Device) (j : Job) (seed : Bytes) : Code :=
  validate j.tenant 1 [.integer (oaepOf d j seed) (rsaPublicModulus (pubParam 0x11 d j) (pubKey 0x11 d j))] d
def rsaEncryptVerb : Verb :=
  { plainVerb with
    decode := fun d j => firstCode [blockCode { schemes := [3], hashes := hashes, options := [2, 3] } j,
      sizedCode 0x11 d j (decide ((afterKey 0x11 d j).length ≤ oaepRoom (pubParam 0x11 d j)) &&
        (!optBit j 3 || decide (pubBytes 0x11 d j ≤ j.input.length)))]
    maxOut := fun d j => if sizeKnown 0x11 d j then rsaSigLen d j else 0
    handles := fun _ j => pubHandles j
    checks := fun d j => pubCheck 0x11 0 d j
    draws := fun _ _ => 32
    early := fun _ _ => 32
    late := encryptValidation
    steps := fixedSteps
    fresh := fun j => optBit j 2
    run := fun d j r =>
      { output := beBytes (rsaModBytes (pubParam 0x11 d j)) (rsaPublicOp (pubParam 0x11 d j) (pubKey 0x11 d j) (oaepOf d j r))
        intents := usesOf (pubHandles j) } }
/-- RSA_ENCRYPT, 0x0605. -/
def execRsaEncrypt (core : CoreRef) (s : State) : Host.Outcome State Fault Refusal :=
  runDev (execVerb 0x0605 rsaEncryptVerb core) s

/-! ### Curves: 0x0606 to 0x060C -/

/-- A private scalar in [1, n − 1] from a draw of eight bytes more than the order. -/
def scalarOf (curve : Byte) (r : Bytes) : Nat := beNat r % (curveOrder curve - 1) + 1
def scalarDraw (curve : Nat) : Nat := curveBytes curve + 8
def ecDraft (j : Job) (r : Bytes) : KeyDraft :=
  let t := newKey j
  draftOf t 0x01 (beBytes (curveBytes t.param.toNat) (scalarOf t.param r))

def ecPairVerb : Verb := pairVerb 0x18 (fun j => scalarDraw (newKey j).param.toNat) fixedSteps ecDraft

/-- EC_KEY_GENERATION, 0x0606. -/
def execEcKeyGeneration (core : CoreRef) (s : State) : Host.Outcome State Fault Refusal :=
  runDev (execVerb 0x0606 ecPairVerb core) s
/-- An ECDSA signature is r and s, each as wide as the order (11 R406). -/
def ecSigLen (param : Nat) : Nat := 2 * curveBytes param
/-- A nonce that gives r = 0 or s = 0 gives no signature, and another is drawn (FIPS 186-5). -/
def ecdsaSignVerb : Verb :=
  { plainVerb with
    decode := fun _ j => firstCode [blockCode { hashes := hashes, options := [0, 2] } j,
      need (messageFits 0 j j.input (hashLen (hashCode j))) 0x0109]
    maxOut := fun d j => if sizeKnown 0x18 d j then ecSigLen (privParam d j) else 0
    handles := fun _ j => [keyA j]
    checks := privCheck 0x18 9
    draws := fun d j => scalarDraw (privParam d j) + 2 * invertBlindBytes (clsByte (privParam d j))
    steps := fixedSteps
    fresh := fun j => optBit j 2
    run := fun d j r =>
      let c := (headOf (keyA j) d).keyParam
      let n := scalarDraw c.toNat
      match ecdsaSign c (beNat (keyOf (keyA j) d)) (messageDigest j j.input) (scalarOf c (r.take n)) (field r n (invertBlindBytes c)) with
      | some sig => { output := fit (ecSigLen c.toNat) sig, intents := usesOf [keyA j] }
      | none => { redo := true } }
/-- ECDSA_SIGN, 0x0607. -/
def execEcdsaSign (core : CoreRef) (s : State) : Host.Outcome State Fault Refusal :=
  runDev (execVerb 0x0607 ecdsaSignVerb core) s
/-- The inputs of an ECDSA verification (06 R217, class 3). -/
def ecdsaInputs (d : Device) (j : Job) : List Validated :=
  let c := pubParam 0x19 d j
  let b := afterKey 0x19 d j
  let n := curveOrder (clsByte c)
  [.point (clsByte c) (pubKey 0x19 d j), .scalar (beNat (field b 0 (curveBytes c))) n,
   .scalar (beNat (field b (curveBytes c) (curveBytes c))) n]
def ecdsaVerifyVerb : Verb :=
  { plainVerb with
    decode := fun d j => firstCode [blockCode { hashes := hashes, options := [0, 2, 3] } j,
      sizedCode 0x19 d j (messageFits (ecSigLen (pubParam 0x19 d j)) j (afterKey 0x19 d j) (hashLen (hashCode j)))]
    handles := fun _ j => pubHandles j
    checks := fun d j => let k := pubCheck 0x19 10 d j; if k ≠ 0 then k else validate j.tenant 3 (ecdsaInputs d j) d
    steps := fixedSteps
    run := fun d j _ =>
      let c := pubParam 0x19 d j
      let b := afterKey 0x19 d j
      { verdict := verdictByte (ecdsaVerify (clsByte c) (pubKey 0x19 d j) (messageDigest j (messageOf (ecSigLen c) j b))
          (b.take (ecSigLen c)))
        intents := usesOf (pubHandles j) } }
/-- ECDSA_VERIFY, 0x0608. -/
def execEcdsaVerify (core : CoreRef) (s : State) : Host.Outcome State Fault Refusal :=
  runDev (execVerb 0x0608 ecdsaVerifyVerb core) s
/-- The key is SHA-256 of the x-coordinate (11 R408); the peer point is validation class 2. -/
def ecdhVerb : Verb :=
  { plainVerb with
    decode := fun d j => firstCode [blockCode { template := true } j,
      sizedCode 0x18 d j (decide (j.input.length = 2 * curveBytes (privParam d j)))]
    maxOut := fun _ _ => agreedOut
    handles := fun _ j => [keyA j]
    inner := fun d j => rootRead j.tenant d
    checks := fun d j =>
      let k := privCheck 0x18 8 d j
      if k ≠ 0 then k
      else firstCode [need (agreedOk (newKey j)) 0x0203, rootCode d j,
        validate j.tenant 2 [.point (headOf (keyA j) d).keyParam j.input] d]
    draws := fun d j => 2 * curveBlindBytes (clsByte (privParam d j)) + 12
    steps := fixedSteps
    fresh := fun j => optBit j 2
    run := fun d j r =>
      let c := (headOf (keyA j) d).keyParam
      let n := curveBlindBytes c
      agreedKey d j [] (sha256 (curveSharedX c (beNat (keyOf (keyA j) d)) j.input (r.take n))) (r.drop (2 * n)) }
/-- ECDH_TO_NEW_SLOT, 0x0609. -/
def execEcdhToNewSlot (core : CoreRef) (s : State) : Host.Outcome State Fault Refusal :=
  runDev (execVerb 0x0609 ecdhVerb core) s
def edDraft (j : Job) (r : Bytes) : KeyDraft := draftOf (newKey j) 0x01 r

def edPairVerb : Verb := pairVerb 0x1A (fun j => curveBytes (newKey j).param.toNat) fixedSteps edDraft

/-- EDDSA_KEY_GENERATION, 0x060A. -/
def execEddsaKeyGeneration (core : CoreRef) (s : State) : Host.Outcome State Fault Refusal :=
  runDev (execVerb 0x060A edPairVerb core) s
/-- A context goes with Ed448 only (11 R405). -/
def edContext (cls : Nat) (d : Device) (j : Job) : Code :=
  if sizeKnown cls d j then need (decide (pubParam cls d j = 0x11) || decide (ctxLen j = 0)) 0x0110 else 0
def edSigLen (param : Nat) : Nat := 2 * curveBytes param
def eddsaSignVerb : Verb :=
  { plainVerb with
    decode := fun d j => firstCode [blockCode { context := true } j, edContext 0x1A d j, need (messageFits 0 j j.input 0) 0x0109]
    maxOut := fun d j => if sizeKnown 0x1A d j then edSigLen (privParam d j) else 0
    handles := fun _ j => [keyA j]
    checks := privCheck 0x1A 9
    draws := fun d j => 4 * curveBlindBytes (clsByte (privParam d j))
    steps := fixedSteps
    fresh := fun j => optBit j 2
    run := fun d j r =>
      let c := (headOf (keyA j) d).keyParam
      { output := fit (edSigLen c.toNat) (eddsaSign c (keyOf (keyA j) d) (contextOfJob j j.input) (messageOf 0 j j.input)
          (r.take (2 * curveBlindBytes c)))
        intents := usesOf [keyA j] } }
/-- EDDSA_SIGN, 0x060B. -/
def execEddsaSign (core : CoreRef) (s : State) : Host.Outcome State Fault Refusal :=
  runDev (execVerb 0x060B eddsaSignVerb core) s
/-- The inputs of an EdDSA verification (06 R217, class 4): public key, R, and S, little-endian. -/
def eddsaInputs (d : Device) (j : Job) : List Validated :=
  let c := pubParam 0x1B d j
  let b := afterKey 0x1B d j
  [.point (clsByte c) (pubKey 0x1B d j), .point (clsByte c) (field b 0 (curveBytes c)),
   .scalar (num b (curveBytes c) (curveBytes c)) (curveOrder (clsByte c))]
def eddsaVerifyVerb : Verb :=
  { plainVerb with
    decode := fun d j => firstCode [blockCode { options := [2, 3], context := true } j, edContext 0x1B d j,
      sizedCode 0x1B d j (messageFits (edSigLen (pubParam 0x1B d j)) j (afterKey 0x1B d j) 0)]
    handles := fun _ j => pubHandles j
    checks := fun d j => let k := pubCheck 0x1B 10 d j; if k ≠ 0 then k else validate j.tenant 4 (eddsaInputs d j) d
    steps := fixedSteps
    run := fun d j _ =>
      let c := pubParam 0x1B d j
      let b := afterKey 0x1B d j
      { verdict := verdictByte (eddsaVerify (clsByte c) (pubKey 0x1B d j) (contextOfJob j b) (messageOf (edSigLen c) j b)
          (b.take (edSigLen c)))
        intents := usesOf (pubHandles j) } }
/-- EDDSA_VERIFY, 0x060C. -/
def execEddsaVerify (core : CoreRef) (s : State) : Host.Outcome State Fault Refusal :=
  runDev (execVerb 0x060C eddsaVerifyVerb core) s

/-! ### Public key import: 0x060D -/

/-- The classes of public keys. -/
def publicClass (cls : Nat) : Bool := [0x11, 0x19, 0x1B, 0x21, 0x29, 0x31].contains cls
/-- A public key's point, or its encapsulation key, is checked as an operation would check it (DEDUCED). -/
def importValidation (d : Device) (j : Job) : Code :=
  let t := newKey j
  if t.cls = 0x19 then validate j.tenant 3 [.point t.param j.input] d
  else if t.cls = 0x1B then validate j.tenant 4 [.point t.param j.input] d
  else if t.cls = 0x21 then need (mlKemDecodes t.param j.input) 0x0303
  else 0
def importLen (j : Job) : Nat := materialLen (newKey j).cls.toNat (newKey j).param.toNat false
def publicImportVerb : Verb :=
  { plainVerb with
    decode := fun _ j => firstCode [blockCode { template := true, key := false } j,
      need (!(publicClass (newKey j).cls.toNat && suits (newKey j)) || decide (j.input.length = importLen j)) 0x0109]
    maxOut := fun _ j => 8 + blockLen (importLen j)
    inner := fun d j => rootRead j.tenant d
    checks := fun d j => firstCode [
      need (publicClass (newKey j).cls.toNat && suits (newKey j) && formOk (newKey j).cls.toNat (newKey j).param.toNat j.input) 0x0203,
      rootCode d j, importValidation d j]
    draws := fun _ _ => 12
    steps := fixedSteps
    fresh := fun j => optBit j 2
    run := fun d j r => let x := draftOf (newKey j) 0x02 j.input; created d j x x.checkValue r [] }
/-- PUBLIC_KEY_IMPORT, 0x060D. -/
def execPublicKeyImport (core : CoreRef) (s : State) : Host.Outcome State Fault Refusal :=
  runDev (execVerb 0x060D publicImportVerb core) s

end Sys2Proof.Machine
end

