-- ==== Sys2Proof/Machine/LatticeVerbs.lean ====
section
/-! DEFINITION. The lattice verbs 0x0701 to 0x0706 (11 R404 to R408; 07 R260 to R268), retention signing 0x0802 to 0x0804
(11 R409 to R416), and random output 0x0901 (11 R417). -/

namespace Sys2Proof.Machine

/-! ### ML-KEM: 0x0701 to 0x0703 -/

def seedDraft (j : Job) (r : Bytes) : KeyDraft := { draftOf (newKey j) 0x01 r with seedForm := true }

def kemPairVerb : Verb := pairVerb 0x20 (fun _ => 64) fixedSteps seedDraft

/-- ML_KEM_KEY_GENERATION, 0x0701. -/
def execMlKemKeyGeneration (core : CoreRef) (s : State) : Host.Outcome State Fault Refusal :=
  runDev (execVerb 0x0701 kemPairVerb core) s
/-- Bytes of the values of one run of an encapsulation, and of a decapsulation (07 R254; log entry 81). -/
def encapsulateBlind (param : Nat) : Nat := passBytes * kemEncryptPasses (kemSet (clsByte param))
def decapsulateBlind (param : Nat) : Nat := passBytes * kemDecapsPasses (kemSet (clsByte param))
/-- The result is the ciphertext, the check value and the block; the key is K (11 R408). -/
def encapsulateVerb : Verb :=
  { plainVerb with
    decode := fun d j => firstCode [blockCode { options := [2, 3], template := true } j,
      sizedCode 0x21 d j (decide (j.input.length = if optBit j 3 then pubBytes 0x21 d j else 0))]
    maxOut := fun d j => if sizeKnown 0x21 d j then kemCiphertextLen (pubParam 0x21 d j) + agreedOut else 0
    handles := fun _ j => pubHandles j
    inner := fun d j => rootRead j.tenant d
    checks := fun d j =>
      let k := pubCheck 0x21 11 d j
      if k ≠ 0 then k
      else firstCode [need (agreedOk (newKey j)) 0x0203, rootCode d j,
        need (!optBit j 3 || mlKemDecodes (clsByte (pubParam 0x21 d j)) (pubKey 0x21 d j)) 0x0303]
    draws := fun d j => 32 + 2 * encapsulateBlind (pubParam 0x21 d j) + 12
    steps := fixedSteps
    fresh := fun j => optBit j 2
    run := fun d j r =>
      let n := pubParam 0x21 d j
      let ek := pubKey 0x21 d j
      let m := r.take 32
      agreedKey d j (fit (kemCiphertextLen n) (mlKemCiphertext (scheduleOf j (field r 32 (encapsulateBlind n))) (clsByte n) ek m))
        (mlKemKeyOf (clsByte n) ek m) (r.drop (32 + 2 * encapsulateBlind n)) }
/-- ML_KEM_ENCAPSULATE, 0x0702. -/
def execMlKemEncapsulate (core : CoreRef) (s : State) : Host.Outcome State Fault Refusal :=
  runDev (execVerb 0x0702 encapsulateVerb core) s
/-- Either key completes (07 R265, R266). -/
def decapsulateVerb : Verb :=
  { plainVerb with
    decode := fun d j => firstCode [blockCode { template := true } j,
      sizedCode 0x20 d j (decide (j.input.length = kemCiphertextLen (privParam d j)))]
    maxOut := fun _ _ => agreedOut
    handles := fun _ j => [keyA j]
    inner := fun d j => rootRead j.tenant d
    checks := fun d j =>
      let k := privCheck 0x20 12 d j
      if k ≠ 0 then k else firstCode [need (agreedOk (newKey j)) 0x0203, rootCode d j]
    draws := fun d j => 2 * decapsulateBlind (privParam d j) + 12
    steps := fixedSteps
    fresh := fun j => optBit j 2
    run := fun d j r =>
      let n := decapsulateBlind (privParam d j)
      agreedKey d j [] (kemDecaps (scheduleOf j (r.take n)) (headOf (keyA j) d).keyParam (keyOf (keyA j) d) j.input) (r.drop (2 * n)) }
/-- ML_KEM_DECAPSULATE, 0x0703. -/
def execMlKemDecapsulate (core : CoreRef) (s : State) : Host.Outcome State Fault Refusal :=
  runDev (execVerb 0x0703 decapsulateVerb core) s

/-! ### ML-DSA: 0x0704 to 0x0706 -/

def dsaPairVerb : Verb := pairVerb 0x28 (fun _ => 32) fixedSteps seedDraft

/-- ML_DSA_KEY_GENERATION, 0x0704. -/
def execMlDsaKeyGeneration (core : CoreRef) (s : State) : Host.Outcome State Fault Refusal :=
  runDev (execVerb 0x0704 dsaPairVerb core) s
/-- Bytes of a signature of a parameter set (FIPS 204). -/
def dsaSigLen (param : Nat) : Nat := if param = 44 then 2420 else if param = 65 then 3309 else 4627
/-- What is signed: the message, or with HashML-DSA its SHA-512 digest. -/
def dsaMessage (j : Job) (m : Bytes) : Bytes := if scheme j = 2 then (if optBit j 0 then m else digestOf 0x24 64 m) else m
def dsaBlock (options : List Nat) : Block := { schemes := [1, 2], options := options, context := true }
/-- A digest goes with HashML-DSA only. -/
def dsaDigest (j : Job) : Code := need (!optBit j 0 || decide (scheme j = 2)) 0x0110
/-- rnd: drawn, or 32 zero bytes (07 R263, 11 R405). -/
def rndLen (j : Job) : Nat := if optBit j 1 then 0 else 32
/-- Bytes of the values of one run of a half of an attempt: those of the key's expansion, then those of either half (07 R254; log
entry 81). -/
def expandBlind (s : DsaSet) : Nat := passBytes * expandPasses s
def dsaBlind (s : DsaSet) : Nat := expandBlind s + passBytes * max (beginPasses s) (completePasses s)
/-- The saved state of an attempt between two steps: a header, then the polynomials y and w, 4 bytes to a coefficient (07 R260; its layout
is log entry 91's). -/
def encodeWork (a : DsaWork) : Bytes :=
  leBytes 4 a.kappa ++ [if a.begun then 1 else 0] ++ leBytes 1 a.y.length ++ leBytes 1 a.w.length ++ leBytes 1 a.commit.length ++
  fit 64 a.mu ++ fit 64 a.seed ++ fit 64 a.commit ++ (a.y ++ a.w).flatMap (fun f => (List.range 256).flatMap (fun i => leBytes 4 ((f[i]?).getD 0)))
def workPoly (b : Bytes) (n : Nat) : List Nat := (List.range 256).map (fun i => num b (200 + 1024 * n + 4 * i) 4)
def decodeWork (b : Bytes) : Option DsaWork :=
  if b = [] then none
  else
    let y := num b 5 1
    some { kappa := num b 0 4, begun := byteAt b 4 == 1, mu := field b 8 64, seed := field b 72 64, commit := field b 136 (num b 7 1)
           y := (List.range y).map (workPoly b), w := (List.range (num b 6 1)).map (fun i => workPoly b (y + i)) }
/-- The attempt that the latest step left. -/
def attemptOf (d : Device) (j : Job) : Option DsaWork := decodeWork (stepState d j)
/-- rnd is drawn once for the job, in its first step (07 R263). -/
def rndDue (d : Device) (j : Job) : Nat := if (attemptOf d j).isNone then rndLen j else 0
/-- A half of an attempt, with the step state that it saves: the first forms w1; the second forms z and the hint, and combines the
rejection conditions into one verdict (07 R260, R261). An accepted attempt's signature is the result; after 814 rejected ones the code
is 0x0507 (07 R262). -/
def dsaHalf (s : DsaSet) (x : DsaKey) (sch : Schedule) (size : Nat) (uses : List Intent) (a : DsaWork) : Staged :=
  if a.begun then
    match dsaComplete sch s x a.y a.w a.commit with
    | some sig => { output := fit size sig, intents := uses }
    | none =>
      if a.kappa + s.l < attemptLimit * s.l then { more := true, state := encodeWork { kappa := a.kappa + s.l, mu := a.mu, seed := a.seed } }
      else { code := 0x0507 }
  else
    let b := dsaBegin sch s x.rho a.mu a.seed a.kappa
    { more := true, state := encodeWork { a with y := b.1, w := b.2.1, commit := b.2.2, begun := true } }
def dsaSignVerb : Verb :=
  { plainVerb with
    decode := fun _ j => firstCode [blockCode (dsaBlock [0, 1, 2]) j, dsaDigest j, need (messageFits 0 j j.input 64) 0x0109]
    maxOut := fun d j => if sizeKnown 0x28 d j then dsaSigLen (privParam d j) else 0
    handles := fun _ j => [keyA j]
    checks := privCheck 0x28 9
    draws := fun d j => rndDue d j + 2 * dsaBlind (dsaSet (headOf (keyA j) d).keyParam)
    fresh := fun j => optBit j 2
    run := fun d j r =>
      let p := (headOf (keyA j) d).keyParam
      let s := dsaSet p
      let blind := field r (rndDue d j) (dsaBlind s)
      let x := dsaExpand (scheduleOf j (blind.take (expandBlind s))) s (keyOf (keyA j) d)
      let start := dsaStart x (parByte j 8) (fit 32 (r.take (rndDue d j))) (contextOfJob j j.input) (dsaMessage j (messageOf 0 j j.input))
      dsaHalf s x (scheduleOf j (blind.drop (expandBlind s))) (dsaSigLen p.toNat) (usesOf [keyA j])
        ((attemptOf d j).getD { mu := start.1, seed := start.2 }) }
/-- The rejection limit, compared like any result, ends the job with 0x0507 and a Warning (07 R262, R264; 19 R641). -/
def giveUp (core : CoreRef) (d : Device) : Device :=
  match jobOn core d with
  | some j => match j.staged with
    | some st =>
      if st.code = 0x0507 then
        dispatchAll (squashJob j.id 0x0507 (emitVia (.bench (lead core d).bench) .warning 0x0407 (.bench (lead core d).bench) 0xFF none
          [(headOf (keyA j) d).keyParam] d))
      else d
    | none => d
  | none => d
/-- ML_DSA_SIGN, 0x0705. In the Izvi personality the pair's compare point stands in for the compare of two passes (21 R671). -/
def execMlDsaSign (core : CoreRef) (s : State) : Host.Outcome State Fault Refusal :=
  runDev (fun d =>
    let e := execVerb 0x0705 dsaSignVerb core d
    if izvi d then giveUp core e else e) s
def dsaVerifyVerb : Verb :=
  { plainVerb with
    decode := fun d j => firstCode [blockCode (dsaBlock [0, 2, 3]) j, dsaDigest j,
      sizedCode 0x29 d j (messageFits (dsaSigLen (pubParam 0x29 d j)) j (afterKey 0x29 d j) 64)]
    handles := fun _ j => pubHandles j
    checks := pubCheck 0x29 10
    steps := fixedSteps
    run := fun d j _ =>
      let p := pubParam 0x29 d j
      let b := afterKey 0x29 d j
      { verdict := verdictByte (mlDsaVerify { safe := j.safeMode } (clsByte p) (pubKey 0x29 d j) (parByte j 8) (contextOfJob j b)
          (dsaMessage j (messageOf (dsaSigLen p) j b)) (b.take (dsaSigLen p)))
        intents := usesOf (pubHandles j) } }
/-- ML_DSA_VERIFY, 0x0706. -/
def execMlDsaVerify (core : CoreRef) (s : State) : Host.Outcome State Fault Refusal :=
  runDev (execVerb 0x0706 dsaVerifyVerb core) s

/-! ### Retention signing: 0x0802 to 0x0804 -/

/-- Indices of a key (11 R410). -/
def lmsIndices (levels : Nat) : Nat := 2 ^ (20 * levels)
/-- Bytes of an LMS signature of H20 and W4, and of a signature of a level count (RFC 8554). -/
def lmsOne : Nat := 2828
def lmsSigLen (levels : Nat) : Nat := if levels = 1 then lmsOne else 4 + (levels - 1) * (lmsOne + 56) + lmsOne
def retentionIndex (d : Device) (j : Job) : Nat := (headOf (keyA j) d).index.toNat
def retentionVerb : Verb :=
  { plainVerb with
    decode := fun _ j => firstCode [blockCode {} j, need (decide (j.input.length = 32)) 0x0109]
    maxOut := fun d j => if sizeKnown 0x30 d j then lmsSigLen (privParam d j) else 0
    handles := fun _ j => [keyA j]
    checks := fun d j => firstCode [privCheck 0x30 15 d j, need (decide (retentionIndex d j < lmsIndices (privParam d j))) 0x0408]
    run := fun d j _ =>
      let i := retentionIndex d j
      { output := fit (lmsSigLen (privParam d j)) (lmsSign (keyOf (keyA j) d) (privParam d j) i j.input)
        aux := BitVec.ofNat 32 i
        intents := usesOf [keyA j] ++ [.setIndex (handleSlot (keyA j)) i] } }
/-- RETENTION_SIGN, 0x0802. -/
def execRetentionSign (core : CoreRef) (s : State) : Host.Outcome State Fault Refusal :=
  runDev (execVerb 0x0802 retentionVerb core) s
/-- A key with index 0, its first record holding 1,024 (11 R410, R414). -/
def lmsDraft (j : Job) (r : Bytes) : KeyDraft :=
  withJournal 0x01 (ceilingCap 0x30 (newKey j).param 1024) (seedDraft j r)
/-- The journal must have room for a further key: found before Compute, and again at commit (11 R409, R413). -/
def lmsGenerateVerb : Verb :=
  let v := pairVerb 0x30 (fun _ => 48) searchSteps lmsDraft
  { v with checks := fun d j => firstCode [v.checks d j, need (decide (journalKeys d < 4096)) 0x0206] }
/-- LMS_HSS_KEY_GENERATION, 0x0803. -/
def execLmsHssKeyGeneration (core : CoreRef) (s : State) : Host.Outcome State Fault Refusal :=
  runDev (execVerb 0x0803 lmsGenerateVerb core) s
/-- A signature, then the digest of 32 bytes. -/
def lmsVerifyVerb : Verb :=
  { plainVerb with
    decode := fun d j => firstCode [blockCode { options := [2, 3] } j,
      sizedCode 0x31 d j (decide ((afterKey 0x31 d j).length = lmsSigLen (pubParam 0x31 d j) + 32))]
    handles := fun _ j => pubHandles j
    checks := pubCheck 0x31 10
    run := fun d j _ =>
      let b := afterKey 0x31 d j
      let n := lmsSigLen (pubParam 0x31 d j)
      { verdict := verdictByte (lmsVerify (clsByte (pubParam 0x31 d j)) (pubKey 0x31 d j) (b.drop n) (b.take n)), intents := usesOf (pubHandles j) } }
/-- LMS_HSS_VERIFY, 0x0804. -/
def execLmsHssVerify (core : CoreRef) (s : State) : Host.Outcome State Fault Refusal :=
  runDev (execVerb 0x0804 lmsVerifyVerb core) s

/-! ### Random: 0x0901 -/

def randomVerb : Verb :=
  { plainVerb with
    decode := fun _ j => firstCode [reserved j 0 10, reserved j 11 37, need ((parByte j 10 &&& 0xFB) == 0) 0x0110,
      need (decide (1 ≤ j.outCap ∧ j.outCap ≤ 65536)) 0x0109]
    maxOut := fun _ j => j.outCap
    draws := fun _ j => j.outCap
    fresh := fun j => optBit j 2
    run := fun _ _ r => { output := r } }
/-- RANDOM, 0x0901. -/
def execRandom (core : CoreRef) (s : State) : Host.Outcome State Fault Refusal := runDev (execVerb 0x0901 randomVerb core) s

end Sys2Proof.Machine
end

