-- ==== Sys2Proof/Machine/FlashVerbs.lean ====
section
/-! DEFINITION. The verbs that write configuration copies and firmware images, and the end of their write (15 R538 to
R548). -/

namespace Sys2Proof.Machine

/-- 256 KiB and 16 MiB (15 R538). -/
def copyMax : Nat := 262144
def imageMax : Nat := 16777216
/-- Another verb of R538 is open (15 R541). -/
def openCode (d : Device) (j : Job) : Code :=
  need (match imageOpen d with | some o => decide (o.id = j.id) | none => true) 0x040A
/-- What every verb of R538 shares: a parameter block of RSV, an input limit, steps, and an image to write. -/
def imageVerb (maxIn : Nat) (examination : Device → Job → Code) (kind : Nat) (image : Device → Job → Bytes) : Verb :=
  { plainVerb with
    decode := fun _ j => firstCode [reserved j 0 48, need (decide (j.input.length ≤ maxIn)) 0x0109]
    checks := fun d j => firstCode [openCode d j, examination d j]
    steps := searchSteps
    run := fun d j _ => { intents := [.flashImage kind (image d j)] } }

/-- The sequence exceeds that of the selected copy; without one, any does (15 R538, R539). -/
def sequenceRises (d : Device) (b : Bytes) : Bool := d.flash.selected == 0 || decide (d.flash.sequence.toNat < copySequence b)
/-- Examination of a new copy: 0x011A, or 0x011B where only the sequence fails (15 R539). -/
def copyCode (d : Device) (j : Job) : Code :=
  if examine d (fun _ => true) (copyOf j.input) ≠ 0 then 0x011A else need (sequenceRises d j.input) 0x011B

def writeCopyVerb : Verb := imageVerb copyMax copyCode 1 (fun _ j => j.input)

/-- WRITE_CONFIGURATION_COPY, 0x0A10. -/
def execWriteConfigurationCopy (core : CoreRef) (s : State) : Host.Outcome State Fault Refusal :=
  runDev (execVerb 0x0A10 writeCopyVerb core) s
/-- The selected copy's bytes. -/
def selectedBytes (d : Device) : Bytes := match copyInForce d.flash with | some c => c.bytes | none => []

def mirrorVerb : Verb := imageVerb 0 (fun d _ => need (d.flash.selected != 0) 0x011A) 2 (fun d _ => selectedBytes d)

/-- MIRROR_CONFIGURATION_COPY, 0x0A11: refused in states without a copy. -/
def execMirrorConfigurationCopy (core : CoreRef) (s : State) : Host.Outcome State Fault Refusal :=
  runDev (execVerb 0x0A11 mirrorVerb core) s

def firmwareVerb : Verb := imageVerb imageMax (fun d j => need (imageValid d (imageOf j.input)) 0x011C) 3 (fun _ j => j.input)

/-- WRITE_FIRMWARE_IMAGE, 0x0A12. -/
def execWriteFirmwareImage (core : CoreRef) (s : State) : Host.Outcome State Fault Refusal :=
  runDev (execVerb 0x0A12 firmwareVerb core) s

/-- The base of the area that a write targets (15 R521). -/
def imageArea (kind : Nat) (f : Flash) : Nat :=
  if kind = 3 then (if targetSlot2 f then 0x01100000 else 0x00100000) else (if targetEvening f then 0x00050000 else 0x00010000)
/-- The area holds what was written. -/
def placeImage (w : ImageWrite) (f : Flash) : Flash :=
  let f := { f with imageWrite := none }
  if w.kind = 3 then setImage (imageOf w.image) f else { setCopy (copyOf w.image) f with written := true }
/-- The Retire that waited for a write completes (15 R540). -/
def endImage (code : Code) (w : ImageWrite) (d : Device) : Device :=
  match jobOf w.job d with
  | none => d
  | some j => match j.place, j.staged with
    | .pending b, some s => if code = 0 then commitJob j b s d else finishJob j b code none d
    | _, _ => d
/-- The read-back matches, or the write failed: its area is torn, and event 0x0803 tells it. -/
def imageWritten (w : ImageWrite) (matched : Bool) (d : Device) : Device :=
  if matched then endImage 0 w { d with flash := placeImage w d.flash }
  else
    let area := imageArea w.kind d.flash
    endImage 0x0509 w (emit .alarm 0x0803 .nvm (leBytes 4 area ++ leBytes 4 (Config.flashOffset d.events.submitted))
      { d with flash := tearImage d.flash })
/-- FLASH_WRITE_READBACK_END (15 R540). -/
def execFlashWriteReadbackEnd (matched : Bool) (s : State) : Host.Outcome State Fault Refusal :=
  runDev (fun d => match d.flash.imageWrite with
    | none => d
    | some w => doIf (outOfReset d && nvmServes d) (imageWritten w matched) d) s

end Sys2Proof.Machine
end

