-- ==== Sys2Proof/Machine/StartOps.lean ====
section
/-! DEFINITION. The start sequence (14): what reset leaves, the work of each phase, the end and the stop of start. -/

namespace Sys2Proof.Machine

/-! ### Reset (14 R502, 22 R701, R703) -/

/-- A tamper source after reset: only the burn already called for in the present lock is remembered (17 R585). -/
def coldSources (d : Device) : Tab TamperSource :=
  if state d = .locked then (d.tamper.sources.filter (fun p => p.2.counted)).map (fun p => (p.1, { counted := true })) else []
/-- What the flash holds without power: an image write in progress is torn, journal writes in progress are lost. -/
def coldFlash (f : Flash) : Flash :=
  let f := tearImage f
  { bootstrap := f.bootstrap, morning := f.morning, evening := f.evening, slot1 := f.slot1, slot2 := f.slot2
    record0 := f.record0, record1 := f.record1, roots := f.roots, ceilings := f.ceilings, otherHalf := f.otherHalf, halfTwo := f.halfTwo, certStore := f.certStore
    log := f.log, logFirst := f.logFirst, nextEntrySeq := f.nextEntrySeq }
/-- Every region but the battery domain is held in reset: fuses, battery domain, flash and pins remain. -/
def coldDevice (d : Device) : Device :=
  { time := { trim := d.fuses.watchTrim }
    pins := { perstN := d.pins.perstN, strapLive := d.pins.strapLive, mainOn := d.pins.mainOn }
    tamper := { sources := coldSources d }
    fuses := d.fuses, battery := d.battery, flash := coldFlash d.flash, draws := d.draws, out := d.out }

/-- The units a part number has, none in service yet (00 R1, R2). -/
def emptyBench : Bench :=
  { cores := tabFill 16 {}, marver := { engines := tabFill 8 {} }, cipher := { engines := tabFill 4 {} }
    punty := { engines := tabFill 2 {} } }
def emptySources (f : Fuses) : Tab Source :=
  (List.range (2 * partBenches f.part)).map (fun n => (n, { trim := tabGetD n 0x20 f.gatherTrim }))

/-! ### Straps (14 R497, R501) -/

def reservedStrap (d : Device) : Bool := decide (strapBits d 9 2 = 3) || decide (strapBits d 7 2 = 3)

/-- The bound of a phase in ms (14 R506, R507). -/
def phaseBoundMs (part : Part) (nvm phase : Nat) : Nat :=
  match phase with
  | 1 => 150 | 2 => 10 | 3 => 30
  | 4 => if nvm = 1 then 100 else if nvm = 2 then 300 else 40
  | 5 => if nvm = 1 then 400 else if nvm = 2 then 1500 else 120
  | 6 => 150
  | 7 => if nvm = 1 then 450 else if nvm = 2 then 1300
         else match part with
           | .ky1280 => 200
           | .ky0640 => 100
           | .ky0320 => 50
  | 8 => 10 | 9 => 120 | _ => 20

/-! ### Stop and end (14 R512, R513, R517, R518) -/

/-- PERST_N is high, and 20 ms have passed since it rose, before which there is no response at all (14 R505, R514). -/
def pfAwake (d : Device) : Bool :=
  d.pins.perstN && match d.pins.perstRise with
    | some r => decide (r + 20 * msTicks ≤ d.time.ticks)
    | none => false
/-- Only the PF exists, every function Disabled; it answers configuration requests while PERST_N is high. -/
def pfAnswers (d : Device) : Device :=
  { d with
    host := { d.host with fns := [(0, {})] }
    pins := { d.pins with pfAnswer := if pfAwake d then .normal else d.pins.pfAnswer } }
/-- Start stops with a cause. -/
def stopStart (cause : Nat) (d : Device) : Device :=
  let d := startEntry 0x06 0xFF 0xFF (BitVec.ofNat 16 cause) d
  let d := { d with start := { d.start with stopped := true, cause := BitVec.ofNat 8 cause, time := watch d } }
  raiseCauses 8 (emitC .alarm 0x0103 (leBytes 1 cause ++ leBytes 1 d.start.phase) (pfAnswers d))
def degraded (s : StartState) : Bool := s.benchesFenced != 0 || s.pathsFenced != 0 || !s.unitsRetired.isEmpty
/-- Start ends: the part enters the state it held, or Locked after a Breach. -/
def endStart (d : Device) : Device :=
  let d := pfAnswers d
  let d := { d with
    start := { d.start with done := true, degraded := degraded d.start, time := watch d }
    keys := { d.keys with refusing := state d != .operational } }
  let d := emitC .info 0x0101 (leBytes 4 (cusStart d).toNat ++ leBytes 4 d.start.time.toNat) d
  let d := if d.start.degraded then
      emitC .warning 0x0102 ([d.start.benchesFenced, d.start.pathsFenced.setWidth 8] ++
        d.start.unitsRetired.flatMap (fun u => [u.1, u.2])) d
    else d
  beginHeartbeat .host (raiseCauses 4 (closeStartWindow d))

/-! ### Phase 1: custody (14 R503; 02 R42; 17 R597, R598, R603; 23 R732) -/

/-- The custody phase begins: the power-cycle count, and reserved straps. -/
def beginCustody (d : Device) : Device :=
  let d := { d with
    battery := { d.battery with cycles := satInc d.battery.cycles }
    start := { d.start with phase := 1, phaseSince := d.time.ticks } }
  if reservedStrap d then stopStart 0x0A d else beginHeartbeat .keyStore d
/-- A latch of Night gives the Breach response at this start. -/
def answerNight (l : TripLatch) (d : Device) : Device :=
  let d := { d with battery := { d.battery with latches := d.battery.latches.filter (fun x => x ≠ l) }
                    tamper := { d.tamper with nightTrip := true } }
  let d := setSource l.source { sourceOf l.source d with night := true } d
  let d := emitC .tamper 0x0A05 (leBytes 1 l.source ++ leBytes 5 l.seconds.toNat) d
  respond l.source true l.seconds d
/-- A watch or crystal failure: an Alarm and the Excursion of T12 detector A (02 R45, 17 R596). -/
def timebaseFails (d : Device) : Device := tripSource 12 .detA (emitC .alarm 0x0106 (leBytes 4 (cusWatchCal d).toNat) d)
/-- The error of a count in units of 0.01%, to the nearest unit; positive means fast (02 R46). -/
def countError (nominal counted : Nat) : Int :=
  let unit := nominal / 10000
  ((counted : Int) - nominal + (unit / 2 : Nat)) / (unit : Int)
/-- An error as the field last_error holds it. -/
def errorField (e : Int) : BitVec 16 := BitVec.ofInt 16 (max (-32768) (min 32767 e))
/-- The trim code that lies nearest to zero error: a step is 0.25% (02 R42; log entry 11). -/
def nearestTrim (error : Int) (trim : BitVec 7) : BitVec 7 :=
  let steps := (error + 12) / 25
  BitVec.ofInt 7 (max 0 (min 127 ((trim.toNat : Int) + if Config.trimSlows then steps else -steps)))
/-- A count of 256 crystal periods whose error lies beyond 3% of 250,000 ticks (02 R45). -/
def beyondThree (count : Nat) : Bool := decide (count + 7500 < 250000) || decide (257500 < count)
/-- The start measurement: the watch ticks across 256 crystal periods set the trim code, and the repeated measurement is the last
(02 R42); an error of either beyond 3% is an Excursion (02 R45). The seconds of 02 R44 are counted from its end. -/
def startCalibration (count again : Nat) (d : Device) : Device :=
  let d := { d with time := { d.time with
    trim := nearestTrim (countError 250000 count) d.time.trim, lastError := errorField (countError 250000 again)
    secondAt := d.time.lastEdge.getD d.time.ticks, secondEdge := d.time.edges } }
  if beyondThree count || beyondThree again then timebaseFails d else d
/-- Ticks between two of the marked edges (02 R42). -/
def markedTicks (k : Nat) (t : TimeBase) : Nat := t.marks.getD (k + 1) 0 - t.marks.getD k 0
def endCustody (found : PhaseFindings) (d : Device) : Device :=
  let d := { d with tamper := { d.tamper with armed := true, echo := found.echo, glitchSet := d.time.ticks } }
  let d := startCalibration (markedTicks 0 d.time) (markedTicks 1 d.time) d
  let d := doEach (d.battery.latches.filter (fun l => l.night)) answerNight d
  doEach found.failedDetectors (fun p => tripSource p.1 p.2) d

/-! ### Phase 2: fuses (16 R553, R556; 17 R587; 18 R606; 22 R704) -/

/-- The vault key is lost where the part needs one: it enters Locked, or stays Locked with that cause. -/
def loseVault (d : Device) : Device :=
  if d.battery.vaultValid then d
  else match state d with
    | .owned => enterLocked .vaultLost d
    | .operational => enterLocked .vaultLost d
    | .locked => { d with custody := { d.custody with lockCause := .vaultLost } }
    | _ => d
/-- Sources of every present bench begin their start-up tests. -/
def beginSources (d : Device) : Device :=
  { d with gather := { d.gather with
      sources := tabMap (fun n s => { s with state := .starting, trim := tabGetD n 0x20 d.fuses.gatherTrim }) d.gather.sources } }
def endFuses (found : PhaseFindings) (d : Device) : Device :=
  if !found.fusesOk then stopStart 0x02 d
  else
    let d := burnLatches (fun l => !l.night) d
    let d := { d with power := { d.power with batteryLost := d.battery.lost } }
    let d := if d.battery.lost then emitC .warning 0x0107 [] d else d
    let d := loseVault d
    beginSources { d with custody := { d.custody with deviceFp := fingerprintOfDevice d } }

/-! ### Phase 3: Gather (09 R310, R315, R327) -/

/-- The conditioner's known answer: the SHA-256 digest of "abc" (FIPS 180-4). The vector is the model's (log entry 82). -/
def conditionerVector : Bytes := [0x61, 0x62, 0x63]
def conditionerAnswer : Bytes :=
  [0xba, 0x78, 0x16, 0xbf, 0x8f, 0x01, 0xcf, 0xea, 0x41, 0x41, 0x40, 0xde, 0x5d, 0xae, 0x22, 0x23,
   0xb0, 0x03, 0x61, 0xa3, 0x96, 0x17, 0x7a, 0x9c, 0xb4, 0x10, 0xff, 0x61, 0xf2, 0x00, 0x15, 0xad]
/-- The conditioner passes its known-answer test (09 R310). -/
def conditionerPasses (found : PhaseFindings) : Bool := found.conditionerOk && sha256 conditionerVector == conditionerAnswer
def endGather (found : PhaseFindings) (d : Device) : Device :=
  let silent := (List.range (2 * partBenches d.fuses.part)).filter (fun n => found.noAnswer.contains (n / 2))
  let d := doEach silent (fun n => failSource n 4) d
  if !conditionerPasses found || decide (healthy d.gather < 2) then stopStart 0x03 d
  else
    let d := { d with gather := setInst 8 { due := true } { d.gather with service := true } }
    { d with gather := serveSeeds d }

/-! ### Phase 4: NVM (15 R524, R534 to R536; 16 R565; 18 R620; 19 R630, R638) -/

/-- The custody record of a state that has one, or the loss of it. -/
def selectRecord (d : Device) : Device :=
  if !examines (state d) then d
  else match validRecord d with
    | some r =>
      let d := if d.battery.lost then emitC .warning 0x0802 (leBytes 4 r.generation.toNat) d else d
      { d with custody := { d.custody with record := r, recordValid := true }
               battery := { d.battery with recordGen := r.generation } }
    | none =>
      if state d = .locked then { d with custody := { d.custody with lockCause := .recordLost } }
      else enterLocked .recordLost d
/-- Draw a bench key for every present bench (01 R14). -/
def drawBenchKeys (d : Device) : Device :=
  let bs := d.benches.map (·.1)
  withKeyDraw (32 * bs.length) (fun r => doEach ((List.range bs.length).zip bs) (fun p =>
    modBench p.2 (fun x => { x with benchKey := bytesBv 256 (field r (32 * p.1) 32) }))) d
def endNvm (d : Device) : Device :=
  let (d, stop) := selectConfiguration (readBootstrap d)
  if stop then stopStart 0x04 d
  else
    let rs := recordsInForce d
    let p := deviceParams rs
    let d := recoverLog (readChain (selectRecord d))
    let d := { d with
      events := loadRates rs d.events
      flash := { d.flash with refusalEvents := BitVec.ofNat 3 (byteAt p 3).toNat }
      gather := { d.gather with minSources := (byteAt p 1).toNat }
      battery := { d.battery with lost := false } }
    drawBenchKeys (beginHeartbeat .nvm d)

/-! ### Phase 5: firmware (15 R545, R547; 01 R16) -/

/-- The bench firmware section of an image (15 R545). -/
def firmwareSection (b : Bytes) : Bytes :=
  match (List.range (num b 20 2)).find? (fun k => byteAt (sectionEntry b k) 0 == 0x01) with
  | some k => field b (num (sectionEntry b k) 4 4) (num (sectionEntry b k) 8 4)
  | none => []

def endFirmware (d : Device) : Device :=
  let slot := chooseSlot d
  match (if slot = 1 then d.flash.slot1 else if slot = 2 then d.flash.slot2 else none) with
  | none => stopStart 0x05 d
  | some i =>
    let d := startEntry 0x05 (if slot = 1 then 0x31 else 0x32) 0xFF 0 d
    let d := burnTo .svnFloor (imageSvn i.bytes) d
    { d with
      flash := { d.flash with fwSlot := BitVec.ofNat 2 slot, fwSvn := BitVec.ofNat 6 (imageSvn i.bytes)
                              fwVersion := BitVec.ofNat 32 (imageVersion i.bytes), fwDigest := sha384 (field i.bytes 0 1088) }
      benches := tabMap (fun _ b => loadFirmware (firmwareSection i.bytes) b) d.benches }

/-! ### Phase 6: roll-call (14 R508 to R510; 06 R232; 21 R671) -/

/-- A unit that fails at roll-call is noted for the degraded event (14 R512). -/
def noteRetired (b : Nat) (unit : Byte) (detail : BitVec 16) (d : Device) : Device :=
  let d := startEntry 0x03 (BitVec.ofNat 8 b) unit detail d
  { d with start := { d.start with unitsRetired := d.start.unitsRetired ++ [(BitVec.ofNat 8 b, unit)] } }
/-- A core passes or fails; in the Izvi personality a pair fails with either core (21 R671). -/
def coreFails (iz : Bool) (failed : List Nat) (n : Nat) : Bool :=
  if iz then failed.contains (2 * (n / 2)) || failed.contains (2 * (n / 2) + 1) else failed.contains n
/-- The known-answer test of one engine at roll-call, counted (06 R234, R240). -/
def rollEngine (b : Nat) (k : EngineKind) (failed : List Nat) (n : Nat) (d : Device) : Device :=
  let bad := failed.contains n
  let d := engineCount b k n (testRunNo k) d
  let d := modEngine b k n (fun e =>
    { e with state := if bad then .retired else .inService, lastKat := if bad then 2 else 1, katCause := 0, katCount := satInc e.katCount }) d
  if bad then
    let d := openWindow .recovery (noteRetired b (engineUnit k n) 2 (engineCount b k n (testFailNo k) d))
    emitVia (.bench b) .alarm 0x0405 (.bench b) (engineUnit k n) none [0, 0] d
  else d
def rollCore (b : Nat) (failed : List Nat) (n : Nat) (d : Device) : Device :=
  let bad := coreFails (izvi d) failed n
  let d := modCore { bench := b, core := n } (fun c => { c with state := if bad then .retired else .idle, since := d.time.ticks }) d
  if bad then
    let d := { d with gaffer := { d.gaffer with coresRetired := d.gaffer.coresRetired + 1 } }
    emitVia (.bench b) .alarm 0x0302 (.bench b) (BitVec.ofNat 8 n) none (leBytes 4 0 ++ leBytes 4 0)
      (openWindow .recovery (noteRetired b (BitVec.ofNat 8 n) 0 d))
  else d
/-- A bench enters service with its units that passed; its generator instance, once its known-answer test has passed, is
instantiated from the next seed (09 R315). -/
def benchEnters (b : Nat) (r : RollCall) (d : Device) : Device :=
  let d := modBench b (fun x => { x with inService := true, lehr := { x.lehr with ready := true }, katLast := d.time.ticks }) d
  let d := doEach (List.range 16) (rollCore b r.failedCores) d
  let d := doEach (List.range 8) (rollEngine b .marver r.failedMarver) d
  let d := doEach (List.range 4) (rollEngine b .cipher r.failedCipher) d
  let d := doEach (List.range 2) (rollEngine b .punty r.failedPunty) d
  let d := { d with gather := setInst b { due := drbgTest drbgAnswer } d.gather }
  beginHeartbeat (.bench b) { d with gather := serveSeeds d }
/-- The report of a bench. -/
def takeReport (b : Nat) (r : RollCall) (d : Device) : Device :=
  let d := { d with start := { d.start with reported := d.start.reported ++ [b] } }
  if !r.digestOk || (List.range 16).all (coreFails (izvi d) r.failedCores) then fenceBench b .custody 4 d else benchEnters b r d
/-- Every present bench has reported or is fenced. -/
def rollComplete (d : Device) : Bool := d.benches.all (fun p => p.2.fenced || d.start.reported.contains p.1)
def endRollCall (d : Device) : Device :=
  if !d.benches.any (fun p => p.2.inService) then stopStart 0x06 d
  else if healthy d.gather < d.gather.minSources then stopStart 0x07 d
  else d

/-! ### Phase 7: key store (03 R71, R114) -/

def initKeyStore (d : Device) : Device :=
  let d := drawStoreKeys 32 (fun r d => { d with custody := { d.custody with sealKey := bytesBv 256 r } }) d
  { d with keys := { d.keys with ready := true, slots := [], faultMap := [], epoch := false, cursor := 0
                                 gen0 := startGen d.battery.cycles.toNat, lastRemask := d.time.ticks } }
def endKeyStore (found : PhaseFindings) (d : Device) : Device :=
  if !found.arrayOk then stopStart 0x08 d
  else
    let d := initKeyStore d
    openWindow .start (if d.start.breached then d else loadRoots d)

/-! ### Phase 8: Gaffer (14 R506; 05 R176, R192) -/

def endGaffer (d : Device) : Device :=
  let rs := recordsInForce d
  let p := deviceParams rs
  let d := { d with
    gaffer := { d.gaffer with ready := true, stopped := decide (state d = Lifecycle.locked), tenants := loadTenants rs }
    keys := { d.keys with remaskInterval := byteAt p 0 }
    shares := { d.shares with credits := [], limitUs := byteAt p 2 } }
  { d with shares := { d.shares with capacity := (List.range 6).map (fun k => (k, capacityOf k d)) } }

/-! ### Phase 9: paths (13 R465, R490; 14 R511; 21 R668) -/

/-- The link mode of a path by STRAP_PATH; none in the Izvi personality, which has no network path in use. -/
def pathMode (isB : Bool) (d : Device) : BitVec 2 :=
  if izvi d then 0 else if strapBits d (if isB then 6 else 5) 1 = 1 then 2 else 1
def setPath (isB : Bool) (rs : List (Nat × Bytes)) (d : Device) (p : NetPath) : NetPath :=
  { p with mode := pathMode isB d, claim := if decide (strapBits d 4 1 = 1) = isB then 2 else 1, addr := pathRecord isB rs }
def failPath (isB : Bool) (d : Device) : Device :=
  let d := fencePath isB .custody d
  let d := startEntry 0x02 (if isB then 0x11 else 0x10) 0xFF 0 d
  { d with start := { d.start with pathsFenced := d.start.pathsFenced ||| (if isB then 2 else 1) } }
def endPaths (found : PhaseFindings) (d : Device) : Device :=
  let rs := recordsInForce d
  let net := loadHtl rs { d.net with sessions := [], gen0 := d.battery.cycles.setWidth 16, highClaim := 2, handover := none,
                                     heldHellos := [], helloParts := [], nonces := [], replies := [], a := setPath false rs d d.net.a, b := setPath true rs d d.net.b }
  let due : Instance := { due := d.gather.service }
  let d := { d with net := net, gather := setInst 9 due (setInst 10 due d.gather) }
  let d := { d with gather := serveSeeds d }
  let d := if found.pathAFails then failPath false d else beginHeartbeat (.path false) d
  if found.pathBFails then failPath true d else beginHeartbeat (.path true) d

/-! ### The end of a phase -/

/-- An Excursion of this start whose source is still active holds start at the phase boundary (17 R602). -/
def startPaused (d : Device) : Bool := d.start.excursion && (List.range 16).any (fun n => decide (6 ≤ n) && sourceActive n d)
/-- A phase has exceeded its bound; one that an Excursion or a Breach has delayed has none (14 R506, R507; 17 R602). -/
def pastBound (d : Device) : Bool :=
  decide (1 ≤ d.start.phase) && !d.start.excursion && !d.start.breached &&
  decide (d.start.phaseSince + msTicks * phaseBoundMs d.fuses.part (strapBits d 9 2) d.start.phase < d.time.ticks)
/-- The work of a phase is complete as far as the state shows it: phase 1 has measured twice (02 R42), the draws of phase 4 wait for
the first seed (09 R315). A phase other than 6 and 9 that has exceeded its bound does not end (14 R517). -/
def phaseReady (found : PhaseFindings) (d : Device) : Bool :=
  (!pastBound d || decide (d.start.phase = 6) || decide (d.start.phase = 9)) &&
  match d.start.phase with
  | 1 => decide (3 ≤ d.time.marks.length)
  | 3 => d.gather.sources.all (fun p => p.2.state != .starting || found.noAnswer.contains (p.1 / 2))
  | 4 => !d.gather.service || (instOf 8 d.gather).ready
  | 6 => rollComplete d
  | _ => true
/-- What the end of each phase does. -/
def phaseWork (found : PhaseFindings) (d : Device) : Device :=
  match d.start.phase with
  | 1 => endCustody found d
  | 2 => endFuses found d
  | 3 => endGather found d
  | 4 => endNvm d
  | 5 => endFirmware d
  | 6 => endRollCall d
  | 7 => endKeyStore found d
  | 8 => endGaffer d
  | 9 => endPaths found d
  | _ => d
/-- A phase ends: its trace entry, then the next phase or the end of start. -/
def nextPhase (d : Device) : Device :=
  if d.start.stopped then d
  else
    let d := startEntry 0x01 0xFF 0xFF 0 d
    if d.start.phase = 10 then endStart d
    else { d with start := { d.start with phase := d.start.phase + 1, phaseSince := d.time.ticks } }
def endPhase (found : PhaseFindings) (d : Device) : Device :=
  if d.start.phase = 0 then beginCustody d else nextPhase (phaseWork found d)
/-- Start runs: reset is released, and start has neither ended nor stopped. -/
def starting (d : Device) : Bool := outOfReset d && !d.start.done && !d.start.stopped

end Sys2Proof.Machine
end

