-- ==== Sys2Proof/Machine/Attest.lean ====
section
/-! DEFINITION. Attestation statements and the certificate chain (18 R609 to R620): CBOR in deterministic encoding, the
claims, the two signatures, and the queue of requests. -/

namespace Sys2Proof.Machine

/-! ### CBOR (18 R614, R615) -/

/-- The head of a data item: major type and argument, in its shortest form. -/
def cborHead (major n : Nat) : Bytes :=
  let m := 32 * major
  if n < 24 then [BitVec.ofNat 8 (m + n)]
  else if n < 2 ^ 8 then BitVec.ofNat 8 (m + 24) :: beBytes 1 n
  else if n < 2 ^ 16 then BitVec.ofNat 8 (m + 25) :: beBytes 2 n
  else if n < 2 ^ 32 then BitVec.ofNat 8 (m + 26) :: beBytes 4 n
  else BitVec.ofNat 8 (m + 27) :: beBytes 8 n
def cborUint (n : Nat) : Bytes := cborHead 0 n
/-- The negative integer −1 − n. -/
def cborNeg (n : Nat) : Bytes := cborHead 1 n
def cborBytes (b : Bytes) : Bytes := cborHead 2 b.length ++ b
def cborText (s : List Char) : Bytes := cborHead 3 s.length ++ ascii s
def cborArray (xs : List Bytes) : Bytes := cborHead 4 xs.length ++ xs.flatten
/-- A map whose keys are given in ascending order, as the deterministic encoding asks. -/
def cborMap (xs : List (Bytes × Bytes)) : Bytes := cborHead 5 xs.length ++ xs.flatMap (fun p => p.1 ++ p.2)
def cborTag (n : Nat) (x : Bytes) : Bytes := cborHead 6 n ++ x
def cborBool (b : Bool) : Bytes := [if b then 0xF5 else 0xF4]
def cborUints (ns : List Nat) : Bytes := cborArray (ns.map cborUint)

/-! ### Claims (18 R615 to R617) -/

/-- A claim that is present only under a condition. -/
def claim (key : Nat) (present : Bool) (value : Bytes) : List (Bytes × Bytes) := if present then [(cborUint key, value)] else []
def rootClaim (t : Nat) (version suite : Byte) (fp : Bytes) (previous : Nat) : Bytes :=
  cborArray [cborUint t, cborUint version.toNat, cborUint suite.toNat, cborBytes (fit 8 fp), cborUint previous]
/-- The entries of a tenant: its current root and, while its rotation is open, the previous one. -/
def rootClaims (d : Device) (t : Nat) : List Bytes :=
  if !hasRoot t d then []
  else
    let s := slotOf t d.keys
    let v := s.rootVersion - 1
    rootClaim t s.rootVersion s.suite s.fingerprint 0 ::
      (if rotationOpen t d then
        match rootOfVersion t v d with
        | some r => [rootClaim t v r.1 (fingerprintOf 0x3F r.1 r.2) 1]
        | none => []
       else [])
def tamperClaim (d : Device) (n : Nat) : Bytes :=
  let x := tabGetD n ({} : TamperSource) d.tamper.sources
  cborArray [cborUint (fuseVal (.evidence n) d), cborUint x.trips.toNat, cborBool (!d.fuses.tamperDisable.getLsbD n), cborBool x.night]
/-- An owner exists: own_count exceeds erase_count. -/
def hasOwner (d : Device) : Bool := decide (fuseVal .eraseCount d < fuseVal .ownCount d)
def fuseClaim (d : Device) : Bytes :=
  cborUints [fuseVal .ownCount d, fuseVal .commissionCount d, fuseVal .eraseCount d, fuseVal .lockCount d, fuseVal .unlockCount d,
    fuseVal .otpEpoch d, fuseVal .svnFloor d, d.fuses.tamperDisable.toNat]
def custodyClaim (d : Device) : Bytes :=
  let r := d.custody.record
  cborUints [r.generation.toNat, r.cards.length, r.mUnlock, r.mRoot, r.mDebug, r.mAdmin]
/-- The payload: every claim of one moment. -/
def claims (all : Bool) (t : Nat) (nonce : Bytes) (d : Device) : Bytes :=
  let f := d.flash
  cborMap (
    claim 1 true (cborBytes nonce) ++
    claim 2 true (cborBytes (fit 8 d.custody.deviceFp)) ++
    claim 3 true (cborUints [partNumber d.fuses.part, Config.dieStepping.toNat]) ++
    claim 4 true (cborUint (if izvi d then 1 else 0)) ++
    claim 5 true (cborUints [stateNo (state d), causeNo d.custody.lockCause]) ++
    claim 6 true (fuseClaim d) ++
    claim 7 (f.fwSlot != 0) (cborArray [cborUint f.fwSlot.toNat, cborUint f.fwVersion.toNat, cborUint f.fwSvn.toNat,
      cborBytes (fit 48 f.fwDigest)]) ++
    claim 8 (f.selected != 0) (cborArray [cborUint f.selected.toNat, cborUint f.sequence.toNat, cborBytes (fit 48 f.measurement)]) ++
    claim 9 (hasOwner d) (cborBytes (fit 16 (tabGetD (ownership d) [] d.fuses.ownerFp))) ++
    claim 10 (hasOwner d) (cborArray [cborBytes (fit 65 (uncompressed (curvePublic 0x01 (htlEc d) []))),
      cborBytes (fit 1952 (mlDsaPublic {} 65 (htlSeed d)))]) ++
    claim 11 true (cborArray ((if all then List.range 256 else [t]).flatMap (rootClaims d))) ++
    claim 12 true (cborArray ((List.range 16).map (tamperClaim d))) ++
    claim 13 true (cborArray [cborUint d.start.benchesFenced.toNat, cborUint d.start.pathsFenced.toNat,
      cborUint d.start.unitsRetired.length, cborBool (degraded d.start)]) ++
    claim 14 true (cborUints [d.battery.opSeconds.toNat, d.battery.cycles.toNat, (watch d).toNat]) ++
    claim 15 d.custody.recordValid (custodyClaim d) ++
    claim 16 true (cborUint (levelNo d.power.level)))

/-! ### The statement (18 R614) -/

def bodyHeader : Bytes := cborMap [(cborUint 3, cborText "application/kyat+cbor".toList)]
/-- The protected header of a signature: its algorithm −1 − n, and the device fingerprint. -/
def signHeader (n : Nat) (fp : Bytes) : Bytes := cborMap [(cborUint 1, cborNeg n), (cborUint 4, cborBytes (fit 8 fp))]
/-- The Sig_structure of a signature. -/
def sigStructure (header payload : Bytes) : Bytes :=
  cborArray [cborText "Signature".toList, cborBytes bodyHeader, cborBytes header, cborBytes [], cborBytes payload]
def coseSignature (header sig : Bytes) : Bytes := cborArray [cborBytes header, cborMap [], cborBytes sig]
/-- A statement over a payload, with the draw of its two signatures; a second nonce serves where the first gives no signature (log entry
81). -/
def statementOf (d : Device) (payload r : Bytes) : Bytes :=
  let fp := d.custody.deviceFp
  let h1 := signHeader 34 fp
  let h2 := signHeader 49 fp
  let s1 := fit 96 (ecdsaFirst 0x02 (devEc d) (sha384 (sigStructure h1 payload)) [scalarOf 0x02 (r.take 56), scalarOf 0x02 (field r 88 56)])
  let s2 := fit 4627 (mlDsaSign {} 87 (devSeed d) 0x01 (field r 56 32) [] (sigStructure h2 payload))
  cborTag 98 (cborArray [cborBytes bodyHeader, cborMap [], cborBytes payload,
    cborArray [coseSignature h1 s1, coseSignature h2 s2]])

/-! ### The verbs (18 R609 to R613, R620) -/

def allTenants (j : Job) : Bool := parByte j 0 == 1
def attestDecode (j : Job) : Code :=
  firstCode [reserved j 1 47, need (decide ((parByte j 0).toNat ≤ 1)) 0x0110, need (!allTenants j || decide (j.tenant = 0)) 0x0110,
    need (decide (16 ≤ j.input.length ∧ j.input.length ≤ 64)) 0x011D]
/-- Requests that still wait or are being signed: their jobs stand on a core without a result. -/
def liveRequests (d : Device) : List Nat :=
  d.custody.attesting.filter (fun id => match jobOf id d with
    | some j => j.recipe == 0x0A20 && j.staged.isNone && (match j.place with | .core _ _ => true | _ => false)
    | none => false)
/-- One is signed and 16 wait (18 R611). -/
def queueCode (d : Device) (j : Job) : Code :=
  need ((liveRequests d).contains j.id || decide ((liveRequests d).length < 17)) 0x0412
/-- Sign the request at the head: one snapshot, two signatures. -/
def signStatement (b : Nat) (j : Job) (d : Device) : Device :=
  if !d.gather.service then dispatchAll (squashJob j.id 0x0508 d)
  else withDraw 8 144 (fun r d =>
    let st : Staged := { output := statementOf d (claims (allTenants j) j.tenant j.input d) r }
    stage b j.id st { d with custody := { d.custody with attesting := (liveRequests d).filter (fun id => id ≠ j.id) } }) d
/-- A request takes its place; the one at the head of the queue is signed. -/
def attestStep (b : Nat) (j : Job) (d : Device) : Device :=
  let live := liveRequests d
  let queue := if live.contains j.id then live else live ++ [j.id]
  let d := { d with custody := { d.custody with attesting := queue } }
  if queue.head? = some j.id then signStatement b j d else d
/-- ATTEST, 0x0A20. -/
def execAttest (core : CoreRef) (s : State) : Host.Outcome State Fault Refusal :=
  runDev (componentRow 0x0A20 attestDecode (fun _ j => if allTenants j then 16384 else 8192) queueCode attestStep core) s

def chainVerb : Verb :=
  { plainVerb with
    decode := fun _ j => firstCode [reserved j 0 48, noInput j]
    maxOut := fun d _ => (d.custody.chain.getD []).length
    checks := fun d _ => need d.custody.chain.isSome 0x011E
    run := fun d _ _ => { output := d.custody.chain.getD [] } }
/-- READ_CERTIFICATE_CHAIN, 0x0A21. -/
def execReadCertificateChain (core : CoreRef) (s : State) : Host.Outcome State Fault Refusal :=
  runDev (execVerb 0x0A21 chainVerb core) s

end Sys2Proof.Machine
end

