-- ==== Sys2Proof/Machine/KnownAnswers.lean ====
section
/-! DEFINITION. The known-answer tests of the engines (06 R232; 08 R298): what an engine gives on the vectors of the on-die ROM, whose
contents the specification does not give. -/

namespace Sys2Proof.Machine

/-- What the ROM holds for a kind, at a place. -/
def rom (k : EngineKind) (n : Nat) : Bytes := Config.katRom (kindCode k) n
/-- The coefficients of a vector of the transforms, 4 bytes each. -/
def romPoly (q : Nat) (b : Bytes) : Poly := (List.range 256).map (fun i => num b (4 * i) 4 % q)
def polyBytes (f : Poly) : Bytes := f.flatMap (leBytes 4)
/-- Marver, in all three modes with fixed blinding values: an RSA-2048 CRT exponentiation, a P-256 and an Ed25519 scalar multiplication, a
forward and an inverse transform at each lattice modulus (06 R232). -/
def marverAnswers : List Bytes :=
  let t := fun (transform : Schedule → Nat → Poly → Poly) (q n : Nat) =>
    polyBytes (transform { draw := rom .marver (n + 1) } q (romPoly q (rom .marver n)))
  [beBytes 256 (rsaPrivateOp 8 (rom .marver 0) (rom .marver 1) (beNat (rom .marver 2))),
   curvePublic 0x01 (beNat (rom .marver 3)) (rom .marver 4), eddsaPublic 0x10 (rom .marver 5) (rom .marver 6),
   t ntt kemQ 7, t invNtt kemQ 9, t ntt dsaQ 11, t invNtt dsaQ 13]
/-- The codes that a cipher engine and a Punty engine serve (08 R270). -/
def cipherCodes : List Nat := [0x01, 0x02, 0x03, 0x04, 0x05, 0x06, 0x07, 0x08, 0x09, 0x11, 0x12, 0x13, 0x14, 0x15, 0x18, 0x19, 0x1A]
def hashCodes : List Nat := [0x21, 0x22, 0x23, 0x24, 0x25, 0x31, 0x32, 0x33, 0x34, 0x38, 0x39]
def hmacCodes : List Nat := [0x61, 0x62, 0x63, 0x64, 0x65, 0x71, 0x72, 0x73, 0x74]
/-- A cipher code on a key, an IV and data. -/
def cipherAnswer (alg : Nat) (key iv data : Bytes) : Bytes :=
  let n := algBlock alg
  if isGcm alg then gcmXor key iv data ++ gcmTagOf key iv [] (gcmXor key iv data)
  else if alg % 16 = 8 then cmac (algAes alg) key data
  else if alg = 0x1A then macAlg3 key (padding n 2 data)
  else if alg % 16 = 9 then macAlg1 (algAes alg) key (padding n 2 data)
  else (runMode true alg key (fit n iv) data).1
/-- A hash or HMAC code; a SHAKE gives one rate. -/
def puntyAnswer (alg : Nat) (key data : Bytes) : Bytes :=
  let code := BitVec.ofNat 8 alg
  if isHmac alg then hmacOf code (hashLen (alg - 0x40)) key data
  else digestOf code (if isShake alg then hashRate alg else hashLen alg) data
/-- The outputs that pass, vector by vector. -/
def katAnswers (k : EngineKind) : List Bytes :=
  match k with
  | .marver => marverAnswers
  | .cipher => cipherCodes.map (fun a => cipherAnswer a (rom k (4 * a)) (rom k (4 * a + 1)) (rom k (4 * a + 2)))
  | .punty => (hashCodes ++ hmacCodes).map (fun a => puntyAnswer a (rom k (4 * a)) (rom k (4 * a + 2)))
/-- The first vector whose output is wrong, as event 0x0405 names it; the count of vectors where only a forced fault was missed (19 R641). -/
def failingVector (k : EngineKind) (outputs : List Bytes) : Nat :=
  ((List.range (katAnswers k).length).find? (fun i => (katAnswers k)[i]? != outputs[i]?)).getD (katAnswers k).length
/-- The engine passes: every output is right, and it caught what the test forced, a spill or a datapath difference and a flag fault. -/
def katPasses (k : EngineKind) (f : KatFindings) : Bool :=
  f.outputs == katAnswers k && (if k = .marver then f.spill else f.difference && f.flag)
/-- The ticks of a test at the nominal corner. -/
def katTicks : EngineKind → Nat
  | .marver => 3072
  | .cipher => 256
  | .punty => 320

end Sys2Proof.Machine
end

