-- ==== Sys2Proof/Machine/Engines.lean ====
section
/-! DEFINITION. The commands of the engines (06 R203 to R241; 07 R262; 08 R274 to R280, R295, R298 to R302). -/

namespace Sys2Proof.Machine

/-- A core holds the grant of an engine. -/
def holds (c : CoreRef) (k : EngineKind) (n : Nat) (d : Device) : Bool :=
  d.shares.grants.any (fun g => !g.parked && decide (g.kind = kindCode k) && decide (g.core = c) && decide (g.unit = n))
/-- One bit per engine, of the two that a comparison concerns. -/
def enginePair (a b : Nat) : Nat := if a = b then 2 ^ a else 2 ^ a + 2 ^ b

/-! ### Marver -/

/-- The class of the public key of a recipe whose key may stand in its input (11 R405 options[3]). -/
def publicClassOf (recipe : BitVec 16) : Option Nat :=
  if recipe = 0x0603 ∨ recipe = 0x0605 then some 0x11
  else if recipe = 0x0608 then some 0x19
  else if recipe = 0x060C then some 0x1B
  else if recipe = 0x0702 then some 0x21
  else if recipe = 0x0706 then some 0x29
  else none
/-- The parameter of the key that a verb works with: of its key, wherever that stands, or of the template of a generated or imported one. -/
def operationParam (j : Job) (d : Device) : Nat :=
  if j.recipe = 0x0601 ∨ j.recipe = 0x0606 ∨ j.recipe = 0x060A ∨ j.recipe = 0x060D ∨ j.recipe = 0x0701 ∨ j.recipe = 0x0704 then
    (newKey j).param.toNat
  else match publicClassOf j.recipe with
    | some cls => pubParam cls d j
    | none => (headOf (keyA j) d).keyParam.toNat
/-- The public key of an RSA operation on public data. -/
def operationKey (j : Job) (d : Device) : Bytes :=
  if j.recipe = 0x060D then j.input
  else match publicClassOf j.recipe with
    | some cls => pubKey cls d j
    | none => keyOf (keyA j) d
/-- Operations on public data: RSA encryption and verification, curve verification, the import of a public key (06 R209, R212). -/
def publicOperation (recipe : BitVec 16) : Bool :=
  recipe == 0x0603 || recipe == 0x0605 || recipe == 0x0608 || recipe == 0x060C || recipe == 0x060D || recipe == 0x010A
/-- The limbs of an operation's modulus and the length of the exponent or scalar that it processes: bits(p) + 64 for a private RSA
exponent, bits(n) + 64 for a private scalar, the public length otherwise (06 R197, R209); in polynomial mode the parameter set
alone. -/
def operationSize (j : Job) (d : Device) : Nat × Nat :=
  let param := operationParam j d
  let mode := marverMode d j.tenant j.recipe.toNat j.params
  if mode = 1 then
    if publicOperation j.recipe then
      (limbsFor (256 * param), exponentBits param (operationKey j d))
    else (limbsFor (128 * param), 128 * param + 64)
  else if mode = 2 then
    let c := BitVec.ofNat 8 param
    (limbsFor (modulusBits (curvePrime c)), if publicOperation j.recipe then publicBits c else privateBits c)
  else (param, 0)
/-- Passes of one run (06 R208, R240; log entry 80). -/
def operationPasses (j : Job) (d : Device) : Nat := Config.marverPasses j.recipe (operationSize j d).1 (operationSize j d).2
/-- The lattice modulus of an operation (07 R244). -/
def laneModulus (j : Job) : Nat :=
  let cls := if j.recipe = 0x060D then (byteAt j.params 16).toNat else 0
  if j.recipe = 0x0704 ∨ j.recipe = 0x0705 ∨ j.recipe = 0x0706 ∨ cls = 0x29 then dsaQ else kemQ
/-- What an engine's accumulator holds after its part of an operation, and whether its spill flag stands: in polynomial mode the lanes
after each layer, else the columns after each sum of products (06 R203, R204; 07 R243, R247, R248). -/
def runEngine (mode : Byte) (q : Nat) (safe : Bool) (p : EnginePass) (e : Engine) : Engine :=
  let a := if mode = 3 then p.layers.foldl (runLayer safe q) ([], e.spillFlag) else p.products.foldl (runProduct safe) ([], e.spillFlag)
  { e with columns := a.1, spillFlag := a.2 }
/-- A scratch line carries another tenant's valid tag: that tenant (06 R229). -/
def foreignTag (b n line : Nat) (j : Job) (d : Device) : Option Nat :=
  match tabGet (line % scratchLines) (engineOf b .marver n d).scratch with
  | some tag => if tag.toNat ≠ j.tenant then some tag.toNat else none
  | none => none
/-- The foreign lines among those that a pass read. -/
def foreignLines (b n : Nat) (p : EnginePass) (j : Job) (d : Device) : List (Nat × Nat) :=
  p.reads.filterMap (fun l => (foreignTag b n l j d).map (fun t => (l % scratchLines, t)))
/-- What a read of a line gives: of a foreign line zeros (06 R229). -/
def lineGiven (b n line : Nat) (j : Job) (d : Device) : Bytes :=
  if (foreignTag b n line j d).isSome then List.replicate 64 0 else readLine (benchOf b d) n (line % scratchLines)
/-- One run of an operation on an engine: its passes counted, its scratch lines read, then written with the job's tag, its accumulator
moved. -/
def runPass (b n : Nat) (p : EnginePass) (j : Job) (d : Device) : Device :=
  let mode := modeOf .marver j d
  let given := p.reads.getLast?.map (fun l => lineGiven b n l j d)
  let d := engineWork b .marver n 0 (operationPasses j d) j.id d
  let d := modBench b (fun x => p.writes.foldl (writeLine n j.tenant) x) d
  modEngine b .marver n (fun e => { runEngine mode (laneModulus j) j.safeMode p e with lineRead := given.getD e.lineRead }) d
/-- A line written for another tenant is read: the engine gets zeros; flag, count and event (06 R229). -/
def noteForeign (b n : Nat) (j : Job) (l : Nat × Nat) (d : Device) : Device :=
  let d := setSticky b .marver (fun x => { x with fault := true }) (engineCount b .marver n 9 d)
  engineEvent b .marver n .alarm 0x0406 (leBytes 4 l.1 ++ leBytes 1 l.2 ++ leBytes 1 j.tenant) d
/-- A guard spill is noted, and the engine's flag is cleared: the first of a step as a Warning, one in safe mode as an Alarm (06 R204
to R206). -/
def noteSpill (b n : Nat) (j : Job) (d : Device) : Device :=
  let detail : Bytes := [modeOf .marver j d] ++ leBytes 2 j.recipe.toNat
  let d := setSticky b .marver (fun x => { x with spill := true }) (engineCount b .marver n 2 d)
  let d := modEngine b .marver n (fun e => { e with spillFlag := false, columns := [] }) d
  if j.safeMode then engineEvent b .marver n .alarm 0x0402 detail (engineCount b .marver n 4 d)
  else engineEvent b .marver n .warning 0x0401 detail (engineCount b .marver n 3 d)
/-- One run and what its engine observes: the state, whether it spilled, whether it read a foreign line. What is observed is noted at
once, whatever becomes of the job (04 R143). -/
def onePass (b n : Nat) (p : EnginePass) (j : Job) (d : Device) : Device × Bool × Bool :=
  let foreign := foreignLines b n p j d
  let d := runPass b n p j d
  let spilled := (engineOf b .marver n d).spillFlag
  let d := doEach foreign (noteForeign b n j) d
  (if spilled then noteSpill b n j d else d, spilled, !foreign.isEmpty)
/-- A second spill in safe mode ends the job with 0x0502, and its engines go to their tests; after the first the step is computed again
in safe mode, as two steps of half the work (06 R204, R205). -/
def spillEnds (b : Nat) (ns : List Nat) (j : Job) (d : Device) : Device :=
  if j.safeMode then dispatchAll (squashJob j.id 0x0502 (doEach ns (fun n => withdrawEngine b .marver n 2) d))
  else modJob j.id (fun j => { j with safeMode := true, half := false, staged := none, verdict := none, compared := false }) d
/-- The results of the two runs differ: both engines go to their tests, the job is re-entered or ends with 0x0501 (06 R215). -/
def noteMismatch (b n m : Nat) (j : Job) (d : Device) : Device :=
  let d := setSticky b .marver (fun x => { x with mismatch := true }) (engineCount b .marver n 5 d)
  let d := engineEvent b .marver n .alarm 0x0403 (leBytes 1 (enginePair n m) ++ leBytes 2 j.recipe.toNat) d
  withdrawEngine b .marver m 2 (withdrawEngine b .marver n 2 (faultKind 2 d))
/-- The unblinded result of a step, all that the passes compare: code, verdict and comparison, output and step state, and the material that
it creates (06 R214; 07 R264). -/
def resultBytes (st : Staged) : Bytes :=
  let flag := fun (b : Bool) => leBytes 1 (if b then 1 else 0)
  let sized := fun (b : Bytes) => leBytes 4 b.length ++ b
  leBytes 2 st.code.toNat ++ [st.verdict] ++ (match st.pair with | some p => flag p.1 ++ flag p.2 | none => []) ++ leBytes 4 st.aux.toNat ++
    flag st.more ++ flag st.half ++ sized st.output ++ sized st.state ++
    st.intents.flatMap (fun i => match i with | .create x => sized x.material | _ => [])
/-- Both passes have the result that the step staged. Two passes that agree on another are no outcome of this row (DESIGN CHOICE: a
fault that strikes both alike escapes the compare; log entry 80). -/
def passesAgree (o : MarverOutcome) (j : Job) : Bool :=
  match j.staged with
  | some st => o.passA.result == resultBytes st && o.passB.result == resultBytes st
  | none => false
/-- The results have been compared: they may leave for the pending buffer. -/
def noteCompared (c : CoreRef) (j : Job) (d : Device) : Device := giveUp c (modJob j.id (fun j => { j with compared := true }) d)
/-- The end of an operation of a core, run on engines n and m, and the fault that governs, if any: a foreign line, then a spill, then a
difference of the results (DESIGN CHOICE where several meet: log entry 80). -/
def operationEnd (c : CoreRef) (n m : Nat) (o : MarverOutcome) (j : Job) (d : Device) : Device :=
  let b := c.bench
  let pa := onePass b n o.passA j d
  let pb := onePass b m o.passB j pa.1
  let spilled := (if pa.2.1 then [n] else []) ++ (if pb.2.1 then [m] else [])
  let differ := spilled.isEmpty && o.passA.result != o.passB.result
  let d := if differ then noteMismatch b n m j pb.1 else pb.1
  if pa.2.2 || pb.2.2 then
    dispatchAll (squashJob j.id 0x0506 (if j.safeMode then doEach spilled (fun n => withdrawEngine b .marver n 2) d else d))
  else if !spilled.isEmpty then spillEnds b spilled j d
  else if differ then dispatchAll (faultJob j.id 0x0501 d)
  else if passesAgree o j then noteCompared c j d
  else d
/-- The two passes run on two engines, or both on the only one in service (06 R213). -/
def pairOk (b n m : Nat) (d : Device) : Bool :=
  if n = m then decide ((inServiceOf .marver (benchOf b d)).length ≤ 1) else true
/-- MARVER_OPERATION_END (06 R214): both passes of a step have finished on engines that the core holds. -/
def execMarverOperationEnd (core : CoreRef) (engineA engineB : Nat) (outcome : MarverOutcome) (s : State) :
    Host.Outcome State Fault Refusal :=
  runDev (fun d =>
    let c := lead core d
    doWith (jobOn c d) (fun j => doIf (j.staged.isSome && holds c .marver engineA d && holds c .marver engineB d &&
        pairOk c.bench engineA engineB d)
      (operationEnd c engineA engineB outcome j)) d) s

/-! ### Cipher engines and Punty -/

/-- A pair that is neither equal nor different (08 R279). -/
def flagFault (o : BlockOutcome) : Option (Bool × Bool) := match o.flags with | some p => if p.1 = p.2 then some p else none | none => none
/-- What a recipe does on the engines: of a data, MAC or digest verb its own blocks, of another those that its verb counts alike. -/
def dataVerbOf (recipe : BitVec 16) : Verb :=
  if recipe = 0x0501 then encryptVerb
  else if recipe = 0x0502 then decryptVerb
  else if recipe = 0x0503 then macGenerateVerb
  else if recipe = 0x0504 then macVerifyVerb
  else if recipe = 0x0801 then digestVerb
  else plainVerb
/-- The grant of an engine that a core holds. -/
def engineGrant (c : CoreRef) (k : EngineKind) (n : Nat) (d : Device) : Option Grant :=
  d.shares.grants.find? (fun g => !g.parked && decide (g.kind = kindCode k) && decide (g.core = c) && decide (g.unit = n))
/-- One block more of a job, where it has one left and the comparison is that of a block. -/
def oneBlock (c : CoreRef) (k : EngineKind) (p : ComparePoint) (j : Job) (g : Grant) (d : Device) : Device :=
  let v := dataVerbOf j.recipe
  if p = .block ∧ blocksLeft v k d j ≠ 0 then segmentStep v c k 1 g j d else compareEngine g.bench k g.unit j d
/-- A comparison of the two datapaths, after a block, at a context save or at the final output; a count of a last word comes with it (08 R274,
R276 to R279). -/
def blockEnd (c : CoreRef) (k : EngineKind) (n : Nat) (o : BlockOutcome) (j : Job) (d : Device) : Device :=
  let b := c.bench
  let limit := wordBytes k
  let beyond := match o.lastCount with | some count => decide (limit < count) | none => false
  let d := if o.difference || beyond then noteDifference b k n j d else d
  let d := match flagFault o with
    | some p => engineEvent b k n .alarm 0x0404 [if p.1 then 3 else 0]
        (setSticky b k (fun x => { x with fault := true }) (engineCount b k n (flagNo k) d))
    | none => d
  if o.difference || beyond || (flagFault o).isSome then engineDiffers b k n j d
  else doWith (engineGrant c k n d) (oneBlock c k o.point j) d
/-- ENGINE_BLOCK_COMPARE (08 R276): a comparison at a cipher or Punty engine that the core holds. -/
def execEngineBlockCompare (core : CoreRef) (kind : EngineKind) (engine : Nat) (outcome : BlockOutcome) (s : State) :
    Host.Outcome State Fault Refusal :=
  runDev (fun d =>
    let c := lead core d
    doWith (jobOn c d) (fun j => doIf (decide (kind ≠ .marver) && holds c kind engine d) (blockEnd c kind engine outcome j)) d) s

/-! ### Known-answer tests (06 R232 to R234, 08 R298, R299) -/

/-- Positions 0 to 13 of the rotation: Marver 0 to 7, cipher 0 to 3, Punty 0 and 1. -/
def katUnit (p : Nat) : EngineKind × Nat := if p < 8 then (.marver, p) else if p < 12 then (.cipher, p - 8) else (.punty, p - 12)
def katServes (b p : Nat) (d : Device) : Bool := (engineOf b (katUnit p).1 (katUnit p).2 d).state == .inService
def enginesServing (b : Nat) (d : Device) : Nat := ((List.range 14).filter (fun p => katServes b p d)).length
/-- The next position whose engine is in service. -/
def katPosition (b : Nat) (d : Device) : Option Nat :=
  ((List.range 14).map (fun i => ((benchOf b d).katNext + i) % 14)).find? (fun p => katServes b p d)
/-- An engine of the bench is withdrawn for its periodic test. -/
def katRuns (b : Nat) (d : Device) : Bool :=
  (List.range 14).any (fun p =>
    let e := engineOf b (katUnit p).1 (katUnit p).2 d
    e.causes.contains 1 || (e.katCause == 1 && e.state == .inTest))
/-- The time has come: 600 s divided by the number of engines in service. -/
def katDue (b : Nat) (d : Device) : Bool :=
  let n := enginesServing b d
  decide (0 < n) && decide ((benchOf b d).katLast + 600 * secTicks / n ≤ d.time.ticks) && !katRuns b d
/-- Withdraw the next engine of the rotation. -/
def katWithdraw (b : Nat) (d : Device) : Device :=
  match katPosition b d with
  | none => d
  | some p =>
    withdrawEngine b (katUnit p).1 (katUnit p).2 1
      (modBench b (fun x => { x with katNext := (p + 1) % 14, katLast := d.time.ticks }) d)
/-- PERIODIC_KAT_WITHDRAWAL (06 R233, 08 R299). -/
def execPeriodicKatWithdrawal (bench : Nat) (s : State) : Host.Outcome State Fault Refusal :=
  runDev (fun d => doIf (benchRuns bench d && katDue bench d) (katWithdraw bench) d) s

/-- Engines of a block that a campaign has withdrawn and whose test has not ended. -/
def campaignRunning (b : Nat) (k : EngineKind) (d : Device) : Nat :=
  ((engineBlock k (benchOf b d)).engines.filter (fun p => p.2.causes.contains 3 || (p.2.katCause == 3 && p.2.state == .inTest))).length
/-- At most two Marver engines, one cipher or Punty engine, at a time (06 R241, 08 R301, R302). -/
def campaignWidth (k : EngineKind) : Nat := if k = .marver then 2 else 1
/-- Withdraw further engines of a campaign. -/
def campaignGo (b : Nat) (k : EngineKind) : Nat → Device → Device
  | 0, d => d
  | fuel + 1, d =>
    match (engineBlock k (benchOf b d)).testLeft with
    | [] => d
    | n :: rest =>
      if campaignWidth k ≤ campaignRunning b k d then d
      else campaignGo b k fuel (withdrawEngine b k n 3 (setSticky b k (fun x => { x with testLeft := rest }) d))
/-- A campaign goes on, or ends: with no campaign left the test window ends (04 R170). -/
def campaignOn (b : Nat) (k : EngineKind) (d : Device) : Device :=
  if !(engineBlock k (benchOf b d)).testBusy then d
  else
    let d := campaignGo b k 8 d
    if (engineBlock k (benchOf b d)).testLeft.isEmpty && campaignRunning b k d == 0 then
      let d := setSticky b k (fun x => { x with testBusy := false }) d
      if anyCampaign d then d else closeWindow .test d
    else d
/-- The test has run its time, which the bench's speed divides (06 R232; 08 R298). -/
def katOver (b : Nat) (k : EngineKind) (n : Nat) (d : Device) : Bool :=
  decide ((engineOf b k n d).katSince + floorEff (katTicks k) (benchOf b d).lehr.speed.toNat ≤ d.time.ticks)
/-- The end of a test: back to service, or retired until the next start. -/
def katEnd (b : Nat) (k : EngineKind) (n : Nat) (f : KatFindings) (d : Device) : Device :=
  let d := engineCount b k n (testRunNo k) (modEngine b k n (fun e => { e with katCount := satInc e.katCount }) d)
  let d := if katPasses k f then beginDue b k n (modEngine b k n (fun e => { e with state := .inService, lastKat := 1, mode := 0 }) d)
           else retireEngine b k n (failingVector k f.outputs) (engineCount b k n (testFailNo k) d)
  dispatchAll (arbitrate b (kindCode k) (campaignOn b k d))
/-- ENGINE_KAT_END (06 R232, R234; 08 R298, R299). -/
def execEngineKatEnd (bench : Nat) (kind : EngineKind) (engine : Nat) (findings : KatFindings) (s : State) :
    Host.Outcome State Fault Refusal :=
  runDev (fun d => doIf (benchRuns bench d && decide ((engineOf bench kind engine d).state = .inTest) && katOver bench kind engine d)
    (katEnd bench kind engine findings) d) s

/-- RECOVERY_TRACE_WINDOW_END (04 R170): 500 µs after the latest withdrawal. -/
def execRecoveryTraceWindowEnd (s : State) : Host.Outcome State Fault Refusal :=
  runDev (fun d => doIf (outOfReset d && d.gaffer.traceOpen.contains .recovery && decide (d.gaffer.traceEnds ≤ d.time.ticks))
    (closeWindow .recovery) d) s

/-! ### Campaigns of the manager -/

/-- Start a campaign on the engines selected that are in service, in ascending order. -/
def startCampaign (b : Nat) (k : EngineKind) (engines : Nat) (d : Device) : Device :=
  let left := ((engineBlock k (benchOf b d)).engines.filter (fun p => engines.testBit p.1 && p.2.state == .inService)).map (·.1)
  let d := setSticky b k (fun x => { x with testBusy := true, testEngines := BitVec.ofNat 8 engines, testLeft := left }) d
  campaignOn b k (if left.isEmpty then d else openWindow .test d)
/-- The manager reaches the block of a bench, and no campaign runs in it. -/
def campaignMay (b : Nat) (k : EngineKind) (d : Device) : Bool :=
  started d && outOfReset d && benchRuns b d && !(engineBlock k (benchOf b d)).testBusy
/-- MRV_SELFTEST_START (06 R241). -/
def execMrvSelftestStart (bench : Nat) (engines : BitVec 8) (s : State) : Host.Outcome State Fault Refusal :=
  runDev (fun d => doIf (campaignMay bench .marver d) (startCampaign bench .marver engines.toNat) d) s
/-- CIP_SELFTEST_START (08 R301). -/
def execCipSelftestStart (bench : Nat) (engines : BitVec 4) (s : State) : Host.Outcome State Fault Refusal :=
  runDev (fun d => doIf (campaignMay bench .cipher d) (startCampaign bench .cipher engines.toNat) d) s
/-- DIG_SELFTEST_START (08 R302). -/
def execDigSelftestStart (bench : Nat) (engines : BitVec 2) (s : State) : Host.Outcome State Fault Refusal :=
  runDev (fun d => doIf (campaignMay bench .punty d) (startCampaign bench .punty engines.toNat) d) s
/-- DIG_CACHE_FLUSH (08 R295, R302). -/
def execDigCacheFlush (bench : Nat) (s : State) : Host.Outcome State Fault Refusal :=
  runDev (fun d => doIf (started d && outOfReset d && (benchOf bench d).inService) (modBench bench flushCache) d) s

end Sys2Proof.Machine
end

