-- ==== Sys2Proof/Machine/EventVerbs.lean ====
section
/-! DEFINITION. The verbs Read event log (19 R640) and Reset tenant (20 R666). -/

namespace Sys2Proof.Machine

/-! ### Read event log -/

/-- Records by ascending seq. -/
def insertSeq (r : Record) : List Record → List Record
  | [] => [r]
  | x :: t => if r.seq ≤ x.seq then r :: x :: t else x :: insertSeq r t
def bySeq : List Record → List Record
  | [] => []
  | r :: t => insertSeq r (bySeq t)
/-- The records of the source that the parameters choose, in seq order; the ring keeps that order itself. -/
def logSource (d : Device) (j : Job) : List Record :=
  if parByte j 8 = 1 then bySeq d.flash.log.flatten else d.events.ring
/-- The records of seq at or above the first wanted, at most as many as wanted. -/
def wantedRecords (d : Device) (j : Job) : List Record :=
  ((logSource d j).filter (fun r => decide (par j 0 8 ≤ r.seq))).take (par j 9 2)
/-- The records whose tags match, and the number of those left out. -/
def readRecords (d : Device) (j : Job) : Staged :=
  let want := wantedRecords d j
  let good := want.filter (recordValid d)
  { output := (good.map eventBytes).flatten, aux := BitVec.ofNat 32 (want.length - good.length) }
def eventLogVerb : Verb :=
  { plainVerb with
    decode := fun _ j => firstCode [reserved j 11 37, need (decide ((parByte j 8).toNat ≤ 1)) 0x0110,
      need (decide (1 ≤ par j 9 2 ∧ par j 9 2 ≤ 4096)) 0x0110, noInput j]
    maxOut := fun d j => 64 * (wantedRecords d j).length
    run := fun d j _ => readRecords d j }
/-- READ_EVENT_LOG, 0x0A30. -/
def execReadEventLog (core : CoreRef) (s : State) : Host.Outcome State Fault Refusal := runDev (execVerb 0x0A30 eventLogVerb core) s

/-! ### Reset tenant -/

/-- Step 2: one cancel per job of the tenant (04 R160). -/
def cancelTenant (t : Nat) (d : Device) : Device :=
  doEach ((d.gaffer.jobs.filter (fun j => decide (j.tenant = t))).map (·.id)) (fun id d => (cancelJob id d).1) d
/-- Step 3: the tenant's function is drained. -/
def drainFunction (t : Nat) (d : Device) : Device :=
  if fnExists t d.host && decide ((fnOf t d).mode ≠ .disabled) && decide ((fnOf t d).mode ≠ .draining) then startDrain false t d else d
/-- Step 4: a session of the tenant is closed; one in its handshake has no keys for a CLOSE and is freed. -/
def closeTenantSession (t : Nat) (s : Session) : Session :=
  if s.tenant ≠ t then s
  else match s.state with
    | .established => { s with state := .closing }
    | .rekeying => { s with state := .closing }
    | .handshake => { gen := s.gen + 1 }
    | _ => s
def closeTenant (t : Nat) (d : Device) : Device :=
  { d with net := { d.net with sessions := tabMap (fun _ => closeTenantSession t) d.net.sessions } }
/-- Step 5: its component session ends, its digest cache entries are invalidated. -/
def forgetTenant (t : Nat) (d : Device) : Device :=
  dropCaches (fun e => decide (e.tenant = t))
    { d with custody := { d.custody with sessions := d.custody.sessions.filter (fun x => decide (x.tenant ≠ t)) } }
/-- Step 6: its fault state, re-entry count and last code are cleared. -/
def clearTenantFault (t : Nat) (d : Device) : Device :=
  modTenant t (fun x => { x with faultState := 0, reenteredCount := 0, lastCode := 0 }) d
/-- Steps 2 to 6, and the result; the verb completes when the tenant's jobs have been released (`resetWaits`). -/
def resetSteps (b : Nat) (j : Job) (d : Device) : Device :=
  let t := num j.params 0 1
  let how := parByte j 1
  let d := cancelTenant t d
  let d := if how.getLsbD 1 then drainFunction t d else d
  let d := if how.getLsbD 0 then closeTenant t d else d
  stage b j.id {} (clearTenantFault t (forgetTenant t d))
def resetDecode (_ : Device) (j : Job) : Code :=
  firstCode [reserved j 2 46, need (decide (num j.params 1 1 < 4)) 0x0110, need (decide (num j.params 0 1 ≠ 0)) 0x0110, noInput j]
def runReset (c : CoreRef) (j : Job) (d : Device) : Device :=
  let code := verbCode { plainVerb with decode := resetDecode } d j
  if code ≠ 0 then stage c.bench j.id { code } d else resetSteps c.bench j d
/-- RESET_TENANT, 0x0A40. -/
def execResetTenant (core : CoreRef) (s : State) : Host.Outcome State Fault Refusal :=
  runDev (fun d => doWith (verbJob 0x0A40 core d) (runReset (lead core d)) d) s

end Sys2Proof.Machine
end

