-- ==== Sys2Proof/Machine/EventsSmbus.lean ====
section
/-! DEFINITION. The recorder's and the SMBus target's commands (19). -/

namespace Sys2Proof.Machine

/-- EVENT_ACCEPT (19 R628). -/
def execEventAccept (s : State) : Host.Outcome State Fault Refusal :=
  runDev (fun d => doIf (outOfReset d) servePort d) s

/-- A summary of a code falls due: 1 s of watch time with a count and no record stored (19 R632). -/
def summaryFalls (code : Nat) (d : Device) : Bool :=
  let b := bucketOf code d.events
  outOfReset d && b.suppressed != 0 && !b.summaryDue && decide (b.quietSince + secTicks ≤ d.time.ticks)
/-- SUMMARY_DUE (19 R632). -/
def execSummaryDue (code : BitVec 16) (s : State) : Host.Outcome State Fault Refusal :=
  runDev (fun d => doIf (summaryFalls code.toNat d) (fun d =>
    serveSummaries { d with events := { d.events with
      buckets := tabSet code.toNat { bucketOf code.toNat d.events with summaryDue := true } d.events.buckets } }) d) s

/-- FLASH_LOG_PAGE_WRITE (19 R636 to R639). -/
def execFlashLogPageWrite (programmed : Bool) (s : State) : Host.Outcome State Fault Refusal :=
  runDev (fun d => doIf (outOfReset d && d.events.nvmOk && !d.flash.fenced && !d.flash.halted && !d.events.toFlash.isEmpty)
    (writeLogPage programmed) d) s

/-! ### SMBus (19 R644) -/

/-- Any transaction that addresses Yunante: counted, and alerting resumes (19 R647). -/
def smbusTouch (d : Device) : Device := resumeAlert { d with events := evrCount 10 d.events }
/-- A block read: the content leaves the part. -/
def smbusRead (content : Device → Bytes) (s : State) : Host.Outcome State Fault Refusal :=
  runDev (fun d => doIf (outOfReset d) (fun d => smbusTouch { d with out := d.out ++ [.smbus (content d)] }) d) s

/-- Command 0x00: part number, die stepping, device fingerprint, power-cycle count. -/
def identityBlock (d : Device) : Bytes :=
  leBytes 2 (partNumber d.fuses.part) ++ leBytes 2 Config.dieStepping.toNat ++ fit 8 d.custody.deviceFp ++
  leBytes 4 d.battery.cycles.toNat
/-- Command 0x01: CUS_START, CUS_LIFECYCLE, CUS_TAMPER [31:28] with the power state, the alert causes. -/
def statusBlock (d : Device) : Bytes :=
  leBytes 4 (cusStart d).toNat ++ leBytes 4 (cusLifecycle d).toNat ++
  leBytes 1 (16 * ((cusTamper d).toNat / 2 ^ 28) + powerNo d.power.mode) ++ [d.events.causes] ++ List.replicate 6 0
/-- A region's telemetry reads as zero: an absent or a fenced bench (19 R644, 01 R34). -/
def benchDark (d : Device) (r : Nat) : Bool := decide (r < 8) && (decide (partBenches d.fuses.part ≤ r) || (benchOf r d).fenced)
/-- Command 0x02: the junction temperatures of the 14 regions. -/
def temperatureBlock (d : Device) : Bytes :=
  (List.range 14).map (fun r => if benchDark d r then 0 else signedByte ((d.tamper.diode[r]?).getD 0))
/-- Command 0x03: VBENCH0 to VBENCH7, VKEY, VCUST, VHOST, VPA, VPB. -/
def supplyBlock (d : Device) : Bytes :=
  ([0, 1, 2, 3, 4, 5, 6, 7, 8, 9, 12, 10, 11] : List Nat).flatMap (fun r =>
    leBytes 2 (if benchDark d r then 0 else (d.tamper.volts[r]?).getD 0))
/-- Command 0x04: the records accepted per severity. -/
def countBlock (d : Device) : Bytes := (List.range 5).flatMap (fun k => leBytes 4 (tabGetD k 0 d.events.perSeverity))
/-- Command 0x05: the newest record of severity Warning or above. -/
def newestBlock (d : Device) : Bytes :=
  match d.events.newest with
  | some r => leBytes 8 r.seq ++ leBytes 2 r.code.toNat ++ leBytes 1 (sevNo r.severity) ++ [r.region] ++ leBytes 4 r.seconds.toNat
  | none => List.replicate 16 0

def execSmbusDeviceIdentity (s : State) : Host.Outcome State Fault Refusal := smbusRead identityBlock s
def execSmbusStatus (s : State) : Host.Outcome State Fault Refusal := smbusRead statusBlock s
def execSmbusTemperatures (s : State) : Host.Outcome State Fault Refusal := smbusRead temperatureBlock s
def execSmbusSupplies (s : State) : Host.Outcome State Fault Refusal := smbusRead supplyBlock s
def execSmbusRecordCounts (s : State) : Host.Outcome State Fault Refusal := smbusRead countBlock s
def execSmbusNewestRecord (s : State) : Host.Outcome State Fault Refusal := smbusRead newestBlock s

/-- SMBUS_CLEAR_ALERT_CAUSE: command 0x06; a write whose PEC fails is discarded and counted (19 R644, R645). -/
def execSmbusClearAlertCause (value : Byte) (pecOk : Bool) (s : State) : Host.Outcome State Fault Refusal :=
  runDev (fun d => doIf (outOfReset d) (fun d =>
    let d := smbusTouch d
    if pecOk then clearCauses value d else { d with events := evrCount 11 d.events }) d) s

/-- An alert is asserted and not answered. -/
def alertOpen (e : Events) : Bool := match e.alert with
  | .asserted _ _ => true
  | _ => false
/-- ALERT_RESPONSE_ADDRESS_READ: Yunante answers with its address while it asserts the alert; when it wins, the alert is
answered (19 R646). -/
def execAlertResponseAddressRead (wins : Bool) (s : State) : Host.Outcome State Fault Refusal :=
  runDev (fun d => doIf (outOfReset d && smbAlertLow d.events && wins) (fun d =>
    let address := 2 * (0x58 + (d.pins.strapSampled &&& 7).toNat)
    { d with
      events := { evrCount 10 d.events with alert := .answered }
      out := d.out ++ [.smbus (leBytes 1 address)] }) d) s
/-- HOST_NOTIFY_ACKNOWLEDGE (19 R646). -/
def execHostNotifyAcknowledge (s : State) : Host.Outcome State Fault Refusal :=
  runDev (fun d => doIf (outOfReset d && alertOpen d.events && d.events.hostNotify) (fun d =>
    { d with events := { d.events with alert := .answered } }) d) s

/-- ALERT_UNANSWERED_TIMEOUT (19 R647). -/
def execAlertUnansweredTimeout (s : State) : Host.Outcome State Fault Refusal :=
  runDev (fun d => match d.events.alert with
    | .asserted since n =>
      if since + secTicks ≤ d.time.ticks then
        let d := { d with events := evrCount 9 d.events }
        if n < 3 then
          { d with events := { d.events with alert := .backoff (d.time.ticks + 2 ^ n * secTicks) (n + 1) } }
        else emitC .warning 0x0B01 [d.events.causes] { d with events := { d.events with alert := .silenced } }
      else d
    | _ => d) s
/-- ALERT_BACKOFF_EXPIRY (19 R647). -/
def execAlertBackoffExpiry (s : State) : Host.Outcome State Fault Refusal :=
  runDev (fun d => match d.events.alert with
    | .backoff t n => if t ≤ d.time.ticks then assertAlert n d else d
    | _ => d) s
/-- ALERT_RESUME (19 R647). -/
def execAlertResume (s : State) : Host.Outcome State Fault Refusal :=
  runDev (fun d => doIf (outOfReset d) resumeAlert d) s
/-- SMBUS_CLOCK_LOW_TIMEOUT: SMB_SCL and SMB_SDA are released (23 R725). -/
def execSmbusClockLowTimeout (s : State) : Host.Outcome State Fault Refusal :=
  runDev (fun d => doIf (outOfReset d) (fun d => { d with out := d.out ++ [.sclRelease] }) d) s

end Sys2Proof.Machine
end

