-- ==== Sys2Proof/Machine/Start.lean ====
section
/-! DEFINITION. The commands of start, straps and reset (14). -/

namespace Sys2Proof.Machine

/-- Straps are sampled, the watch count and window number start at 0, a full start begins (14 R499; 02 R734). -/
def releaseReset (straps : BitVec 12) (d : Device) : Device :=
  { d with
    pins := { d.pins with pwrOk := true, rstN := true, mainOn := true, strapLive := straps, strapSampled := straps
                          strapChanged := false, pfAnswer := .silent, perstRise := if d.pins.perstN then some 0 else none }
    time := { d.time with ticks := 0, window := 0, windowsDone := 0, trim := d.fuses.watchTrim }
    benches := tabFill (partBenches d.fuses.part) emptyBench
    gather := { d.gather with sources := emptySources d.fuses }
    start := {} }
/-- RELEASE_OF_RESET (14 R499). -/
def execReleaseOfReset (straps : BitVec 12) (s : State) : Host.Outcome State Fault Refusal :=
  runDev (fun d => doIf (!outOfReset d) (fun d => releaseReset straps (coldDevice d)) d) s

/-- A reset input goes low: everything but the battery domain is held in reset (14 R502, R504). -/
def lowerPin (pin : ResetPin) (d : Device) : Device :=
  { d with pins := { d.pins with pwrOk := d.pins.pwrOk && pin != .pwrOk, rstN := d.pins.rstN && pin != .rstN } }
/-- RESET_ASSERTED (14 R502). -/
def execResetAsserted (pin : ResetPin) (s : State) : Host.Outcome State Fault Refusal :=
  runDev (fun d =>
    let c := coldDevice d
    lowerPin pin { c with pins := { c.pins with pwrOk := d.pins.pwrOk, rstN := d.pins.rstN } }) s

/-- STRAP_CHANGED: the live value; the first change of a start is recorded (14 R500). -/
def execStrapChanged (live : BitVec 12) (s : State) : Host.Outcome State Fault Refusal :=
  runDev (fun d =>
    let first := outOfReset d && decide (live ≠ d.pins.strapSampled) && !d.pins.strapChanged
    let d := { d with pins := { d.pins with strapLive := live } }
    doIf first (fun d =>
      emitC .notice 0x0104 (leBytes 2 d.pins.strapSampled.toNat ++ leBytes 2 live.toNat)
        (startEntry 0x07 0xFF 0xFF 0 { d with pins := { d.pins with strapChanged := true } })) d) s

/-- START_PHASE_END (14 R506). From before phase 1 the custody phase begins; at the end of phase 10 start ends. -/
def execStartPhaseEnd (found : PhaseFindings) (s : State) : Host.Outcome State Fault Refusal :=
  runDev (fun d => doIf (starting d && phaseReady found d && !startPaused d) (endPhase found) d) s

/-- ROLL_CALL_REPORT (14 R508, R509): once per present bench, in phase 6. -/
def execRollCallReport (bench : Nat) (report : RollCall) (s : State) : Host.Outcome State Fault Refusal :=
  runDev (fun d => doIf (starting d && decide (d.start.phase = 6) && (tabGet bench d.benches).isSome &&
      !(benchOf bench d).fenced && !d.start.reported.contains bench) (takeReport bench report) d) s

/-- CRYSTAL_START_TIMEOUT: 100 ms of the custody phase have passed without 256 crystal periods (02 R43). -/
def execCrystalStartTimeout (s : State) : Host.Outcome State Fault Refusal :=
  runDev (fun d => doIf (starting d && decide (d.start.phase = 1) && decide (d.time.marks.length < 2) &&
      decide (d.start.phaseSince + 100 * msTicks ≤ d.time.ticks))
    (fun d => stopStart 0x01 (emitC .alarm 0x0106 (leBytes 4 (cusWatchCal d).toNat) d)) d) s

/-- A phase exceeds its bound: roll-call fences the benches that have not reported, the paths' phase may go on, any
other phase stops start (14 R506, R509, R517; 17 R602). -/
def boundExceeded (d : Device) : Device :=
  match d.start.phase with
  | 6 => doEach ((d.benches.filter (fun p => !p.2.fenced && !d.start.reported.contains p.1)).map (·.1)) (fun b => fenceBench b .custody 4) d
  | 9 => d
  | _ => stopStart 0x09 d
/-- START_PHASE_BOUND_EXCEEDED (14 R517). -/
def execStartPhaseBoundExceeded (s : State) : Host.Outcome State Fault Refusal :=
  runDev (fun d => doIf (starting d && pastBound d) boundExceeded d) s

end Sys2Proof.Machine
end

