-- ==== Sys2Proof/Machine/Fabric.lean ====
section
/-! DEFINITION. The commands of the fabric and its timebase (02). -/

namespace Sys2Proof.Machine

/-! ### The watch (02 R41 to R46, R734; 14 R514) -/

/-- The PF begins to answer 20 ms after the later of release and the rise of PERST_N: with retry status during start and
after a later rise, without it after a stop (14 R514, R515, R518). -/
def wakePf (d : Device) : Device :=
  match d.pins.pfAnswer, d.pins.perstRise with
  | .silent, some r =>
    if d.pins.perstN && !d.host.fenced && decide (r + 20 * msTicks ≤ d.time.ticks) then
      { d with pins := { d.pins with pfAnswer := if d.start.stopped then .normal else .retry } }
    else d
  | _, _ => d
/-- The part is idle in Noon: no job, no migration sweep, no image write (22 R692). -/
def partIdle (d : Device) : Bool :=
  d.gaffer.jobs.isEmpty && !d.keys.sweeps.any (fun p => p.2.active) && d.flash.imageWrite.isNone
/-- The tick from which the part has been idle (22 R693). -/
def noteIdle (d : Device) : Device :=
  let since := if partIdle d then some (d.power.idleSince.getD d.time.ticks) else none
  { d with power := { d.power with idleSince := since } }
/-- An edge of the crystal comes in: it is counted, and the custody phase marks the edges between which it measures (02 R42, R46). -/
def crystalEdge (phase : Nat) (t : TimeBase) : TimeBase :=
  { t with
    edges := t.edges + 1, lastEdge := some t.ticks, edgeLost := false
    marks := if phase = 1 ∧ t.marks.length < 3 ∧ t.edges % 256 = 0 then t.marks ++ [t.ticks] else t.marks }
/-- WATCH_TICK: the count advances by one (02 R734); whether the crystal has an edge in the tick is the operand (02 R46). -/
def execWatchTick (edge : Bool) (s : State) : Host.Outcome State Fault Refusal :=
  runDev (fun d => doIf (outOfReset d) (fun d =>
    let t := { d.time with ticks := d.time.ticks + 1 }
    noteIdle (wakePf { d with time := if edge then crystalEdge d.start.phase t else t })) d) s

/-- One trim step towards zero error. -/
def stepTrim (fast : Bool) (t : TimeBase) : TimeBase :=
  let up := fast == Config.trimSlows
  let code := if up then satInc t.trim else if t.trim = 0 then 0 else t.trim - 1
  { t with trim := code, adjust := satInc t.adjust }
/-- Edges of the crystal in a second: it runs at 32.768 kHz (23 R723). -/
def secondEdges : Nat := 32768
/-- The ticks counted over the second of crystal time that ends now (02 R44). -/
def secondCount (d : Device) : Nat := d.time.ticks - d.time.secondAt
/-- A second of crystal time ends: the error of the watch count over it, at most one step when it exceeds 1.0%, an Excursion beyond
3% (02 R44, R45). -/
def calibrate (d : Device) : Device :=
  let n := secondCount d
  let fast := decide (32000000 < n)
  let off := if fast then n - 32000000 else 32000000 - n
  let t := { d.time with
    secondAt := d.time.ticks, secondEdge := d.time.secondEdge + secondEdges, lastError := errorField (countError 32000000 n) }
  let d := { d with time := if 320000 < off then stepTrim fast t else t }
  if 960000 < off then timebaseFails d else d
/-- WATCH_CALIBRATION_SECOND (02 R44): at the edge that ends a second. The operand is the crystal's own number of the second, of which
the block makes no use; what is compared is the watch count that it holds (log entry 10). -/
def execWatchCalibrationSecond (_second : Nat) (s : State) : Host.Outcome State Fault Refusal :=
  runDev (fun d => doIf (outOfReset d && d.tamper.armed && decide (d.time.secondEdge + secondEdges ≤ d.time.edges)) calibrate d) s
/-- CRYSTAL_EDGE_LOSS: no edge for 4 ms during operation (02 R45). -/
def execCrystalEdgeLoss (s : State) : Host.Outcome State Fault Refusal :=
  runDev (fun d => doIf (outOfReset d && d.tamper.armed && !xtalOk d && !d.time.edgeLost) (fun d =>
    timebaseFails { d with time := { d.time with edgeLost := true } }) d) s

/-! ### Samples (02 R52 to R54; 17 R596) -/

/-- Neighbours whose supplies and temperatures are compared, by region number (02 R52); host and NVM interface region
share VHOST, so only their temperatures are. -/
def supplyPairs : List (Nat × Nat) :=
  [(0, 1), (0, 4), (0, 8), (0, 10), (1, 2), (1, 8), (1, 9), (2, 3), (2, 8), (2, 9), (3, 7), (3, 8), (3, 11), (4, 5), (4, 8),
   (4, 10), (5, 6), (5, 8), (5, 12), (6, 7), (6, 8), (6, 12), (7, 8), (7, 11), (8, 9), (8, 10), (8, 11), (8, 12), (8, 13)]
def temperaturePairs : List (Nat × Nat) := supplyPairs ++ [(12, 13)]
/-- Absent benches and benches fenced at roll-call take no part (01 R34, 02 R58); one fenced later does. -/
def watched (d : Device) (r : Nat) : Bool := decide (8 ≤ r) || ((tabGet r d.benches).isSome && !d.start.rollFenced.contains r)
/-- A condition of a region holds in two consecutive samples. -/
def twice {α : Type} (p : α → Bool) (a b : List α) (r : Nat) : Bool :=
  match a[r]?, b[r]? with
  | some x, some y => p x && p y
  | _, _ => false
/-- A difference beyond a limit holds in two consecutive samples of a pair. -/
def apart (limit : Int) (a : List Int) (p : Nat × Nat) : Bool :=
  match a[p.1]?, a[p.2]? with
  | some x, some y => decide (limit < x - y) || decide (limit < y - x)
  | _, _ => false
def pairFails (d : Device) (pairs : List (Nat × Nat)) (limit : Int) (a b : List Int) : Bool :=
  pairs.any (fun p => watched d p.1 && watched d p.2 && apart limit a p && apart limit b p)

/-- The speed codes of the benches from the latest samples; a region not yet sampled counts as 60 °C (04 R156). -/
def setSpeeds (d : Device) : Device :=
  { d with benches := tabMap (fun b x =>
      let mv : Int := ((d.tamper.volts[b]?).getD 850 : Nat)
      let c := (d.tamper.diode[b]?).getD 60
      { x with lehr := { x.lehr with speed := speedCode mv c } }) d.benches }
/-- A supply lies outside its trip limits (17 R596: 0.67 V and 0.98 V, the ranges of 23 R712 being alike). -/
def supplyOut (mv : Nat) : Bool := decide (mv < 670) || decide (980 < mv)
def takeVolts (mv : List Nat) (d : Device) : Device :=
  let old := d.tamper.volts
  let d := setSpeeds { d with tamper := { d.tamper with volts := mv, prevVolts := old, voltsAt := some d.time.ticks } }
  let d := if (List.range 8).any (fun r => watched d r && twice supplyOut old mv r) then tripSource 6 .detA d else d
  let d := if ([8, 9, 10, 11, 12] : List Nat).any (twice supplyOut old mv) then tripSource 7 .detA d else d
  if pairFails d supplyPairs 60 (old.map Int.ofNat) (mv.map Int.ofNat) then tripSource 10 .detA d else d
/-- VOLTAGE_SAMPLE: every 64 ticks (02 R53). At which counts the spec does not say: the multiples of 64 (DESIGN CHOICE, log entry
11). -/
def execVoltageSample (millivolts : List Nat) (s : State) : Host.Outcome State Fault Refusal :=
  runDev (fun d => doIf (outOfReset d && decide (d.time.ticks % 64 = 0) && decide (d.tamper.voltsAt ≠ some d.time.ticks))
    (takeVolts millivolts) d) s

def hotOrCold (c : Int) : Bool := decide (c < -27) || decide (112 < c)
def takeTemperatures (diode oscillator : List Int) (d : Device) : Device :=
  let t := d.tamper
  let d := { d with tamper := { t with diode := diode, prevDiode := t.diode, oscillator := oscillator
                                       prevOscillator := t.oscillator, diodeAt := some d.time.ticks } }
  let all := (List.range 14).filter (watched d)
  let d := if all.any (twice hotOrCold t.diode diode) then tripSource 9 .detA d else d
  let d := if all.any (twice hotOrCold t.oscillator oscillator) then tripSource 9 .detB d else d
  if pairFails d temperaturePairs 20 t.diode diode then tripSource 10 .detA d else d
/-- TEMPERATURE_SAMPLE: every 32,000 ticks (02 R53). At which counts the spec does not say: the multiples of 32,000 (DESIGN CHOICE,
log entry 11). -/
def execTemperatureSample (diode oscillator : List Int) (s : State) : Host.Outcome State Fault Refusal :=
  runDev (fun d => doIf (outOfReset d && decide (d.time.ticks % 32000 = 0) && decide (d.tamper.diodeAt ≠ some d.time.ticks))
    (takeTemperatures diode oscillator) d) s

/-! ### Silent regions and tick loss (02 R59 to R63, R741) -/

/-- A region exists, is not fenced, and still makes handshakes. -/
def regionAlive (d : Device) (r : Region) : Bool :=
  match r with
  | .bench b => (tabGet b d.benches).isSome && !(benchOf b d).fenced && !(benchOf b d).halted
  | .keyStore => !d.keys.halted
  | .custody => true
  | .path isB => !(pathOf isB d).fenced && !(pathOf isB d).halted
  | .host => !d.host.fenced && !d.host.halted
  | .nvm => !d.flash.fenced && !d.flash.halted
/-- The far region is there to be asked: a halted region stops what leaves it, and may still be waited for. -/
def regionThere (d : Device) (r : Region) : Bool :=
  match r with
  | .bench b => (tabGet b d.benches).isSome && !(benchOf b d).fenced
  | .path isB => !(pathOf isB d).fenced
  | .host => !d.host.fenced
  | .nvm => !d.flash.fenced
  | _ => true
/-- The roll-call handshake of a bench is open: neither acknowledged nor followed by a report (14 R508). -/
def rollOpen (d : Device) (b : Nat) : Bool :=
  starting d && decide (d.start.phase = 6) && (tabGet b d.benches).isSome && !(benchOf b d).fenced &&
  !d.start.acknowledged.contains b && !d.start.reported.contains b
/-- The requests that the custody partition holds open to a region, with their ticks: a heartbeat, and the roll-call. -/
def custodyRequests (far : Region) (d : Device) : List Nat :=
  (d.custody.heartbeats.filter (fun p => p.1 = far)).map (·.2) ++
  match far with
  | .bench b => if rollOpen d b then [d.start.phaseSince] else []
  | _ => []
/-- A request raised at a tick has waited 1,600 ticks, counted from the first tick after it (02 R59). The custody partition's requests
are state; those of any other region begin below the rows, so that the tick is the row's operand (log entry 13). -/
def waited (requester far : Region) (raised : Nat) (d : Device) : Bool :=
  decide (raised + 1600 ≤ d.time.ticks) && (decide (requester ≠ .custody) || (custodyRequests far d).contains raised)
/-- HANDSHAKE_TIMEOUT: the requester declares the far region silent (02 R59, R61). -/
def execHandshakeTimeout (requester far : Region) (raised : Nat) (s : State) : Host.Outcome State Fault Refusal :=
  runDev (fun d => doIf (outOfReset d && decide (requester ≠ far) && regionAlive d requester && regionThere d far &&
      waited requester far raised d) (regionSilent far requester) d) s

/-- LATE_ACKNOWLEDGE: discarded (02 R60). -/
def execLateAcknowledge (_requester _far : Region) (s : State) : Host.Outcome State Fault Refusal := runDev (fun d => d) s

/-- A bench acknowledges the roll-call handshake in time (14 R508). -/
def ackRollCall (r : Region) (d : Device) : Device :=
  match r with
  | .bench b => doIf (rollOpen d b && decide (d.time.ticks < d.start.phaseSince + 1600))
      (fun d => { d with start := { d.start with acknowledged := d.start.acknowledged ++ [b] } }) d
  | _ => d
/-- HEARTBEAT_ACKNOWLEDGE: the next heartbeat is raised at once (02 R741); an acknowledge on the 1,600th tick or later
is discarded (02 R60). During roll-call it is the acknowledge of the bench's roll-call handshake (14 R508; log entry 13). -/
def execHeartbeatAcknowledge (region : Region) (s : State) : Host.Outcome State Fault Refusal :=
  runDev (fun d => doIf (outOfReset d && regionThere d region) (fun d =>
    doIf (d.custody.heartbeats.any (fun p => decide (p.1 = region) && decide (d.time.ticks < p.2 + 1600)))
      (beginHeartbeat region) (ackRollCall region d)) d) s

/-- A region stops every handshake that leaves it and releases no result (02 R63). -/
def haltRegion (r : Region) (d : Device) : Device :=
  match r with
  | .bench b => modBench b (fun x => { x with halted := true }) d
  | .keyStore => { d with keys := { d.keys with halted := true } }
  | .path isB => modPath isB (fun p => { p with halted := true }) d
  | .host => { d with host := { d.host with halted := true } }
  | .nvm => { d with flash := { d.flash with halted := true } }
  | .custody => d
/-- TICK_LOSS_DETECTED: a region, fenced or not, halts until the next reset; T12 detector B trips (02 R62, R63; 17 R579). -/
def execTickLossDetected (region : Region) (s : State) : Host.Outcome State Fault Refusal :=
  runDev (fun d => doIf (outOfReset d && regionExists d region && !regionHalted d region && decide (region ≠ .custody))
    (fun d => tripSource 12 .detB (haltRegion region d)) d) s

end Sys2Proof.Machine
end

