-- ==== Sys2Proof/Machine/Frames.lean ====
section
/-! DEFINITION. The reception of HTL frames (13 R459 to R481): link rules, versions and types, sessions, authentication,
admission, the answers that need no job. -/

namespace Sys2Proof.Machine

/-! ### Below HTL (13 R459, R461) -/

/-- The path hears frames: in use, alive, its link up. -/
def pathHears (isB : Bool) (d : Device) : Bool := outOfReset d && pathAlive (pathOf isB d) && (pathOf isB d).linkUp
/-- HTL is on: the part serves, and the lifecycle state is Operational (16 R558). -/
def htlOn (d : Device) : Bool := started d && decide (state d = .operational)
def vlanOk (p : NetPath) (l : LinkInfo) : Bool :=
  if p.addr.tagging then decide (l.vlan = some p.addr.vid) else decide (l.vlan = none)
/-- The destination is an address of the path. -/
def ownAddress (p : NetPath) (v6 : Bool) (a : BitVec 128) : Bool :=
  if v6 then decide (p.addr.ipv6 = some a) || (p.addr.configured && decide (a = Config.linkLocal p.addr.mac))
  else match p.addr.ipv4 with
    | some b => decide (a = b.setWidth 128)
    | none => false
/-- The UDP payload of a frame. -/
def datagram (f : Frame) : Bytes := headerBytes f.header ++ f.payload ++ f.tag
/-- The UDP checksum is right; a zero IPv4 checksum is accepted. -/
def checksumOk (f : Frame) : Bool :=
  let l := f.link
  (!l.source.ipv6 && l.checksum == 0) ||
  l.checksum == udpChecksum l.source.ipv6 l.source.ip l.destIp l.source.port l.destPort (datagram f)
/-- The link, IP and UDP rules for a datagram. -/
def linkOk (isB : Bool) (f : Frame) (d : Device) : Bool :=
  let p := pathOf isB d
  let l := f.link
  decide (l.destMac = p.addr.mac) && vlanOk p l && !l.fragmentOrOptions && checksumOk f && ownAddress p l.source.ipv6 l.destIp &&
  decide (l.destPort = d.net.htlPort)
/-- A link-layer drop (counter 7). -/
def linkDrop (isB : Bool) (d : Device) : Device := netCount isB 7 d

/-- A path's own check fails: the frame is dropped and counted; 16 within 1 s of watch time fence the path (20 R662). -/
def pathCheckFails (isB : Bool) (d : Device) : Device :=
  let p := pathOf isB d
  let recent := (p.checkFails.filter (fun t => decide (d.time.ticks < t + secTicks))) ++ [d.time.ticks]
  let d := modPath isB (fun p => { p with checkFails := recent }) (netCount isB 13 d)
  if 16 ≤ recent.length then fencePath isB (.path isB) d else d

/-- Frame types a host may send (13 R463). -/
def hostType (t : Byte) : Bool :=
  t == 0x01 || t == 0x03 || t == 0x10 || t == 0x12 || t == 0x13 || t == 0x14 || t == 0x16
/-- Receive a frame of one type and hand it to its handler, past the link rules, the lifecycle, the version and type
rules and the path's own check. -/
def receive (type : Byte) (isB : Bool) (f : Frame) (handle : Device → Device) (d : Device) : Device :=
  if !pathHears isB d || (f.header.version == 0x01 && hostType f.header.type && f.header.type != type) then d
  else
    let d := netCount isB 0 d
    if (pathOf isB d).offline || !linkOk isB f d || !htlOn d then linkDrop isB d
    else if f.header.version ≠ 0x01 ∨ !hostType f.header.type then netCount isB 14 d
    else if f.link.pathCheckFails then pathCheckFails isB d
    else handle d

/-! ### Sessions and authentication (13 R464, R465, R485, R487) -/

def sessionIndex (f : Frame) : Nat := (f.header.session.setWidth 16).toNat
def sessionGen (f : Frame) : BitVec 16 := f.header.session.extractLsb' 16 16
/-- The session a frame names: of the index, of that generation, not Free. -/
def namedSession (f : Frame) (d : Device) : Option Session :=
  let s := sessionOf (sessionIndex f) d
  if s.state ≠ .free ∧ s.gen = sessionGen f then some s else none
/-- An unknown session or epoch: counted, and ABORT 0x05 on the receiving path (13 R473). -/
def unknownSession (isB : Bool) (f : Frame) (d : Device) : Device :=
  sendAbort isB (some f.link.source) f.header.session [] 0x05 (netCount isB 5 d)
/-! ### Admission (13 R476, R482; 02 R65) -/

/-- Both window tests of R476: true when the number is admitted now. -/
def admits (s : Session) (seq : Nat) : Bool :=
  decide (s.high < seq) || (decide (s.high ≤ seq + 1024) && decide (1 ≤ seq) && decide (seq < s.high) && !s.seen.contains seq)
/-- The number is one already admitted: a twin or a repeat. -/
def repeated (s : Session) (seq : Nat) : Bool := (decide (seq = s.high) && decide (1 ≤ seq)) || s.seen.contains seq
/-- Record an admitted number: H rises, and the window keeps the 1,024 numbers below it. -/
def admitSeq (seq : Nat) (s : Session) : Session :=
  let h := max s.high seq
  let seen := (if s.high = 0 then s.seen else s.high :: s.seen) ++ (if seq < s.high then [seq] else [])
  { s with high := h, seen := (seen.filter (fun n => decide (n ≠ h) && decide (h ≤ n + 1024))).eraseDups
           admitted := s.admitted.filter (fun p => decide (h ≤ p.1 + 1024)) }
/-- The first frame of the new epoch ends the acceptance of the old one (13 R485). -/
def settleEpoch (e : Byte) (s : Session) : Session :=
  if s.prevKeys.isSome && e == s.epoch then
    { s with prevKeys := none, rekeyAt := none, state := if s.state = .rekeying then .established else s.state }
  else s
/-- A twin or a stale copy is counted (13 R476; NET_DUP wraps and sets its sticky flag). -/
def countRepeat (isB dup : Bool) (d : Device) : Device :=
  if dup then modPath isB (fun p => { p with dupCount := p.dupCount + 1, dupOverflow := p.dupOverflow || p.dupCount == BitVec.allOnes 31 }) d
  else netCount isB 4 d
/-- The requests of the ingress bridge that have reached the admission stage leave it. -/
def crossBridge (isB : Bool) (n : Nat) (d : Device) : Device := modPath isB (fun p => { p with ingress := p.ingress - n }) d
/-- A request enters the ingress bridge. -/
def enterBridge (isB : Bool) (d : Device) : Device := modPath isB (fun p => { p with ingress := p.ingress + 1 }) d
/-- A number is admitted: the window moves, the first frame of a new epoch settles it, a direction that has used its numbers up closes the
session (13 R476, R482, R485). -/
def admitOnce (i : Nat) (f : Frame) (d : Device) : Device :=
  let s := sessionOf i d
  let d := setSession i (admitSeq f.header.seq.toNat s) d
  closeExhausted i (if s.prevKeys.isSome && f.header.epoch == s.epoch then pathWrite i (settleEpoch f.header.epoch) d else d)
/-- The admission stage takes an authenticated frame, once (13 R476, R482). -/
def admitFrame (isB : Bool) (i : Nat) (f : Frame) (use : Nat → Bytes → Device → Device) (plain : Bytes) (d : Device) : Device :=
  let s := sessionOf i d
  let seq := f.header.seq.toNat
  if !admits s seq then countRepeat isB (repeated s seq) d
  else if s.state = .closing then netCount isB 4 d
  else use i plain (admitOnce i f d)
/-- Receive an encrypted traffic frame: authenticate, learn its address, pass it through the ingress bridge, admit it once, and hand its
plaintext on. With the bridge full the frame is dropped and counted (02 R65); a halted admission stage takes nothing out of it. -/
def traffic (type : Byte) (isB : Bool) (f : Frame) (use : Nat → Bytes → Device → Device) (d : Device) : Device :=
  receive type isB f (fun d =>
    let i := sessionIndex f
    match namedSession f d with
    | none => unknownSession isB f d
    | some s =>
      match keyFor d i s true f.header.epoch with
      | none => unknownSession isB f d
      | some ks =>
        if !frameOk ks f then netCount isB 2 d
        else
          let d := crossBridge isB f.link.crossed (setSession i { learn isB f.link.source s with lastFrame := d.time.ticks } d)
          if bridgeDepth .ingress ≤ (pathOf isB d).ingress then netCount isB 3 d
          else if d.keys.halted then enterBridge isB d
          else admitFrame isB i f use (framePlain ks f) (enterBridge isB d)) d

/-! ### Answers without a job (13 R480, R481) -/

/-- A frame of a session waits for the next grid point. -/
def queueReply (i : Nat) (type : Byte) (plain : Bytes) (d : Device) : Device :=
  { d with net := { d.net with replies := d.net.replies ++ [{ index := i, gen := (sessionOf i d).gen, type, plain }] } }
/-- The plaintext of a RESPONSE (13 R468), every field big-endian. -/
def responsePlain (seq : Nat) (a : Answer) : Bytes :=
  let out := if a.code = 0 ∨ a.code = 0x0603 then a.output else []
  beBytes 8 seq ++ beBytes 2 a.code.toNat ++ [0, 0] ++ [if a.code = 0 then a.verdict else 0, 0] ++
  beBytes 2 (min 65535 out.length) ++ beBytes 4 a.aux.toNat ++ beBytes 4 out.length ++ out

end Sys2Proof.Machine
end

