-- ==== Sys2Proof/Machine/Grid.lean ====
section
/-! DEFINITION. The release grid (04 R151, R152; 02 R66; 12 R432; 13 R480 to R489). -/

namespace Sys2Proof.Machine

/-! ### What may leave (04 R151, R152; 02 R66; 13 R489) -/

/-- Every job of its stream with a lower ticket has been released. -/
def firstOfStream (j : Job) (d : Device) : Bool :=
  !d.gaffer.jobs.any (fun o => decide (o.stream = j.stream) && o.id != j.id && (o.ticket - j.ticket).getLsbD 31)
/-- A path in use: its egress bridge takes what Lehr releases. -/
def pathInUse (p : NetPath) : Bool := pathAlive p && p.linkUp
/-- The egress bridge of a path in use is full (02 R64, R66). -/
def egressHeld (d : Device) : Bool :=
  (pathInUse d.net.a && decide (bridgeDepth .egress ≤ d.net.a.egress)) || (pathInUse d.net.b && decide (bridgeDepth .egress ≤ d.net.b.egress))
/-- Responses leave a path's egress bridge, by the count that the sender gives; one enters it. -/
def leaveEgress (isB : Bool) (n : Nat) (d : Device) : Device := modPath isB (fun p => { p with egress := p.egress - n }) d
def enterEgress (isB : Bool) (d : Device) : Device :=
  modPath isB (fun p => { p with egress := if pathInUse p then p.egress + 1 else p.egress }) d
/-- Lehr releases a frame of a session to both paths. -/
def releaseFrame (i : Nat) (type : Byte) (plain : Bytes) (d : Device) : Device :=
  enterEgress true (enterEgress false (sendSession i type plain d))
/-- The session of an HTL job can take its response now; a session that is gone takes nothing and holds nothing. -/
def sessionTakes (id : BitVec 32) (d : Device) : Bool :=
  let s := sessionOf (id.setWidth 16).toNat d
  decide (s.state = .free) || decide (s.gen ≠ id.extractLsb' 16 16) || (canIssue s && !egressHeld d)
def transportTakes (j : Job) (d : Device) : Bool :=
  match j.origin with
  | .htl id _ => sessionTakes id d
  | _ => true
/-- The Lehr that releases a job: that of its bench while the bench serves, else the key store region (20 R654). -/
def lehrOf (j : Job) (d : Device) : Option Nat :=
  match j.place with
  | .retired b => if (benchOf b d).fenced then none else some b
  | _ => none
/-- A Lehr works at this grid point. -/
def lehrServes (b : Nat) (d : Device) : Bool :=
  !(benchOf b d).halted && decide ((benchOf b d).lehr.gridDone ≠ some d.time.ticks)
/-- The job has become releasable. -/
def isReleasable (d : Device) (j : Job) : Bool :=
  match j.releasable with
  | some t => decide (t ≤ d.time.ticks)
  | none => false
/-- Room for the job at its Lehr, of 128 at a grid point. -/
def lehrRoom (used : Tab Nat) (j : Job) (d : Device) : Bool :=
  match lehrOf j d with
  | some b => lehrServes b d && decide (tabGetD b 0 used < 128)
  | none => true
/-- The order in which jobs became releasable; of one stream, ticket order. Jobs of different streams that became releasable at one count
go by the order in which they entered Gaffer (DESIGN CHOICE: 04 R152 does not say; log entry 90). -/
def leavesBefore (a b : Job) : Bool :=
  let ta := a.releasable.getD 0
  let tb := b.releasable.getD 0
  if a.stream = b.stream then (a.ticket - b.ticket).getLsbD 31
  else if ta ≠ tb then decide (ta < tb) else decide (a.id < b.id)
def nextToLeave (used : Tab Nat) (d : Device) : Option Job :=
  leastBy leavesBefore (d.gaffer.jobs.filter (fun j =>
    isReleasable d j && firstOfStream j d && lehrRoom used j d && transportTakes j d))

/-! ### Leaving -/

/-- A RESPONSE of a session (13 R468); none for a session that is gone. -/
def sendResponse (id : BitVec 32) (seq : Nat) (a : Answer) (d : Device) : Device :=
  let i := (id.setWidth 16).toNat
  let s := sessionOf i d
  if s.state = .free ∨ s.gen ≠ id.extractLsb' 16 16 then d else releaseFrame i 0x11 (responsePlain seq a) d
/-- A job leaves: its completion or response goes out, and it is gone. -/
def releaseJob (j : Job) (d : Device) : Device :=
  let d := freeJobCore j { d with gaffer := { d.gaffer with jobs := d.gaffer.jobs.filter (fun o => o.id ≠ j.id) } }
  let d := doWith (lehrOf j d) (fun b => modBench b (fun x => { x with lehr := { x.lehr with lastGrid := watch d } })) d
  match j.origin with
  | .htl id seq => sendResponse id seq.toNat (answerOf j) d
  | .host f q cid _ _ outAddr =>
    if j.silentRelease then (if j.code = 0 ∨ j.code = 0x0603 then fnCount f 9 d else d)
    else complete f q cid j.incarnation (answerOf j) outAddr.toNat d
  | .background => doEach (d.keys.sweeps.filter (fun p => decide (p.2.job = some j.id))) (fun p => enterSweep p.1 1) d
/-- Release jobs while one may leave. -/
def releaseGo : Nat → Tab Nat → Device → Device × Tab Nat
  | 0, used, d => (d, used)
  | fuel + 1, used, d =>
    match nextToLeave used d with
    | none => (d, used)
    | some j =>
      let used := match lehrOf j d with | some b => tabSet b (tabGetD b 0 used + 1) used | none => used
      releaseGo fuel used (releaseJob j d)
/-- No job before it in its stream is still to become releasable. -/
def unheld (j : Job) (d : Device) : Bool :=
  !d.gaffer.jobs.any (fun o => decide (o.stream = j.stream) && o.id != j.id && (o.ticket - j.ticket).getLsbD 31 && !isReleasable d o)
/-- Every releasable job that the grid point did not release, though its stream's jobs before it may all leave, is a deferral of
its Lehr (04 R152, R174). -/
def countDeferrals (d : Device) : Device :=
  doEach ((d.gaffer.jobs.filter (fun j => isReleasable d j && unheld j d)).filterMap (fun j =>
    match lehrOf j d with | some b => if lehrServes b d then some b else none | none => none)) (fun b => lehCount b 4) d
def markGrid (d : Device) : Device :=
  { d with benches := tabMap (fun _ b => { b with lehr := { b.lehr with gridDone := some d.time.ticks } }) d.benches }

/-! ### Frames without a job (13 R480 to R486) -/

/-- The epoch changes when the REKEY_ACK leaves (13 R484, R485); not in a session that its number has closed (R482). -/
def nextEpoch (i : Nat) (d : Device) : Device :=
  let s := sessionOf i d
  match s.rekeyOpen with
  | none => d
  | some secret =>
    if s.state = .closing then d
    else netCount (authorityB d.net) 11 (pathWrite i (fun s => withKeys d i (epochKeys secret (s.epoch + 1)) (some ((clearKeys d i s).drop 48))
      { s with epoch := s.epoch + 1, rekeyAt := some d.time.ticks, epochStart := d.time.ticks, epochIngress := s.high
               epochEgress := s.egressNext, rekeyOpen := none, rekeyDue := false }) d)
/-- One reply leaves, is dropped with its session or with a forgotten rekey, or waits. -/
def sendReply (r : Reply) (d : Device) : Device :=
  let s := sessionOf r.index d
  if s.state = .free ∨ s.gen ≠ r.gen ∨ (r.type = 0x15 ∧ s.rekeyOpen = none) then d
  else if egressHeld d || !canIssue s then { d with net := { d.net with replies := d.net.replies ++ [r] } }
  else
    let d := releaseFrame r.index r.type r.plain d
    if r.type = 0x15 then nextEpoch r.index d else d
def sendReplies (d : Device) : Device := doEach d.net.replies sendReply { d with net := { d.net with replies := [] } }
/-- Jobs or replies of a session still wait. -/
def sessionBusy (i : Nat) (gen : BitVec 16) (d : Device) : Bool :=
  d.gaffer.jobs.any (fun j => match j.origin with
    | .htl id _ => decide ((id.setWidth 16).toNat = i) && decide (id.extractLsb' 16 16 = gen)
    | _ => false) ||
  d.net.replies.any (fun r => decide (r.index = i) && decide (r.gen = gen))
/-- Sessions that are closing and have released everything send CLOSE and are freed (13 R482). -/
def closeSessions (d : Device) : Device :=
  doEach (d.net.sessions.filter (fun p => p.2.state == .closing && !sessionBusy p.1 p.2.gen d)) (fun p d =>
    if egressHeld d || !canIssue (sessionOf p.1 d) then d else freeSession p.1 (releaseFrame p.1 0x16 [] d)) d

/-- A grid point (04 R151): `leftA` and `leftB` responses have left the egress bridges since the one before. -/
def gridPoint (leftA leftB : Nat) (d : Device) : Device :=
  let d := leaveEgress false leftA (leaveEgress true leftB d)
  let d := (releaseGo d.gaffer.jobs.length [] d).1
  let d := markGrid (countDeferrals d)
  dispatchAll (offerSweeps (closeSessions (sendReplies d)))

end Sys2Proof.Machine
end

