-- ==== Sys2Proof/Machine/GafferLehr.lean ====
section
/-! DEFINITION. The commands of Gaffer, the recipes' fixed stages and Lehr (04, 20, 21). -/

namespace Sys2Proof.Machine

/-- A core without a job raises a request and blocks on it (04 R137). -/
def askForWork (c : CoreRef) (d : Device) : Device :=
  dispatchAll { modUnit c (fun x => { x with state := .asking, since := d.time.ticks }) d with
    gaffer := { d.gaffer with requests := d.gaffer.requests ++ [(c, d.time.ticks)] } }
/-- CORE_WORK_REQUEST (04 R137; a pair asks as one core, 21 R675). -/
def execCoreWorkRequest (core : CoreRef) (s : State) : Host.Outcome State Fault Refusal :=
  runDev (fun d => doIf (benchRuns core.bench d && decide ((coreOf (lead core d) d).state = .idle)) (askForWork (lead core d)) d) s

/-- CHECK_VERDICT (04 R140, R158); `pairDiffers` is what the compare point of a pair shows (21 R671, R673). -/
def execCheckVerdict (core : CoreRef) (pairDiffers : Bool) (s : State) : Host.Outcome State Fault Refusal :=
  runDev (fun d => match (match lateVerdict core d with | some j => some j | none => jobOn core d) with
    | none => d
    | some j => match j.staged, j.verdict with
      | some st, none => if pairDiffers && izvi d then pairFault core d else giveVerdict j st.code d
      | _, _ => d) s

/-- LOCKSTEP_PARTNER_TIMEOUT (21 R673). -/
def execLockstepPartnerTimeout (core : CoreRef) (s : State) : Host.Outcome State Fault Refusal :=
  runDev (fun d => doIf (izvi d && (jobOn core d).isSome) (pairFault core) d) s

/-- A result of Marver, of a step too, reaches the pending buffer only when both passes have been compared, unless Decode or Check ended the
job before it computed; in the Izvi personality the pair's compare point stands in for it (06 R213, R214; 07 R264; 21 R671). -/
def comparedResult (j : Job) (st : Staged) (d : Device) : Bool := izvi d || !(jobNeeds j d).1 || st.checked || j.compared
/-- STAGE_OUT (04 R140, R150, R158; 20 R650, R652): the job stands staged on its core. -/
def execStageOut (core : CoreRef) (fault : UnitFault) (s : State) : Host.Outcome State Fault Refusal :=
  runDev (fun d => match jobOn core d with
    | none => d
    | some j => match j.staged with
      | none => d
      | some st =>
        let c := lead core d
        let e := unitFault c j.id fault d
        if stillAt j.id (.core c.bench c.core) e && comparedResult j st d then stageJob c j st.code e else e) s

/-- A reset of a tenant waits until its jobs have been released (20 R666). -/
def resetWaits (j : Job) (st : Staged) (d : Device) : Bool :=
  decide (j.recipe = 0x0A40) && decide (st.code = 0) &&
  d.gaffer.jobs.any (fun o => decide (o.id ≠ j.id) && decide (o.tenant = num j.params 0 1))
/-- RETIRE (04 R145 to R148; 20 R650, R652). -/
def execRetire (job : Nat) (fault : UnitFault) (s : State) : Host.Outcome State Fault Refusal :=
  runDev (fun d => match jobOf job d with
    | none => d
    | some j => match j.place, j.staged, j.verdict with
      | .pending b, some st, some verdict =>
        if !benchRuns b d || !mayRetire j d || resetWaits j st d || conversionBlocks st d then d
        else
          let e := unitFault (j.ranOn.getD { bench := b, core := 0 }) j.id fault d
          if stillAt j.id (.pending b) e then (if j.durable then gateOpened j e else retireJob j b verdict st e) else e
      | _, _, _ => d) s

/-- CORE_SELFTEST_END (20 R651; both cores of a pair, 21 R673, R674). -/
def execCoreSelftestEnd (core : CoreRef) (passed : Bool) (s : State) : Host.Outcome State Fault Refusal :=
  runDev (fun d =>
    let c := lead core d
    doIf (benchRuns c.bench d && decide ((coreOf c d).state = .testing)) (fun d =>
      if passed then modUnit c (fun x => { x with state := .idle, since := d.time.ticks }) d else dispatchAll (retireCore c d)) d) s

/-- JOURNAL_ENTRY_DURABLE (04 R147; 20 R660): `programmed` says whether the page programmed. -/
def execJournalEntryDurable (entry : Nat) (programmed : Bool) (s : State) : Host.Outcome State Fault Refusal :=
  runDev (fun d => match d.flash.writes.find? (fun w => decide (w.id = entry) && !w.durable) with
    | none => d
    | some w => doIf (outOfReset d && nvmServes d) (if programmed then entryDurable w else entryFailed w) d) s

/-- FLOOR_REACHED (04 R158): the core of a refused job is free again. -/
def execFloorReached (job : Nat) (s : State) : Host.Outcome State Fault Refusal :=
  runDev (fun d => match jobOf job d with
    | none => d
    | some j => match j.place with
      | .retired _ => doIf (j.held.isSome && isReleasable d j) (fun d => modJob j.id (fun j => { j with held := none }) (freeJobCore j d)) d
      | _ => d) s

/-- GRID_POINT (04 R151): at a watch count that is a multiple of 8. -/
def execGridPoint (leftA leftB : Nat) (s : State) : Host.Outcome State Fault Refusal :=
  runDev (fun d => doIf (outOfReset d && started d && decide (d.time.ticks % 8 = 0) && !d.keys.halted)
    (gridPoint leftA leftB) d) s

/-- Every expired job on the list leaves it (04 R135). -/
def scanExpired (d : Device) : Device :=
  doEach ((d.gaffer.jobs.filter (expired d)).map (·.id)) expireJob
    { d with gaffer := { d.gaffer with lastScan := some d.time.ticks } }
/-- EXPIRY_SCAN (04 R135): at a watch count whose low 8 bits are zero. -/
def execExpiryScan (s : State) : Host.Outcome State Fault Refusal :=
  runDev (fun d => doIf (outOfReset d && d.gaffer.ready && decide (d.time.ticks % 256 = 0) && decide (d.gaffer.lastScan ≠ some d.time.ticks))
    scanExpired d) s

end Sys2Proof.Machine
end

