-- ==== Sys2Proof/Machine/GatherCmds.lean ====
section
/-! DEFINITION. The commands of Gather (09 R305 to R328; 22 R697). -/

namespace Sys2Proof.Machine

/-- The source's bench still runs and the source is powered: not in Dusk (22 R688). -/
def sourceRuns (n : Nat) (d : Device) : Bool :=
  outOfReset d && decide (d.power.mode ≠ .dusk) && (tabGet (n / 2) d.benches).isSome && !(benchOf (n / 2) d).fenced && !(benchOf (n / 2) d).halted

/-! ### Health tests (09 R307 to R310) -/

/-- The run in progress, the last bit and the longest run, after one more bit. -/
def runBit (r : Nat × Option Bool × Nat) (b : Bool) : Nat × Option Bool × Nat :=
  let n := if r.2.1 = some b then r.1 + 1 else 1
  (n, some b, max r.2.2 n)
def onesOf (bits : List Bool) : Nat := (bits.filter (fun b => b)).length
/-- Bits that equal the window's first bit. -/
def likeFirst (bits : List Bool) : Nat :=
  match bits with
  | [] => 0
  | b :: _ => (bits.filter (fun x => x == b)).length
/-- Trim code of the next window (09 R305). -/
def nextTrim (n1 : Nat) (t : BitVec 6) : BitVec 6 :=
  if 529 ≤ n1 then (if t = 0 then 0 else t - 1) else if n1 ≤ 495 then satInc t else t
/-- Windows of the start-up test: 64 settling and 4 test windows (09 R310). -/
def startupWindows : Nat := 68
/-- The cause of a failed test: of its own, or of the start-up test while that runs (DEDUCED). -/
def failCause (s : Source) (longest like : Nat) : BitVec 3 :=
  if longest < 81 ∧ like < 840 then 0
  else if s.state = .starting ∨ s.waking then 5
  else if 81 ≤ longest then 1 else 2
/-- A window whose bits pass: trim, counts, and its place in the start-up test. -/
def windowPasses (n : Nat) (n1 : Nat) (bytes : Bytes) (s : Source) (d : Device) : Device :=
  let t := nextTrim n1 s.trim
  let g := if t = s.trim then d.gather else gthCount (n / 2) 8 1 d.gather
  let pinned := if s.trim = 0 ∨ s.trim = 0x3F then s.pinned + 1 else 0
  let s := { s with windows := s.windows + 1, trim := t, pinned := pinned, lastOnes := n1 }
  let s := match s.state with
    | .starting => if startupWindows ≤ s.windows then { s with state := .healthy } else s
    | _ => if s.waking then s else { s with passed := s.passed ++ [bytes] }
  let d := { d with gather := { g with sources := tabSet n s g.sources } }
  if 64 ≤ pinned then failSource n 3 { d with gather := gthCount (n / 2) 7 1 { d.gather with sources := tabSet n { s with passed := if s.state = .healthy ∧ !s.waking then s.passed.dropLast else s.passed } d.gather.sources } } else d
/-- A window of 1,024 bits is complete. -/
def takeWindow (n : Nat) (bits : List Bool) (s : Source) (d : Device) : Device :=
  let r := bits.foldl runBit (s.run, s.lastBit, 0)
  let n1 := onesOf bits
  let s := { s with run := r.1, lastBit := r.2.1, longestRun := max s.longestRun r.2.2, lastOnes := n1 }
  let g := gthCount (n / 2) 6 1 { d.gather with sources := tabSet n s d.gather.sources }
  let cause := failCause s r.2.2 (likeFirst bits)
  if cause ≠ 0 then failSource n cause { d with gather := gthCount (n / 2) 7 1 g }
  else windowPasses n n1 (windowBytes bits) s { d with gather := g }
/-- GATHER_WINDOW_END (09 R305): a source that starts or serves completes a window. -/
def execGatherWindowEnd (source : Nat) (bits : List Bool) (s : State) : Host.Outcome State Fault Refusal :=
  runDev (fun d =>
    let src := sourceState source d.gather
    doIf (sourceRuns source d && (src.state == .starting || src.state == .healthy) && decide (bits.length = 1024))
      (takeWindow source bits src) d) s

/-! ### The conditioner and the pool (09 R311 to R314, R317, R318, R320) -/

/-- The oldest window held is conditioned, its header the source's number and the count of the windows conditioned before it since the start
(DESIGN CHOICE: 09 R311 does not say what the 56-bit count counts; log entry 82). Its block goes into the pool, or is discarded at a full one
(counter 9, device-wide); either way the pool then serves. -/
def blockArrives (n : Nat) (src : Source) (window : Bytes) (d : Device) : Device :=
  let block : PoolBlock := { source := n, bits := conditionBlock n src.windowNo window }
  let g := { d.gather with sources := tabSet n { src with passed := src.passed.drop 1, windowNo := src.windowNo + 1 } d.gather.sources }
  if !g.service && decide (4 ≤ d.start.phase) then { d with gather := g }
  else if g.pool.length < 512 then servePool { d with gather := { g with pool := g.pool ++ [block] } }
  else servePool { d with gather := gthCount 15 9 1 g }
/-- CONDITIONED_BLOCK (09 R312): of a window that has passed its tests. -/
def execConditionedBlock (source : Nat) (s : State) : Host.Outcome State Fault Refusal :=
  runDev (fun d =>
    let src := sourceState source d.gather
    doIf (sourceRuns source d) (doWith src.passed.head? (blockArrives source src)) d) s

/-- RESEED_TIMER_EXPIRY (09 R317): 1,000 ms without a reseed; the next call boundary with a seed reseeds. -/
def execReseedTimerExpiry (bench : Nat) (s : State) : Host.Outcome State Fault Refusal :=
  runDev (fun d =>
    let i := instOf bench d.gather
    doIf (outOfReset d && decide (bench < 8) && i.ready && decide (i.lastReseed + 1000 * msTicks ≤ d.time.ticks))
      (fun d => { d with gather := setInst bench { i with reseedDue := true } d.gather }) d) s

/-- SOURCE_WAKE_TEST_END (22 R697): the four test windows after a wake pass, or the source fails its start-up test. -/
def execSourceWakeTestEnd (source : Nat) (passed : Bool) (s : State) : Host.Outcome State Fault Refusal :=
  runDev (fun d =>
    let src := sourceState source d.gather
    doIf (sourceRuns source d && src.state == .healthy && src.waking) (fun d =>
      let d := { d with gather := { d.gather with sources := tabSet source { src with waking := false } d.gather.sources } }
      if passed then d else failSource source 5 d) d) s

end Sys2Proof.Machine
end

