-- ==== Sys2Proof/Machine/QueueOps.lean ====
section
/-! DEFINITION. The queue engine (12 R426 to R436, 21 R677 to R682): what may be fetched, the checks at fetch, the job
a descriptor makes, cancels; and the mailbox (12 R439 to R441). -/

namespace Sys2Proof.Machine

/-! ### Doorbells (12 R427, R431, R444) -/

/-- The function takes doorbells (12 R444). -/
def takesDoorbells (x : Fn) : Bool := x.mode == .enabled || x.mode == .quiescing || x.mode == .quiesced
/-- A doorbell with its value: dropped and counted, an error of the queue, or the action given. -/
def doorbell (f q : Nat) (value : Nat) (act : Queue → Queue) (d : Device) : Device :=
  let x := queueOf f q d
  if !takesDoorbells (fnOf f d) || !x.enable then fnCount f 2 d
  else if x.error then d
  else if depthOf x ≤ value then queueFault f q 1 d
  else modQueue f q act d
/-- A write of HST_Q_SQ_TAIL: the watch count is kept for the descriptors it makes available (12 R431). -/
def ringTail (tail tick : Nat) (x : Queue) : Queue :=
  { x with sqTail := tail, doorbells := if tail = x.sqTail then x.doorbells else x.doorbells ++ [(tail, tick)] }
def ringHead (head : Nat) (x : Queue) : Queue := { x with cqHead := head }

/-! ### Fetching (12 R427, R436; 22 R700) -/

/-- Bytes of a descriptor (12 R426, 21 R677). -/
def descriptorSize (d : Device) : Nat := if izvi d then 32 else 64
/-- During Night preparation only 0x0A50 of the PF is fetched (22 R700). -/
def fetchHeld (d : Device) : Bool := d.power.mode == .preparingNight || d.power.mode == .nightReady
/-- The native opcode of a descriptor, as far as the descriptor alone tells. -/
def nativeOpcode (desc : Bytes) : Nat := num desc 0 2
/-- The queue engine may fetch a descriptor of a queue now. -/
def fetchable (f q : Nat) (d : Device) : Bool :=
  let x := queueOf f q d
  hostUp d && fnExists f d.host && (fnOf f d).mode == .enabled &&
  x.enable && !x.stopping && !x.error && decide (x.sqHead ≠ x.sqTail) && cqFree x &&
  !listFull f d && !noToken f d
/-- The queues of a function that may be fetched from; during Night preparation those of the PF only (22 R700). -/
def fetchQueues (f : Nat) (d : Device) : List Nat :=
  if fetchHeld d && decide (f ≠ 0) then [] else (List.range 16).filter (fun q => fetchable f q d)
/-- The first of a list, in a rotation of `n` places that goes on from a place. -/
def firstFrom (n place : Nat) (xs : List Nat) : Option Nat :=
  leastBy (fun a b => decide ((a + n - place % n) % n < (b + n - place % n) % n)) xs
/-- The function and queue of the next fetch (12 R436): the function in turn has at most 8 descriptors, then the next function of
the rotation that has any; within a function its queues take turns. Both rotations ascend (DESIGN CHOICE, log entry 24). -/
def nextFetch (d : Device) : Option (Nat × Nat) :=
  let fs := (d.host.fns.map (·.1)).filter (fun f => !(fetchQueues f d).isEmpty)
  match (if d.host.turnLeft ≠ 0 ∧ fs.contains d.host.turn then some d.host.turn else firstFrom 256 (d.host.turn + 1) fs) with
  | some f => (firstFrom 16 (fnOf f d).nextQueue (fetchQueues f d)).map (fun q => (f, q))
  | none => none
/-- A queue may be fetched from, and it is its turn. -/
def fetchTurn (f q : Nat) (d : Device) : Bool := fetchable f q d && decide (nextFetch d = some (f, q))
/-- A fetch uses one descriptor of the function's turn, and its next queue follows (12 R436). -/
def noteTurn (f q : Nat) (d : Device) : Device :=
  let left := if f = d.host.turn ∧ d.host.turnLeft ≠ 0 then d.host.turnLeft else 8
  modFn f (fun x => { x with nextQueue := (q + 1) % 16 }) { d with host := { d.host with turn := f, turnLeft := left - 1 } }
/-- The tick of the doorbell that made the descriptor at the head available. -/
def doorbellTick (x : Queue) (tick : Nat) : Nat := match x.doorbells with | [] => tick | p :: _ => p.2
/-- The head moves past a descriptor; a doorbell whose tail it reaches is done. -/
def passHead (x : Queue) : Queue :=
  let h := (x.sqHead + 1) % depthOf x
  { x with sqHead := h, doorbells := match x.doorbells with | p :: t => if p.1 = h then t else p :: t | [] => [] }
/-- Fetch a descriptor and go on with the tick of its doorbell; a denied fetch puts the queue into error. -/
def takeDescriptor (f q : Nat) (k : Nat → Device → Device) (d : Device) : Device :=
  let x := queueOf f q d
  let addr := x.sqBase.toNat + descriptorSize d * x.sqHead
  if acuAllows f addr false d.host then k (doorbellTick x d.time.ticks) (fnCount f 0 (modQueue f q passHead (noteTurn f q d)))
  else queueFault f q 2 (denied f 0 false addr (noteTurn f q d))
/-- Complete a command at fetch, with no ticket and no floor; an outstanding command of the same cid stays (12 R433). -/
def completeAtFetch (f q : Nat) (cid : BitVec 16) (code : Code) (d : Device) : Device :=
  let held := (queueOf f q d).outstanding
  modQueue f q (fun x => { x with outstanding := held }) (complete f q cid (fnOf f d).incarnation { code } 0 d)
def refuseAtFetch (f q : Nat) (cid : BitVec 16) (code : Code) (d : Device) : Device :=
  completeAtFetch f q cid code (fnCount f 3 d)

/-- What the queue engine knows of a command: the native opcode and parameters, deadline, buffer list and input. -/
structure Request where
  cid : BitVec 16
  opcode : Nat
  us : Nat
  params : Bytes
  inAddr : Nat := 0
  inLen : Nat := 0
  outCap : Nat := 0
  outAddr : Nat := 0
  input : Bytes := []
deriving DecidableEq, Repr

/-- Fields whose places the personality decides (12 R429, 21 R678). -/
def cidOf (desc : Bytes) : BitVec 16 := BitVec.ofNat 16 (num desc 2 2)
def listAddr (iz : Bool) (desc : Bytes) : Nat := if iz then num desc 16 8 else num desc 8 8
def relativeUs (iz : Bool) (desc : Bytes) : Nat := if iz then num desc 12 4 else num desc 4 4

/-- The checks of 12 R433 in their order, but for a failed read; 0 when all pass. -/
def fetchCheck (f q : Nat) (desc list : Bytes) (d : Device) : Code :=
  let la := listAddr (izvi d) desc
  if (queueOf f q d).outstanding.any (fun o => o.cid == cidOf desc) then 0x0116
  else if la = 0 then 0
  else if la % 32 ≠ 0 then 0x0115
  else if !acuAllows f la false d.host then 0x0117
  else if !zeros list 24 8 then 0x0115
  else if 16777216 < num list 8 4 then 0x0109
  else if !areaAllowed f (num list 0 8) (num list 8 4) false d.host || !areaAllowed f (num list 16 8) (num list 12 4) true d.host
    then 0x0117
  else 0

/-- The buffer list lies on a page that is denied for reading: item 3 of 12 R433. -/
def listDenied (f q : Nat) (desc : Bytes) (d : Device) : Bool :=
  let la := listAddr (izvi d) desc
  !(queueOf f q d).outstanding.any (fun o => o.cid == cidOf desc) && decide (la ≠ 0) && decide (la % 32 = 0) &&
  !acuAllows f la false d.host
/-- The denied read of a buffer list is recorded (12 R453). -/
def noteList (f q : Nat) (desc : Bytes) (d : Device) : Device :=
  doIf (listDenied f q desc d) (denied f 1 false (listAddr (izvi d) desc)) d

/-- The Izvi command map (21 R680): cmd and variant to the native opcode; 0x7F apart. -/
def izviMap : List (Nat × List Nat) :=
  [(0x01, [0x0101]), (0x02, [0x0102]), (0x03, [0x0103]), (0x04, [0x0105]), (0x05, [0x0104]), (0x06, [0x0109]),
   (0x10, [0x0201, 0x0202, 0x0207]), (0x11, [0x0203, 0x0205]), (0x12, [0x0204, 0x0206]), (0x18, [0x0301, 0x0302]),
   (0x20, [0x0401, 0x0402]), (0x28, [0x0501, 0x0502]), (0x29, [0x0503, 0x0504]),
   (0x30, [0x0601, 0x0602, 0x0603, 0x0604, 0x0605]), (0x31, [0x0606, 0x0607, 0x0608, 0x0609]), (0x38, [0x0801]),
   (0x39, [0x0901]), (0x7E, [0x0A01])]
def izviOpcode (cmd variant : Nat) : Option Nat :=
  match izviMap.find? (fun p => p.1 = cmd) with
  | some p => p.2[variant]?
  | none => none

/-- The request that a descriptor makes, or the code that the Izvi map refuses it with (21 R678 to R682). -/
def requestOf (iz : Bool) (desc list input : Bytes) : Request × Code :=
  let la := listAddr iz desc
  let l := if la = 0 then [] else list
  let data := fit (num l 8 4) input
  let r : Request :=
    { cid := cidOf desc, opcode := nativeOpcode desc, us := relativeUs iz desc, params := field desc 16 48
      inAddr := num l 0 8, inLen := num l 8 4, outCap := num l 12 4, outAddr := num l 16 8, input := data }
  if !iz then (r, 0)
  else
    let cmd := (byteAt desc 0).toNat
    let variant := (byteAt desc 1).toNat
    let short := decide (la ≠ 0) && decide (data.length < 40)
    if cmd = 0x7F ∧ variant = 0 then
      let op := num data 0 2
      let r := { r with opcode := op, params := field desc 4 8 ++ field data 2 40, input := data.drop 42 }
      if short then (r, 0x0109) else if op / 256 = 0x0A ∨ op / 256 = 0x0B then (r, 0) else (r, 0x0110)
    else match izviOpcode cmd variant with
      | none => (r, 0x0110)
      | some op =>
        let r := { r with opcode := op, params := field desc 4 8 ++ field data 0 40, input := data.drop 40 }
        if short then (r, 0x0109) else (r, 0)

/-- Whether a descriptor is a cancel (12 R434, 21 R681). -/
def isCancel (iz : Bool) (desc : Bytes) : Bool :=
  if iz then decide ((byteAt desc 0).toNat = 0x7E) && decide ((byteAt desc 1).toNat = 0) else decide (nativeOpcode desc = 0x0A01)
/-- Night preparation lets only 0x0A50 of the PF through; in the Izvi personality it stands in the parameter area. -/
def fetchedNow (f : Nat) (r : Request) (d : Device) : Bool :=
  !fetchHeld d || (decide (f = 0) && decide (r.opcode = 0x0A50))

/-- The job of a request (12 R428, R431). -/
def hostJob (f q tick : Nat) (r : Request) (d : Device) : Job :=
  { id := 0, tenant := f, stream := .host f q, ticket := 0, arrival := 0, deadline := deadlineFrom f tick r.us d
    recipe := BitVec.ofNat 16 r.opcode, incarnation := (fnOf f d).incarnation
    origin := .host f q r.cid (BitVec.ofNat 64 r.inAddr) r.inLen (BitVec.ofNat 64 r.outAddr)
    params := r.params, input := r.input, outCap := r.outCap }
/-- Enter a request: its command is outstanding until its completion. -/
def enterRequest (f q tick : Nat) (r : Request) (d : Device) : Device :=
  let j := hostJob f q tick r d
  enterJob j true 1 (modQueue f q (fun x => { x with outstanding := x.outstanding ++ [{ cid := r.cid, job := d.gaffer.nextJob }] }) d)
/-- The work on a fetched descriptor that is no cancel. -/
def admitDescriptor (f q : Nat) (desc list input : Bytes) (tick : Nat) (d : Device) : Device :=
  let code := fetchCheck f q desc list d
  let r := requestOf (izvi d) desc list input
  if code ≠ 0 then refuseAtFetch f q (cidOf desc) code (noteList f q desc d)
  else if r.2 ≠ 0 then refuseAtFetch f q (cidOf desc) r.2 d
  else enterRequest f q tick r.1 d

/-! ### Cancels (12 R434, R435) -/

/-- The parameters of a cancel: target cid, target queue, and whether its reserved bytes and its list are 0. -/
def cancelFields (iz : Bool) (desc : Bytes) : BitVec 16 × Nat × Bool :=
  if iz then (BitVec.ofNat 16 (num desc 4 2), num desc 6 1, zeros desc 7 5 && decide (num desc 16 8 = 0))
  else (BitVec.ofNat 16 (num desc 16 2), num desc 18 1, zeros desc 19 45 && decide (num desc 8 8 = 0))
/-- Find and cancel the target; the code of the cancel. -/
def cancelTarget (f : Nat) (cid : BitVec 16) (q : Nat) (d : Device) : Device × Code :=
  let x := queueOf f q d
  match x.outstanding.find? (fun o => o.cid == cid) with
  | some o => cancelJob o.job d
  | none => (d, if x.recent.contains cid then 0x0603 else 0x0107)
/-- The work on a fetched cancel. -/
def admitCancel (f q : Nat) (desc : Bytes) (d : Device) : Device :=
  let c := cancelFields (izvi d) desc
  if (queueOf f q d).outstanding.any (fun o => o.cid == cidOf desc) then refuseAtFetch f q (cidOf desc) 0x0116 d
  else if !c.2.2 then refuseAtFetch f q (cidOf desc) 0x0110 d
  else
    let p := cancelTarget f c.1 c.2.1 d
    completeAtFetch f q (cidOf desc) p.2 p.1

/-! ### Mailbox (12 R439 to R441) -/

/-- The payload of a message by its length field, of at most 248 bytes. -/
def payloadOf (m : Bytes) : Bytes := (m.drop 8).take (min 248 (num m 4 2))
/-- The reply to type 0x01. -/
def functionInfo (f : Nat) (m : Bytes) (d : Device) : Device :=
  let t := tenantOf f d
  mbxSend f (message 0x81 (field m 2 2) 0
    (leBytes 1 f ++ leBytes 4 d.battery.cycles.toNat ++ leBytes 2 (fnOf f d).incarnation.toNat ++ leBytes 4 t.quota ++
     leBytes 2 t.readyCap ++ leBytes 4 t.deadlineUs)) d
/-- A relay of a VF to the manager. -/
def relayToManager (f : Nat) (m : Bytes) (d : Device) : Device := mbxSend 0 (message 0x82 (field m 2 2) f (payloadOf m)) d
/-- A relay of the manager to a VF, discarded and counted when the VF does not exist or is not Enabled. -/
def relayToVf (m : Bytes) (d : Device) : Device :=
  let v := num m 6 2
  if v ≠ 0 ∧ fnExists v d.host ∧ (fnOf v d).mode = .enabled then mbxSend v (message 0x83 (field m 2 2) v (payloadOf m)) d
  else fnCount 0 7 d
/-- Yunante takes a posted message: HST_MBX_IN keeps it, in_post clears, the message is counted. -/
def takePost (f : Nat) (m : Bytes) (d : Device) : Device :=
  fnCount f 5 (modFn f (fun x => { x with mbxIn := fit 256 m, inPost := false }) d)
/-- What a posted message does, by its type. -/
def actOnMessage (f : Nat) (m : Bytes) (d : Device) : Device :=
  let type := num m 0 1
  if type = 0x01 then functionInfo f m d
  else if type = 0x02 ∧ f ≠ 0 then relayToManager f m d
  else if type = 0x03 ∧ f = 0 then relayToVf m d
  else fnCount f 7 d
/-- The driver clears out_valid: the next message held takes its place. -/
def clearOutValid (f : Nat) (d : Device) : Device :=
  let d := modFn f (fun x => { x with outValid := false }) d
  match (fnOf f d).mbxHeld with
  | m :: t => mbxSend f m (modFn f (fun x => { x with mbxHeld := t }) d)
  | [] => d

/-! ### Function resets and VF Enable (12 R420, R421; 14 R515) -/

/-- A function level reset: of the PF, it drains the PF and every VF. -/
def resetFunction (f : Nat) (d : Device) : Device := if f = 0 then drainVfs (startDrain true 0 d) else startDrain true f d
/-- VF Enable: VFs 1 to n exist, Disabled unless they are still draining from before. -/
def enableVfs (n : Nat) (d : Device) : Device :=
  let d := { d with host := { d.host with numVfs := n } }
  doEach ((List.range n).map (· + 1)) (fun f d => if (tabGet f d.host.fns).isSome then d else setFn f (fun x => x) d) d

end Sys2Proof.Machine
end

