-- ==== Sys2Proof/Machine/HostIf.lean ====
section
/-! DEFINITION. The commands of the host interface (12, 14 R514 to R518, 21 R677 to R682). -/

namespace Sys2Proof.Machine

/-- The host reaches a function's registers. -/
def fnUp (f : Nat) (d : Device) : Bool := hostUp d && fnExists f d.host

/-- SQ_TAIL_DOORBELL (12 R427, R431). -/
def execSqTailDoorbell (function queue : Nat) (tail : BitVec 12) (s : State) : Host.Outcome State Fault Refusal :=
  runDev (fun d => doIf (fnUp function d) (doorbell function queue tail.toNat (ringTail tail.toNat d.time.ticks)) d) s
/-- CQ_HEAD_DOORBELL (12 R427). -/
def execCqHeadDoorbell (function queue : Nat) (head : BitVec 12) (s : State) : Host.Outcome State Fault Refusal :=
  runDev (fun d => doIf (fnUp function d) (doorbell function queue head.toNat (ringHead head.toNat)) d) s

/-- DESCRIPTOR_FETCH (12 R433): `list` is the buffer list in host memory, `input` what lies at its in_addr. -/
def execDescriptorFetch (function queue : Nat) (descriptor list input : Bytes) (s : State) :
    Host.Outcome State Fault Refusal :=
  runDev (fun d => doIf (fetchTurn function queue d && decide (descriptor.length = descriptorSize d) &&
      !isCancel (izvi d) descriptor && fetchedNow function (requestOf (izvi d) descriptor list input).1 d)
    (takeDescriptor function queue (admitDescriptor function queue descriptor list input)) d) s

/-- A job of a queue's command whose input data is being read: dispatched, nothing staged (12 R454). -/
def inDecode (f q : Nat) (cid : BitVec 16) (j : Job) : Bool :=
  match j.origin, j.place with
  | .host g p c _ _ _, .core _ _ => decide (g = f) && decide (p = q) && decide (c = cid) && j.staged.isNone
  | _, _ => false
def countAer (d : Device) : Device := { d with host := { d.host with aer := d.host.aer + 1 } }
/-- A failed read of a buffer list: the command completes at fetch with 0x0119. -/
def failList (f q : Nat) (cid : BitVec 16) (d : Device) : Device :=
  takeDescriptor f q (fun _ d => refuseAtFetch f q cid 0x0119 (countAer d)) d
/-- A failed read of input data: the job is squashed with 0x0119, without a floor. -/
def failInput (f q : Nat) (cid : BitVec 16) (d : Device) : Device :=
  match d.gaffer.jobs.find? (inDecode f q cid) with
  | some j => dispatchAll (dropJob j.id 0x0119 (countAer d))
  | none => d
/-- HOST_READ_FAILURE (12 R454). -/
def execHostReadFailure (purpose : ReadPurpose) (function queue : Nat) (cid : BitVec 16) (s : State) :
    Host.Outcome State Fault Refusal :=
  runDev (fun d => match purpose with
    | .descriptor => doIf (fetchTurn function queue d) (fun d => queueFault function queue 2 (countAer (noteTurn function queue d))) d
    | .bufferList => doIf (fetchTurn function queue d && !fetchHeld d && !(queueOf function queue d).outstanding.any (fun o => o.cid == cid))
        (failList function queue cid) d
    | .input => doIf (fnUp function d) (failInput function queue cid) d) s

/-- The timer of a queue has run out (12 R438). -/
def coalesceDue (f q : Nat) (d : Device) : Bool :=
  let x := queueOf f q d
  decide (x.coalesceUs ≠ 0) && match x.firstUnsignalled with
    | some t => decide (t + usTicks * x.coalesceUs ≤ d.time.ticks)
    | none => false
/-- COALESCE_TIMER_EXPIRY (12 R438). -/
def execCoalesceTimerExpiry (function queue : Nat) (s : State) : Host.Outcome State Fault Refusal :=
  runDev (fun d => doIf (fnUp function d && coalesceDue function queue d) (fireDue function queue) d) s
/-- INT_ENABLE_SET (12 R438). -/
def execIntEnableSet (function queue : Nat) (s : State) : Host.Outcome State Fault Refusal :=
  runDev (fun d => doIf (fnUp function d) (setIntEnable function queue) d) s
/-- QUEUE_ENABLE_WRITE: a write of HST_Q_CFG (12 R457). -/
def execQueueEnableWrite (function queue : Nat) (value : Word) (s : State) : Host.Outcome State Fault Refusal :=
  runDev (fun d => doIf (fnUp function d) (writeQueueCfg function queue value) d) s

/-- MBX_FUNCTION_INFO (12 R440 type 0x01). -/
def execMbxFunctionInfo (function : Nat) (message : Bytes) (s : State) : Host.Outcome State Fault Refusal :=
  runDev (fun d => doIf (fnUp function d && decide (num message 0 1 = 0x01))
    (fun d => functionInfo function message (takePost function message d)) d) s
/-- MBX_RELAY_TO_MANAGER (12 R440 type 0x02, of a VF). -/
def execMbxRelayToManager (function : Nat) (message : Bytes) (s : State) : Host.Outcome State Fault Refusal :=
  runDev (fun d => doIf (fnUp function d && decide (num message 0 1 = 0x02) && decide (function ≠ 0))
    (fun d => relayToManager function message (takePost function message d)) d) s
/-- MBX_RELAY_TO_VF (12 R440 type 0x03, of the PF; R441). -/
def execMbxRelayToVf (message : Bytes) (s : State) : Host.Outcome State Fault Refusal :=
  runDev (fun d => doIf (fnUp 0 d && decide (num message 0 1 = 0x03))
    (fun d => relayToVf message (takePost 0 message d)) d) s
/-- MBX_OUT_VALID_CLEAR (12 R439). -/
def execMbxOutValidClear (function : Nat) (s : State) : Host.Outcome State Fault Refusal :=
  runDev (fun d => doIf (fnUp function d && (fnOf function d).outValid) (clearOutValid function) d) s
/-- A type that Yunante does not act on, from this function. -/
def otherType (f type : Nat) : Bool :=
  !(decide (type = 0x01) || (decide (type = 0x02) && decide (f ≠ 0)) || (decide (type = 0x03) && decide (f = 0)))
/-- MBX_OTHER_TYPE_IGNORED: ignored and counted (12 R440). -/
def execMbxOtherTypeIgnored (function : Nat) (message : Bytes) (s : State) : Host.Outcome State Fault Refusal :=
  runDev (fun d => doIf (fnUp function d && otherType function (num message 0 1))
    (fun d => fnCount function 7 (takePost function message d)) d) s

/-- FUNCTION_ENABLE (12 R444, R447). -/
def execFunctionEnable (function : Nat) (s : State) : Host.Outcome State Fault Refusal :=
  runDev (fun d => doIf (fnUp function d) (setEnable function) d) s
/-- FUNCTION_DISABLE (12 R445). -/
def execFunctionDisable (function : Nat) (s : State) : Host.Outcome State Fault Refusal :=
  runDev (fun d => doIf (fnUp function d) (clearEnable function) d) s
/-- QUIESCE_SET (12 R444). -/
def execQuiesceSet (function : Nat) (s : State) : Host.Outcome State Fault Refusal :=
  runDev (fun d => doIf (fnUp function d) (setQuiesce function) d) s
/-- QUIESCE_CLEAR (12 R444). -/
def execQuiesceClear (function : Nat) (s : State) : Host.Outcome State Fault Refusal :=
  runDev (fun d => doIf (fnUp function d) (clearQuiesce function) d) s
/-- FUNCTION_LEVEL_RESET (12 R421). -/
def execFunctionLevelReset (function : Nat) (s : State) : Host.Outcome State Fault Refusal :=
  runDev (fun d => doIf (fnUp function d) (resetFunction function) d) s
/-- VF_ENABLE_SET: NumVFs VFs exist from now (12 R420). -/
def execVfEnableSet (numVfs : Nat) (s : State) : Host.Outcome State Fault Refusal :=
  runDev (fun d => doIf (fnUp 0 d && decide (d.host.numVfs = 0) && decide (1 ≤ numVfs) && decide (numVfs ≤ totalVfs d))
    (enableVfs numVfs) d) s
/-- VF_ENABLE_CLEAR: every VF is drained and no longer exists (12 R421). -/
def execVfEnableClear (s : State) : Host.Outcome State Fault Refusal :=
  runDev (fun d => doIf (fnUp 0 d) (fun d =>
    let d := drainVfs d
    { d with host := { d.host with numVfs := 0 } }) d) s
/-- DRAIN_END (12 R446): when the function has no job left. -/
def execDrainEnd (function : Nat) (s : State) : Host.Outcome State Fault Refusal :=
  runDev (fun d => doIf (outOfReset d && started d && decide ((fnOf function d).mode = .draining) && drained function d)
    (endDrain function) d) s

/-- A word of an access control region entry (12 R458). -/
def setRegionWord (word : Nat) (v : Word) (r : AcuRegion) : AcuRegion :=
  match word with
  | 0 => { r with base := (r.base.extractLsb' 32 32) ++ (v.extractLsb' 12 20) ++ 0#12
                  write := v.getLsbD 2, read := v.getLsbD 1, valid := v.getLsbD 0 }
  | 1 => { r with base := v ++ (r.base.extractLsb' 0 32) }
  | 2 => { r with pages := v }
  | _ => r
def writeRegion (f r word : Nat) (v : Word) (d : Device) : Device :=
  setFn f (fun x => { x with regions := tabSet r (setRegionWord word v (tabGetD r {} x.regions)) x.regions }) d
/-- ACU_REGION_WRITE: by the manager, for any function (12 R449, R458). -/
def execAcuRegionWrite (function region word : Nat) (value : Word) (s : State) : Host.Outcome State Fault Refusal :=
  runDev (fun d => doIf (fnUp 0 d) (writeRegion function region word value) d) s
/-- PF_DEFAULT_CLEAR (12 R452). -/
def execPfDefaultClear (s : State) : Host.Outcome State Fault Refusal :=
  runDev (fun d => doIf (fnUp 0 d) (fun d => { d with host := { d.host with pfDefault := false } }) d) s
/-- PRING_CONS_WRITE: sweeps that wait on the ring go on (12 R443). -/
def execPringConsWrite (function : Nat) (cons : BitVec 12) (s : State) : Host.Outcome State Fault Refusal :=
  runDev (fun d => doIf (fnUp function d) (fun d =>
    resumeSweeps (modFn function (fun x => { x with pringCons := cons.toNat }) d)) d) s

/-- CANCEL (12 R434, R435; 21 R681). -/
def execCancel (function queue : Nat) (descriptor : Bytes) (s : State) : Host.Outcome State Fault Refusal :=
  runDev (fun d => doIf (fetchTurn function queue d && decide (descriptor.length = descriptorSize d) &&
      isCancel (izvi d) descriptor && !fetchHeld d)
    (takeDescriptor function queue (fun _ => admitCancel function queue descriptor)) d) s

/-! ### PERST_N (12 R422, 14 R502, R515) -/

/-- Every function that exists is drained. -/
def drainEvery (d : Device) : Device :=
  doEach ((d.host.fns.filter (fun p => fnExists p.1 d.host)).map (·.1)) (startDrain true) d
/-- PERST_N_ASSERTED: the link is down; after start every function is drained (12 R422). -/
def execPerstNAsserted (s : State) : Host.Outcome State Fault Refusal :=
  runDev (fun d =>
    let d := { d with pins := { d.pins with perstN := false, pfAnswer := .silent, perstRise := none } }
    doIf (outOfReset d && started d) drainEvery d) s
/-- PERST_N_DEASSERTED: the PF answers from 20 ms on (14 R514, R515). -/
def execPerstNDeasserted (s : State) : Host.Outcome State Fault Refusal :=
  runDev (fun d => { d with pins :=
    if d.pins.perstN then d.pins else { d.pins with perstN := true, perstRise := if outOfReset d then some d.time.ticks else none } }) s
/-- HOST_REGION_REINIT_END: the PF completes configuration requests normally (14 R515). -/
def execHostRegionReinitEnd (s : State) : Host.Outcome State Fault Refusal :=
  runDev (fun d => doIf (outOfReset d && started d && d.pins.perstN && decide (d.pins.pfAnswer = .retry))
    (fun d => { d with pins := { d.pins with pfAnswer := .normal } }) d) s

end Sys2Proof.Machine
end

