-- ==== Sys2Proof/Machine/Network.lean ====
section
/-! DEFINITION. The commands of the network paths (13). -/

namespace Sys2Proof.Machine

/-! ### Address resolution (13 R459, R461) -/

/-- Answer a request for an own address; anything else is a link-layer drop. -/
def resolve (isB : Bool) (ok : Bool) (reply : Output) (d : Device) : Device :=
  if !pathHears isB d then d
  else if !(pathOf isB d).offline && ok then { d with out := d.out ++ [reply] } else linkDrop isB d
/-- ARP_REQUEST. -/
def execArpRequest (isB : Bool) (link : LinkInfo) (s : State) : Host.Outcome State Fault Refusal :=
  runDev (fun d => resolve isB (vlanOk (pathOf isB d) link && ownAddress (pathOf isB d) false link.destIp)
    (.arpReply isB link.source (sentLink (pathOf isB d)) (link.destIp.setWidth 32)) d) s
/-- NEIGHBOUR_SOLICITATION. -/
def execNeighbourSolicitation (isB : Bool) (link : LinkInfo) (s : State) : Host.Outcome State Fault Refusal :=
  runDev (fun d => resolve isB (vlanOk (pathOf isB d) link && !link.fragmentOrOptions && ownAddress (pathOf isB d) true link.destIp)
    (.neighbourReply isB link.source (sentLink (pathOf isB d)) link.destIp) d) s

/-! ### Handshake (13 R469 to R473) -/

/-- Night is being prepared (22 R700). -/
def preparing (d : Device) : Bool := d.power.mode == .preparingNight || d.power.mode == .nightReady
/-- The nonce of a HELLO was seen within 2 s (13 R472). -/
def seenNonce (n : Bytes) (d : Device) : Option HelloSeen :=
  d.net.nonces.find? (fun p => p.nonce == n && decide (d.time.ticks < p.tick + 2 * secTicks))
def helloSeen (n : Bytes) (d : Device) : Bool := (seenNonce n d).isSome
/-- A twin is dropped; its path is noted, and where the HELLO has been refused it is answered with the same ABORT, once on each path
(13 R472, R473). -/
def noteTwin (isB : Bool) (f : Frame) (seen : HelloSeen) (d : Device) : Device :=
  if (if isB then seen.onB else seen.onA) then d
  else
    let n := seen.nonce
    let d := { d with net := { d.net with
      nonces := d.net.nonces.map (fun p => if p.nonce = n then { p with onA := p.onA || !isB, onB := p.onB || isB } else p)
      heldHellos := d.net.heldHellos.map (fun h => if helloNonce h.frame.payload = n then { h with twin := some f.link.source } else h)
      sessions := tabMap (fun _ s => if s.state = .handshake ∧ s.nonce = n then via isB f.link.source s else s) d.net.sessions } }
    match seen.refused with
    | some reason => sendAbort isB (some f.link.source) 0 n reason d
    | none => d
/-- A whole HELLO. -/
def takeHello (isB : Bool) (f : Frame) (d : Device) : Device :=
  let n := helloNonce f.payload
  if f.payload.length < 1293 then d
  else if preparing d then pwrCount 5 d
  else match seenNonce n d with
    | some seen => noteTwin isB f seen d
    | none =>
      if d.net.handover.isSome then
        if d.net.heldHellos.length < 256 then
          noteNonce isB false n { d with net := { d.net with heldHellos := d.net.heldHellos ++ [{ isB, frame := f }] } }
        else netCount isB 12 d
      else openHello isB f none d
/-- A message from its segments, once all are there (13 R471). -/
def wholeMessage (last : Nat) (segs : Tab Bytes) : Option Bytes :=
  if (List.range (last + 1)).all (fun k => (tabGet k segs).isSome) then
    some ((List.range (last + 1)).flatMap (fun k => tabGetD k [] segs))
  else none
/-- A segment of a HELLO. The client nonce stands in the first segment only: the others are put with it by path and source address, and a
first segment begins a new message (DESIGN CHOICE, log entry 96). A message not whole within 2 s is discarded (13 R471). -/
def takeHelloPart (isB : Bool) (f : Frame) (d : Device) : Device :=
  let k := f.header.seg.toNat / 16
  let last := f.header.seg.toNat % 16
  let mine : HelloPart → Bool := fun p => p.isB == isB && decide (p.source = f.link.source)
  let live := d.net.helloParts.filter (fun p => decide (d.time.ticks < p.tick + 2 * secTicks))
  let old : HelloPart := ((live.find? mine).getD { isB, source := f.link.source, tick := d.time.ticks, last })
  let part : HelloPart := if k = 0 ∧ (tabGet 0 old.segments).any (fun b => helloNonce b ≠ helloNonce f.payload)
    then { isB, source := f.link.source, tick := d.time.ticks, last } else { old with last }
  let part := { part with segments := tabSet k f.payload part.segments }
  let others := live.filter (fun p => !mine p)
  match wholeMessage last part.segments with
  | some m => takeHello isB { f with payload := m } { d with net := { d.net with helloParts := others } }
  | none => { d with net := { d.net with helloParts := others ++ [part] } }
/-- HELLO (13 R471, R472). -/
def execHello (isB : Bool) (frame : Frame) (s : State) : Host.Outcome State Fault Refusal :=
  runDev (receive 0x01 isB frame (if frame.header.seg = 0 then takeHello isB frame else takeHelloPart isB frame)) s

/-- TH2 of a handshake, and the check of both client signatures over it (13 R469, R472). -/
def handshakeHash2 (s : Session) : Bytes := sha384 (s.th1 ++ s.acceptTail)
def finishVerifies (s : Session) (m : Bytes) (d : Device) : Bool :=
  match clientOf s.tenant s.clientFp d with
  | none => false
  | some c => decide (m.length = 3373) &&
      ecdsaVerify 0x01 c.ecKey (sha256 (handshakeHash2 s)) (m.take 64) &&
      mlDsaVerify {} 65 c.mlKey 0x01 (ascii "HTL1".toList) (handshakeHash2 s) (m.drop 64)
/-- The entry of an Established session: epoch 0, egress_next 1, a first reservation of 1,024 numbers, and nothing of the transcript. -/
def establishedEntry (i : Nat) (s : Session) (d : Device) : Session :=
  let ts := hkdfExpand s.prk (ascii "htl ts".toList ++ handshakeHash2 s) 48
  withKeys d i (epochKeys ts 0) none
    { state := .established, gen := s.gen, tenant := s.tenant, egressNext := 1, egressCeiling := 1025, epochEgress := 1
      remoteA := s.remoteA, remoteB := s.remoteB, lastFrame := d.time.ticks, epochStart := d.time.ticks }
/-- The session is Established, its transcript and handshake key erased, and READY goes out under number 1. -/
def establish (i : Nat) (s : Session) (d : Device) : Device :=
  sendSession i 0x04 [] (netCount (authorityB d.net) 10 (pathWrite i (fun _ => establishedEntry i s d) d))
/-- A FINISH segment: it authenticates under the handshake key, and its number is its segment index (13 R471). -/
def takeFinish (isB : Bool) (f : Frame) (d : Device) : Device :=
  let i := sessionIndex f
  match namedSession f d with
  | none => unknownSession isB f d
  | some s =>
    let k := f.header.seg.toNat / 16
    if s.state ≠ .handshake ∨ !frameOk (handshakeKey s.prk s.th1) f ∨ f.header.seq.toNat ≠ k then netCount isB 2 d
    else if s.acceptAt + 2 * secTicks ≤ d.time.ticks then abortSession i 0x06 d
    else
      let s := learn isB f.link.source { s with
        segments := tabSet k (framePlain (handshakeKey s.prk s.th1) f) s.segments, lastFrame := d.time.ticks }
      let d := setSession i s d
      match wholeMessage (f.header.seg.toNat % 16) s.segments with
      | none => d
      | some m => if finishVerifies s m d then establish i s d else abortSession i 0x04 d
/-- FINISH (13 R472). -/
def execFinish (isB : Bool) (frame : Frame) (s : State) : Host.Outcome State Fault Refusal :=
  runDev (receive 0x03 isB frame (takeFinish isB frame)) s
/-- HANDSHAKE_MESSAGE_TIMEOUT: the handshake is not complete within 2 s of ACCEPT (13 R471 to R473). -/
def execHandshakeMessageTimeout (session : Nat) (s : State) : Host.Outcome State Fault Refusal :=
  runDev (fun d => doIf (decide ((sessionOf session d).state = .handshake) &&
      decide ((sessionOf session d).acceptAt + 2 * secTicks ≤ d.time.ticks)) (abortSession session 0x06) d) s

/-! ### Requests and cancels (13 R466, R467, R480) -/

/-- The job of a REQUEST. An input length beyond the limit, or one that disagrees with the frame, is refused at Decode. -/
def requestJob (i : Nat) (h : HtlHeader) (m : Bytes) (d : Device) : Job :=
  let s := sessionOf i d
  let inLen := beNat (field m 56 4)
  let bad := decide (d.net.maxFrame - 100 < inLen) || decide (64 + inLen ≠ m.length) || decide (80 + inLen ≠ h.length.toNat)
  { id := 0, tenant := s.tenant, stream := .htl (sessionId i s), ticket := 0, arrival := 0
    deadline := deadlineFrom s.tenant d.time.ticks (beNat (field m 4 4)) d
    recipe := bytesBv 16 (field m 0 2), origin := .htl (sessionId i s) h.seq, params := field m 8 48
    input := m.drop 64, outCap := beNat (field m 60 4), inputFault := if bad then 0x0109 else 0 }
/-- Note which job a number was admitted as (13 R480). -/
def noteAdmitted (i : Nat) (seq : Nat) (id : Nat) (d : Device) : Device :=
  let s := sessionOf i d
  setSession i { s with admitted := s.admitted ++ [(seq, id)] } d
/-- A REQUEST admitted: refused at admission, or a job enters Gaffer. -/
def takeRequest (h : HtlHeader) (i : Nat) (m : Bytes) (d : Device) : Device :=
  let j := requestJob i h m d
  let d := noteAdmitted i h.seq.toNat d.gaffer.nextJob d
  if preparing d then refuseJob j 0x0607 (pwrCount 5 d)
  else if noToken j.tenant d then refuseJob j 0x0606 d
  else if listFull j.tenant d then refuseJob j 0x0605 d
  else enterJob j true 2 d
/-- HTL_REQUEST (13 R466). -/
def execHtlRequest (isB : Bool) (frame : Frame) (s : State) : Host.Outcome State Fault Refusal :=
  runDev (traffic 0x10 isB frame (takeRequest frame.header)) s

/-- A CANCEL: its target by the number it names, its own answer on the next grid point (13 R480). -/
def takeCancel (seq : BitVec 64) (i : Nat) (m : Bytes) (d : Device) : Device :=
  let s := sessionOf i d
  let target := beNat (field m 0 8)
  let (d, code) := match s.admitted.find? (fun p => p.1 = target) with
    | some p => cancelJob p.2 d
    | none => (d, if repeated s target ∨ target + 1024 < s.high then (0x0603 : Code) else 0x0107)
  queueReply i 0x11 (responsePlain seq.toNat { code := code }) d
/-- HTL_CANCEL (13 R480). -/
def execHtlCancel (isB : Bool) (frame : Frame) (s : State) : Host.Outcome State Fault Refusal :=
  runDev (traffic 0x12 isB frame (takeCancel frame.header.seq)) s

/-! ### KEEPALIVE, REKEY, CLOSE (13 R481 to R486) -/

/-- KEEPALIVE: answered with a KEEPALIVE on the next grid point (13 R481). -/
def execKeepalive (isB : Bool) (frame : Frame) (s : State) : Host.Outcome State Fault Refusal :=
  runDev (traffic 0x13 isB frame (fun i _ => queueReply i 0x13 [])) s

/-- A REKEY: the new traffic secret is held until REKEY_ACK is released (13 R484, R485). A point or encapsulation key
that fails its checks is dropped, and so is a REKEY without device service (DESIGN CHOICE: the specification states no answer) or one
whose number is the last of its epoch (13 R482). -/
def takeRekey (isB : Bool) (i : Nat) (m : Bytes) (d : Device) : Device :=
  let s := sessionOf i d
  let point := field m 0 65
  let ek := field m 65 1184
  if s.state = .rekeying ∨ s.rekeyOpen.isSome ∨ s.prevKeys.isSome then netCount isB 4 d
  else if s.state = .closing then d
  else if !d.gather.service ∨ m.length ≠ 1249 ∨ byteAt point 0 ≠ 0x04 ∨ !pointOk 0x01 (point.drop 1) ∨ !mlKemDecodes 3 ek then d
  else withDraw (pathInst (authorityB d.net)) 64 (fun r d =>
    let scalar := beNat (field r 0 32) % (curveOrder 0x01 - 1) + 1
    let seed := field r 32 32
    let ss := curveSharedX 0x01 scalar (point.drop 1) [] ++ mlKemKeyOf 3 ek seed
    queueReply i 0x15 (uncompressed (curvePublic 0x01 scalar []) ++ mlKemCiphertext {} 3 ek seed)
      (pathWrite i (fun s => { s with state := .rekeying, rekeyOpen := some (hkdfExtract 0x63 (trafficSecret d i s) ss) }) d)) d
/-- REKEY (13 R484). -/
def execRekey (isB : Bool) (frame : Frame) (s : State) : Host.Outcome State Fault Refusal :=
  runDev (traffic 0x14 isB frame (takeRekey isB)) s
/-- REKEY_WINDOW_END: 2 s after REKEY_ACK the old epoch is no longer accepted (13 R485). -/
def execRekeyWindowEnd (session : Nat) (s : State) : Host.Outcome State Fault Refusal :=
  runDev (fun d =>
    let x := sessionOf session d
    match x.rekeyAt with
    | some t => if t + 2 * secTicks ≤ d.time.ticks then pathWrite session (settleEpoch x.epoch) d else d
    | none => d) s
/-- REKEY_DUE_TIMER: the epoch is rekey_s seconds old (13 R483). -/
def execRekeyDueTimer (session : Nat) (s : State) : Host.Outcome State Fault Refusal :=
  runDev (fun d =>
    let x := sessionOf session d
    doIf ((x.state == .established || x.state == .rekeying) && decide (x.epochStart + d.net.rekeyS * secTicks ≤ d.time.ticks))
      (setSession session { x with rekeyDue := true }) d) s

/-- CLOSE from the host: no further frame is admitted; the CLOSE of Yunante follows the outstanding responses (13 R482). -/
def execClose (isB : Bool) (frame : Frame) (s : State) : Host.Outcome State Fault Refusal :=
  runDev (traffic 0x16 isB frame (fun i _ d => pathWrite i (fun x => { x with state := .closing }) d)) s
/-- SESSION_IDLE_TIMEOUT: freed without any frame after idle_s seconds (13 R481). -/
def execSessionIdleTimeout (session : Nat) (s : State) : Host.Outcome State Fault Refusal :=
  runDev (fun d =>
    let x := sessionOf session d
    doIf (x.state != .free && x.state != .handshake && decide (x.lastFrame + d.net.idleS * secTicks ≤ d.time.ticks))
      (freeSession session) d) s

/-! ### Authority (13 R461, R491, R492, R496) -/

/-- A hand-over from path X is permitted (13 R491). -/
def handoverAllowed (isB : Bool) (d : Device) : Bool :=
  decide (authorityB d.net = isB) && pathAlive (pathOf (!isB) d) && !(pathOf (!isB) d).offline && d.net.handover.isNone &&
  decide ((pathOf isB d).claim < 0xFFFF0000)
/-- A hand-over is ordered in X's block: it begins, or is refused. -/
def orderHandover (isB thenOffline : Bool) (d : Device) : Device :=
  if handoverAllowed isB d then
    let d := modPath (!isB) (fun p => { p with copied := 0 }) (modPath isB (fun p => { p with handover := true, copied := 0 }) d)
    { d with net := { d.net with handover := some { fromB := isB, thenOffline } } }
  else modPath isB (fun p => { p with refused := true }) d
/-- HANDOVER (13 R491). -/
def execHandover (isB : Bool) (s : State) : Host.Outcome State Fault Refusal :=
  runDev (fun d => doIf (started d && pathAlive (pathOf isB d)) (orderHandover isB false) d) s
/-- The end of copy: Y writes with claim c + 1, adopts the states, and serves the held HELLOs (13 R492). -/
def finishHandover (h : Handover) (d : Device) : Device :=
  let x := h.fromB
  let n := (liveSessions d.net).length
  let claim := (pathOf x d).claim + 1
  let d := modPath (!x) (fun p => { p with claim := claim, copied := n }) d
  let d := modPath x (fun p => { p with handover := false, copied := n, offline := p.offline || h.thenOffline }) d
  let d := tableWrite (!x) id { d with net := { d.net with handover := none } }
  serveHeld (emit .notice 0x0603 (.path (!x)) (leBytes 4 claim ++ leBytes 4 n) d)
/-- HANDOVER_END (13 R492). -/
def execHandoverEnd (s : State) : Host.Outcome State Fault Refusal :=
  runDev (fun d => doWith d.net.handover finishHandover d) s
/-- A path written online stays so at the end of its hand-over. -/
def keepOnline (isB : Bool) (d : Device) : Device :=
  { d with net := { d.net with handover := d.net.handover.map (fun h => if h.fromB = isB then { h with thenOffline := false } else h) } }
/-- A write of NET_CTRL.offline: offline at once, after a hand-over where the path holds authority, or online. -/
def writeOffline (isB offline : Bool) (d : Device) : Device :=
  if !offline then keepOnline isB (modPath isB (fun p => { p with offline := false }) d)
  else if (pathOf isB d).offline then d
  else if authorityB d.net = isB then orderHandover isB true d
  else abandonHandover (modPath isB (fun p => { p with offline := true }) d)
/-- PATH_OFFLINE_WRITE (13 R496). -/
def execPathOfflineWrite (isB offline : Bool) (s : State) : Host.Outcome State Fault Refusal :=
  runDev (fun d => doIf (started d && pathAlive (pathOf isB d)) (writeOffline isB offline) d) s

/-- LINK_DOWN: an event, no change of authority (13 R461). -/
def execLinkDown (isB : Bool) (s : State) : Host.Outcome State Fault Refusal :=
  runDev (fun d => doIf (outOfReset d && pathAlive (pathOf isB d) && (pathOf isB d).linkUp) (fun d =>
    emit .warning 0x0601 (.path isB) (leBytes 1 (pathOf isB d).mode.toNat) (modPath isB (fun p => { p with linkUp := false }) d)) d) s
/-- LINK_UP. -/
def execLinkUp (isB : Bool) (s : State) : Host.Outcome State Fault Refusal :=
  runDev (fun d => doIf (outOfReset d && pathAlive (pathOf isB d)) (modPath isB (fun p => { p with linkUp := true })) d) s

end Sys2Proof.Machine
end

