-- ==== Sys2Proof/Machine/PowerDebug.lean ====
section
/-! DEFINITION. The commands of the power controller, the battery domain and the debug gate (22). -/

namespace Sys2Proof.Machine

/-! ### Supplies and the battery domain (22 R699, R703, R704; 19 R626) -/

/-- MAIN_SUPPLIES_FALL (22 R699): Night; nothing but fuses, flash and the battery domain survives. -/
def execMainSuppliesFall (s : State) : Host.Outcome State Fault Refusal :=
  runDev (fun d =>
    let c := coldDevice d
    { c with pins := { c.pins with mainOn := false } }) s
/-- BATTERY_SWITCHOVER (22 R703): no contents are lost. -/
def execBatterySwitchover (toVbat : Bool) (s : State) : Host.Outcome State Fault Refusal :=
  runDev (fun d => { d with battery := { d.battery with onVbat := toVbat } }) s
/-- VBAT_MEASUREMENT (22 R704, R710): once per second while the main supplies are present. -/
def execVbatMeasurement (millivolts : Nat) (s : State) : Host.Outcome State Fault Refusal :=
  runDev (fun d => doIf (outOfReset d) (fun d =>
    { d with power := { d.power with vbatMv := millivolts % 4096, vbatLow := decide (millivolts < 2500) } }) d) s
/-- LOSS_OF_VBAT (22 R704; 15 R537; 16 R556, R565; 19 R626): the contents of the battery domain become invalid. -/
def execLossOfVbat (s : State) : Host.Outcome State Fault Refusal :=
  runDev (fun d => doIf d.battery.onVbat (fun d => { d with battery := { lost := true, onVbat := true } }) d) s
/-- OPERATING_SECOND (19 R626): in every power state, saturating. -/
def execOperatingSecond (s : State) : Host.Outcome State Fault Refusal :=
  runDev (fun d => { d with battery := { d.battery with opSeconds := satInc d.battery.opSeconds } }) s

/-! ### Power control, 0x0A50 (22 R692, R693, R700, R705) -/

/-- Its checks: action, idle_ms and RSV bytes; Night preparation must be open to be abandoned. -/
def powerDecode (_ : Device) (j : Job) : Code :=
  let a := par j 0 1
  firstCode [reserved j 1 3, reserved j 8 40, need (decide (1 ≤ a ∧ a ≤ 5)) 0x0110,
    need (decide (a ≠ 4 ∨ par j 4 4 ≤ 60000)) 0x0110]
def powerChecks (d : Device) (j : Job) : Code :=
  need (decide (par j 0 1 ≠ 3) || d.power.mode == .preparingNight || d.power.mode == .nightReady) 0x040C
def powerVerb : Verb :=
  { plainVerb with decode := powerDecode, checks := powerChecks, run := fun _ j _ => { intents := [.power (par j 0 1) (par j 4 4)] } }
/-- The row of an action runs its job; a job whose action is none of the five is refused by the first of them. -/
def powerRow (action : Nat) (core : CoreRef) (d : Device) : Device :=
  match verbJob 0x0A50 core d with
  | some j =>
    let a := par j 0 1
    doIf (decide (a = action) || (decide (action = 1) && !decide (1 ≤ a ∧ a ≤ 5))) (execVerb 0x0A50 powerVerb core) d
  | none => d
/-- REQUEST_DUSK (22 R692, R693). -/
def execRequestDusk (core : CoreRef) (s : State) : Host.Outcome State Fault Refusal := runDev (powerRow 1 core) s
/-- PREPARE_NIGHT (22 R693, R700). -/
def execPrepareNight (core : CoreRef) (s : State) : Host.Outcome State Fault Refusal := runDev (powerRow 2 core) s
/-- ABANDON_NIGHT_PREPARATION (22 R693, R700). -/
def execAbandonNightPreparation (core : CoreRef) (s : State) : Host.Outcome State Fault Refusal := runDev (powerRow 3 core) s
/-- SET_AUTOMATIC_DUSK (22 R693). -/
def execSetAutomaticDusk (core : CoreRef) (s : State) : Host.Outcome State Fault Refusal := runDev (powerRow 4 core) s
/-- CLOSE_DEBUG_LEVEL (22 R693, R705). -/
def execCloseDebugLevel (core : CoreRef) (s : State) : Host.Outcome State Fault Refusal := runDev (powerRow 5 core) s

/-! ### Dusk (22 R690 to R698) -/

/-- Dusk exists in Owned and Operational only (22 R690). -/
def duskState (d : Device) : Bool := state d == .owned || state d == .operational
/-- The automatic delay has passed. -/
def idleLong (d : Device) : Bool :=
  match d.power.idleSince with
  | some t => decide (0 < d.power.idleMs) && partIdle d && decide (t + d.power.idleMs * msTicks ≤ d.time.ticks)
  | none => false
/-- AUTOMATIC_DUSK_TIMER (22 R693): the part is idle, so the request is taken at once and entry begins. -/
def execAutomaticDuskTimer (s : State) : Host.Outcome State Fault Refusal :=
  runDev (fun d => doIf (outOfReset d && started d && duskState d && decide (d.power.mode = .noon) && idleLong d) (fun d =>
    { d with power := { d.power with mode := .duskRequested, duskEntering := true } }) d) s
/-- Benches are in retention: no heartbeat is outstanding to them, their sources stop (22 R688). -/
def isBench : Region → Bool
  | .bench _ => true
  | _ => false
def enterDusk (d : Device) : Device :=
  pwrCount 0 { d with
    power := { d.power with mode := .dusk, duskEntering := false, wakePending := false, duskSince := d.time.ticks }
    custody := { d.custody with heartbeats := d.custody.heartbeats.filter (fun p => !isBench p.1) } }
/-- DUSK_ENTRY (22 R692, R696): a request is taken as the part is idle; a job that came during the entry wakes it at once. -/
def execDuskEntry (s : State) : Host.Outcome State Fault Refusal :=
  runDev (fun d =>
    let p := d.power
    doIf (outOfReset d && started d && duskState d && decide (p.mode = .duskRequested) && (p.duskEntering || partIdle d)) (fun d =>
      let e := enterDusk d
      if p.wakePending then wake p.wakeCause (if p.wakeCause = 3 then 3 else 2) e else e) d) s
/-- WAKE_COMPLETE (22 R694, R697, R698): Noon; sources run their test windows, heartbeats resume, work is granted. -/
def wakes (d : Device) : Device :=
  let slept := d.time.ticks - d.power.duskSince
  let serving := (d.benches.filter (fun p => p.2.inService)).map (·.1)
  let d := { d with
    power := { d.power with mode := .noon }
    gather := { d.gather with sources := tabMap (fun _ s => { s with waking := s.waking || s.state == .healthy }) d.gather.sources }
    benches := tabMap (fun _ b => { b with katLast := b.katLast + slept }) d.benches }
  dispatchAll (doEach serving (fun b => beginHeartbeat (.bench b)) d)
def execWakeComplete (s : State) : Host.Outcome State Fault Refusal :=
  runDev (fun d => doIf (outOfReset d && decide (d.power.mode = .waking)) wakes d) s

/-- NIGHT_READY (22 R700, R701): jobs have run to release, journal intents are durable, records are in the flash log. -/
def execNightReady (s : State) : Host.Outcome State Fault Refusal :=
  runDev (fun d => doIf (outOfReset d && decide (d.power.mode = .preparingNight) && d.gaffer.jobs.isEmpty && d.flash.writes.isEmpty &&
      d.events.toFlash.isEmpty && d.events.buffers.isEmpty)
    (fun d => { d with power := { d.power with mode := .nightReady } }) d) s

/-! ### The debug gate (22 R705 to R708; 17 R600) -/

/-- Level Full opens in Blank or Erased, with no source tripped or clearing and no overwrite running. -/
def fullMayOpen (d : Device) : Bool :=
  (state d == .blank || state d == .erased) && !anyActive d && !d.tamper.overwriteActive
def refuseOpen (level : Nat) (d : Device) : Device :=
  { d with power := { d.power with refusedLevel := BitVec.ofNat 2 level, refusedCount := satInc d.power.refusedCount } }
/-- TAP_OPEN (22 R705, R707): no level but Full is opened by the TAP. -/
def execTapOpen (level : Nat) (s : State) : Host.Outcome State Fault Refusal :=
  runDev (fun d => doIf (outOfReset d) (fun d => if level = 2 ∧ fullMayOpen d = true then setLevel .full 0 d else refuseOpen level d) d) s
/-- TAP_CLOSE (22 R705). -/
def execTapClose (s : State) : Host.Outcome State Fault Refusal := runDev (fun d => doIf (outOfReset d) (setLevel .closed 0) d) s
/-- DIAGNOSTIC_EXPIRY (22 R705): the hours of the Diagnostic level have elapsed. -/
def execDiagnosticExpiry (s : State) : Host.Outcome State Fault Refusal :=
  runDev (fun d => doIf (outOfReset d && decide (d.power.level = .diagnostic) && decide (d.power.diagEnds ≤ d.time.ticks)) (setLevel .closed 0) d) s
/-- TAP_ACCESS_BEYOND_LEVEL (22 R707): T15 trips, by detector A (17 R579). -/
def execTapAccessBeyondLevel (s : State) : Host.Outcome State Fault Refusal :=
  runDev (fun d => doIf (outOfReset d) (tripSource 15 .detA) d) s
/-- The sources whose disable fuse may be burned (17 R600). -/
def mayDisable (n : Nat) : Bool := (2 ≤ n && n ≤ 9) || n = 11 || n = 13 || n = 15
/-- TAMPER_DISABLE_BURN (17 R600, R601): at level Full; a request for another source is refused. -/
def execTamperDisableBurn (source : Nat) (s : State) : Host.Outcome State Fault Refusal :=
  runDev (fun d => doIf (outOfReset d && decide (d.power.level = .full) && mayDisable source) (fun d =>
    { d with fuses := { d.fuses with tamperDisable := d.fuses.tamperDisable ||| (1#16 <<< source) } }) d) s

end Sys2Proof.Machine
end

