-- ==== Sys2Proof/Machine/Registers.lean ====
section
/-! DEFINITION. Reads and writes of registers that have an effect of their own (00 R8, 02 R29, 04 R169, 12 R423 to R425,
R456 to R458, 19 R642, R643): low words of counters, the event read window, and every write of a register. -/

namespace Sys2Proof.Machine

/-! ### Reads of a low word (04 R169, 19 R642) -/

/-- Keep the high word of a value for the interface that read its low word. -/
def latchFor (r : Reader) (v : BitVec 48) (x : CtrBlock) : CtrBlock :=
  match r with
  | .pcie => { x with latchPcie := v.extractLsb' 32 16 }
  | .smbus => { x with latchSmbus := v.extractLsb' 32 16 }
def latchFn (r : Reader) (f : Nat) (d : Device) : Device :=
  modFn f (fun x => { x with ctr := latchFor r (ctrVal (fnSel x) x.ctr) x.ctr }) d
def latchKind (r : Reader) (b : Nat) (k : EngineKind) (d : Device) : Device :=
  setSticky b k (fun x => { x with ctr := latchFor r (ctrVal (blockSel x) x.ctr) x.ctr }) d
def latchGather (r : Reader) (b : Nat) (d : Device) : Device :=
  let x := gthCtrBlock d.time.ticks b d.gather
  let v := ctrVal (gthSel x) x
  { d with gather := { d.gather with ctrs := tabSet b (latchFor r v (gthBlock b d.gather)) d.gather.ctrs } }
/-- A read of the low word of a bench's block, by the number of the block (12 R424, R425). -/
def latchBench (r : Reader) (b block off : Nat) (d : Device) : Device :=
  if block = 0 ∧ off = 0x10 then
    modBench b (fun x => { x with lehr := { x.lehr with ctr := latchFor r (ctrVal (lehSel x.lehr) x.lehr.ctr) x.lehr.ctr } }) d
  else if block = 1 ∧ off = 0x10 then latchKind r b .marver d
  else if block = 2 ∧ off = 0x10 then latchKind r b .cipher d
  else if block = 3 ∧ off = 0x10 then latchKind r b .punty d
  else if block = 4 ∧ off = 0x14 then latchGather r b d
  else d
def latchNet (r : Reader) (isB : Bool) (off : Nat) (d : Device) : Device :=
  if off = 0x14 then modPath isB (fun p => { p with ctr := latchFor r (ctrVal (netSel p) p.ctr) p.ctr }) d
  else if off = 0x24 then
    modPath isB (fun p => { p with egressLatch := BitVec.ofNat 32 ((sessionOf p.sessSel.toNat d).egressNext / 2 ^ 32) }) d
  else d
def latchCustody (off : Nat) (d : Device) : Device :=
  if off = 0x114 then { d with flash := { d.flash with seqLatch := (d.flash.sequence >>> 32).setWidth 32 } }
  else if off = 0x11C then { d with flash := { d.flash with floorLatch := (d.battery.floor >>> 32).setWidth 16 } }
  else d
def latchEvents (r : Reader) (off : Nat) (d : Device) : Device :=
  let e := d.events
  if off = 0x04 then { d with events := { e with headLatch := BitVec.ofNat 32 ((e.nextSeq - 1) / 2 ^ 32) } }
  else if off = 0x20 then { d with events := { e with ctr := latchFor r (ctrVal (evrSel e) e.ctr) e.ctr } }
  else d
/-- The latch that a read of an offset of a function's BAR0 makes. -/
def latchAt (r : Reader) (f off : Nat) (d : Device) : Device :=
  if off = 0x10 then latchFn r f d
  else if f ≠ 0 then d
  else if 0x100000 ≤ off ∧ off < 0x200000 ∧ off % 0x1000 = 0x10 then latchFn r ((off - 0x100000) / 0x1000) d
  else if off = 0x300010 then { d with keys := { d.keys with lookupLatch := d.keys.lookups.n.extractLsb' 32 16 } }
  else if off = 0x301008 then
    { d with gaffer := { d.gaffer with ctr := latchFor r (gafCounterVal d) d.gaffer.ctr } }
  else if 0x400000 ≤ off ∧ off < 0x480000 then
    latchBench r ((off - 0x400000) / 0x10000) (off % 0x10000 / 0x1000) (off % 0x1000) d
  else if 0x500000 ≤ off ∧ off < 0x501000 then latchNet r false (off - 0x500000) d
  else if 0x510000 ≤ off ∧ off < 0x511000 then latchNet r true (off - 0x510000) d
  else if 0x600000 ≤ off ∧ off < 0x601000 then latchCustody (off - 0x600000) d
  else if 0x610000 ≤ off ∧ off < 0x611000 then latchEvents r (off - 0x610000) d
  else if off = 0x620010 then
    { d with power := { d.power with ctr := latchFor r (ctrVal (pwrSel d.power) d.power.ctr) d.power.ctr } }
  else d
/-- After a stopped start the PF answers alone, and of BAR0 only the CUS_ and EVR_ blocks return data (14 R518). -/
def stoppedUp (d : Device) : Bool :=
  d.start.stopped && outOfReset d && d.pins.perstN && decide (d.pins.pfAnswer = .normal) && !d.host.fenced && !d.host.halted
def stoppedOffset (off : Nat) : Bool := decide (0x600000 ≤ off ∧ off < 0x601000) || decide (0x610000 ≤ off ∧ off < 0x611000)
/-- An interface that can read an offset now: PCI Express while the host region serves, SMBus out of reset. -/
def readerUp (r : Reader) (f off : Nat) (d : Device) : Bool :=
  match r with
  | .pcie => if stoppedUp d then decide (f = 0) && stoppedOffset off else fnUp f d
  | .smbus => outOfReset d
/-- COUNTER_LOW_WORD_READ: the low word leaves, the high word is latched (04 R169, 19 R642). -/
def execCounterLowWordRead (reader : Reader) (function offset : Nat) (s : State) : Host.Outcome State Fault Refusal :=
  runDev (fun d => doIf (readerUp reader function offset d)
    (fun d => latchAt reader function offset { d with out := d.out ++ [.counterLow (readWord function offset d)] }) d) s
/-- The 64 bytes of the entry that EVR_READ_SEL names; beyond ring_count they read zero. -/
def copyRecord (d : Device) : Device :=
  { d with events := { d.events with
      readCopy := match d.events.ring[d.events.readSel.toNat]? with | some r => eventBytes r | none => [] } }
/-- EVR_READ_D0: a read of the window's first word copies the entry (19 R648). -/
def execEvrReadD0 (reader : Reader) (s : State) : Host.Outcome State Fault Refusal :=
  runDev (fun d => doIf (readerUp reader 0 0x610000 d) copyRecord d) s

/-! ### Sticky bits -/

/-- A bit that is cleared by writing 1 (00 R8). -/
def w1c (v : Word) (bit : Nat) (x : Bool) : Bool := x && !v.getLsbD bit
/-- A high word's overflow flag. -/
def clearOver (v : Word) (k : Nat) (x : CtrBlock) : CtrBlock :=
  match tabGet k x.ctrs with
  | some c => { x with ctrs := tabSet k { c with overflow := w1c v 31 c.overflow } x.ctrs }
  | none => x
def setSel (v : Word) (x : CtrBlock) : CtrBlock := { x with sel := v }

/-! ### Blocks (12 R425) -/

/-- KST_ (03 R122 to R128). KST_CTRL.remask_interval is locked since the end of start. -/
def writeKst (off : Nat) (v : Word) (d : Device) : Device :=
  let k := d.keys
  if off = 0x04 then doIf (v.getLsbD 8) requestRemask d
  else if off = 0x0C then { d with keys := { k with tagErrOverflow := w1c v 31 k.tagErrOverflow } }
  else if off = 0x14 then { d with keys := { k with lookups := { k.lookups with overflow := w1c v 31 k.lookups.overflow } } }
  else if off = 0x18 then { d with keys := { k with tenantSel := v.setWidth 8 } }
  else d
/-- GAF_ (04 R172, R173; 05 R194). GAF_OVERHOLD.limit_us is locked since the end of start. -/
def writeGaf (off : Nat) (v : Word) (d : Device) : Device :=
  let g := d.gaffer
  let s := d.shares
  if off = 0x04 then { d with gaffer := { g with ctr := setSel (v &&& 0xFF1F) g.ctr } }
  else if off = 0x0C then { d with gaffer := { g with ctr := clearOver v (gafSel g) g.ctr } }
  else if off = 0x14 then { d with gaffer := { g with tenantSel := v.setWidth 8 } }
  else if off = 0x28 then { d with gaffer := { g with traceIdx := v.setWidth 10 } }
  else if off = 0x40 then { d with shares := { s with sel := v.setWidth 11 } }
  else if off = 0x54 then { d with shares := { s with overFlag := w1c v 31 s.overFlag } }
  else d
def writeLeh (off : Nat) (v : Word) (b : Nat) (d : Device) : Device :=
  if off = 0x0C then modBench b (fun x => { x with lehr := { x.lehr with ctr := setSel (v &&& 0xF) x.lehr.ctr } }) d
  else if off = 0x14 then
    modBench b (fun x => { x with lehr := { x.lehr with ctr := clearOver v (lehSel x.lehr) x.lehr.ctr } }) d
  else d
/-- The engines field takes every write; start takes effect while no campaign is busy (06 R241, 08 R301, R302). -/
def writeSelftest (b : Nat) (k : EngineKind) (v : Word) (d : Device) : Device :=
  let n := kindSize k
  let engines := v.toNat % 2 ^ n
  doIf (v.getLsbD n && campaignMay b k d) (startCampaign b k engines)
    (setSticky b k (fun x => { x with testEngines := BitVec.ofNat 8 engines }) d)
/-- MRV_, CIP_ or DIG_: status flags at the given bits, the engine select, the counter select, the self-test. -/
def writeEngines (k : EngineKind) (spill mismatch fault : Nat) (off : Nat) (v : Word) (b : Nat) (d : Device) : Device :=
  if off = 0x00 then
    setSticky b k (fun x => { x with spill := w1c v spill x.spill, mismatch := w1c v mismatch x.mismatch, fault := w1c v fault x.fault }) d
  else if off = 0x04 then setSticky b k (fun x => { x with engSel := BitVec.ofNat 3 (v.toNat % kindSize k) }) d
  else if off = 0x0C then setSticky b k (fun x => { x with ctr := setSel (v &&& 0x10F) x.ctr }) d
  else if off = 0x14 then setSticky b k (fun x => { x with ctr := clearOver v (blockSel x) x.ctr }) d
  else if off = 0x18 then writeSelftest b k v d
  else d
/-- GTH_: counter 9 is device-wide, under index 15. -/
def writeGth (off : Nat) (v : Word) (b : Nat) (d : Device) : Device :=
  let g := d.gather
  let x := gthBlock b g
  if off = 0x10 then { d with gather := { g with ctrs := tabSet b (setSel (v &&& 0xF) x) g.ctrs } }
  else if off = 0x18 then
    let i := if gthSel x = 9 then 15 else b
    { d with gather := { g with ctrs := tabSet i (clearOver v (gthSel x) (gthBlock i g)) g.ctrs } }
  else d
/-- A block of a bench: its registers take writes while the bench exists (12 R424). -/
def writeBench (b block off : Nat) (v : Word) (d : Device) : Device :=
  if (tabGet b d.benches).isNone then d
  else match block with
    | 0 => writeLeh off v b d
    | 1 => if off = 0x1C then modBench b (fun x => { x with valSel := v.setWidth 11 }) d
           else writeEngines .marver 7 6 5 off v b d
    | 2 => writeEngines .cipher 32 19 18 off v b d
    | 3 => if off = 0x1C then doIf (v.getLsbD 31 && (benchOf b d).inService) (modBench b flushCache) d
           else writeEngines .punty 32 25 24 off v b d
    | 4 => writeGth off v b d
    | _ => d
/-- NET_CTRL of a path: offline as ordered, and a hand-over requested (13 R491, R496). -/
def writeNetCtrl (isB : Bool) (v : Word) (d : Device) : Device :=
  let d := if v.getLsbD 0 = (pathOf isB d).offline then d else writeOffline isB (v.getLsbD 0) d
  doIf (v.getLsbD 1) (orderHandover isB false) d
def writeNet (isB : Bool) (off : Nat) (v : Word) (d : Device) : Device :=
  if off = 0x00 then modPath isB (fun p => { p with takeoverDone := w1c v 26 p.takeoverDone }) d
  else if off = 0x04 then doIf (pathAlive (pathOf isB d)) (writeNetCtrl isB v) d
  else if off = 0x0C then modPath isB (fun p => { p with dupOverflow := w1c v 31 p.dupOverflow }) d
  else if off = 0x10 then modPath isB (fun p => { p with ctr := setSel (v &&& 0xF) p.ctr }) d
  else if off = 0x18 then modPath isB (fun p => { p with ctr := clearOver v (netSel p) p.ctr }) d
  else if off = 0x1C then modPath isB (fun p => { p with sessSel := v.setWidth 16 }) d
  else if off = 0x2C then modPath isB (fun p => { p with refused := w1c v 31 p.refused, aborted := w1c v 30 p.aborted }) d
  else d
/-- EVR_ALERT: host_notify, alert_min of at most 3, and resume (19 R646 to R648). -/
def writeAlert (v : Word) (d : Device) : Device :=
  let m := v.extractLsb' 24 3
  let d := { d with events := { d.events with hostNotify := v.getLsbD 29, alertMin := if 3 < m.toNat then 3 else m } }
  doIf (v.getLsbD 31) resumeAlert d
def writeEvr (off : Nat) (v : Word) (d : Device) : Device :=
  let e := d.events
  if off = 0x0C then { d with events := { e with readSel := v.setWidth 14 } }
  else if off = 0x10 then writeAlert v d
  else if off = 0x14 then { d with events := { e with rateSel := v.setWidth 16 } }
  else if off = 0x1C then { d with events := { e with ctr := setSel (v &&& 0x1F) e.ctr } }
  else if off = 0x24 then { d with events := { e with ctr := clearOver v (evrSel e) e.ctr } }
  else d
def writePwr (off : Nat) (v : Word) (d : Device) : Device :=
  let p := d.power
  if off = 0x0C then { d with power := { p with ctr := setSel (v &&& 0xF) p.ctr } }
  else if off = 0x14 then { d with power := { p with ctr := clearOver v (pwrSel p) p.ctr } }
  else d

/-! ### A function's registers (12 R456, R457) -/

/-- HST_FN_CTRL: each field that the write changes acts (12 R444, R445). -/
def writeFnCtrl (f : Nat) (v : Word) (d : Device) : Device :=
  let x := fnOf f d
  let d := if v.getLsbD 0 = x.enable then d else if v.getLsbD 0 then setEnable f d else clearEnable f d
  if v.getLsbD 1 = x.quiesce then d else if v.getLsbD 1 then setQuiesce f d else clearQuiesce f d
/-- HST_PRING_CONS: sweeps that wait on the ring go on (12 R443). -/
def writePringCons (f : Nat) (v : Word) (d : Device) : Device :=
  resumeSweeps (modFn f (fun x => { x with pringCons := v.toNat % 4096 }) d)
def setLow (v : Word) (a : BitVec 64) : BitVec 64 := (a.extractLsb' 32 32) ++ (v.extractLsb' 12 20) ++ 0#12
def setHigh (v : Word) (a : BitVec 64) : BitVec 64 := v ++ (a.extractLsb' 0 32)
/-- HST_PRING_CFG: an entry count outside 2^4 to 2^12 leaves the ring disabled. -/
def writePringCfg (v : Word) (x : Fn) : Fn :=
  let n := v.toNat % 16
  { x with pringEnable := v.getLsbD 31 && decide (4 ≤ n) && decide (n ≤ 12), pringLog2 := n }
def writeFn (f off : Nat) (v : Word) (d : Device) : Device :=
  if off = 0x04 then writeFnCtrl f v d
  else if off = 0x08 then modFn f (fun x => { x with acuFault := w1c v 27 x.acuFault, queueError := w1c v 26 x.queueError }) d
  else if off = 0x0C then modFn f (fun x => { x with ctr := setSel (v &&& 0xF) x.ctr }) d
  else if off = 0x14 then modFn f (fun x => { x with ctr := clearOver v (fnSel x) x.ctr }) d
  else if off = 0x20 then modFn f (fun x => { x with pringBase := setLow v x.pringBase }) d
  else if off = 0x24 then modFn f (fun x => { x with pringBase := setHigh v x.pringBase }) d
  else if off = 0x28 then modFn f (writePringCfg v) d
  else if off = 0x30 then writePringCons f v d
  else d
def writeQueue (f q off : Nat) (v : Word) (d : Device) : Device :=
  if off = 0x00 then modQueue f q (fun x => { x with sqBase := setLow v x.sqBase }) d
  else if off = 0x04 then modQueue f q (fun x => { x with sqBase := setHigh v x.sqBase }) d
  else if off = 0x08 then modQueue f q (fun x => { x with cqBase := setLow v x.cqBase }) d
  else if off = 0x0C then modQueue f q (fun x => { x with cqBase := setHigh v x.cqBase }) d
  else if off = 0x10 then writeQueueCfg f q v d
  else d
/-- HST_MBX_IN, while no message is posted (12 R439). -/
def writeMbxIn (f off : Nat) (v : Word) (d : Device) : Device :=
  let x := fnOf f d
  if x.inPost then d
  else modFn f (fun x => { x with mbxIn := (fit 256 x.mbxIn).take off ++ leBytes 4 v.toNat ++ (fit 256 x.mbxIn).drop (off + 4) }) d
/-- HST_MBX_CTRL: in_post makes Yunante take the message, out_valid is cleared (12 R439, R457). -/
def writeMbxCtrl (f : Nat) (v : Word) (d : Device) : Device :=
  let d := doIf (v.getLsbD 30 && (fnOf f d).outValid) (clearOutValid f) d
  doIf (v.getLsbD 31) (fun d => let m := fit 256 (fnOf f d).mbxIn; actOnMessage f m (takePost f m d)) d
/-- A word of the MSI-X table; a vector unmasked while its pending bit is set fires (log entry 20). -/
def writeMsix (f word : Nat) (v : Word) (d : Device) : Device :=
  let d := modFn f (fun x => { x with msixTable := tabSet word v x.msixTable }) d
  let vec := word / 4
  if word % 4 = 3 && !v.getLsbD 0 && (fnOf f d).msixPending.getLsbD vec then
    fireVector f vec (modFn f (fun x => { x with msixPending := x.msixPending &&& ~~~((1 : BitVec 18) <<< vec) }) d)
  else d
/-- The first 64 KiB of BAR0 (12 R423). -/
def writeBar (f off : Nat) (v : Word) (d : Device) : Device :=
  if off % 4 ≠ 0 then d
  else if off ≤ 0x33 then writeFn f off v d
  else if 0x1000 ≤ off ∧ off < 0x1400 then writeQueue f ((off - 0x1000) / 0x40) (off % 0x40) v d
  else if 0x2000 ≤ off ∧ off < 0x2080 then
    let q := (off - 0x2000) / 8
    let n := v.toNat % 4096
    if off % 8 = 0 then doorbell f q n (ringTail n d.time.ticks) d else doorbell f q n (ringHead n) d
  else if 0x3000 ≤ off ∧ off < 0x3100 then writeMbxIn f (off - 0x3000) v d
  else if off = 0x3200 then writeMbxCtrl f v d
  else if 0x8000 ≤ off ∧ off < 0x8120 then writeMsix f ((off - 0x8000) / 4) v d
  else d
/-- The manager's access control words (12 R452, R458). -/
def writeAcuGlobal (off : Nat) (v : Word) (d : Device) : Device :=
  let h := d.host
  if off = 0x0 then { d with host := { h with pfDefault := w1c v 0 h.pfDefault } }
  else if off = 0x4 then { d with host := { h with faultValid := w1c v 31 h.faultValid, faultOverflow := w1c v 30 h.faultOverflow } }
  else d

/-! ### Custody registers (00 R8, 02 R29) -/

/-- Number of a shared object: its row in the table of 01 R29. -/
def objectNo : SharedObject → Nat
  | .custodyRegisters => 0
  | .keySlots => 1
  | .sessionTable => 2
  | .readyList => 3
  | .firmwareArea _ => 4
  | .dataArea _ => 5
  | .hostMemory => 6
  | .eventRecorder => 7
  | .flash => 8
/-- A write refused at the handshake: not performed, and recorded (01 R29). The detail is the writing region, the object's number, and
the register's offset or the bench (19 R641; log entry 17). -/
def refuseWrite (r : Region) (object at_ : Nat) (d : Device) : Device :=
  emitC .alarm 0x0905 (leBytes 1 (regionNo r) ++ leBytes 1 object ++ leBytes 3 at_) d
/-- A write of a CO register from another region: ignored, counted, and recorded as refused. -/
def custodyWrite (r : Region) (off : Nat) (d : Device) : Device :=
  let c := d.custody
  refuseWrite r 0 off { d with custody := { c with coRegion := BitVec.ofNat 8 (regionNo r), coCount := satInc c.coCount } }
/-- The regions that write a shared object (01 R29): the firmware loader of the custody partition at start only, Gaffer's ready list
by the admission stage in the key store region, by the command fetch and by every Lehr, and bench memory by its cores and the hub. -/
def mayWrite (d : Device) (o : SharedObject) (r : Region) : Bool :=
  match o, r with
  | .custodyRegisters, .custody => true
  | .keySlots, .bench _ => true
  | .keySlots, .keyStore => true
  | .sessionTable, .path _ => true
  | .readyList, .bench _ => true
  | .readyList, .keyStore => true
  | .readyList, .host => true
  | .firmwareArea _, .custody => starting d
  | .dataArea b, .bench c => decide (b = c)
  | .dataArea _, .keyStore => true
  | .hostMemory, .host => true
  | .eventRecorder, .custody => true
  | .flash, .nvm => true
  | _, _ => false
/-- The bench of a memory area, as event 0x0905 names it. -/
def objectBench : SharedObject → Nat
  | .firmwareArea b => b
  | .dataArea b => b
  | _ => 0
/-- A write of a shared object at its handshake. One by a listed writer is a row of its own and does nothing here; one of the session
table by the path with the lower claim is acknowledged, discarded and counted (01 R24); any other is refused (01 R16, R29). -/
def objectWrite (r : Region) (o : SharedObject) (d : Device) : Device :=
  match o, r with
  | .sessionTable, .path isB => tableWrite isB id d
  | .custodyRegisters, r => doIf (decide (r ≠ .custody)) (custodyWrite r 0x600000) d
  | o, r => doIf (!mayWrite d o r) (refuseWrite r (objectNo o) (objectBench o)) d

/-! ### The map (12 R423, R424) -/

/-- A write by a function that reaches its BAR0. -/
def writeReg (f off : Nat) (v : Word) (d : Device) : Device :=
  if off < 0x10000 then writeBar f off v d
  else if f ≠ 0 then d
  else if 0x100000 ≤ off ∧ off < 0x200000 then
    let g := (off - 0x100000) / 0x1000
    doIf (fnExists g d.host && decide (off % 0x1000 < 0x18)) (writeFn g (off % 0x1000) v) d
  else if 0x200000 ≤ off ∧ off < 0x240000 then
    let o := off % 0x400
    if o < 0x200 ∧ o % 4 = 0 then writeRegion ((off - 0x200000) / 0x400) (o / 16) (o % 16 / 4) v d else d
  else if 0x240000 ≤ off ∧ off < 0x240010 then writeAcuGlobal (off - 0x240000) v d
  else if 0x300000 ≤ off ∧ off < 0x301000 then writeKst (off - 0x300000) v d
  else if 0x301000 ≤ off ∧ off < 0x302000 then writeGaf (off - 0x301000) v d
  else if 0x400000 ≤ off ∧ off < 0x480000 then
    writeBench ((off - 0x400000) / 0x10000) (off % 0x10000 / 0x1000) (off % 0x1000) v d
  else if 0x500000 ≤ off ∧ off < 0x501000 then writeNet false (off - 0x500000) v d
  else if 0x510000 ≤ off ∧ off < 0x511000 then writeNet true (off - 0x510000) v d
  else if 0x600000 ≤ off ∧ off < 0x601000 then custodyWrite .host off d
  else if 0x610000 ≤ off ∧ off < 0x611000 then writeEvr (off - 0x610000) v d
  else if 0x620000 ≤ off ∧ off < 0x621000 then writePwr (off - 0x620000) v d
  else d
/-- A write by a region of the die: of a CO register it is ignored, counted and recorded, of another register of the custody partition
refused (00 R8, 01 R29), elsewhere it has no effect. -/
def regionWrite (r : Region) (off : Nat) (d : Device) : Device :=
  if r = .custody then d
  else if 0x600000 ≤ off ∧ off < 0x601000 then custodyWrite r off d
  else if 0x610000 ≤ off ∧ off < 0x640000 then refuseWrite r 0 off d
  else d
/-- A write by the PF after a stopped start, where BAR0 holds the CUS_ and EVR_ blocks alone (14 R518). -/
def stoppedWrite (f off : Nat) (v : Word) (d : Device) : Device :=
  doIf (decide (f = 0) && stoppedOffset off) (writeReg 0 off v) d
/-- REGISTER_WRITE (00 R2, R8; 01 R29; 04 R169; 12 R456 to R458; 14 R518). -/
def execRegisterWrite (accessor : Accessor) (offset : Nat) (value : Word) (s : State) : Host.Outcome State Fault Refusal :=
  runDev (fun d => match accessor with
    | .function f => if stoppedUp d then stoppedWrite f offset value d else doIf (fnUp f d) (writeReg f offset value) d
    | .region r => doIf (outOfReset d && regionExists d r) (regionWrite r offset) d
    | .object r o => doIf (outOfReset d && regionExists d r) (objectWrite r o) d) s

end Sys2Proof.Machine
end

