-- ==== Sys2Proof/Machine/TamperCmds.lean ====
section
/-! DEFINITION. The commands of the tamper monitors (17 R579 to R604). -/

namespace Sys2Proof.Machine

/-- The custody partition watches the source. -/
def sourceWatched (n : Nat) (d : Device) : Bool := outOfReset d && d.tamper.armed && decide (n < 16) && srcEnabled n d
/-- The detector is under its challenge: its output is masked, for at most 20 µs (17 R581). -/
def masked (n : Nat) (det : Detector) (d : Device) : Bool :=
  match d.tamper.challenge with
  | some c => decide (c.1 = n) && c.2.1 == det && decide (d.time.ticks ≤ c.2.2 + 20 * usTicks)
  | none => false

/-- DETECTOR_TRIP (17 R580, R583 to R586). -/
def execDetectorTrip (source : Nat) (detector : Detector) (s : State) : Host.Outcome State Fault Refusal :=
  runDev (fun d => doIf (sourceWatched source d && !masked source detector d) (tripSource source detector) d) s

/-- The overwrite of the key store array is complete (17 R590): event 0x0A04. -/
def overwriteEnds (d : Device) : Device :=
  let n := slotCount d
  emitC .notice 0x0A04 (leBytes 4 n)
    { d with
      tamper := { d.tamper with overwriteActive := false, overwriteDone := true, cursor := n }
      keys := { d.keys with slots := [], faultMap := [], gen0 := 0 } }
/-- CULLET_OVERWRITE_END (17 R590). -/
def execCulletOverwriteEnd (s : State) : Host.Outcome State Fault Refusal :=
  runDev (fun d => doIf (outOfReset d && d.tamper.overwriteActive) overwriteEnds d) s

/-- Supplies and temperature are quiet: T6 to T9 (17 R587). -/
def suppliesQuiet (d : Device) : Bool := ([6, 7, 8, 9] : List Nat).all (fun n => !sourceActive n d)
/-- TRIP_FUSE_BURN (17 R587): the burns that the latches of a source call for. -/
def execTripFuseBurn (source : Nat) (s : State) : Host.Outcome State Fault Refusal :=
  runDev (fun d => doIf (outOfReset d && suppliesQuiet d) (burnLatches (fun l => decide (l.source = source) && !l.night)) d) s

/-! ### Challenges and Notices (17 R581, R582) -/

/-- Source and detector of a position in the order T0 A, T0 B, T1 A and onwards. -/
def challengeOf (p : Nat) : Nat × Detector := (p / 2, if p % 2 = 0 then .detA else .detB)
/-- The next position whose source is enabled. -/
def nextPosition (d : Device) : Option Nat :=
  ((List.range 32).map (fun i => (d.tamper.nextChallenge + i) % 32)).find? (fun p => srcEnabled (p / 2) d)
/-- Challenge the detector of a position. -/
def challengeAt (p : Nat) (d : Device) : Device :=
  { d with tamper := { d.tamper with
      challenge := some ((challengeOf p).1, (challengeOf p).2, d.time.ticks)
      nextChallenge := (p + 1) % 32, lastChallenge := d.time.ticks } }
/-- DETECTOR_CHALLENGE (17 R581): every 100 ms. -/
def execDetectorChallenge (s : State) : Host.Outcome State Fault Refusal :=
  runDev (fun d => doIf (outOfReset d && d.tamper.armed && decide (d.tamper.challenge = none) &&
      decide (d.tamper.lastChallenge + 100 * msTicks ≤ d.time.ticks)) (doWith (nextPosition d) challengeAt) d) s
/-- The challenge ends; a detector that did not trip, or did not return to quiet, raises a Notice. -/
def challengeEnds (tripped quiet : Bool) (c : Nat × Detector × Nat) (d : Device) : Device :=
  let d := { d with tamper := { d.tamper with challenge := none } }
  if tripped && quiet then d else notice c.1 c.2.1 d
/-- CHALLENGE_END (17 R581, R582). -/
def execChallengeEnd (tripped quiet : Bool) (s : State) : Host.Outcome State Fault Refusal :=
  runDev (fun d => doIf (outOfReset d) (doWith d.tamper.challenge (challengeEnds tripped quiet)) d) s
/-- ANALOG_PAIR_MISMATCH (17 R582): T6 to T9, while neither detector has tripped. -/
def execAnalogPairMismatch (source : Nat) (detector : Detector) (s : State) : Host.Outcome State Fault Refusal :=
  runDev (fun d => doIf (sourceWatched source d && decide (6 ≤ source) && decide (source ≤ 9) &&
      !(sourceOf source d).detA && !(sourceOf source d).detB) (notice source detector) d) s

/-! ### Clearing (17 R592, R604) -/

/-- A detector goes quiet; with both quiet the source is clearing. -/
def detectorQuiets (n : Nat) (det : Detector) (d : Device) : Device :=
  let s := sourceOf n d
  let s := { s with detA := s.detA && det != .detA, detB := s.detB && det != .detB }
  setSource n (if s.detA || s.detB then s else { s with state := .clearing, quietSince := d.time.ticks }) d
/-- DETECTOR_QUIET (17 R592). -/
def execDetectorQuiet (source : Nat) (detector : Detector) (s : State) : Host.Outcome State Fault Refusal :=
  runDev (fun d =>
    let x := sourceOf source d
    doIf (sourceWatched source d && x.state == .tripped && (if detector = .detA then x.detA else x.detB))
      (detectorQuiets source detector) d) s
/-- SOURCE_CLEAR (17 R592): both detectors have been quiet for 1 s. -/
def execSourceClear (source : Nat) (s : State) : Host.Outcome State Fault Refusal :=
  runDev (fun d =>
    let x := sourceOf source d
    doIf (sourceWatched source d && x.state == .clearing && decide (x.quietSince + secTicks ≤ d.time.ticks))
      (setSource source { x with state := .quiet }) d) s
/-- ALARM_STRETCH_END (17 R604): 10 s after the latest Notice. -/
def execAlarmStretchEnd (source : Nat) (s : State) : Host.Outcome State Fault Refusal :=
  runDev (fun d =>
    let x := sourceOf source d
    match x.noticeUntil with
    | some t => doIf (decide (t ≤ d.time.ticks)) (setSource source { x with noticeUntil := none }) d
    | none => d) s

/-- The battery domain watches: in Night, and while PWR_OK is low with the main supplies present (17 R603, 23 R719). -/
def batteryWatches (d : Device) : Bool := !d.pins.mainOn || !d.pins.pwrOk || !d.pins.rstN
/-- NIGHT_MESH_CHECK (17 R603, 23 R719): detector A of T0 to T4; a failure sets the battery latch, and the next start answers it. -/
def execNightMeshCheck (source : Nat) (failed : Bool) (s : State) : Host.Outcome State Fault Refusal :=
  runDev (fun d => doIf (batteryWatches d && decide (source ≤ 4) && srcEnabled source d && failed &&
      !d.battery.latches.any (fun l => decide (l.source = source) && l.night))
    (fun d => { d with battery := { d.battery with latches :=
      d.battery.latches ++ [{ source := source, seconds := d.battery.opSeconds, night := true }] } }) d) s

end Sys2Proof.Machine
end

