-- ==== Sys2Proof/Machine/Dispatch.lean ====
section
/-! DEFINITION. The dispatch of the commands to their meanings, one arm per row of the table. -/

namespace Sys2Proof.Machine

def exec (i : Instr) (s : State) : Host.Outcome State Fault Refusal :=
  match i with
  | .releaseOfReset straps => Sys2Proof.Machine.execReleaseOfReset straps s
  | .resetAsserted pin => Sys2Proof.Machine.execResetAsserted pin s
  | .perstNAsserted => Sys2Proof.Machine.execPerstNAsserted s
  | .perstNDeasserted => Sys2Proof.Machine.execPerstNDeasserted s
  | .hostRegionReinitEnd => Sys2Proof.Machine.execHostRegionReinitEnd s
  | .strapChanged live => Sys2Proof.Machine.execStrapChanged live s
  | .startPhaseEnd found => Sys2Proof.Machine.execStartPhaseEnd found s
  | .rollCallReport bench report => Sys2Proof.Machine.execRollCallReport bench report s
  | .crystalStartTimeout => Sys2Proof.Machine.execCrystalStartTimeout s
  | .startPhaseBoundExceeded => Sys2Proof.Machine.execStartPhaseBoundExceeded s
  | .watchTick crystalEdge => Sys2Proof.Machine.execWatchTick crystalEdge s
  | .watchCalibrationSecond second => Sys2Proof.Machine.execWatchCalibrationSecond second s
  | .crystalEdgeLoss => Sys2Proof.Machine.execCrystalEdgeLoss s
  | .voltageSample millivolts => Sys2Proof.Machine.execVoltageSample millivolts s
  | .temperatureSample diode oscillator => Sys2Proof.Machine.execTemperatureSample diode oscillator s
  | .handshakeTimeout requester far raised => Sys2Proof.Machine.execHandshakeTimeout requester far raised s
  | .lateAcknowledge requester far => Sys2Proof.Machine.execLateAcknowledge requester far s
  | .heartbeatAcknowledge region => Sys2Proof.Machine.execHeartbeatAcknowledge region s
  | .tickLossDetected region => Sys2Proof.Machine.execTickLossDetected region s
  | .arpRequest isB link => Sys2Proof.Machine.execArpRequest isB link s
  | .neighbourSolicitation isB link => Sys2Proof.Machine.execNeighbourSolicitation isB link s
  | .hello isB frame => Sys2Proof.Machine.execHello isB frame s
  | .finish isB frame => Sys2Proof.Machine.execFinish isB frame s
  | .htlRequest isB frame => Sys2Proof.Machine.execHtlRequest isB frame s
  | .htlCancel isB frame => Sys2Proof.Machine.execHtlCancel isB frame s
  | .keepalive isB frame => Sys2Proof.Machine.execKeepalive isB frame s
  | .rekey isB frame => Sys2Proof.Machine.execRekey isB frame s
  | .close isB frame => Sys2Proof.Machine.execClose isB frame s
  | .handshakeMessageTimeout session => Sys2Proof.Machine.execHandshakeMessageTimeout session s
  | .rekeyWindowEnd session => Sys2Proof.Machine.execRekeyWindowEnd session s
  | .rekeyDueTimer session => Sys2Proof.Machine.execRekeyDueTimer session s
  | .sessionIdleTimeout session => Sys2Proof.Machine.execSessionIdleTimeout session s
  | .handover isB => Sys2Proof.Machine.execHandover isB s
  | .handoverEnd => Sys2Proof.Machine.execHandoverEnd s
  | .pathOfflineWrite isB offline => Sys2Proof.Machine.execPathOfflineWrite isB offline s
  | .linkDown isB => Sys2Proof.Machine.execLinkDown isB s
  | .linkUp isB => Sys2Proof.Machine.execLinkUp isB s
  | .sqTailDoorbell function queue tail => Sys2Proof.Machine.execSqTailDoorbell function queue tail s
  | .cqHeadDoorbell function queue head => Sys2Proof.Machine.execCqHeadDoorbell function queue head s
  | .descriptorFetch function queue descriptor list input => Sys2Proof.Machine.execDescriptorFetch function queue descriptor list input s
  | .hostReadFailure purpose function queue cid => Sys2Proof.Machine.execHostReadFailure purpose function queue cid s
  | .coalesceTimerExpiry function queue => Sys2Proof.Machine.execCoalesceTimerExpiry function queue s
  | .intEnableSet function queue => Sys2Proof.Machine.execIntEnableSet function queue s
  | .queueEnableWrite function queue value => Sys2Proof.Machine.execQueueEnableWrite function queue value s
  | .mbxFunctionInfo function message => Sys2Proof.Machine.execMbxFunctionInfo function message s
  | .mbxRelayToManager function message => Sys2Proof.Machine.execMbxRelayToManager function message s
  | .mbxRelayToVf message => Sys2Proof.Machine.execMbxRelayToVf message s
  | .mbxOutValidClear function => Sys2Proof.Machine.execMbxOutValidClear function s
  | .functionEnable function => Sys2Proof.Machine.execFunctionEnable function s
  | .functionDisable function => Sys2Proof.Machine.execFunctionDisable function s
  | .quiesceSet function => Sys2Proof.Machine.execQuiesceSet function s
  | .quiesceClear function => Sys2Proof.Machine.execQuiesceClear function s
  | .functionLevelReset function => Sys2Proof.Machine.execFunctionLevelReset function s
  | .vfEnableClear => Sys2Proof.Machine.execVfEnableClear s
  | .drainEnd function => Sys2Proof.Machine.execDrainEnd function s
  | .acuRegionWrite function region word value => Sys2Proof.Machine.execAcuRegionWrite function region word value s
  | .pfDefaultClear => Sys2Proof.Machine.execPfDefaultClear s
  | .pringConsWrite function cons => Sys2Proof.Machine.execPringConsWrite function cons s
  | .coreWorkRequest core => Sys2Proof.Machine.execCoreWorkRequest core s
  | .checkVerdict core pairDiffers => Sys2Proof.Machine.execCheckVerdict core pairDiffers s
  | .lockstepPartnerTimeout core => Sys2Proof.Machine.execLockstepPartnerTimeout core s
  | .stageOut core fault => Sys2Proof.Machine.execStageOut core fault s
  | .retire job fault => Sys2Proof.Machine.execRetire job fault s
  | .coreSelftestEnd core passed => Sys2Proof.Machine.execCoreSelftestEnd core passed s
  | .journalEntryDurable entry programmed => Sys2Proof.Machine.execJournalEntryDurable entry programmed s
  | .floorReached job => Sys2Proof.Machine.execFloorReached job s
  | .gridPoint leftA leftB => Sys2Proof.Machine.execGridPoint leftA leftB s
  | .expiryScan => Sys2Proof.Machine.execExpiryScan s
  | .creditWindowBoundary => Sys2Proof.Machine.execCreditWindowBoundary s
  | .arbiterRequest core kind amount => Sys2Proof.Machine.execArbiterRequest core kind amount s
  | .grantRelease core kind unit units => Sys2Proof.Machine.execGrantRelease core kind unit units s
  | .overHoldCutoff core kind unit units => Sys2Proof.Machine.execOverHoldCutoff core kind unit units s
  | .marverOperationEnd core engineA engineB outcome => Sys2Proof.Machine.execMarverOperationEnd core engineA engineB outcome s
  | .engineBlockCompare core kind engine outcome => Sys2Proof.Machine.execEngineBlockCompare core kind engine outcome s
  | .periodicKatWithdrawal bench => Sys2Proof.Machine.execPeriodicKatWithdrawal bench s
  | .engineKatEnd bench kind engine findings => Sys2Proof.Machine.execEngineKatEnd bench kind engine findings s
  | .recoveryTraceWindowEnd => Sys2Proof.Machine.execRecoveryTraceWindowEnd s
  | .keyLookup core port handle => Sys2Proof.Machine.execKeyLookup core port handle s
  | .tagVerdict core port => Sys2Proof.Machine.execTagVerdict core port s
  | .remaskIntervalExpiry => Sys2Proof.Machine.execRemaskIntervalExpiry s
  | .remaskNow => Sys2Proof.Machine.execRemaskNow s
  | .remaskStep => Sys2Proof.Machine.execRemaskStep s
  | .conversionEnd => Sys2Proof.Machine.execConversionEnd s
  | .benchRowConversionEnd bench => Sys2Proof.Machine.execBenchRowConversionEnd bench s
  | .sweepStep sweep => Sys2Proof.Machine.execSweepStep sweep s
  | .gatherWindowEnd source bits => Sys2Proof.Machine.execGatherWindowEnd source bits s
  | .conditionedBlock source => Sys2Proof.Machine.execConditionedBlock source s
  | .reseedTimerExpiry bench => Sys2Proof.Machine.execReseedTimerExpiry bench s
  | .sourceWakeTestEnd source passed => Sys2Proof.Machine.execSourceWakeTestEnd source passed s
  | .detectorTrip source detector => Sys2Proof.Machine.execDetectorTrip source detector s
  | .culletOverwriteEnd => Sys2Proof.Machine.execCulletOverwriteEnd s
  | .tripFuseBurn source => Sys2Proof.Machine.execTripFuseBurn source s
  | .detectorChallenge => Sys2Proof.Machine.execDetectorChallenge s
  | .challengeEnd tripped quiet => Sys2Proof.Machine.execChallengeEnd tripped quiet s
  | .analogPairMismatch source detector => Sys2Proof.Machine.execAnalogPairMismatch source detector s
  | .sourceClear source => Sys2Proof.Machine.execSourceClear source s
  | .alarmStretchEnd source => Sys2Proof.Machine.execAlarmStretchEnd source s
  | .nightMeshCheck source failed => Sys2Proof.Machine.execNightMeshCheck source failed s
  | .mainSuppliesFall => Sys2Proof.Machine.execMainSuppliesFall s
  | .batterySwitchover toVbat => Sys2Proof.Machine.execBatterySwitchover toVbat s
  | .vbatMeasurement millivolts => Sys2Proof.Machine.execVbatMeasurement millivolts s
  | .requestDusk core => Sys2Proof.Machine.execRequestDusk core s
  | .prepareNight core => Sys2Proof.Machine.execPrepareNight core s
  | .abandonNightPreparation core => Sys2Proof.Machine.execAbandonNightPreparation core s
  | .setAutomaticDusk core => Sys2Proof.Machine.execSetAutomaticDusk core s
  | .closeDebugLevel core => Sys2Proof.Machine.execCloseDebugLevel core s
  | .automaticDuskTimer => Sys2Proof.Machine.execAutomaticDuskTimer s
  | .duskEntry => Sys2Proof.Machine.execDuskEntry s
  | .wakeComplete => Sys2Proof.Machine.execWakeComplete s
  | .nightReady => Sys2Proof.Machine.execNightReady s
  | .tapOpen level => Sys2Proof.Machine.execTapOpen level s
  | .tapClose => Sys2Proof.Machine.execTapClose s
  | .diagnosticExpiry => Sys2Proof.Machine.execDiagnosticExpiry s
  | .tapAccessBeyondLevel => Sys2Proof.Machine.execTapAccessBeyondLevel s
  | .tamperDisableBurn source => Sys2Proof.Machine.execTamperDisableBurn source s
  | .eventAccept => Sys2Proof.Machine.execEventAccept s
  | .summaryDue code => Sys2Proof.Machine.execSummaryDue code s
  | .flashLogPageWrite programmed => Sys2Proof.Machine.execFlashLogPageWrite programmed s
  | .smbusDeviceIdentity => Sys2Proof.Machine.execSmbusDeviceIdentity s
  | .smbusStatus => Sys2Proof.Machine.execSmbusStatus s
  | .smbusTemperatures => Sys2Proof.Machine.execSmbusTemperatures s
  | .smbusSupplies => Sys2Proof.Machine.execSmbusSupplies s
  | .smbusRecordCounts => Sys2Proof.Machine.execSmbusRecordCounts s
  | .smbusNewestRecord => Sys2Proof.Machine.execSmbusNewestRecord s
  | .smbusClearAlertCause value pecOk => Sys2Proof.Machine.execSmbusClearAlertCause value pecOk s
  | .alertResponseAddressRead wins => Sys2Proof.Machine.execAlertResponseAddressRead wins s
  | .hostNotifyAcknowledge => Sys2Proof.Machine.execHostNotifyAcknowledge s
  | .alertUnansweredTimeout => Sys2Proof.Machine.execAlertUnansweredTimeout s
  | .alertBackoffExpiry => Sys2Proof.Machine.execAlertBackoffExpiry s
  | .alertResume => Sys2Proof.Machine.execAlertResume s
  | .smbusClockLowTimeout => Sys2Proof.Machine.execSmbusClockLowTimeout s
  | .mrvSelftestStart bench engines => Sys2Proof.Machine.execMrvSelftestStart bench engines s
  | .cipSelftestStart bench engines => Sys2Proof.Machine.execCipSelftestStart bench engines s
  | .digSelftestStart bench engines => Sys2Proof.Machine.execDigSelftestStart bench engines s
  | .digCacheFlush bench => Sys2Proof.Machine.execDigCacheFlush bench s
  | .counterLowWordRead reader function offset => Sys2Proof.Machine.execCounterLowWordRead reader function offset s
  | .evrReadD0 reader => Sys2Proof.Machine.execEvrReadD0 reader s
  | .registerWrite accessor offset value => Sys2Proof.Machine.execRegisterWrite accessor offset value s
  | .cardInserted portB => Sys2Proof.Machine.execCardInserted portB s
  | .cardRemoved portB => Sys2Proof.Machine.execCardRemoved portB s
  | .cardExchangeTimeout portB => Sys2Proof.Machine.execCardExchangeTimeout portB s
  | .lock core => Sys2Proof.Machine.execLock core s
  | .openQuorum core => Sys2Proof.Machine.execOpenQuorum core s
  | .presentCard core reply => Sys2Proof.Machine.execPresentCard core reply s
  | .abandonQuorum core => Sys2Proof.Machine.execAbandonQuorum core s
  | .custodyInformation core => Sys2Proof.Machine.execCustodyInformation core s
  | .retireWithoutQuorum core => Sys2Proof.Machine.execRetireWithoutQuorum core s
  | .quorumExpiry => Sys2Proof.Machine.execQuorumExpiry s
  | .componentSessionExpiry session => Sys2Proof.Machine.execComponentSessionExpiry session s
  | .generateSymmetricKey core => Sys2Proof.Machine.execGenerateSymmetricKey core s
  | .importKeyBlock core => Sys2Proof.Machine.execImportKeyBlock core s
  | .exportKeyBlock core => Sys2Proof.Machine.execExportKeyBlock core s
  | .restorePersistenceBlock core => Sys2Proof.Machine.execRestorePersistenceBlock core s
  | .deleteKey core => Sys2Proof.Machine.execDeleteKey core s
  | .componentSessionBegin core => Sys2Proof.Machine.execComponentSessionBegin core s
  | .componentAdd core reply => Sys2Proof.Machine.execComponentAdd core reply s
  | .componentComplete core => Sys2Proof.Machine.execComponentComplete core s
  | .deriveKey core => Sys2Proof.Machine.execDeriveKey core s
  | .exportUnderPublicKey core => Sys2Proof.Machine.execExportUnderPublicKey core s
  | .importUnderPrivateKey core => Sys2Proof.Machine.execImportUnderPrivateKey core s
  | .openRootRotation core => Sys2Proof.Machine.execOpenRootRotation core s
  | .closeRootRotation core => Sys2Proof.Machine.execCloseRootRotation core s
  | .massRewrap core => Sys2Proof.Machine.execMassRewrap core s
  | .suspendOrResumeKey core => Sys2Proof.Machine.execSuspendOrResumeKey core s
  | .purgeTenant core => Sys2Proof.Machine.execPurgeTenant core s
  | .keyInformation core => Sys2Proof.Machine.execKeyInformation core s
  | .pinTranslateZoneToZone core => Sys2Proof.Machine.execPinTranslateZoneToZone core s
  | .pinTranslateDukptToZone core => Sys2Proof.Machine.execPinTranslateDukptToZone core s
  | .pinVerifyOffset core => Sys2Proof.Machine.execPinVerifyOffset core s
  | .pinOffsetGenerate core => Sys2Proof.Machine.execPinOffsetGenerate core s
  | .pinVerifyVerificationValue core => Sys2Proof.Machine.execPinVerifyVerificationValue core s
  | .pinVerificationValueGenerate core => Sys2Proof.Machine.execPinVerificationValueGenerate core s
  | .pinTranslateZoneToDukpt core => Sys2Proof.Machine.execPinTranslateZoneToDukpt core s
  | .cardVerificationValueGenerate core => Sys2Proof.Machine.execCardVerificationValueGenerate core s
  | .cardVerificationValueVerify core => Sys2Proof.Machine.execCardVerificationValueVerify core s
  | .arqcVerify core => Sys2Proof.Machine.execArqcVerify core s
  | .arqcVerifyAndArpcGenerate core => Sys2Proof.Machine.execArqcVerifyAndArpcGenerate core s
  | .encryptData core => Sys2Proof.Machine.execEncryptData core s
  | .decryptData core => Sys2Proof.Machine.execDecryptData core s
  | .macGenerate core => Sys2Proof.Machine.execMacGenerate core s
  | .macVerify core => Sys2Proof.Machine.execMacVerify core s
  | .rsaKeyGeneration core => Sys2Proof.Machine.execRsaKeyGeneration core s
  | .rsaSign core => Sys2Proof.Machine.execRsaSign core s
  | .rsaVerify core => Sys2Proof.Machine.execRsaVerify core s
  | .rsaDecrypt core => Sys2Proof.Machine.execRsaDecrypt core s
  | .rsaEncrypt core => Sys2Proof.Machine.execRsaEncrypt core s
  | .ecKeyGeneration core => Sys2Proof.Machine.execEcKeyGeneration core s
  | .ecdsaSign core => Sys2Proof.Machine.execEcdsaSign core s
  | .ecdsaVerify core => Sys2Proof.Machine.execEcdsaVerify core s
  | .ecdhToNewSlot core => Sys2Proof.Machine.execEcdhToNewSlot core s
  | .eddsaKeyGeneration core => Sys2Proof.Machine.execEddsaKeyGeneration core s
  | .eddsaSign core => Sys2Proof.Machine.execEddsaSign core s
  | .eddsaVerify core => Sys2Proof.Machine.execEddsaVerify core s
  | .publicKeyImport core => Sys2Proof.Machine.execPublicKeyImport core s
  | .mlKemKeyGeneration core => Sys2Proof.Machine.execMlKemKeyGeneration core s
  | .mlKemEncapsulate core => Sys2Proof.Machine.execMlKemEncapsulate core s
  | .mlKemDecapsulate core => Sys2Proof.Machine.execMlKemDecapsulate core s
  | .mlDsaKeyGeneration core => Sys2Proof.Machine.execMlDsaKeyGeneration core s
  | .mlDsaSign core => Sys2Proof.Machine.execMlDsaSign core s
  | .mlDsaVerify core => Sys2Proof.Machine.execMlDsaVerify core s
  | .digest core => Sys2Proof.Machine.execDigest core s
  | .retentionSign core => Sys2Proof.Machine.execRetentionSign core s
  | .lmsHssKeyGeneration core => Sys2Proof.Machine.execLmsHssKeyGeneration core s
  | .lmsHssVerify core => Sys2Proof.Machine.execLmsHssVerify core s
  | .random core => Sys2Proof.Machine.execRandom core s
  | .cancel function queue descriptor => Sys2Proof.Machine.execCancel function queue descriptor s
  | .writeConfigurationCopy core => Sys2Proof.Machine.execWriteConfigurationCopy core s
  | .mirrorConfigurationCopy core => Sys2Proof.Machine.execMirrorConfigurationCopy core s
  | .writeFirmwareImage core => Sys2Proof.Machine.execWriteFirmwareImage core s
  | .flashWriteReadbackEnd matched => Sys2Proof.Machine.execFlashWriteReadbackEnd matched s
  | .attest core => Sys2Proof.Machine.execAttest core s
  | .readCertificateChain core => Sys2Proof.Machine.execReadCertificateChain core s
  | .readEventLog core => Sys2Proof.Machine.execReadEventLog core s
  | .resetTenant core => Sys2Proof.Machine.execResetTenant core s
  | .keaborFactoryProgramming part deviceRoot calibration => Sys2Proof.Machine.execKeaborFactoryProgramming part deviceRoot calibration s
  | .lossOfVbat => Sys2Proof.Machine.execLossOfVbat s
  | .detectorQuiet source detector => Sys2Proof.Machine.execDetectorQuiet source detector s
  | .operatingSecond => Sys2Proof.Machine.execOperatingSecond s
  | .atrTimeout portB => Sys2Proof.Machine.execAtrTimeout portB s
  | .mbxOtherTypeIgnored function message => Sys2Proof.Machine.execMbxOtherTypeIgnored function message s
  | .vfEnableSet numVfs => Sys2Proof.Machine.execVfEnableSet numVfs s

end Sys2Proof.Machine
end

