-- ==== Sys2Proof/WellFormed.lean ====
section
/-! DEFINITION. Well-formed commands: every operand that numbers a unit, a function, a queue or a source lies in the
range the specification gives it. -/

namespace Sys2Proof

/-- A core of one of 8 benches of 16 (01 R12, R13). -/
def CoreRef.wf (c : CoreRef) : Bool := decide (c.bench < 8) && decide (c.core < 16)
/-- A tamper source T0 to T15 (17 R579). -/
def sourceWf (n : Nat) : Bool := decide (n < 16)
/-- A bench (01 R12). -/
def benchWf (b : Nat) : Bool := decide (b < 8)
/-- A function of 12 R419: the PF or a virtual function 1 to 255. -/
def functionWf (f : Nat) : Bool := decide (f < 256)
/-- A queue pair of 12 R426. -/
def queueWf (f q : Nat) : Bool := functionWf f && decide (q < 16)
/-- Engines of a kind in a bench (01 R13). -/
def engineWf (k : EngineKind) (n : Nat) : Bool :=
  decide (n < match k with | .marver => 8 | .cipher => 4 | .punty => 2)
/-- A mailbox message has a header of 8 bytes and at most 256 bytes in all (12 R439). -/
def messageWf (m : Bytes) : Bool := decide (8 ≤ m.length) && decide (m.length ≤ 256)
/-- A byte string of an exact length. -/
def lenWf (n : Nat) (bs : Bytes) : Bool := decide (bs.length = n)
/-- A region with a number: a bench region carries one of 8. -/
def Region.wf : Region → Bool
  | .bench b => benchWf b
  | .keyStore => true
  | .custody => true
  | .path _ => true
  | .host => true
  | .nvm => true

/-- A memory area belongs to one of 8 benches. -/
def SharedObject.wf : SharedObject → Bool
  | .firmwareArea b => benchWf b
  | .dataArea b => benchWf b
  | _ => true

/-- The check of a command: an ill-formed term names no event of the hardware. -/
def Instr.wf : Instr → Bool
  | .rollCallReport b _ => benchWf b
  | .voltageSample mv => decide (mv.length = 14)
  | .temperatureSample a b => decide (a.length = 14) && decide (b.length = 14)
  | .handshakeTimeout r f _ => r.wf && f.wf
  | .lateAcknowledge r f => r.wf && f.wf
  | .heartbeatAcknowledge r => r.wf
  | .tickLossDetected r => r.wf
  | .handshakeMessageTimeout n => decide (n < 65536)
  | .rekeyWindowEnd n => decide (n < 65536)
  | .rekeyDueTimer n => decide (n < 65536)
  | .sessionIdleTimeout n => decide (n < 65536)
  | .sqTailDoorbell f q _ => queueWf f q
  | .cqHeadDoorbell f q _ => queueWf f q
  | .descriptorFetch f q d l _ => queueWf f q && (lenWf 64 d || lenWf 32 d) && (lenWf 32 l || lenWf 0 l)
  | .hostReadFailure _ f q _ => queueWf f q
  | .coalesceTimerExpiry f q => queueWf f q
  | .intEnableSet f q => queueWf f q
  | .queueEnableWrite f q _ => queueWf f q
  | .mbxFunctionInfo f m => functionWf f && messageWf m
  | .mbxRelayToManager f m => functionWf f && messageWf m
  | .mbxRelayToVf m => messageWf m
  | .mbxOutValidClear f => functionWf f
  | .functionEnable f => functionWf f
  | .functionDisable f => functionWf f
  | .quiesceSet f => functionWf f
  | .quiesceClear f => functionWf f
  | .functionLevelReset f => functionWf f
  | .drainEnd f => functionWf f
  | .acuRegionWrite f r w _ => functionWf f && decide (r < 32) && decide (w < 4)
  | .pringConsWrite f _ => functionWf f
  | .coreWorkRequest c => c.wf
  | .checkVerdict c _ => c.wf
  | .lockstepPartnerTimeout c => c.wf
  | .stageOut c _ => c.wf
  | .coreSelftestEnd c _ => c.wf
  | .arbiterRequest c k _ => c.wf && decide (k < 6)
  | .grantRelease c k _ _ => c.wf && decide (k < 6)
  | .overHoldCutoff c k _ _ => c.wf && decide (k < 6)
  | .marverOperationEnd c a b _ => c.wf && engineWf .marver a && engineWf .marver b
  | .engineBlockCompare c k n _ => c.wf && engineWf k n
  | .periodicKatWithdrawal b => benchWf b
  | .engineKatEnd b k n _ => benchWf b && engineWf k n
  | .keyLookup c p _ => c.wf && decide (p < 2)
  | .tagVerdict c p => c.wf && decide (p < 2)
  | .benchRowConversionEnd b => benchWf b
  | .sweepStep n => decide (n < 4)
  | .gatherWindowEnd n bits => sourceWf n && decide (bits.length = 1024)
  | .conditionedBlock n => sourceWf n
  | .reseedTimerExpiry b => benchWf b
  | .sourceWakeTestEnd n _ => sourceWf n
  | .detectorTrip n _ => sourceWf n
  | .tripFuseBurn n => sourceWf n
  | .analogPairMismatch n _ => sourceWf n
  | .sourceClear n => sourceWf n
  | .alarmStretchEnd n => sourceWf n
  | .nightMeshCheck n _ => sourceWf n
  | .detectorQuiet n _ => sourceWf n
  | .tamperDisableBurn n => sourceWf n
  | .requestDusk c => c.wf
  | .prepareNight c => c.wf
  | .abandonNightPreparation c => c.wf
  | .setAutomaticDusk c => c.wf
  | .closeDebugLevel c => c.wf
  | .tapOpen l => decide (l < 4)
  | .mrvSelftestStart b _ => benchWf b
  | .cipSelftestStart b _ => benchWf b
  | .digSelftestStart b _ => benchWf b
  | .digCacheFlush b => benchWf b
  | .counterLowWordRead _ f _ => functionWf f
  | .registerWrite a _ _ => match a with
    | .function f => functionWf f
    | .region r => r.wf
    | .object r o => r.wf && o.wf
  | .lock c => c.wf
  | .openQuorum c => c.wf
  | .presentCard c _ => c.wf
  | .abandonQuorum c => c.wf
  | .custodyInformation c => c.wf
  | .retireWithoutQuorum c => c.wf
  | .generateSymmetricKey c => c.wf
  | .importKeyBlock c => c.wf
  | .exportKeyBlock c => c.wf
  | .restorePersistenceBlock c => c.wf
  | .deleteKey c => c.wf
  | .componentSessionBegin c => c.wf
  | .componentAdd c _ => c.wf
  | .componentComplete c => c.wf
  | .deriveKey c => c.wf
  | .exportUnderPublicKey c => c.wf
  | .importUnderPrivateKey c => c.wf
  | .openRootRotation c => c.wf
  | .closeRootRotation c => c.wf
  | .massRewrap c => c.wf
  | .suspendOrResumeKey c => c.wf
  | .purgeTenant c => c.wf
  | .keyInformation c => c.wf
  | .pinTranslateZoneToZone c => c.wf
  | .pinTranslateDukptToZone c => c.wf
  | .pinVerifyOffset c => c.wf
  | .pinOffsetGenerate c => c.wf
  | .pinVerifyVerificationValue c => c.wf
  | .pinVerificationValueGenerate c => c.wf
  | .pinTranslateZoneToDukpt c => c.wf
  | .cardVerificationValueGenerate c => c.wf
  | .cardVerificationValueVerify c => c.wf
  | .arqcVerify c => c.wf
  | .arqcVerifyAndArpcGenerate c => c.wf
  | .encryptData c => c.wf
  | .decryptData c => c.wf
  | .macGenerate c => c.wf
  | .macVerify c => c.wf
  | .rsaKeyGeneration c => c.wf
  | .rsaSign c => c.wf
  | .rsaVerify c => c.wf
  | .rsaDecrypt c => c.wf
  | .rsaEncrypt c => c.wf
  | .ecKeyGeneration c => c.wf
  | .ecdsaSign c => c.wf
  | .ecdsaVerify c => c.wf
  | .ecdhToNewSlot c => c.wf
  | .eddsaKeyGeneration c => c.wf
  | .eddsaSign c => c.wf
  | .eddsaVerify c => c.wf
  | .publicKeyImport c => c.wf
  | .mlKemKeyGeneration c => c.wf
  | .mlKemEncapsulate c => c.wf
  | .mlKemDecapsulate c => c.wf
  | .mlDsaKeyGeneration c => c.wf
  | .mlDsaSign c => c.wf
  | .mlDsaVerify c => c.wf
  | .digest c => c.wf
  | .retentionSign c => c.wf
  | .lmsHssKeyGeneration c => c.wf
  | .lmsHssVerify c => c.wf
  | .random c => c.wf
  | .cancel f q d => queueWf f q && (lenWf 64 d || lenWf 32 d)
  | .writeConfigurationCopy c => c.wf
  | .mirrorConfigurationCopy c => c.wf
  | .writeFirmwareImage c => c.wf
  | .attest c => c.wf
  | .readCertificateChain c => c.wf
  | .readEventLog c => c.wf
  | .resetTenant c => c.wf
  | .keaborFactoryProgramming p r c => (decide (p = 1280) || decide (p = 640) || decide (p = 320)) && lenWf 32 r &&
    decide (c.gatherTrims.length = 16)
  | .mbxOtherTypeIgnored f m => functionWf f && messageWf m
  | .vfEnableSet n => decide (n ≤ 255)
  | _ => true

end Sys2Proof
end

