-- ==== Sys2Proof/Safety.lean ====
section
/-! DEFINITION. The terms in which the statements about the machine are put: a command that completes with its own
effect, what never goes back, and the forms that tables keep. -/

namespace Sys2Proof.Machine

/-- The command answers a next state in which the queue of waiting commands is as before, and the device is as stated. -/
def Completes (c : Instr) (s : State) (P : Device → Prop) : Prop := ∃ d, exec c s = .next { s with dev := d } ∧ P d

/-- Fuses only burn: no thermometer falls, Issued, Retired and the disable fuses stay once burned (16 R551, R552). -/
def fusesRise (a b : Fuses) : Prop :=
  (∀ f, thermVal (fuseGet f a) ≤ thermVal (fuseGet f b)) ∧ (a.issued = true → b.issued = true) ∧ (a.retired = true → b.retired = true) ∧
  ∀ n, a.tamperDisable.getLsbD n = true → b.tamperDisable.getLsbD n = true

/-- No two jobs carry one identifier, and every identifier lies below the next to be given. -/
def jobsDistinct (d : Device) : Prop := (d.gaffer.jobs.map (·.id)).Nodup ∧ ∀ j ∈ d.gaffer.jobs, j.id < d.gaffer.nextJob

/-- What no command takes back or breaks: burned fuses, random bytes already drawn, transfers that have left the part, and
that no two jobs carry one identifier. -/
def rises (a b : Device) : Prop :=
  fusesRise a.fuses b.fuses ∧ a.draws ≤ b.draws ∧ a.out <+: b.out ∧ (jobsDistinct a → jobsDistinct b)

/-- The two detectors' outputs of a source. -/
def detectorHigh (n : Nat) (det : Detector) (d : Device) : Bool :=
  match det with
  | .detA => (sourceOf n d).detA
  | .detB => (sourceOf n d).detB

/-- HTL takes a frame of a type from a path: the path hears and serves, the link rules and the path's own check pass. -/
def htlHears (type : Byte) (isB : Bool) (f : Frame) (d : Device) : Prop :=
  pathHears isB d = true ∧ (pathOf isB d).offline = false ∧ linkOk isB f d = true ∧ htlOn d = true ∧
  f.header.version = 0x01 ∧ f.header.type = type ∧ f.link.pathCheckFails = false

/-- The session table accepts what the path that holds authority writes (13 R488). -/
def tableTakes (d : Device) : Prop := d.net.highClaim ≤ (pathOf (authorityB d.net) d).claim

/-- A traffic frame is authentic under the key `ks` of its session `x`, the ingress bridge has room and the admission stage works. -/
def htlAuthentic (type : Byte) (isB : Bool) (f : Frame) (x : Session) (ks : Bytes) (d : Device) : Prop :=
  htlHears type isB f d ∧ namedSession f d = some x ∧ keyFor d (sessionIndex f) x true f.header.epoch = some ks ∧ frameOk ks f = true ∧
  (pathOf isB d).ingress < bridgeDepth .ingress + f.link.crossed ∧ d.keys.halted = false
/-- Its number is admitted now. -/
def htlAdmits (type : Byte) (isB : Bool) (f : Frame) (x : Session) (ks : Bytes) (d : Device) : Prop :=
  htlAuthentic type isB f x ks d ∧ x.state ≠ .closing ∧ admits x f.header.seq.toNat = true

/-- The session after the frame: its address and number noted; closing once a direction has used an epoch up. -/
def htlSession (isB : Bool) (f : Frame) (x : Session) (d : Device) : Session :=
  let y := settleEpoch f.header.epoch (admitSeq f.header.seq.toNat { learn isB f.link.source x with lastFrame := d.time.ticks })
  if inUse y && exhausted y then { y with state := .closing } else y

/-- The device once a traffic frame has come through the ingress bridge: one frame received, its address noted. -/
def htlCrossed (isB : Bool) (f : Frame) (x : Session) (d : Device) : Device :=
  enterBridge isB (crossBridge isB f.link.crossed
    (setSession (sessionIndex f) { learn isB f.link.source x with lastFrame := d.time.ticks } (netCount isB 0 d)))
/-- The device once it is admitted. -/
def htlTaken (isB : Bool) (f : Frame) (x : Session) (d : Device) : Device := admitOnce (sessionIndex f) f (htlCrossed isB f x d)

/-! ### Verbs on a core -/

/-- A verb's row finds its job on the core, its saved state in the core's bench, its keys fetched and sound, and every check of Decode and
Check passed (04 R735, R736). -/
def verbChecked (op : BitVec 16) (v : Verb) (c : CoreRef) (j : Job) (d : Device) : Prop :=
  verbJob op c d = some j ∧ stateHere (lead c d) j = true ∧ keysMissing v d j = [] ∧ unsound v d j = none ∧ verbCode v d j = 0
/-- Its last step has come on the engines that it needs, which have processed its data; a job in safe mode has run its first half. -/
def verbDue (op : BitVec 16) (v : Verb) (c : CoreRef) (j : Job) (d : Device) : Prop :=
  verbChecked op v c j d ∧ lastOf v d j = true ∧ enginesMissing (lead c d) j d = [] ∧ blocksDone v d j = true ∧
  (j.safeMode = true → j.half = true)
/-- The random bytes that the last step still uses, and all that it uses: those that an earlier step kept stand first. -/
def stepDraw (v : Verb) (j : Job) (d : Device) : Nat := v.draws d j - (kept v d j).length
def stepBytes (v : Verb) (j : Job) (d : Device) : Bytes := kept v d j ++ j.drawn.take (stepDraw v j d)
/-- They stand in core local memory, where the release of the bench generator's grant left them; an input that the verb forms with them passes
its check; and they give a result. -/
def bytesDrawn (v : Verb) (j : Job) (d : Device) : Prop :=
  (stepDraw v j d = 0 ∨ drawnEnough v (stepDraw v j d) j = true) ∧
  (v.early d j = 0 ∨ j.step ≠ 0 ∨ v.late d j (j.drawn.take (v.early d j)) = 0) ∧ (v.run d j (stepBytes v j d)).redo = false
def verbReady (op : BitVec 16) (v : Verb) (c : CoreRef) (j : Job) (d : Device) : Prop := verbDue op v c j d ∧ bytesDrawn v j d

/-- A job's staged result has changed, and nothing else but what the benches note: keys, fuses, journals and quorums change at the
Retire or not at all. -/
def stagedOnly (j : Job) (st : Staged) (a d : Device) : Prop :=
  jobOf j.id d = some { j with staged := some st } ∧ (∀ i, i ≠ j.id → jobOf i d = jobOf i a) ∧
  d = { a with gaffer := { a.gaffer with jobs := d.gaffer.jobs }, benches := d.benches }
/-- The result that the verb computes from its job and its random bytes is staged. -/
def resultStaged (v : Verb) (j : Job) (a d : Device) : Prop := stagedOnly j (v.run a j (stepBytes v j a)) a d

/-- A verb that draws and has drawn nothing yet draws under the kind-4 grant that its core holds, which ends, and stages its result on
what the generator delivered (05 R175, R181; 09 R316). -/
def VerbDraws (op : BitVec 16) (v : Verb) (mk : CoreRef → Instr) (part : Device → Prop) : Prop :=
  ∀ (c : CoreRef) (j k : Job) (g : Grant) (s : State), part s.dev → verbDue op v c j s.dev → v.draws s.dev j ≠ 0 → v.early s.dev j = 0 → v.fresh j = false →
    j.drawn = [] → s.dev.gather.service = true → heldGrant (lead c s.dev) 4 (fun _ => true) s.dev = some g → g.job = j.id →
    let n := v.draws s.dev j
    let e := releaseGrant g (blocksOf n) s.dev
    jobOf j.id e = some k → n ≤ k.drawn.length → v.fresh k = false → (v.run e k (k.drawn.take n)).redo = false →
    Completes (mk c) s (stagedOnly k (v.run e k (k.drawn.take n)) e)

/-- A check that fails stages its code alone, whatever the keys or the drawn bytes; the first half of a step in safe mode stages no result,
and a step before the last keeps what Check drew and stages that another follows. -/
def VerbRefuses (op : BitVec 16) (v : Verb) (mk : CoreRef → Instr) (part : Device → Prop) : Prop :=
  ∀ (c : CoreRef) (j : Job) (s : State), part s.dev → verbJob op c s.dev = some j →
    let stages := fun (st : Staged) => Completes (mk c) s (stagedOnly j st s.dev)
    (decodeCode v s.dev j ≠ 0 → stages { code := decodeCode v s.dev j, checked := true }) ∧
    (decodeCode v s.dev j = 0 → stateHere (lead c s.dev) j = true → keysMissing v s.dev j = [] → unsound v s.dev j = none →
      (gatedCode v s.dev j ≠ 0 → stages { code := gatedCode v s.dev j, checked := true }) ∧
      (gatedCode v s.dev j = 0 → (checkDraw v s.dev j = 0 ∨ drawnEnough v (checkDraw v s.dev j) j = true) →
        (v.early s.dev j ≠ 0 → j.step = 0 → v.late s.dev j (j.drawn.take (v.early s.dev j)) ≠ 0 →
          stages { code := v.late s.dev j (j.drawn.take (v.early s.dev j)), checked := true }) ∧
        ((v.early s.dev j = 0 ∨ j.step ≠ 0 ∨ v.late s.dev j (j.drawn.take (v.early s.dev j)) = 0) →
          enginesMissing (lead c s.dev) j s.dev = [] → blocksDone v s.dev j = true →
          (j.safeMode = true → j.half = false → stages { half := true }) ∧
          ((j.safeMode = true → j.half = true) → lastOf v s.dev j = false →
            stages { more := true, state := earlyBytes v s.dev j }))))

/-- Both, on the parts named: where the verb's row does not stage a result that stands ready. -/
def VerbWaits (op : BitVec 16) (v : Verb) (mk : CoreRef → Instr) (part : Device → Prop := fun _ => True) : Prop :=
  VerbDraws op v mk part ∧ VerbRefuses op v mk part

end Sys2Proof.Machine
end

