-- ==== Sys2Proof/Certificates/Slice0/Obligations.lean ====
section
/-! DEFINITION. The statements for the provers. `Completes c s P` says that `exec c s` answers a next state whose queue is
that of `s` and whose device satisfies `P`; an equation for the device, or an equation in which only the fields named vary,
is at the same time the frame of the command. -/

open Sys2Proof Sys2Proof.Machine

/-! ### The machine -/

/-- A step takes the command at the front of the queue and runs it with the queue's rest. -/
def Obligations.StepRunsTheFrontCommand : Prop :=
  ∀ (c : Instr) (rest : List Instr) (s : State), step { s with pending := c :: rest } = exec c { s with pending := rest }

/-- Every command answers a next state and leaves the queue as it is: the block has no fault and no refusal of its own. On an empty queue the block idles (the model's choice: log entry 1). -/
def Obligations.EveryStepAnswersANextState : Prop :=
  (∀ (c : Instr) (s : State), Completes c s (fun _ => True)) ∧
  (∀ d : Device, step { pending := [], dev := d } = .next { pending := [], dev := d })

/-- What reset leaves of the registers to which the specification gives a value. -/
def Obligations.ResetHoldsTheSpecifiedValues : Prop :=
  let d := State.reset.dev
  State.reset.pending = [] ∧
  -- 14 R520, 15 R549: start and configuration registers
  cusStart d = 0 ∧ d.start.time = 0 ∧ d.start.trace = [] ∧ d.flash.selected = 0 ∧ d.flash.fwSlot = 0 ∧ d.flash.wrResult = 0 ∧
  -- 03 R128, 04 R173, 05 R196: key store, Gaffer, shares
  d.keys.remaskInterval = 0x18 ∧ d.keys.remaskActive = false ∧ d.keys.cursor = 0 ∧ d.keys.completed = 0 ∧
  d.gaffer.ready = false ∧ d.gaffer.traceIdx = 0 ∧ d.shares.limitUs = 0x14 ∧ d.shares.sel = 0 ∧ d.time.window = 0 ∧
  -- 12 R458, 13 R496: host and network
  d.host.pfDefault = true ∧ d.host.faultValid = false ∧ d.net.a.dupCount = 0 ∧ d.net.b.dupCount = 0 ∧
  -- 19 R648, 22 R710: recorder, power, debug
  d.events.alertMin = 3 ∧ d.events.hostNotify = false ∧ d.events.ring = [] ∧ d.power.mode = .noon ∧ d.power.level = .closed ∧
  d.power.refusedCount = 0

/-! ### Reset, straps and start (14) -/

/-- RELEASE_OF_RESET completes from every state whose reset inputs are not all high: it samples the straps, sets the watch count
and the window number to 0 and the trim to the fused code (14 R497 to R499; 02 R734, R42; 05 R180), and begins a start in which
every bench of the part is present in its reset state; fuses, battery domain, journals and log are kept, every other region is
in its reset state, and nothing leaves the part. -/
def Obligations.ReleaseOfResetBeginsAStart : Prop :=
  ∀ (straps : BitVec 12) (s : State), outOfReset s.dev = false →
    Completes (.releaseOfReset straps) s (fun d =>
      d.pins.strapSampled = straps ∧ d.pins.strapLive = straps ∧ d.pins.strapChanged = false ∧ outOfReset d = true ∧
      d.time.ticks = 0 ∧ d.time.window = 0 ∧ d.time.trim = s.dev.fuses.watchTrim ∧ cusStart d = 0 ∧ d.start = {} ∧
      d.fuses = s.dev.fuses ∧ d.battery = s.dev.battery ∧ d.flash.log = s.dev.flash.log ∧ d.flash.roots = s.dev.flash.roots ∧
      d.flash.ceilings = s.dev.flash.ceilings ∧
      d.benches.map (·.1) = List.range (partBenches s.dev.fuses.part) ∧
      (∀ p ∈ d.benches, p.2 = emptyBench) ∧ d.gather.sources = emptySources s.dev.fuses ∧
      d.custody = {} ∧ d.keys = {} ∧ d.gaffer = {} ∧ d.shares = {} ∧ d.net = {} ∧ d.host = {} ∧ d.events = {} ∧ d.power = {} ∧
      d.draws = s.dev.draws ∧ d.out = s.dev.out)

/-- A reset input low: every region but the battery domain is in its reset state; fuses, battery domain, journals and log
area are kept, and the input reads low. -/
def Obligations.ResetAssertedKeepsOnlyFusesBatteryAndFlash : Prop :=
  ∀ (pin : ResetPin) (s : State),
    Completes (.resetAsserted pin) s (fun d =>
      outOfReset d = false ∧ d.pins.pwrOk = (s.dev.pins.pwrOk && pin != .pwrOk) ∧ d.pins.rstN = (s.dev.pins.rstN && pin != .rstN) ∧
      d.pins.perstN = s.dev.pins.perstN ∧ d.pins.mainOn = s.dev.pins.mainOn ∧
      d.fuses = s.dev.fuses ∧ d.battery = s.dev.battery ∧ d.flash.log = s.dev.flash.log ∧ d.flash.roots = s.dev.flash.roots ∧
      d.flash.ceilings = s.dev.flash.ceilings ∧ d.keys = {} ∧ d.gaffer = {} ∧ d.net = {} ∧ d.events = {} ∧ d.host = {} ∧ d.benches = [] ∧
      d.shares = {} ∧ d.power = {} ∧ d.custody = {} ∧ d.gather = {} ∧ d.start = {} ∧ d.out = s.dev.out)

/-- The power-cycle count rises by one at the beginning of the custody phase of a start, and saturates. -/
def Obligations.CustodyPhaseCountsThePowerCycle : Prop :=
  ∀ (found : PhaseFindings) (s : State), starting s.dev = true → s.dev.start.phase = 0 → startPaused s.dev = false →
    Completes (.startPhaseEnd found) s (fun d =>
      d.battery.cycles = (if s.dev.battery.cycles = BitVec.allOnes 32 then BitVec.allOnes 32 else s.dev.battery.cycles + 1) ∧
      d.start.phase = 1 ∧ d.fuses = s.dev.fuses ∧ d.keys = s.dev.keys ∧ d.gaffer = s.dev.gaffer ∧ d.net = s.dev.net)

/-- A reserved strap value, STRAP_NVM or STRAP_PCIE at 11, stops start with cause 0x0A. -/
def Obligations.ReservedStrapStopsStart : Prop :=
  ∀ (found : PhaseFindings) (s : State), starting s.dev = true → s.dev.start.phase = 0 → startPaused s.dev = false →
    (s.dev.pins.strapSampled.extractLsb' 9 2 = 3 ∨ s.dev.pins.strapSampled.extractLsb' 7 2 = 3) →
    Completes (.startPhaseEnd found) s (fun d =>
      d.start.stopped = true ∧ d.start.cause = 0x0A ∧ d.start.done = false ∧ alarmLow d = true ∧ starting d = false)

/-- The strap, PERST_N and start events outside the phases' own work:
a strap change reports the live value and, when it is the first since sampling that differs, sets CUS_STRAP.changed (14 R500);
PERST_N falls and rises (14 R502, R514); re-initialisation of the host region ends its retry status (14 R515); a crystal that
did not start stops start with cause 0x01, and a phase other than 6 and 9 beyond its bound with 0x09 (14 R517); the report of
a bench at roll-call takes the bench into service when its digest matched and every core passed (14 R509). -/
def Obligations.StartEventsTakeEffect : Prop :=
  (∀ live s, Completes (.strapChanged live) s (fun d =>
      d.pins.strapLive = live ∧ d.pins.strapSampled = s.dev.pins.strapSampled ∧
      (outOfReset s.dev = true → live ≠ s.dev.pins.strapSampled → d.pins.strapChanged = true) ∧
      d.fuses = s.dev.fuses ∧ d.battery = s.dev.battery ∧ d.gaffer = s.dev.gaffer ∧ d.keys = s.dev.keys)) ∧
  (∀ s, Completes .perstNAsserted s (fun d =>
      d.pins.perstN = false ∧ d.pins.pfAnswer = .silent ∧ d.net = s.dev.net ∧ d.fuses = s.dev.fuses ∧ d.battery = s.dev.battery ∧
      d.keys = s.dev.keys)) ∧
  (∀ s, s.dev.pins.perstN = false → outOfReset s.dev = true →
      exec .perstNDeasserted s = .next { s with dev := { s.dev with
        pins := { s.dev.pins with perstN := true, perstRise := some s.dev.time.ticks } } }) ∧
  (∀ s, outOfReset s.dev = true → started s.dev = true → s.dev.pins.perstN = true → s.dev.pins.pfAnswer = .retry →
      exec .hostRegionReinitEnd s = .next { s with dev := { s.dev with pins := { s.dev.pins with pfAnswer := .normal } } }) ∧
  (∀ s, starting s.dev = true → s.dev.start.phase = 1 → s.dev.time.marks.length < 2 →
      s.dev.start.phaseSince + 100 * msTicks ≤ s.dev.time.ticks →
      Completes .crystalStartTimeout s (fun d => d.start.stopped = true ∧ d.start.cause = 0x01 ∧ d.fuses = s.dev.fuses ∧
        d.battery = s.dev.battery ∧ alarmLow d = true)) ∧
  (∀ s, starting s.dev = true → 1 ≤ s.dev.start.phase → s.dev.start.phase ≠ 6 → s.dev.start.phase ≠ 9 →
      s.dev.start.excursion = false → s.dev.start.breached = false →
      s.dev.start.phaseSince + msTicks * phaseBoundMs s.dev.fuses.part (strapBits s.dev 9 2) s.dev.start.phase < s.dev.time.ticks →
      Completes .startPhaseBoundExceeded s (fun d => d.start.stopped = true ∧ d.start.cause = 0x09 ∧ d.fuses = s.dev.fuses ∧
        d.battery = s.dev.battery ∧ alarmLow d = true)) ∧
  (∀ b r s, starting s.dev = true → s.dev.start.phase = 6 → (tabGet b s.dev.benches).isSome = true → (benchOf b s.dev).fenced = false →
      s.dev.start.reported.contains b = false → r.digestOk = true →
      (List.range 16).all (coreFails (izvi s.dev) r.failedCores) = false →
      Completes (.rollCallReport b r) s (fun d => (benchOf b d).inService = true ∧ (benchOf b d).lehr.ready = true ∧
        b ∈ d.start.reported ∧ d.fuses = s.dev.fuses ∧ d.battery = s.dev.battery ∧ d.keys = s.dev.keys))

/-! ### The fabric and its timebase (02) -/

/-- The watch advances by one tick at a time (02 R734); an edge of the crystal that comes in the tick is counted and dated (02 R46);
beside it only the answer of the PF to configuration requests (14 R514) and the note of idleness (22 R693) may change. -/
def Obligations.WatchTickAdvancesTheWatch : Prop :=
  ∀ (edge : Bool) (s : State), outOfReset s.dev = true →
    Completes (.watchTick edge) s (fun d => d.time.ticks = s.dev.time.ticks + 1 ∧
      (edge = false → d.time = { s.dev.time with ticks := s.dev.time.ticks + 1 }) ∧
      (edge = true → xtalOk d = true ∧ d.time = { s.dev.time with
        ticks := s.dev.time.ticks + 1, edges := s.dev.time.edges + 1, lastEdge := some (s.dev.time.ticks + 1), edgeLost := false
        marks := d.time.marks } ∧ (s.dev.start.phase ≠ 1 → d.time.marks = s.dev.time.marks)) ∧
      d = { s.dev with time := d.time, pins := { s.dev.pins with pfAnswer := d.pins.pfAnswer }
                       power := { s.dev.power with idleSince := d.power.idleSince } })

/-- Calibration against the crystal (02 R44 to R46): at the edge that ends a second of the crystal, 32,768 edges after the one before, the
watch count over it is compared with 32,000,000 ticks; within 1.0% the error is only noted, beyond it the trim moves one step, and beyond
3% T12 trips with its Excursion; so does the loss of crystal edges. -/
def Obligations.CalibrationFollowsTheCrystal : Prop :=
  (∀ (n : Nat) (s : State), outOfReset s.dev = true → s.dev.tamper.armed = true → s.dev.time.secondEdge + 32768 ≤ s.dev.time.edges →
    (31680000 ≤ secondCount s.dev → secondCount s.dev ≤ 32320000 →
      exec (.watchCalibrationSecond n) s = .next { s with dev := { s.dev with time := { s.dev.time with
        secondAt := s.dev.time.ticks, secondEdge := s.dev.time.secondEdge + 32768
        lastError := BitVec.ofInt 16 (countError 32000000 (secondCount s.dev)) } } }) ∧
    ((31040000 ≤ secondCount s.dev ∧ secondCount s.dev < 31680000 ∨ 32320000 < secondCount s.dev ∧ secondCount s.dev ≤ 32960000) →
      Completes (.watchCalibrationSecond n) s (fun d => d = { s.dev with time := d.time } ∧
        d.time.lastError = BitVec.ofInt 16 (countError 32000000 (secondCount s.dev)) ∧ d.time.adjust = satInc s.dev.time.adjust ∧
        d.time.ticks = s.dev.time.ticks ∧ d.time.secondAt = s.dev.time.ticks ∧ d.time.secondEdge = s.dev.time.secondEdge + 32768 ∧
        (decide (32320000 < secondCount s.dev) = Config.trimSlows → d.time.trim = satInc s.dev.time.trim) ∧
        (decide (32320000 < secondCount s.dev) ≠ Config.trimSlows → d.time.trim = if s.dev.time.trim = 0 then 0 else s.dev.time.trim - 1))) ∧
    (srcEnabled 12 s.dev = true → (secondCount s.dev < 31040000 ∨ 32960000 < secondCount s.dev) →
      Completes (.watchCalibrationSecond n) s (fun d => (sourceOf 12 d).state = .tripped ∧ (sourceOf 12 d).detA = true ∧
        d.time.adjust = satInc s.dev.time.adjust ∧ d.time.secondAt = s.dev.time.ticks))) ∧
  (∀ s : State, outOfReset s.dev = true → s.dev.tamper.armed = true → xtalOk s.dev = false → s.dev.time.edgeLost = false →
    srcEnabled 12 s.dev = true →
    Completes .crystalEdgeLoss s (fun d => d.time = { s.dev.time with edgeLost := true } ∧ (sourceOf 12 d).state = .tripped ∧
      (sourceOf 12 d).detA = true))

/-- Samples of supplies and temperatures (02 R53, R54; 04 R156; 17 R596): each is kept beside the one before it; the supplies
set the speed code of every bench; a supply of a watched bench outside 0.67 V to 0.98 V in two consecutive samples trips T6, and
a junction outside -27 °C to 112 °C in two consecutive samples trips T9. -/
def Obligations.SamplesAreKeptAndTrip : Prop :=
  (∀ (mv : List Nat) (s : State), outOfReset s.dev = true → s.dev.time.ticks % 64 = 0 → s.dev.tamper.voltsAt ≠ some s.dev.time.ticks →
    Completes (.voltageSample mv) s (fun d => d.tamper.volts = mv ∧ d.tamper.prevVolts = s.dev.tamper.volts ∧
      d.tamper.voltsAt = some s.dev.time.ticks ∧ d.fuses = s.dev.fuses ∧ d.time = s.dev.time ∧
      (∀ b x, tabGet b d.benches = some x →
        x.lehr.speed = speedCode ((mv[b]?).getD 850 : Nat) ((s.dev.tamper.diode[b]?).getD 60)) ∧
      (s.dev.tamper.armed = true → srcEnabled 6 s.dev = true → (∃ r < 8, watched s.dev r = true ∧
          ∃ v w, s.dev.tamper.volts[r]? = some v ∧ mv[r]? = some w ∧ supplyOut v = true ∧ supplyOut w = true) →
        (sourceOf 6 d).detA = true ∧ (sourceOf 6 d).state = .tripped))) ∧
  (∀ (a b : List Int) (s : State), outOfReset s.dev = true → s.dev.time.ticks % 32000 = 0 →
    s.dev.tamper.diodeAt ≠ some s.dev.time.ticks →
    Completes (.temperatureSample a b) s (fun d => d.tamper.diode = a ∧ d.tamper.oscillator = b ∧
      d.tamper.prevDiode = s.dev.tamper.diode ∧ d.tamper.prevOscillator = s.dev.tamper.oscillator ∧
      d.fuses = s.dev.fuses ∧ d.time = s.dev.time ∧
      (s.dev.tamper.armed = true → srcEnabled 9 s.dev = true → (∃ r < 14, watched s.dev r = true ∧
          ∃ v w, s.dev.tamper.diode[r]? = some v ∧ a[r]? = some w ∧ hotOrCold v = true ∧ hotOrCold w = true) →
        (sourceOf 9 d).detA = true ∧ (sourceOf 9 d).state = .tripped)))

/-- Silent regions (02 R59 to R63, R741): a region that has not acknowledged a request of any other region for 1,600 ticks is declared
silent: the NVM interface region, the host interface, a path or a bench is fenced, and a silent key store region trips T14, detector B
where the custody partition found it; a late acknowledge is discarded; a heartbeat acknowledged in time is raised again at once; a region
that lost its ticks halts, T12 detector B trips, and with T12 in use it is not declared silent as well. -/
def Obligations.SilentRegionsAreFenced : Prop :=
  (∀ (q far : Region) (raised : Nat) (s : State), outOfReset s.dev = true → q ≠ far → regionAlive s.dev q = true →
    regionThere s.dev far = true → waited q far raised s.dev = true →
    (far = .keyStore ∨ regionHalted s.dev far = false ∨ srcEnabled 12 s.dev = false) →
    Completes (.handshakeTimeout q far raised) s (fun d => d.fuses = s.dev.fuses ∧
      (∀ b, far = .bench b → (benchOf b d).fenced = true) ∧ (∀ isB, far = .path isB → (pathOf isB d).fenced = true) ∧
      (far = .host → d.host.fenced = true) ∧ (far = .nvm → d.flash.fenced = true) ∧
      (far = .keyStore → s.dev.tamper.armed = true → srcEnabled 14 s.dev = true → (sourceOf 14 d).state = .tripped ∧
        (if q = .custody then (sourceOf 14 d).detB else (sourceOf 14 d).detA) = true))) ∧
  (∀ (q far : Region) (s : State), exec (.lateAcknowledge q far) s = .next s) ∧
  (∀ (r : Region) (s : State), outOfReset s.dev = true → regionThere s.dev r = true →
    (∃ p ∈ s.dev.custody.heartbeats, p.1 = r ∧ s.dev.time.ticks < p.2 + 1600) →
    exec (.heartbeatAcknowledge r) s = .next { s with dev := { s.dev with custody := { s.dev.custody with
      heartbeats := s.dev.custody.heartbeats.filter (fun p => p.1 ≠ r) ++ [(r, s.dev.time.ticks)] } } }) ∧
  (∀ (q far : Region) (raised : Nat) (s : State), far ≠ .keyStore → regionHalted s.dev far = true → srcEnabled 12 s.dev = true →
    exec (.handshakeTimeout q far raised) s = .next s) ∧
  (∀ (r : Region) (s : State), outOfReset s.dev = true → regionExists s.dev r = true → regionHalted s.dev r = false → r ≠ .custody →
    s.dev.tamper.armed = true → srcEnabled 12 s.dev = true →
    Completes (.tickLossDetected r) s (fun d => regionAlive d r = false ∧ (sourceOf 12 d).detB = true ∧ d.fuses = s.dev.fuses))

/-! ### Network paths (13) -/

/-- Address resolution: a request for an address of the path is answered, any other is a link-layer drop (13 R459, R461). The timers of a session (13 R471, R481, R483, R485). Links, offline and authority (13 R461, R491, R492, R496): the links go up and down; a path without authority goes offline
at once, which ends a hand-over to it; a permitted hand-over begins, and at its end the other path holds authority with the next claim. -/
def Obligations.PathsAnswerAndTimersRun : Prop :=
  ((∀ (isB : Bool) (l : LinkInfo) (s : State), pathHears isB s.dev = true → (pathOf isB s.dev).offline = false →
      vlanOk (pathOf isB s.dev) l = true → ownAddress (pathOf isB s.dev) false l.destIp = true →
      exec (.arpRequest isB l) s = .next { s with dev := { s.dev with
        out := s.dev.out ++ [.arpReply isB l.source (sentLink (pathOf isB s.dev)) (l.destIp.setWidth 32)] } }) ∧
    (∀ (isB : Bool) (l : LinkInfo) (s : State), pathHears isB s.dev = true → (pathOf isB s.dev).offline = false →
      vlanOk (pathOf isB s.dev) l = true → l.fragmentOrOptions = false → ownAddress (pathOf isB s.dev) true l.destIp = true →
      exec (.neighbourSolicitation isB l) s = .next { s with dev := { s.dev with
        out := s.dev.out ++ [.neighbourReply isB l.source (sentLink (pathOf isB s.dev)) l.destIp] } }) ∧
    (∀ (isB : Bool) (l : LinkInfo) (s : State), pathHears isB s.dev = true → ownAddress (pathOf isB s.dev) false l.destIp = false →
      exec (.arpRequest isB l) s = .next { s with dev := netCount isB 7 s.dev })) ∧
  ((∀ (i : Nat) (s : State), (sessionOf i s.dev).state = .handshake → (sessionOf i s.dev).acceptAt + 2 * secTicks ≤ s.dev.time.ticks →
      tableTakes s.dev → Completes (.handshakeMessageTimeout i) s (fun d => sessionOf i d = { gen := (sessionOf i s.dev).gen + 1 } ∧
        (∀ j, j ≠ i → sessionOf j d = sessionOf j s.dev) ∧ d = { s.dev with net := d.net, out := d.out })) ∧
    (∀ (i t : Nat) (s : State), (sessionOf i s.dev).rekeyAt = some t → t + 2 * secTicks ≤ s.dev.time.ticks →
      (sessionOf i s.dev).prevKeys ≠ none → tableTakes s.dev →
      Completes (.rekeyWindowEnd i) s (fun d => (sessionOf i d).prevKeys = none ∧ (sessionOf i d).rekeyAt = none ∧
        (sessionOf i d).keys = (sessionOf i s.dev).keys ∧ (sessionOf i d).state ≠ .rekeying ∧ d = { s.dev with net := d.net })) ∧
    (∀ (i : Nat) (s : State), ((sessionOf i s.dev).state = .established ∨ (sessionOf i s.dev).state = .rekeying) →
      (sessionOf i s.dev).epochStart + s.dev.net.rekeyS * secTicks ≤ s.dev.time.ticks →
      exec (.rekeyDueTimer i) s = .next { s with dev := setSession i { sessionOf i s.dev with rekeyDue := true } s.dev }) ∧
    (∀ (i : Nat) (s : State), (sessionOf i s.dev).state ≠ .free → (sessionOf i s.dev).state ≠ .handshake →
      (sessionOf i s.dev).lastFrame + s.dev.net.idleS * secTicks ≤ s.dev.time.ticks →
      tableTakes s.dev → Completes (.sessionIdleTimeout i) s (fun d => sessionOf i d = { gen := (sessionOf i s.dev).gen + 1 } ∧
        (∀ j, j ≠ i → sessionOf j d = sessionOf j s.dev) ∧ d = { s.dev with net := d.net }))) ∧
  ((∀ (isB : Bool) (s : State), outOfReset s.dev = true → pathAlive (pathOf isB s.dev) = true →
      exec (.linkUp isB) s = .next { s with dev := modPath isB (fun p => { p with linkUp := true }) s.dev }) ∧
    (∀ (isB : Bool) (s : State), outOfReset s.dev = true → pathAlive (pathOf isB s.dev) = true → (pathOf isB s.dev).linkUp = true →
      Completes (.linkDown isB) s (fun d => pathOf isB d = { pathOf isB s.dev with linkUp := false } ∧
        pathOf (!isB) d = pathOf (!isB) s.dev ∧ authorityB d.net = authorityB s.dev.net ∧ d = { s.dev with net := d.net, events := d.events })) ∧
    (∀ (isB : Bool) (s : State), started s.dev = true → pathAlive (pathOf isB s.dev) = true → (pathOf isB s.dev).offline = false →
      authorityB s.dev.net ≠ isB → s.dev.net.handover = none →
      exec (.pathOfflineWrite isB true) s = .next { s with dev := modPath isB (fun p => { p with offline := true }) s.dev }) ∧
    (∀ (isB : Bool) (s : State), started s.dev = true → pathAlive (pathOf isB s.dev) = true → (pathOf isB s.dev).offline = false →
      authorityB s.dev.net = !isB → s.dev.net.handover = some { fromB := !isB } → s.dev.net.heldHellos = [] →
      Completes (.pathOfflineWrite isB true) s (fun d => d.net.handover = none ∧ (pathOf isB d).offline = true ∧
        (pathOf (!isB) d).handover = false ∧ authorityB d.net = !isB ∧ d = { s.dev with net := d.net })) ∧
    (∀ (isB : Bool) (s : State), started s.dev = true → pathAlive (pathOf isB s.dev) = true → handoverAllowed isB s.dev = true →
      Completes (.handover isB) s (fun d => d.net.handover = some { fromB := isB } ∧ (pathOf isB d).handover = true ∧
        d = { s.dev with net := d.net })) ∧
    (∀ (h : Handover) (s : State), s.dev.net.handover = some h → s.dev.net.heldHellos = [] →
      Completes .handoverEnd s (fun d => authorityB d.net = !h.fromB ∧ (pathOf (!h.fromB) d).claim = (pathOf h.fromB s.dev).claim + 1 ∧
        d.net.handover = none ∧ d.net.sessions = s.dev.net.sessions ∧ (pathOf h.fromB d).handover = false ∧
        d = { s.dev with net := d.net, events := d.events })))

/-- The handshake (13 R469 to R473, R488). A whole HELLO that is no twin and has no reason for refusal is given a free session index in
state Handshake, and 192 random bytes are drawn for ACCEPT (how many is the model's: log entry 81); one with a reason is answered with
ABORT on its path, and its twin with the same on the other. The FINISH that completes and verifies makes the session Established under
the keys of the derived traffic secret, and READY takes number 1; one that does not verify frees the index. -/
def Obligations.HandshakeOpensASession : Prop :=
  (∀ (isB : Bool) (f : Frame) (s : State), htlHears 0x01 isB f s.dev → f.header.seg = 0 → 1293 ≤ f.payload.length →
    Sys2Proof.Machine.preparing s.dev = false →
    let n := helloNonce f.payload
    let abort := fun (reason : Byte) =>
      let h : HtlHeader := { type := 0x1F, length := 36 }
      Output.clearFrame isB f.link.source (sentAs (pathOf isB s.dev) s.dev.net.htlPort f.link.source (headerBytes h ++ abortPlain n reason)) h
        (abortPlain n reason)
    (∀ i, helloSeen n s.dev = false → s.dev.net.handover = none → helloRefusal f.payload s.dev = none → freeIndex s.dev = some i →
      tableTakes s.dev →
      Completes (.hello isB f) s (fun d => (sessionOf i d).state = .handshake ∧ (sessionOf i d).tenant = helloTenant f.payload ∧
        (sessionOf i d).nonce = n ∧ (sessionOf i d).gen = (sessionOf i s.dev).gen ∧
        (sessionOf i d).acceptAt = s.dev.time.ticks ∧ d.draws = s.dev.draws + 192 ∧
        (∀ j, j ≠ i → sessionOf j d = sessionOf j s.dev) ∧ s.dev.out <+: d.out ∧
        d = { spend (pathInst (authorityB s.dev.net)) 192 (forDraw (pathInst (authorityB s.dev.net)) 192 s.dev) with
          net := d.net, out := d.out })) ∧
    (∀ reason, helloSeen n s.dev = false → s.dev.net.handover = none → helloRefusal f.payload s.dev = some reason →
      Completes (.hello isB f) s (fun d => d.net.sessions = s.dev.net.sessions ∧
        d.out = s.dev.out ++ [abort reason] ∧ d = { s.dev with net := d.net, out := d.out })) ∧
    (∀ seen reason, seenNonce n s.dev = some seen → (if isB then seen.onB else seen.onA) = false → seen.refused = some reason →
      Completes (.hello isB f) s (fun d => d.out = s.dev.out ++ [abort reason] ∧ d = { s.dev with net := d.net, out := d.out }))) ∧
  (∀ (isB : Bool) (f : Frame) (x : Session) (m : Bytes) (s : State),
    let k := handshakeKey x.prk x.th1
    let i := sessionIndex f
    let y := learn isB f.link.source { x with
      segments := tabSet (f.header.seg.toNat / 16) (framePlain k f) x.segments, lastFrame := s.dev.time.ticks }
    htlHears 0x03 isB f s.dev → namedSession f s.dev = some x → x.state = .handshake → frameOk k f = true →
    f.header.seq.toNat = f.header.seg.toNat / 16 → s.dev.time.ticks < x.acceptAt + 2 * secTicks →
    wholeMessage (f.header.seg.toNat % 16) y.segments = some m → tableTakes s.dev →
    (finishVerifies y m s.dev = true →
      Completes (.finish isB f) s (fun d =>
        let z := sessionOf i d
        z.state = .established ∧ z.gen = x.gen ∧ z.tenant = x.tenant ∧ z.epoch = 0 ∧ z.egressNext = 2 ∧ z.prk = [] ∧
        clearKeys d i z = epochKeys (hkdfExpand x.prk (ascii "htl ts".toList ++ handshakeHash2 x) 48) 0 ∧
        d = { s.dev with net := d.net, out := d.out })) ∧
    (finishVerifies y m s.dev = false →
      Completes (.finish isB f) s (fun d => (sessionOf i d).state = .free ∧
        (sessionOf i d).gen = x.gen + 1 ∧ d = { s.dev with net := d.net, out := d.out })))

/-- An admitted traffic frame completes with the effect of its type on the session it belongs to (13 R466, R480 to R485).
HTL_REQUEST enters one job that carries the request, or is refused with 0x0607 in Night preparation, 0x0606 without a token,
0x0605 at a full list; HTL_CANCEL queues its answer; KEEPALIVE queues a KEEPALIVE; REKEY with a valid point and encapsulation
key begins a rekey on 64 drawn bytes and queues REKEY_ACK; CLOSE begins closing. Each holds for every state and frame that meets
`htlAdmits` and the conditions named with it. -/
def Obligations.TrafficFramesTakeEffect : Prop :=
  ∀ (isB : Bool) (f : Frame) (x : Session) (ks : Bytes) (s : State),
    let m := framePlain ks f
    let i := sessionIndex f
    let e := htlTaken isB f x s.dev
    (htlAdmits 0x10 isB f x ks s.dev →
      exec (.htlRequest isB f) s = .next { s with dev := takeRequest f.header i m e }) ∧
    (htlAdmits 0x10 isB f x ks s.dev → Sys2Proof.Machine.preparing s.dev = false → noToken x.tenant s.dev = false →
      listFull x.tenant s.dev = false →
      Completes (.htlRequest isB f) s (fun d => d.gaffer.nextJob = s.dev.gaffer.nextJob + 1 ∧
        d.gaffer.jobs.length = s.dev.gaffer.jobs.length + 1 ∧ (f.header.seq.toNat, s.dev.gaffer.nextJob) ∈ (sessionOf i d).admitted ∧
        (∃ j ∈ d.gaffer.jobs, j.id = s.dev.gaffer.nextJob ∧ j.tenant = x.tenant ∧ j.recipe = bytesBv 16 (field m 0 2) ∧
          j.params = field m 8 48 ∧ j.input = m.drop 64 ∧ j.origin = .htl (sessionId i x) f.header.seq) ∧
        d.fuses = s.dev.fuses ∧ d.keys = { s.dev.keys with ports := d.keys.ports } ∧ d.custody = s.dev.custody)) ∧
    (∀ code : Code, htlAdmits 0x10 isB f x ks s.dev →
      (if Sys2Proof.Machine.preparing s.dev then 0x0607 else if noToken x.tenant s.dev then 0x0606
        else if listFull x.tenant s.dev then 0x0605 else 0) = code → code ≠ 0 →
      Completes (.htlRequest isB f) s (fun d => ∃ j, d.gaffer.jobs = s.dev.gaffer.jobs ++ [j] ∧ j.code = code ∧
        j.place = .answered ∧ j.tenant = x.tenant ∧ j.recipe = bytesBv 16 (field m 0 2))) ∧
    (htlAdmits 0x12 isB f x ks s.dev → Completes (.htlCancel isB f) s (fun d =>
      ∃ r : Reply, d.net.replies = s.dev.net.replies ++ [r] ∧ r.index = i ∧ r.type = 0x11 ∧ d.fuses = s.dev.fuses ∧
        d.keys = { s.dev.keys with ports := d.keys.ports } ∧ d.gaffer.jobs.length = s.dev.gaffer.jobs.length)) ∧
    (htlAdmits 0x13 isB f x ks s.dev → exec (.keepalive isB f) s = .next { s with dev := queueReply i 0x13 [] e }) ∧
    (htlAdmits 0x14 isB f x ks s.dev → (htlSession isB f x s.dev).state = .established → (htlSession isB f x s.dev).rekeyOpen = none →
      (htlSession isB f x s.dev).prevKeys = none → tableTakes s.dev →
      s.dev.gather.service = true → m.length = 1249 → byteAt m 0 = 0x04 → pointOk 0x01 ((field m 0 65).drop 1) = true → mlKemDecodes 3 (field m 65 1184) = true →
      Completes (.rekey isB f) s (fun d => (sessionOf i d).state = .rekeying ∧ (sessionOf i d).rekeyOpen.isSome = true ∧
        (sessionOf i d).keys = x.keys ∧ d.draws = s.dev.draws + 64 ∧ (∃ r : Reply, d.net.replies = s.dev.net.replies ++ [r] ∧ r.type = 0x15) ∧
        d = { spend (pathInst (authorityB s.dev.net)) 64 (forDraw (pathInst (authorityB s.dev.net)) 64 s.dev) with net := d.net })) ∧
    (htlAdmits 0x16 isB f x ks s.dev → Completes (.close isB f) s (fun d => d = pathWrite i (fun x => { x with state := .closing }) e ∧
      (tableTakes s.dev → sessionOf i d = { htlSession isB f x s.dev with state := .closing }) ∧
      (∀ k, k ≠ i → sessionOf k d = sessionOf k s.dev) ∧ d = { s.dev with net := d.net }))

/-- No number is admitted twice (13 R476): a number is admitted when it lies above the highest admitted, or in the window of the
1,024 below it and has not been admitted; after an admitted frame the same number is not admitted again; a twin is counted in
NET_DUP, any other copy as stale, and neither changes anything but the note of its address. -/
def Obligations.ANumberIsAdmittedOnce : Prop :=
  (∀ (x : Session) (n : Nat), admits x n = true ↔
    x.high < n ∨ (1 ≤ n ∧ n < x.high ∧ x.high ≤ n + 1024 ∧ n ∉ x.seen)) ∧
  (∀ (x : Session) (n : Nat), (admitSeq n x).high = max x.high n) ∧
  (∀ (x : Session) (n : Nat), admits x n = true → admits (admitSeq n x) n = false ∧ repeated (admitSeq n x) n = true) ∧
  (∀ (x : Session) (n k : Nat), admits x n = true → repeated x k = true → k ≤ x.high → admits (admitSeq n x) k = false) ∧
  (∀ (isB : Bool) (f : Frame) (x : Session) (ks : Bytes) (s : State), htlAuthentic 0x10 isB f x ks s.dev →
    let n := f.header.seq.toNat
    let e := htlCrossed isB f x s.dev
    (repeated x n = true → admits x n = false → exec (.htlRequest isB f) s = .next { s with dev := modPath isB (fun p => { p with
      dupCount := p.dupCount + 1, dupOverflow := p.dupOverflow || p.dupCount == BitVec.allOnes 31 }) e }) ∧
    (repeated x n = false → admits x n = false → exec (.htlRequest isB f) s = .next { s with dev := netCount isB 4 e }) ∧
    (admits x n = true → x.state = .closing → exec (.htlRequest isB f) s = .next { s with dev := netCount isB 4 e }))

/-! ### The host interface (12) -/

/-- Doorbells (12 R427, R431, R457): a value below the depth moves the pointer it writes, and the tick of a tail doorbell is
kept; a value not below the depth puts the queue into error with cause 1; a queue that takes none drops and counts it. Interrupts and queue configuration (12 R426, R437, R438, R457). -/
def Obligations.QueuesRingAndSignal : Prop :=
  (∀ (f q : Nat) (v : BitVec 12) (s : State), fnUp f s.dev = true →
      let x := queueOf f q s.dev
      (takesDoorbells (fnOf f s.dev) = true → x.enable = true → x.error = false → v.toNat < 2 ^ x.log2Depth →
        Completes (.sqTailDoorbell f q v) s (fun d => queueOf f q d = { x with sqTail := v.toNat, doorbells := if v.toNat = x.sqTail then x.doorbells else x.doorbells ++ [(v.toNat, s.dev.time.ticks)] } ∧
          d = modQueue f q (fun _ => queueOf f q d) s.dev) ∧
        Completes (.cqHeadDoorbell f q v) s (fun d => queueOf f q d = { x with cqHead := v.toNat } ∧
          d = modQueue f q (fun _ => queueOf f q d) s.dev)) ∧
      (takesDoorbells (fnOf f s.dev) = true → x.enable = true → x.error = false → 2 ^ x.log2Depth ≤ v.toNat →
        Completes (.sqTailDoorbell f q v) s (fun d => queueOf f q d = { x with error := true, cause := 1 } ∧
          (fnOf f d).queueError = true ∧ d = { s.dev with host := d.host, events := d.events, out := d.out })) ∧
      ((takesDoorbells (fnOf f s.dev) = false ∨ x.enable = false) →
        exec (.sqTailDoorbell f q v) s = .next { s with dev := fnCount f 2 s.dev } ∧
        exec (.cqHeadDoorbell f q v) s = .next { s with dev := fnCount f 2 s.dev })) ∧
  (∀ (f q : Nat) (s : State), fnUp f s.dev = true →
      let x := queueOf f q s.dev
      (coalesceDue f q s.dev = true → x.intEnable = true → msixMasked f q s.dev = false →
        Completes (.coalesceTimerExpiry f q) s (fun d => d.out = s.dev.out ++ [.msix f q] ∧
          queueOf f q d = { x with unsignalled := 0, firstUnsignalled := none } ∧ d = { s.dev with host := d.host, out := d.out })) ∧
      (coalesceDue f q s.dev = true → x.intEnable = false →
        Completes (.coalesceTimerExpiry f q) s (fun d => d.out = s.dev.out ∧
          queueOf f q d = { x with unsignalled := 0, firstUnsignalled := none, heldFiring := true } ∧ d = { s.dev with host := d.host })) ∧
      (x.stopping = false → x.heldFiring = true → msixMasked f q s.dev = false →
        Completes (.intEnableSet f q) s (fun d => d.out = s.dev.out ++ [.msix f q] ∧
          queueOf f q d = { x with intEnable := true, heldFiring := false, unsignalled := 0, firstUnsignalled := none } ∧
          d = { s.dev with host := d.host, out := d.out })) ∧
      (x.stopping = false → x.heldFiring = false →
        Completes (.intEnableSet f q) s (fun d => queueOf f q d = { x with intEnable := true } ∧ d = { s.dev with host := d.host })) ∧
      (∀ v : Word, x.stopping = false → x.enable = false → v.getLsbD 31 = true → v.getLsbD 0 = false →
        4 ≤ (v.extractLsb' 24 4).toNat → (v.extractLsb' 24 4).toNat ≤ 12 →
        Completes (.queueEnableWrite f q v) s (fun d => queueOf f q d = { x with
            enable := true, log2Depth := (v.extractLsb' 24 4).toNat, coalesceCount := (v.extractLsb' 16 8).toNat
            coalesceUs := (v.extractLsb' 8 8).toNat, intEnable := false } ∧ d = { s.dev with host := d.host })) ∧
      (∀ v : Word, x.stopping = false → x.enable = false → v.getLsbD 31 = true → v.getLsbD 0 = false →
        ((v.extractLsb' 24 4).toNat < 4 ∨ 12 < (v.extractLsb' 24 4).toNat) →
        Completes (.queueEnableWrite f q v) s (fun d => (queueOf f q d).error = true ∧ (queueOf f q d).cause = 4 ∧
          (fnOf f d).queueError = true)) ∧
      (∀ v : Word, x.stopping = false → x.enable = true → v.getLsbD 31 = false → v.getLsbD 0 = false → x.outstanding = [] →
        Completes (.queueEnableWrite f q v) s (fun d => queueOf f q d = {} ∧ d = { s.dev with host := d.host })))

/-- Fetching (12 R427, R431, R433, R454): a descriptor that passes the checks enters one job and is outstanding on its queue;
one that fails them completes at fetch with the code of the check and enters none; failed reads of the descriptor, of the buffer
list and of the input data end with error cause 2, with 0x0119 at fetch, and with 0x0119 for the job. Functions are served in
rotation (12 R436): a fetch takes one of the at most 8 descriptors of the turn of its function, and nothing is fetched out of turn;
that both rotations ascend is the model's choice (log entry 24). A cancel that finds its target waiting on the ready list answers the target with 0x0601 (12 R434, R435; 04 R160). -/
def Obligations.CommandsAreFetchedAndCancelled : Prop :=
  (∀ (f q : Nat) (s : State), fetchable f q s.dev = true → nextFetch s.dev = some (f, q) →
      let x := queueOf f q s.dev
      let tick := doorbellTick x s.dev.time.ticks
      let e := fnCount f 0 (modQueue f q passHead (noteTurn f q s.dev))
      let open_ := acuAllows f (x.sqBase.toNat + descriptorSize s.dev * x.sqHead) false s.dev.host
      (∀ desc list input : Bytes, desc.length = descriptorSize s.dev → isCancel (izvi s.dev) desc = false →
        fetchedNow f (requestOf (izvi s.dev) desc list input).1 s.dev = true → open_ = true → fetchCheck f q desc list s.dev = 0 →
        (requestOf (izvi s.dev) desc list input).2 = 0 →
        Completes (.descriptorFetch f q desc list input) s (fun d =>
          d = enterRequest f q tick (requestOf (izvi s.dev) desc list input).1 e ∧
          d.gaffer.nextJob = s.dev.gaffer.nextJob + 1 ∧ d.gaffer.jobs.length = s.dev.gaffer.jobs.length + 1 ∧
          (queueOf f q d).sqHead = (x.sqHead + 1) % 2 ^ x.log2Depth ∧
          (queueOf f q d).outstanding = x.outstanding ++ [{ cid := cidOf desc, job := s.dev.gaffer.nextJob }])) ∧
      (∀ desc list input : Bytes, desc.length = descriptorSize s.dev → isCancel (izvi s.dev) desc = false →
        fetchedNow f (requestOf (izvi s.dev) desc list input).1 s.dev = true → open_ = true → fetchCheck f q desc list s.dev ≠ 0 →
        Completes (.descriptorFetch f q desc list input) s (fun d =>
          d = refuseAtFetch f q (cidOf desc) (fetchCheck f q desc list s.dev) (noteList f q desc e) ∧ d.gaffer = s.dev.gaffer ∧
          d = { s.dev with host := d.host, events := d.events, out := d.out })) ∧
      (∀ cid, Completes (.hostReadFailure .descriptor f q cid) s (fun d => queueOf f q d = { x with error := true, cause := 2 } ∧
        d.host.aer = s.dev.host.aer + 1 ∧ d.gaffer = s.dev.gaffer)) ∧
      (∀ cid, open_ = true → fetchHeld s.dev = false → (∀ o ∈ x.outstanding, o.cid ≠ cid) →
        Completes (.hostReadFailure .bufferList f q cid) s (fun d => d = refuseAtFetch f q cid 0x0119 (countAer e) ∧
          d.gaffer = s.dev.gaffer)) ∧
      (∀ cid j, s.dev.gaffer.jobs.find? (inDecode f q cid) = some j → jobOf j.id s.dev = some j →
        Completes (.hostReadFailure .input f q cid) s (fun d => d = dispatchAll (dropJob j.id 0x0119 (countAer s.dev)) ∧
          ∃ k, jobOf j.id d = some k ∧ k.place = .answered ∧ k.code = 0x0119)) ∧
      e.host.turn = f ∧
      (s.dev.host.turn = f → s.dev.host.turnLeft ≠ 0 → e.host.turnLeft + 1 = s.dev.host.turnLeft) ∧
      (s.dev.host.turn ≠ f ∨ s.dev.host.turnLeft = 0 → e.host.turnLeft = 7)) ∧
  (∀ (f q : Nat) (desc list input : Bytes) (cid : BitVec 16) (s : State), nextFetch s.dev ≠ some (f, q) →
      exec (.descriptorFetch f q desc list input) s = .next s ∧ exec (.cancel f q desc) s = .next s ∧
      exec (.hostReadFailure .descriptor f q cid) s = .next s ∧ exec (.hostReadFailure .bufferList f q cid) s = .next s) ∧
  (∀ (f q : Nat) (desc : Bytes) (s : State) (o : Outstanding) (j : Job) (g p : Nat), fetchable f q s.dev = true →
      nextFetch s.dev = some (f, q) → desc.length = descriptorSize s.dev → isCancel (izvi s.dev) desc = true → fetchHeld s.dev = false →
      acuAllows f ((queueOf f q s.dev).sqBase.toNat + descriptorSize s.dev * (queueOf f q s.dev).sqHead) false s.dev.host = true →
      (∀ o ∈ (queueOf f q s.dev).outstanding, o.cid ≠ cidOf desc) → (cancelFields (izvi s.dev) desc).2.2 = true →
      (queueOf f (cancelFields (izvi s.dev) desc).2.1 s.dev).outstanding.find?
        (fun o => o.cid == (cancelFields (izvi s.dev) desc).1) = some o →
      jobOf o.job s.dev = some j → j.place = .ready → j.stream = .host g p →
      Completes (.cancel f q desc) s (fun d => (∃ k, jobOf o.job d = some k ∧ k.place = .answered ∧ k.code = 0x0601 ∧
          k.releasable = some s.dev.time.ticks) ∧
        (∀ i, i ≠ o.job → jobOf i d = jobOf i s.dev) ∧ d.keys = s.dev.keys ∧ d.fuses = s.dev.fuses ∧ d.net = s.dev.net))

/-- The mailbox (12 R439 to R441): a message that Yunante acts on has its reply or relay placed in the outbox of the function
concerned and fires vector 16; any other is counted; clearing out_valid brings the next held message. -/
def Obligations.MailboxMessagesAreAnswered : Prop :=
  (∀ (f : Nat) (m : Bytes) (s : State), fnUp f s.dev = true → num m 0 1 = 0x01 → (fnOf f s.dev).outValid = false →
    msixMasked f 16 s.dev = false →
    Completes (.mbxFunctionInfo f m) s (fun d => (fnOf f d).outValid = true ∧ (fnOf f d).mbxIn = fit 256 m ∧ (fnOf f d).inPost = false ∧
      (fnOf f d).mbxOut = fit 256 (message 0x81 (field m 2 2) 0 (leBytes 1 f ++ leBytes 4 s.dev.battery.cycles.toNat ++
        leBytes 2 (fnOf f s.dev).incarnation.toNat ++ leBytes 4 (tenantOf f s.dev).quota ++ leBytes 2 (tenantOf f s.dev).readyCap ++
        leBytes 4 (tenantOf f s.dev).deadlineUs)) ∧
      d.out = s.dev.out ++ [.msix f 16] ∧ d = { s.dev with host := d.host, out := d.out })) ∧
  (∀ (f : Nat) (m : Bytes) (s : State), fnUp f s.dev = true → num m 0 1 = 0x02 → f ≠ 0 → (tabGet 0 s.dev.host.fns).isSome = true →
    (fnOf 0 s.dev).outValid = false → msixMasked 0 16 s.dev = false →
    Completes (.mbxRelayToManager f m) s (fun d => (fnOf 0 d).outValid = true ∧
      (fnOf 0 d).mbxOut = fit 256 (message 0x82 (field m 2 2) f (payloadOf m)) ∧
      d.out = s.dev.out ++ [.msix 0 16] ∧ d = { s.dev with host := d.host, out := d.out })) ∧
  (∀ (m : Bytes) (s : State), fnUp 0 s.dev = true → num m 0 1 = 0x03 → num m 6 2 ≠ 0 → fnExists (num m 6 2) s.dev.host = true →
    (fnOf (num m 6 2) s.dev).mode = .enabled → (fnOf (num m 6 2) s.dev).outValid = false → msixMasked (num m 6 2) 16 s.dev = false →
    Completes (.mbxRelayToVf m) s (fun d => (fnOf (num m 6 2) d).outValid = true ∧
      (fnOf (num m 6 2) d).mbxOut = fit 256 (message 0x83 (field m 2 2) (num m 6 2) (payloadOf m)) ∧
      d.out = s.dev.out ++ [.msix (num m 6 2) 16] ∧ d = { s.dev with host := d.host, out := d.out })) ∧
  (∀ (f : Nat) (m : Bytes) (s : State), fnUp f s.dev = true → otherType f (num m 0 1) = true →
    exec (.mbxOtherTypeIgnored f m) s = .next { s with dev := fnCount f 7 (takePost f m s.dev) }) ∧
  (∀ (f : Nat) (s : State), fnUp f s.dev = true → (fnOf f s.dev).outValid = true → (fnOf f s.dev).mbxHeld = [] →
    exec (.mbxOutValidClear f) s = .next { s with dev := modFn f (fun x => { x with outValid := false }) s.dev }) ∧
  (∀ (f : Nat) (m : Bytes) (t : List Bytes) (s : State), fnUp f s.dev = true → (fnOf f s.dev).outValid = true →
    (fnOf f s.dev).mbxHeld = m :: t →
    Completes (.mbxOutValidClear f) s (fun d => (fnOf f d).outValid = true ∧ (fnOf f d).mbxOut = fit 256 m ∧ (fnOf f d).mbxHeld = t ∧
      d = { s.dev with host := d.host, out := d.out }))

/-- The states of a function (12 R420, R421, R444 to R447). VF Enable (12 R420, R421): VFs 1 to NumVFs exist from its setting until its clearing. -/
def Obligations.FunctionsComeAndGo : Prop :=
  (∀ (f : Nat) (s : State), fnUp f s.dev = true →
      let x := fnOf f s.dev
      (x.mode = .disabled → x.quiesce = false → Completes (.functionEnable f) s (fun d => (fnOf f d).mode = .enabled ∧
        (fnOf f d).enable = true ∧ (fnOf f d).noticed = true ∧ d = { s.dev with host := d.host, out := d.out })) ∧
      (x.mode = .draining → exec (.functionEnable f) s = .next { s with dev := modFn f (fun x => { x with enable := true, enableHeld := true }) s.dev }) ∧
      (x.mode = .enabled → jobsDistinct s.dev → Completes (.functionDisable f) s (fun d => (fnOf f d).mode = .draining ∧ (fnOf f d).enable = false ∧
        (fnOf f d).queues = [] ∧ (fnOf f d).incarnation = x.incarnation ∧
        d.gaffer.jobs = (s.dev.gaffer.jobs.filter (fun j => !(jobOfFn f j && j.place == .ready))).map
          (fun j => if jobOfFn f j then drainJob s.dev j else j) ∧
        d = { s.dev with host := d.host, gaffer := d.gaffer, benches := d.benches })) ∧
      (x.mode = .enabled → Completes (.quiesceSet f) s (fun d => (fnOf f d).quiesce = true ∧
        (fnOf f d).mode = (if outstandingOf x = 0 then .quiesced else .quiescing) ∧ d = { s.dev with host := d.host })) ∧
      ((x.mode = .quiescing ∨ x.mode = .quiesced) → exec (.quiesceClear f) s = .next { s with dev := modFn f (fun x => { x with quiesce := false, mode := .enabled }) s.dev }) ∧
      (f ≠ 0 → Completes (.functionLevelReset f) s (fun d => (fnOf f d).mode = .draining ∧ (fnOf f d).queues = [] ∧
        (fnOf f d).enable = false ∧ (fnOf f d).quiesce = false ∧ (∀ g, g ≠ f → fnOf g d = fnOf g s.dev) ∧
        d = { s.dev with host := d.host, gaffer := d.gaffer, benches := d.benches })) ∧
      (x.mode = .draining → drained f s.dev = true → x.enableHeld = false →
        exec (.drainEnd f) s = .next { s with dev := modFn f (fun x => { x with
          mode := .disabled, incarnation := nextIncarnation x.incarnation, enableHeld := false }) s.dev }) ∧
      (x.mode = .draining → drained f s.dev = true → x.enableHeld = true → x.quiesce = false →
        Completes (.drainEnd f) s (fun d => (fnOf f d).mode = .enabled ∧ (fnOf f d).incarnation = nextIncarnation x.incarnation ∧
          d = { s.dev with host := d.host, out := d.out }))) ∧
  ((∀ (n : Nat) (s : State), fnUp 0 s.dev = true → s.dev.host.numVfs = 0 → 1 ≤ n → n ≤ totalVfs s.dev →
      Completes (.vfEnableSet n) s (fun d => d.host.numVfs = n ∧ (∀ f, 1 ≤ f → (fnExists f d.host = true ↔ f ≤ n)) ∧
        d = { s.dev with host := d.host })) ∧
    (∀ s : State, fnUp 0 s.dev = true → Completes .vfEnableClear s (fun d => d.host.numVfs = 0 ∧
      (∀ f, 1 ≤ f → fnExists f d.host = false) ∧ fnOf 0 d = fnOf 0 s.dev ∧ d = { s.dev with host := d.host, gaffer := d.gaffer, benches := d.benches })))

/-- ACU_REGION_WRITE completes for every function, region, word and value of the PF: word 0 holds base[31:12] and the flags
valid, read and write, word 1 base[63:32], word 2 the pages, any other word changes nothing, and no other region and no other
function changes (12 R449, R458); PF_DEFAULT_CLEAR ends the PF's default map (12 R452); PRING_CONS_WRITE moves the consumer
index and lets the sweeps that wait go on (12 R443). -/
def Obligations.AccessControlIsWritten : Prop :=
  (∀ (f r : Nat) (v : Word) (s : State), fnUp 0 s.dev = true →
    let old := tabGetD r ({} : AcuRegion) (fnOf f s.dev).regions
    Completes (.acuRegionWrite f r 0 v) s (fun d =>
      let new := tabGetD r ({} : AcuRegion) (fnOf f d).regions
      new.valid = v.getLsbD 0 ∧ new.read = v.getLsbD 1 ∧ new.write = v.getLsbD 2 ∧ new.base.extractLsb' 32 32 = old.base.extractLsb' 32 32 ∧
      new.base.extractLsb' 12 20 = v.extractLsb' 12 20 ∧ new.base.extractLsb' 0 12 = 0 ∧ new.pages = old.pages ∧
      (∀ g, g ≠ f → fnOf g d = fnOf g s.dev) ∧ d = { s.dev with host := d.host }) ∧
    Completes (.acuRegionWrite f r 1 v) s (fun d =>
      let new := tabGetD r ({} : AcuRegion) (fnOf f d).regions
      new.base.extractLsb' 32 32 = v ∧ new.base.extractLsb' 0 32 = old.base.extractLsb' 0 32 ∧ new.valid = old.valid ∧
      new.read = old.read ∧ new.write = old.write ∧ new.pages = old.pages) ∧
    Completes (.acuRegionWrite f r 2 v) s (fun d =>
      let new := tabGetD r ({} : AcuRegion) (fnOf f d).regions
      new = { old with pages := v } ∧ (∀ g, g ≠ f → fnOf g d = fnOf g s.dev) ∧ d = { s.dev with host := d.host }) ∧
    (∀ word, 3 ≤ word → Completes (.acuRegionWrite f r word v) s (fun d =>
      (∀ k, tabGetD k ({} : AcuRegion) (fnOf f d).regions = tabGetD k ({} : AcuRegion) (fnOf f s.dev).regions) ∧
      (∀ g, g ≠ f → fnOf g d = fnOf g s.dev) ∧ d = { s.dev with host := d.host })) ∧
    (∀ word, Completes (.acuRegionWrite f r word v) s (fun d =>
      (∀ k, k ≠ r → tabGetD k ({} : AcuRegion) (fnOf f d).regions = tabGetD k ({} : AcuRegion) (fnOf f s.dev).regions) ∧
      (∀ g, g ≠ f → fnOf g d = fnOf g s.dev) ∧ d = { s.dev with host := d.host }))) ∧
  (∀ s : State, fnUp 0 s.dev = true →
    exec .pfDefaultClear s = .next { s with dev := { s.dev with host := { s.dev.host with pfDefault := false } } }) ∧
  (∀ (f : Nat) (c : BitVec 12) (s : State), fnUp f s.dev = true → Completes (.pringConsWrite f c) s (fun d =>
    (fnOf f d).pringCons = c.toNat ∧ (∀ p ∈ d.keys.sweeps, p.2.waiting = false) ∧ d.keys.slots = s.dev.keys.slots ∧
    d = { s.dev with host := d.host, keys := d.keys }))

/-- A request is allowed only when every valid region that contains its first byte grants it and some region does
(12 R450); the PF's default map grants everything (12 R452). -/
def Obligations.AccessNeedsEveryRegion : Prop :=
  ∀ (f addr : Nat) (write : Bool) (h : HostRegion), ¬ (f = 0 ∧ h.pfDefault = true) →
    (acuAllows f addr write h = true ↔
      (∃ p ∈ (tabGetD f ({} : Fn) h.fns).regions, inRegion addr p.2 = true) ∧
      ∀ p ∈ (tabGetD f ({} : Fn) h.fns).regions, inRegion addr p.2 = true → (if write then p.2.write else p.2.read) = true)

/-! ### Gaffer, the fixed stages of a recipe, Lehr (04) -/

/-- A core without a job asks for work (04 R137): it blocks on its request; where it alone asks and a job that has not expired is
eligible, that job is dispatched to it at the present count. -/
def Obligations.CoresAskAndJobsAreDispatched : Prop :=
  ∀ (c : CoreRef) (s : State), benchRuns c.bench s.dev = true →
    let u := lead c s.dev
    (coreOf u s.dev).state = .idle →
    (readyJobs s.dev = [] → Completes (.coreWorkRequest c) s (fun d => (coreOf u d).state = .asking ∧
      (coreOf u d).since = s.dev.time.ticks ∧ d.gaffer.requests = s.dev.gaffer.requests ++ [(u, s.dev.time.ticks)] ∧
      d.gaffer.jobs = s.dev.gaffer.jobs ∧ d = { s.dev with gaffer := d.gaffer, benches := d.benches })) ∧
    (∀ j, dispatching s.dev = true → s.dev.gaffer.requests = [] → (∀ k ∈ readyJobs s.dev, expired s.dev k = false) →
      chooseJob u s.dev = some j → jobOf j.id s.dev = some j → unread (decodeRead j s.dev).1 = false →
      Completes (.coreWorkRequest c) s (fun d => (coreOf u d).state = .running ∧ (coreOf u d).job = some j.id ∧
        d.gaffer.requests = [] ∧ d.fuses = s.dev.fuses ∧ d.keys = s.dev.keys ∧ d.net = s.dev.net ∧
        ∃ k, jobOf j.id d = some k ∧ k.place = .core u.bench u.core ∧ k.dispatch = extended s.dev ∧ k.ranOn = some u ∧
          k.ticket = j.ticket ∧ k.recipe = j.recipe ∧ k.params = j.params ∧ k.input = j.input))

/-- Verdict and Stage-out (04 R140, R158): CHECK_VERDICT brings the verdict of the staged job to Lehr, on the core or, when it
is late, in the pending buffer, and with it the pair of a comparison, and on a refusal no grant of the job remains; STAGE_OUT takes a staged job, its Marver results
compared, into the pending buffer of its bench, its core free unless the code is held to a floor. LOCKSTEP_PARTNER_TIMEOUT (21
R673): the pair goes to its self-test, the job is re-entered or ends with 0x0501. -/
def Obligations.VerdictsAndStageOut : Prop :=
  (∀ (c : CoreRef) (j : Job) (st : Staged) (s : State), j.staged = some st →
      (lateVerdict c s.dev = some j ∧ jobOf j.id s.dev = some j ∨ lateVerdict c s.dev = none ∧ jobOn c s.dev = some j) →
      (∀ differs, j.verdict = none → (differs = false ∨ izvi s.dev = false) → st.code = 0 →
        exec (.checkVerdict c differs) s = .next { s with dev := modJob j.id (fun j => { j with verdict := some 0, flags := st.pair }) s.dev }) ∧
      (∀ differs, j.verdict = none → (differs = false ∨ izvi s.dev = false) → st.code ≠ 0 →
        Completes (.checkVerdict c differs) s (fun d => (∃ k, jobOf j.id d = some k ∧ k = { j with verdict := some st.code, flags := st.pair }) ∧
          (∀ g ∈ d.shares.grants, g.job = j.id → g.parked = true) ∧ (∀ r ∈ d.shares.pending, r.job ≠ j.id) ∧
          d = { s.dev with gaffer := d.gaffer, shares := d.shares, benches := d.benches
                           keys := { s.dev.keys with ports := d.keys.ports } }))) ∧
  (∀ (c : CoreRef) (j : Job) (st : Staged) (s : State), jobOn c s.dev = some j → j.staged = some st → comparedResult j st s.dev = true →
      let u := lead c s.dev
      (pendingCount u.bench s.dev < 512 → blockedBefore u s.dev = false → floorCode st.code = false →
        Completes (.stageOut c .none) s (fun d => (coreOf u d).state = .idle ∧ (coreOf u d).job = none ∧
          jobOf j.id d = some { j with
            place := .pending u.bench, busy := j.busy + (s.dev.time.ticks - (coreOf u s.dev).since) } ∧
          d = { s.dev with gaffer := d.gaffer, benches := d.benches })) ∧
      (pendingCount u.bench s.dev < 512 → blockedBefore u s.dev = false → floorCode st.code = true →
        Completes (.stageOut c .none) s (fun d => (coreOf u d).state = .running ∧ (coreOf u d).job = some j.id ∧
          jobOf j.id d = some { j with place := .pending u.bench, held := some (u.bench, u.core) } ∧
          d = { s.dev with gaffer := d.gaffer, benches := d.benches }))) ∧
  (∀ (c : CoreRef) (j : Job) (s : State), izvi s.dev = true → jobOn c s.dev = some j →
      let u := lead c s.dev
      exec (.lockstepPartnerTimeout c) s = .next { s with dev := pairFault c s.dev } ∧
      ((coreOf u s.dev).faults < 3 → s.dev.gaffer.requests = [] → Completes (.lockstepPartnerTimeout c) s (fun d => (coreOf u d).state = .testing ∧
        (coreOf u d).job = none ∧ (coreOf u d).faults = (coreOf u s.dev).faults + 1 ∧ d.fuses = s.dev.fuses)) ∧
      (j.reentered = true → jobsDistinct s.dev → Completes (.lockstepPartnerTimeout c) s (fun d =>
        ∃ k, jobOf j.id d = some k ∧ k.place = .answered ∧ k.code = 0x0501)))

/-- RETIRE completes (04 R145, R146, R154, R158): a job whose turn has come and whose verdict or cancel mark refuses it leaves
with its code and no result, at its floor when the code is held to one; one that passes every check at Retire, needs no durable
entry and is in its last step commits its intents and leaves with code 0 and its result, or, where a pair came with the verdict,
with what the pair decides (08 R280, R281). -/
def Obligations.RetireDecidesTheOutcome : Prop :=
  ∀ (j : Job) (b : Nat) (st : Staged) (v : Code) (s : State), jobOf j.id s.dev = some j → j.place = .pending b →
    j.staged = some st → j.verdict = some v → j.durable = false → benchRuns b s.dev = true → mayRetire j s.dev = true →
    resetWaits j st s.dev = false → conversionBlocks st s.dev = false →
    (∀ code, code = (if j.cancelMark then 0x0602 else v) → code ≠ 0 →
      Completes (.retire j.id .none) s (fun d => ∃ k, jobOf j.id d = some k ∧ k.place = .retired b ∧ k.code = code ∧ k.mirror = none ∧
        k.releasable = some (if floorCode code
          then s.dev.time.ticks + (j.floorEff - ticksSince (if j.step = 0 && !j.half then j.dispatch else j.firstDispatch) s.dev)
          else s.dev.time.ticks) ∧
        d.keys = { s.dev.keys with ports := d.keys.ports } ∧ d.fuses = s.dev.fuses ∧ d.custody = s.dev.custody ∧ d.net = s.dev.net)) ∧
    (j.cancelMark = false → v = 0 → lockedAgainst j st s.dev = false → limitsCode j.tenant st s.dev = 0 →
      quotaCode j.tenant st s.dev = 0 → journalCode j.tenant st s.dev = 0 → (drawsNonce st = true → s.dev.gather.service = true) → writesImage st = false →
      (handGates j st s.dev).2 = [] → st.half = false → st.more = false →
      let e := (writeIntents j st.intents (applyWrites j.id (handGates j st s.dev).1)).1
      (jobOf j.id e).isSome = true →
      Completes (.retire j.id .none) s (fun d => ∃ k m, jobOf j.id d = some k ∧ k.place = .retired b ∧ k.code = 0 ∧
        k.mirror = some m ∧ m.output = (judged j st).output ∧ m.verdict = (judged j st).verdict ∧
        (st.pair = none → m.output = st.output ∧ m.verdict = st.verdict) ∧ k.releasable = some e.time.ticks ∧
        d.keys = { e.keys with ports := d.keys.ports } ∧ d.fuses = e.fuses ∧ d.net = e.net ∧ d.custody = e.custody))

/-- CORE_SELFTEST_END returns a core or retires it (20 R651); JOURNAL_ENTRY_DURABLE applies an entry, or notes it durable for the
commit of its job, or tries it again (04 R147); FLOOR_REACHED frees a core held to a floor (04 R158); EXPIRY_SCAN ends every expired job with 0x0604 (04 R135);
RECOVERY_TRACE_WINDOW_END closes the window 500 µs after the latest withdrawal, and the trace is frozen once no window is open
(04 R170). -/
def Obligations.LehrAndGafferEventsTakeEffect : Prop :=
  (∀ (c : CoreRef) (s : State), benchRuns c.bench s.dev = true → (coreOf (lead c s.dev) s.dev).state = .testing →
    exec (.coreSelftestEnd c true) s = .next { s with dev := modUnit (lead c s.dev) (fun x => { x with state := .idle, since := s.dev.time.ticks }) s.dev } ∧
    (s.dev.gaffer.requests = [] → Completes (.coreSelftestEnd c false) s (fun d =>
      ((coreOf (lead c s.dev) d).state = .retired ∨ (benchOf c.bench d).fenced = true) ∧ d.fuses = s.dev.fuses))) ∧
  (∀ (n : Nat) (w : PendingWrite) (s : State), s.dev.flash.writes.find? (fun w => decide (w.id = n) && !w.durable) = some w → outOfReset s.dev = true →
    nvmServes s.dev = true → (∀ j ∈ s.dev.gaffer.jobs, n ∉ j.gates) →
    let left := { s.dev with flash := { s.dev.flash with writes := s.dev.flash.writes.filter (fun x => x.id ≠ n) } }
    (w.job = none → exec (.journalEntryDurable n true) s = .next { s with dev := applyWrite w.write left }) ∧
    (w.job.isSome = true → exec (.journalEntryDurable n true) s = .next { s with dev := { s.dev with flash := { s.dev.flash with
      writes := s.dev.flash.writes.map (fun x => if x.id = n then { x with durable := true } else x) } } }) ∧
    (w.attempts < 2 → Completes (.journalEntryDurable n false) s (fun d =>
      d.flash = { s.dev.flash with writes := s.dev.flash.writes.map (fun x => if x.id = n then { x with attempts := x.attempts + 1 } else x) } ∧
      d = { s.dev with flash := d.flash, events := d.events }))) ∧
  (∀ (j : Job) (b : Nat) (s : State), jobOf j.id s.dev = some j → j.place = .retired b → j.held.isSome = true → isReleasable s.dev j = true →
    exec (.floorReached j.id) s = .next { s with dev := modJob j.id (fun j => { j with held := none }) (freeJobCore j s.dev) }) ∧
  (∀ s : State, outOfReset s.dev = true → s.dev.gaffer.ready = true → s.dev.time.ticks % 256 = 0 →
    s.dev.gaffer.lastScan ≠ some s.dev.time.ticks →
    Completes .expiryScan s (fun d => d.gaffer.lastScan = some s.dev.time.ticks ∧ (∀ j ∈ d.gaffer.jobs, expired s.dev j = false) ∧
      (∀ j ∈ s.dev.gaffer.jobs, expired s.dev j = true → ∃ k ∈ d.gaffer.jobs, k.id = j.id ∧ k.place = .answered ∧ k.code = 0x0604) ∧
      d = { s.dev with gaffer := d.gaffer, flash := d.flash, benches := d.benches })) ∧
  (∀ s : State, outOfReset s.dev = true → .recovery ∈ s.dev.gaffer.traceOpen → s.dev.gaffer.traceEnds ≤ s.dev.time.ticks →
    Completes .recoveryTraceWindowEnd s (fun d => d.gaffer.traceOpen = s.dev.gaffer.traceOpen.erase .recovery ∧
      d.gaffer.trace = s.dev.gaffer.trace ∧ (s.dev.gaffer.traceOpen = [.recovery] → s.dev.gaffer.traceFrozen = false →
        recording d.gaffer = false ∧ d.gaffer.traceFrozen = true) ∧ d = { s.dev with gaffer := d.gaffer }))

/-- The release grid (04 R151, R152): at a count that is a multiple of 8 GRID_POINT completes, a job leaves only if it had
become releasable, and every bench notes that the grid point was served. A job that is releasable and alone leaves at the grid
point; a background step of a sweep that leaves is followed by the next step of that sweep, a job of tenant 0 of its own (04
R167; 05 R177). -/
def Obligations.TheReleaseGridReleases : Prop :=
  (∀ (leftA leftB : Nat) (s : State), outOfReset s.dev = true → started s.dev = true → s.dev.time.ticks % 8 = 0 →
      s.dev.keys.halted = false → jobsDistinct s.dev →
      (∀ p ∈ s.dev.keys.sweeps, p.2.active = true → p.2.waiting = true ∨ p.2.job.isSome = true) →
      (∀ j ∈ s.dev.gaffer.jobs, j.origin = .background → isReleasable s.dev j = true → ∀ p ∈ s.dev.keys.sweeps, p.2.job ≠ some j.id) →
      Completes (.gridPoint leftA leftB) s (fun d =>
        (∀ j ∈ s.dev.gaffer.jobs, (∀ k ∈ d.gaffer.jobs, k.id ≠ j.id) → isReleasable s.dev j = true) ∧
        (∀ k ∈ d.gaffer.jobs, ∃ j ∈ s.dev.gaffer.jobs, j.id = k.id) ∧
        (∀ p ∈ d.benches, p.2.lehr.gridDone = some s.dev.time.ticks) ∧ d.fuses = s.dev.fuses ∧
        d.keys = { s.dev.keys with ports := d.keys.ports })) ∧
  (∀ (leftA leftB : Nat) (j : Job) (s : State), outOfReset s.dev = true → started s.dev = true → s.dev.time.ticks % 8 = 0 → s.dev.keys.halted = false →
      s.dev.gaffer.jobs = [j] → isReleasable s.dev j = true → j.place = .answered →
      ((∀ p ∈ s.dev.keys.sweeps, p.2.active = true → p.2.waiting = true ∨ p.2.job.isSome = true) →
        (∀ f q cid ia il oa, j.origin = .host f q cid ia il oa →
          Completes (.gridPoint leftA leftB) s (fun d => d.gaffer.jobs = [])) ∧
        (j.origin = .background → (∀ p ∈ s.dev.keys.sweeps, p.2.job ≠ some j.id) →
          Completes (.gridPoint leftA leftB) s (fun d => d.gaffer.jobs = []))) ∧
      (∀ n w, j.origin = .background → s.dev.keys.sweeps = [(n, w)] → w.job = some j.id → w.active = true → w.waiting = false →
        0 < (tenantOf 0 s.dev).readyCap → Completes (.gridPoint leftA leftB) s (fun d => ∃ k, d.gaffer.jobs = [k] ∧ k.id = s.dev.gaffer.nextJob ∧ k.step = 1 ∧
          k.stream = .background n ∧ k.origin = .background ∧ k.tenant = 0)))

/-! ### Shares (05) -/

/-- The credit window boundary (05 R180): the counter of a tenant that requested a kind gains its share of the kind's capacity
and is kept within the capacity; that of a tenant that did not is zeroed; the window number rises by one. -/
def Obligations.WindowBoundaryRefillsCredits : Prop :=
  ∀ (kind t : Nat) (s : State), outOfReset s.dev = true → 320 * (s.dev.time.windowsDone + 1) ≤ s.dev.time.ticks → kind < 6 → t < 256 →
    let cap := capacityOf kind s.dev
    let all := (((List.range 256).filter (requestedKind s.dev kind)).map (fun u => weightOf u kind s.dev)).sum
    Completes .creditWindowBoundary s (fun d =>
      (creditOf kind t d).counter = (if requestedKind s.dev kind t then
          max (-(cap : Int)) (min cap ((creditOf kind t s.dev).counter + ((if all = 0 then 0 else weightOf t kind s.dev * cap / all : Nat) : Int)))
        else 0) ∧
      d.time = { s.dev.time with window := s.dev.time.window + 1, windowsDone := s.dev.time.windowsDone + 1 } ∧
      d.shares.grants = s.dev.shares.grants ∧ d.shares.pending = s.dev.shares.pending ∧ d.gaffer.jobs = s.dev.gaffer.jobs ∧
      d = { s.dev with time := d.time, shares := d.shares, gaffer := d.gaffer, events := d.events, out := d.out })

/-- Requests and grants (05 R181, R183, R187, R189): ARBITER_REQUEST that is alone and finds a free unit is granted it at once,
one that finds none waits; GRANT_RELEASE charges the tenant the ticks of an engine, the slots its port fetched, the blocks its
generator delivered (which then stand in the job's local memory) or the words moved; OVER_HOLD_CUTOFF of a grant held for longer
than the limit sets the flag, and its job ends with 0x0505. -/
def Obligations.UnitsAreGrantedChargedAndCutOff : Prop :=
  (∀ (c : CoreRef) (kind amount u : Nat) (us : List Nat) (j : Job) (s : State), jobOn c s.dev = some j → kind < 6 →
    (kind = 5 → c.bench < 8) → (kind = 4 → s.dev.gather.service = true) →
    pendingAt c.bench kind s.dev = [] → parkedFor (lead c s.dev) kind j.tenant s.dev = none → freeUnits c.bench kind s.dev = u :: us →
    Completes (.arbiterRequest c kind amount) s (fun d =>
      { bench := c.bench, kind := kind, unit := u, core := lead c s.dev, tenant := j.tenant, job := j.id, since := s.dev.time.ticks
        moved := if kind = 5 then min amount (Config.hubMoved j.id) else 0 } ∈ d.shares.grants ∧
      d.shares.pending = s.dev.shares.pending ∧ (creditOf kind j.tenant d).requested = true ∧
      (creditOf kind j.tenant d).counter = (creditOf kind j.tenant s.dev).counter ∧
      d = { s.dev with gaffer := d.gaffer, shares := d.shares, benches := d.benches })) ∧
  (∀ (c : CoreRef) (kind amount : Nat) (j : Job) (s : State), jobOn c s.dev = some j → kind < 6 →
    (kind = 4 → s.dev.gather.service = true) →
    pendingAt c.bench kind s.dev = [] → parkedFor (lead c s.dev) kind j.tenant s.dev = none → freeUnits c.bench kind s.dev = [] →
    Completes (.arbiterRequest c kind amount) s (fun d => d.shares.pending = s.dev.shares.pending ++
      [{ core := lead c s.dev, tenant := j.tenant, kind := kind, arrival := s.dev.shares.arrivals, tick := s.dev.time.ticks, amount := amount, job := j.id }] ∧
      d = { s.dev with gaffer := d.gaffer, shares := d.shares, benches := d.benches })) ∧
  (∀ (c : CoreRef) (kind unit units : Nat) (g : Grant) (s : State), grantOf (lead c s.dev) kind unit s.dev = some g →
    (kind = 4 → instancesReady s.dev.gather = true) →
    Completes (.grantRelease c kind unit units) s (fun d =>
      (creditOf kind g.tenant d).counter = (creditOf kind g.tenant s.dev).counter -
        ((if kind < 3 then max 1 (s.dev.time.ticks - g.since)
          else if kind = 4 then (generate s.dev.time.ticks g.bench units s.dev.gather).1.length / 16
          else if kind = 5 then units else g.moved : Nat) : Int) ∧
      (∀ t, t ≠ g.tenant → t < 256 → g.tenant < 256 → (creditOf kind t d).counter = (creditOf kind t s.dev).counter) ∧
      (∀ j, kind = 4 → jobOf g.job s.dev = some j →
        let drawn := (generate s.dev.time.ticks g.bench units s.dev.gather).1
        jobOf g.job d = some { j with drawn := j.drawn ++ drawn, drawnBlocks := j.drawnBlocks + drawn.length / 16 } ∧
        d.draws = s.dev.draws + drawn.length) ∧
      (kind ≠ 4 → d.gather = s.dev.gather ∧ d.draws = s.dev.draws ∧ (3 ≤ kind → d.gaffer = s.dev.gaffer) ∧
        d.gaffer = { s.dev.gaffer with jobs := d.gaffer.jobs } ∧
        ∀ id, (jobOf id d).map (fun j => { j with context := [] }) = (jobOf id s.dev).map (fun j => { j with context := [] })) ∧
      d = { s.dev with gaffer := d.gaffer, shares := d.shares, benches := d.benches, gather := d.gather, draws := d.draws
                       keys := { s.dev.keys with ports := d.keys.ports } })) ∧
  (∀ (c : CoreRef) (kind unit units : Nat) (g : Grant) (j : Job) (s : State), grantOf (lead c s.dev) kind unit s.dev = some g →
    32 * s.dev.shares.limitUs.toNat < s.dev.time.ticks - g.since → jobOf g.job s.dev = some j → jobsDistinct s.dev →
    Completes (.overHoldCutoff c kind unit units) s (fun d => d.shares.overFlag = true ∧ d.shares.overKind = BitVec.ofNat 3 kind ∧
      d.shares.overTenant = BitVec.ofNat 8 g.tenant ∧ d.shares.overCount = satInc s.dev.shares.overCount ∧
      (∃ k, jobOf g.job d = some k ∧ k.place = .answered ∧ k.code = 0x0505) ∧ d.fuses = s.dev.fuses ∧
      d.keys = { s.dev.keys with ports := d.keys.ports } ∧ d.net = s.dev.net))

/-! ### Engines (06, 08) -/

/-- MARVER_OPERATION_END completes with the outcome of its two passes (06 R203 to R215, R228, R229): both run without fault and
both give the staged result, the job's result is compared, and one that gives up (07 R262) ends with 0x0507; both give another
one, nothing is compared and the operation is to run again; a column or lane spills for the first time in the step, it is computed again in
safe mode; a spill in safe mode ends the job with 0x0502; a scratch line written for another tenant is read, with 0x0506;
results that differ, a second time, with 0x0501. ENGINE_BLOCK_COMPARE (08 R273 to R279, R284) processes a block of the segment
under its grant, or compares the two datapaths of the engine, and ends a re-entered job with 0x0501 where they differ, at a count
out of range or at a flag pair that is neither. -/
def Obligations.EngineOperationsEnd : Prop :=
  (∀ (c : CoreRef) (a b : Nat) (o : MarverOutcome) (j : Job) (st : Staged) (s : State), jobOn c s.dev = some j → j.staged = some st →
    let u := lead c s.dev
    holds u .marver a s.dev = true → holds u .marver b s.dev = true → pairOk u.bench a b s.dev = true →
    let pa := onePass u.bench a o.passA j s.dev
    let pb := onePass u.bench b o.passB j pa.1
    let spilled := pa.2.1 || pb.2.1
    let foreign := pa.2.2 || pb.2.2
    (spilled = false → foreign = false → o.passA.result = resultBytes st → o.passB.result = resultBytes st →
      (st.code ≠ 0x0507 → Completes (.marverOperationEnd c a b o) s (fun d => jobOf j.id d = some { j with compared := true } ∧
        (benchOf u.bench d).rows = (benchOf u.bench pb.1).rows ∧ (benchOf u.bench d).marver.spill = (benchOf u.bench s.dev).marver.spill ∧
        d = { s.dev with gaffer := d.gaffer, benches := d.benches })) ∧
      (st.code = 0x0507 → jobsDistinct s.dev → Completes (.marverOperationEnd c a b o) s (fun d =>
        ∃ k, jobOf j.id d = some k ∧ k.place = .answered ∧ k.code = 0x0507))) ∧
    (spilled = false → foreign = false → o.passA.result = o.passB.result → o.passA.result ≠ resultBytes st →
      exec (.marverOperationEnd c a b o) s = .next { s with dev := pb.1 }) ∧
    (spilled = true → foreign = false → j.safeMode = false → Completes (.marverOperationEnd c a b o) s (fun d =>
      (benchOf u.bench d).marver.spill = true ∧
      jobOf j.id d = some { j with safeMode := true, half := false, staged := none, verdict := none, compared := false } ∧
      d = { s.dev with gaffer := d.gaffer, benches := d.benches, events := d.events })) ∧
    (spilled = true → foreign = false → j.safeMode = true → jobsDistinct s.dev → Completes (.marverOperationEnd c a b o) s (fun d =>
      (benchOf u.bench d).marver.spill = true ∧ ∃ k, jobOf j.id d = some k ∧ k.place = .answered ∧ k.code = 0x0502)) ∧
    (foreign = true → jobsDistinct s.dev → Completes (.marverOperationEnd c a b o) s (fun d =>
      (benchOf u.bench d).marver.fault = true ∧ ∃ k, jobOf j.id d = some k ∧ k.place = .answered ∧ k.code = 0x0506)) ∧
    (spilled = false → foreign = false → o.passA.result ≠ o.passB.result → j.reentered = true → jobsDistinct s.dev →
      Completes (.marverOperationEnd c a b o) s (fun d => (benchOf u.bench d).marver.mismatch = true ∧
        ∃ k, jobOf j.id d = some k ∧ k.place = .answered ∧ k.code = 0x0501))) ∧
  (∀ (b n : Nat) (p : EnginePass) (j : Job) (d : Device), ∀ x ∈ foreignLines b n p j d, x.2 ≠ j.tenant ∧
    ∃ tag, tabGet x.1 (engineOf b .marver n d).scratch = some tag ∧ tag.toNat = x.2) ∧
  (∀ (c : CoreRef) (k : EngineKind) (n : Nat) (o : BlockOutcome) (j : Job) (g : Grant) (s : State), jobOn c s.dev = some j →
    k ≠ .marver → engineGrant (lead c s.dev) k n s.dev = some g →
    let u := lead c s.dev
    let beyond := ∃ count, o.lastCount = some count ∧ (if k = .punty then 8 else 16) < count
    let v := dataVerbOf j.recipe
    let left := blocksLeft v k s.dev j
    (o.difference = false → flagFault o = none → ¬ beyond →
      (o.point = .block → left ≠ 0 →
        exec (.engineBlockCompare c k n o) s = .next { s with dev := segmentStep v u k 1 g j s.dev } ∧
        ((left = 1 ∨ g.moved + 1 < segmentOf k j s.dev) → Completes (.engineBlockCompare c k n o) s (fun d =>
          d = processBlocks v k 1 g j s.dev ∧ jobOf j.id d = some (setDone k (doneBlocks k j + 1) j)))) ∧
      ((o.point ≠ .block ∨ left = 0) → pathsAgree (engineOf g.bench k g.unit s.dev) = true → exec (.engineBlockCompare c k n o) s = .next s) ∧
      ((o.point ≠ .block ∨ left = 0) → pathsAgree (engineOf g.bench k g.unit s.dev) = false → j.reentered = true → jobsDistinct s.dev →
        Completes (.engineBlockCompare c k n o) s (fun d => (engineBlock k (benchOf g.bench d)).mismatch = true ∧
          ∃ x, jobOf j.id d = some x ∧ x.place = .answered ∧ x.code = 0x0501))) ∧
    ((o.difference = true ∨ beyond) → j.reentered = true → jobsDistinct s.dev → Completes (.engineBlockCompare c k n o) s (fun d =>
      (engineBlock k (benchOf u.bench d)).mismatch = true ∧
      ∃ x, jobOf j.id d = some x ∧ x.place = .answered ∧ x.code = 0x0501)) ∧
    ((flagFault o).isSome = true → j.reentered = true → jobsDistinct s.dev → Completes (.engineBlockCompare c k n o) s (fun d =>
      (engineBlock k (benchOf u.bench d)).fault = true ∧
      ∃ x, jobOf j.id d = some x ∧ x.place = .answered ∧ x.code = 0x0501)))

/-- Known-answer tests (06 R232 to R234, R241; 08 R298, R299, R301, R302) and the digest cache (08 R295):
PERIODIC_KAT_WITHDRAWAL and MRV_, CIP_ and DIG_SELFTEST_START withdraw engines, an engine under test has no scratch contents;
ENGINE_KAT_END, once the test has taken its time, returns an engine whose outputs on the vectors are those of the ROM and whose
detectors caught what was forced to service, where no further test is due, and retires any other;
DIG_CACHE_FLUSH empties the cache of its bench. -/
def Obligations.KnownAnswerTestsRun : Prop :=
  (∀ (b : Nat) (s : State) (p : Nat), benchRuns b s.dev = true → katDue b s.dev = true → katPosition b s.dev = some p →
    engineHeld b (katUnit p).1 (katUnit p).2 s.dev = false → (engineOf b (katUnit p).1 (katUnit p).2 s.dev).causes = [] →
    Completes (.periodicKatWithdrawal b) s (fun d => (engineOf b (katUnit p).1 (katUnit p).2 d).state = .inTest ∧
      (engineOf b (katUnit p).1 (katUnit p).2 d).katCause = 1 ∧ (engineOf b (katUnit p).1 (katUnit p).2 d).scratch = [] ∧
      (benchOf b d).katNext = (p + 1) % 14 ∧ (benchOf b d).katLast = s.dev.time.ticks ∧
      d = { s.dev with gaffer := d.gaffer, shares := d.shares, benches := d.benches })) ∧
  (∀ (b : Nat) (k : EngineKind) (n : Nat) (f : KatFindings) (s : State), benchRuns b s.dev = true → (engineOf b k n s.dev).state = .inTest →
    (engineBlock k (benchOf b s.dev)).testBusy = false → (engineOf b k n s.dev).causes = [] → katOver b k n s.dev = true →
    (katPasses k f = true → Completes (.engineKatEnd b k n f) s (fun d => (engineOf b k n d).state = .inService ∧ (engineOf b k n d).lastKat = 1 ∧
      (engineOf b k n d).katCount = satInc (engineOf b k n s.dev).katCount ∧ d.fuses = s.dev.fuses ∧
      d.keys = { s.dev.keys with ports := d.keys.ports })) ∧
    (katPasses k f = false → Completes (.engineKatEnd b k n f) s (fun d => (engineOf b k n d).state = .retired ∧ (engineOf b k n d).lastKat = 2 ∧
      d.fuses = s.dev.fuses ∧ d.keys = { s.dev.keys with ports := d.keys.ports }))) ∧
  (∀ (b n : Nat) (m : BitVec 8) (s : State), campaignMay b .marver s.dev = true → m = BitVec.ofNat 8 (2 ^ n) → n < 8 →
    (engineOf b .marver n s.dev).state = .inService → (engineOf b .marver n s.dev).causes = [] → campaignRunning b .marver s.dev = 0 → engineHeld b .marver n s.dev = false →
    Completes (.mrvSelftestStart b m) s (fun d => (benchOf b d).marver.testBusy = true ∧ (benchOf b d).marver.testEngines = m ∧
      (engineOf b .marver n d).state = .inTest ∧ (engineOf b .marver n d).katCause = 3)) ∧
  (∀ (b n : Nat) (m : BitVec 4) (s : State), campaignMay b .cipher s.dev = true → m = BitVec.ofNat 4 (2 ^ n) → n < 4 →
    (engineOf b .cipher n s.dev).state = .inService → (engineOf b .cipher n s.dev).causes = [] → campaignRunning b .cipher s.dev = 0 → engineHeld b .cipher n s.dev = false →
    Completes (.cipSelftestStart b m) s (fun d => (benchOf b d).cipher.testBusy = true ∧
      (engineOf b .cipher n d).state = .inTest ∧ (engineOf b .cipher n d).katCause = 3)) ∧
  (∀ (b n : Nat) (m : BitVec 2) (s : State), campaignMay b .punty s.dev = true → m = BitVec.ofNat 2 (2 ^ n) → n < 2 →
    (engineOf b .punty n s.dev).state = .inService → (engineOf b .punty n s.dev).causes = [] → campaignRunning b .punty s.dev = 0 → engineHeld b .punty n s.dev = false →
    Completes (.digSelftestStart b m) s (fun d => (benchOf b d).punty.testBusy = true ∧
      (engineOf b .punty n d).state = .inTest ∧ (engineOf b .punty n d).katCause = 3)) ∧
  (∀ (b : Nat) (s : State), started s.dev = true → outOfReset s.dev = true → (benchOf b s.dev).inService = true →
    Completes (.digCacheFlush b) s (fun d => (benchOf b d).cache = [] ∧ (∀ c, c ≠ b → benchOf c d = benchOf c s.dev) ∧
      d = { s.dev with benches := d.benches }))

/-! ### The key store (03) -/

/-- KEY_LOOKUP at a port granted to the core (03 R74, R99, R101, R102, R110, R111; 05 R181): a key of the tenant, sound so far,
is delivered to the port, unmasked, its slots are counted and its tag verdict is due; any other handle is refused with the code
of the first check and delivers nothing; one whose chain is under conversion, or that the sequencer waits for, waits.
TAG_VERDICT ends the fetch, or puts the slot into the fault map and ends the job with 0x0504. -/
def Obligations.LookupsDeliverOrRefuse : Prop :=
  (∀ (c : CoreRef) (port : Nat) (h : BitVec 32) (j : Job) (s : State), jobOn c s.dev = some j → keyStoreRuns s.dev = true → port < 2 →
    (portGrant (lead c s.dev) port s.dev).isSome = true →
    let u := lead c s.dev
    let p := arriving u port false h j s.dev
    let n := p.fetchedSlots
    let asked := { j with fetched := if j.fetched.contains h then j.fetched else j.fetched ++ [h] }
    (portOf u port s.dev).waiting = false → (portOf u port s.dev).verdictDue = false →
    (lookupBlocked p s.dev = false → lookupCode j.tenant h s.dev = 0 → mapped (handleSlot h) s.dev = false →
      Completes (.keyLookup c port h) s (fun d => portOf u port d = {
          tenant := j.tenant, handle := h, job := some j.id, tick := s.dev.time.ticks, fetching := some (handleSlot h)
          engineKey := chainKeys (handleSlot h) s.dev, verdictDue := true
          fetchedSlots := n + (chainOf (handleSlot h) s.dev.keys).length } ∧ jobOf j.id d = some asked ∧
        d.keys.slots = s.dev.keys.slots ∧ d.keys.lookups.n = s.dev.keys.lookups.n + 1 ∧
        d = { s.dev with keys := d.keys, gaffer := d.gaffer, shares := d.shares })) ∧
    (lookupBlocked p s.dev = false → lookupCode j.tenant h s.dev ≠ 0 →
      Completes (.keyLookup c port h) s (fun d => portOf u port d = {
          tenant := j.tenant, handle := h, job := some j.id, tick := s.dev.time.ticks, code := lookupCode j.tenant h s.dev, fetchedSlots := n + 1 } ∧
        jobOf j.id d = some asked ∧ d.keys.slots = s.dev.keys.slots ∧
        d = { s.dev with keys := d.keys, gaffer := d.gaffer, shares := d.shares })) ∧
    (lookupBlocked p s.dev = true →
      exec (.keyLookup c port h) s = .next { s with dev := setPort u port {
        tenant := j.tenant, handle := h, job := some j.id, tick := s.dev.time.ticks, waiting := true, fetchedSlots := n } (countLookup s.dev) })) ∧
  (∀ (c : CoreRef) (port : Nat) (s : State), keyStoreRuns s.dev = true →
    let u := lead c s.dev
    let p := portOf u port s.dev
    p.verdictDue = true →
    (badSlot (handleSlot p.handle) s.dev = none →
      let e := setPort u port { p with fetching := none, verdictDue := false } s.dev
      exec (.tagVerdict c port) s = .next { s with dev := if s.dev.keys.awaits = some (handleSlot p.handle) then remaskGo e else e }) ∧
    (∀ i j, s.dev.keys.awaits ≠ some (handleSlot p.handle) → badSlot (handleSlot p.handle) s.dev = some i → p.job = some j → (jobOf j s.dev).isSome = true → jobsDistinct s.dev →
      Completes (.tagVerdict c port) s (fun d => i ∈ d.keys.faultMap ∧ d.keys.tagErrCount = s.dev.keys.tagErrCount + 1 ∧
        d.keys.tagErrSlot = BitVec.ofNat 20 i ∧ (∃ k, jobOf j d = some k ∧ k.place = .answered ∧ k.code = 0x0504) ∧
        d.keys.slots = s.dev.keys.slots ∧ d.fuses = s.dev.fuses)))

/-- A tenant reaches no key but its own (03 R4, R74): a lookup that passes names an Active or Suspended head of that tenant, of
the handle's generation, above the reserved slots; a Free, foreign, Continuation or reserved slot and another generation are
refused alike, with 0x0202, and an index beyond the part's range with 0x0201. -/
def Obligations.TenantsReachOnlyTheirKeys : Prop :=
  (∀ (t : Nat) (h : BitVec 32) (d : Device), lookupCode t h d = 0 →
    (slotOf (handleSlot h) d.keys).tenant = t ∧ (slotOf (handleSlot h) d.keys).gen = handleGen h ∧ 256 ≤ handleSlot h ∧
    handleSlot h < slotCount d ∧ d.keys.refusing = false ∧
    ((slotOf (handleSlot h) d.keys).state = .active ∨ (slotOf (handleSlot h) d.keys).state = .suspended)) ∧
  (∀ (t : Nat) (h : BitVec 32) (d : Device), handleSlot h < slotCount d →
    ((slotOf (handleSlot h) d.keys).state = .free ∨ (slotOf (handleSlot h) d.keys).tenant ≠ t ∨
      (slotOf (handleSlot h) d.keys).state = .continuation ∨ handleSlot h < 256 ∨ (slotOf (handleSlot h) d.keys).gen ≠ handleGen h) →
    lookupCode t h d = 0x0202) ∧
  (∀ (t : Nat) (h : BitVec 32) (d : Device), slotCount d ≤ handleSlot h → lookupCode t h d = 0x0201)

/-- A deleted key is gone (03 R72, R84, R89): its head is Free, of the next generation, and no handle to that slot passes. -/
def Obligations.DeletedKeysAreGone : Prop :=
  ∀ (head : Nat) (d : Device), 1 ≤ (slotOf head d.keys).length →
    let k := deleteChain d head
    (slotOf head k).state = .free ∧ (slotOf head k).gen = nextGen (slotOf head d.keys).gen ∧
    (slotOf head k).gen ≠ (slotOf head d.keys).gen ∧
    (∀ i, i ∉ chainOf head d.keys → slotOf i k = slotOf i d.keys) ∧
    ∀ (t : Nat) (h : BitVec 32), handleSlot h = head → lookupCode t h { d with keys := k } ≠ 0

/-- Usage (03 R91, R92): a key at its limit is refused with 0x0402, a Suspended one with 0x0204, one of another tenant or
generation with 0x0202; a use raises the counter by one, saturating, and leaves what the key delivers. -/
def Obligations.UsageIsCountedAndLimited : Prop :=
  ∀ (t head : Nat) (gen : BitVec 12) (k : KeyStore),
    let s := slotOf head k
    (usageCheck t head gen k = 0 ↔ s.tenant = t ∧ s.gen = gen ∧ s.state = .active ∧ (s.usageLimit = 0 ∨ s.usageCount ≠ s.usageLimit)) ∧
    (s.tenant = t → s.gen = gen → s.state = .suspended → usageCheck t head gen k = 0x0204) ∧
    (s.tenant = t → s.gen = gen → s.state = .active → s.usageLimit ≠ 0 → s.usageCount = s.usageLimit → usageCheck t head gen k = 0x0402) ∧
    (∀ c : Custody, s.state = .active → (slotOf head (useOnce c head k)).usageCount = satInc s.usageCount ∧
      delivered c head (slotOf head (useOnce c head k)) = delivered c head s ∧
      tagOk c head (slotOf head (useOnce c head k)) = true ∧ (∀ i, i ≠ head → slotOf i (useOnce c head k) = slotOf i k))

/-- Conversion (03 R106, R107): a record converted to the other epoch delivers the same key material, carries a tag that
matches, and keeps every attribute. -/
def Obligations.ConversionKeepsTheKey : Prop :=
  ∀ (c : Custody) (i : Nat) (s : Slot),
    delivered c i (convert c i s) = delivered c i s ∧ tagOk c i (convert c i s) = true ∧ (convert c i s).epoch = !s.epoch ∧
    convert c i s = { s with epoch := !s.epoch, material := (convert c i s).material, tag := (convert c i s).tag }

/-- Re-masking (03 R105 to R111, R123; 01 R15): REMASK_NOW and REMASK_INTERVAL_EXPIRY begin one with a drawn root under the
other epoch, the session keys as before under it, or the request is queued while one runs or without device service; REMASK_STEP converts the slots before the
cursor's last, which stays under conversion until CONVERSION_END, or waits for a head in use; after the last slot the root no
longer used is erased; BENCH_ROW_CONVERSION_END rewrites one row of a bench under the next key, and every row reads as before.
SWEEP_STEP (03 R115, R116) stages a step of its sweep on the step's own job; its commit with no head left completes the sweep. -/
def Obligations.RemaskingAndSweepsProceed : Prop :=
  ((∀ s : State, keyStoreRuns s.dev = true → started s.dev = true → s.dev.keys.remaskActive = false → s.dev.gather.service = true →
      Completes .remaskNow s (fun d => d.keys.epoch = !s.dev.keys.epoch ∧ d.keys.remaskActive = true ∧ d.keys.cursor = 0 ∧
        d.keys.lastRemask = s.dev.time.ticks ∧ rootOf d.keys.epoch d.custody = bytesBv 256 ((drawn 8 (32 + benchKeyBytes s.dev) (deviceReseed 8 s.dev)).take 32) ∧
        rootOf s.dev.keys.epoch d.custody = rootOf s.dev.keys.epoch s.dev.custody ∧ d.keys.slots = s.dev.keys.slots ∧
        (∀ i, clearKeys d i (sessionOf i d) = clearKeys s.dev i (sessionOf i s.dev)) ∧
        d = { s.dev with custody := d.custody, keys := d.keys, net := d.net, benches := d.benches, gather := d.gather, draws := d.draws })) ∧
    (∀ s : State, keyStoreRuns s.dev = true → started s.dev = true → (s.dev.keys.remaskActive = true ∨ s.dev.gather.service = false) →
      exec .remaskNow s = .next { s with dev := { s.dev with keys := { s.dev.keys with remaskQueued := true } } }) ∧
    (∀ s : State, keyStoreRuns s.dev = true → s.dev.keys.remaskInterval ≠ 0 → s.dev.keys.remaskActive = false → s.dev.gather.service = true →
      s.dev.keys.lastRemask + 3600 * secTicks * s.dev.keys.remaskInterval.toNat ≤ s.dev.time.ticks →
      Completes .remaskIntervalExpiry s (fun d => d.keys.epoch = !s.dev.keys.epoch ∧ d.keys.remaskActive = true ∧ d.keys.cursor = 0 ∧
        rootOf d.keys.epoch d.custody = bytesBv 256 ((drawn 8 (32 + benchKeyBytes s.dev) (deviceReseed 8 s.dev)).take 32) ∧ d.keys.slots = s.dev.keys.slots)) ∧
    (∀ s : State, keyStoreRuns s.dev = true → s.dev.keys.remaskActive = true → s.dev.keys.converting = none → s.dev.keys.stepLeft = 0 →
      stepDue s.dev = true → s.dev.keys.cursor < slotCount s.dev → (∀ p ∈ s.dev.keys.ports, p.2.waiting = false) →
      let n := min 256 (slotCount s.dev - s.dev.keys.cursor)
      let last := s.dev.keys.cursor + n - 1
      ((∀ i, s.dev.keys.cursor ≤ i → i ≤ last → fetched i s.dev = false) →
        Completes .remaskStep s (fun d => d.keys.converting = some last ∧ d.keys.cursor = last ∧ d.keys.lastStep = some s.dev.time.ticks ∧
          d.keys.stepLeft = 0 ∧
          (∀ i, s.dev.keys.cursor ≤ i → i < last → ∀ x, tabGet i d.keys.slots = some x → x.epoch = s.dev.keys.epoch) ∧
          (∀ i, (i < s.dev.keys.cursor ∨ last ≤ i) → slotOf i d.keys = slotOf i s.dev.keys) ∧ d = { s.dev with keys := d.keys })) ∧
      (fetched s.dev.keys.cursor s.dev = true →
        exec .remaskStep s = .next { s with dev := { s.dev with keys := { s.dev.keys with
          stepLeft := n, lastStep := some s.dev.time.ticks, awaits := some (headOfSlot s.dev.keys.cursor s.dev) } } })) ∧
    (∀ (i : Nat) (s : State), keyStoreRuns s.dev = true → s.dev.keys.remaskActive = true → s.dev.keys.converting = some i →
      (∀ p ∈ s.dev.keys.ports, p.2.waiting = false) →
      (i + 1 < slotCount s.dev → Completes .conversionEnd s (fun d => d.keys.converting = none ∧ d.keys.cursor = i + 1 ∧
        d.keys.remaskActive = true ∧ (∀ k, k ≠ i → slotOf k d.keys = slotOf k s.dev.keys) ∧ d = { s.dev with keys := d.keys })) ∧
      (slotCount s.dev ≤ i + 1 → s.dev.keys.remaskQueued = false → Completes .conversionEnd s (fun d => d.keys.remaskActive = false ∧
        d.keys.completed = satInc s.dev.keys.completed ∧ rootOf (!s.dev.keys.epoch) d.custody = 0 ∧
        rootOf s.dev.keys.epoch d.custody = rootOf s.dev.keys.epoch s.dev.custody ∧
        d = { s.dev with custody := d.custody, keys := d.keys, events := d.events }))) ∧
    (∀ (b row : Nat) (s : State), outOfReset s.dev = true → (benchOf b s.dev).inService = true → (benchOf b s.dev).halted = false →
      (benchOf b s.dev).rescramble = some row →
      (row + 1 < 4096 ∨ (benchOf b s.dev).rescrambleQueued = false) →
      Completes (.benchRowConversionEnd b) s (fun d =>
        (row + 1 < 4096 → benchOf b d = { benchOf b s.dev with rescramble := some (row + 1), rows := (benchOf b d).rows } ∧
          (∀ r, readRow (benchOf b d) r = readRow (benchOf b s.dev) r)) ∧
        (4096 ≤ row + 1 → benchOf b d = { benchOf b s.dev with
            rescramble := none, benchKey := (benchOf b s.dev).nextKey, nextKey := 0, rowEpoch := !(benchOf b s.dev).rowEpoch
            rows := (benchOf b d).rows } ∧ readRow (benchOf b d) row = readRow (benchOf b s.dev) row) ∧
        (∀ x, tabGet row (benchOf b d).rows = some x → x.epoch = !(benchOf b s.dev).rowEpoch) ∧
        (∀ r, r ≠ row → tabGet r (benchOf b d).rows = tabGet r (benchOf b s.dev).rows) ∧
        d = { s.dev with benches := d.benches }))) ∧
  (∀ (n : Nat) (c : CoreRef) (j : Job) (s : State),
      let w := tabGetD n ({} : Sweep) s.dev.keys.sweeps
      keyStoreRuns s.dev = true → w.active = true → state s.dev = .operational → sweepJob w s.dev = some (c, j) →
      verbReady j.recipe (sweepVerb n) c j s.dev →
      Completes (.sweepStep n) s (stagedOnly j { intents := [.sweepStep n (stepBytes (sweepVerb n) j s.dev)] } s.dev)) ∧
  (∀ (n : Nat) (nonces : Bytes) (d : Device),
      let w := tabGetD n ({} : Sweep) d.keys.sweeps
      w.active = true → w.waiting = false → sweepHeads n d.keys = [] →
      commitSweep n nonces d = sweepComplete n d ∧ tabGetD n ({} : Sweep) (commitSweep n nonces d).keys.sweeps =
        { w with active := false, complete := true, waiting := false, job := none } ∧
      (commitSweep n nonces d).keys.slots = d.keys.slots)

/-! ### Gather (09) -/

/-- GATHER_WINDOW_END (09 R305 to R310): a window that passes sets the trim of the next and waits for the conditioner; a run of
81 equal bits fails the source with cause 1, 840 bits like the first with cause 2. CONDITIONED_BLOCK (09 R311, R312, R330): the
oldest window waiting is conditioned under the source's header, and its block enters the pool, or is discarded at a full one.
RESEED_TIMER_EXPIRY (09 R317) marks its instance; SOURCE_WAKE_TEST_END (22 R697) ends the wake, or stops the source with cause
5. -/
def Obligations.WindowsBlocksAndReseeds : Prop :=
  (∀ (n : Nat) (bits : List Bool) (s : State),
      let x := sourceState n s.dev.gather
      let longest := (bits.foldl runBit (x.run, x.lastBit, 0)).2.2
      sourceRuns n s.dev = true → x.state = .healthy → x.waking = false → bits.length = 1024 →
      (longest < 81 → likeFirst bits < 840 → x.trim ≠ 0 → x.trim ≠ 0x3F →
        Completes (.gatherWindowEnd n bits) s (fun d =>
          let y := sourceState n d.gather
          y.state = .healthy ∧ y.trim = nextTrim (onesOf bits) x.trim ∧ y.lastOnes = onesOf bits ∧ y.windows = x.windows + 1 ∧
          y.passed = x.passed ++ [windowBytes bits] ∧ y.longestRun = max x.longestRun longest ∧ y.pinned = 0 ∧
          (∀ m, m ≠ n → sourceState m d.gather = sourceState m s.dev.gather) ∧ d = { s.dev with gather := d.gather })) ∧
      (81 ≤ longest → Completes (.gatherWindowEnd n bits) s (fun d => (sourceState n d.gather).state = .failed ∧
        (sourceState n d.gather).cause = 1 ∧ d.fuses = s.dev.fuses ∧ d.keys = { s.dev.keys with ports := d.keys.ports })) ∧
      (longest < 81 → 840 ≤ likeFirst bits → Completes (.gatherWindowEnd n bits) s (fun d =>
        (sourceState n d.gather).state = .failed ∧ (sourceState n d.gather).cause = 2))) ∧
  ((∀ (n : Nat) (s : State), sourceRuns n s.dev = true → (sourceState n s.dev.gather).passed ≠ [] →
      Completes (.conditionedBlock n) s (fun d =>
        (sourceState n d.gather).passed = (sourceState n s.dev.gather).passed.drop 1 ∧
        (sourceState n d.gather).windowNo = (sourceState n s.dev.gather).windowNo + 1 ∧
        d.gather.pool.length ≤ s.dev.gather.pool.length + 1 ∧
        (s.dev.gather.service = true → 512 ≤ s.dev.gather.pool.length → ∀ x ∈ d.gather.pool, x ∈ s.dev.gather.pool) ∧
        (∀ w rest, (sourceState n s.dev.gather).passed = w :: rest → s.dev.gather.service = true → s.dev.gather.pool = [] →
          d.gather.pool = [{ source := n, bits := conditionBlock n (sourceState n s.dev.gather).windowNo w }]) ∧
        (instancesReady s.dev.gather = true → d = { s.dev with gather := d.gather, shares := d.shares, benches := d.benches }) ∧
        d.fuses = s.dev.fuses ∧ d.keys = { s.dev.keys with ports := d.keys.ports } ∧ d.draws = s.dev.draws)) ∧
    (∀ (b : Nat) (s : State), outOfReset s.dev = true → b < 8 → (instOf b s.dev.gather).ready = true →
      (instOf b s.dev.gather).lastReseed + 1000 * msTicks ≤ s.dev.time.ticks →
      exec (.reseedTimerExpiry b) s = .next { s with dev := { s.dev with
        gather := setInst b { instOf b s.dev.gather with reseedDue := true } s.dev.gather } }) ∧
    (∀ (n : Nat) (s : State), sourceRuns n s.dev = true → (sourceState n s.dev.gather).state = .healthy →
      (sourceState n s.dev.gather).waking = true →
      exec (.sourceWakeTestEnd n true) s = .next { s with dev := { s.dev with gather := { s.dev.gather with
        sources := tabSet n { sourceState n s.dev.gather with waking := false } s.dev.gather.sources } } } ∧
      Completes (.sourceWakeTestEnd n false) s (fun d => (sourceState n d.gather).state = .failed ∧ (sourceState n d.gather).cause = 5)))

/-- A seed is the bytes of the oldest block of the pool and of the oldest of a different source, both leave the pool, and none
is formed while all blocks are of one source (09 R313). -/
def Obligations.SeedsComeFromTwoSources : Prop :=
  (∀ (a b : PoolBlock) (l r : List PoolBlock), (∀ x ∈ l, x.source = a.source) → b.source ≠ a.source →
    takeSeed (a :: l ++ b :: r) = some (bvBytes 24 a.bits ++ bvBytes 24 b.bits, l ++ r)) ∧
  (∀ pool : List PoolBlock, takeSeed pool = none ↔ ∀ a ∈ pool, ∀ b ∈ pool, a.source = b.source)

/-! ### Tamper (17) -/

/-- A detector of a quiet source trips (17 R580, R583, R584, R602): the source is tripped and its trip counted; no job, session,
quorum or sweep survives, lookups are refused, and an Owned or Operational part is Locked, with the cause of the class. -/
def Obligations.TripsStopThePart : Prop :=
  ∀ (n : Nat) (det : Detector) (s : State), sourceWatched n s.dev = true → masked n det s.dev = false →
    ((sourceOf n s.dev).state = .quiet →
      Completes (.detectorTrip n det) s (fun d =>
        (sourceOf n d).state = .tripped ∧ detectorHigh n det d = true ∧ (sourceOf n d).trips = satInc (sourceOf n s.dev).trips ∧
        d.gaffer.jobs = [] ∧ d.gaffer.stopped = true ∧ d.custody.quorum = none ∧ d.custody.sessions = [] ∧ d.keys.refusing = true ∧
        d.keys.ports = [] ∧ d.custody.sealKey = 0 ∧ (∀ p ∈ d.net.sessions, p.2.state = .free) ∧ (∀ p ∈ d.keys.sweeps, p.2.active = false) ∧
        d.flash.imageWrite = none ∧ d.power.level = .closed ∧ d.gather.pool = [] ∧
        (state s.dev = .owned ∨ state s.dev = .operational → state d = .locked ∧
          (n < 6 → d.custody.lockCause = .breach) ∧ (6 ≤ n → s.dev.custody.lockCause ≠ .breach → d.custody.lockCause = .excursion)) ∧
        d.fuses = s.dev.fuses ∧ d.time = s.dev.time)) ∧
    ((sourceOf n s.dev).state = .tripped → Completes (.detectorTrip n det) s (fun d => detectorHigh n det d = true ∧
      (sourceOf n d).state = .tripped ∧ (sourceOf n d).trips = (sourceOf n s.dev).trips ∧ d = { s.dev with tamper := d.tamper }))

/-- A Breach fires the Cullet line (17 R588 to R590): masking roots and scramble key are erased and the overwrite starts; at its
end every slot is Free. An Excursion leaves the roots. The burns of a trip (17 R583, R585, R587): with supplies and temperature quiet, the latch of the source burns the lock and the
evidence that it calls for, and is gone. -/
def Obligations.BreachErasesAndLatchesBurn : Prop :=
  ((∀ (n : Nat) (det : Detector) (s : State), sourceWatched n s.dev = true → masked n det s.dev = false →
      (sourceOf n s.dev).state = .quiet →
      Completes (.detectorTrip n det) s (fun d =>
        (n < 6 → d.custody.root0 = 0 ∧ d.custody.root1 = 0 ∧ d.custody.scrambleKey = 0 ∧ d.tamper.culletFired = true ∧
          d.tamper.overwriteActive = true ∧ d.tamper.firings = satInc s.dev.tamper.firings) ∧
        (6 ≤ n → d.custody.root0 = s.dev.custody.root0 ∧ d.custody.root1 = s.dev.custody.root1 ∧
          d.custody.scrambleKey = s.dev.custody.scrambleKey ∧ d.keys.slots = s.dev.keys.slots))) ∧
    (∀ s : State, outOfReset s.dev = true → s.dev.tamper.overwriteActive = true →
      Completes .culletOverwriteEnd s (fun d => d.tamper.overwriteActive = false ∧ d.tamper.overwriteDone = true ∧ d.keys.slots = [] ∧
        (∀ i, (slotOf i d.keys).state = .free) ∧ d = { s.dev with tamper := d.tamper, keys := d.keys, events := d.events }))) ∧
  (∀ (l : TripLatch) (s : State), outOfReset s.dev = true → suppliesQuiet s.dev = true → s.dev.battery.latches = [l] → l.night = false →
      Completes (.tripFuseBurn l.source) s (fun d => d.battery.latches = [] ∧
        (l.evidenceDue = true → saturated (fuseGet (.evidence l.source) s.dev.fuses) = false →
          thermVal (fuseGet (.evidence l.source) d.fuses) = thermVal (fuseGet (.evidence l.source) s.dev.fuses) + 1) ∧
        (l.lockDue = true → lifecycle s.dev.fuses = .operational → saturated s.dev.fuses.lockCount = false →
          thermVal d.fuses.lockCount = thermVal s.dev.fuses.lockCount + 1) ∧
        (l.evidenceDue = false → l.lockDue = false → d.fuses = s.dev.fuses) ∧
        d = { s.dev with fuses := d.fuses, battery := d.battery, events := d.events }))

/-- Challenges and Notices (17 R581, R582, R604): every 100 ms DETECTOR_CHALLENGE challenges the next enabled detector;
CHALLENGE_END of one that did not answer, and ANALOG_PAIR_MISMATCH, raise a Notice of 10 s, whose stretch ALARM_STRETCH_END
ends; while the battery domain watches, in Night or with PWR_OK or RST_N low, a failed NIGHT_MESH_CHECK sets its latch (17 R603; 23
R719). -/
def Obligations.ChallengesAndNotices : Prop :=
  (∀ (p : Nat) (s : State), outOfReset s.dev = true → s.dev.tamper.armed = true → s.dev.tamper.challenge = none →
    s.dev.tamper.lastChallenge + 100 * msTicks ≤ s.dev.time.ticks → nextPosition s.dev = some p →
    exec .detectorChallenge s = .next { s with dev := challengeAt p s.dev } ∧
    Completes .detectorChallenge s (fun d => d.tamper.challenge = some (p / 2, if p % 2 = 0 then .detA else .detB, s.dev.time.ticks) ∧
      masked (p / 2) (if p % 2 = 0 then .detA else .detB) d = true ∧ d.tamper.nextChallenge = (p + 1) % 32)) ∧
  (∀ (c : Nat × Detector × Nat) (s : State), outOfReset s.dev = true → s.dev.tamper.challenge = some c →
    exec (.challengeEnd true true) s = .next { s with dev := { s.dev with tamper := { s.dev.tamper with challenge := none } } } ∧
    ∀ a b, (a && b) = false → Completes (.challengeEnd a b) s (fun d => d.tamper.challenge = none ∧ (sourceOf c.1 d).noticeSeen = true ∧
      (sourceOf c.1 d).notices = satInc (sourceOf c.1 s.dev).notices ∧
      (sourceOf c.1 d).noticeUntil = some (s.dev.time.ticks + 10 * secTicks) ∧
      d = { s.dev with tamper := d.tamper, events := d.events, power := d.power })) ∧
  (∀ (n : Nat) (det : Detector) (s : State), sourceWatched n s.dev = true → 6 ≤ n → n ≤ 9 → (sourceOf n s.dev).detA = false →
    (sourceOf n s.dev).detB = false →
    Completes (.analogPairMismatch n det) s (fun d => (sourceOf n d).notices = satInc (sourceOf n s.dev).notices ∧
      (sourceOf n d).noticeUntil = some (s.dev.time.ticks + 10 * secTicks) ∧ (sourceOf n d).state = (sourceOf n s.dev).state ∧
      d = { s.dev with tamper := d.tamper, events := d.events, power := d.power })) ∧
  (∀ (n t : Nat) (s : State), (sourceOf n s.dev).noticeUntil = some t → t ≤ s.dev.time.ticks →
    exec (.alarmStretchEnd n) s = .next { s with dev := setSource n { sourceOf n s.dev with noticeUntil := none } s.dev }) ∧
  (∀ (n : Nat) (s : State), batteryWatches s.dev = true → n ≤ 4 → srcEnabled n s.dev = true →
    (∀ l ∈ s.dev.battery.latches, ¬ (l.source = n ∧ l.night = true)) →
    exec (.nightMeshCheck n true) s = .next { s with dev := { s.dev with battery := { s.dev.battery with
      latches := s.dev.battery.latches ++ [{ source := n, seconds := s.dev.battery.opSeconds, night := true }] } } })

/-- A source clears (17 R592): once both detectors are quiet it is clearing, and 1 s later quiet. A
detector that goes high before then interrupts the clearing. -/
def Obligations.SourcesClear : Prop :=
  (∀ (n : Nat) (s : State), sourceWatched n s.dev = true → (sourceOf n s.dev).state = .tripped → (sourceOf n s.dev).detA = true →
    (sourceOf n s.dev).detB = false →
    exec (.detectorQuiet n .detA) s = .next { s with dev := setSource n { sourceOf n s.dev with
      detA := false, state := .clearing, quietSince := s.dev.time.ticks } s.dev }) ∧
  (∀ (n : Nat) (s : State), sourceWatched n s.dev = true → (sourceOf n s.dev).state = .tripped → (sourceOf n s.dev).detB = true →
    Completes (.detectorQuiet n .detB) s (fun d => (sourceOf n d).detB = false ∧ (sourceOf n d).detA = (sourceOf n s.dev).detA ∧
      (sourceOf n d).state = (if (sourceOf n s.dev).detA then .tripped else .clearing) ∧ d = { s.dev with tamper := d.tamper })) ∧
  (∀ (n : Nat) (s : State), sourceWatched n s.dev = true → (sourceOf n s.dev).state = .clearing →
    ((sourceOf n s.dev).quietSince + secTicks ≤ s.dev.time.ticks →
      exec (.sourceClear n) s = .next { s with dev := setSource n { sourceOf n s.dev with state := .quiet } s.dev }) ∧
    (s.dev.time.ticks < (sourceOf n s.dev).quietSince + secTicks → exec (.sourceClear n) s = .next s)) ∧
  (∀ (n : Nat) (det : Detector) (s : State), sourceWatched n s.dev = true → masked n det s.dev = false →
    (sourceOf n s.dev).state = .clearing → Completes (.detectorTrip n det) s (fun d => detectorHigh n det d = true ∧
      (sourceOf n d).state = .tripped ∧ d = { s.dev with tamper := d.tamper }))

/-! ### Power states, battery, debug (22) -/

/-- Supplies (22 R699, R703, R704, R710; 19 R626): the main supplies fall into Night, the battery domain switches over, is measured,
is lost, and counts the operating seconds. Dusk and Night (22 R688 to R701): automatic Dusk, entry to Dusk, the wake to Noon, and Night ready once the work is done. -/
def Obligations.SuppliesAndPowerStates : Prop :=
  ((∀ s : State, Completes .mainSuppliesFall s (fun d => d.pins.mainOn = false ∧ outOfReset d = false ∧ d.fuses = s.dev.fuses ∧
      d.battery = s.dev.battery ∧ d.flash.log = s.dev.flash.log ∧ d.flash.roots = s.dev.flash.roots ∧ d.flash.ceilings = s.dev.flash.ceilings ∧
      d.keys = {} ∧ d.gaffer = {} ∧ d.net = {} ∧ d.custody = {} ∧ d.benches = [] ∧ d.out = s.dev.out)) ∧
    (∀ (v : Bool) (s : State), exec (.batterySwitchover v) s = .next { s with dev := { s.dev with battery := { s.dev.battery with onVbat := v } } }) ∧
    (∀ (mv : Nat) (s : State), outOfReset s.dev = true → exec (.vbatMeasurement mv) s = .next { s with dev := { s.dev with
      power := { s.dev.power with vbatMv := mv % 4096, vbatLow := decide (mv < 2500) } } }) ∧
    (∀ s : State, s.dev.battery.onVbat = true → exec .lossOfVbat s = .next { s with dev := { s.dev with battery := { lost := true, onVbat := true } } }) ∧
    (∀ s : State, exec .operatingSecond s = .next { s with dev := { s.dev with
      battery := { s.dev.battery with opSeconds := satInc s.dev.battery.opSeconds } } })) ∧
  ((∀ s : State, outOfReset s.dev = true → started s.dev = true → duskState s.dev = true → s.dev.power.mode = .noon → idleLong s.dev = true →
      exec .automaticDuskTimer s = .next { s with dev := { s.dev with power := { s.dev.power with mode := .duskRequested, duskEntering := true } } }) ∧
    (∀ s : State, outOfReset s.dev = true → started s.dev = true → duskState s.dev = true → s.dev.power.mode = .duskRequested →
      partIdle s.dev = true → s.dev.power.wakePending = false →
      Completes .duskEntry s (fun d => d.power.mode = .dusk ∧ d.power.duskSince = s.dev.time.ticks ∧ benchesAwake d = false ∧
        (∀ p ∈ d.custody.heartbeats, isBench p.1 = false) ∧ d = { s.dev with power := d.power, custody := d.custody })) ∧
    (∀ s : State, outOfReset s.dev = true → s.dev.power.mode = .waking →
      Completes .wakeComplete s (fun d => d.power.mode = .noon ∧ (∀ p ∈ d.gather.sources, p.2.state = .healthy → p.2.waking = true) ∧
        d.fuses = s.dev.fuses ∧ d.keys = { s.dev.keys with ports := d.keys.ports } ∧ d.net = s.dev.net)) ∧
    (∀ s : State, outOfReset s.dev = true → s.dev.power.mode = .preparingNight → s.dev.gaffer.jobs = [] → s.dev.flash.writes = [] →
      s.dev.events.toFlash = [] → s.dev.events.buffers = [] →
      exec .nightReady s = .next { s with dev := { s.dev with power := { s.dev.power with mode := .nightReady } } }))

/-- The debug gate (22 R705, R707; 17 R600): level Full opens only in Blank or Erased, a refused request is counted, a close and the
end of Diagnostic close the level, an access beyond the level trips T15, and a disable fuse burns only at level Full. -/
def Obligations.DebugIsGated : Prop :=
  (∀ (l : Nat) (s : State), outOfReset s.dev = true →
    (l = 2 → fullMayOpen s.dev = true → Completes (.tapOpen l) s (fun d => d.power.level = .full ∧
      d = { s.dev with power := d.power, events := d.events })) ∧
    (l ≠ 2 ∨ fullMayOpen s.dev = false → exec (.tapOpen l) s = .next { s with dev := { s.dev with power := { s.dev.power with
      refusedLevel := BitVec.ofNat 2 l, refusedCount := satInc s.dev.power.refusedCount } } })) ∧
  (∀ s : State, outOfReset s.dev = true → Completes .tapClose s (fun d => d.power.level = .closed ∧
    d = { s.dev with power := d.power, events := d.events })) ∧
  (∀ s : State, outOfReset s.dev = true → s.dev.power.level = .diagnostic → s.dev.power.diagEnds ≤ s.dev.time.ticks →
    Completes .diagnosticExpiry s (fun d => d.power.level = .closed ∧ d = { s.dev with power := d.power, events := d.events })) ∧
  (∀ s : State, outOfReset s.dev = true → s.dev.tamper.armed = true → srcEnabled 15 s.dev = true →
    Completes .tapAccessBeyondLevel s (fun d => (sourceOf 15 d).detA = true ∧ (sourceOf 15 d).state = .tripped ∧ d.fuses = s.dev.fuses)) ∧
  (∀ (n : Nat) (s : State), outOfReset s.dev = true → s.dev.power.level = .full → mayDisable n = true →
    Completes (.tamperDisableBurn n) s (fun d => srcEnabled n d = false ∧ (∀ m, m ≠ n → srcEnabled m d = srcEnabled m s.dev) ∧
      d = { s.dev with fuses := { s.dev.fuses with tamperDisable := d.fuses.tamperDisable } }))

/-! ### The event recorder and the SMBus target (19) -/

/-- The recorder (19 R628, R631, R632, R636, R639): the port takes the submission it serves first; a Tamper record is always
stored, any other only while its bucket holds a token, else it is suppressed and counted; a summary that falls due is stored
with the first token; a page goes to the flash log, or is skipped at a failure and its records wait for the next page. -/
def Obligations.EventsAreAccepted : Prop :=
  (∀ (x : Submission) (s : State), outOfReset s.dev = true → leastBy servedBefore s.dev.events.buffers = some x →
    (s.dev.events.lastAccept = none ∨ ∃ t, s.dev.events.lastAccept = some t ∧ t + 4 ≤ s.dev.time.ticks) →
    let b := bucketOf x.code.toNat s.dev.events
    (x.severity = .tamper ∨ (100000 ≤ b.level ∧ b.summaryDue = false) → Completes .eventAccept s (fun d =>
      d.events.nextSeq = s.dev.events.nextSeq + 1 ∧ d.events.lastAccept = some s.dev.time.ticks ∧
      (bucketOf x.code.toNat d.events).suppressed = 0 ∧
      (s.dev.events.ring.length < 16384 → ∃ r, d.events.ring = s.dev.events.ring ++ [r] ∧ r.seq = s.dev.events.nextSeq ∧
        r.code = x.code ∧ r.severity = x.severity ∧ r.detail = x.detail ∧ r.suppressed = b.suppressed ∧ recordValid s.dev r = true) ∧
      d = { s.dev with events := d.events, out := d.out })) ∧
    (x.severity ≠ .tamper → (b.level < 100000 ∨ b.summaryDue = true) → Completes .eventAccept s (fun d =>
      d.events.ring = s.dev.events.ring ∧ d.events.nextSeq = s.dev.events.nextSeq ∧ d.events.toFlash = s.dev.events.toFlash ∧
      (bucketOf x.code.toNat d.events).suppressed = satInc b.suppressed ∧ d = { s.dev with events := d.events }))) ∧
  (∀ (code : BitVec 16) (s : State), let b := bucketOf code.toNat s.dev.events
    summaryFalls code.toNat s.dev = true → b.level < 100000 → (∀ p ∈ s.dev.events.buckets, p.2.summaryDue = false) →
    Completes (.summaryDue code) s (fun d => bucketOf code.toNat d.events = { b with summaryDue := true } ∧
      d.events.ring = s.dev.events.ring ∧ d = { s.dev with events := d.events })) ∧
  (∀ s : State, outOfReset s.dev = true → s.dev.events.nvmOk = true → s.dev.flash.fenced = false → s.dev.flash.halted = false →
    s.dev.events.toFlash ≠ [] → s.dev.flash.log.length + sectorPages s.dev.flash < logPages s.dev.flash →
    Completes (.flashLogPageWrite true) s (fun d =>
      d.flash = { s.dev.flash with log := s.dev.flash.log ++ [s.dev.events.toFlash.take (pageRecords s.dev.flash)] } ∧
      d.events.toFlash = s.dev.events.toFlash.drop (pageRecords s.dev.flash) ∧ d.events.ring = s.dev.events.ring ∧
      d = { s.dev with flash := d.flash, events := d.events }) ∧
    Completes (.flashLogPageWrite false) s (fun d => d.flash = { s.dev.flash with log := s.dev.flash.log ++ [[]] } ∧
      d.events.toFlash = s.dev.events.toFlash ∧ d = { s.dev with flash := d.flash, events := d.events }))

/-- SMBus transactions and alerts (19 R644 to R647; 23 R725): each block read sends the block of its command, command 0x06 clears
causes unless its PEC fails, an alert is answered, repeated after back-offs of 1, 2 and 4 s, silenced after the third repetition,
and resumed. -/
def Obligations.SmbusIsAnswered : Prop :=
  (∀ s : State, outOfReset s.dev = true →
    let sends := fun (block : Bytes) (d : Device) => (s.dev.out ++ [.smbus block]) <+: d.out ∧ d.events.alert ≠ .silenced ∧
      d.events.causes = s.dev.events.causes ∧ d.events.ring = s.dev.events.ring ∧ d = { s.dev with events := d.events, out := d.out }
    Completes .smbusDeviceIdentity s (sends (identityBlock s.dev)) ∧
    Completes .smbusStatus s (sends (statusBlock s.dev)) ∧
    Completes .smbusTemperatures s (sends (temperatureBlock s.dev)) ∧
    Completes .smbusSupplies s (sends (supplyBlock s.dev)) ∧
    Completes .smbusRecordCounts s (sends (countBlock s.dev)) ∧
    Completes .smbusNewestRecord s (sends (newestBlock s.dev))) ∧
  (∀ (v : Byte) (s : State), outOfReset s.dev = true →
    Completes (.smbusClearAlertCause v true) s (fun d => d.events.causes = s.dev.events.causes &&& ~~~v ∧
      (d.events.causes = 0 → d.events.alert = .idle) ∧ d = { s.dev with events := d.events, out := d.out }) ∧
    Completes (.smbusClearAlertCause v false) s (fun d => d.events.causes = s.dev.events.causes ∧
      d = { s.dev with events := d.events, out := d.out })) ∧
  (∀ s : State, outOfReset s.dev = true → smbAlertLow s.dev.events = true →
    Completes (.alertResponseAddressRead true) s (fun d => d.events.alert = .answered ∧ d.events.causes = s.dev.events.causes ∧
      d.out = s.dev.out ++ [.smbus (leBytes 1 (2 * (0x58 + (s.dev.pins.strapSampled &&& 7).toNat)))] ∧
      d = { s.dev with events := d.events, out := d.out }) ∧
    exec (.alertResponseAddressRead false) s = .next s) ∧
  (∀ (t n : Nat) (s : State), s.dev.events.alert = .asserted t n →
    (outOfReset s.dev = true → s.dev.events.hostNotify = true →
      exec .hostNotifyAcknowledge s = .next { s with dev := { s.dev with events := { s.dev.events with alert := .answered } } }) ∧
    (t + secTicks ≤ s.dev.time.ticks → n < 3 → Completes .alertUnansweredTimeout s (fun d =>
      d.events.alert = .backoff (s.dev.time.ticks + 2 ^ n * secTicks) (n + 1) ∧ smbAlertLow d.events = false ∧
      d.events.causes = s.dev.events.causes ∧ d = { s.dev with events := d.events })) ∧
    (t + secTicks ≤ s.dev.time.ticks → 3 ≤ n → Completes .alertUnansweredTimeout s (fun d => d.events.alert = .silenced ∧
      smbAlertLow d.events = false ∧ d.events.submitted = s.dev.events.submitted + 1 ∧ d = { s.dev with events := d.events }))) ∧
  (∀ (t n : Nat) (s : State), s.dev.events.alert = .backoff t n → t ≤ s.dev.time.ticks →
    Completes .alertBackoffExpiry s (fun d => d.events.alert = .asserted s.dev.time.ticks n ∧
      d.out = (if s.dev.events.hostNotify then s.dev.out ++ [.hostNotify] else s.dev.out) ∧
      d = { s.dev with events := d.events, out := d.out })) ∧
  (∀ s : State, outOfReset s.dev = true → s.dev.events.alert = .silenced → s.dev.events.causes ≠ 0 →
    Completes .alertResume s (fun d => d.events.alert = .asserted s.dev.time.ticks 0 ∧ d.events.causes = s.dev.events.causes ∧
      d = { s.dev with events := d.events, out := d.out })) ∧
  (∀ s : State, outOfReset s.dev = true →
    exec .smbusClockLowTimeout s = .next { s with dev := { s.dev with out := s.dev.out ++ [.sclRelease] } })

/-! ### Registers (00, 02, 04, 12, 19) -/

/-- Reads and writes of registers (00 R8; 02 R29; 04 R169; 12 R452, R456, R457; 19 R642, R646, R648): a low word leaves as it
reads, and its high word is latched for that interface alone; the window's first word copies the record; sticky flags are
cleared by writing 1 and by nothing else; alert_min is kept at most 3; a CUS_ register takes no write of another region, which is
counted and recorded, and a write of a region to the recorder's, the power or the debug block is recorded (01 R29); a region that
the part has not writes nothing (00 R2); an offset that no register of the manager has changes nothing; after a stopped start the
PF still writes the event block, and nothing beyond it and the CUS_ block (14 R518). -/
def Obligations.RegistersAreReadAndWritten : Prop :=
  (∀ (f : Nat) (s : State), fnUp f s.dev = true → Completes (.counterLowWordRead .pcie f 0x10) s (fun d =>
    let x := fnOf f s.dev
    (fnOf f d).ctr = { x.ctr with latchPcie := (ctrVal (fnSel x) x.ctr).extractLsb' 32 16 } ∧
    (∀ g, g ≠ f → fnOf g d = fnOf g s.dev) ∧ d.out = s.dev.out ++ [.counterLow (readWord f 0x10 s.dev)] ∧
    d = { s.dev with host := d.host, out := d.out })) ∧
  (∀ s : State, fnUp 0 s.dev = true → Completes (.counterLowWordRead .pcie 0 0x610020) s (fun d =>
    d.events.ctr = { s.dev.events.ctr with latchPcie := (ctrVal (evrSel s.dev.events) s.dev.events.ctr).extractLsb' 32 16 } ∧
    d = { s.dev with events := { s.dev.events with ctr := d.events.ctr }, out := d.out })) ∧
  (∀ s : State, outOfReset s.dev = true → Completes (.counterLowWordRead .smbus 0 0x610020) s (fun d =>
    d.events.ctr = { s.dev.events.ctr with latchSmbus := (ctrVal (evrSel s.dev.events) s.dev.events.ctr).extractLsb' 32 16 } ∧
    d = { s.dev with events := { s.dev.events with ctr := d.events.ctr }, out := d.out })) ∧
  (∀ (r : Reader) (x : Record) (s : State), readerUp r 0 0x610000 s.dev = true → s.dev.events.ring[s.dev.events.readSel.toNat]? = some x →
    exec (.evrReadD0 r) s = .next { s with dev := { s.dev with events := { s.dev.events with readCopy := eventBytes x } } }) ∧
  (∀ (v : Word) (f : Nat) (s : State), fnUp f s.dev = true → Completes (.registerWrite (.function f) 0x08 v) s (fun d =>
    (fnOf f d).acuFault = ((fnOf f s.dev).acuFault && !v.getLsbD 27) ∧
    (fnOf f d).queueError = ((fnOf f s.dev).queueError && !v.getLsbD 26) ∧ (∀ g, g ≠ f → fnOf g d = fnOf g s.dev) ∧
    d = { s.dev with host := d.host })) ∧
  (∀ (v : Word) (s : State), fnUp 0 s.dev = true →
    Completes (.registerWrite (.function 0) 0x240004 v) s (fun d => d.host.faultValid = (s.dev.host.faultValid && !v.getLsbD 31) ∧
      d.host.faultOverflow = (s.dev.host.faultOverflow && !v.getLsbD 30) ∧
      d = { s.dev with host := { s.dev.host with faultValid := d.host.faultValid, faultOverflow := d.host.faultOverflow } }) ∧
    Completes (.registerWrite (.function 0) 0x610010 v) s (fun d => d.events.hostNotify = v.getLsbD 29 ∧ d.events.alertMin.toNat ≤ 3 ∧
      ((v.extractLsb' 24 3).toNat ≤ 3 → d.events.alertMin = v.extractLsb' 24 3) ∧ (v.getLsbD 31 = true → d.events.alert ≠ .silenced) ∧
      d = { s.dev with events := d.events, out := d.out }) ∧
    Completes (.registerWrite (.function 0) 0x61000C v) s (fun d => d = { s.dev with events := { s.dev.events with
      readSel := v.setWidth 14 } })) ∧
  (∀ (r : Region) (off : Nat) (v : Word) (s : State), outOfReset s.dev = true → r ≠ .custody →
    (regionExists s.dev r = true → 0x600000 ≤ off → off < 0x601000 →
      Completes (.registerWrite (.region r) off v) s (fun d => d.custody.coCount = satInc s.dev.custody.coCount ∧
        d.custody.coRegion = BitVec.ofNat 8 (regionNo r) ∧ d.events.submitted = s.dev.events.submitted + 1 ∧
        d = { s.dev with events := d.events, custody := { s.dev.custody with coCount := d.custody.coCount, coRegion := d.custody.coRegion } })) ∧
    (regionExists s.dev r = true → 0x610000 ≤ off → off < 0x640000 →
      Completes (.registerWrite (.region r) off v) s (fun d => d.events.submitted = s.dev.events.submitted + 1 ∧
        d = { s.dev with events := d.events })) ∧
    (regionExists s.dev r = false → exec (.registerWrite (.region r) off v) s = .next s)) ∧
  (∀ (off : Nat) (v : Word) (s : State), stoppedUp s.dev = true →
    Completes (.registerWrite (.function 0) 0x61000C v) s (fun d => d = { s.dev with events := { s.dev.events with
      readSel := v.setWidth 14 } }) ∧
    (off < 0x600000 → exec (.registerWrite (.function 0) off v) s = .next s)) ∧
  (∀ (off : Nat) (v : Word) (s : State), 0x630000 ≤ off → exec (.registerWrite (.function 0) off v) s = .next s)

/-! ### Cards and custody (16) -/

/-- Card ports (16 R566, R567; 23 R726): CARD_INSERTED activates a card and CARD_REMOVED deactivates it; ATR_TIMEOUT leaves a
card out of use; CARD_EXCHANGE_TIMEOUT, 2 s after the job's dispatch, is a protocol fault and ends its job with 0x040B.
PRESENT_CARD (16 R568, R573): of an open quorum with its port serving, an enrolled card, not yet counted, that signs the
challenge of 32 drawn bytes is counted; one that does not sign ends with 0x040E, one counted before with 0x040F, one not
enrolled with 0x040E, and the quorum stays as it is. -/
def Obligations.CardsAreActivatedAndCounted : Prop :=
  (∀ (portB : Bool) (s : State), outOfReset s.dev = true →
      let p := portFor portB s.dev
      (p.present = false → Completes (.cardInserted portB) s (fun d => portFor portB d = { p with present := true, active := true } ∧
        portFor (!portB) d = portFor (!portB) s.dev ∧ d = { s.dev with custody := d.custody })) ∧
      (p.present = true → (p.active = false ∨ cardHolder portB s.dev = none) → Completes (.cardRemoved portB) s (fun d =>
        (portFor portB d).present = false ∧ (portFor portB d).active = false ∧ portFor (!portB) d = portFor (!portB) s.dev ∧
        d.fuses = s.dev.fuses ∧ d.keys = s.dev.keys ∧ d.custody.quorum = s.dev.custody.quorum)) ∧
      (p.present = true → p.active = true → (cardHolder portB s.dev).isSome = true → Completes (.cardRemoved portB) s (fun d =>
        (portFor portB d).present = false ∧ (portFor portB d).active = false ∧ (portFor portB d).lastFault = 4 ∧
        d.fuses = s.dev.fuses ∧ d.keys = s.dev.keys ∧ d.custody.quorum = s.dev.custody.quorum)) ∧
      (p.active = true → Completes (.atrTimeout portB) s (fun d => portFor portB d = { p with active := false, lastFault := 1 } ∧
        portFor (!portB) d = portFor (!portB) s.dev ∧ d = { s.dev with custody := d.custody, events := d.events })) ∧
      (∀ j b c, p.active = true → cardHolder portB s.dev = some j → jobOf j.id s.dev = some j → j.place = .core b c →
        2 * secTicks ≤ ticksSince j.dispatch s.dev →
        Completes (.cardExchangeTimeout portB) s (fun d => (portFor portB d).lastFault = 2 ∧
          jobOf j.id d = some { j with staged := some { code := 0x040B } } ∧
          d = { s.dev with custody := d.custody, events := d.events, gaffer := d.gaffer, benches := d.benches }))) ∧
  (∀ (c : CoreRef) (reply : CardReply) (j : Job) (q : Quorum) (s : State), verbJob 0x0B03 c s.dev = some j → presentDecode j = 0 →
      gateCode s.dev j = 0 → quorumOpen (par j 0 4) s.dev = some q → portServes (decide (par j 4 1 = 1)) j s.dev = true →
      reply.status = 0x9000 → s.dev.gather.service = true → keysMissing presentReads s.dev j = [] →
      let key := fit 65 reply.publicKey
      let new := decide (par j 5 1 % 2 = 1)
      let digest := cardDigest s.dev q.number q.procedure q.params (drawn 8 32 (forDraw 8 32 s.dev))
      (cardCode q new key s.dev = 0 → cardSigned reply digest = false →
        Completes (.presentCard c reply) s (fun d => jobOf j.id d = some { j with staged := some { code := 0x040E } } ∧
          d.custody.quorum = s.dev.custody.quorum ∧ d.fuses = s.dev.fuses ∧ d.draws = s.dev.draws + 32)) ∧
      (cardCode q new key s.dev = 0 → cardSigned reply digest = true → q.procedure ≠ 0x08 → q.procedure ≠ 0x09 → q.procedure ≠ 0x04 →
        q.newCard = none → q.presented.length + 1 < q.required →
        Completes (.presentCard c reply) s (fun d =>
          d.custody.quorum = some { q with presented := q.presented ++ [{ serial := reply.serial, key := key }]
                                           first := some (q.first.getD s.dev.time.ticks) } ∧
          (∃ st, jobOf j.id d = some { j with staged := some st } ∧ st.code = 0 ∧ st.aux.toNat % 256 = (q.presented.length + 1) % 256) ∧
          d.fuses = s.dev.fuses ∧ d.keys = s.dev.keys ∧ d.draws = s.dev.draws + 32)) ∧
      ((∃ x ∈ q.presented, x.key = key) → new = false → enrolled s.dev key = true → q.procedure ≠ 0x01 →
        Completes (.presentCard c reply) s (fun d => jobOf j.id d = some { j with staged := some { code := 0x040F } } ∧
          d.custody.quorum = s.dev.custody.quorum ∧ d.draws = s.dev.draws)) ∧
      (new = false → enrolled s.dev key = false → q.procedure ≠ 0x01 →
        Completes (.presentCard c reply) s (fun d => jobOf j.id d = some { j with staged := some { code := 0x040E } } ∧
          d.custody.quorum = s.dev.custody.quorum ∧ d.draws = s.dev.draws)))

/-- Custody verbs (16 R559, R561, R570 to R577; 22 R705): LOCK, OPEN_QUORUM, ABANDON_QUORUM, CUSTODY_INFORMATION and
RETIRE_WITHOUT_QUORUM complete by staging their intent or answer, OPEN_QUORUM with 0x040D while another is open; at Retire the
lock locks an Owned or Operational part and discards every job, the quorum is opened under the next number or abandoned,
retirement burns the fuse and destroys the vault key. QUORUM_EXPIRY ends a quorum 300 s after its first counted card,
COMPONENT_SESSION_EXPIRY a session after 300 s; KEABOR_FACTORY_PROGRAMMING issues a Blank part. -/
def Obligations.CustodyChangesState : Prop :=
  (∀ (c : CoreRef) (j : Job) (s : State), verbJob 0x0B01 c s.dev = some j → gateCode s.dev j = 0 → zeros j.params 0 48 = true →
    Completes (.lock c) s (fun d => jobOf j.id d = some { j with staged := some { intents := [.lockPart] } } ∧
      d = { s.dev with gaffer := d.gaffer, benches := d.benches })) ∧
  (∀ (j : Job) (d : Device), (state d = .owned ∨ state d = .operational) → d.battery.latches = [] →
    saturated d.fuses.lockCount = false → thermVal d.fuses.unlockCount = thermVal d.fuses.lockCount →
    let e := (writeIntent j .lockPart d).1
    state e = .locked ∧ e.custody.lockCause = .managerLock ∧ e.custody.quorum = none ∧ e.custody.sessions = [] ∧
    e.keys.refusing = true ∧ e.keys.slots = d.keys.slots ∧ e.gaffer.jobs = [] ∧ e.battery = d.battery ∧
    thermVal e.fuses.lockCount = thermVal d.fuses.lockCount + 1 ∧ e.custody.root0 = d.custody.root0 ∧ e.custody.root1 = d.custody.root1) ∧
  (∀ (c : CoreRef) (j : Job) (s : State), verbJob 0x0B02 c s.dev = some j → openDecode j = 0 → gateCode s.dev j = 0 →
    procedureMay (par j 0 1) (field j.params 4 32) s.dev = true →
    (quorumBusy s.dev = false → Completes (.openQuorum c) s (fun d =>
      jobOf j.id d = some { j with staged := some { intents := [.openQuorum (parByte j 0) (field j.params 4 32)
        (procedureM (par j 0 1) (field j.params 4 32) s.dev.custody.record)] } } ∧
      d = { s.dev with gaffer := d.gaffer, benches := d.benches })) ∧
    (quorumBusy s.dev = true → Completes (.openQuorum c) s (fun d => jobOf j.id d = some { j with staged := some { code := 0x040D } } ∧
      d = { s.dev with gaffer := d.gaffer, benches := d.benches }))) ∧
  (∀ (j : Job) (p : Byte) (q : Bytes) (m : Nat) (n : BitVec 32) (d : Device),
    writeIntent j (.openQuorum p q m) d = ({ d with custody := { d.custody with
      quorumNumber := d.custody.quorumNumber + 1
      quorum := some { number := d.custody.quorumNumber + 1, procedure := p, params := q, required := m, opened := d.time.ticks
                       openedLocked := state d == .locked } } }, some (d.custody.quorumNumber + 1)) ∧
    writeIntent j (.abandonQuorum n) d = ({ d with custody := { d.custody with quorum := none } }, none)) ∧
  (∀ (c : CoreRef) (j : Job) (q : Quorum) (s : State), verbJob 0x0B04 c s.dev = some j → gateCode s.dev j = 0 → zeros j.params 4 44 = true →
    quorumOpen (par j 0 4) s.dev = some q → Completes (.abandonQuorum c) s (fun d =>
      jobOf j.id d = some { j with staged := some { intents := [.abandonQuorum q.number] } } ∧
      d = { s.dev with gaffer := d.gaffer, benches := d.benches })) ∧
  (∀ (c : CoreRef) (j : Job) (s : State), verbJob 0x0B05 c s.dev = some j → gateCode s.dev j = 0 → zeros j.params 0 48 = true →
    688 ≤ outRoom s.dev j → Completes (.custodyInformation c) s (fun d =>
      jobOf j.id d = some { j with staged := some { output := custodyBytes s.dev.custody.record ++ List.replicate 16 0 } } ∧
      d = { s.dev with gaffer := d.gaffer, benches := d.benches })) ∧
  (∀ (c : CoreRef) (j : Job) (s : State), verbJob 0x0B06 c s.dev = some j → gateCode s.dev j = 0 → zeros j.params 0 48 = true →
    Completes (.retireWithoutQuorum c) s (fun d => jobOf j.id d = some { j with staged := some { intents := [.retirePart] } } ∧
      d = { s.dev with gaffer := d.gaffer, benches := d.benches })) ∧
  (∀ (j : Job) (d : Device), let e := (writeIntent j .retirePart d).1
    state e = .retired ∧ e.battery.vaultKey = 0 ∧ e.battery.vaultValid = false ∧ e.fuses = { d.fuses with retired := true } ∧
    (state d ≠ .locked → e.keys = d.keys)) ∧
  (∀ (q : Quorum) (s : State), outOfReset s.dev = true → s.dev.custody.quorum = some q →
    (q.first.getD q.opened + 300 * secTicks ≤ s.dev.time.ticks →
      exec .quorumExpiry s = .next { s with dev := { s.dev with custody := { s.dev.custody with quorum := none } } }) ∧
    (s.dev.time.ticks < q.first.getD q.opened + 300 * secTicks → exec .quorumExpiry s = .next s)) ∧
  (∀ (n : Nat) (s : State), outOfReset s.dev = true → Completes (.componentSessionExpiry n) s (fun d =>
    (∀ x ∈ s.dev.custody.sessions, x ∈ d.custody.sessions ∨ (x.number.toNat = n ∧ x.opened + 300 * secTicks ≤ s.dev.time.ticks)) ∧
    (∀ x ∈ d.custody.sessions, x ∈ s.dev.custody.sessions ∧ ¬ (x.number.toNat = n ∧ x.opened + 300 * secTicks ≤ s.dev.time.ticks)) ∧
    d = { s.dev with custody := { s.dev.custody with sessions := d.custody.sessions } })) ∧
  (∀ (root : Bytes) (cal : FactoryCalibration) (s : State), state s.dev = .blank → s.dev.pins.mainOn = true → s.dev.fuses.ownCount.blown = [] →
    s.dev.fuses.eraseCount.blown = [] →
    Completes (.keaborFactoryProgramming 640 root cal) s (fun d => state d = .issued ∧ d.power.level ≠ .full ∧
      d.fuses = { s.dev.fuses with
        part := .ky0640, deviceRoot := bytesBv 256 root, romKeyDigest := cal.romKeyDigest, watchTrim := cal.watchTrim
        gatherTrim := (List.range 16).zip cal.gatherTrims, monitorTrims := cal.monitorTrims, issued := true } ∧
      d = { s.dev with fuses := d.fuses, power := d.power, events := d.events }))

/-! ### Verbs (10, 11, 15, 16, 18, 19, 20, 22). Under `verbReady op v c j` the row of verb `v` completes: it stages the result that `v`
computes from its job and the drawn bytes and changes nothing that is durable. `VerbWaits op v mk` says what the row `mk` stages
before: the code of the first check that fails, a half or an earlier step, or its result on the bytes of a generator's grant. -/

/-- Key management (11 R389 to R403). GENERATE_SYMMETRIC_KEY, IMPORT_KEY_BLOCK, EXPORT_KEY_BLOCK, RESTORE_PERSISTENCE_BLOCK,
DELETE_KEY, COMPONENT_COMPLETE, DERIVE_KEY, EXPORT_UNDER_PUBLIC_KEY, IMPORT_UNDER_PRIVATE_KEY, OPEN_ROOT_ROTATION,
CLOSE_ROOT_ROTATION, MASS_REWRAP, SUSPEND_OR_RESUME_KEY, PURGE_TENANT and KEY_INFORMATION each complete: for every core, job and
state with the verb's job on the core, its checks passed, its keys fetched, its engines held, their blocks processed and its
random bytes drawn (or a generator's grant held to draw them under), the row answers a next state in which the verb's result is
staged and nothing durable has changed; where a check fails, its code is staged instead. -/
def Obligations.KeyVerbsStageTheirResults : Prop :=
  (∀ (c : CoreRef) (j : Job) (s : State),
    (verbReady 0x0101 generateVerb c j s.dev → Completes (.generateSymmetricKey c) s (resultStaged generateVerb j s.dev)) ∧
    (verbReady 0x0102 importVerb c j s.dev → Completes (.importKeyBlock c) s (resultStaged importVerb j s.dev)) ∧
    (verbReady 0x0103 exportVerb c j s.dev → Completes (.exportKeyBlock c) s (resultStaged exportVerb j s.dev)) ∧
    (verbReady 0x0104 restoreVerb c j s.dev → Completes (.restorePersistenceBlock c) s (resultStaged restoreVerb j s.dev)) ∧
    (verbReady 0x0105 deleteVerb c j s.dev → Completes (.deleteKey c) s (resultStaged deleteVerb j s.dev)) ∧
    (verbReady 0x0108 completeVerb c j s.dev → Completes (.componentComplete c) s (resultStaged completeVerb j s.dev)) ∧
    (verbReady 0x0109 deriveVerb c j s.dev → Completes (.deriveKey c) s (resultStaged deriveVerb j s.dev)) ∧
    (verbReady 0x010A wrapVerb c j s.dev → Completes (.exportUnderPublicKey c) s (resultStaged wrapVerb j s.dev)) ∧
    (verbReady 0x010B unwrapVerb c j s.dev → Completes (.importUnderPrivateKey c) s (resultStaged unwrapVerb j s.dev)) ∧
    (verbReady 0x010C rotateVerb c j s.dev → Completes (.openRootRotation c) s (resultStaged rotateVerb j s.dev)) ∧
    (verbReady 0x010D closeVerb c j s.dev → Completes (.closeRootRotation c) s (resultStaged closeVerb j s.dev)) ∧
    (verbReady 0x010E rewrapVerb c j s.dev → Completes (.massRewrap c) s (resultStaged rewrapVerb j s.dev)) ∧
    (verbReady 0x010F suspendVerb c j s.dev → Completes (.suspendOrResumeKey c) s (resultStaged suspendVerb j s.dev)) ∧
    (verbReady 0x0110 purgeVerb c j s.dev → Completes (.purgeTenant c) s (resultStaged purgeVerb j s.dev)) ∧
    (verbReady 0x0111 infoVerb c j s.dev → Completes (.keyInformation c) s (resultStaged infoVerb j s.dev))) ∧
  VerbWaits 0x0101 generateVerb .generateSymmetricKey ∧ VerbWaits 0x0102 importVerb .importKeyBlock ∧
  VerbWaits 0x0103 exportVerb .exportKeyBlock ∧ VerbWaits 0x0104 restoreVerb .restorePersistenceBlock ∧
  VerbWaits 0x0105 deleteVerb .deleteKey ∧ VerbWaits 0x0108 completeVerb .componentComplete ∧ VerbWaits 0x0109 deriveVerb .deriveKey ∧
  VerbWaits 0x010A wrapVerb .exportUnderPublicKey ∧ VerbWaits 0x010B unwrapVerb .importUnderPrivateKey ∧
  VerbWaits 0x010C rotateVerb .openRootRotation ∧ VerbWaits 0x010D closeVerb .closeRootRotation ∧ VerbWaits 0x010E rewrapVerb .massRewrap ∧
  VerbWaits 0x010F suspendVerb .suspendOrResumeKey ∧ VerbWaits 0x0110 purgeVerb .purgeTenant ∧ VerbWaits 0x0111 infoVerb .keyInformation

/-- PINs and cards (10 R350 to R371). PIN_TRANSLATE_ZONE_TO_ZONE, _DUKPT_TO_ZONE and _ZONE_TO_DUKPT, PIN_VERIFY_OFFSET,
PIN_OFFSET_GENERATE, PIN_VERIFY_VERIFICATION_VALUE, PIN_VERIFICATION_VALUE_GENERATE, CARD_VERIFICATION_VALUE_GENERATE and
_VERIFY, ARQC_VERIFY and ARQC_VERIFY_AND_ARPC_GENERATE each complete: for every core, job and state with the verb's job on the
core, its checks passed, its keys fetched, its engines held, their blocks processed and its random bytes drawn, the row answers
a next state in which the verb's result is staged and nothing durable has changed; where a check fails, its code is staged
instead. A verification answers no output and the pair of its comparison, of which Retire makes the verdict (08 R280). -/
def Obligations.PinAndCardVerbsStageTheirResults : Prop :=
  (∀ (c : CoreRef) (j : Job) (s : State),
    (verbReady 0x0201 zoneVerb c j s.dev → Completes (.pinTranslateZoneToZone c) s (resultStaged zoneVerb j s.dev)) ∧
    (verbReady 0x0202 dukptVerb c j s.dev → Completes (.pinTranslateDukptToZone c) s (resultStaged dukptVerb j s.dev)) ∧
    (verbReady 0x0203 offsetVerifyVerb c j s.dev → Completes (.pinVerifyOffset c) s (resultStaged offsetVerifyVerb j s.dev)) ∧
    (verbReady 0x0204 offsetGenerateVerb c j s.dev → Completes (.pinOffsetGenerate c) s (resultStaged offsetGenerateVerb j s.dev)) ∧
    (verbReady 0x0205 valueVerifyVerb c j s.dev → Completes (.pinVerifyVerificationValue c) s (resultStaged valueVerifyVerb j s.dev)) ∧
    (verbReady 0x0206 valueGenerateVerb c j s.dev → Completes (.pinVerificationValueGenerate c) s (resultStaged valueGenerateVerb j s.dev)) ∧
    (verbReady 0x0207 originatorVerb c j s.dev → Completes (.pinTranslateZoneToDukpt c) s (resultStaged originatorVerb j s.dev)) ∧
    (verbReady 0x0301 cvvGenerateVerb c j s.dev → Completes (.cardVerificationValueGenerate c) s (resultStaged cvvGenerateVerb j s.dev)) ∧
    (verbReady 0x0302 cvvVerifyVerb c j s.dev → Completes (.cardVerificationValueVerify c) s (resultStaged cvvVerifyVerb j s.dev)) ∧
    (verbReady 0x0401 arqcVerb c j s.dev → Completes (.arqcVerify c) s (resultStaged arqcVerb j s.dev)) ∧
    (verbReady 0x0402 arpcVerb c j s.dev → Completes (.arqcVerifyAndArpcGenerate c) s (resultStaged arpcVerb j s.dev))) ∧
  VerbWaits 0x0201 zoneVerb .pinTranslateZoneToZone ∧ VerbWaits 0x0202 dukptVerb .pinTranslateDukptToZone ∧
  VerbWaits 0x0203 offsetVerifyVerb .pinVerifyOffset ∧ VerbWaits 0x0204 offsetGenerateVerb .pinOffsetGenerate ∧
  VerbWaits 0x0205 valueVerifyVerb .pinVerifyVerificationValue ∧ VerbWaits 0x0206 valueGenerateVerb .pinVerificationValueGenerate ∧
  VerbWaits 0x0207 originatorVerb .pinTranslateZoneToDukpt ∧ VerbWaits 0x0301 cvvGenerateVerb .cardVerificationValueGenerate ∧
  VerbWaits 0x0302 cvvVerifyVerb .cardVerificationValueVerify ∧ VerbWaits 0x0401 arqcVerb .arqcVerify ∧
  VerbWaits 0x0402 arpcVerb .arqcVerifyAndArpcGenerate ∧
  ∀ (d : Device) (j : Job) (r : Bytes), ∀ v ∈ [offsetVerifyVerb, valueVerifyVerb, cvvVerifyVerb, arqcVerb],
    (v.run d j r).output = [] ∧ (v.run d j r).code = 0 ∧ (v.run d j r).pair.isSome = true

/-- Data, MACs, digests and random bytes (10 R372 to R378; 11 R409; 09 R320). ENCRYPT_DATA, DECRYPT_DATA, MAC_GENERATE, MAC_VERIFY,
DIGEST and RANDOM each complete: for every core, job and state with the verb's job on the core, its checks passed, its keys
fetched, its engines held, their blocks processed and its random bytes drawn, the row answers a next state in which the verb's
result is staged and nothing durable has changed; where a check fails, its code is staged instead. RANDOM answers the bytes it
drew, as many as the output area holds. -/
def Obligations.DataVerbsStageTheirResults : Prop :=
  (∀ (c : CoreRef) (j : Job) (s : State),
    (verbReady 0x0501 encryptVerb c j s.dev → Completes (.encryptData c) s (resultStaged encryptVerb j s.dev)) ∧
    (verbReady 0x0502 decryptVerb c j s.dev → Completes (.decryptData c) s (resultStaged decryptVerb j s.dev)) ∧
    (verbReady 0x0503 macGenerateVerb c j s.dev → Completes (.macGenerate c) s (resultStaged macGenerateVerb j s.dev)) ∧
    (verbReady 0x0504 macVerifyVerb c j s.dev → Completes (.macVerify c) s (resultStaged macVerifyVerb j s.dev)) ∧
    (verbReady 0x0801 digestVerb c j s.dev → Completes (.digest c) s (resultStaged digestVerb j s.dev)) ∧
    (verbReady 0x0901 randomVerb c j s.dev → Completes (.random c) s (resultStaged randomVerb j s.dev))) ∧
  VerbWaits 0x0501 encryptVerb .encryptData ∧ VerbWaits 0x0502 decryptVerb .decryptData ∧ VerbWaits 0x0503 macGenerateVerb .macGenerate ∧
  VerbWaits 0x0504 macVerifyVerb .macVerify ∧ VerbWaits 0x0801 digestVerb .digest ∧ VerbWaits 0x0901 randomVerb .random ∧
  ∀ (c : CoreRef) (j : Job) (s : State), verbReady 0x0901 randomVerb c j s.dev →
    Completes (.random c) s (fun d => j.outCap ≤ j.drawn.length ∧ jobOf j.id d = some { j with staged := some { output := j.drawn.take j.outCap } })

/-- Public keys (11 R404 to R416). RSA_KEY_GENERATION, RSA_SIGN, RSA_VERIFY, RSA_DECRYPT, RSA_ENCRYPT, EC_KEY_GENERATION,
ECDSA_SIGN, ECDSA_VERIFY, ECDH_TO_NEW_SLOT, EDDSA_KEY_GENERATION, EDDSA_SIGN, EDDSA_VERIFY, PUBLIC_KEY_IMPORT,
ML_KEM_KEY_GENERATION, ML_KEM_ENCAPSULATE, ML_KEM_DECAPSULATE, ML_DSA_KEY_GENERATION, ML_DSA_SIGN, ML_DSA_VERIFY,
RETENTION_SIGN, LMS_HSS_KEY_GENERATION and LMS_HSS_VERIFY each complete: for every core, job and state with the verb's job on
the core, its checks passed, its keys fetched, its engines held, their blocks processed and its random bytes drawn, the row
answers a next state in which the verb's result is staged and nothing durable has changed; where a check fails, its code is
staged, and a step before the last stages that a step follows. ML_DSA_SIGN stages the half of an attempt; in an Izvi part, whose
cores compare for themselves, its 814th rejected attempt ends the job with 0x0507 at once (07 R260, R262), in any other at the
compare of the staged result. -/
def Obligations.PublicKeyVerbsStageTheirResults : Prop :=
  (∀ (c : CoreRef) (j : Job) (s : State),
    (verbReady 0x0601 rsaGenerateVerb c j s.dev → Completes (.rsaKeyGeneration c) s (resultStaged rsaGenerateVerb j s.dev)) ∧
    (verbReady 0x0602 rsaSignVerb c j s.dev → Completes (.rsaSign c) s (resultStaged rsaSignVerb j s.dev)) ∧
    (verbReady 0x0603 rsaVerifyVerb c j s.dev → Completes (.rsaVerify c) s (resultStaged rsaVerifyVerb j s.dev)) ∧
    (verbReady 0x0604 rsaDecryptVerb c j s.dev → Completes (.rsaDecrypt c) s (resultStaged rsaDecryptVerb j s.dev)) ∧
    (verbReady 0x0605 rsaEncryptVerb c j s.dev → Completes (.rsaEncrypt c) s (resultStaged rsaEncryptVerb j s.dev)) ∧
    (verbReady 0x0606 ecPairVerb c j s.dev → Completes (.ecKeyGeneration c) s (resultStaged ecPairVerb j s.dev)) ∧
    (verbReady 0x0607 ecdsaSignVerb c j s.dev → Completes (.ecdsaSign c) s (resultStaged ecdsaSignVerb j s.dev)) ∧
    (verbReady 0x0608 ecdsaVerifyVerb c j s.dev → Completes (.ecdsaVerify c) s (resultStaged ecdsaVerifyVerb j s.dev)) ∧
    (verbReady 0x0609 ecdhVerb c j s.dev → Completes (.ecdhToNewSlot c) s (resultStaged ecdhVerb j s.dev)) ∧
    (verbReady 0x060A edPairVerb c j s.dev → Completes (.eddsaKeyGeneration c) s (resultStaged edPairVerb j s.dev)) ∧
    (verbReady 0x060B eddsaSignVerb c j s.dev → Completes (.eddsaSign c) s (resultStaged eddsaSignVerb j s.dev)) ∧
    (verbReady 0x060C eddsaVerifyVerb c j s.dev → Completes (.eddsaVerify c) s (resultStaged eddsaVerifyVerb j s.dev)) ∧
    (verbReady 0x060D publicImportVerb c j s.dev → Completes (.publicKeyImport c) s (resultStaged publicImportVerb j s.dev)) ∧
    (verbReady 0x0701 kemPairVerb c j s.dev → Completes (.mlKemKeyGeneration c) s (resultStaged kemPairVerb j s.dev)) ∧
    (verbReady 0x0702 encapsulateVerb c j s.dev → Completes (.mlKemEncapsulate c) s (resultStaged encapsulateVerb j s.dev)) ∧
    (verbReady 0x0703 decapsulateVerb c j s.dev → Completes (.mlKemDecapsulate c) s (resultStaged decapsulateVerb j s.dev)) ∧
    (verbReady 0x0704 dsaPairVerb c j s.dev → Completes (.mlDsaKeyGeneration c) s (resultStaged dsaPairVerb j s.dev)) ∧
    (verbReady 0x0705 dsaSignVerb c j s.dev → (izvi s.dev = false ∨ (dsaSignVerb.run s.dev j (stepBytes dsaSignVerb j s.dev)).code ≠ 0x0507) →
      Completes (.mlDsaSign c) s (resultStaged dsaSignVerb j s.dev)) ∧
    (verbReady 0x0706 dsaVerifyVerb c j s.dev → Completes (.mlDsaVerify c) s (resultStaged dsaVerifyVerb j s.dev)) ∧
    (verbReady 0x0802 retentionVerb c j s.dev → Completes (.retentionSign c) s (resultStaged retentionVerb j s.dev)) ∧
    (verbReady 0x0803 lmsGenerateVerb c j s.dev → Completes (.lmsHssKeyGeneration c) s (resultStaged lmsGenerateVerb j s.dev)) ∧
    (verbReady 0x0804 lmsVerifyVerb c j s.dev → Completes (.lmsHssVerify c) s (resultStaged lmsVerifyVerb j s.dev))) ∧
  VerbWaits 0x0601 rsaGenerateVerb .rsaKeyGeneration ∧ VerbWaits 0x0602 rsaSignVerb .rsaSign ∧ VerbWaits 0x0603 rsaVerifyVerb .rsaVerify ∧
  VerbWaits 0x0604 rsaDecryptVerb .rsaDecrypt ∧ VerbWaits 0x0605 rsaEncryptVerb .rsaEncrypt ∧
  VerbWaits 0x0606 ecPairVerb .ecKeyGeneration ∧
  VerbWaits 0x0607 ecdsaSignVerb .ecdsaSign ∧ VerbWaits 0x0608 ecdsaVerifyVerb .ecdsaVerify ∧ VerbWaits 0x0609 ecdhVerb .ecdhToNewSlot ∧
  VerbWaits 0x060A edPairVerb .eddsaKeyGeneration ∧
  VerbWaits 0x060B eddsaSignVerb .eddsaSign ∧ VerbWaits 0x060C eddsaVerifyVerb .eddsaVerify ∧
  VerbWaits 0x060D publicImportVerb .publicKeyImport ∧
  VerbWaits 0x0701 kemPairVerb .mlKemKeyGeneration ∧
  VerbWaits 0x0702 encapsulateVerb .mlKemEncapsulate ∧ VerbWaits 0x0703 decapsulateVerb .mlKemDecapsulate ∧
  VerbWaits 0x0704 dsaPairVerb .mlDsaKeyGeneration ∧
  VerbWaits 0x0705 dsaSignVerb .mlDsaSign (fun d => izvi d = false) ∧ VerbWaits 0x0706 dsaVerifyVerb .mlDsaVerify ∧
  VerbWaits 0x0802 retentionVerb .retentionSign ∧ VerbWaits 0x0803 lmsGenerateVerb .lmsHssKeyGeneration ∧
  VerbWaits 0x0804 lmsVerifyVerb .lmsHssVerify ∧
  ∀ (c : CoreRef) (j : Job) (s : State), verbReady 0x0705 dsaSignVerb c j s.dev → jobsDistinct s.dev → izvi s.dev = true →
    (dsaSignVerb.run s.dev j (stepBytes dsaSignVerb j s.dev)).code = 0x0507 →
    Completes (.mlDsaSign c) s (fun d => ∃ k, jobOf j.id d = some k ∧ k.place = .answered ∧ k.code = 0x0507)

/-- Configuration, firmware, events and power (15 R538 to R541; 18 R620; 19 R640; 22 R693). WRITE_CONFIGURATION_COPY,
MIRROR_CONFIGURATION_COPY, WRITE_FIRMWARE_IMAGE, READ_CERTIFICATE_CHAIN and READ_EVENT_LOG complete by staging their image or
answer, for every core, job and state with the verb's job on the core, its checks passed, its engines held and their blocks
processed; REQUEST_DUSK, PREPARE_NIGHT, ABANDON_NIGHT_PREPARATION, SET_AUTOMATIC_DUSK and CLOSE_DEBUG_LEVEL stage the action of
a Power control job that asks for it and leave any other as it is. FLASH_WRITE_READBACK_END (15 R540): the write is over; the
area holds the image and the job leaves with code 0, or the area is torn and the job leaves with 0x0509. -/
def Obligations.ManagementVerbsAndFlashWrites : Prop :=
  (∀ (c : CoreRef) (j : Job) (s : State),
    (verbReady 0x0A10 writeCopyVerb c j s.dev → Completes (.writeConfigurationCopy c) s (resultStaged writeCopyVerb j s.dev)) ∧
    (verbReady 0x0A11 mirrorVerb c j s.dev → Completes (.mirrorConfigurationCopy c) s (resultStaged mirrorVerb j s.dev)) ∧
    (verbReady 0x0A12 firmwareVerb c j s.dev → Completes (.writeFirmwareImage c) s (resultStaged firmwareVerb j s.dev)) ∧
    (verbReady 0x0A21 chainVerb c j s.dev → Completes (.readCertificateChain c) s (resultStaged chainVerb j s.dev)) ∧
    (verbReady 0x0A30 eventLogVerb c j s.dev → Completes (.readEventLog c) s (resultStaged eventLogVerb j s.dev))) ∧
  VerbWaits 0x0A10 writeCopyVerb .writeConfigurationCopy ∧ VerbWaits 0x0A11 mirrorVerb .mirrorConfigurationCopy ∧
  VerbWaits 0x0A12 firmwareVerb .writeFirmwareImage ∧ VerbWaits 0x0A21 chainVerb .readCertificateChain ∧
  VerbWaits 0x0A30 eventLogVerb .readEventLog ∧
  (∀ (c : CoreRef) (j : Job) (s : State), verbReady 0x0A50 powerVerb c j s.dev →
    let asks := fun (a : Nat) => stagedOnly j { intents := [.power a (par j 4 4)] } s.dev
    (par j 0 1 = 1 → Completes (.requestDusk c) s (asks 1)) ∧
    (par j 0 1 ≠ 1 → exec (.requestDusk c) s = .next s) ∧
    (par j 0 1 = 2 → Completes (.prepareNight c) s (asks 2)) ∧
    (par j 0 1 ≠ 2 → exec (.prepareNight c) s = .next s) ∧
    (par j 0 1 = 3 → Completes (.abandonNightPreparation c) s (asks 3)) ∧
    (par j 0 1 ≠ 3 → exec (.abandonNightPreparation c) s = .next s) ∧
    (par j 0 1 = 4 → Completes (.setAutomaticDusk c) s (asks 4)) ∧
    (par j 0 1 ≠ 4 → exec (.setAutomaticDusk c) s = .next s) ∧
    (par j 0 1 = 5 → Completes (.closeDebugLevel c) s (asks 5)) ∧
    (par j 0 1 ≠ 5 → exec (.closeDebugLevel c) s = .next s)) ∧
  (∀ (w : ImageWrite) (j : Job) (b : Nat) (st : Staged) (s : State), s.dev.flash.imageWrite = some w → outOfReset s.dev = true →
      nvmServes s.dev = true → jobOf w.job s.dev = some j → j.place = .pending b → j.staged = some st → st.half = false → st.more = false →
      st.intents = [.flashImage w.kind w.image] →
      Completes (.flashWriteReadbackEnd true) s (fun d => d.flash.imageWrite = none ∧
        (∃ k, jobOf w.job d = some k ∧ k.place = .retired b ∧ k.code = 0) ∧
        (w.kind ≠ 3 → targetEvening s.dev.flash = false → d.flash.morning = some (copyOf w.image) ∧ d.flash.evening = s.dev.flash.evening) ∧
        (w.kind ≠ 3 → targetEvening s.dev.flash = true → d.flash.evening = some (copyOf w.image) ∧ d.flash.morning = s.dev.flash.morning) ∧
        (w.kind = 3 → d.flash.morning = s.dev.flash.morning ∧ d.flash.evening = s.dev.flash.evening) ∧
        d.fuses = s.dev.fuses ∧ d.keys = { s.dev.keys with ports := d.keys.ports } ∧ d.custody = s.dev.custody) ∧
      Completes (.flashWriteReadbackEnd false) s (fun d => d.flash.imageWrite = none ∧
        (∃ k, jobOf w.job d = some k ∧ k.place = .retired b ∧ k.code = 0x0509) ∧
        (w.kind ≠ 3 → targetEvening s.dev.flash = false → ∃ c, d.flash.morning = some c ∧ c.ecOk = false ∧ c.mlOk = false) ∧
        d.fuses = s.dev.fuses ∧ d.keys = { s.dev.keys with ports := d.keys.ports } ∧ d.custody = s.dev.custody))

/-- Verbs that ask the custody partition (11 R396 to R398; 18 R609 to R614; 20 R666), each completing under its conditions:
COMPONENT_SESSION_BEGIN stages the session, which Retire opens under the next number; COMPONENT_ADD of an enrolled card that is
no custodian yet and signs stages the component and its check value; ATTEST that is alone answers the statement signed on 144
drawn bytes, one behind another waits; RESET_TENANT ends the tenant's sessions and clears its fault state. -/
def Obligations.PartitionVerbsTakeEffect : Prop :=
  (∀ (c : CoreRef) (j : Job) (s : State), verbJob 0x0106 c s.dev = some j → gateCode s.dev j = 0 → beginChecks s.dev j = 0 →
    zeros j.params 0 8 = true → zeros j.params 20 3 = true → zeros j.params 24 24 = true → templateRsv j 8 = 0 →
    (parByte j 23 = 2 ∨ parByte j 23 = 3) →
    Completes (.componentSessionBegin c) s (fun d =>
      jobOf j.id d = some { j with staged := some { intents := [.beginSession (field j.params 8 12) (par j 23 1)] } } ∧
      d = { s.dev with gaffer := d.gaffer, benches := d.benches })) ∧
  (∀ (j : Job) (template : Bytes) (count : Nat) (d : Device),
    writeIntent j (.beginSession template count) d = ({ d with custody := { d.custody with
      sessionNumber := d.custody.sessionNumber + 1
      sessions := liveSessionsOf d ++ [{ number := d.custody.sessionNumber + 1, tenant := j.tenant, template := template, count := count
                                         opened := d.time.ticks }] } }, some (d.custody.sessionNumber + 1))) ∧
  (∀ (c : CoreRef) (reply : CardReply) (j : Job) (x : CompSession) (m : Bytes) (s : State), verbJob 0x0107 c s.dev = some j →
    gateCode s.dev j = 0 → zeros j.params 0 24 = true → zeros j.params 29 19 = true → par j 28 1 < 2 → 8 ≤ outRoom s.dev j →
    sessionNamed s.dev j = some x → portServes (decide (par j 28 1 = 1)) j s.dev = true → reply.status = 0x9000 →
    s.dev.gather.service = true → enrolled s.dev (fit 65 reply.publicKey) = true → x.custodians.contains (fit 65 reply.publicKey) = false →
    let first := forDraw 8 32 s.dev
    let second := forDraw 8 32 (spend 8 32 first)
    cardSigned reply (cardDigest s.dev x.number 0x80 x.template (drawn 8 32 first)) = true →
    openComponent (beNat (drawn 8 32 second)) reply (cardContext x.number j.tenant (slotOf j.tenant s.dev.keys).suite
      (slotOf j.tenant s.dev.keys).rootVersion (templateAt x.template 0).cls)
      (keyLen (templateAt x.template 0).cls (templateAt x.template 0).param) = some m →
    Completes (.componentAdd c reply) s (fun d => d.draws = s.dev.draws + 64 ∧
      jobOf j.id d = some { j with staged := some {
        output := storedCheck (templateAt x.template 0).cls (templateAt x.template 0).param m
        intents := [.addComponent x.number (fit 65 reply.publicKey) m] } } ∧
      d.custody.sessions = s.dev.custody.sessions ∧ d.keys = s.dev.keys ∧ d.fuses = s.dev.fuses)) ∧
  (∀ (c : CoreRef) (j : Job) (s : State), verbJob 0x0A20 c s.dev = some j → attestDecode j = 0 → gateCode s.dev j = 0 →
    (if allTenants j then 16384 else 8192) ≤ outRoom s.dev j → s.dev.gather.service = true →
    (liveRequests s.dev = [] → Completes (.attest c) s (fun d => d.draws = s.dev.draws + 144 ∧
      (∃ st, jobOf j.id d = some { j with staged := some st } ∧ st.code = 0 ∧ st.output =
        statementOf s.dev (claims (allTenants j) j.tenant j.input s.dev) (drawn 8 144 (forDraw 8 144 s.dev))) ∧
      d = { s.dev with gaffer := d.gaffer, benches := d.benches, gather := d.gather, draws := d.draws
                       custody := { s.dev.custody with attesting := d.custody.attesting } })) ∧
    (∀ k rest, liveRequests s.dev = k :: rest → k ≠ j.id → j.id ∉ rest → rest.length < 16 →
      exec (.attest c) s = .next { s with dev := { s.dev with custody := { s.dev.custody with attesting := k :: rest ++ [j.id] } } })) ∧
  (∀ (c : CoreRef) (j : Job) (s : State), verbJob 0x0A40 c s.dev = some j →
    verbCode { plainVerb with decode := resetDecode } s.dev j = 0 →
    let t := num j.params 0 1
    Completes (.resetTenant c) s (fun d => (∃ k, jobOf j.id d = some k ∧ k.staged = some {}) ∧
      (∀ x ∈ d.custody.sessions, x.tenant ≠ t) ∧ (tenantOf t d).faultState = 0 ∧ (tenantOf t d).lastCode = 0 ∧
      ((parByte j 1).getLsbD 0 = true → ∀ p ∈ d.net.sessions, p.2.tenant = t → p.2.state ≠ .established ∧ p.2.state ≠ .rekeying ∧
        p.2.state ≠ .handshake) ∧
      d.fuses = s.dev.fuses ∧ d.keys = { s.dev.keys with ports := d.keys.ports } ∧ d.time = s.dev.time))

/-- Outputs answer their inputs (08 R287 to R290; 10 R361, R362, R377): a PIN matches the offset generated for it and no other
offset; what GCM encrypts it decrypts, under the same tag; a sealed record opens for its own tenant and for no other. -/
def Obligations.OutputsAnswerTheirInputs : Prop :=
  (∀ pin natural : List Nat, pin.length = natural.length → (∀ p ∈ pin, p < 10) → (∀ n ∈ natural, n < 10) →
    offsetMatches pin natural (offsetOf pin natural) = true ∧ (∀ o ∈ offsetOf pin natural, o < 10) ∧
    ∀ offset : List Nat, offset.length = pin.length → (∀ o ∈ offset, o < 10) → offsetMatches pin natural offset = true →
      offset = offsetOf pin natural) ∧
  (∀ (key aad data : Bytes) (c : Context), c.reverse = false →
    let e := gcmPart key aad data c
    let f := gcmPart key aad e.1 { c with reverse := true }
    e.1.length = data.length ∧ f.1 = data ∧ ∀ n, gcmFinish key f.2 n = gcmFinish key e.2 n) ∧
  (∀ (key : Bytes) (kind : Byte) (t u bench : Nat) (count : BitVec 56) (cycle : BitVec 32) (c : Context), t < 256 → u < 256 → u ≠ t →
    unsealContext key t (sealContext key (sealHeader kind t bench count cycle) c) = .ok (contextOf (contextBytes c)) ∧
    unsealContext key u (sealContext key (sealHeader kind t bench count cycle) c) = .error 0x0108)

/-! ### The whole machine -/

/-- Nothing is taken back: whatever the state and the command, a step unburns no fuse, repeats no random byte and recalls no
transfer; a Retired part stays Retired (16 R551, R552, R557). -/
def Obligations.NothingIsTakenBack : Prop :=
  ∀ s t : State, step s = .next t →
    fusesRise s.dev.fuses t.dev.fuses ∧ s.dev.draws ≤ t.dev.draws ∧ s.dev.out <+: t.dev.out ∧
    (state s.dev = .retired → state t.dev = .retired)

/-- Every step keeps the jobs distinct: no identifier is carried by two jobs or reaches the next to be given. -/
def Obligations.JobsStayDistinct : Prop := ∀ s t : State, jobsDistinct s.dev → step s = .next t → jobsDistinct t.dev

/-- Reset meets the invariants that steps keep. -/
def Obligations.ResetMeetsTheInvariants : Prop :=
  jobsDistinct State.reset.dev ∧ State.reset.dev.out = [] ∧ State.reset.dev.draws = 0 ∧ state State.reset.dev = .blank ∧
  ∀ f, fuseVal f State.reset.dev = 0
end

