-- ==== Sys2Proof/Laws/Bytes.lean ====
section
/-! SUPPORT. Lengths of byte strings, and the GCM stream: it keeps the length, and applied twice it gives the data back. -/

namespace Sys2Proof.Machine

theorem leBytes_length (n v : Nat) : (leBytes n v).length = n := by
  induction n generalizing v with
  | zero => rfl
  | succ n ih => simp [leBytes, ih]

theorem bvBytes_length {w : Nat} (n : Nat) (v : BitVec w) : (bvBytes n v).length = n := by
  simp [bvBytes, beBytes, leBytes_length]

theorem field_length (b : Bytes) (off n : Nat) : (field b off n).length = n := by simp [field]

/-- A field within a string is the string cut at both ends. -/
theorem field_within (b : Bytes) (off len : Nat) (h : off + len ≤ b.length) : field b off len = (b.drop off).take len := by
  apply List.ext_getElem
  · simp [field]; omega
  · intro i h1 h2
    have : off + i < b.length := by simp [field] at h1; omega
    simp [field, byteAt, this]

theorem fit_of_length (b : Bytes) (n : Nat) (h : b.length = n) : fit n b = b := by
  apply List.ext_getElem
  · simp [fit, field, h]
  · intro i h1 h2
    simp [fit, field, byteAt, h2]

theorem gcmTagOf_length (key nonce aad cipher : Bytes) : (gcmTagOf key nonce aad cipher).length = 16 := bvBytes_length 16 _

theorem aesEnc_length (key b : Bytes) : (aesEnc key b).length = 16 := bvBytes_length 16 _

theorem bytesXor_length (a b : Bytes) (h : a.length ≤ b.length) : (bytesXor a b).length = a.length := by
  simp [bytesXor, Nat.min_eq_left h]

theorem bytesXor_twice (a b : Bytes) (h : a.length ≤ b.length) : bytesXor (bytesXor a b) b = a := by
  apply List.ext_getElem
  · simp [bytesXor, Nat.min_eq_left h]
  · intro i h1 h2
    simp [bytesXor]

theorem gcmStream_length (key : Bytes) (n : Nat) : ∀ (ctr data : Bytes), data.length ≤ n →
    (gcmStream key ctr (chunksGo 16 n data)).1.length = data.length := by
  induction n with
  | zero => intro ctr data h; simp at h; simp [chunksGo, gcmStream, h]
  | succ n ih =>
    intro ctr data h
    by_cases hd : data = []
    · simp [chunksGo, gcmStream, hd]
    · have hl : 0 < data.length := List.length_pos_iff.mpr hd
      simp only [chunksGo, List.isEmpty_iff, hd, if_false, gcmStream, List.length_append]
      rw [ih _ _ (by simp; omega), bytesXor_length _ _ (by simp [aesEnc_length])]
      simp; omega

theorem gcmStream_twice (key : Bytes) (n : Nat) : ∀ (ctr data : Bytes), data.length ≤ n →
    (gcmStream key ctr (chunksGo 16 n (gcmStream key ctr (chunksGo 16 n data)).1)).1 = data := by
  induction n with
  | zero => intro ctr data h; simp at h; simp [chunksGo, gcmStream, h]
  | succ n ih =>
    intro ctr data h
    by_cases hd : data = []
    · simp [chunksGo, gcmStream, hd]
    · have hl : 0 < data.length := List.length_pos_iff.mpr hd
      have hx : (bytesXor (data.take 16) (aesEnc key ctr)).length = min 16 data.length := by
        rw [bytesXor_length _ _ (by rw [aesEnc_length, List.length_take]; omega), List.length_take]
      have hr := gcmStream_length key n (gcmNext ctr) (data.drop 16) (by simp; omega)
      have hc : chunksGo 16 (n + 1) data = data.take 16 :: chunksGo 16 n (data.drop 16) := by simp [chunksGo, hd]
      rw [hc]
      simp only [gcmStream]
      generalize hb : bytesXor (data.take 16) (aesEnc key ctr) = b at hx
      generalize hg : (gcmStream key (gcmNext ctr) (chunksGo 16 n (data.drop 16))).1 = r at hr
      have hrd : r.length = data.length - 16 := by simpa using hr
      have hne : b ++ r ≠ [] := by
        intro e
        have := congrArg List.length e
        rw [List.length_append, hx, List.length_nil] at this
        omega
      have ht : (b ++ r).take 16 = b := by
        by_cases h16 : 16 ≤ data.length
        · rw [List.take_append_of_le_length (by omega), List.take_of_length_le (by omega)]
        · have : r = [] := List.length_eq_zero_iff.mp (by omega)
          rw [this, List.append_nil, List.take_of_length_le (by omega)]
      have hdr : (b ++ r).drop 16 = r := by
        by_cases h16 : 16 ≤ data.length
        · rw [List.drop_append_of_le_length (by omega), List.drop_of_length_le (by omega), List.nil_append]
        · have : r = [] := List.length_eq_zero_iff.mp (by omega)
          rw [this, List.append_nil, List.drop_of_length_le (by omega)]
      have hc2 : chunksGo 16 (n + 1) (b ++ r) = b :: chunksGo 16 n r := by
        simp only [chunksGo, List.isEmpty_iff, hne, if_false, ht, hdr]
      rw [hc2]
      simp only [gcmStream]
      rw [← hg, ih _ _ (by simp; omega), ← hb, bytesXor_twice _ _ (by rw [aesEnc_length, List.length_take]; omega)]
      exact List.take_append_drop 16 data

theorem gcmXor_length (key nonce data : Bytes) : (gcmXor key nonce data).length = data.length :=
  gcmStream_length key _ _ _ (Nat.le_refl _)

/-- The GCM stream applied twice gives the data back (08 R270). -/
theorem gcmXor_twice (key nonce data : Bytes) : gcmXor key nonce (gcmXor key nonce data) = data := by
  have h := gcmStream_twice key data.length (gcmNext (gcmFirst nonce)) data (Nat.le_refl _)
  unfold gcmXor chunks
  rwa [gcmStream_length key data.length _ _ (Nat.le_refl _)]

end Sys2Proof.Machine
end

