-- ==== Sys2Proof/Laws/State.lean ====
section
/-! SUPPORT. What each basic update of the device leaves alone, field by field: no later proof unfolds a record update. -/

namespace Sys2Proof.Machine

@[simp] theorem gafCount_time (x1) (d : Device) : (gafCount x1 d).time = d.time := rfl
@[simp] theorem gafCount_pins (x1) (d : Device) : (gafCount x1 d).pins = d.pins := rfl
@[simp] theorem gafCount_start (x1) (d : Device) : (gafCount x1 d).start = d.start := rfl
@[simp] theorem gafCount_fuses (x1) (d : Device) : (gafCount x1 d).fuses = d.fuses := rfl
@[simp] theorem gafCount_battery (x1) (d : Device) : (gafCount x1 d).battery = d.battery := rfl
@[simp] theorem gafCount_custody (x1) (d : Device) : (gafCount x1 d).custody = d.custody := rfl
@[simp] theorem gafCount_tamper (x1) (d : Device) : (gafCount x1 d).tamper = d.tamper := rfl
@[simp] theorem gafCount_keys (x1) (d : Device) : (gafCount x1 d).keys = d.keys := rfl
@[simp] theorem gafCount_shares (x1) (d : Device) : (gafCount x1 d).shares = d.shares := rfl
@[simp] theorem gafCount_benches (x1) (d : Device) : (gafCount x1 d).benches = d.benches := rfl
@[simp] theorem gafCount_gather (x1) (d : Device) : (gafCount x1 d).gather = d.gather := rfl
@[simp] theorem gafCount_host (x1) (d : Device) : (gafCount x1 d).host = d.host := rfl
@[simp] theorem gafCount_net (x1) (d : Device) : (gafCount x1 d).net = d.net := rfl
@[simp] theorem gafCount_events (x1) (d : Device) : (gafCount x1 d).events = d.events := rfl
@[simp] theorem gafCount_power (x1) (d : Device) : (gafCount x1 d).power = d.power := rfl
@[simp] theorem gafCount_flash (x1) (d : Device) : (gafCount x1 d).flash = d.flash := rfl
@[simp] theorem gafCount_draws (x1) (d : Device) : (gafCount x1 d).draws = d.draws := rfl
@[simp] theorem gafCount_out (x1) (d : Device) : (gafCount x1 d).out = d.out := rfl

@[simp] theorem coreCount_time (x1) (x2) (x3) (d : Device) : (coreCount x1 x2 x3 d).time = d.time := rfl
@[simp] theorem coreCount_pins (x1) (x2) (x3) (d : Device) : (coreCount x1 x2 x3 d).pins = d.pins := rfl
@[simp] theorem coreCount_start (x1) (x2) (x3) (d : Device) : (coreCount x1 x2 x3 d).start = d.start := rfl
@[simp] theorem coreCount_fuses (x1) (x2) (x3) (d : Device) : (coreCount x1 x2 x3 d).fuses = d.fuses := rfl
@[simp] theorem coreCount_battery (x1) (x2) (x3) (d : Device) : (coreCount x1 x2 x3 d).battery = d.battery := rfl
@[simp] theorem coreCount_custody (x1) (x2) (x3) (d : Device) : (coreCount x1 x2 x3 d).custody = d.custody := rfl
@[simp] theorem coreCount_tamper (x1) (x2) (x3) (d : Device) : (coreCount x1 x2 x3 d).tamper = d.tamper := rfl
@[simp] theorem coreCount_keys (x1) (x2) (x3) (d : Device) : (coreCount x1 x2 x3 d).keys = d.keys := rfl
@[simp] theorem coreCount_shares (x1) (x2) (x3) (d : Device) : (coreCount x1 x2 x3 d).shares = d.shares := rfl
@[simp] theorem coreCount_benches (x1) (x2) (x3) (d : Device) : (coreCount x1 x2 x3 d).benches = d.benches := rfl
@[simp] theorem coreCount_gather (x1) (x2) (x3) (d : Device) : (coreCount x1 x2 x3 d).gather = d.gather := rfl
@[simp] theorem coreCount_host (x1) (x2) (x3) (d : Device) : (coreCount x1 x2 x3 d).host = d.host := rfl
@[simp] theorem coreCount_net (x1) (x2) (x3) (d : Device) : (coreCount x1 x2 x3 d).net = d.net := rfl
@[simp] theorem coreCount_events (x1) (x2) (x3) (d : Device) : (coreCount x1 x2 x3 d).events = d.events := rfl
@[simp] theorem coreCount_power (x1) (x2) (x3) (d : Device) : (coreCount x1 x2 x3 d).power = d.power := rfl
@[simp] theorem coreCount_flash (x1) (x2) (x3) (d : Device) : (coreCount x1 x2 x3 d).flash = d.flash := rfl
@[simp] theorem coreCount_draws (x1) (x2) (x3) (d : Device) : (coreCount x1 x2 x3 d).draws = d.draws := rfl
@[simp] theorem coreCount_out (x1) (x2) (x3) (d : Device) : (coreCount x1 x2 x3 d).out = d.out := rfl

@[simp] theorem pwrCount_time (x1) (d : Device) : (pwrCount x1 d).time = d.time := rfl
@[simp] theorem pwrCount_pins (x1) (d : Device) : (pwrCount x1 d).pins = d.pins := rfl
@[simp] theorem pwrCount_start (x1) (d : Device) : (pwrCount x1 d).start = d.start := rfl
@[simp] theorem pwrCount_fuses (x1) (d : Device) : (pwrCount x1 d).fuses = d.fuses := rfl
@[simp] theorem pwrCount_battery (x1) (d : Device) : (pwrCount x1 d).battery = d.battery := rfl
@[simp] theorem pwrCount_custody (x1) (d : Device) : (pwrCount x1 d).custody = d.custody := rfl
@[simp] theorem pwrCount_tamper (x1) (d : Device) : (pwrCount x1 d).tamper = d.tamper := rfl
@[simp] theorem pwrCount_keys (x1) (d : Device) : (pwrCount x1 d).keys = d.keys := rfl
@[simp] theorem pwrCount_gaffer (x1) (d : Device) : (pwrCount x1 d).gaffer = d.gaffer := rfl
@[simp] theorem pwrCount_shares (x1) (d : Device) : (pwrCount x1 d).shares = d.shares := rfl
@[simp] theorem pwrCount_benches (x1) (d : Device) : (pwrCount x1 d).benches = d.benches := rfl
@[simp] theorem pwrCount_gather (x1) (d : Device) : (pwrCount x1 d).gather = d.gather := rfl
@[simp] theorem pwrCount_host (x1) (d : Device) : (pwrCount x1 d).host = d.host := rfl
@[simp] theorem pwrCount_net (x1) (d : Device) : (pwrCount x1 d).net = d.net := rfl
@[simp] theorem pwrCount_events (x1) (d : Device) : (pwrCount x1 d).events = d.events := rfl
@[simp] theorem pwrCount_flash (x1) (d : Device) : (pwrCount x1 d).flash = d.flash := rfl
@[simp] theorem pwrCount_draws (x1) (d : Device) : (pwrCount x1 d).draws = d.draws := rfl
@[simp] theorem pwrCount_out (x1) (d : Device) : (pwrCount x1 d).out = d.out := rfl

@[simp] theorem modBench_time (x1) (x2) (d : Device) : (modBench x1 x2 d).time = d.time := rfl
@[simp] theorem modBench_pins (x1) (x2) (d : Device) : (modBench x1 x2 d).pins = d.pins := rfl
@[simp] theorem modBench_start (x1) (x2) (d : Device) : (modBench x1 x2 d).start = d.start := rfl
@[simp] theorem modBench_fuses (x1) (x2) (d : Device) : (modBench x1 x2 d).fuses = d.fuses := rfl
@[simp] theorem modBench_battery (x1) (x2) (d : Device) : (modBench x1 x2 d).battery = d.battery := rfl
@[simp] theorem modBench_custody (x1) (x2) (d : Device) : (modBench x1 x2 d).custody = d.custody := rfl
@[simp] theorem modBench_tamper (x1) (x2) (d : Device) : (modBench x1 x2 d).tamper = d.tamper := rfl
@[simp] theorem modBench_keys (x1) (x2) (d : Device) : (modBench x1 x2 d).keys = d.keys := rfl
@[simp] theorem modBench_gaffer (x1) (x2) (d : Device) : (modBench x1 x2 d).gaffer = d.gaffer := rfl
@[simp] theorem modBench_shares (x1) (x2) (d : Device) : (modBench x1 x2 d).shares = d.shares := rfl
@[simp] theorem modBench_gather (x1) (x2) (d : Device) : (modBench x1 x2 d).gather = d.gather := rfl
@[simp] theorem modBench_host (x1) (x2) (d : Device) : (modBench x1 x2 d).host = d.host := rfl
@[simp] theorem modBench_net (x1) (x2) (d : Device) : (modBench x1 x2 d).net = d.net := rfl
@[simp] theorem modBench_events (x1) (x2) (d : Device) : (modBench x1 x2 d).events = d.events := rfl
@[simp] theorem modBench_power (x1) (x2) (d : Device) : (modBench x1 x2 d).power = d.power := rfl
@[simp] theorem modBench_flash (x1) (x2) (d : Device) : (modBench x1 x2 d).flash = d.flash := rfl
@[simp] theorem modBench_draws (x1) (x2) (d : Device) : (modBench x1 x2 d).draws = d.draws := rfl
@[simp] theorem modBench_out (x1) (x2) (d : Device) : (modBench x1 x2 d).out = d.out := rfl

@[simp] theorem lehCount_time (x1) (x2) (d : Device) : (lehCount x1 x2 d).time = d.time := rfl
@[simp] theorem lehCount_pins (x1) (x2) (d : Device) : (lehCount x1 x2 d).pins = d.pins := rfl
@[simp] theorem lehCount_start (x1) (x2) (d : Device) : (lehCount x1 x2 d).start = d.start := rfl
@[simp] theorem lehCount_fuses (x1) (x2) (d : Device) : (lehCount x1 x2 d).fuses = d.fuses := rfl
@[simp] theorem lehCount_battery (x1) (x2) (d : Device) : (lehCount x1 x2 d).battery = d.battery := rfl
@[simp] theorem lehCount_custody (x1) (x2) (d : Device) : (lehCount x1 x2 d).custody = d.custody := rfl
@[simp] theorem lehCount_tamper (x1) (x2) (d : Device) : (lehCount x1 x2 d).tamper = d.tamper := rfl
@[simp] theorem lehCount_keys (x1) (x2) (d : Device) : (lehCount x1 x2 d).keys = d.keys := rfl
@[simp] theorem lehCount_gaffer (x1) (x2) (d : Device) : (lehCount x1 x2 d).gaffer = d.gaffer := rfl
@[simp] theorem lehCount_shares (x1) (x2) (d : Device) : (lehCount x1 x2 d).shares = d.shares := rfl
@[simp] theorem lehCount_gather (x1) (x2) (d : Device) : (lehCount x1 x2 d).gather = d.gather := rfl
@[simp] theorem lehCount_host (x1) (x2) (d : Device) : (lehCount x1 x2 d).host = d.host := rfl
@[simp] theorem lehCount_net (x1) (x2) (d : Device) : (lehCount x1 x2 d).net = d.net := rfl
@[simp] theorem lehCount_events (x1) (x2) (d : Device) : (lehCount x1 x2 d).events = d.events := rfl
@[simp] theorem lehCount_power (x1) (x2) (d : Device) : (lehCount x1 x2 d).power = d.power := rfl
@[simp] theorem lehCount_flash (x1) (x2) (d : Device) : (lehCount x1 x2 d).flash = d.flash := rfl
@[simp] theorem lehCount_draws (x1) (x2) (d : Device) : (lehCount x1 x2 d).draws = d.draws := rfl
@[simp] theorem lehCount_out (x1) (x2) (d : Device) : (lehCount x1 x2 d).out = d.out := rfl

@[simp] theorem modCore_time (x1) (x2) (d : Device) : (modCore x1 x2 d).time = d.time := rfl
@[simp] theorem modCore_pins (x1) (x2) (d : Device) : (modCore x1 x2 d).pins = d.pins := rfl
@[simp] theorem modCore_start (x1) (x2) (d : Device) : (modCore x1 x2 d).start = d.start := rfl
@[simp] theorem modCore_fuses (x1) (x2) (d : Device) : (modCore x1 x2 d).fuses = d.fuses := rfl
@[simp] theorem modCore_battery (x1) (x2) (d : Device) : (modCore x1 x2 d).battery = d.battery := rfl
@[simp] theorem modCore_custody (x1) (x2) (d : Device) : (modCore x1 x2 d).custody = d.custody := rfl
@[simp] theorem modCore_tamper (x1) (x2) (d : Device) : (modCore x1 x2 d).tamper = d.tamper := rfl
@[simp] theorem modCore_keys (x1) (x2) (d : Device) : (modCore x1 x2 d).keys = d.keys := rfl
@[simp] theorem modCore_gaffer (x1) (x2) (d : Device) : (modCore x1 x2 d).gaffer = d.gaffer := rfl
@[simp] theorem modCore_shares (x1) (x2) (d : Device) : (modCore x1 x2 d).shares = d.shares := rfl
@[simp] theorem modCore_gather (x1) (x2) (d : Device) : (modCore x1 x2 d).gather = d.gather := rfl
@[simp] theorem modCore_host (x1) (x2) (d : Device) : (modCore x1 x2 d).host = d.host := rfl
@[simp] theorem modCore_net (x1) (x2) (d : Device) : (modCore x1 x2 d).net = d.net := rfl
@[simp] theorem modCore_events (x1) (x2) (d : Device) : (modCore x1 x2 d).events = d.events := rfl
@[simp] theorem modCore_power (x1) (x2) (d : Device) : (modCore x1 x2 d).power = d.power := rfl
@[simp] theorem modCore_flash (x1) (x2) (d : Device) : (modCore x1 x2 d).flash = d.flash := rfl
@[simp] theorem modCore_draws (x1) (x2) (d : Device) : (modCore x1 x2 d).draws = d.draws := rfl
@[simp] theorem modCore_out (x1) (x2) (d : Device) : (modCore x1 x2 d).out = d.out := rfl

@[simp] theorem modTenant_time (x1) (x2) (d : Device) : (modTenant x1 x2 d).time = d.time := rfl
@[simp] theorem modTenant_pins (x1) (x2) (d : Device) : (modTenant x1 x2 d).pins = d.pins := rfl
@[simp] theorem modTenant_start (x1) (x2) (d : Device) : (modTenant x1 x2 d).start = d.start := rfl
@[simp] theorem modTenant_fuses (x1) (x2) (d : Device) : (modTenant x1 x2 d).fuses = d.fuses := rfl
@[simp] theorem modTenant_battery (x1) (x2) (d : Device) : (modTenant x1 x2 d).battery = d.battery := rfl
@[simp] theorem modTenant_custody (x1) (x2) (d : Device) : (modTenant x1 x2 d).custody = d.custody := rfl
@[simp] theorem modTenant_tamper (x1) (x2) (d : Device) : (modTenant x1 x2 d).tamper = d.tamper := rfl
@[simp] theorem modTenant_keys (x1) (x2) (d : Device) : (modTenant x1 x2 d).keys = d.keys := rfl
@[simp] theorem modTenant_shares (x1) (x2) (d : Device) : (modTenant x1 x2 d).shares = d.shares := rfl
@[simp] theorem modTenant_benches (x1) (x2) (d : Device) : (modTenant x1 x2 d).benches = d.benches := rfl
@[simp] theorem modTenant_gather (x1) (x2) (d : Device) : (modTenant x1 x2 d).gather = d.gather := rfl
@[simp] theorem modTenant_host (x1) (x2) (d : Device) : (modTenant x1 x2 d).host = d.host := rfl
@[simp] theorem modTenant_net (x1) (x2) (d : Device) : (modTenant x1 x2 d).net = d.net := rfl
@[simp] theorem modTenant_events (x1) (x2) (d : Device) : (modTenant x1 x2 d).events = d.events := rfl
@[simp] theorem modTenant_power (x1) (x2) (d : Device) : (modTenant x1 x2 d).power = d.power := rfl
@[simp] theorem modTenant_flash (x1) (x2) (d : Device) : (modTenant x1 x2 d).flash = d.flash := rfl
@[simp] theorem modTenant_draws (x1) (x2) (d : Device) : (modTenant x1 x2 d).draws = d.draws := rfl
@[simp] theorem modTenant_out (x1) (x2) (d : Device) : (modTenant x1 x2 d).out = d.out := rfl

@[simp] theorem modFn_time (x1) (x2) (d : Device) : (modFn x1 x2 d).time = d.time := rfl
@[simp] theorem modFn_pins (x1) (x2) (d : Device) : (modFn x1 x2 d).pins = d.pins := rfl
@[simp] theorem modFn_start (x1) (x2) (d : Device) : (modFn x1 x2 d).start = d.start := rfl
@[simp] theorem modFn_fuses (x1) (x2) (d : Device) : (modFn x1 x2 d).fuses = d.fuses := rfl
@[simp] theorem modFn_battery (x1) (x2) (d : Device) : (modFn x1 x2 d).battery = d.battery := rfl
@[simp] theorem modFn_custody (x1) (x2) (d : Device) : (modFn x1 x2 d).custody = d.custody := rfl
@[simp] theorem modFn_tamper (x1) (x2) (d : Device) : (modFn x1 x2 d).tamper = d.tamper := rfl
@[simp] theorem modFn_keys (x1) (x2) (d : Device) : (modFn x1 x2 d).keys = d.keys := rfl
@[simp] theorem modFn_gaffer (x1) (x2) (d : Device) : (modFn x1 x2 d).gaffer = d.gaffer := rfl
@[simp] theorem modFn_shares (x1) (x2) (d : Device) : (modFn x1 x2 d).shares = d.shares := rfl
@[simp] theorem modFn_benches (x1) (x2) (d : Device) : (modFn x1 x2 d).benches = d.benches := rfl
@[simp] theorem modFn_gather (x1) (x2) (d : Device) : (modFn x1 x2 d).gather = d.gather := rfl
@[simp] theorem modFn_net (x1) (x2) (d : Device) : (modFn x1 x2 d).net = d.net := rfl
@[simp] theorem modFn_events (x1) (x2) (d : Device) : (modFn x1 x2 d).events = d.events := rfl
@[simp] theorem modFn_power (x1) (x2) (d : Device) : (modFn x1 x2 d).power = d.power := rfl
@[simp] theorem modFn_flash (x1) (x2) (d : Device) : (modFn x1 x2 d).flash = d.flash := rfl
@[simp] theorem modFn_draws (x1) (x2) (d : Device) : (modFn x1 x2 d).draws = d.draws := rfl
@[simp] theorem modFn_out (x1) (x2) (d : Device) : (modFn x1 x2 d).out = d.out := rfl

@[simp] theorem fnCount_time (x1) (x2) (d : Device) : (fnCount x1 x2 d).time = d.time := rfl
@[simp] theorem fnCount_pins (x1) (x2) (d : Device) : (fnCount x1 x2 d).pins = d.pins := rfl
@[simp] theorem fnCount_start (x1) (x2) (d : Device) : (fnCount x1 x2 d).start = d.start := rfl
@[simp] theorem fnCount_fuses (x1) (x2) (d : Device) : (fnCount x1 x2 d).fuses = d.fuses := rfl
@[simp] theorem fnCount_battery (x1) (x2) (d : Device) : (fnCount x1 x2 d).battery = d.battery := rfl
@[simp] theorem fnCount_custody (x1) (x2) (d : Device) : (fnCount x1 x2 d).custody = d.custody := rfl
@[simp] theorem fnCount_tamper (x1) (x2) (d : Device) : (fnCount x1 x2 d).tamper = d.tamper := rfl
@[simp] theorem fnCount_keys (x1) (x2) (d : Device) : (fnCount x1 x2 d).keys = d.keys := rfl
@[simp] theorem fnCount_gaffer (x1) (x2) (d : Device) : (fnCount x1 x2 d).gaffer = d.gaffer := rfl
@[simp] theorem fnCount_shares (x1) (x2) (d : Device) : (fnCount x1 x2 d).shares = d.shares := rfl
@[simp] theorem fnCount_benches (x1) (x2) (d : Device) : (fnCount x1 x2 d).benches = d.benches := rfl
@[simp] theorem fnCount_gather (x1) (x2) (d : Device) : (fnCount x1 x2 d).gather = d.gather := rfl
@[simp] theorem fnCount_net (x1) (x2) (d : Device) : (fnCount x1 x2 d).net = d.net := rfl
@[simp] theorem fnCount_events (x1) (x2) (d : Device) : (fnCount x1 x2 d).events = d.events := rfl
@[simp] theorem fnCount_power (x1) (x2) (d : Device) : (fnCount x1 x2 d).power = d.power := rfl
@[simp] theorem fnCount_flash (x1) (x2) (d : Device) : (fnCount x1 x2 d).flash = d.flash := rfl
@[simp] theorem fnCount_draws (x1) (x2) (d : Device) : (fnCount x1 x2 d).draws = d.draws := rfl
@[simp] theorem fnCount_out (x1) (x2) (d : Device) : (fnCount x1 x2 d).out = d.out := rfl

@[simp] theorem modQueue_time (x1) (x2) (x3) (d : Device) : (modQueue x1 x2 x3 d).time = d.time := rfl
@[simp] theorem modQueue_pins (x1) (x2) (x3) (d : Device) : (modQueue x1 x2 x3 d).pins = d.pins := rfl
@[simp] theorem modQueue_start (x1) (x2) (x3) (d : Device) : (modQueue x1 x2 x3 d).start = d.start := rfl
@[simp] theorem modQueue_fuses (x1) (x2) (x3) (d : Device) : (modQueue x1 x2 x3 d).fuses = d.fuses := rfl
@[simp] theorem modQueue_battery (x1) (x2) (x3) (d : Device) : (modQueue x1 x2 x3 d).battery = d.battery := rfl
@[simp] theorem modQueue_custody (x1) (x2) (x3) (d : Device) : (modQueue x1 x2 x3 d).custody = d.custody := rfl
@[simp] theorem modQueue_tamper (x1) (x2) (x3) (d : Device) : (modQueue x1 x2 x3 d).tamper = d.tamper := rfl
@[simp] theorem modQueue_keys (x1) (x2) (x3) (d : Device) : (modQueue x1 x2 x3 d).keys = d.keys := rfl
@[simp] theorem modQueue_gaffer (x1) (x2) (x3) (d : Device) : (modQueue x1 x2 x3 d).gaffer = d.gaffer := rfl
@[simp] theorem modQueue_shares (x1) (x2) (x3) (d : Device) : (modQueue x1 x2 x3 d).shares = d.shares := rfl
@[simp] theorem modQueue_benches (x1) (x2) (x3) (d : Device) : (modQueue x1 x2 x3 d).benches = d.benches := rfl
@[simp] theorem modQueue_gather (x1) (x2) (x3) (d : Device) : (modQueue x1 x2 x3 d).gather = d.gather := rfl
@[simp] theorem modQueue_net (x1) (x2) (x3) (d : Device) : (modQueue x1 x2 x3 d).net = d.net := rfl
@[simp] theorem modQueue_events (x1) (x2) (x3) (d : Device) : (modQueue x1 x2 x3 d).events = d.events := rfl
@[simp] theorem modQueue_power (x1) (x2) (x3) (d : Device) : (modQueue x1 x2 x3 d).power = d.power := rfl
@[simp] theorem modQueue_flash (x1) (x2) (x3) (d : Device) : (modQueue x1 x2 x3 d).flash = d.flash := rfl
@[simp] theorem modQueue_draws (x1) (x2) (x3) (d : Device) : (modQueue x1 x2 x3 d).draws = d.draws := rfl
@[simp] theorem modQueue_out (x1) (x2) (x3) (d : Device) : (modQueue x1 x2 x3 d).out = d.out := rfl

@[simp] theorem modPath_time (x1) (x2) (d : Device) : (modPath x1 x2 d).time = d.time := rfl
@[simp] theorem modPath_pins (x1) (x2) (d : Device) : (modPath x1 x2 d).pins = d.pins := rfl
@[simp] theorem modPath_start (x1) (x2) (d : Device) : (modPath x1 x2 d).start = d.start := rfl
@[simp] theorem modPath_fuses (x1) (x2) (d : Device) : (modPath x1 x2 d).fuses = d.fuses := rfl
@[simp] theorem modPath_battery (x1) (x2) (d : Device) : (modPath x1 x2 d).battery = d.battery := rfl
@[simp] theorem modPath_custody (x1) (x2) (d : Device) : (modPath x1 x2 d).custody = d.custody := rfl
@[simp] theorem modPath_tamper (x1) (x2) (d : Device) : (modPath x1 x2 d).tamper = d.tamper := rfl
@[simp] theorem modPath_keys (x1) (x2) (d : Device) : (modPath x1 x2 d).keys = d.keys := rfl
@[simp] theorem modPath_gaffer (x1) (x2) (d : Device) : (modPath x1 x2 d).gaffer = d.gaffer := rfl
@[simp] theorem modPath_shares (x1) (x2) (d : Device) : (modPath x1 x2 d).shares = d.shares := rfl
@[simp] theorem modPath_benches (x1) (x2) (d : Device) : (modPath x1 x2 d).benches = d.benches := rfl
@[simp] theorem modPath_gather (x1) (x2) (d : Device) : (modPath x1 x2 d).gather = d.gather := rfl
@[simp] theorem modPath_host (x1) (x2) (d : Device) : (modPath x1 x2 d).host = d.host := rfl
@[simp] theorem modPath_events (x1) (x2) (d : Device) : (modPath x1 x2 d).events = d.events := rfl
@[simp] theorem modPath_power (x1) (x2) (d : Device) : (modPath x1 x2 d).power = d.power := rfl
@[simp] theorem modPath_flash (x1) (x2) (d : Device) : (modPath x1 x2 d).flash = d.flash := rfl
@[simp] theorem modPath_draws (x1) (x2) (d : Device) : (modPath x1 x2 d).draws = d.draws := rfl
@[simp] theorem modPath_out (x1) (x2) (d : Device) : (modPath x1 x2 d).out = d.out := rfl

@[simp] theorem netCount_time (x1) (x2) (d : Device) : (netCount x1 x2 d).time = d.time := rfl
@[simp] theorem netCount_pins (x1) (x2) (d : Device) : (netCount x1 x2 d).pins = d.pins := rfl
@[simp] theorem netCount_start (x1) (x2) (d : Device) : (netCount x1 x2 d).start = d.start := rfl
@[simp] theorem netCount_fuses (x1) (x2) (d : Device) : (netCount x1 x2 d).fuses = d.fuses := rfl
@[simp] theorem netCount_battery (x1) (x2) (d : Device) : (netCount x1 x2 d).battery = d.battery := rfl
@[simp] theorem netCount_custody (x1) (x2) (d : Device) : (netCount x1 x2 d).custody = d.custody := rfl
@[simp] theorem netCount_tamper (x1) (x2) (d : Device) : (netCount x1 x2 d).tamper = d.tamper := rfl
@[simp] theorem netCount_keys (x1) (x2) (d : Device) : (netCount x1 x2 d).keys = d.keys := rfl
@[simp] theorem netCount_gaffer (x1) (x2) (d : Device) : (netCount x1 x2 d).gaffer = d.gaffer := rfl
@[simp] theorem netCount_shares (x1) (x2) (d : Device) : (netCount x1 x2 d).shares = d.shares := rfl
@[simp] theorem netCount_benches (x1) (x2) (d : Device) : (netCount x1 x2 d).benches = d.benches := rfl
@[simp] theorem netCount_gather (x1) (x2) (d : Device) : (netCount x1 x2 d).gather = d.gather := rfl
@[simp] theorem netCount_host (x1) (x2) (d : Device) : (netCount x1 x2 d).host = d.host := rfl
@[simp] theorem netCount_events (x1) (x2) (d : Device) : (netCount x1 x2 d).events = d.events := rfl
@[simp] theorem netCount_power (x1) (x2) (d : Device) : (netCount x1 x2 d).power = d.power := rfl
@[simp] theorem netCount_flash (x1) (x2) (d : Device) : (netCount x1 x2 d).flash = d.flash := rfl
@[simp] theorem netCount_draws (x1) (x2) (d : Device) : (netCount x1 x2 d).draws = d.draws := rfl
@[simp] theorem netCount_out (x1) (x2) (d : Device) : (netCount x1 x2 d).out = d.out := rfl

@[simp] theorem setSession_time (x1) (x2) (d : Device) : (setSession x1 x2 d).time = d.time := rfl
@[simp] theorem setSession_pins (x1) (x2) (d : Device) : (setSession x1 x2 d).pins = d.pins := rfl
@[simp] theorem setSession_start (x1) (x2) (d : Device) : (setSession x1 x2 d).start = d.start := rfl
@[simp] theorem setSession_fuses (x1) (x2) (d : Device) : (setSession x1 x2 d).fuses = d.fuses := rfl
@[simp] theorem setSession_battery (x1) (x2) (d : Device) : (setSession x1 x2 d).battery = d.battery := rfl
@[simp] theorem setSession_custody (x1) (x2) (d : Device) : (setSession x1 x2 d).custody = d.custody := rfl
@[simp] theorem setSession_tamper (x1) (x2) (d : Device) : (setSession x1 x2 d).tamper = d.tamper := rfl
@[simp] theorem setSession_keys (x1) (x2) (d : Device) : (setSession x1 x2 d).keys = d.keys := rfl
@[simp] theorem setSession_gaffer (x1) (x2) (d : Device) : (setSession x1 x2 d).gaffer = d.gaffer := rfl
@[simp] theorem setSession_shares (x1) (x2) (d : Device) : (setSession x1 x2 d).shares = d.shares := rfl
@[simp] theorem setSession_benches (x1) (x2) (d : Device) : (setSession x1 x2 d).benches = d.benches := rfl
@[simp] theorem setSession_gather (x1) (x2) (d : Device) : (setSession x1 x2 d).gather = d.gather := rfl
@[simp] theorem setSession_host (x1) (x2) (d : Device) : (setSession x1 x2 d).host = d.host := rfl
@[simp] theorem setSession_events (x1) (x2) (d : Device) : (setSession x1 x2 d).events = d.events := rfl
@[simp] theorem setSession_power (x1) (x2) (d : Device) : (setSession x1 x2 d).power = d.power := rfl
@[simp] theorem setSession_flash (x1) (x2) (d : Device) : (setSession x1 x2 d).flash = d.flash := rfl
@[simp] theorem setSession_draws (x1) (x2) (d : Device) : (setSession x1 x2 d).draws = d.draws := rfl
@[simp] theorem setSession_out (x1) (x2) (d : Device) : (setSession x1 x2 d).out = d.out := rfl

@[simp] theorem setSource_time (x1) (x2) (d : Device) : (setSource x1 x2 d).time = d.time := rfl
@[simp] theorem setSource_pins (x1) (x2) (d : Device) : (setSource x1 x2 d).pins = d.pins := rfl
@[simp] theorem setSource_start (x1) (x2) (d : Device) : (setSource x1 x2 d).start = d.start := rfl
@[simp] theorem setSource_fuses (x1) (x2) (d : Device) : (setSource x1 x2 d).fuses = d.fuses := rfl
@[simp] theorem setSource_battery (x1) (x2) (d : Device) : (setSource x1 x2 d).battery = d.battery := rfl
@[simp] theorem setSource_custody (x1) (x2) (d : Device) : (setSource x1 x2 d).custody = d.custody := rfl
@[simp] theorem setSource_keys (x1) (x2) (d : Device) : (setSource x1 x2 d).keys = d.keys := rfl
@[simp] theorem setSource_gaffer (x1) (x2) (d : Device) : (setSource x1 x2 d).gaffer = d.gaffer := rfl
@[simp] theorem setSource_shares (x1) (x2) (d : Device) : (setSource x1 x2 d).shares = d.shares := rfl
@[simp] theorem setSource_benches (x1) (x2) (d : Device) : (setSource x1 x2 d).benches = d.benches := rfl
@[simp] theorem setSource_gather (x1) (x2) (d : Device) : (setSource x1 x2 d).gather = d.gather := rfl
@[simp] theorem setSource_host (x1) (x2) (d : Device) : (setSource x1 x2 d).host = d.host := rfl
@[simp] theorem setSource_net (x1) (x2) (d : Device) : (setSource x1 x2 d).net = d.net := rfl
@[simp] theorem setSource_events (x1) (x2) (d : Device) : (setSource x1 x2 d).events = d.events := rfl
@[simp] theorem setSource_power (x1) (x2) (d : Device) : (setSource x1 x2 d).power = d.power := rfl
@[simp] theorem setSource_flash (x1) (x2) (d : Device) : (setSource x1 x2 d).flash = d.flash := rfl
@[simp] theorem setSource_draws (x1) (x2) (d : Device) : (setSource x1 x2 d).draws = d.draws := rfl
@[simp] theorem setSource_out (x1) (x2) (d : Device) : (setSource x1 x2 d).out = d.out := rfl

@[simp] theorem modEngine_time (x1) (x2) (x3) (x4) (d : Device) : (modEngine x1 x2 x3 x4 d).time = d.time := rfl
@[simp] theorem modEngine_pins (x1) (x2) (x3) (x4) (d : Device) : (modEngine x1 x2 x3 x4 d).pins = d.pins := rfl
@[simp] theorem modEngine_start (x1) (x2) (x3) (x4) (d : Device) : (modEngine x1 x2 x3 x4 d).start = d.start := rfl
@[simp] theorem modEngine_fuses (x1) (x2) (x3) (x4) (d : Device) : (modEngine x1 x2 x3 x4 d).fuses = d.fuses := rfl
@[simp] theorem modEngine_battery (x1) (x2) (x3) (x4) (d : Device) : (modEngine x1 x2 x3 x4 d).battery = d.battery := rfl
@[simp] theorem modEngine_custody (x1) (x2) (x3) (x4) (d : Device) : (modEngine x1 x2 x3 x4 d).custody = d.custody := rfl
@[simp] theorem modEngine_tamper (x1) (x2) (x3) (x4) (d : Device) : (modEngine x1 x2 x3 x4 d).tamper = d.tamper := rfl
@[simp] theorem modEngine_keys (x1) (x2) (x3) (x4) (d : Device) : (modEngine x1 x2 x3 x4 d).keys = d.keys := rfl
@[simp] theorem modEngine_gaffer (x1) (x2) (x3) (x4) (d : Device) : (modEngine x1 x2 x3 x4 d).gaffer = d.gaffer := rfl
@[simp] theorem modEngine_shares (x1) (x2) (x3) (x4) (d : Device) : (modEngine x1 x2 x3 x4 d).shares = d.shares := rfl
@[simp] theorem modEngine_gather (x1) (x2) (x3) (x4) (d : Device) : (modEngine x1 x2 x3 x4 d).gather = d.gather := rfl
@[simp] theorem modEngine_host (x1) (x2) (x3) (x4) (d : Device) : (modEngine x1 x2 x3 x4 d).host = d.host := rfl
@[simp] theorem modEngine_net (x1) (x2) (x3) (x4) (d : Device) : (modEngine x1 x2 x3 x4 d).net = d.net := rfl
@[simp] theorem modEngine_events (x1) (x2) (x3) (x4) (d : Device) : (modEngine x1 x2 x3 x4 d).events = d.events := rfl
@[simp] theorem modEngine_power (x1) (x2) (x3) (x4) (d : Device) : (modEngine x1 x2 x3 x4 d).power = d.power := rfl
@[simp] theorem modEngine_flash (x1) (x2) (x3) (x4) (d : Device) : (modEngine x1 x2 x3 x4 d).flash = d.flash := rfl
@[simp] theorem modEngine_draws (x1) (x2) (x3) (x4) (d : Device) : (modEngine x1 x2 x3 x4 d).draws = d.draws := rfl
@[simp] theorem modEngine_out (x1) (x2) (x3) (x4) (d : Device) : (modEngine x1 x2 x3 x4 d).out = d.out := rfl

@[simp] theorem emitVia_time (x1) (x2) (x3) (x4) (x5) (x6) (x7) (d : Device) : (emitVia x1 x2 x3 x4 x5 x6 x7 d).time = d.time := rfl
@[simp] theorem emitVia_pins (x1) (x2) (x3) (x4) (x5) (x6) (x7) (d : Device) : (emitVia x1 x2 x3 x4 x5 x6 x7 d).pins = d.pins := rfl
@[simp] theorem emitVia_start (x1) (x2) (x3) (x4) (x5) (x6) (x7) (d : Device) : (emitVia x1 x2 x3 x4 x5 x6 x7 d).start = d.start := rfl
@[simp] theorem emitVia_fuses (x1) (x2) (x3) (x4) (x5) (x6) (x7) (d : Device) : (emitVia x1 x2 x3 x4 x5 x6 x7 d).fuses = d.fuses := rfl
@[simp] theorem emitVia_battery (x1) (x2) (x3) (x4) (x5) (x6) (x7) (d : Device) : (emitVia x1 x2 x3 x4 x5 x6 x7 d).battery = d.battery := rfl
@[simp] theorem emitVia_custody (x1) (x2) (x3) (x4) (x5) (x6) (x7) (d : Device) : (emitVia x1 x2 x3 x4 x5 x6 x7 d).custody = d.custody := rfl
@[simp] theorem emitVia_tamper (x1) (x2) (x3) (x4) (x5) (x6) (x7) (d : Device) : (emitVia x1 x2 x3 x4 x5 x6 x7 d).tamper = d.tamper := rfl
@[simp] theorem emitVia_keys (x1) (x2) (x3) (x4) (x5) (x6) (x7) (d : Device) : (emitVia x1 x2 x3 x4 x5 x6 x7 d).keys = d.keys := rfl
@[simp] theorem emitVia_gaffer (x1) (x2) (x3) (x4) (x5) (x6) (x7) (d : Device) : (emitVia x1 x2 x3 x4 x5 x6 x7 d).gaffer = d.gaffer := rfl
@[simp] theorem emitVia_shares (x1) (x2) (x3) (x4) (x5) (x6) (x7) (d : Device) : (emitVia x1 x2 x3 x4 x5 x6 x7 d).shares = d.shares := rfl
@[simp] theorem emitVia_benches (x1) (x2) (x3) (x4) (x5) (x6) (x7) (d : Device) : (emitVia x1 x2 x3 x4 x5 x6 x7 d).benches = d.benches := rfl
@[simp] theorem emitVia_gather (x1) (x2) (x3) (x4) (x5) (x6) (x7) (d : Device) : (emitVia x1 x2 x3 x4 x5 x6 x7 d).gather = d.gather := rfl
@[simp] theorem emitVia_host (x1) (x2) (x3) (x4) (x5) (x6) (x7) (d : Device) : (emitVia x1 x2 x3 x4 x5 x6 x7 d).host = d.host := rfl
@[simp] theorem emitVia_net (x1) (x2) (x3) (x4) (x5) (x6) (x7) (d : Device) : (emitVia x1 x2 x3 x4 x5 x6 x7 d).net = d.net := rfl
@[simp] theorem emitVia_power (x1) (x2) (x3) (x4) (x5) (x6) (x7) (d : Device) : (emitVia x1 x2 x3 x4 x5 x6 x7 d).power = d.power := rfl
@[simp] theorem emitVia_flash (x1) (x2) (x3) (x4) (x5) (x6) (x7) (d : Device) : (emitVia x1 x2 x3 x4 x5 x6 x7 d).flash = d.flash := rfl
@[simp] theorem emitVia_draws (x1) (x2) (x3) (x4) (x5) (x6) (x7) (d : Device) : (emitVia x1 x2 x3 x4 x5 x6 x7 d).draws = d.draws := rfl
@[simp] theorem emitVia_out (x1) (x2) (x3) (x4) (x5) (x6) (x7) (d : Device) : (emitVia x1 x2 x3 x4 x5 x6 x7 d).out = d.out := rfl

@[simp] theorem emit_time (x1) (x2) (x3) (x4) (d : Device) : (emit x1 x2 x3 x4 d).time = d.time := rfl
@[simp] theorem emit_pins (x1) (x2) (x3) (x4) (d : Device) : (emit x1 x2 x3 x4 d).pins = d.pins := rfl
@[simp] theorem emit_start (x1) (x2) (x3) (x4) (d : Device) : (emit x1 x2 x3 x4 d).start = d.start := rfl
@[simp] theorem emit_fuses (x1) (x2) (x3) (x4) (d : Device) : (emit x1 x2 x3 x4 d).fuses = d.fuses := rfl
@[simp] theorem emit_battery (x1) (x2) (x3) (x4) (d : Device) : (emit x1 x2 x3 x4 d).battery = d.battery := rfl
@[simp] theorem emit_custody (x1) (x2) (x3) (x4) (d : Device) : (emit x1 x2 x3 x4 d).custody = d.custody := rfl
@[simp] theorem emit_tamper (x1) (x2) (x3) (x4) (d : Device) : (emit x1 x2 x3 x4 d).tamper = d.tamper := rfl
@[simp] theorem emit_keys (x1) (x2) (x3) (x4) (d : Device) : (emit x1 x2 x3 x4 d).keys = d.keys := rfl
@[simp] theorem emit_gaffer (x1) (x2) (x3) (x4) (d : Device) : (emit x1 x2 x3 x4 d).gaffer = d.gaffer := rfl
@[simp] theorem emit_shares (x1) (x2) (x3) (x4) (d : Device) : (emit x1 x2 x3 x4 d).shares = d.shares := rfl
@[simp] theorem emit_benches (x1) (x2) (x3) (x4) (d : Device) : (emit x1 x2 x3 x4 d).benches = d.benches := rfl
@[simp] theorem emit_gather (x1) (x2) (x3) (x4) (d : Device) : (emit x1 x2 x3 x4 d).gather = d.gather := rfl
@[simp] theorem emit_host (x1) (x2) (x3) (x4) (d : Device) : (emit x1 x2 x3 x4 d).host = d.host := rfl
@[simp] theorem emit_net (x1) (x2) (x3) (x4) (d : Device) : (emit x1 x2 x3 x4 d).net = d.net := rfl
@[simp] theorem emit_power (x1) (x2) (x3) (x4) (d : Device) : (emit x1 x2 x3 x4 d).power = d.power := rfl
@[simp] theorem emit_flash (x1) (x2) (x3) (x4) (d : Device) : (emit x1 x2 x3 x4 d).flash = d.flash := rfl
@[simp] theorem emit_draws (x1) (x2) (x3) (x4) (d : Device) : (emit x1 x2 x3 x4 d).draws = d.draws := rfl
@[simp] theorem emit_out (x1) (x2) (x3) (x4) (d : Device) : (emit x1 x2 x3 x4 d).out = d.out := rfl

@[simp] theorem emitC_time (x1) (x2) (x3) (d : Device) : (emitC x1 x2 x3 d).time = d.time := rfl
@[simp] theorem emitC_pins (x1) (x2) (x3) (d : Device) : (emitC x1 x2 x3 d).pins = d.pins := rfl
@[simp] theorem emitC_start (x1) (x2) (x3) (d : Device) : (emitC x1 x2 x3 d).start = d.start := rfl
@[simp] theorem emitC_fuses (x1) (x2) (x3) (d : Device) : (emitC x1 x2 x3 d).fuses = d.fuses := rfl
@[simp] theorem emitC_battery (x1) (x2) (x3) (d : Device) : (emitC x1 x2 x3 d).battery = d.battery := rfl
@[simp] theorem emitC_custody (x1) (x2) (x3) (d : Device) : (emitC x1 x2 x3 d).custody = d.custody := rfl
@[simp] theorem emitC_tamper (x1) (x2) (x3) (d : Device) : (emitC x1 x2 x3 d).tamper = d.tamper := rfl
@[simp] theorem emitC_keys (x1) (x2) (x3) (d : Device) : (emitC x1 x2 x3 d).keys = d.keys := rfl
@[simp] theorem emitC_gaffer (x1) (x2) (x3) (d : Device) : (emitC x1 x2 x3 d).gaffer = d.gaffer := rfl
@[simp] theorem emitC_shares (x1) (x2) (x3) (d : Device) : (emitC x1 x2 x3 d).shares = d.shares := rfl
@[simp] theorem emitC_benches (x1) (x2) (x3) (d : Device) : (emitC x1 x2 x3 d).benches = d.benches := rfl
@[simp] theorem emitC_gather (x1) (x2) (x3) (d : Device) : (emitC x1 x2 x3 d).gather = d.gather := rfl
@[simp] theorem emitC_host (x1) (x2) (x3) (d : Device) : (emitC x1 x2 x3 d).host = d.host := rfl
@[simp] theorem emitC_net (x1) (x2) (x3) (d : Device) : (emitC x1 x2 x3 d).net = d.net := rfl
@[simp] theorem emitC_power (x1) (x2) (x3) (d : Device) : (emitC x1 x2 x3 d).power = d.power := rfl
@[simp] theorem emitC_flash (x1) (x2) (x3) (d : Device) : (emitC x1 x2 x3 d).flash = d.flash := rfl
@[simp] theorem emitC_draws (x1) (x2) (x3) (d : Device) : (emitC x1 x2 x3 d).draws = d.draws := rfl
@[simp] theorem emitC_out (x1) (x2) (x3) (d : Device) : (emitC x1 x2 x3 d).out = d.out := rfl

@[simp] theorem startEntry_time (x1) (x2) (x3) (x4) (d : Device) : (startEntry x1 x2 x3 x4 d).time = d.time := rfl
@[simp] theorem startEntry_pins (x1) (x2) (x3) (x4) (d : Device) : (startEntry x1 x2 x3 x4 d).pins = d.pins := rfl
@[simp] theorem startEntry_fuses (x1) (x2) (x3) (x4) (d : Device) : (startEntry x1 x2 x3 x4 d).fuses = d.fuses := rfl
@[simp] theorem startEntry_battery (x1) (x2) (x3) (x4) (d : Device) : (startEntry x1 x2 x3 x4 d).battery = d.battery := rfl
@[simp] theorem startEntry_custody (x1) (x2) (x3) (x4) (d : Device) : (startEntry x1 x2 x3 x4 d).custody = d.custody := rfl
@[simp] theorem startEntry_tamper (x1) (x2) (x3) (x4) (d : Device) : (startEntry x1 x2 x3 x4 d).tamper = d.tamper := rfl
@[simp] theorem startEntry_keys (x1) (x2) (x3) (x4) (d : Device) : (startEntry x1 x2 x3 x4 d).keys = d.keys := rfl
@[simp] theorem startEntry_gaffer (x1) (x2) (x3) (x4) (d : Device) : (startEntry x1 x2 x3 x4 d).gaffer = d.gaffer := rfl
@[simp] theorem startEntry_shares (x1) (x2) (x3) (x4) (d : Device) : (startEntry x1 x2 x3 x4 d).shares = d.shares := rfl
@[simp] theorem startEntry_benches (x1) (x2) (x3) (x4) (d : Device) : (startEntry x1 x2 x3 x4 d).benches = d.benches := rfl
@[simp] theorem startEntry_gather (x1) (x2) (x3) (x4) (d : Device) : (startEntry x1 x2 x3 x4 d).gather = d.gather := rfl
@[simp] theorem startEntry_host (x1) (x2) (x3) (x4) (d : Device) : (startEntry x1 x2 x3 x4 d).host = d.host := rfl
@[simp] theorem startEntry_net (x1) (x2) (x3) (x4) (d : Device) : (startEntry x1 x2 x3 x4 d).net = d.net := rfl
@[simp] theorem startEntry_events (x1) (x2) (x3) (x4) (d : Device) : (startEntry x1 x2 x3 x4 d).events = d.events := rfl
@[simp] theorem startEntry_power (x1) (x2) (x3) (x4) (d : Device) : (startEntry x1 x2 x3 x4 d).power = d.power := rfl
@[simp] theorem startEntry_flash (x1) (x2) (x3) (x4) (d : Device) : (startEntry x1 x2 x3 x4 d).flash = d.flash := rfl
@[simp] theorem startEntry_draws (x1) (x2) (x3) (x4) (d : Device) : (startEntry x1 x2 x3 x4 d).draws = d.draws := rfl
@[simp] theorem startEntry_out (x1) (x2) (x3) (x4) (d : Device) : (startEntry x1 x2 x3 x4 d).out = d.out := rfl

@[simp] theorem traceEntry_time (x1) (x2) (x3) (x4) (x5) (x6) (d : Device) : (traceEntry x1 x2 x3 x4 x5 x6 d).time = d.time := rfl
@[simp] theorem traceEntry_pins (x1) (x2) (x3) (x4) (x5) (x6) (d : Device) : (traceEntry x1 x2 x3 x4 x5 x6 d).pins = d.pins := rfl
@[simp] theorem traceEntry_start (x1) (x2) (x3) (x4) (x5) (x6) (d : Device) : (traceEntry x1 x2 x3 x4 x5 x6 d).start = d.start := rfl
@[simp] theorem traceEntry_fuses (x1) (x2) (x3) (x4) (x5) (x6) (d : Device) : (traceEntry x1 x2 x3 x4 x5 x6 d).fuses = d.fuses := rfl
@[simp] theorem traceEntry_battery (x1) (x2) (x3) (x4) (x5) (x6) (d : Device) : (traceEntry x1 x2 x3 x4 x5 x6 d).battery = d.battery := rfl
@[simp] theorem traceEntry_custody (x1) (x2) (x3) (x4) (x5) (x6) (d : Device) : (traceEntry x1 x2 x3 x4 x5 x6 d).custody = d.custody := rfl
@[simp] theorem traceEntry_tamper (x1) (x2) (x3) (x4) (x5) (x6) (d : Device) : (traceEntry x1 x2 x3 x4 x5 x6 d).tamper = d.tamper := rfl
@[simp] theorem traceEntry_keys (x1) (x2) (x3) (x4) (x5) (x6) (d : Device) : (traceEntry x1 x2 x3 x4 x5 x6 d).keys = d.keys := rfl
@[simp] theorem traceEntry_shares (x1) (x2) (x3) (x4) (x5) (x6) (d : Device) : (traceEntry x1 x2 x3 x4 x5 x6 d).shares = d.shares := rfl
@[simp] theorem traceEntry_benches (x1) (x2) (x3) (x4) (x5) (x6) (d : Device) : (traceEntry x1 x2 x3 x4 x5 x6 d).benches = d.benches := rfl
@[simp] theorem traceEntry_gather (x1) (x2) (x3) (x4) (x5) (x6) (d : Device) : (traceEntry x1 x2 x3 x4 x5 x6 d).gather = d.gather := rfl
@[simp] theorem traceEntry_host (x1) (x2) (x3) (x4) (x5) (x6) (d : Device) : (traceEntry x1 x2 x3 x4 x5 x6 d).host = d.host := rfl
@[simp] theorem traceEntry_net (x1) (x2) (x3) (x4) (x5) (x6) (d : Device) : (traceEntry x1 x2 x3 x4 x5 x6 d).net = d.net := rfl
@[simp] theorem traceEntry_events (x1) (x2) (x3) (x4) (x5) (x6) (d : Device) : (traceEntry x1 x2 x3 x4 x5 x6 d).events = d.events := rfl
@[simp] theorem traceEntry_power (x1) (x2) (x3) (x4) (x5) (x6) (d : Device) : (traceEntry x1 x2 x3 x4 x5 x6 d).power = d.power := rfl
@[simp] theorem traceEntry_flash (x1) (x2) (x3) (x4) (x5) (x6) (d : Device) : (traceEntry x1 x2 x3 x4 x5 x6 d).flash = d.flash := rfl
@[simp] theorem traceEntry_draws (x1) (x2) (x3) (x4) (x5) (x6) (d : Device) : (traceEntry x1 x2 x3 x4 x5 x6 d).draws = d.draws := rfl
@[simp] theorem traceEntry_out (x1) (x2) (x3) (x4) (x5) (x6) (d : Device) : (traceEntry x1 x2 x3 x4 x5 x6 d).out = d.out := rfl

@[simp] theorem openWindow_time (x1) (d : Device) : (openWindow x1 d).time = d.time := rfl
@[simp] theorem openWindow_pins (x1) (d : Device) : (openWindow x1 d).pins = d.pins := rfl
@[simp] theorem openWindow_start (x1) (d : Device) : (openWindow x1 d).start = d.start := rfl
@[simp] theorem openWindow_fuses (x1) (d : Device) : (openWindow x1 d).fuses = d.fuses := rfl
@[simp] theorem openWindow_battery (x1) (d : Device) : (openWindow x1 d).battery = d.battery := rfl
@[simp] theorem openWindow_custody (x1) (d : Device) : (openWindow x1 d).custody = d.custody := rfl
@[simp] theorem openWindow_tamper (x1) (d : Device) : (openWindow x1 d).tamper = d.tamper := rfl
@[simp] theorem openWindow_keys (x1) (d : Device) : (openWindow x1 d).keys = d.keys := rfl
@[simp] theorem openWindow_shares (x1) (d : Device) : (openWindow x1 d).shares = d.shares := rfl
@[simp] theorem openWindow_benches (x1) (d : Device) : (openWindow x1 d).benches = d.benches := rfl
@[simp] theorem openWindow_gather (x1) (d : Device) : (openWindow x1 d).gather = d.gather := rfl
@[simp] theorem openWindow_host (x1) (d : Device) : (openWindow x1 d).host = d.host := rfl
@[simp] theorem openWindow_net (x1) (d : Device) : (openWindow x1 d).net = d.net := rfl
@[simp] theorem openWindow_events (x1) (d : Device) : (openWindow x1 d).events = d.events := rfl
@[simp] theorem openWindow_power (x1) (d : Device) : (openWindow x1 d).power = d.power := rfl
@[simp] theorem openWindow_flash (x1) (d : Device) : (openWindow x1 d).flash = d.flash := rfl
@[simp] theorem openWindow_draws (x1) (d : Device) : (openWindow x1 d).draws = d.draws := rfl
@[simp] theorem openWindow_out (x1) (d : Device) : (openWindow x1 d).out = d.out := rfl

@[simp] theorem closeWindow_time (x1) (d : Device) : (closeWindow x1 d).time = d.time := rfl
@[simp] theorem closeWindow_pins (x1) (d : Device) : (closeWindow x1 d).pins = d.pins := rfl
@[simp] theorem closeWindow_start (x1) (d : Device) : (closeWindow x1 d).start = d.start := rfl
@[simp] theorem closeWindow_fuses (x1) (d : Device) : (closeWindow x1 d).fuses = d.fuses := rfl
@[simp] theorem closeWindow_battery (x1) (d : Device) : (closeWindow x1 d).battery = d.battery := rfl
@[simp] theorem closeWindow_custody (x1) (d : Device) : (closeWindow x1 d).custody = d.custody := rfl
@[simp] theorem closeWindow_tamper (x1) (d : Device) : (closeWindow x1 d).tamper = d.tamper := rfl
@[simp] theorem closeWindow_keys (x1) (d : Device) : (closeWindow x1 d).keys = d.keys := rfl
@[simp] theorem closeWindow_shares (x1) (d : Device) : (closeWindow x1 d).shares = d.shares := rfl
@[simp] theorem closeWindow_benches (x1) (d : Device) : (closeWindow x1 d).benches = d.benches := rfl
@[simp] theorem closeWindow_gather (x1) (d : Device) : (closeWindow x1 d).gather = d.gather := rfl
@[simp] theorem closeWindow_host (x1) (d : Device) : (closeWindow x1 d).host = d.host := rfl
@[simp] theorem closeWindow_net (x1) (d : Device) : (closeWindow x1 d).net = d.net := rfl
@[simp] theorem closeWindow_events (x1) (d : Device) : (closeWindow x1 d).events = d.events := rfl
@[simp] theorem closeWindow_power (x1) (d : Device) : (closeWindow x1 d).power = d.power := rfl
@[simp] theorem closeWindow_flash (x1) (d : Device) : (closeWindow x1 d).flash = d.flash := rfl
@[simp] theorem closeWindow_draws (x1) (d : Device) : (closeWindow x1 d).draws = d.draws := rfl
@[simp] theorem closeWindow_out (x1) (d : Device) : (closeWindow x1 d).out = d.out := rfl

@[simp] theorem spend_time (x1) (x2) (d : Device) : (spend x1 x2 d).time = d.time := rfl
@[simp] theorem spend_pins (x1) (x2) (d : Device) : (spend x1 x2 d).pins = d.pins := rfl
@[simp] theorem spend_start (x1) (x2) (d : Device) : (spend x1 x2 d).start = d.start := rfl
@[simp] theorem spend_fuses (x1) (x2) (d : Device) : (spend x1 x2 d).fuses = d.fuses := rfl
@[simp] theorem spend_battery (x1) (x2) (d : Device) : (spend x1 x2 d).battery = d.battery := rfl
@[simp] theorem spend_custody (x1) (x2) (d : Device) : (spend x1 x2 d).custody = d.custody := rfl
@[simp] theorem spend_tamper (x1) (x2) (d : Device) : (spend x1 x2 d).tamper = d.tamper := rfl
@[simp] theorem spend_keys (x1) (x2) (d : Device) : (spend x1 x2 d).keys = d.keys := rfl
@[simp] theorem spend_gaffer (x1) (x2) (d : Device) : (spend x1 x2 d).gaffer = d.gaffer := rfl
@[simp] theorem spend_shares (x1) (x2) (d : Device) : (spend x1 x2 d).shares = d.shares := rfl
@[simp] theorem spend_benches (x1) (x2) (d : Device) : (spend x1 x2 d).benches = d.benches := rfl
@[simp] theorem spend_host (x1) (x2) (d : Device) : (spend x1 x2 d).host = d.host := rfl
@[simp] theorem spend_net (x1) (x2) (d : Device) : (spend x1 x2 d).net = d.net := rfl
@[simp] theorem spend_events (x1) (x2) (d : Device) : (spend x1 x2 d).events = d.events := rfl
@[simp] theorem spend_power (x1) (x2) (d : Device) : (spend x1 x2 d).power = d.power := rfl
@[simp] theorem spend_flash (x1) (x2) (d : Device) : (spend x1 x2 d).flash = d.flash := rfl
@[simp] theorem spend_out (x1) (x2) (d : Device) : (spend x1 x2 d).out = d.out := rfl

@[simp] theorem loadRoot_time (x1) (x2) (x3) (x4) (d : Device) : (loadRoot x1 x2 x3 x4 d).time = d.time := rfl
@[simp] theorem loadRoot_pins (x1) (x2) (x3) (x4) (d : Device) : (loadRoot x1 x2 x3 x4 d).pins = d.pins := rfl
@[simp] theorem loadRoot_start (x1) (x2) (x3) (x4) (d : Device) : (loadRoot x1 x2 x3 x4 d).start = d.start := rfl
@[simp] theorem loadRoot_fuses (x1) (x2) (x3) (x4) (d : Device) : (loadRoot x1 x2 x3 x4 d).fuses = d.fuses := rfl
@[simp] theorem loadRoot_battery (x1) (x2) (x3) (x4) (d : Device) : (loadRoot x1 x2 x3 x4 d).battery = d.battery := rfl
@[simp] theorem loadRoot_custody (x1) (x2) (x3) (x4) (d : Device) : (loadRoot x1 x2 x3 x4 d).custody = d.custody := rfl
@[simp] theorem loadRoot_tamper (x1) (x2) (x3) (x4) (d : Device) : (loadRoot x1 x2 x3 x4 d).tamper = d.tamper := rfl
@[simp] theorem loadRoot_gaffer (x1) (x2) (x3) (x4) (d : Device) : (loadRoot x1 x2 x3 x4 d).gaffer = d.gaffer := rfl
@[simp] theorem loadRoot_shares (x1) (x2) (x3) (x4) (d : Device) : (loadRoot x1 x2 x3 x4 d).shares = d.shares := rfl
@[simp] theorem loadRoot_benches (x1) (x2) (x3) (x4) (d : Device) : (loadRoot x1 x2 x3 x4 d).benches = d.benches := rfl
@[simp] theorem loadRoot_gather (x1) (x2) (x3) (x4) (d : Device) : (loadRoot x1 x2 x3 x4 d).gather = d.gather := rfl
@[simp] theorem loadRoot_host (x1) (x2) (x3) (x4) (d : Device) : (loadRoot x1 x2 x3 x4 d).host = d.host := rfl
@[simp] theorem loadRoot_net (x1) (x2) (x3) (x4) (d : Device) : (loadRoot x1 x2 x3 x4 d).net = d.net := rfl
@[simp] theorem loadRoot_events (x1) (x2) (x3) (x4) (d : Device) : (loadRoot x1 x2 x3 x4 d).events = d.events := rfl
@[simp] theorem loadRoot_power (x1) (x2) (x3) (x4) (d : Device) : (loadRoot x1 x2 x3 x4 d).power = d.power := rfl
@[simp] theorem loadRoot_flash (x1) (x2) (x3) (x4) (d : Device) : (loadRoot x1 x2 x3 x4 d).flash = d.flash := rfl
@[simp] theorem loadRoot_draws (x1) (x2) (x3) (x4) (d : Device) : (loadRoot x1 x2 x3 x4 d).draws = d.draws := rfl
@[simp] theorem loadRoot_out (x1) (x2) (x3) (x4) (d : Device) : (loadRoot x1 x2 x3 x4 d).out = d.out := rfl

@[simp] theorem tableWrite_time (x1) (x2) (d : Device) : (tableWrite x1 x2 d).time = d.time := by
  unfold tableWrite; split <;> rfl
@[simp] theorem tableWrite_pins (x1) (x2) (d : Device) : (tableWrite x1 x2 d).pins = d.pins := by
  unfold tableWrite; split <;> rfl
@[simp] theorem tableWrite_start (x1) (x2) (d : Device) : (tableWrite x1 x2 d).start = d.start := by
  unfold tableWrite; split <;> rfl
@[simp] theorem tableWrite_fuses (x1) (x2) (d : Device) : (tableWrite x1 x2 d).fuses = d.fuses := by
  unfold tableWrite; split <;> rfl
@[simp] theorem tableWrite_battery (x1) (x2) (d : Device) : (tableWrite x1 x2 d).battery = d.battery := by
  unfold tableWrite; split <;> rfl
@[simp] theorem tableWrite_custody (x1) (x2) (d : Device) : (tableWrite x1 x2 d).custody = d.custody := by
  unfold tableWrite; split <;> rfl
@[simp] theorem tableWrite_tamper (x1) (x2) (d : Device) : (tableWrite x1 x2 d).tamper = d.tamper := by
  unfold tableWrite; split <;> rfl
@[simp] theorem tableWrite_keys (x1) (x2) (d : Device) : (tableWrite x1 x2 d).keys = d.keys := by
  unfold tableWrite; split <;> rfl
@[simp] theorem tableWrite_gaffer (x1) (x2) (d : Device) : (tableWrite x1 x2 d).gaffer = d.gaffer := by
  unfold tableWrite; split <;> rfl
@[simp] theorem tableWrite_shares (x1) (x2) (d : Device) : (tableWrite x1 x2 d).shares = d.shares := by
  unfold tableWrite; split <;> rfl
@[simp] theorem tableWrite_benches (x1) (x2) (d : Device) : (tableWrite x1 x2 d).benches = d.benches := by
  unfold tableWrite; split <;> rfl
@[simp] theorem tableWrite_gather (x1) (x2) (d : Device) : (tableWrite x1 x2 d).gather = d.gather := by
  unfold tableWrite; split <;> rfl
@[simp] theorem tableWrite_host (x1) (x2) (d : Device) : (tableWrite x1 x2 d).host = d.host := by
  unfold tableWrite; split <;> rfl
@[simp] theorem tableWrite_events (x1) (x2) (d : Device) : (tableWrite x1 x2 d).events = d.events := by
  unfold tableWrite; split <;> rfl
@[simp] theorem tableWrite_power (x1) (x2) (d : Device) : (tableWrite x1 x2 d).power = d.power := by
  unfold tableWrite; split <;> rfl
@[simp] theorem tableWrite_flash (x1) (x2) (d : Device) : (tableWrite x1 x2 d).flash = d.flash := by
  unfold tableWrite; split <;> rfl
@[simp] theorem tableWrite_draws (x1) (x2) (d : Device) : (tableWrite x1 x2 d).draws = d.draws := by
  unfold tableWrite; split <;> rfl
@[simp] theorem tableWrite_out (x1) (x2) (d : Device) : (tableWrite x1 x2 d).out = d.out := by
  unfold tableWrite; split <;> rfl

@[simp] theorem pathWrite_time (x1) (x2) (d : Device) : (pathWrite x1 x2 d).time = d.time := tableWrite_time _ _ d
@[simp] theorem pathWrite_pins (x1) (x2) (d : Device) : (pathWrite x1 x2 d).pins = d.pins := tableWrite_pins _ _ d
@[simp] theorem pathWrite_start (x1) (x2) (d : Device) : (pathWrite x1 x2 d).start = d.start := tableWrite_start _ _ d
@[simp] theorem pathWrite_fuses (x1) (x2) (d : Device) : (pathWrite x1 x2 d).fuses = d.fuses := tableWrite_fuses _ _ d
@[simp] theorem pathWrite_battery (x1) (x2) (d : Device) : (pathWrite x1 x2 d).battery = d.battery := tableWrite_battery _ _ d
@[simp] theorem pathWrite_custody (x1) (x2) (d : Device) : (pathWrite x1 x2 d).custody = d.custody := tableWrite_custody _ _ d
@[simp] theorem pathWrite_tamper (x1) (x2) (d : Device) : (pathWrite x1 x2 d).tamper = d.tamper := tableWrite_tamper _ _ d
@[simp] theorem pathWrite_keys (x1) (x2) (d : Device) : (pathWrite x1 x2 d).keys = d.keys := tableWrite_keys _ _ d
@[simp] theorem pathWrite_gaffer (x1) (x2) (d : Device) : (pathWrite x1 x2 d).gaffer = d.gaffer := tableWrite_gaffer _ _ d
@[simp] theorem pathWrite_shares (x1) (x2) (d : Device) : (pathWrite x1 x2 d).shares = d.shares := tableWrite_shares _ _ d
@[simp] theorem pathWrite_benches (x1) (x2) (d : Device) : (pathWrite x1 x2 d).benches = d.benches := tableWrite_benches _ _ d
@[simp] theorem pathWrite_gather (x1) (x2) (d : Device) : (pathWrite x1 x2 d).gather = d.gather := tableWrite_gather _ _ d
@[simp] theorem pathWrite_host (x1) (x2) (d : Device) : (pathWrite x1 x2 d).host = d.host := tableWrite_host _ _ d
@[simp] theorem pathWrite_events (x1) (x2) (d : Device) : (pathWrite x1 x2 d).events = d.events := tableWrite_events _ _ d
@[simp] theorem pathWrite_power (x1) (x2) (d : Device) : (pathWrite x1 x2 d).power = d.power := tableWrite_power _ _ d
@[simp] theorem pathWrite_flash (x1) (x2) (d : Device) : (pathWrite x1 x2 d).flash = d.flash := tableWrite_flash _ _ d
@[simp] theorem pathWrite_draws (x1) (x2) (d : Device) : (pathWrite x1 x2 d).draws = d.draws := tableWrite_draws _ _ d
@[simp] theorem pathWrite_out (x1) (x2) (d : Device) : (pathWrite x1 x2 d).out = d.out := tableWrite_out _ _ d

@[simp] theorem freeSession_time (x1) (d : Device) : (freeSession x1 d).time = d.time := pathWrite_time _ _ d
@[simp] theorem freeSession_pins (x1) (d : Device) : (freeSession x1 d).pins = d.pins := pathWrite_pins _ _ d
@[simp] theorem freeSession_start (x1) (d : Device) : (freeSession x1 d).start = d.start := pathWrite_start _ _ d
@[simp] theorem freeSession_fuses (x1) (d : Device) : (freeSession x1 d).fuses = d.fuses := pathWrite_fuses _ _ d
@[simp] theorem freeSession_battery (x1) (d : Device) : (freeSession x1 d).battery = d.battery := pathWrite_battery _ _ d
@[simp] theorem freeSession_custody (x1) (d : Device) : (freeSession x1 d).custody = d.custody := pathWrite_custody _ _ d
@[simp] theorem freeSession_tamper (x1) (d : Device) : (freeSession x1 d).tamper = d.tamper := pathWrite_tamper _ _ d
@[simp] theorem freeSession_keys (x1) (d : Device) : (freeSession x1 d).keys = d.keys := pathWrite_keys _ _ d
@[simp] theorem freeSession_gaffer (x1) (d : Device) : (freeSession x1 d).gaffer = d.gaffer := pathWrite_gaffer _ _ d
@[simp] theorem freeSession_shares (x1) (d : Device) : (freeSession x1 d).shares = d.shares := pathWrite_shares _ _ d
@[simp] theorem freeSession_benches (x1) (d : Device) : (freeSession x1 d).benches = d.benches := pathWrite_benches _ _ d
@[simp] theorem freeSession_gather (x1) (d : Device) : (freeSession x1 d).gather = d.gather := pathWrite_gather _ _ d
@[simp] theorem freeSession_host (x1) (d : Device) : (freeSession x1 d).host = d.host := pathWrite_host _ _ d
@[simp] theorem freeSession_events (x1) (d : Device) : (freeSession x1 d).events = d.events := pathWrite_events _ _ d
@[simp] theorem freeSession_power (x1) (d : Device) : (freeSession x1 d).power = d.power := pathWrite_power _ _ d
@[simp] theorem freeSession_flash (x1) (d : Device) : (freeSession x1 d).flash = d.flash := pathWrite_flash _ _ d
@[simp] theorem freeSession_draws (x1) (d : Device) : (freeSession x1 d).draws = d.draws := pathWrite_draws _ _ d
@[simp] theorem freeSession_out (x1) (d : Device) : (freeSession x1 d).out = d.out := pathWrite_out _ _ d

@[simp] theorem setCredit_time (x1) (x2) (x3) (d : Device) : (setCredit x1 x2 x3 d).time = d.time := rfl
@[simp] theorem setCredit_pins (x1) (x2) (x3) (d : Device) : (setCredit x1 x2 x3 d).pins = d.pins := rfl
@[simp] theorem setCredit_start (x1) (x2) (x3) (d : Device) : (setCredit x1 x2 x3 d).start = d.start := rfl
@[simp] theorem setCredit_fuses (x1) (x2) (x3) (d : Device) : (setCredit x1 x2 x3 d).fuses = d.fuses := rfl
@[simp] theorem setCredit_battery (x1) (x2) (x3) (d : Device) : (setCredit x1 x2 x3 d).battery = d.battery := rfl
@[simp] theorem setCredit_custody (x1) (x2) (x3) (d : Device) : (setCredit x1 x2 x3 d).custody = d.custody := rfl
@[simp] theorem setCredit_tamper (x1) (x2) (x3) (d : Device) : (setCredit x1 x2 x3 d).tamper = d.tamper := rfl
@[simp] theorem setCredit_keys (x1) (x2) (x3) (d : Device) : (setCredit x1 x2 x3 d).keys = d.keys := rfl
@[simp] theorem setCredit_gaffer (x1) (x2) (x3) (d : Device) : (setCredit x1 x2 x3 d).gaffer = d.gaffer := rfl
@[simp] theorem setCredit_benches (x1) (x2) (x3) (d : Device) : (setCredit x1 x2 x3 d).benches = d.benches := rfl
@[simp] theorem setCredit_gather (x1) (x2) (x3) (d : Device) : (setCredit x1 x2 x3 d).gather = d.gather := rfl
@[simp] theorem setCredit_host (x1) (x2) (x3) (d : Device) : (setCredit x1 x2 x3 d).host = d.host := rfl
@[simp] theorem setCredit_net (x1) (x2) (x3) (d : Device) : (setCredit x1 x2 x3 d).net = d.net := rfl
@[simp] theorem setCredit_events (x1) (x2) (x3) (d : Device) : (setCredit x1 x2 x3 d).events = d.events := rfl
@[simp] theorem setCredit_power (x1) (x2) (x3) (d : Device) : (setCredit x1 x2 x3 d).power = d.power := rfl
@[simp] theorem setCredit_flash (x1) (x2) (x3) (d : Device) : (setCredit x1 x2 x3 d).flash = d.flash := rfl
@[simp] theorem setCredit_draws (x1) (x2) (x3) (d : Device) : (setCredit x1 x2 x3 d).draws = d.draws := rfl
@[simp] theorem setCredit_out (x1) (x2) (x3) (d : Device) : (setCredit x1 x2 x3 d).out = d.out := rfl

@[simp] theorem modJob_time (x1) (x2) (d : Device) : (modJob x1 x2 d).time = d.time := rfl
@[simp] theorem modJob_pins (x1) (x2) (d : Device) : (modJob x1 x2 d).pins = d.pins := rfl
@[simp] theorem modJob_start (x1) (x2) (d : Device) : (modJob x1 x2 d).start = d.start := rfl
@[simp] theorem modJob_fuses (x1) (x2) (d : Device) : (modJob x1 x2 d).fuses = d.fuses := rfl
@[simp] theorem modJob_battery (x1) (x2) (d : Device) : (modJob x1 x2 d).battery = d.battery := rfl
@[simp] theorem modJob_custody (x1) (x2) (d : Device) : (modJob x1 x2 d).custody = d.custody := rfl
@[simp] theorem modJob_tamper (x1) (x2) (d : Device) : (modJob x1 x2 d).tamper = d.tamper := rfl
@[simp] theorem modJob_keys (x1) (x2) (d : Device) : (modJob x1 x2 d).keys = d.keys := rfl
@[simp] theorem modJob_shares (x1) (x2) (d : Device) : (modJob x1 x2 d).shares = d.shares := rfl
@[simp] theorem modJob_benches (x1) (x2) (d : Device) : (modJob x1 x2 d).benches = d.benches := rfl
@[simp] theorem modJob_gather (x1) (x2) (d : Device) : (modJob x1 x2 d).gather = d.gather := rfl
@[simp] theorem modJob_host (x1) (x2) (d : Device) : (modJob x1 x2 d).host = d.host := rfl
@[simp] theorem modJob_net (x1) (x2) (d : Device) : (modJob x1 x2 d).net = d.net := rfl
@[simp] theorem modJob_events (x1) (x2) (d : Device) : (modJob x1 x2 d).events = d.events := rfl
@[simp] theorem modJob_power (x1) (x2) (d : Device) : (modJob x1 x2 d).power = d.power := rfl
@[simp] theorem modJob_flash (x1) (x2) (d : Device) : (modJob x1 x2 d).flash = d.flash := rfl
@[simp] theorem modJob_draws (x1) (x2) (d : Device) : (modJob x1 x2 d).draws = d.draws := rfl
@[simp] theorem modJob_out (x1) (x2) (d : Device) : (modJob x1 x2 d).out = d.out := rfl

end Sys2Proof.Machine
end

