-- ==== Sys2Proof/Laws/Table.lean ====
section
/-! SUPPORT. Tables: reading after writing, and the operations that keep the indices strictly rising. -/

namespace Sys2Proof.Machine

variable {α : Type}

/-! ### Read after write -/

theorem tabGet_tabSet (k j : Nat) (v : α) (t : Tab α) : tabGet j (tabSet k v t) = if k = j then some v else tabGet j t := by
  induction t with
  | nil => simp [tabSet, tabGet]
  | cons p t ih =>
    obtain ⟨i, w⟩ := p
    simp only [tabSet]
    split
    · subst_vars; simp only [tabGet]; split <;> simp_all
    · split
      · simp only [tabGet]
      · simp only [tabGet, ih]; split <;> split <;> simp_all
@[simp] theorem tabGet_tabSet_self (k : Nat) (v : α) (t : Tab α) : tabGet k (tabSet k v t) = some v := by simp [tabGet_tabSet]
theorem tabGetD_tabSet (k j : Nat) (v x : α) (t : Tab α) : tabGetD j x (tabSet k v t) = if k = j then v else tabGetD j x t := by
  unfold tabGetD; rw [tabGet_tabSet]; split <;> rfl
@[simp] theorem tabGetD_tabSet_self (k : Nat) (v x : α) (t : Tab α) : tabGetD k x (tabSet k v t) = v := by simp [tabGetD_tabSet]
@[simp] theorem tabGet_tabMod (k j : Nat) (f : α → α) (t : Tab α) :
    tabGet j (tabMod k f t) = if k = j then (tabGet j t).map f else tabGet j t := by
  induction t with
  | nil => simp [tabMod, tabGet]
  | cons p t ih =>
    obtain ⟨i, w⟩ := p
    simp only [tabMod]
    split
    · subst_vars; simp only [tabGet]; split <;> simp_all
    · simp only [tabGet, ih]; split <;> split <;> simp_all
theorem tabGet_tabMap (j : Nat) (f : Nat → α → α) (t : Tab α) : tabGet j (tabMap f t) = (tabGet j t).map (f j) := by
  induction t with
  | nil => rfl
  | cons p t ih =>
    obtain ⟨i, w⟩ := p
    simp only [tabMap, List.map_cons, tabGet]
    split
    · subst_vars; rfl
    · exact ih

/-! ### Strictly rising indices -/

theorem tabAbove_tabSet {b k : Nat} {v : α} {t : Tab α} (h : tabAbove b t = true) (hk : b < k) : tabAbove b (tabSet k v t) = true := by
  induction t with
  | nil => simp [tabSet, tabAbove, hk]
  | cons p t ih =>
    obtain ⟨i, w⟩ := p
    simp only [tabAbove, Bool.and_eq_true, decide_eq_true_eq] at h
    simp only [tabSet]
    split
    · simp [tabAbove, hk, h.2]
    · split
      · simp [tabAbove, hk, h.1, h.2]
      · simp [tabAbove, h.1, ih h.2]
theorem tabAbove_mono {b c : Nat} {t : Tab α} (h : tabAbove b t = true) (hc : c ≤ b) : tabAbove c t = true := by
  induction t with
  | nil => rfl
  | cons p t ih =>
    simp only [tabAbove, Bool.and_eq_true, decide_eq_true_eq] at h ⊢
    exact ⟨by omega, ih h.2⟩
theorem tabSorted_tabSet {k : Nat} {v : α} {t : Tab α} (h : tabSorted t = true) : tabSorted (tabSet k v t) = true := by
  induction t with
  | nil => rfl
  | cons p t ih =>
    obtain ⟨i, w⟩ := p
    simp only [tabSorted, Bool.and_eq_true] at h
    simp only [tabSet]
    split
    · subst_vars; simp [tabSorted, h.1, h.2]
    · split
      · rename_i hlt
        simp [tabSorted, tabAbove, h.1, h.2, hlt, tabAbove_mono h.1 (Nat.le_of_lt hlt)]
      · simp only [tabSorted, Bool.and_eq_true]
        exact ⟨tabAbove_tabSet h.1 (by omega), ih h.2⟩
theorem tabAbove_filter {b : Nat} {t : Tab α} (p : Nat × α → Bool) (h : tabAbove b t = true) : tabAbove b (t.filter p) = true := by
  induction t with
  | nil => rfl
  | cons x t ih =>
    simp only [tabAbove, Bool.and_eq_true, decide_eq_true_eq] at h
    rw [List.filter_cons]
    split
    · simp [tabAbove, h.1, ih h.2]
    · exact ih h.2
theorem tabSorted_filter {t : Tab α} (p : Nat × α → Bool) (h : tabSorted t = true) : tabSorted (t.filter p) = true := by
  induction t with
  | nil => rfl
  | cons x t ih =>
    simp only [tabSorted, Bool.and_eq_true] at h
    rw [List.filter_cons]
    split
    · simp [tabSorted, tabAbove_filter p h.1, ih h.2]
    · exact ih h.2
theorem tabSorted_tabErase {k : Nat} {t : Tab α} (h : tabSorted t = true) : tabSorted (tabErase k t) = true := tabSorted_filter _ h
theorem tabAbove_map {b : Nat} {t : Tab α} (f : Nat → α → α) : tabAbove b (tabMap f t) = tabAbove b t := by
  induction t with
  | nil => rfl
  | cons x t ih => simp only [tabMap, List.map_cons, tabAbove]; exact congrArg _ ih
theorem tabSorted_tabMap {t : Tab α} (f : Nat → α → α) : tabSorted (tabMap f t) = tabSorted t := by
  induction t with
  | nil => rfl
  | cons x t ih =>
    simp only [tabMap, List.map_cons, tabSorted]
    have := tabAbove_map (b := x.1) (t := t) f
    unfold tabMap at this ih
    rw [this, ih]
theorem tabMod_eq_map (k : Nat) (f : α → α) (t : Tab α) (h : tabSorted t = true) :
    tabMod k f t = tabMap (fun j v => if j = k then f v else v) t := by
  have skip : ∀ (b : Nat) (t : Tab α), k ≤ b → tabAbove b t = true → tabMap (fun j v => if j = k then f v else v) t = t := by
    intro b t hb
    induction t with
    | nil => intro _; rfl
    | cons x t ih =>
      intro h
      simp only [tabAbove, Bool.and_eq_true, decide_eq_true_eq] at h
      have := ih h.2
      unfold tabMap at this ⊢
      simp only [List.map_cons, this]
      have : x.1 ≠ k := by omega
      simp [this]
  induction t with
  | nil => rfl
  | cons x t ih =>
    obtain ⟨i, w⟩ := x
    simp only [tabSorted, Bool.and_eq_true] at h
    simp only [tabMod]
    split
    · subst_vars
      have := skip i t (Nat.le_refl _) h.1
      unfold tabMap at this ⊢
      simp [this]
    · rw [ih h.2]; simp [tabMap, *]
theorem tabSorted_tabMod {k : Nat} {f : α → α} {t : Tab α} (h : tabSorted t = true) : tabSorted (tabMod k f t) = true := by
  rw [tabMod_eq_map k f t h, tabSorted_tabMap]; exact h

/-! ### The canonical form of a memory -/

theorem memWf_memSet [DecidableEq α] {dflt : α} {k : Nat} {v : α} {t : Tab α} (h : memWf dflt t = true) :
    memWf dflt (memSet dflt k v t) = true := by
  simp only [memWf, Bool.and_eq_true, List.all_eq_true] at h ⊢
  unfold memSet
  split
  · exact ⟨tabSorted_tabErase h.1, fun p hp => h.2 p ((List.mem_filter.1 hp).1)⟩
  · rename_i hv
    refine ⟨tabSorted_tabSet h.1, fun p hp => ?_⟩
    have : ∀ t : Tab α, p ∈ tabSet k v t → p = (k, v) ∨ p ∈ t := by
      intro t
      induction t with
      | nil => simp [tabSet]
      | cons x t ih =>
        obtain ⟨i, w⟩ := x
        simp only [tabSet]
        split
        · intro hm; rcases List.mem_cons.1 hm with e | e
          · exact .inl e
          · exact .inr (List.mem_cons_of_mem _ e)
        · split
          · intro hm; exact List.mem_cons.1 hm
          · intro hm; rcases List.mem_cons.1 hm with e | e
            · exact .inr (e ▸ List.mem_cons_self)
            · rcases ih e with e | e
              · exact .inl e
              · exact .inr (List.mem_cons_of_mem _ e)
    rcases this t hp with e | e
    · subst e; simpa using hv
    · exact h.2 p e

end Sys2Proof.Machine
end

