-- ==== Sys2Proof/Machine/Rises.lean ====
section
/-! DEFINITION. Support for statements: what no operation takes back (`rises` of Safety.lean): one lemma per operation on the device. -/

namespace Sys2Proof.Machine

set_option linter.unusedTactic false
set_option linter.unreachableTactic false

theorem rises_refl (a : Device) : rises a a :=
  ⟨⟨fun _ => Nat.le_refl _, id, id, fun _ => id⟩, Nat.le_refl _, List.prefix_rfl, id⟩
theorem fusesRise_trans {a b c : Fuses} (h : fusesRise a b) (g : fusesRise b c) : fusesRise a c :=
  ⟨fun f => Nat.le_trans (h.1 f) (g.1 f), fun x => g.2.1 (h.2.1 x), fun x => g.2.2.1 (h.2.2.1 x), fun n x => g.2.2.2 n (h.2.2.2 n x)⟩
theorem rises_trans {a b c : Device} (h : rises a b) (g : rises b c) : rises a c :=
  ⟨fusesRise_trans h.1 g.1, Nat.le_trans h.2.1 g.2.1, h.2.2.1.trans g.2.2.1, fun x => g.2.2.2 (h.2.2.2 x)⟩

theorem doIf_rises {a d : Device} (c : Bool) (f : Device → Device) (hf : ∀ x, rises a x → rises a (f x)) (h : rises a d) :
    rises a (doIf c f d) := by
  unfold doIf; split
  · exact hf d h
  · exact h
theorem doWith_rises {α : Type} {a d : Device} (o : Option α) (f : α → Device → Device) (hf : ∀ v x, rises a x → rises a (f v x))
    (h : rises a d) : rises a (doWith o f d) := by
  cases o with
  | none => exact h
  | some v => exact hf v d h
theorem doEach_rises {α : Type} {a d : Device} (xs : List α) (f : α → Device → Device) (hf : ∀ v x, rises a x → rises a (f v x))
    (h : rises a d) : rises a (doEach xs f d) := by
  unfold doEach
  induction xs generalizing d with
  | nil => exact h
  | cons v xs ih => exact ih (hf v d h)

/-- A device made of parts rises where fuses, draws and output do. -/
theorem mk_rises {a e : Device} {time pins start battery custody tamper keys shares benches gather host net events power flash : _} (h : rises a e) :
    rises a { time, pins, start, fuses := e.fuses, battery, custody, tamper, keys, gaffer := e.gaffer, shares, benches, gather, host, net, events, power, flash, draws := e.draws, out := e.out } := h
/-- The scheduler changes, its jobs and the next identifier do not. -/
theorem mkGaffer_rises {a e : Device} {time pins start battery custody tamper keys shares benches gather host net events power flash : _} {g : Gaffer} (hj : g.jobs = e.gaffer.jobs) (hn : g.nextJob = e.gaffer.nextJob) (h : rises a e) :
    rises a { time, pins, start, fuses := e.fuses, battery, custody, tamper, keys, gaffer := g, shares, benches, gather, host, net, events, power, flash, draws := e.draws, out := e.out } :=
  ⟨h.1, h.2.1, h.2.2.1, fun x => by have y := h.2.2.2 x; unfold jobsDistinct at *; simpa [hj, hn] using y⟩
/-- The scheduler's jobs change. -/
theorem mkJobs_rises {a e : Device} {time pins start battery custody tamper keys shares benches gather host net events power flash : _} {g : Gaffer}
    (hg : jobsDistinct e → (g.jobs.map (·.id)).Nodup ∧ ∀ j ∈ g.jobs, j.id < g.nextJob) (h : rises a e) :
    rises a { time, pins, start, fuses := e.fuses, battery, custody, tamper, keys, gaffer := g, shares, benches, gather, host, net, events, power, flash, draws := e.draws, out := e.out } :=
  ⟨h.1, h.2.1, h.2.2.1, fun x => hg (h.2.2.2 x)⟩
theorem jobs_map {e : Device} {f : Job → Job} (hf : ∀ j, (f j).id = j.id) (h : jobsDistinct e) :
    ((e.gaffer.jobs.map f).map (·.id)).Nodup ∧ ∀ j ∈ e.gaffer.jobs.map f, j.id < e.gaffer.nextJob := by
  have : ((fun j : Job => j.id) ∘ f) = (fun j => j.id) := funext hf
  simp only [List.map_map, this, List.mem_map, forall_exists_index, and_imp, forall_apply_eq_imp_iff₂]
  exact ⟨h.1, fun j m => by rw [hf]; exact h.2 j m⟩
theorem jobs_filter {e : Device} (p : Job → Bool) (h : jobsDistinct e) :
    ((e.gaffer.jobs.filter p).map (·.id)).Nodup ∧ ∀ j ∈ e.gaffer.jobs.filter p, j.id < e.gaffer.nextJob :=
  ⟨h.1.sublist (List.filter_sublist.map _), fun j m => h.2 j (List.mem_of_mem_filter m)⟩
theorem jobs_append {e : Device} (j : Job) (hj : j.id = e.gaffer.nextJob) (h : jobsDistinct e) :
    ((e.gaffer.jobs ++ [j]).map (·.id)).Nodup ∧ ∀ k ∈ e.gaffer.jobs ++ [j], k.id < e.gaffer.nextJob + 1 := by
  constructor
  · simp only [List.map_append, List.map_cons, List.map_nil]
    refine List.Nodup.append h.1 (by simp) ?_
    intro x hx hy
    simp only [List.mem_map, List.mem_singleton] at hx hy
    obtain ⟨k, m, rfl⟩ := hx
    have := h.2 k m
    omega
  · intro k m
    rcases List.mem_append.mp m with m | m
    · have := h.2 k m; omega
    · simp only [List.mem_singleton] at m; subst m; omega
/-- A transfer leaves. -/
theorem mkOut_rises {a e : Device} {time pins start battery custody tamper keys shares benches gather host net events power flash : _} {o : List Output} (h : rises a e) :
    rises a { time, pins, start, fuses := e.fuses, battery, custody, tamper, keys, gaffer := e.gaffer, shares, benches, gather, host, net, events, power, flash, draws := e.draws, out := e.out ++ o } :=
  ⟨h.1, h.2.1, h.2.2.1.trans (List.prefix_append _ _), h.2.2.2⟩
/-- Random bytes are drawn. -/
theorem mkDraws_rises {a e : Device} {time pins start battery custody tamper keys shares benches gather host net events power flash : _} {n : Nat} (h : rises a e) :
    rises a { time, pins, start, fuses := e.fuses, battery, custody, tamper, keys, gaffer := e.gaffer, shares, benches, gather, host, net, events, power, flash, draws := e.draws + n, out := e.out } :=
  ⟨h.1, Nat.le_trans h.2.1 (Nat.le_add_right _ _), h.2.2⟩
/-- Fuses are burned. -/
theorem mkFuses_rises {a e : Device} {time pins start battery custody tamper keys shares benches gather host net events power flash : _} {x : Fuses} (hx : fusesRise e.fuses x) (h : rises a e) :
    rises a { time, pins, start, fuses := x, battery, custody, tamper, keys, gaffer := e.gaffer, shares, benches, gather, host, net, events, power, flash, draws := e.draws, out := e.out } :=
  ⟨fusesRise_trans h.1 hx, h.2⟩
theorem foldl_rises {α : Type} {a d : Device} (xs : List α) (f : Device → α → Device) (hf : ∀ x v, rises a x → rises a (f x v))
    (h : rises a d) : rises a (xs.foldl f d) := by
  induction xs generalizing d with
  | nil => exact h
  | cons v xs ih => exact ih (hf d v h)
theorem iteRec_rises {a x y : Device} {c : Prop} [Decidable c] (hx : rises a x) (hy : rises a y) : rises a (if c then x else y) := by
  split
  · exact hx
  · exact hy
theorem gafCount_rises {a d : Device} (x1 : _) (h : rises a d) : rises a (gafCount x1 d) := by
  unfold gafCount
  repeat' first
    | with_reducible assumption | with_reducible rfl | (fail_if_no_progress (with_reducible apply mk_rises))
    | (fail_if_no_progress (with_reducible refine mkGaffer_rises rfl rfl ?_)) | with_reducible apply foldl_rises | intro _ | (extract_lets)
    | (fail_if_no_progress (with_reducible apply mkOut_rises)) | (fail_if_no_progress (with_reducible apply mkDraws_rises)) | split
    | (dsimp +zetaDelta only)

theorem coreCount_rises {a d : Device} (x1 : _) (x2 : _) (x3 : _) (h : rises a d) : rises a (coreCount x1 x2 x3 d) := by
  unfold coreCount
  repeat' first
    | with_reducible assumption | with_reducible rfl | (fail_if_no_progress (with_reducible apply mk_rises))
    | (fail_if_no_progress (with_reducible refine mkGaffer_rises rfl rfl ?_)) | with_reducible apply foldl_rises | intro _ | (extract_lets)
    | (fail_if_no_progress (with_reducible apply mkOut_rises)) | (fail_if_no_progress (with_reducible apply mkDraws_rises)) | split
    | (dsimp +zetaDelta only)

theorem pwrCount_rises {a d : Device} (x1 : _) (h : rises a d) : rises a (pwrCount x1 d) := by
  unfold pwrCount
  repeat' first
    | with_reducible assumption | with_reducible rfl | (fail_if_no_progress (with_reducible apply mk_rises))
    | (fail_if_no_progress (with_reducible refine mkGaffer_rises rfl rfl ?_)) | with_reducible apply foldl_rises | intro _ | (extract_lets)
    | (fail_if_no_progress (with_reducible apply mkOut_rises)) | (fail_if_no_progress (with_reducible apply mkDraws_rises)) | split
    | (dsimp +zetaDelta only)

theorem modBench_rises {a d : Device} (x1 : _) (x2 : _) (h : rises a d) : rises a (modBench x1 x2 d) := by
  unfold modBench
  repeat' first
    | with_reducible assumption | with_reducible rfl | (fail_if_no_progress (with_reducible apply mk_rises))
    | (fail_if_no_progress (with_reducible refine mkGaffer_rises rfl rfl ?_)) | with_reducible apply foldl_rises | intro _ | (extract_lets)
    | (fail_if_no_progress (with_reducible apply mkOut_rises)) | (fail_if_no_progress (with_reducible apply mkDraws_rises)) | split
    | (dsimp +zetaDelta only)

theorem lehCount_rises {a d : Device} (x1 : _) (x2 : _) (h : rises a d) : rises a (lehCount x1 x2 d) := by
  unfold lehCount
  repeat' first
    | with_reducible assumption | with_reducible rfl | with_reducible apply modBench_rises
    | (fail_if_no_progress (with_reducible apply mk_rises)) | (fail_if_no_progress (with_reducible refine mkGaffer_rises rfl rfl ?_))
    | with_reducible apply foldl_rises | intro _ | (extract_lets) | (fail_if_no_progress (with_reducible apply mkOut_rises))
    | (fail_if_no_progress (with_reducible apply mkDraws_rises)) | split | (dsimp +zetaDelta only)

theorem modCore_rises {a d : Device} (x1 : _) (x2 : _) (h : rises a d) : rises a (modCore x1 x2 d) := by
  unfold modCore
  repeat' first
    | with_reducible assumption | with_reducible rfl | with_reducible apply modBench_rises
    | (fail_if_no_progress (with_reducible apply mk_rises)) | (fail_if_no_progress (with_reducible refine mkGaffer_rises rfl rfl ?_))
    | with_reducible apply foldl_rises | intro _ | (extract_lets) | (fail_if_no_progress (with_reducible apply mkOut_rises))
    | (fail_if_no_progress (with_reducible apply mkDraws_rises)) | split | (dsimp +zetaDelta only)

theorem modTenant_rises {a d : Device} (x1 : _) (x2 : _) (h : rises a d) : rises a (modTenant x1 x2 d) := by
  unfold modTenant
  repeat' first
    | with_reducible assumption | with_reducible rfl | (fail_if_no_progress (with_reducible apply mk_rises))
    | (fail_if_no_progress (with_reducible refine mkGaffer_rises rfl rfl ?_)) | with_reducible apply foldl_rises | intro _ | (extract_lets)
    | (fail_if_no_progress (with_reducible apply mkOut_rises)) | (fail_if_no_progress (with_reducible apply mkDraws_rises)) | split
    | (dsimp +zetaDelta only)

theorem modFn_rises {a d : Device} (x1 : _) (x2 : _) (h : rises a d) : rises a (modFn x1 x2 d) := by
  unfold modFn
  repeat' first
    | with_reducible assumption | with_reducible rfl | (fail_if_no_progress (with_reducible apply mk_rises))
    | (fail_if_no_progress (with_reducible refine mkGaffer_rises rfl rfl ?_)) | with_reducible apply foldl_rises | intro _ | (extract_lets)
    | (fail_if_no_progress (with_reducible apply mkOut_rises)) | (fail_if_no_progress (with_reducible apply mkDraws_rises)) | split
    | (dsimp +zetaDelta only)

theorem fnCount_rises {a d : Device} (x1 : _) (x2 : _) (h : rises a d) : rises a (fnCount x1 x2 d) := by
  unfold fnCount
  repeat' first
    | with_reducible assumption | with_reducible rfl | with_reducible apply modFn_rises | (fail_if_no_progress (with_reducible apply mk_rises))
    | (fail_if_no_progress (with_reducible refine mkGaffer_rises rfl rfl ?_))
    | with_reducible apply foldl_rises | intro _ | (extract_lets) | (fail_if_no_progress (with_reducible apply mkOut_rises))
    | (fail_if_no_progress (with_reducible apply mkDraws_rises)) | split | (dsimp +zetaDelta only)

theorem modQueue_rises {a d : Device} (x1 : _) (x2 : _) (x3 : _) (h : rises a d) : rises a (modQueue x1 x2 x3 d) := by
  unfold modQueue
  repeat' first
    | with_reducible assumption | with_reducible rfl | with_reducible apply modFn_rises | (fail_if_no_progress (with_reducible apply mk_rises))
    | (fail_if_no_progress (with_reducible refine mkGaffer_rises rfl rfl ?_))
    | with_reducible apply foldl_rises | intro _ | (extract_lets) | (fail_if_no_progress (with_reducible apply mkOut_rises))
    | (fail_if_no_progress (with_reducible apply mkDraws_rises)) | split | (dsimp +zetaDelta only)

theorem modPath_rises {a d : Device} (x1 : _) (x2 : _) (h : rises a d) : rises a (modPath x1 x2 d) := by
  unfold modPath
  repeat' first
    | with_reducible assumption | with_reducible rfl | (fail_if_no_progress (with_reducible apply mk_rises))
    | (fail_if_no_progress (with_reducible refine mkGaffer_rises rfl rfl ?_)) | with_reducible apply foldl_rises | intro _ | (extract_lets)
    | (fail_if_no_progress (with_reducible apply mkOut_rises)) | (fail_if_no_progress (with_reducible apply mkDraws_rises)) | split
    | (dsimp +zetaDelta only)

theorem netCount_rises {a d : Device} (x1 : _) (x2 : _) (h : rises a d) : rises a (netCount x1 x2 d) := by
  unfold netCount
  repeat' first
    | with_reducible assumption | with_reducible rfl | with_reducible apply modPath_rises | (fail_if_no_progress (with_reducible apply mk_rises))
    | (fail_if_no_progress (with_reducible refine mkGaffer_rises rfl rfl ?_))
    | with_reducible apply foldl_rises | intro _ | (extract_lets) | (fail_if_no_progress (with_reducible apply mkOut_rises))
    | (fail_if_no_progress (with_reducible apply mkDraws_rises)) | split | (dsimp +zetaDelta only)

theorem setSession_rises {a d : Device} (x1 : _) (x2 : _) (h : rises a d) : rises a (setSession x1 x2 d) := by
  unfold setSession
  repeat' first
    | with_reducible assumption | with_reducible rfl | (fail_if_no_progress (with_reducible apply mk_rises))
    | (fail_if_no_progress (with_reducible refine mkGaffer_rises rfl rfl ?_)) | with_reducible apply foldl_rises | intro _ | (extract_lets)
    | (fail_if_no_progress (with_reducible apply mkOut_rises)) | (fail_if_no_progress (with_reducible apply mkDraws_rises)) | split
    | (dsimp +zetaDelta only)

theorem setSource_rises {a d : Device} (x1 : _) (x2 : _) (h : rises a d) : rises a (setSource x1 x2 d) := by
  unfold setSource
  repeat' first
    | with_reducible assumption | with_reducible rfl | (fail_if_no_progress (with_reducible apply mk_rises))
    | (fail_if_no_progress (with_reducible refine mkGaffer_rises rfl rfl ?_)) | with_reducible apply foldl_rises | intro _ | (extract_lets)
    | (fail_if_no_progress (with_reducible apply mkOut_rises)) | (fail_if_no_progress (with_reducible apply mkDraws_rises)) | split
    | (dsimp +zetaDelta only)

theorem modEngine_rises {a d : Device} (x1 : _) (x2 : _) (x3 : _) (x4 : _) (h : rises a d) : rises a (modEngine x1 x2 x3 x4 d) := by
  unfold modEngine
  repeat' first
    | with_reducible assumption | with_reducible rfl | with_reducible apply modBench_rises
    | (fail_if_no_progress (with_reducible apply mk_rises)) | (fail_if_no_progress (with_reducible refine mkGaffer_rises rfl rfl ?_))
    | with_reducible apply foldl_rises | intro _ | (extract_lets) | (fail_if_no_progress (with_reducible apply mkOut_rises))
    | (fail_if_no_progress (with_reducible apply mkDraws_rises)) | split | (dsimp +zetaDelta only)

theorem modJob_rises {a d : Device} (x1 : _) (x2 : _) (hf : ∀ j, j.id = x1 → (x2 j).id = j.id) (h : rises a d) : rises a (modJob x1 x2 d) :=
  mkJobs_rises (jobs_map (fun j => by split <;> simp_all)) h

theorem emitVia_rises {a d : Device} (x1 : _) (x2 : _) (x3 : _) (x4 : _) (x5 : _) (x6 : _) (x7 : _) (h : rises a d) : rises a (emitVia x1 x2 x3 x4 x5 x6 x7 d) := by
  unfold emitVia
  repeat' first
    | with_reducible assumption | with_reducible rfl | (fail_if_no_progress (with_reducible apply mk_rises))
    | (fail_if_no_progress (with_reducible refine mkGaffer_rises rfl rfl ?_)) | with_reducible apply foldl_rises | intro _ | (extract_lets)
    | (fail_if_no_progress (with_reducible apply mkOut_rises)) | (fail_if_no_progress (with_reducible apply mkDraws_rises)) | split
    | (dsimp +zetaDelta only)

theorem emit_rises {a d : Device} (x1 : _) (x2 : _) (x3 : _) (x4 : _) (h : rises a d) : rises a (emit x1 x2 x3 x4 d) := by
  unfold emit
  repeat' first
    | with_reducible assumption | with_reducible rfl | with_reducible apply emitVia_rises | (fail_if_no_progress (with_reducible apply mk_rises))
    | (fail_if_no_progress (with_reducible refine mkGaffer_rises rfl rfl ?_))
    | with_reducible apply foldl_rises | intro _ | (extract_lets) | (fail_if_no_progress (with_reducible apply mkOut_rises))
    | (fail_if_no_progress (with_reducible apply mkDraws_rises)) | split | (dsimp +zetaDelta only)

theorem emitC_rises {a d : Device} (x1 : _) (x2 : _) (x3 : _) (h : rises a d) : rises a (emitC x1 x2 x3 d) := by
  unfold emitC
  repeat' first
    | with_reducible assumption | with_reducible rfl | with_reducible apply emit_rises | (fail_if_no_progress (with_reducible apply mk_rises))
    | (fail_if_no_progress (with_reducible refine mkGaffer_rises rfl rfl ?_))
    | with_reducible apply foldl_rises | intro _ | (extract_lets) | (fail_if_no_progress (with_reducible apply mkOut_rises))
    | (fail_if_no_progress (with_reducible apply mkDraws_rises)) | split | (dsimp +zetaDelta only)

theorem startEntry_rises {a d : Device} (x1 : _) (x2 : _) (x3 : _) (x4 : _) (h : rises a d) : rises a (startEntry x1 x2 x3 x4 d) := by
  unfold startEntry
  repeat' first
    | with_reducible assumption | with_reducible rfl | (fail_if_no_progress (with_reducible apply mk_rises))
    | (fail_if_no_progress (with_reducible refine mkGaffer_rises rfl rfl ?_)) | with_reducible apply foldl_rises | intro _ | (extract_lets)
    | (fail_if_no_progress (with_reducible apply mkOut_rises)) | (fail_if_no_progress (with_reducible apply mkDraws_rises)) | split
    | (dsimp +zetaDelta only)

theorem traceEntry_rises {a d : Device} (x1 : _) (x2 : _) (x3 : _) (x4 : _) (x5 : _) (x6 : _) (h : rises a d) : rises a (traceEntry x1 x2 x3 x4 x5 x6 d) := by
  unfold traceEntry
  repeat' first
    | with_reducible assumption | with_reducible rfl
    | (fail_if_no_progress (with_reducible apply mk_rises)) | (fail_if_no_progress (with_reducible refine mkGaffer_rises rfl rfl ?_))
    | with_reducible apply foldl_rises | intro _ | (extract_lets)
    | (fail_if_no_progress (with_reducible apply mkOut_rises)) | (fail_if_no_progress (with_reducible apply mkDraws_rises)) | split
    | (dsimp +zetaDelta only)

theorem openWindow_rises {a d : Device} (x1 : _) (h : rises a d) : rises a (openWindow x1 d) := by
  unfold openWindow
  repeat' first
    | with_reducible assumption | with_reducible rfl
    | (fail_if_no_progress (with_reducible apply mk_rises)) | (fail_if_no_progress (with_reducible refine mkGaffer_rises rfl rfl ?_))
    | with_reducible apply foldl_rises | intro _ | (extract_lets)
    | (fail_if_no_progress (with_reducible apply mkOut_rises)) | (fail_if_no_progress (with_reducible apply mkDraws_rises)) | split
    | (dsimp +zetaDelta only)

theorem closeWindow_rises {a d : Device} (x1 : _) (h : rises a d) : rises a (closeWindow x1 d) := by
  unfold closeWindow
  repeat' first
    | with_reducible assumption | with_reducible rfl
    | (fail_if_no_progress (with_reducible apply mk_rises)) | (fail_if_no_progress (with_reducible refine mkGaffer_rises rfl rfl ?_))
    | with_reducible apply foldl_rises | intro _ | (extract_lets)
    | (fail_if_no_progress (with_reducible apply mkOut_rises)) | (fail_if_no_progress (with_reducible apply mkDraws_rises)) | split
    | (dsimp +zetaDelta only)

theorem spend_rises {a d : Device} (x1 : _) (x2 : _) (h : rises a d) : rises a (spend x1 x2 d) := by
  unfold spend
  repeat' first
    | with_reducible assumption | with_reducible rfl
    | (fail_if_no_progress (with_reducible apply mk_rises)) | (fail_if_no_progress (with_reducible refine mkGaffer_rises rfl rfl ?_))
    | with_reducible apply foldl_rises | intro _ | (extract_lets)
    | (fail_if_no_progress (with_reducible apply mkOut_rises)) | (fail_if_no_progress (with_reducible apply mkDraws_rises)) | split
    | (dsimp +zetaDelta only)

theorem length_burnTherm (t : Therm) : thermVal t ≤ thermVal (burnTherm t) := by
  unfold burnTherm thermVal; split <;> simp
/-- A burn raises the one field it burns. -/

theorem fuseSet_rises (f : FuseField) (x : Fuses) : fusesRise x (fuseSet f (burnTherm (fuseGet f x)) x) := by
  refine ⟨fun g => ?_, ?_, ?_, ?_⟩
  · by_cases e : g = f
    · subst e
      have : fuseGet g (fuseSet g (burnTherm (fuseGet g x)) x) = burnTherm (fuseGet g x) := by
        cases g <;> simp [fuseGet, fuseSet]
      rw [this]; exact length_burnTherm _
    · have : fuseGet g (fuseSet f (burnTherm (fuseGet f x)) x) = fuseGet g x := by
        cases g <;> cases f <;> simp_all [fuseGet, fuseSet, tabGetD_tabSet]; (intro he; exact absurd he.symm e)
      exact Nat.le_of_eq (congrArg thermVal this.symm)
  all_goals cases f <;> simp [fuseSet]

theorem burn_rises {a d : Device} (x1 : FuseField) (h : rises a d) : rises a (burn x1 d) := by
  unfold burn
  repeat' first | with_reducible assumption | with_reducible apply doEach_rises | with_reducible apply emitC_rises | intro _
  exact mkFuses_rises (fuseSet_rises _ _) h

theorem burnTo_rises {a d : Device} (x1 : _) (x2 : _) (h : rises a d) : rises a (burnTo x1 x2 d) := by
  unfold burnTo
  repeat' first
    | with_reducible assumption | with_reducible rfl | with_reducible apply burn_rises | (fail_if_no_progress (with_reducible apply mk_rises))
    | (fail_if_no_progress (with_reducible refine mkGaffer_rises rfl rfl ?_))
    | with_reducible apply foldl_rises | intro _ | (extract_lets) | (fail_if_no_progress (with_reducible apply mkOut_rises))
    | (fail_if_no_progress (with_reducible apply mkDraws_rises)) | split | (dsimp +zetaDelta only)

theorem noteTransition_rises {a d : Device} (x1 : _) (h : rises a d) : rises a (noteTransition x1 d) := by
  unfold noteTransition
  repeat' first
    | with_reducible assumption | with_reducible rfl | with_reducible apply doIf_rises | with_reducible apply emitC_rises
    | with_reducible apply notice_rises
    | (fail_if_no_progress (with_reducible apply mk_rises)) | (fail_if_no_progress (with_reducible refine mkGaffer_rises rfl rfl ?_))
    | with_reducible apply foldl_rises | intro _ | (extract_lets)
    | (fail_if_no_progress (with_reducible apply mkOut_rises)) | (fail_if_no_progress (with_reducible apply mkDraws_rises)) | split
    | (dsimp +zetaDelta only)

theorem burnLock_rises {a d : Device} (h : rises a d) : rises a (burnLock d) := by
  unfold burnLock
  split
  · split
    · exact mkFuses_rises ⟨fun f => by cases f <;> exact Nat.le_refl _, id, fun _ => rfl, fun _ => id⟩ h
    · exact burn_rises _ h
  · exact h

theorem loadRoot_rises {a d : Device} (x1 : _) (x2 : _) (x3 : _) (x4 : _) (h : rises a d) : rises a (loadRoot x1 x2 x3 x4 d) := by
  unfold loadRoot
  repeat' first
    | with_reducible assumption | with_reducible rfl | (fail_if_no_progress (with_reducible apply mk_rises))
    | (fail_if_no_progress (with_reducible refine mkGaffer_rises rfl rfl ?_)) | with_reducible apply foldl_rises | intro _ | (extract_lets)
    | (fail_if_no_progress (with_reducible apply mkOut_rises)) | (fail_if_no_progress (with_reducible apply mkDraws_rises)) | split
    | (dsimp +zetaDelta only)

theorem sendOn_rises {a d : Device} (x1 : Bool) (x2 : Option RemoteAddr) (x3 : HtlHeader) (x4 : Bytes) (x5 : BitVec 128) (h : rises a d) : rises a (sendOn x1 x2 x3 x4 x5 d) := by
  unfold sendOn
  dsimp only
  split
  · exact h
  · split
    · split
      · exact mkOut_rises (e := netCount x1 1 d) (netCount_rises _ _ h)
      · exact netCount_rises _ _ h
    · exact netCount_rises _ _ h

theorem sendClear_rises {a d : Device} (x1 : Bool) (x2 : Option RemoteAddr) (x3 : HtlHeader) (x4 : Bytes) (h : rises a d) : rises a (sendClear x1 x2 x3 x4 d) := by
  unfold sendClear
  dsimp only
  split
  · exact h
  · split
    · split
      · exact mkOut_rises (e := netCount x1 1 d) (netCount_rises _ _ h)
      · exact netCount_rises _ _ h
    · exact netCount_rises _ _ h

theorem tableWrite_rises {a d : Device} (x1 : _) (x2 : _) (h : rises a d) : rises a (tableWrite x1 x2 d) := by
  unfold tableWrite
  repeat' first
    | with_reducible assumption | with_reducible rfl | with_reducible apply netCount_rises
    | (fail_if_no_progress (with_reducible apply mk_rises)) | (fail_if_no_progress (with_reducible refine mkGaffer_rises rfl rfl ?_))
    | with_reducible apply foldl_rises | intro _ | (extract_lets) | (fail_if_no_progress (with_reducible apply mkOut_rises))
    | (fail_if_no_progress (with_reducible apply mkDraws_rises)) | split | (dsimp +zetaDelta only)

theorem pathWrite_rises {a d : Device} (x1 : _) (x2 : _) (h : rises a d) : rises a (pathWrite x1 x2 d) := by
  unfold pathWrite
  repeat' first
    | with_reducible assumption | with_reducible rfl | with_reducible apply tableWrite_rises
    | (fail_if_no_progress (with_reducible apply mk_rises)) | (fail_if_no_progress (with_reducible refine mkGaffer_rises rfl rfl ?_))
    | with_reducible apply foldl_rises | intro _ | (extract_lets)
    | (fail_if_no_progress (with_reducible apply mkOut_rises)) | (fail_if_no_progress (with_reducible apply mkDraws_rises)) | split
    | (dsimp +zetaDelta only)

theorem raiseCeiling_rises {a d : Device} (x1 : _) (h : rises a d) : rises a (raiseCeiling x1 d) := by
  unfold raiseCeiling
  repeat' first
    | with_reducible assumption | with_reducible rfl | with_reducible apply pathWrite_rises | with_reducible apply doIf_rises
    | (fail_if_no_progress (with_reducible apply mk_rises)) | (fail_if_no_progress (with_reducible refine mkGaffer_rises rfl rfl ?_))
    | with_reducible apply foldl_rises | intro _ | (extract_lets)
    | (fail_if_no_progress (with_reducible apply mkOut_rises)) | (fail_if_no_progress (with_reducible apply mkDraws_rises)) | split
    | (dsimp +zetaDelta only)

theorem closeExhausted_rises {a d : Device} (x1 : _) (h : rises a d) : rises a (closeExhausted x1 d) := by
  unfold closeExhausted
  repeat' first
    | with_reducible assumption | with_reducible rfl | with_reducible apply pathWrite_rises | with_reducible apply doIf_rises
    | (fail_if_no_progress (with_reducible apply mk_rises)) | (fail_if_no_progress (with_reducible refine mkGaffer_rises rfl rfl ?_))
    | with_reducible apply foldl_rises | intro _ | (extract_lets)
    | (fail_if_no_progress (with_reducible apply mkOut_rises)) | (fail_if_no_progress (with_reducible apply mkDraws_rises)) | split
    | (dsimp +zetaDelta only)

theorem sendSession_rises {a d : Device} (x1 : _) (x2 : _) (x3 : _) (h : rises a d) : rises a (sendSession x1 x2 x3 d) := by
  unfold sendSession
  repeat' first
    | with_reducible assumption | with_reducible rfl | with_reducible apply closeExhausted_rises
    | with_reducible apply raiseCeiling_rises | with_reducible apply setSession_rises | with_reducible apply sendOn_rises
    | (fail_if_no_progress (with_reducible apply mk_rises)) | (fail_if_no_progress (with_reducible refine mkGaffer_rises rfl rfl ?_))
    | with_reducible apply foldl_rises | intro _ | (extract_lets)
    | (fail_if_no_progress (with_reducible apply mkOut_rises)) | (fail_if_no_progress (with_reducible apply mkDraws_rises)) | split
    | (dsimp +zetaDelta only)

theorem freeSession_rises {a d : Device} (x1 : _) (h : rises a d) : rises a (freeSession x1 d) := by
  unfold freeSession
  repeat' first
    | with_reducible assumption | with_reducible rfl | with_reducible apply pathWrite_rises
    | (fail_if_no_progress (with_reducible apply mk_rises)) | (fail_if_no_progress (with_reducible refine mkGaffer_rises rfl rfl ?_))
    | with_reducible apply foldl_rises | intro _ | (extract_lets)
    | (fail_if_no_progress (with_reducible apply mkOut_rises)) | (fail_if_no_progress (with_reducible apply mkDraws_rises)) | split
    | (dsimp +zetaDelta only)

theorem sendAbort_rises {a d : Device} (x1 : _) (x2 : _) (x3 : _) (x4 : _) (x5 : _) (h : rises a d) : rises a (sendAbort x1 x2 x3 x4 x5 d) := by
  unfold sendAbort
  repeat' first
    | with_reducible assumption | with_reducible rfl | with_reducible apply netCount_rises | with_reducible apply sendClear_rises
    | (fail_if_no_progress (with_reducible apply mk_rises)) | (fail_if_no_progress (with_reducible refine mkGaffer_rises rfl rfl ?_))
    | with_reducible apply foldl_rises | intro _ | (extract_lets)
    | (fail_if_no_progress (with_reducible apply mkOut_rises)) | (fail_if_no_progress (with_reducible apply mkDraws_rises)) | split
    | (dsimp +zetaDelta only)

theorem abortSession_rises {a d : Device} (x1 : _) (x2 : _) (h : rises a d) : rises a (abortSession x1 x2 d) := by
  unfold abortSession
  repeat' first
    | with_reducible assumption | with_reducible rfl | with_reducible apply sendAbort_rises | with_reducible apply freeSession_rises
    | (fail_if_no_progress (with_reducible apply mk_rises)) | (fail_if_no_progress (with_reducible refine mkGaffer_rises rfl rfl ?_))
    | with_reducible apply foldl_rises | intro _ | (extract_lets)
    | (fail_if_no_progress (with_reducible apply mkOut_rises)) | (fail_if_no_progress (with_reducible apply mkDraws_rises)) | split
    | (dsimp +zetaDelta only)

theorem freeAllSessions_rises {a d : Device}  (h : rises a d) : rises a (freeAllSessions d) := by
  unfold freeAllSessions
  repeat' first
    | with_reducible assumption | with_reducible rfl
    | (fail_if_no_progress (with_reducible apply mk_rises)) | (fail_if_no_progress (with_reducible refine mkGaffer_rises rfl rfl ?_))
    | with_reducible apply foldl_rises | intro _ | (extract_lets)
    | (fail_if_no_progress (with_reducible apply mkOut_rises)) | (fail_if_no_progress (with_reducible apply mkDraws_rises)) | split
    | (dsimp +zetaDelta only)

theorem setCredit_rises {a d : Device} (x1 : _) (x2 : _) (x3 : _) (h : rises a d) : rises a (setCredit x1 x2 x3 d) := by
  unfold setCredit
  repeat' first
    | with_reducible assumption | with_reducible rfl | (fail_if_no_progress (with_reducible apply mk_rises))
    | (fail_if_no_progress (with_reducible refine mkGaffer_rises rfl rfl ?_)) | with_reducible apply foldl_rises | intro _ | (extract_lets)
    | (fail_if_no_progress (with_reducible apply mkOut_rises)) | (fail_if_no_progress (with_reducible apply mkDraws_rises)) | split
    | (dsimp +zetaDelta only)

theorem charge_rises {a d : Device} (x1 : _) (x2 : _) (x3 : _) (h : rises a d) : rises a (charge x1 x2 x3 d) := by
  unfold charge
  repeat' first
    | with_reducible assumption | with_reducible rfl | with_reducible apply setCredit_rises
    | (fail_if_no_progress (with_reducible apply mk_rises)) | (fail_if_no_progress (with_reducible refine mkGaffer_rises rfl rfl ?_))
    | with_reducible apply foldl_rises | intro _ | (extract_lets) | (fail_if_no_progress (with_reducible apply mkOut_rises))
    | (fail_if_no_progress (with_reducible apply mkDraws_rises)) | split | (dsimp +zetaDelta only)

theorem engineAdd_rises {a d : Device} (x1 : _) (x2 : _) (x3 : _) (x4 : _) (x5 : _) (h : rises a d) : rises a (engineAdd x1 x2 x3 x4 x5 d) := by
  unfold engineAdd
  repeat' first
    | with_reducible assumption | with_reducible rfl | with_reducible apply modBench_rises
    | (fail_if_no_progress (with_reducible apply mk_rises)) | (fail_if_no_progress (with_reducible refine mkGaffer_rises rfl rfl ?_))
    | with_reducible apply foldl_rises | intro _ | (extract_lets) | (fail_if_no_progress (with_reducible apply mkOut_rises))
    | (fail_if_no_progress (with_reducible apply mkDraws_rises)) | split | (dsimp +zetaDelta only)

theorem engineWork_rises {a d : Device} (x1 : _) (x2 : _) (x3 : _) (x4 : _) (x5 : _) (x6 : _) (h : rises a d) :
    rises a (engineWork x1 x2 x3 x4 x5 x6 d) := by
  unfold engineWork
  repeat' first
    | with_reducible assumption | with_reducible rfl | with_reducible apply modBench_rises
    | (fail_if_no_progress (with_reducible apply mk_rises)) | (fail_if_no_progress (with_reducible refine mkGaffer_rises rfl rfl ?_))
    | with_reducible apply foldl_rises | intro _ | (extract_lets) | (fail_if_no_progress (with_reducible apply mkOut_rises))
    | (fail_if_no_progress (with_reducible apply mkDraws_rises)) | split | (dsimp +zetaDelta only)

theorem saveContext_rises {a d : Device} (x1 : _) (h : rises a d) : rises a (saveContext x1 d) := by
  unfold saveContext
  repeat' first
    | with_reducible assumption | with_reducible rfl | with_reducible apply engineWork_rises | with_reducible apply modJob_rises
    | with_reducible apply modEngine_rises
    | (fail_if_no_progress (with_reducible apply mk_rises)) | (fail_if_no_progress (with_reducible refine mkGaffer_rises rfl rfl ?_))
    | with_reducible apply foldl_rises | intro _ | (extract_lets)
    | (fail_if_no_progress (with_reducible apply mkOut_rises)) | (fail_if_no_progress (with_reducible apply mkDraws_rises)) | split
    | (dsimp +zetaDelta only)

theorem dropParked_rises {a d : Device} (x1 : _) (h : rises a d) : rises a (dropParked x1 d) := by
  unfold dropParked
  repeat' first
    | with_reducible assumption | with_reducible rfl | with_reducible apply saveContext_rises | with_reducible apply doEach_rises
    | (fail_if_no_progress (with_reducible apply mk_rises)) | (fail_if_no_progress (with_reducible refine mkGaffer_rises rfl rfl ?_))
    | with_reducible apply foldl_rises | intro _ | (extract_lets)
    | (fail_if_no_progress (with_reducible apply mkOut_rises)) | (fail_if_no_progress (with_reducible apply mkDraws_rises)) | split
    | (dsimp +zetaDelta only)

theorem beginTest_rises {a d : Device} (x1 : _) (x2 : _) (x3 : _) (x4 : _) (h : rises a d) : rises a (beginTest x1 x2 x3 x4 d) := by
  unfold beginTest
  repeat' first
    | with_reducible assumption | with_reducible rfl | with_reducible apply modBench_rises | with_reducible apply dropParked_rises
    | with_reducible apply modEngine_rises
    | (fail_if_no_progress (with_reducible apply mk_rises)) | (fail_if_no_progress (with_reducible refine mkGaffer_rises rfl rfl ?_))
    | with_reducible apply foldl_rises | intro _ | (extract_lets)
    | (fail_if_no_progress (with_reducible apply mkOut_rises)) | (fail_if_no_progress (with_reducible apply mkDraws_rises)) | split
    | (dsimp +zetaDelta only)

theorem beginDue_rises {a d : Device} (x1 : _) (x2 : _) (x3 : _) (h : rises a d) : rises a (beginDue x1 x2 x3 d) := by
  unfold beginDue
  repeat' first
    | with_reducible assumption | with_reducible rfl | with_reducible apply beginTest_rises | with_reducible apply modEngine_rises
    | (fail_if_no_progress (with_reducible apply mk_rises)) | (fail_if_no_progress (with_reducible refine mkGaffer_rises rfl rfl ?_))
    | with_reducible apply foldl_rises | intro _ | (extract_lets)
    | (fail_if_no_progress (with_reducible apply mkOut_rises)) | (fail_if_no_progress (with_reducible apply mkDraws_rises)) | split
    | (dsimp +zetaDelta only)

theorem loadFromPort_rises {a d : Device} (x1 : _) (x2 : _) (x3 : _) (x4 : _) (h : rises a d) : rises a (loadFromPort x1 x2 x3 x4 d) := by
  unfold loadFromPort
  repeat' first
    | with_reducible assumption | with_reducible rfl | with_reducible apply modEngine_rises | with_reducible apply engineWork_rises
    | (fail_if_no_progress (with_reducible apply mk_rises)) | (fail_if_no_progress (with_reducible refine mkGaffer_rises rfl rfl ?_))
    | with_reducible apply foldl_rises | intro _ | (extract_lets)
    | (fail_if_no_progress (with_reducible apply mkOut_rises)) | (fail_if_no_progress (with_reducible apply mkDraws_rises)) | split
    | (dsimp +zetaDelta only)

theorem restoreContext_rises {a d : Device} (x1 : _) (x2 : _) (x3 : _) (x4 : _) (h : rises a d) : rises a (restoreContext x1 x2 x3 x4 d) := by
  unfold restoreContext
  repeat' first
    | with_reducible assumption | with_reducible rfl | with_reducible apply engineWork_rises | with_reducible apply modJob_rises
    | with_reducible apply modEngine_rises
    | (fail_if_no_progress (with_reducible apply mk_rises)) | (fail_if_no_progress (with_reducible refine mkGaffer_rises rfl rfl ?_))
    | with_reducible apply foldl_rises | intro _ | (extract_lets)
    | (fail_if_no_progress (with_reducible apply mkOut_rises)) | (fail_if_no_progress (with_reducible apply mkDraws_rises)) | split
    | (dsimp +zetaDelta only)

theorem startEngine_rises {a d : Device} (x1 : _) (x2 : _) (x3 : _) (x4 : _) (h : rises a d) : rises a (startEngine x1 x2 x3 x4 d) := by
  unfold startEngine
  repeat' first
    | with_reducible assumption | with_reducible rfl | with_reducible apply restoreContext_rises
    | with_reducible apply loadFromPort_rises | with_reducible apply modEngine_rises | with_reducible apply doWith_rises
    | (fail_if_no_progress (with_reducible apply mk_rises)) | (fail_if_no_progress (with_reducible refine mkGaffer_rises rfl rfl ?_))
    | with_reducible apply foldl_rises | intro _ | (extract_lets)
    | (fail_if_no_progress (with_reducible apply mkOut_rises)) | (fail_if_no_progress (with_reducible apply mkDraws_rises)) | split
    | (dsimp +zetaDelta only)

theorem giveUnit_rises {a d : Device} (x1 : _) (x2 : _) (h : rises a d) : rises a (giveUnit x1 x2 d) := by
  unfold giveUnit
  repeat' first
    | with_reducible assumption | with_reducible rfl | with_reducible apply dropParked_rises | with_reducible apply startEngine_rises
    | with_reducible apply doWith_rises
    | (fail_if_no_progress (with_reducible apply mk_rises)) | (fail_if_no_progress (with_reducible refine mkGaffer_rises rfl rfl ?_))
    | with_reducible apply foldl_rises | intro _ | (extract_lets)
    | (fail_if_no_progress (with_reducible apply mkOut_rises)) | (fail_if_no_progress (with_reducible apply mkDraws_rises)) | split
    | (dsimp +zetaDelta only)

theorem grantOne_rises {a d : Device} (x1 : _) (x2 : _) (h : rises a d) : rises a (grantOne x1 x2 d) := by
  unfold grantOne
  repeat' first
    | with_reducible assumption | with_reducible rfl | with_reducible apply giveUnit_rises
    | (fail_if_no_progress (with_reducible apply mk_rises)) | (fail_if_no_progress (with_reducible refine mkGaffer_rises rfl rfl ?_))
    | with_reducible apply foldl_rises | intro _ | (extract_lets)
    | (fail_if_no_progress (with_reducible apply mkOut_rises)) | (fail_if_no_progress (with_reducible apply mkDraws_rises)) | split
    | (dsimp +zetaDelta only)

theorem arbitrate_rises {a d : Device} (x1 : _) (x2 : _) (h : rises a d) : rises a (arbitrate x1 x2 d) := by
  unfold arbitrate
  repeat' first
    | with_reducible assumption | with_reducible rfl | with_reducible apply grantOne_rises
    | (fail_if_no_progress (with_reducible apply mk_rises)) | (fail_if_no_progress (with_reducible refine mkGaffer_rises rfl rfl ?_))
    | with_reducible apply foldl_rises | intro _ | (extract_lets) | (fail_if_no_progress (with_reducible apply mkOut_rises))
    | (fail_if_no_progress (with_reducible apply mkDraws_rises)) | split | (dsimp +zetaDelta only)

theorem freePort_rises {a d : Device} (x1 : _) (h : rises a d) : rises a (freePort x1 d) := by
  unfold freePort
  repeat' first
    | with_reducible assumption | with_reducible rfl
    | (fail_if_no_progress (with_reducible apply mk_rises)) | (fail_if_no_progress (with_reducible refine mkGaffer_rises rfl rfl ?_))
    | with_reducible apply foldl_rises | intro _ | (extract_lets)
    | (fail_if_no_progress (with_reducible apply mkOut_rises)) | (fail_if_no_progress (with_reducible apply mkDraws_rises)) | split
    | (dsimp +zetaDelta only)

theorem endGrant_rises {a d : Device} (x1 : _) (x2 : _) (h : rises a d) : rises a (endGrant x1 x2 d) := by
  unfold endGrant
  repeat' first
    | with_reducible assumption | with_reducible rfl | with_reducible apply freePort_rises | with_reducible apply charge_rises
    | with_reducible apply saveContext_rises | with_reducible apply beginDue_rises | with_reducible apply engineWork_rises
    | with_reducible apply modEngine_rises | with_reducible apply doWith_rises
    | (fail_if_no_progress (with_reducible apply mk_rises)) | (fail_if_no_progress (with_reducible refine mkGaffer_rises rfl rfl ?_))
    | with_reducible apply foldl_rises | intro _ | (extract_lets)
    | (fail_if_no_progress (with_reducible apply mkOut_rises)) | (fail_if_no_progress (with_reducible apply mkDraws_rises)) | split
    | (dsimp +zetaDelta only)

theorem forgetChain_rises {a d : Device} (x1 : _) (h : rises a d) : rises a (forgetChain x1 d) := by
  unfold forgetChain
  repeat' first
    | with_reducible assumption | with_reducible rfl
    | (fail_if_no_progress (with_reducible apply mk_rises)) | (fail_if_no_progress (with_reducible refine mkGaffer_rises rfl rfl ?_))
    | with_reducible apply foldl_rises | intro _ | (extract_lets)
    | (fail_if_no_progress (with_reducible apply mkOut_rises)) | (fail_if_no_progress (with_reducible apply mkDraws_rises)) | split
    | (dsimp +zetaDelta only)

theorem dropGrants_rises {a d : Device} (x1 : _) (x2 : _) (h : rises a d) : rises a (dropGrants x1 x2 d) := by
  unfold dropGrants
  repeat' first
    | with_reducible assumption | with_reducible rfl | with_reducible apply forgetChain_rises | with_reducible apply endGrant_rises
    | with_reducible apply arbitrate_rises | with_reducible apply doEach_rises
    | (fail_if_no_progress (with_reducible apply mk_rises)) | (fail_if_no_progress (with_reducible refine mkGaffer_rises rfl rfl ?_))
    | with_reducible apply foldl_rises | intro _ | (extract_lets)
    | (fail_if_no_progress (with_reducible apply mkOut_rises)) | (fail_if_no_progress (with_reducible apply mkDraws_rises)) | split
    | (dsimp +zetaDelta only)

theorem fireVector_rises {a d : Device} (x1 : _) (x2 : _) (h : rises a d) : rises a (fireVector x1 x2 d) := by
  unfold fireVector
  repeat' first
    | with_reducible assumption | with_reducible rfl | with_reducible apply modFn_rises | (fail_if_no_progress (with_reducible apply mk_rises))
    | (fail_if_no_progress (with_reducible refine mkGaffer_rises rfl rfl ?_))
    | with_reducible apply foldl_rises | intro _ | (extract_lets) | (fail_if_no_progress (with_reducible apply mkOut_rises))
    | (fail_if_no_progress (with_reducible apply mkDraws_rises)) | split | (dsimp +zetaDelta only)

theorem denied_rises {a d : Device} (x1 : _) (x2 : _) (x3 : _) (x4 : _) (h : rises a d) : rises a (denied x1 x2 x3 x4 d) := by
  unfold denied
  repeat' first
    | with_reducible assumption | with_reducible rfl | with_reducible apply fireVector_rises | with_reducible apply emit_rises
    | with_reducible apply fnCount_rises
    | with_reducible apply modFn_rises | (fail_if_no_progress (with_reducible apply mk_rises))
    | (fail_if_no_progress (with_reducible refine mkGaffer_rises rfl rfl ?_)) | with_reducible apply foldl_rises | intro _
    | (extract_lets) | (fail_if_no_progress (with_reducible apply mkOut_rises)) | (fail_if_no_progress (with_reducible apply mkDraws_rises)) | split
    | (dsimp +zetaDelta only)

theorem queueFault_rises {a d : Device} (x1 : _) (x2 : _) (x3 : _) (h : rises a d) : rises a (queueFault x1 x2 x3 d) := by
  unfold queueFault
  repeat' first
    | with_reducible assumption | with_reducible rfl | with_reducible apply fireVector_rises | with_reducible apply emit_rises
    | with_reducible apply modFn_rises
    | with_reducible apply modQueue_rises | (fail_if_no_progress (with_reducible apply mk_rises))
    | (fail_if_no_progress (with_reducible refine mkGaffer_rises rfl rfl ?_)) | with_reducible apply foldl_rises | intro _
    | (extract_lets) | (fail_if_no_progress (with_reducible apply mkOut_rises)) | (fail_if_no_progress (with_reducible apply mkDraws_rises)) | split
    | (dsimp +zetaDelta only)

theorem mbxSend_rises {a d : Device} (x1 : _) (x2 : _) (h : rises a d) : rises a (mbxSend x1 x2 d) := by
  unfold mbxSend
  repeat' first
    | with_reducible assumption | with_reducible rfl | with_reducible apply fireVector_rises | with_reducible apply fnCount_rises
    | with_reducible apply modFn_rises
    | (fail_if_no_progress (with_reducible apply mk_rises)) | (fail_if_no_progress (with_reducible refine mkGaffer_rises rfl rfl ?_))
    | with_reducible apply foldl_rises | intro _ | (extract_lets)
    | (fail_if_no_progress (with_reducible apply mkOut_rises)) | (fail_if_no_progress (with_reducible apply mkDraws_rises)) | split
    | (dsimp +zetaDelta only)

theorem settleQuiesce_rises {a d : Device} (x1 : _) (h : rises a d) : rises a (settleQuiesce x1 d) := by
  unfold settleQuiesce
  repeat' first
    | with_reducible assumption | with_reducible rfl | with_reducible apply modFn_rises | (fail_if_no_progress (with_reducible apply mk_rises))
    | (fail_if_no_progress (with_reducible refine mkGaffer_rises rfl rfl ?_))
    | with_reducible apply foldl_rises | intro _ | (extract_lets) | (fail_if_no_progress (with_reducible apply mkOut_rises))
    | (fail_if_no_progress (with_reducible apply mkDraws_rises)) | split | (dsimp +zetaDelta only)

theorem fireDue_rises {a d : Device} (x1 : _) (x2 : _) (h : rises a d) : rises a (fireDue x1 x2 d) := by
  unfold fireDue
  repeat' first
    | with_reducible assumption | with_reducible rfl | with_reducible apply modQueue_rises | with_reducible apply fireVector_rises
    | (fail_if_no_progress (with_reducible apply mk_rises)) | (fail_if_no_progress (with_reducible refine mkGaffer_rises rfl rfl ?_))
    | with_reducible apply foldl_rises | intro _ | (extract_lets)
    | (fail_if_no_progress (with_reducible apply mkOut_rises)) | (fail_if_no_progress (with_reducible apply mkDraws_rises)) | split
    | (dsimp +zetaDelta only)

theorem settleQueue_rises {a d : Device} (x1 : _) (x2 : _) (h : rises a d) : rises a (settleQueue x1 x2 d) := by
  unfold settleQueue
  repeat' first
    | with_reducible assumption | with_reducible rfl | with_reducible apply modQueue_rises
    | (fail_if_no_progress (with_reducible apply mk_rises)) | (fail_if_no_progress (with_reducible refine mkGaffer_rises rfl rfl ?_))
    | with_reducible apply foldl_rises | intro _ | (extract_lets) | (fail_if_no_progress (with_reducible apply mkOut_rises))
    | (fail_if_no_progress (with_reducible apply mkDraws_rises)) | split | (dsimp +zetaDelta only)

theorem complete_rises {a d : Device} (x1 x2 : Nat) (x3 x4 : BitVec 16) (x5 : Answer) (x6 : Nat) (h : rises a d) :
    rises a (complete x1 x2 x3 x4 x5 x6 d) := by
  unfold complete
  extract_lets forget lost pieces total bad d1 d2 x iz addr entry d3 d4 y d5
  have hl : ∀ e, rises a e → rises a (lost e) := by
    intro e he
    show rises a (ite _ _ _); split
    · exact fnCount_rises _ _ (modQueue_rises _ _ _ he)
    · exact modQueue_rises _ _ _ he
  have settle : ∀ e, rises a e → rises a (settleQuiesce x1 (settleQueue x1 x2 e)) :=
    fun e he => settleQuiesce_rises _ (settleQueue_rises _ _ he)
  have h2 : rises a d2 := mkOut_rises (doWith_rises _ _ (fun _ _ he => denied_rises _ _ _ _ he) h)
  have h4 : rises a d4 := fnCount_rises _ _ (modQueue_rises _ _ _ (mkOut_rises h2))
  have h5 : rises a d5 := by
    show rises a (ite _ _ _); split
    · exact fireDue_rises _ _ h4
    · exact h4
  split
  · exact settle _ (hl _ h)
  · split
    · exact settle _ (hl _ h2)
    · split
      · exact settle _ h5
      · exact settle _ (hl _ (queueFault_rises _ _ _ (denied_rises _ _ _ _ h2)))

theorem advanceGo_rises {a d : Device} (x1 : _) (x2 : _) (h : rises a d) : rises a (advanceGo x1 x2 d) := by
  induction x2 generalizing d x1 with
  | zero => exact h
  | succ n ih =>
    unfold advanceGo
    repeat' first
      | with_reducible assumption | with_reducible rfl | with_reducible apply ih | (fail_if_no_progress (with_reducible apply mk_rises))
      | (fail_if_no_progress (with_reducible refine mkGaffer_rises rfl rfl ?_)) | with_reducible apply foldl_rises
      | intro _ | (extract_lets) | (fail_if_no_progress (with_reducible apply mkOut_rises))
      | (fail_if_no_progress (with_reducible apply mkDraws_rises)) | split | (dsimp +zetaDelta only)

theorem advancePtr_rises {a d : Device} (x1 : _) (h : rises a d) : rises a (advancePtr x1 d) := by
  unfold advancePtr
  repeat' first
    | with_reducible assumption | with_reducible rfl | with_reducible apply advanceGo_rises
    | (fail_if_no_progress (with_reducible apply mk_rises)) | (fail_if_no_progress (with_reducible refine mkGaffer_rises rfl rfl ?_))
    | with_reducible apply foldl_rises | intro _ | (extract_lets)
    | (fail_if_no_progress (with_reducible apply mkOut_rises)) | (fail_if_no_progress (with_reducible apply mkDraws_rises)) | split
    | (dsimp +zetaDelta only)

theorem takeToken_rises {a d : Device} (x1 : _) (h : rises a d) : rises a (takeToken x1 d) := by
  unfold takeToken
  repeat' first
    | with_reducible assumption | with_reducible rfl | with_reducible apply modTenant_rises
    | (fail_if_no_progress (with_reducible apply mk_rises)) | (fail_if_no_progress (with_reducible refine mkGaffer_rises rfl rfl ?_))
    | with_reducible apply foldl_rises | intro _ | (extract_lets) | (fail_if_no_progress (with_reducible apply mkOut_rises))
    | (fail_if_no_progress (with_reducible apply mkDraws_rises)) | split | (dsimp +zetaDelta only)

theorem wake_rises {a d : Device} (x1 : _) (x2 : _) (h : rises a d) : rises a (wake x1 x2 d) := by
  unfold wake
  repeat' first
    | with_reducible assumption | with_reducible rfl | (fail_if_no_progress (with_reducible apply mk_rises))
    | (fail_if_no_progress (with_reducible refine mkGaffer_rises rfl rfl ?_)) | with_reducible apply foldl_rises | intro _ | (extract_lets)
    | (fail_if_no_progress (with_reducible apply mkOut_rises)) | (fail_if_no_progress (with_reducible apply mkDraws_rises)) | split
    | (dsimp +zetaDelta only)

theorem modUnit_gaffer (c : CoreRef) (f : Core → Core) (d : Device) : (modUnit c f d).gaffer = d.gaffer := by
  unfold modUnit; split <;> rfl

theorem modUnit_rises {a d : Device} (x1 : _) (x2 : _) (h : rises a d) : rises a (modUnit x1 x2 d) := by
  unfold modUnit
  repeat' first
    | with_reducible assumption | with_reducible rfl | with_reducible apply modCore_rises | (fail_if_no_progress (with_reducible apply mk_rises))
    | (fail_if_no_progress (with_reducible refine mkGaffer_rises rfl rfl ?_))
    | with_reducible apply foldl_rises | intro _ | (extract_lets) | (fail_if_no_progress (with_reducible apply mkOut_rises))
    | (fail_if_no_progress (with_reducible apply mkDraws_rises)) | split | (dsimp +zetaDelta only)

theorem freeCore_rises {a d : Device} (x1 : _) (h : rises a d) : rises a (freeCore x1 d) := by
  unfold freeCore
  repeat' first
    | with_reducible assumption | with_reducible rfl | with_reducible apply modJob_rises | with_reducible apply modUnit_rises
    | with_reducible apply doWith_rises
    | (fail_if_no_progress (with_reducible apply mk_rises)) | (fail_if_no_progress (with_reducible refine mkGaffer_rises rfl rfl ?_))
    | with_reducible apply foldl_rises | intro _ | (extract_lets)
    | (fail_if_no_progress (with_reducible apply mkOut_rises)) | (fail_if_no_progress (with_reducible apply mkDraws_rises)) | split
    | (dsimp +zetaDelta only)

theorem freeJobCore_rises {a d : Device} (x1 : _) (h : rises a d) : rises a (freeJobCore x1 d) := by
  unfold freeJobCore
  repeat' first
    | with_reducible assumption | with_reducible rfl | with_reducible apply doWith_rises | with_reducible apply freeCore_rises
    | (fail_if_no_progress (with_reducible apply mk_rises)) | (fail_if_no_progress (with_reducible refine mkGaffer_rises rfl rfl ?_))
    | with_reducible apply foldl_rises | intro _ | (extract_lets)
    | (fail_if_no_progress (with_reducible apply mkOut_rises)) | (fail_if_no_progress (with_reducible apply mkDraws_rises)) | split
    | (dsimp +zetaDelta only)

theorem traceJob_rises {a d : Device} (x1 : _) (x2 : _) (x3 : _) (h : rises a d) : rises a (traceJob x1 x2 x3 d) := by
  unfold traceJob
  repeat' first
    | with_reducible assumption | with_reducible rfl | with_reducible apply traceEntry_rises
    | (fail_if_no_progress (with_reducible apply mk_rises)) | (fail_if_no_progress (with_reducible refine mkGaffer_rises rfl rfl ?_))
    | with_reducible apply foldl_rises | intro _ | (extract_lets) | (fail_if_no_progress (with_reducible apply mkOut_rises))
    | (fail_if_no_progress (with_reducible apply mkDraws_rises)) | split | (dsimp +zetaDelta only)

theorem dropState_rises {a d : Device} (x1 : _) (h : rises a d) : rises a (dropState x1 d) := by
  unfold dropState
  repeat' first
    | with_reducible assumption | with_reducible rfl | with_reducible apply modBench_rises | with_reducible apply modJob_rises
    | with_reducible apply doWith_rises
    | (fail_if_no_progress (with_reducible apply mk_rises)) | (fail_if_no_progress (with_reducible refine mkGaffer_rises rfl rfl ?_))
    | with_reducible apply foldl_rises | intro _ | (extract_lets)
    | (fail_if_no_progress (with_reducible apply mkOut_rises)) | (fail_if_no_progress (with_reducible apply mkDraws_rises)) | split
    | (dsimp +zetaDelta only)

theorem saveState_rises {a d : Device} (x1 : _) (x2 : _) (x3 : _) (h : rises a d) : rises a (saveState x1 x2 x3 d) := by
  unfold saveState
  repeat' first
    | with_reducible assumption | with_reducible rfl | with_reducible apply dropState_rises | with_reducible apply modJob_rises
    | with_reducible apply modBench_rises
    | (fail_if_no_progress (with_reducible apply mk_rises)) | (fail_if_no_progress (with_reducible refine mkGaffer_rises rfl rfl ?_))
    | with_reducible apply foldl_rises | intro _ | (extract_lets)
    | (fail_if_no_progress (with_reducible apply mkOut_rises)) | (fail_if_no_progress (with_reducible apply mkDraws_rises)) | split
    | (dsimp +zetaDelta only)

theorem affect_rises {a d : Device} (x1 : _) (x2 : _) (h : rises a d) : rises a (affect x1 x2 d) := by
  unfold affect
  repeat' first
    | with_reducible assumption | with_reducible rfl | with_reducible apply modTenant_rises
    | (fail_if_no_progress (with_reducible apply mk_rises)) | (fail_if_no_progress (with_reducible refine mkGaffer_rises rfl rfl ?_))
    | with_reducible apply foldl_rises | intro _ | (extract_lets) | (fail_if_no_progress (with_reducible apply mkOut_rises))
    | (fail_if_no_progress (with_reducible apply mkDraws_rises)) | split | (dsimp +zetaDelta only)

theorem noteImage_rises {a d : Device} (x1 : _) (x2 : _) (h : rises a d) : rises a (noteImage x1 x2 d) := by
  unfold noteImage
  repeat' first
    | with_reducible assumption | with_reducible rfl | (fail_if_no_progress (with_reducible apply mk_rises))
    | (fail_if_no_progress (with_reducible refine mkGaffer_rises rfl rfl ?_)) | with_reducible apply foldl_rises | intro _ | (extract_lets)
    | (fail_if_no_progress (with_reducible apply mkOut_rises)) | (fail_if_no_progress (with_reducible apply mkDraws_rises)) | split
    | (dsimp +zetaDelta only)

theorem dropWrites_rises {a d : Device} (x1 : _) (h : rises a d) : rises a (dropWrites x1 d) := by
  unfold dropWrites
  repeat' first
    | with_reducible assumption | with_reducible rfl
    | (fail_if_no_progress (with_reducible apply mk_rises)) | (fail_if_no_progress (with_reducible refine mkGaffer_rises rfl rfl ?_))
    | with_reducible apply foldl_rises | intro _ | (extract_lets)
    | (fail_if_no_progress (with_reducible apply mkOut_rises)) | (fail_if_no_progress (with_reducible apply mkDraws_rises)) | split
    | (dsimp +zetaDelta only)

theorem answerJob_rises {a d : Device} (x1 : _) (x2 : _) (h : rises a d) : rises a (answerJob x1 x2 d) := by
  unfold answerJob
  repeat' first
    | with_reducible assumption | with_reducible rfl | with_reducible apply advancePtr_rises | with_reducible apply modJob_rises
    | with_reducible apply noteImage_rises | with_reducible apply dropWrites_rises | with_reducible apply dropState_rises
    | (fail_if_no_progress (with_reducible apply mk_rises)) | (fail_if_no_progress (with_reducible refine mkGaffer_rises rfl rfl ?_))
    | with_reducible apply foldl_rises | intro _ | (extract_lets)
    | (fail_if_no_progress (with_reducible apply mkOut_rises)) | (fail_if_no_progress (with_reducible apply mkDraws_rises)) | split
    | (dsimp +zetaDelta only)

theorem settleDraws_rises {a d : Device} (x1 : _) (x2 : _) (h : rises a d) : rises a (settleDraws x1 x2 d) := by
  unfold settleDraws
  repeat' first
    | with_reducible assumption | with_reducible rfl
    | (fail_if_no_progress (with_reducible apply mk_rises)) | (fail_if_no_progress (with_reducible refine mkGaffer_rises rfl rfl ?_))
    | with_reducible apply foldl_rises | intro _ | (extract_lets) | (fail_if_no_progress (with_reducible apply mkOut_rises))
    | (fail_if_no_progress (with_reducible apply mkDraws_rises)) | split | (dsimp +zetaDelta only)

theorem settleWork_rises {a d : Device} (x1 : _) (x2 : _) (h : rises a d) : rises a (settleWork x1 x2 d) := by
  unfold settleWork
  repeat' first
    | with_reducible assumption | with_reducible rfl | with_reducible apply settleDraws_rises
    | (fail_if_no_progress (with_reducible apply mk_rises)) | (fail_if_no_progress (with_reducible refine mkGaffer_rises rfl rfl ?_))
    | with_reducible apply foldl_rises | intro _ | (extract_lets) | (fail_if_no_progress (with_reducible apply mkOut_rises))
    | (fail_if_no_progress (with_reducible apply mkDraws_rises)) | split | (dsimp +zetaDelta only)

theorem dropJob_rises {a d : Device} (x1 : _) (x2 : _) (h : rises a d) : rises a (dropJob x1 x2 d) := by
  unfold dropJob
  repeat' first
    | with_reducible assumption | with_reducible rfl | with_reducible apply traceJob_rises | with_reducible apply settleWork_rises
    | with_reducible apply freeJobCore_rises | with_reducible apply dropGrants_rises | with_reducible apply coreCount_rises
    | with_reducible apply lehCount_rises | with_reducible apply answerJob_rises | with_reducible apply doWith_rises
    | (fail_if_no_progress (with_reducible apply mk_rises)) | (fail_if_no_progress (with_reducible refine mkGaffer_rises rfl rfl ?_))
    | with_reducible apply foldl_rises | intro _ | (extract_lets)
    | (fail_if_no_progress (with_reducible apply mkOut_rises)) | (fail_if_no_progress (with_reducible apply mkDraws_rises)) | split
    | (dsimp +zetaDelta only)

theorem squashJob_rises {a d : Device} (x1 : _) (x2 : _) (h : rises a d) : rises a (squashJob x1 x2 d) := by
  unfold squashJob
  repeat' first
    | with_reducible assumption | with_reducible rfl | with_reducible apply gafCount_rises | with_reducible apply dropJob_rises
    | with_reducible apply affect_rises
    | (fail_if_no_progress (with_reducible apply mk_rises)) | (fail_if_no_progress (with_reducible refine mkGaffer_rises rfl rfl ?_))
    | with_reducible apply foldl_rises | intro _ | (extract_lets)
    | (fail_if_no_progress (with_reducible apply mkOut_rises)) | (fail_if_no_progress (with_reducible apply mkDraws_rises)) | split
    | (dsimp +zetaDelta only)

theorem reenterJob_rises {a d : Device} (x1 : _) (h : rises a d) : rises a (reenterJob x1 d) := by
  unfold reenterJob
  repeat' first
    | with_reducible assumption | with_reducible rfl | with_reducible apply gafCount_rises | with_reducible apply traceJob_rises
    | with_reducible apply settleWork_rises | with_reducible apply freeJobCore_rises | with_reducible apply dropGrants_rises
    | with_reducible apply dropWrites_rises | with_reducible apply coreCount_rises | with_reducible apply lehCount_rises
    | with_reducible apply modTenant_rises | with_reducible apply modJob_rises | with_reducible apply doWith_rises
    | (fail_if_no_progress (with_reducible apply mk_rises)) | (fail_if_no_progress (with_reducible refine mkGaffer_rises rfl rfl ?_))
    | with_reducible apply foldl_rises | intro _ | (extract_lets)
    | (fail_if_no_progress (with_reducible apply mkOut_rises)) | (fail_if_no_progress (with_reducible apply mkDraws_rises)) | split
    | (dsimp +zetaDelta only)

theorem faultJob_rises {a d : Device} (x1 : _) (x2 : _) (h : rises a d) : rises a (faultJob x1 x2 d) := by
  unfold faultJob
  repeat' first
    | with_reducible assumption | with_reducible rfl | with_reducible apply squashJob_rises | with_reducible apply reenterJob_rises
    | (fail_if_no_progress (with_reducible apply mk_rises)) | (fail_if_no_progress (with_reducible refine mkGaffer_rises rfl rfl ?_))
    | with_reducible apply foldl_rises | intro _ | (extract_lets)
    | (fail_if_no_progress (with_reducible apply mkOut_rises)) | (fail_if_no_progress (with_reducible apply mkDraws_rises)) | split
    | (dsimp +zetaDelta only)

theorem expireJob_rises {a d : Device} (x1 : _) (h : rises a d) : rises a (expireJob x1 d) := by
  unfold expireJob
  repeat' first
    | with_reducible assumption | with_reducible rfl | with_reducible apply answerJob_rises | with_reducible apply gafCount_rises
    | with_reducible apply traceJob_rises
    | (fail_if_no_progress (with_reducible apply mk_rises)) | (fail_if_no_progress (with_reducible refine mkGaffer_rises rfl rfl ?_))
    | with_reducible apply foldl_rises | intro _ | (extract_lets)
    | (fail_if_no_progress (with_reducible apply mkOut_rises)) | (fail_if_no_progress (with_reducible apply mkDraws_rises)) | split
    | (dsimp +zetaDelta only)

theorem expireHeads_rises {a d : Device} (x1 : _) (h : rises a d) : rises a (expireHeads x1 d) := by
  induction x1 generalizing d  with
  | zero => exact h
  | succ n ih =>
    unfold expireHeads
    repeat' first
      | with_reducible assumption | with_reducible rfl | with_reducible apply ih | with_reducible apply expireJob_rises
      | (fail_if_no_progress (with_reducible apply mk_rises)) | (fail_if_no_progress (with_reducible refine mkGaffer_rises rfl rfl ?_))
      | with_reducible apply foldl_rises | intro _ | (extract_lets)
      | (fail_if_no_progress (with_reducible apply mkOut_rises)) | (fail_if_no_progress (with_reducible apply mkDraws_rises)) | split
      | (dsimp +zetaDelta only)

theorem decodeRead_rises {a d : Device} (x1 : _) (h : rises a d) : rises a (decodeRead x1 d).2 := by
  unfold decodeRead
  repeat' first
    | with_reducible assumption | with_reducible rfl | with_reducible apply denied_rises | (fail_if_no_progress (with_reducible apply mk_rises))
    | (fail_if_no_progress (with_reducible refine mkGaffer_rises rfl rfl ?_))
    | with_reducible apply foldl_rises | intro _ | (extract_lets) | (fail_if_no_progress (with_reducible apply mkOut_rises))
    | (fail_if_no_progress (with_reducible apply mkDraws_rises)) | split | (dsimp +zetaDelta only)

theorem beginReset_rises {a d : Device} (x1 : _) (h : rises a d) : rises a (beginReset x1 d).2 := by
  unfold beginReset
  repeat' first
    | with_reducible assumption | with_reducible rfl | with_reducible apply modTenant_rises
    | (fail_if_no_progress (with_reducible apply mk_rises)) | (fail_if_no_progress (with_reducible refine mkGaffer_rises rfl rfl ?_))
    | with_reducible apply foldl_rises | intro _ | (extract_lets) | (fail_if_no_progress (with_reducible apply mkOut_rises))
    | (fail_if_no_progress (with_reducible apply mkDraws_rises)) | split | (dsimp +zetaDelta only)

theorem dispatchJob_rises {a d : Device} (x1 : CoreRef) (x2 : Job) (h : rises a d) : rises a (dispatchJob x1 x2 d) := by
  have h0 : rises a (decodeRead x2 d).2 := decodeRead_rises _ h
  unfold dispatchJob
  generalize decodeRead x2 d = p at h0 ⊢
  obtain ⟨j, e⟩ := p
  dsimp -zeta only at h0 ⊢
  extract_lets speed eff j1 code j2 d1 d2 _ d3
  have h1 : rises a (if code = 0 then beginReset j1 e else (code, e)).2 := by
    split
    · exact beginReset_rises _ h0
    · exact h0
  have h2 : rises a d1 := coreCount_rises _ _ _ h1
  have h3 : rises a d3 := mkGaffer_rises rfl rfl (modUnit_rises _ _ h2)
  exact doIf_rises _ _ (fun _ hx => dropJob_rises _ _ hx) (traceJob_rises _ _ _ (gafCount_rises _ (modJob_rises _ _ (fun k hk => hk.symm) h3)))

theorem dispatchGo_rises {a d : Device} (x1 : _) (h : rises a d) : rises a (dispatchGo x1 d) := by
  induction x1 generalizing d  with
  | zero => exact h
  | succ n ih =>
    unfold dispatchGo
    repeat' first
      | with_reducible assumption | with_reducible rfl | with_reducible apply ih | with_reducible apply dispatchJob_rises
      | (fail_if_no_progress (with_reducible apply mk_rises)) | (fail_if_no_progress (with_reducible refine mkGaffer_rises rfl rfl ?_))
      | with_reducible apply foldl_rises | intro _ | (extract_lets)
      | (fail_if_no_progress (with_reducible apply mkOut_rises)) | (fail_if_no_progress (with_reducible apply mkDraws_rises)) | split
      | (dsimp +zetaDelta only)

theorem dispatchAll_rises {a d : Device}  (h : rises a d) : rises a (dispatchAll d) := by
  unfold dispatchAll
  repeat' first
    | with_reducible assumption | with_reducible rfl | with_reducible apply expireHeads_rises | with_reducible apply dispatchGo_rises
    | (fail_if_no_progress (with_reducible apply mk_rises)) | (fail_if_no_progress (with_reducible refine mkGaffer_rises rfl rfl ?_))
    | with_reducible apply foldl_rises | intro _ | (extract_lets)
    | (fail_if_no_progress (with_reducible apply mkOut_rises)) | (fail_if_no_progress (with_reducible apply mkDraws_rises)) | split
    | (dsimp +zetaDelta only)

theorem ownStream_rises {a d : Device} (x1 : _) (h : rises a d) : rises a (ownStream x1 d).2 := by
  unfold ownStream
  repeat' first
    | with_reducible assumption | with_reducible rfl | (fail_if_no_progress (with_reducible apply mk_rises))
    | (fail_if_no_progress (with_reducible refine mkGaffer_rises rfl rfl ?_)) | with_reducible apply foldl_rises | intro _ | (extract_lets)
    | (fail_if_no_progress (with_reducible apply mkOut_rises)) | (fail_if_no_progress (with_reducible apply mkDraws_rises)) | split
    | (dsimp +zetaDelta only)

theorem enterJob_rises {a d : Device} (x1 : Job) (x2 : Bool) (x3 : BitVec 3) (h : rises a d) : rises a (enterJob x1 x2 x3 d) := by
  have h0 : rises a (ownStream x1 d).2 := ownStream_rises _ h
  unfold enterJob
  generalize ownStream x1 d = p at h0 ⊢
  obtain ⟨j, e⟩ := p
  dsimp only at h0 ⊢
  split
  · exact expireJob_rises _ (mkJobs_rises (jobs_append _ rfl) h0)
  · refine dispatchAll_rises (wake_rises _ _ (gafCount_rises _ ?_))
    split
    · exact takeToken_rises _ (mkJobs_rises (jobs_append _ rfl) h0)
    · exact mkJobs_rises (jobs_append _ rfl) h0

theorem enterBackground_rises {a d : Device} (x1 : _) (x2 : _) (h : rises a d) : rises a (enterBackground x1 x2 d) := by
  unfold enterBackground
  repeat' first
    | with_reducible assumption | with_reducible rfl | with_reducible apply enterJob_rises
    | (fail_if_no_progress (with_reducible apply mk_rises)) | (fail_if_no_progress (with_reducible refine mkGaffer_rises rfl rfl ?_))
    | with_reducible apply foldl_rises | intro _ | (extract_lets)
    | (fail_if_no_progress (with_reducible apply mkOut_rises)) | (fail_if_no_progress (with_reducible apply mkDraws_rises)) | split
    | (dsimp +zetaDelta only)

theorem refuseJob_rises {a d : Device} (x1 : _) (x2 : _) (h : rises a d) : rises a (refuseJob x1 x2 d) := by
  unfold refuseJob
  exact advancePtr_rises _ (mkJobs_rises (jobs_append _ rfl) h)

theorem cancelJob_rises {a d : Device} (x1 : _) (h : rises a d) : rises a (cancelJob x1 d).1 := by
  unfold cancelJob
  repeat' first
    | with_reducible assumption | with_reducible rfl | with_reducible apply gafCount_rises | with_reducible apply answerJob_rises
    | with_reducible apply traceJob_rises
    | with_reducible apply modJob_rises | (fail_if_no_progress (with_reducible apply mk_rises))
    | (fail_if_no_progress (with_reducible refine mkGaffer_rises rfl rfl ?_)) | with_reducible apply foldl_rises | intro _
    | (extract_lets) | (fail_if_no_progress (with_reducible apply mkOut_rises)) | (fail_if_no_progress (with_reducible apply mkDraws_rises)) | split
    | (dsimp +zetaDelta only)

theorem discardAll_rises {a d : Device} (h : rises a d) : rises a (discardAll d) := by
  unfold discardAll
  refine mkJobs_rises (e := doEach _ _ _) (fun _ => ⟨List.nodup_nil, by simp⟩) ?_
  exact doEach_rises _ _ (fun _ _ hx => dropState_rises _ hx) (doEach_rises _ _ (fun _ _ hx => endGrant_rises _ _ hx)
    (doEach_rises _ _ (fun _ _ hx => freeJobCore_rises _ hx) (mk_rises h)))

theorem deviceReseed_rises {a d : Device} (x1 : _) (h : rises a d) : rises a (deviceReseed x1 d) := by
  unfold deviceReseed
  repeat' first
    | with_reducible assumption | with_reducible rfl
    | (fail_if_no_progress (with_reducible apply mk_rises)) | (fail_if_no_progress (with_reducible refine mkGaffer_rises rfl rfl ?_))
    | with_reducible apply foldl_rises | intro _ | (extract_lets)
    | (fail_if_no_progress (with_reducible apply mkOut_rises)) | (fail_if_no_progress (with_reducible apply mkDraws_rises)) | split
    | (dsimp +zetaDelta only)

theorem forDraw_rises {a d : Device} (x1 : _) (x2 : _) (h : rises a d) : rises a (forDraw x1 x2 d) := by
  unfold forDraw
  repeat' first
    | with_reducible assumption | with_reducible rfl | with_reducible apply deviceReseed_rises
    | (fail_if_no_progress (with_reducible apply mk_rises)) | (fail_if_no_progress (with_reducible refine mkGaffer_rises rfl rfl ?_))
    | with_reducible apply foldl_rises | intro _ | (extract_lets)
    | (fail_if_no_progress (with_reducible apply mkOut_rises)) | (fail_if_no_progress (with_reducible apply mkDraws_rises)) | split
    | (dsimp +zetaDelta only)

theorem withDraw_rises {a d : Device} (k n : Nat) (f : Bytes → Device → Device) (hf : ∀ r x, rises a x → rises a (f r x)) (h : rises a d) :
    rises a (withDraw k n f d) :=
  hf _ _ (spend_rises _ _ (forDraw_rises _ _ h))

theorem withKeyDraw_rises {a d : Device} (n : Nat) (f : Bytes → Device → Device) (hf : ∀ r x, rises a x → rises a (f r x)) (h : rises a d) :
    rises a (withKeyDraw n f d) :=
  hf _ _ (spend_rises _ _ (deviceReseed_rises _ h))

theorem instantiateAll_rises {a d : Device}  (h : rises a d) : rises a (instantiateAll d) := by
  unfold instantiateAll
  repeat' first
    | with_reducible assumption | with_reducible rfl
    | (fail_if_no_progress (with_reducible apply mk_rises)) | (fail_if_no_progress (with_reducible refine mkGaffer_rises rfl rfl ?_))
    | with_reducible apply foldl_rises | intro _ | (extract_lets)
    | (fail_if_no_progress (with_reducible apply mkOut_rises)) | (fail_if_no_progress (with_reducible apply mkDraws_rises)) | split
    | (dsimp +zetaDelta only)

theorem checkService_rises {a d : Device}  (h : rises a d) : rises a (checkService d) := by
  unfold checkService
  repeat' first
    | with_reducible assumption | with_reducible rfl | with_reducible apply emitC_rises | with_reducible apply squashJob_rises
    | with_reducible apply doEach_rises
    | (fail_if_no_progress (with_reducible apply mk_rises)) | (fail_if_no_progress (with_reducible refine mkGaffer_rises rfl rfl ?_))
    | with_reducible apply foldl_rises | intro _ | (extract_lets)
    | (fail_if_no_progress (with_reducible apply mkOut_rises)) | (fail_if_no_progress (with_reducible apply mkDraws_rises)) | split
    | (dsimp +zetaDelta only)

theorem failSource_rises {a d : Device} (x1 : _) (x2 : _) (h : rises a d) : rises a (failSource x1 x2 d) := by
  unfold failSource
  repeat' first
    | with_reducible assumption | with_reducible rfl | with_reducible apply checkService_rises | with_reducible apply emit_rises
    | (fail_if_no_progress (with_reducible apply mk_rises)) | (fail_if_no_progress (with_reducible refine mkGaffer_rises rfl rfl ?_))
    | with_reducible apply foldl_rises | intro _ | (extract_lets)
    | (fail_if_no_progress (with_reducible apply mkOut_rises)) | (fail_if_no_progress (with_reducible apply mkDraws_rises)) | split
    | (dsimp +zetaDelta only)

theorem stopBenchSources_rises {a d : Device} (x1 : _) (h : rises a d) : rises a (stopBenchSources x1 d) := by
  unfold stopBenchSources
  repeat' first
    | with_reducible assumption | with_reducible rfl | with_reducible apply checkService_rises
    | (fail_if_no_progress (with_reducible apply mk_rises)) | (fail_if_no_progress (with_reducible refine mkGaffer_rises rfl rfl ?_))
    | with_reducible apply foldl_rises | intro _ | (extract_lets)
    | (fail_if_no_progress (with_reducible apply mkOut_rises)) | (fail_if_no_progress (with_reducible apply mkDraws_rises)) | split
    | (dsimp +zetaDelta only)

theorem sendMessage_rises {a d : Device} (x1 : _) (x2 : _) (x3 : _) (x4 : _) (x5 : _) (h : rises a d) : rises a (sendMessage x1 x2 x3 x4 x5 d) := by
  unfold sendMessage
  repeat' first
    | with_reducible assumption | with_reducible rfl | with_reducible apply doEach_rises | with_reducible apply sendClear_rises
    | (fail_if_no_progress (with_reducible apply mk_rises)) | (fail_if_no_progress (with_reducible refine mkGaffer_rises rfl rfl ?_))
    | with_reducible apply foldl_rises | intro _ | (extract_lets)
    | (fail_if_no_progress (with_reducible apply mkOut_rises)) | (fail_if_no_progress (with_reducible apply mkDraws_rises)) | split
    | (dsimp +zetaDelta only)

theorem noteNonce_rises {a d : Device} (x1 : _) (x2 : _) (x3 : _) (h : rises a d) : rises a (noteNonce x1 x2 x3 d) := by
  unfold noteNonce
  repeat' first
    | with_reducible assumption | with_reducible rfl
    | (fail_if_no_progress (with_reducible apply mk_rises)) | (fail_if_no_progress (with_reducible refine mkGaffer_rises rfl rfl ?_))
    | with_reducible apply foldl_rises | intro _ | (extract_lets)
    | (fail_if_no_progress (with_reducible apply mkOut_rises)) | (fail_if_no_progress (with_reducible apply mkDraws_rises)) | split
    | (dsimp +zetaDelta only)

theorem openHello_rises {a d : Device} (x1 : _) (x2 : _) (x3 : _) (h : rises a d) : rises a (openHello x1 x2 x3 d) := by
  unfold openHello
  repeat' first
    | with_reducible assumption | with_reducible rfl | with_reducible apply noteNonce_rises | with_reducible apply sendAbort_rises
    | with_reducible apply forDraw_rises | with_reducible apply spend_rises | with_reducible apply sendMessage_rises
    | with_reducible apply pathWrite_rises | with_reducible apply doWith_rises
    | (fail_if_no_progress (with_reducible apply mk_rises)) | (fail_if_no_progress (with_reducible refine mkGaffer_rises rfl rfl ?_))
    | with_reducible apply foldl_rises | intro _ | (extract_lets)
    | (fail_if_no_progress (with_reducible apply mkOut_rises)) | (fail_if_no_progress (with_reducible apply mkDraws_rises)) | split
    | (dsimp +zetaDelta only)

theorem serveHeld_rises {a d : Device}  (h : rises a d) : rises a (serveHeld d) := by
  unfold serveHeld
  repeat' first
    | with_reducible assumption | with_reducible rfl | with_reducible apply openHello_rises | with_reducible apply doEach_rises
    | (fail_if_no_progress (with_reducible apply mk_rises)) | (fail_if_no_progress (with_reducible refine mkGaffer_rises rfl rfl ?_))
    | with_reducible apply foldl_rises | intro _ | (extract_lets)
    | (fail_if_no_progress (with_reducible apply mkOut_rises)) | (fail_if_no_progress (with_reducible apply mkDraws_rises)) | split
    | (dsimp +zetaDelta only)

theorem takeover_rises {a d : Device} (x1 : _) (h : rises a d) : rises a (takeover x1 d) := by
  unfold takeover
  repeat' first
    | with_reducible assumption | with_reducible rfl | with_reducible apply modPath_rises | with_reducible apply tableWrite_rises
    | with_reducible apply emit_rises | with_reducible apply serveHeld_rises | with_reducible apply abortSession_rises
    | with_reducible apply doEach_rises
    | (fail_if_no_progress (with_reducible apply mk_rises)) | (fail_if_no_progress (with_reducible refine mkGaffer_rises rfl rfl ?_))
    | with_reducible apply foldl_rises | intro _ | (extract_lets)
    | (fail_if_no_progress (with_reducible apply mkOut_rises)) | (fail_if_no_progress (with_reducible apply mkDraws_rises)) | split
    | (dsimp +zetaDelta only)

theorem abandonHandover_rises {a d : Device} (h : rises a d) : rises a (abandonHandover d) := by
  unfold abandonHandover
  repeat' first
    | with_reducible assumption | with_reducible rfl | with_reducible apply serveHeld_rises | with_reducible apply modPath_rises
    | (fail_if_no_progress (with_reducible apply mk_rises)) | (fail_if_no_progress (with_reducible refine mkGaffer_rises rfl rfl ?_))
    | with_reducible apply foldl_rises | intro _ | (extract_lets)
    | (fail_if_no_progress (with_reducible apply mkOut_rises)) | (fail_if_no_progress (with_reducible apply mkDraws_rises)) | split
    | (dsimp +zetaDelta only)

theorem fencePath_rises {a d : Device} (x1 : _) (x2 : _) (h : rises a d) : rises a (fencePath x1 x2 d) := by
  unfold fencePath
  repeat' first
    | with_reducible assumption | with_reducible rfl | with_reducible apply abandonHandover_rises | with_reducible apply modPath_rises | with_reducible apply emitVia_rises
    | with_reducible apply openWindow_rises
    | with_reducible apply takeover_rises | (fail_if_no_progress (with_reducible apply mk_rises))
    | (fail_if_no_progress (with_reducible refine mkGaffer_rises rfl rfl ?_)) | with_reducible apply foldl_rises | intro _
    | (extract_lets) | (fail_if_no_progress (with_reducible apply mkOut_rises)) | (fail_if_no_progress (with_reducible apply mkDraws_rises)) | split
    | (dsimp +zetaDelta only)

theorem rescrambleWith_rises {a d : Device} (x1 : _) (x2 : _) (h : rises a d) : rises a (rescrambleWith x1 x2 d) := by
  unfold rescrambleWith
  repeat' first
    | with_reducible assumption | with_reducible rfl | with_reducible apply modBench_rises
    | (fail_if_no_progress (with_reducible apply mk_rises)) | (fail_if_no_progress (with_reducible refine mkGaffer_rises rfl rfl ?_))
    | with_reducible apply foldl_rises | intro _ | (extract_lets)
    | (fail_if_no_progress (with_reducible apply mkOut_rises)) | (fail_if_no_progress (with_reducible apply mkDraws_rises)) | split
    | (dsimp +zetaDelta only)

theorem rescramble_rises {a d : Device} (x1 : _) (h : rises a d) : rises a (rescramble x1 d) := by
  unfold rescramble
  repeat' first
    | with_reducible assumption | with_reducible rfl | with_reducible apply withKeyDraw_rises
    | with_reducible apply rescrambleWith_rises
    | (fail_if_no_progress (with_reducible apply mk_rises)) | (fail_if_no_progress (with_reducible refine mkGaffer_rises rfl rfl ?_))
    | with_reducible apply foldl_rises | intro _ | (extract_lets)
    | (fail_if_no_progress (with_reducible apply mkOut_rises)) | (fail_if_no_progress (with_reducible apply mkDraws_rises)) | split
    | (dsimp +zetaDelta only)

theorem rescrambleAll_rises {a d : Device} (x1 : _) (h : rises a d) : rises a (rescrambleAll x1 d) := by
  unfold rescrambleAll
  repeat' first
    | with_reducible assumption | with_reducible rfl | with_reducible apply rescramble_rises | with_reducible apply modBench_rises
    | with_reducible apply rescrambleWith_rises | with_reducible apply doEach_rises
    | (fail_if_no_progress (with_reducible apply mk_rises)) | (fail_if_no_progress (with_reducible refine mkGaffer_rises rfl rfl ?_))
    | with_reducible apply foldl_rises | intro _ | (extract_lets)
    | (fail_if_no_progress (with_reducible apply mkOut_rises)) | (fail_if_no_progress (with_reducible apply mkDraws_rises)) | split
    | (dsimp +zetaDelta only)

theorem rowDone_rises {a d : Device} (x1 : _) (x2 : _) (h : rises a d) : rises a (rowDone x1 x2 d) := by
  unfold rowDone
  repeat' first
    | with_reducible assumption | with_reducible rfl | with_reducible apply modBench_rises | with_reducible apply rescramble_rises
    | (fail_if_no_progress (with_reducible apply mk_rises)) | (fail_if_no_progress (with_reducible refine mkGaffer_rises rfl rfl ?_))
    | with_reducible apply foldl_rises | intro _ | (extract_lets)
    | (fail_if_no_progress (with_reducible apply mkOut_rises)) | (fail_if_no_progress (with_reducible apply mkDraws_rises)) | split
    | (dsimp +zetaDelta only)

theorem remaskSessions_rises {a d : Device} (x1 : _) (h : rises a d) : rises a (remaskSessions x1 d) := by
  unfold remaskSessions
  repeat' first
    | with_reducible assumption | with_reducible rfl
    | (fail_if_no_progress (with_reducible apply mk_rises)) | (fail_if_no_progress (with_reducible refine mkGaffer_rises rfl rfl ?_))
    | with_reducible apply foldl_rises | intro _ | (extract_lets)
    | (fail_if_no_progress (with_reducible apply mkOut_rises)) | (fail_if_no_progress (with_reducible apply mkDraws_rises)) | split
    | (dsimp +zetaDelta only)

theorem startRemask_rises {a d : Device}  (h : rises a d) : rises a (startRemask d) := by
  unfold startRemask
  repeat' first
    | with_reducible assumption | with_reducible rfl | with_reducible apply withKeyDraw_rises
    | with_reducible apply rescrambleAll_rises | with_reducible apply remaskSessions_rises
    | (fail_if_no_progress (with_reducible apply mk_rises)) | (fail_if_no_progress (with_reducible refine mkGaffer_rises rfl rfl ?_))
    | with_reducible apply foldl_rises | intro _ | (extract_lets)
    | (fail_if_no_progress (with_reducible apply mkOut_rises)) | (fail_if_no_progress (with_reducible apply mkDraws_rises)) | split
    | (dsimp +zetaDelta only)

theorem requestRemask_rises {a d : Device}  (h : rises a d) : rises a (requestRemask d) := by
  unfold requestRemask
  repeat' first
    | with_reducible assumption | with_reducible rfl | with_reducible apply startRemask_rises
    | (fail_if_no_progress (with_reducible apply mk_rises)) | (fail_if_no_progress (with_reducible refine mkGaffer_rises rfl rfl ?_))
    | with_reducible apply foldl_rises | intro _ | (extract_lets)
    | (fail_if_no_progress (with_reducible apply mkOut_rises)) | (fail_if_no_progress (with_reducible apply mkDraws_rises)) | split
    | (dsimp +zetaDelta only)

theorem endRemask_rises {a d : Device}  (h : rises a d) : rises a (endRemask d) := by
  unfold endRemask
  repeat' first
    | with_reducible assumption | with_reducible rfl | with_reducible apply emit_rises | with_reducible apply startRemask_rises
    | (fail_if_no_progress (with_reducible apply mk_rises)) | (fail_if_no_progress (with_reducible refine mkGaffer_rises rfl rfl ?_))
    | with_reducible apply foldl_rises | intro _ | (extract_lets)
    | (fail_if_no_progress (with_reducible apply mkOut_rises)) | (fail_if_no_progress (with_reducible apply mkDraws_rises)) | split
    | (dsimp +zetaDelta only)

theorem loadRoots_rises {a d : Device}  (h : rises a d) : rises a (loadRoots d) := by
  unfold loadRoots
  repeat' first
    | with_reducible assumption | with_reducible rfl | with_reducible apply doEach_rises | with_reducible apply doWith_rises
    | with_reducible apply loadRoot_rises
    | (fail_if_no_progress (with_reducible apply mk_rises)) | (fail_if_no_progress (with_reducible refine mkGaffer_rises rfl rfl ?_))
    | with_reducible apply foldl_rises | intro _ | (extract_lets)
    | (fail_if_no_progress (with_reducible apply mkOut_rises)) | (fail_if_no_progress (with_reducible apply mkDraws_rises)) | split
    | (dsimp +zetaDelta only)

theorem clearUse_rises {a d : Device}  (h : rises a d) : rises a (clearUse d) := by
  unfold clearUse
  repeat' first
    | with_reducible assumption | with_reducible rfl
    | (fail_if_no_progress (with_reducible apply mk_rises)) | (fail_if_no_progress (with_reducible refine mkGaffer_rises rfl rfl ?_))
    | with_reducible apply foldl_rises | intro _ | (extract_lets)
    | (fail_if_no_progress (with_reducible apply mkOut_rises)) | (fail_if_no_progress (with_reducible apply mkDraws_rises)) | split
    | (dsimp +zetaDelta only)

theorem stopWork_rises {a d : Device}  (h : rises a d) : rises a (stopWork d) := by
  unfold stopWork
  repeat' first
    | with_reducible assumption | with_reducible rfl | with_reducible apply clearUse_rises | with_reducible apply discardAll_rises
    | (fail_if_no_progress (with_reducible apply mk_rises)) | (fail_if_no_progress (with_reducible refine mkGaffer_rises rfl rfl ?_))
    | with_reducible apply foldl_rises | intro _ | (extract_lets)
    | (fail_if_no_progress (with_reducible apply mkOut_rises)) | (fail_if_no_progress (with_reducible apply mkDraws_rises)) | split
    | (dsimp +zetaDelta only)

theorem fireCullet_rises {a d : Device}  (h : rises a d) : rises a (fireCullet d) := by
  unfold fireCullet
  repeat' first
    | with_reducible assumption | with_reducible rfl | with_reducible apply freeAllSessions_rises
    | with_reducible apply clearUse_rises | with_reducible apply emitC_rises
    | (fail_if_no_progress (with_reducible apply mk_rises)) | (fail_if_no_progress (with_reducible refine mkGaffer_rises rfl rfl ?_))
    | with_reducible apply foldl_rises | intro _ | (extract_lets)
    | (fail_if_no_progress (with_reducible apply mkOut_rises)) | (fail_if_no_progress (with_reducible apply mkDraws_rises)) | split
    | (dsimp +zetaDelta only)

theorem setLevel_rises {a d : Device} (x1 : _) (x2 : _) (h : rises a d) : rises a (setLevel x1 x2 d) := by
  unfold setLevel
  repeat' first
    | with_reducible assumption | with_reducible rfl | with_reducible apply emitC_rises | with_reducible apply notice_rises
    | (fail_if_no_progress (with_reducible apply mk_rises)) | (fail_if_no_progress (with_reducible refine mkGaffer_rises rfl rfl ?_))
    | with_reducible apply foldl_rises | intro _ | (extract_lets)
    | (fail_if_no_progress (with_reducible apply mkOut_rises)) | (fail_if_no_progress (with_reducible apply mkDraws_rises)) | split
    | (dsimp +zetaDelta only)

theorem respond_rises {a d : Device} (x1 : _) (x2 : _) (x3 : _) (h : rises a d) : rises a (respond x1 x2 x3 d) := by
  unfold respond
  repeat' first
    | with_reducible assumption | with_reducible rfl | with_reducible apply setSource_rises | with_reducible apply fireCullet_rises
    | with_reducible apply freeAllSessions_rises | with_reducible apply stopWork_rises | with_reducible apply noteTransition_rises
    | with_reducible apply emitC_rises | with_reducible apply wake_rises | with_reducible apply setLevel_rises
    | (fail_if_no_progress (with_reducible apply mk_rises)) | (fail_if_no_progress (with_reducible refine mkGaffer_rises rfl rfl ?_))
    | with_reducible apply foldl_rises | intro _ | (extract_lets)
    | (fail_if_no_progress (with_reducible apply mkOut_rises)) | (fail_if_no_progress (with_reducible apply mkDraws_rises)) | split
    | (dsimp +zetaDelta only)

theorem tripSource_rises {a d : Device} (x1 : _) (x2 : _) (h : rises a d) : rises a (tripSource x1 x2 d) := by
  unfold tripSource
  repeat' first
    | with_reducible assumption | with_reducible rfl | with_reducible apply setSource_rises | with_reducible apply respond_rises
    | (fail_if_no_progress (with_reducible apply mk_rises)) | (fail_if_no_progress (with_reducible refine mkGaffer_rises rfl rfl ?_))
    | with_reducible apply foldl_rises | intro _ | (extract_lets)
    | (fail_if_no_progress (with_reducible apply mkOut_rises)) | (fail_if_no_progress (with_reducible apply mkDraws_rises)) | split
    | (dsimp +zetaDelta only)

theorem notice_rises {a d : Device} (x1 : _) (x2 : _) (h : rises a d) : rises a (notice x1 x2 d) := by
  unfold notice
  repeat' first
    | with_reducible assumption | with_reducible rfl | with_reducible apply setSource_rises | with_reducible apply wake_rises
    | with_reducible apply emitC_rises
    | (fail_if_no_progress (with_reducible apply mk_rises)) | (fail_if_no_progress (with_reducible refine mkGaffer_rises rfl rfl ?_))
    | with_reducible apply foldl_rises | intro _ | (extract_lets)
    | (fail_if_no_progress (with_reducible apply mkOut_rises)) | (fail_if_no_progress (with_reducible apply mkDraws_rises)) | split
    | (dsimp +zetaDelta only)

theorem closeUnpermitted_rises {a d : Device}  (h : rises a d) : rises a (closeUnpermitted d) := by
  unfold closeUnpermitted
  repeat' first
    | with_reducible assumption | with_reducible rfl | with_reducible apply setLevel_rises
    | (fail_if_no_progress (with_reducible apply mk_rises)) | (fail_if_no_progress (with_reducible refine mkGaffer_rises rfl rfl ?_))
    | with_reducible apply foldl_rises | intro _ | (extract_lets) | (fail_if_no_progress (with_reducible apply mkOut_rises))
    | (fail_if_no_progress (with_reducible apply mkDraws_rises)) | split | (dsimp +zetaDelta only)

theorem enterLocked_rises {a d : Device} (x1 : _) (h : rises a d) : rises a (enterLocked x1 d) := by
  unfold enterLocked
  repeat' first
    | with_reducible assumption | with_reducible rfl | with_reducible apply burnLock_rises | with_reducible apply stopWork_rises
    | with_reducible apply wake_rises | with_reducible apply closeUnpermitted_rises | with_reducible apply noteTransition_rises
    | (fail_if_no_progress (with_reducible apply mk_rises)) | (fail_if_no_progress (with_reducible refine mkGaffer_rises rfl rfl ?_))
    | with_reducible apply foldl_rises | intro _ | (extract_lets)
    | (fail_if_no_progress (with_reducible apply mkOut_rises)) | (fail_if_no_progress (with_reducible apply mkDraws_rises)) | split
    | (dsimp +zetaDelta only)

theorem beginHeartbeat_rises {a d : Device} (x1 : _) (h : rises a d) : rises a (beginHeartbeat x1 d) := by
  unfold beginHeartbeat
  repeat' first
    | with_reducible assumption | with_reducible rfl | (fail_if_no_progress (with_reducible apply mk_rises))
    | (fail_if_no_progress (with_reducible refine mkGaffer_rises rfl rfl ?_)) | with_reducible apply foldl_rises | intro _ | (extract_lets)
    | (fail_if_no_progress (with_reducible apply mkOut_rises)) | (fail_if_no_progress (with_reducible apply mkDraws_rises)) | split
    | (dsimp +zetaDelta only)

theorem drawStoreKeys_rises {a d : Device} (x1 : Nat) (x2 : Bytes → Device → Device) (hf : ∀ r x, rises a x → rises a (x2 r x)) (h : rises a d) :
    rises a (drawStoreKeys x1 x2 d) :=
  withKeyDraw_rises _ _ (fun _ _ hx => hf _ _ (mk_rises hx)) h

theorem rebuildKeyStore_rises {a d : Device}  (h : rises a d) : rises a (rebuildKeyStore d) := by
  unfold rebuildKeyStore
  repeat' first
    | with_reducible assumption | with_reducible rfl | with_reducible apply drawStoreKeys_rises
    | with_reducible apply loadRoots_rises
    | (fail_if_no_progress (with_reducible apply mk_rises)) | (fail_if_no_progress (with_reducible refine mkGaffer_rises rfl rfl ?_))
    | with_reducible apply foldl_rises | intro _ | (extract_lets)
    | (fail_if_no_progress (with_reducible apply mkOut_rises)) | (fail_if_no_progress (with_reducible apply mkDraws_rises)) | split
    | (dsimp +zetaDelta only)

theorem burnLatch_rises {a d : Device} (x1 : _) (h : rises a d) : rises a (burnLatch x1 d) := by
  unfold burnLatch
  repeat' first
    | with_reducible assumption | with_reducible rfl | with_reducible apply burnLock_rises | with_reducible apply burn_rises
    | with_reducible apply noteTransition_rises
    | (fail_if_no_progress (with_reducible apply mk_rises)) | (fail_if_no_progress (with_reducible refine mkGaffer_rises rfl rfl ?_))
    | with_reducible apply foldl_rises | intro _ | (extract_lets)
    | (fail_if_no_progress (with_reducible apply mkOut_rises)) | (fail_if_no_progress (with_reducible apply mkDraws_rises)) | split
    | (dsimp +zetaDelta only)

theorem burnLatches_rises {a d : Device} (x1 : _) (h : rises a d) : rises a (burnLatches x1 d) := by
  unfold burnLatches
  repeat' first
    | with_reducible assumption | with_reducible rfl | with_reducible apply doEach_rises | with_reducible apply burnLatch_rises
    | (fail_if_no_progress (with_reducible apply mk_rises)) | (fail_if_no_progress (with_reducible refine mkGaffer_rises rfl rfl ?_))
    | with_reducible apply foldl_rises | intro _ | (extract_lets)
    | (fail_if_no_progress (with_reducible apply mkOut_rises)) | (fail_if_no_progress (with_reducible apply mkDraws_rises)) | split
    | (dsimp +zetaDelta only)

theorem closeStartWindow_rises {a d : Device}  (h : rises a d) : rises a (closeStartWindow d) := by
  unfold closeStartWindow
  repeat' first
    | with_reducible assumption | with_reducible rfl | with_reducible apply closeWindow_rises
    | (fail_if_no_progress (with_reducible apply mk_rises)) | (fail_if_no_progress (with_reducible refine mkGaffer_rises rfl rfl ?_))
    | with_reducible apply foldl_rises | intro _ | (extract_lets)
    | (fail_if_no_progress (with_reducible apply mkOut_rises)) | (fail_if_no_progress (with_reducible apply mkDraws_rises)) | split
    | (dsimp +zetaDelta only)

theorem uncountSources_rises {a d : Device}  (h : rises a d) : rises a (uncountSources d) := by
  unfold uncountSources
  repeat' first
    | with_reducible assumption | with_reducible rfl
    | (fail_if_no_progress (with_reducible apply mk_rises)) | (fail_if_no_progress (with_reducible refine mkGaffer_rises rfl rfl ?_))
    | with_reducible apply foldl_rises | intro _ | (extract_lets)
    | (fail_if_no_progress (with_reducible apply mkOut_rises)) | (fail_if_no_progress (with_reducible apply mkDraws_rises)) | split
    | (dsimp +zetaDelta only)

theorem unlockWork_rises {a d : Device}  (h : rises a d) : rises a (unlockWork d) := by
  unfold unlockWork
  repeat' first
    | with_reducible assumption | with_reducible rfl | with_reducible apply burn_rises | with_reducible apply burnLatches_rises
    | with_reducible apply instantiateAll_rises | with_reducible apply noteTransition_rises
    | with_reducible apply uncountSources_rises | with_reducible apply withKeyDraw_rises | with_reducible apply rebuildKeyStore_rises
    | with_reducible apply requestRemask_rises | with_reducible apply closeStartWindow_rises
    | (fail_if_no_progress (with_reducible apply mk_rises)) | (fail_if_no_progress (with_reducible refine mkGaffer_rises rfl rfl ?_))
    | with_reducible apply foldl_rises | intro _ | (extract_lets)
    | (fail_if_no_progress (with_reducible apply mkOut_rises)) | (fail_if_no_progress (with_reducible apply mkDraws_rises)) | split
    | (dsimp +zetaDelta only)

theorem remaskOnExit_rises {a d : Device} (x1 : _) (h : rises a d) : rises a (remaskOnExit x1 d) := by
  unfold remaskOnExit
  repeat' first
    | with_reducible assumption | with_reducible rfl | with_reducible apply requestRemask_rises
    | with_reducible apply instantiateAll_rises | with_reducible apply uncountSources_rises
    | (fail_if_no_progress (with_reducible apply mk_rises)) | (fail_if_no_progress (with_reducible refine mkGaffer_rises rfl rfl ?_))
    | with_reducible apply foldl_rises | intro _ | (extract_lets)
    | (fail_if_no_progress (with_reducible apply mkOut_rises)) | (fail_if_no_progress (with_reducible apply mkDraws_rises)) | split
    | (dsimp +zetaDelta only)

theorem burnRetired_rises {a d : Device} (h : rises a d) : rises a (burnRetired d) := by
  unfold burnRetired
  refine remaskOnExit_rises _ (closeUnpermitted_rises (noteTransition_rises _ (mk_rises ?_)))
  exact mkFuses_rises ⟨fun f => by cases f <;> exact Nat.le_refl _, id, fun _ => rfl, fun _ => id⟩ h

theorem faultKind_rises {a d : Device} (x1 : _) (h : rises a d) : rises a (faultKind x1 d) := by
  unfold faultKind
  repeat' first
    | with_reducible assumption | with_reducible rfl | (fail_if_no_progress (with_reducible apply mk_rises))
    | (fail_if_no_progress (with_reducible refine mkGaffer_rises rfl rfl ?_)) | with_reducible apply foldl_rises | intro _ | (extract_lets)
    | (fail_if_no_progress (with_reducible apply mkOut_rises)) | (fail_if_no_progress (with_reducible apply mkDraws_rises)) | split
    | (dsimp +zetaDelta only)

theorem traceUnit_rises {a d : Device} (x1 : _) (x2 : _) (h : rises a d) : rises a (traceUnit x1 x2 d) := by
  unfold traceUnit
  repeat' first
    | with_reducible assumption | with_reducible rfl | with_reducible apply traceEntry_rises
    | (fail_if_no_progress (with_reducible apply mk_rises)) | (fail_if_no_progress (with_reducible refine mkGaffer_rises rfl rfl ?_))
    | with_reducible apply foldl_rises | intro _ | (extract_lets) | (fail_if_no_progress (with_reducible apply mkOut_rises))
    | (fail_if_no_progress (with_reducible apply mkDraws_rises)) | split | (dsimp +zetaDelta only)

theorem loseState_rises {a d : Device} (x1 : _) (h : rises a d) : rises a (loseState x1 d) := by
  unfold loseState
  repeat' first
    | with_reducible assumption | with_reducible rfl | with_reducible apply squashJob_rises | with_reducible apply reenterJob_rises
    | with_reducible apply modJob_rises | with_reducible apply dropState_rises
    | (fail_if_no_progress (with_reducible apply mk_rises)) | (fail_if_no_progress (with_reducible refine mkGaffer_rises rfl rfl ?_))
    | with_reducible apply foldl_rises | intro _ | (extract_lets)
    | (fail_if_no_progress (with_reducible apply mkOut_rises)) | (fail_if_no_progress (with_reducible apply mkDraws_rises)) | split
    | (dsimp +zetaDelta only)

theorem leaveBench_rises {a d : Device} (x1 : _) (x2 : _) (h : rises a d) : rises a (leaveBench x1 x2 d) := by
  unfold leaveBench
  repeat' first
    | with_reducible assumption | with_reducible rfl | with_reducible apply loseState_rises | with_reducible apply faultJob_rises
    | with_reducible apply modJob_rises
    | (fail_if_no_progress (with_reducible apply mk_rises)) | (fail_if_no_progress (with_reducible refine mkGaffer_rises rfl rfl ?_))
    | with_reducible apply foldl_rises | intro _ | (extract_lets)
    | (fail_if_no_progress (with_reducible apply mkOut_rises)) | (fail_if_no_progress (with_reducible apply mkDraws_rises)) | split
    | (dsimp +zetaDelta only)

theorem closeIfIdle_rises {a d : Device} (x1 : _) (h : rises a d) : rises a (closeIfIdle x1 d) := by
  unfold closeIfIdle
  repeat' first
    | with_reducible assumption | with_reducible rfl | with_reducible apply closeWindow_rises
    | (fail_if_no_progress (with_reducible apply mk_rises)) | (fail_if_no_progress (with_reducible refine mkGaffer_rises rfl rfl ?_))
    | with_reducible apply foldl_rises | intro _ | (extract_lets)
    | (fail_if_no_progress (with_reducible apply mkOut_rises)) | (fail_if_no_progress (with_reducible apply mkDraws_rises)) | split
    | (dsimp +zetaDelta only)

theorem fenceBench_rises {a d : Device} (x1 : _) (x2 : _) (x3 : _) (h : rises a d) : rises a (fenceBench x1 x2 x3 d) := by
  unfold fenceBench
  repeat' first
    | with_reducible assumption | with_reducible rfl | with_reducible apply faultKind_rises | with_reducible apply openWindow_rises
    | with_reducible apply leaveBench_rises | with_reducible apply closeIfIdle_rises | with_reducible apply modBench_rises
    | with_reducible apply stopBenchSources_rises | with_reducible apply startEntry_rises | with_reducible apply traceUnit_rises
    | with_reducible apply dispatchAll_rises | with_reducible apply emitVia_rises | with_reducible apply doEach_rises
    | (fail_if_no_progress (with_reducible apply mk_rises)) | (fail_if_no_progress (with_reducible refine mkGaffer_rises rfl rfl ?_))
    | with_reducible apply foldl_rises | intro _ | (extract_lets)
    | (fail_if_no_progress (with_reducible apply mkOut_rises)) | (fail_if_no_progress (with_reducible apply mkDraws_rises)) | split
    | (dsimp +zetaDelta only)

theorem retireCore_rises {a d : Device} (x1 : _) (h : rises a d) : rises a (retireCore x1 d) := by
  unfold retireCore
  repeat' first
    | with_reducible assumption | with_reducible rfl | with_reducible apply modUnit_rises | with_reducible apply openWindow_rises
    | with_reducible apply emitVia_rises
    | with_reducible apply traceUnit_rises | with_reducible apply fenceBench_rises | (fail_if_no_progress (with_reducible apply mk_rises))
    | (fail_if_no_progress (with_reducible refine mkGaffer_rises rfl rfl ?_))
    | with_reducible apply foldl_rises | intro _ | (extract_lets) | (fail_if_no_progress (with_reducible apply mkOut_rises))
    | (fail_if_no_progress (with_reducible apply mkDraws_rises)) | split | (dsimp +zetaDelta only)

theorem coreFaultWith_rises {a d : Device} (x1 : _) (x2 : _) (h : rises a d) : rises a (coreFaultWith x1 x2 d) := by
  unfold coreFaultWith
  repeat' first
    | with_reducible assumption | with_reducible rfl | with_reducible apply faultJob_rises | with_reducible apply faultKind_rises
    | with_reducible apply coreCount_rises | with_reducible apply modUnit_rises | with_reducible apply retireCore_rises
    | with_reducible apply traceUnit_rises | with_reducible apply dispatchAll_rises | with_reducible apply doWith_rises
    | (fail_if_no_progress (with_reducible apply mk_rises)) | (fail_if_no_progress (with_reducible refine mkGaffer_rises rfl rfl ?_))
    | with_reducible apply foldl_rises | intro _ | (extract_lets)
    | (fail_if_no_progress (with_reducible apply mkOut_rises)) | (fail_if_no_progress (with_reducible apply mkDraws_rises)) | split
    | (dsimp +zetaDelta only)

theorem coreFault_rises {a d : Device} (x1 : _) (h : rises a d) : rises a (coreFault x1 d) := by
  unfold coreFault
  repeat' first
    | with_reducible assumption | with_reducible rfl | with_reducible apply coreFaultWith_rises
    | (fail_if_no_progress (with_reducible apply mk_rises)) | (fail_if_no_progress (with_reducible refine mkGaffer_rises rfl rfl ?_))
    | with_reducible apply foldl_rises | intro _ | (extract_lets) | (fail_if_no_progress (with_reducible apply mkOut_rises))
    | (fail_if_no_progress (with_reducible apply mkDraws_rises)) | split | (dsimp +zetaDelta only)

theorem engineCount_rises {a d : Device} (x1 : _) (x2 : _) (x3 : _) (x4 : _) (h : rises a d) : rises a (engineCount x1 x2 x3 x4 d) := by
  unfold engineCount
  repeat' first
    | with_reducible assumption | with_reducible rfl | with_reducible apply engineAdd_rises
    | (fail_if_no_progress (with_reducible apply mk_rises)) | (fail_if_no_progress (with_reducible refine mkGaffer_rises rfl rfl ?_))
    | with_reducible apply foldl_rises | intro _ | (extract_lets) | (fail_if_no_progress (with_reducible apply mkOut_rises))
    | (fail_if_no_progress (with_reducible apply mkDraws_rises)) | split | (dsimp +zetaDelta only)

theorem withdrawEngine_rises {a d : Device} (x1 : _) (x2 : _) (x3 : _) (x4 : _) (h : rises a d) : rises a (withdrawEngine x1 x2 x3 x4 d) := by
  unfold withdrawEngine
  repeat' first
    | with_reducible assumption | with_reducible rfl | with_reducible apply modEngine_rises | with_reducible apply beginTest_rises
    | (fail_if_no_progress (with_reducible apply mk_rises)) | (fail_if_no_progress (with_reducible refine mkGaffer_rises rfl rfl ?_))
    | with_reducible apply foldl_rises | intro _ | (extract_lets)
    | (fail_if_no_progress (with_reducible apply mkOut_rises)) | (fail_if_no_progress (with_reducible apply mkDraws_rises)) | split
    | (dsimp +zetaDelta only)

theorem retireEngine_rises {a d : Device} (x1 : _) (x2 : _) (x3 : _) (x4 : _) (h : rises a d) : rises a (retireEngine x1 x2 x3 x4 d) := by
  unfold retireEngine
  repeat' first
    | with_reducible assumption | with_reducible rfl | with_reducible apply modEngine_rises | with_reducible apply faultKind_rises
    | with_reducible apply openWindow_rises | with_reducible apply emitVia_rises
    | (fail_if_no_progress (with_reducible apply mk_rises)) | (fail_if_no_progress (with_reducible refine mkGaffer_rises rfl rfl ?_))
    | with_reducible apply foldl_rises | intro _ | (extract_lets)
    | (fail_if_no_progress (with_reducible apply mkOut_rises)) | (fail_if_no_progress (with_reducible apply mkDraws_rises)) | split
    | (dsimp +zetaDelta only)

theorem memoryEvent_rises {a d : Device} (x1 : _) (x2 : _) (x3 : _) (x4 : _) (x5 : _) (h : rises a d) : rises a (memoryEvent x1 x2 x3 x4 x5 d) := by
  unfold memoryEvent
  repeat' first
    | with_reducible assumption | with_reducible rfl | with_reducible apply gafCount_rises | with_reducible apply faultKind_rises
    | with_reducible apply emitVia_rises
    | (fail_if_no_progress (with_reducible apply mk_rises)) | (fail_if_no_progress (with_reducible refine mkGaffer_rises rfl rfl ?_))
    | with_reducible apply foldl_rises | intro _ | (extract_lets)
    | (fail_if_no_progress (with_reducible apply mkOut_rises)) | (fail_if_no_progress (with_reducible apply mkDraws_rises)) | split
    | (dsimp +zetaDelta only)

theorem firmwareRow_rises {a d : Device} (x1 : _) (x2 : _) (h : rises a d) : rises a (firmwareRow x1 x2 d) := by
  unfold firmwareRow
  repeat' first
    | with_reducible assumption | with_reducible rfl | with_reducible apply memoryEvent_rises | with_reducible apply modBench_rises
    | with_reducible apply fenceBench_rises
    | (fail_if_no_progress (with_reducible apply mk_rises)) | (fail_if_no_progress (with_reducible refine mkGaffer_rises rfl rfl ?_))
    | with_reducible apply foldl_rises | intro _ | (extract_lets)
    | (fail_if_no_progress (with_reducible apply mkOut_rises)) | (fail_if_no_progress (with_reducible apply mkDraws_rises)) | split
    | (dsimp +zetaDelta only)

theorem dataRow_rises {a d : Device} (x1 : _) (x2 : _) (x3 : _) (h : rises a d) : rises a (dataRow x1 x2 x3 d) := by
  unfold dataRow
  repeat' first
    | with_reducible assumption | with_reducible rfl | with_reducible apply fenceBench_rises | with_reducible apply memoryEvent_rises
    | with_reducible apply modBench_rises | with_reducible apply dispatchAll_rises | with_reducible apply loseState_rises
    | with_reducible apply faultJob_rises | with_reducible apply doWith_rises | with_reducible apply doEach_rises
    | (fail_if_no_progress (with_reducible apply mk_rises)) | (fail_if_no_progress (with_reducible refine mkGaffer_rises rfl rfl ?_))
    | with_reducible apply foldl_rises | intro _ | (extract_lets)
    | (fail_if_no_progress (with_reducible apply mkOut_rises)) | (fail_if_no_progress (with_reducible apply mkDraws_rises)) | split
    | (dsimp +zetaDelta only)

theorem correctableRow_rises {a d : Device} (x1 : _) (x2 : _) (x3 : _) (x4 : _) (h : rises a d) : rises a (correctableRow x1 x2 x3 x4 d) := by
  unfold correctableRow
  repeat' first
    | with_reducible assumption | with_reducible rfl | with_reducible apply gafCount_rises | with_reducible apply modBench_rises
    | with_reducible apply firmwareRow_rises
    | with_reducible apply dataRow_rises | (fail_if_no_progress (with_reducible apply mk_rises))
    | (fail_if_no_progress (with_reducible refine mkGaffer_rises rfl rfl ?_)) | with_reducible apply foldl_rises | intro _
    | (extract_lets) | (fail_if_no_progress (with_reducible apply mkOut_rises)) | (fail_if_no_progress (with_reducible apply mkDraws_rises)) | split
    | (dsimp +zetaDelta only)

theorem fenceHost_rises {a d : Device} (x1 : _) (h : rises a d) : rises a (fenceHost x1 d) := by
  unfold fenceHost
  repeat' first
    | with_reducible assumption | with_reducible rfl | with_reducible apply faultKind_rises | with_reducible apply openWindow_rises
    | with_reducible apply emitVia_rises
    | (fail_if_no_progress (with_reducible apply mk_rises)) | (fail_if_no_progress (with_reducible refine mkGaffer_rises rfl rfl ?_))
    | with_reducible apply foldl_rises | intro _ | (extract_lets)
    | (fail_if_no_progress (with_reducible apply mkOut_rises)) | (fail_if_no_progress (with_reducible apply mkDraws_rises)) | split
    | (dsimp +zetaDelta only)

theorem fenceNvm_rises {a d : Device} (x1 : _) (h : rises a d) : rises a (fenceNvm x1 d) := by
  unfold fenceNvm
  repeat' first
    | with_reducible assumption | with_reducible rfl | with_reducible apply faultKind_rises | with_reducible apply openWindow_rises
    | with_reducible apply emitVia_rises | with_reducible apply squashJob_rises | with_reducible apply doEach_rises
    | (fail_if_no_progress (with_reducible apply mk_rises)) | (fail_if_no_progress (with_reducible refine mkGaffer_rises rfl rfl ?_))
    | with_reducible apply foldl_rises | intro _ | (extract_lets)
    | (fail_if_no_progress (with_reducible apply mkOut_rises)) | (fail_if_no_progress (with_reducible apply mkDraws_rises)) | split
    | (dsimp +zetaDelta only)

theorem regionSilent_rises {a d : Device} (x1 : _) (x2 : _) (h : rises a d) : rises a (regionSilent x1 x2 d) := by
  unfold regionSilent
  repeat' first
    | with_reducible assumption | with_reducible rfl | with_reducible apply tripSource_rises
    | with_reducible apply beginHeartbeat_rises | with_reducible apply fenceBench_rises | with_reducible apply faultKind_rises
    | with_reducible apply fencePath_rises | with_reducible apply fenceHost_rises | with_reducible apply fenceNvm_rises
    | with_reducible apply doIf_rises
    | (fail_if_no_progress (with_reducible apply mk_rises)) | (fail_if_no_progress (with_reducible refine mkGaffer_rises rfl rfl ?_))
    | with_reducible apply foldl_rises | intro _ | (extract_lets)
    | (fail_if_no_progress (with_reducible apply mkOut_rises)) | (fail_if_no_progress (with_reducible apply mkDraws_rises)) | split
    | (dsimp +zetaDelta only)

theorem setFn_rises {a d : Device} (x1 : _) (x2 : _) (h : rises a d) : rises a (setFn x1 x2 d) := by
  unfold setFn
  repeat' first
    | with_reducible assumption | with_reducible rfl | (fail_if_no_progress (with_reducible apply mk_rises))
    | (fail_if_no_progress (with_reducible refine mkGaffer_rises rfl rfl ?_)) | with_reducible apply foldl_rises | intro _ | (extract_lets)
    | (fail_if_no_progress (with_reducible apply mkOut_rises)) | (fail_if_no_progress (with_reducible apply mkDraws_rises)) | split
    | (dsimp +zetaDelta only)

theorem startNotice_rises {a d : Device} (x1 : _) (h : rises a d) : rises a (startNotice x1 d) := by
  unfold startNotice
  repeat' first
    | with_reducible assumption | with_reducible rfl | with_reducible apply mbxSend_rises | with_reducible apply modFn_rises
    | (fail_if_no_progress (with_reducible apply mk_rises)) | (fail_if_no_progress (with_reducible refine mkGaffer_rises rfl rfl ?_))
    | with_reducible apply foldl_rises | intro _ | (extract_lets)
    | (fail_if_no_progress (with_reducible apply mkOut_rises)) | (fail_if_no_progress (with_reducible apply mkDraws_rises)) | split
    | (dsimp +zetaDelta only)

theorem becomeEnabled_rises {a d : Device} (x1 : _) (h : rises a d) : rises a (becomeEnabled x1 d) := by
  unfold becomeEnabled
  repeat' first
    | with_reducible assumption | with_reducible rfl | with_reducible apply settleQuiesce_rises | with_reducible apply startNotice_rises
    | with_reducible apply modFn_rises
    | (fail_if_no_progress (with_reducible apply mk_rises)) | (fail_if_no_progress (with_reducible refine mkGaffer_rises rfl rfl ?_))
    | with_reducible apply foldl_rises | intro _ | (extract_lets)
    | (fail_if_no_progress (with_reducible apply mkOut_rises)) | (fail_if_no_progress (with_reducible apply mkDraws_rises)) | split
    | (dsimp +zetaDelta only)

theorem startDrain_rises {a d : Device} (x1 : _) (x2 : _) (h : rises a d) : rises a (startDrain x1 x2 d) := by
  unfold startDrain
  extract_lets mine d1 d2
  have h2 : rises a d2 := doEach_rises _ _ (fun _ _ hx => iteRec_rises (dropState_rises _ hx) hx) (modFn_rises _ _ h)
  refine doEach_rises _ _ (fun _ _ hx => advancePtr_rises _ (iteRec_rises (traceJob_rises _ _ _ hx) hx)) ?_
  refine mkJobs_rises (e := d2) (fun hd => ?_) h2
  have hf := jobs_filter (e := d2) (fun j => !(jobOfFn x2 j && j.place == .ready)) hd
  have hi : ∀ j, (if jobOfFn x2 j then drainJob d2 j else j).id = j.id := by
    intro j
    split
    · unfold drainJob; dsimp only; split <;> (try split) <;> rfl
    · rfl
  have he : ((fun j : Job => j.id) ∘ (fun j => if jobOfFn x2 j then drainJob d2 j else j)) = (fun j => j.id) := funext hi
  refine ⟨by rw [List.map_map, he]; exact hf.1, ?_⟩
  intro j m
  obtain ⟨k, hk, rfl⟩ := List.mem_map.mp m
  rw [hi]
  exact hf.2 k hk

theorem drainVfs_rises {a d : Device}  (h : rises a d) : rises a (drainVfs d) := by
  unfold drainVfs
  repeat' first
    | with_reducible assumption | with_reducible rfl | with_reducible apply doEach_rises | with_reducible apply startDrain_rises
    | (fail_if_no_progress (with_reducible apply mk_rises)) | (fail_if_no_progress (with_reducible refine mkGaffer_rises rfl rfl ?_))
    | with_reducible apply foldl_rises | intro _ | (extract_lets)
    | (fail_if_no_progress (with_reducible apply mkOut_rises)) | (fail_if_no_progress (with_reducible apply mkDraws_rises)) | split
    | (dsimp +zetaDelta only)

theorem endDrain_rises {a d : Device} (x1 : _) (h : rises a d) : rises a (endDrain x1 d) := by
  unfold endDrain
  repeat' first
    | with_reducible assumption | with_reducible rfl | with_reducible apply modFn_rises | with_reducible apply mbxSend_rises
    | with_reducible apply becomeEnabled_rises
    | (fail_if_no_progress (with_reducible apply mk_rises)) | (fail_if_no_progress (with_reducible refine mkGaffer_rises rfl rfl ?_))
    | with_reducible apply foldl_rises | intro _ | (extract_lets)
    | (fail_if_no_progress (with_reducible apply mkOut_rises)) | (fail_if_no_progress (with_reducible apply mkDraws_rises)) | split
    | (dsimp +zetaDelta only)

theorem setEnable_rises {a d : Device} (x1 : _) (h : rises a d) : rises a (setEnable x1 d) := by
  unfold setEnable
  repeat' first
    | with_reducible assumption | with_reducible rfl | with_reducible apply becomeEnabled_rises | with_reducible apply modFn_rises
    | (fail_if_no_progress (with_reducible apply mk_rises)) | (fail_if_no_progress (with_reducible refine mkGaffer_rises rfl rfl ?_))
    | with_reducible apply foldl_rises | intro _ | (extract_lets)
    | (fail_if_no_progress (with_reducible apply mkOut_rises)) | (fail_if_no_progress (with_reducible apply mkDraws_rises)) | split
    | (dsimp +zetaDelta only)

theorem clearEnable_rises {a d : Device} (x1 : _) (h : rises a d) : rises a (clearEnable x1 d) := by
  unfold clearEnable
  repeat' first
    | with_reducible assumption | with_reducible rfl | with_reducible apply modFn_rises | with_reducible apply startDrain_rises
    | (fail_if_no_progress (with_reducible apply mk_rises)) | (fail_if_no_progress (with_reducible refine mkGaffer_rises rfl rfl ?_))
    | with_reducible apply foldl_rises | intro _ | (extract_lets)
    | (fail_if_no_progress (with_reducible apply mkOut_rises)) | (fail_if_no_progress (with_reducible apply mkDraws_rises)) | split
    | (dsimp +zetaDelta only)

theorem setQuiesce_rises {a d : Device} (x1 : _) (h : rises a d) : rises a (setQuiesce x1 d) := by
  unfold setQuiesce
  repeat' first
    | with_reducible assumption | with_reducible rfl | with_reducible apply settleQuiesce_rises | with_reducible apply modFn_rises
    | (fail_if_no_progress (with_reducible apply mk_rises)) | (fail_if_no_progress (with_reducible refine mkGaffer_rises rfl rfl ?_))
    | with_reducible apply foldl_rises | intro _ | (extract_lets)
    | (fail_if_no_progress (with_reducible apply mkOut_rises)) | (fail_if_no_progress (with_reducible apply mkDraws_rises)) | split
    | (dsimp +zetaDelta only)

theorem clearQuiesce_rises {a d : Device} (x1 : _) (h : rises a d) : rises a (clearQuiesce x1 d) := by
  unfold clearQuiesce
  repeat' first
    | with_reducible assumption | with_reducible rfl | with_reducible apply modFn_rises | (fail_if_no_progress (with_reducible apply mk_rises))
    | (fail_if_no_progress (with_reducible refine mkGaffer_rises rfl rfl ?_))
    | with_reducible apply foldl_rises | intro _ | (extract_lets) | (fail_if_no_progress (with_reducible apply mkOut_rises))
    | (fail_if_no_progress (with_reducible apply mkDraws_rises)) | split | (dsimp +zetaDelta only)

theorem setIntEnable_rises {a d : Device} (x1 : _) (x2 : _) (h : rises a d) : rises a (setIntEnable x1 x2 d) := by
  unfold setIntEnable
  repeat' first
    | with_reducible assumption | with_reducible rfl | with_reducible apply modQueue_rises | with_reducible apply fireVector_rises
    | (fail_if_no_progress (with_reducible apply mk_rises)) | (fail_if_no_progress (with_reducible refine mkGaffer_rises rfl rfl ?_))
    | with_reducible apply foldl_rises | intro _ | (extract_lets)
    | (fail_if_no_progress (with_reducible apply mkOut_rises)) | (fail_if_no_progress (with_reducible apply mkDraws_rises)) | split
    | (dsimp +zetaDelta only)

theorem writeQueueCfg_rises {a d : Device} (x1 : _) (x2 : _) (x3 : _) (h : rises a d) : rises a (writeQueueCfg x1 x2 x3 d) := by
  unfold writeQueueCfg
  repeat' first
    | with_reducible assumption | with_reducible rfl | with_reducible apply modQueue_rises | with_reducible apply setIntEnable_rises
    | with_reducible apply queueFault_rises | with_reducible apply settleQueue_rises
    | (fail_if_no_progress (with_reducible apply mk_rises)) | (fail_if_no_progress (with_reducible refine mkGaffer_rises rfl rfl ?_))
    | with_reducible apply foldl_rises | intro _ | (extract_lets)
    | (fail_if_no_progress (with_reducible apply mkOut_rises)) | (fail_if_no_progress (with_reducible apply mkDraws_rises)) | split
    | (dsimp +zetaDelta only)

theorem handWrite_rises {a d : Device} (x1 : _) (x2 : _) (h : rises a d) : rises a (handWrite x1 x2 d) := by
  unfold handWrite
  repeat' first
    | with_reducible assumption | with_reducible rfl | (fail_if_no_progress (with_reducible apply mk_rises))
    | (fail_if_no_progress (with_reducible refine mkGaffer_rises rfl rfl ?_)) | with_reducible apply foldl_rises | intro _ | (extract_lets)
    | (fail_if_no_progress (with_reducible apply mkOut_rises)) | (fail_if_no_progress (with_reducible apply mkDraws_rises)) | split
    | (dsimp +zetaDelta only)

theorem makeCeiling_rises {a d : Device} (x1 : _) (x2 : _) (x3 : _) (x4 : _) (h : rises a d) : rises a (makeCeiling x1 x2 x3 x4 d).2 := by
  unfold makeCeiling
  repeat' first
    | with_reducible assumption | with_reducible rfl | (fail_if_no_progress (with_reducible apply mk_rises))
    | (fail_if_no_progress (with_reducible refine mkGaffer_rises rfl rfl ?_)) | with_reducible apply foldl_rises | intro _ | (extract_lets)
    | (fail_if_no_progress (with_reducible apply mkOut_rises)) | (fail_if_no_progress (with_reducible apply mkDraws_rises)) | split
    | (dsimp +zetaDelta only)

theorem adviseCeiling_rises {a d : Device} (x1 : _) (x2 : _) (x3 : _) (x4 : _) (h : rises a d) : rises a (adviseCeiling x1 x2 x3 x4 d) := by
  unfold adviseCeiling
  repeat' first
    | with_reducible assumption | with_reducible rfl | with_reducible apply makeCeiling_rises | with_reducible apply handWrite_rises
    | (fail_if_no_progress (with_reducible apply mk_rises)) | (fail_if_no_progress (with_reducible refine mkGaffer_rises rfl rfl ?_))
    | with_reducible apply foldl_rises | intro _ | (extract_lets)
    | (fail_if_no_progress (with_reducible apply mkOut_rises)) | (fail_if_no_progress (with_reducible apply mkDraws_rises)) | split
    | (dsimp +zetaDelta only)

theorem applyWrite_rises {a d : Device} (x1 : _) (h : rises a d) : rises a (applyWrite x1 d) := by
  unfold applyWrite
  repeat' first
    | with_reducible assumption | with_reducible rfl
    | (fail_if_no_progress (with_reducible apply mk_rises)) | (fail_if_no_progress (with_reducible refine mkGaffer_rises rfl rfl ?_))
    | with_reducible apply foldl_rises | intro _ | (extract_lets)
    | (fail_if_no_progress (with_reducible apply mkOut_rises)) | (fail_if_no_progress (with_reducible apply mkDraws_rises)) | split
    | (dsimp +zetaDelta only)

theorem applyWrites_rises {a d : Device} (x1 : _) (h : rises a d) : rises a (applyWrites x1 d) := by
  unfold applyWrites
  repeat' first
    | with_reducible assumption | with_reducible rfl | with_reducible apply applyWrite_rises | with_reducible apply doEach_rises
    | (fail_if_no_progress (with_reducible apply mk_rises)) | (fail_if_no_progress (with_reducible refine mkGaffer_rises rfl rfl ?_))
    | with_reducible apply foldl_rises | intro _ | (extract_lets)
    | (fail_if_no_progress (with_reducible apply mkOut_rises)) | (fail_if_no_progress (with_reducible apply mkDraws_rises)) | split
    | (dsimp +zetaDelta only)

theorem ringWrite_rises {a d : Device} (x1 : _) (x2 : _) (x3 : _) (h : rises a d) : rises a (ringWrite x1 x2 x3 d).1 := by
  unfold ringWrite
  repeat' first
    | with_reducible assumption | with_reducible rfl | with_reducible apply modFn_rises | with_reducible apply denied_rises
    | (fail_if_no_progress (with_reducible apply mk_rises)) | (fail_if_no_progress (with_reducible refine mkGaffer_rises rfl rfl ?_))
    | with_reducible apply foldl_rises | intro _ | (extract_lets)
    | (fail_if_no_progress (with_reducible apply mkOut_rises)) | (fail_if_no_progress (with_reducible apply mkDraws_rises)) | split
    | (dsimp +zetaDelta only)

theorem setSuite_rises {a d : Device} (x1 : _) (x2 : _) (h : rises a d) : rises a (setSuite x1 x2 d) := by
  unfold setSuite
  repeat' first
    | with_reducible assumption | with_reducible rfl
    | (fail_if_no_progress (with_reducible apply mk_rises)) | (fail_if_no_progress (with_reducible refine mkGaffer_rises rfl rfl ?_))
    | with_reducible apply foldl_rises | intro _ | (extract_lets)
    | (fail_if_no_progress (with_reducible apply mkOut_rises)) | (fail_if_no_progress (with_reducible apply mkDraws_rises)) | split
    | (dsimp +zetaDelta only)

theorem issueBlock_rises {a d : Device} (x1 : _) (x2 : _) (x3 : _) (x4 : _) (h : rises a d) : rises a (issueBlock x1 x2 x3 x4 d).1 := by
  unfold issueBlock
  repeat' first
    | with_reducible assumption | with_reducible rfl | with_reducible apply ringWrite_rises | with_reducible apply setSuite_rises
    | (fail_if_no_progress (with_reducible apply mk_rises)) | (fail_if_no_progress (with_reducible refine mkGaffer_rises rfl rfl ?_))
    | with_reducible apply foldl_rises | intro _ | (extract_lets)
    | (fail_if_no_progress (with_reducible apply mkOut_rises)) | (fail_if_no_progress (with_reducible apply mkDraws_rises)) | split
    | (dsimp +zetaDelta only)

theorem issueAtCommit_rises {a d : Device} (x1 : _) (x2 : _) (x3 : _) (h : rises a d) : rises a (issueAtCommit x1 x2 x3 d).1 := by
  unfold issueAtCommit
  repeat' first
    | with_reducible assumption | with_reducible rfl | with_reducible apply forDraw_rises | with_reducible apply issueBlock_rises
    | with_reducible apply spend_rises
    | (fail_if_no_progress (with_reducible apply mk_rises)) | (fail_if_no_progress (with_reducible refine mkGaffer_rises rfl rfl ?_))
    | with_reducible apply foldl_rises | intro _ | (extract_lets)
    | (fail_if_no_progress (with_reducible apply mkOut_rises)) | (fail_if_no_progress (with_reducible apply mkDraws_rises)) | split
    | (dsimp +zetaDelta only)

theorem touchHead_rises {a d : Device} (x1 : _) (h : rises a d) : rises a (touchHead x1 d) := by
  unfold touchHead
  repeat' first
    | with_reducible assumption | with_reducible rfl | with_reducible apply issueAtCommit_rises | with_reducible apply setSuite_rises
    | (fail_if_no_progress (with_reducible apply mk_rises)) | (fail_if_no_progress (with_reducible refine mkGaffer_rises rfl rfl ?_))
    | with_reducible apply foldl_rises | intro _ | (extract_lets)
    | (fail_if_no_progress (with_reducible apply mkOut_rises)) | (fail_if_no_progress (with_reducible apply mkDraws_rises)) | split
    | (dsimp +zetaDelta only)

theorem gateIndex_rises {a d : Device} (x1 : _) (x2 : _) (x3 : _) (h : rises a d) : rises a (gateIndex x1 x2 x3 d).1 := by
  unfold gateIndex
  repeat' first
    | with_reducible assumption | with_reducible rfl | with_reducible apply makeCeiling_rises | with_reducible apply handWrite_rises
    | (fail_if_no_progress (with_reducible apply mk_rises)) | (fail_if_no_progress (with_reducible refine mkGaffer_rises rfl rfl ?_))
    | with_reducible apply foldl_rises | intro _ | (extract_lets)
    | (fail_if_no_progress (with_reducible apply mkOut_rises)) | (fail_if_no_progress (with_reducible apply mkDraws_rises)) | split
    | (dsimp +zetaDelta only)

theorem gateIntent_rises {a d : Device} (x1 : _) (x2 : _) (x3 : _) (h : rises a d) : rises a (gateIntent x1 x2 x3 d).1 := by
  unfold gateIntent
  repeat' first
    | with_reducible assumption | with_reducible rfl | with_reducible apply makeCeiling_rises | with_reducible apply handWrite_rises
    | with_reducible apply gateIndex_rises | with_reducible apply forDraw_rises | with_reducible apply spend_rises
    | (fail_if_no_progress (with_reducible apply mk_rises)) | (fail_if_no_progress (with_reducible refine mkGaffer_rises rfl rfl ?_))
    | with_reducible apply foldl_rises | intro _ | (extract_lets)
    | (fail_if_no_progress (with_reducible apply mkOut_rises)) | (fail_if_no_progress (with_reducible apply mkDraws_rises)) | split
    | (dsimp +zetaDelta only)

theorem handGates_rises {a d : Device} (x1 : Job) (x2 : Staged) (h : rises a d) : rises a (handGates x1 x2 d).1 := by
  suffices go : ∀ (is : List Intent) p, rises a p.1 → rises a (List.foldl (fun (p : Device × List Nat) i => (((gateIntent x1.tenant x1.id i p.1).1, p.2 ++ (gateIntent x1.tenant x1.id i p.1).2) : Device × List Nat)) p is).1 from go _ (d, []) h
  intro is
  induction is with
  | nil => exact fun p hp => hp
  | cons i is ih => exact fun p hp => ih _ (gateIntent_rises _ _ _ hp)

theorem reserveAhead_rises {a d : Device} (x1 : _) (x2 : _) (x3 : _) (h : rises a d) : rises a (reserveAhead x1 x2 x3 d) := by
  unfold reserveAhead
  repeat' first
    | with_reducible assumption | with_reducible rfl | with_reducible apply doWith_rises | with_reducible apply adviseCeiling_rises
    | (fail_if_no_progress (with_reducible apply mk_rises)) | (fail_if_no_progress (with_reducible refine mkGaffer_rises rfl rfl ?_))
    | with_reducible apply foldl_rises | intro _ | (extract_lets)
    | (fail_if_no_progress (with_reducible apply mkOut_rises)) | (fail_if_no_progress (with_reducible apply mkDraws_rises)) | split
    | (dsimp +zetaDelta only)

theorem oweBlock_rises {a d : Device} (x1 : _) (h : rises a d) : rises a (oweBlock x1 d) := by
  unfold oweBlock
  repeat' first
    | with_reducible assumption | with_reducible rfl
    | (fail_if_no_progress (with_reducible apply mk_rises)) | (fail_if_no_progress (with_reducible refine mkGaffer_rises rfl rfl ?_))
    | with_reducible apply foldl_rises | intro _ | (extract_lets)
    | (fail_if_no_progress (with_reducible apply mkOut_rises)) | (fail_if_no_progress (with_reducible apply mkDraws_rises)) | split
    | (dsimp +zetaDelta only)

theorem createKey_rises {a d : Device} (x1 : _) (x2 : _) (h : rises a d) : rises a (createKey x1 x2 d).1 := by
  unfold createKey
  repeat' first
    | with_reducible assumption | with_reducible rfl | with_reducible apply oweBlock_rises
    | (fail_if_no_progress (with_reducible apply mk_rises)) | (fail_if_no_progress (with_reducible refine mkGaffer_rises rfl rfl ?_))
    | with_reducible apply foldl_rises | intro _ | (extract_lets)
    | (fail_if_no_progress (with_reducible apply mkOut_rises)) | (fail_if_no_progress (with_reducible apply mkDraws_rises)) | split
    | (dsimp +zetaDelta only)

theorem dropCaches_rises {a d : Device} (x1 : _) (h : rises a d) : rises a (dropCaches x1 d) := by
  unfold dropCaches
  repeat' first
    | with_reducible assumption | with_reducible rfl | (fail_if_no_progress (with_reducible apply mk_rises))
    | (fail_if_no_progress (with_reducible refine mkGaffer_rises rfl rfl ?_)) | with_reducible apply foldl_rises | intro _ | (extract_lets)
    | (fail_if_no_progress (with_reducible apply mkOut_rises)) | (fail_if_no_progress (with_reducible apply mkDraws_rises)) | split
    | (dsimp +zetaDelta only)

theorem deleteKeyOf_rises {a d : Device} (x1 : _) (h : rises a d) : rises a (deleteKeyOf x1 d) := by
  unfold deleteKeyOf
  repeat' first
    | with_reducible assumption | with_reducible rfl | with_reducible apply dropCaches_rises
    | with_reducible apply adviseCeiling_rises | with_reducible apply doWith_rises
    | (fail_if_no_progress (with_reducible apply mk_rises)) | (fail_if_no_progress (with_reducible refine mkGaffer_rises rfl rfl ?_))
    | with_reducible apply foldl_rises | intro _ | (extract_lets)
    | (fail_if_no_progress (with_reducible apply mkOut_rises)) | (fail_if_no_progress (with_reducible apply mkDraws_rises)) | split
    | (dsimp +zetaDelta only)

theorem rewriteHead_rises {a d : Device} (x1 : _) (x2 : _) (h : rises a d) : rises a (rewriteHead x1 x2 d) := by
  unfold rewriteHead
  repeat' first
    | with_reducible assumption | with_reducible rfl | with_reducible apply touchHead_rises
    | (fail_if_no_progress (with_reducible apply mk_rises)) | (fail_if_no_progress (with_reducible refine mkGaffer_rises rfl rfl ?_))
    | with_reducible apply foldl_rises | intro _ | (extract_lets)
    | (fail_if_no_progress (with_reducible apply mkOut_rises)) | (fail_if_no_progress (with_reducible apply mkDraws_rises)) | split
    | (dsimp +zetaDelta only)

theorem cacheInstall_rises {a d : Device} (x1 : _) (x2 : _) (x3 : _) (x4 : _) (h : rises a d) : rises a (cacheInstall x1 x2 x3 x4 d) := by
  unfold cacheInstall
  repeat' first
    | with_reducible assumption | with_reducible rfl | with_reducible apply modBench_rises
    | (fail_if_no_progress (with_reducible apply mk_rises)) | (fail_if_no_progress (with_reducible refine mkGaffer_rises rfl rfl ?_))
    | with_reducible apply foldl_rises | intro _ | (extract_lets)
    | (fail_if_no_progress (with_reducible apply mkOut_rises)) | (fail_if_no_progress (with_reducible apply mkDraws_rises)) | split
    | (dsimp +zetaDelta only)

theorem enterSweep_rises {a d : Device} (x1 : _) (x2 : _) (h : rises a d) : rises a (enterSweep x1 x2 d) := by
  unfold enterSweep
  repeat' first
    | with_reducible assumption | with_reducible rfl | with_reducible apply enterBackground_rises
    | (fail_if_no_progress (with_reducible apply mk_rises)) | (fail_if_no_progress (with_reducible refine mkGaffer_rises rfl rfl ?_))
    | with_reducible apply foldl_rises | intro _ | (extract_lets)
    | (fail_if_no_progress (with_reducible apply mkOut_rises)) | (fail_if_no_progress (with_reducible apply mkDraws_rises)) | split
    | (dsimp +zetaDelta only)

theorem offerSweeps_rises {a d : Device}  (h : rises a d) : rises a (offerSweeps d) := by
  unfold offerSweeps
  repeat' first
    | with_reducible assumption | with_reducible rfl | with_reducible apply enterSweep_rises | with_reducible apply doEach_rises
    | (fail_if_no_progress (with_reducible apply mk_rises)) | (fail_if_no_progress (with_reducible refine mkGaffer_rises rfl rfl ?_))
    | with_reducible apply foldl_rises | intro _ | (extract_lets)
    | (fail_if_no_progress (with_reducible apply mkOut_rises)) | (fail_if_no_progress (with_reducible apply mkDraws_rises)) | split
    | (dsimp +zetaDelta only)

theorem resumeSweeps_rises {a d : Device}  (h : rises a d) : rises a (resumeSweeps d) := by
  unfold resumeSweeps
  repeat' first
    | with_reducible assumption | with_reducible rfl | with_reducible apply enterSweep_rises | with_reducible apply doEach_rises
    | (fail_if_no_progress (with_reducible apply mk_rises)) | (fail_if_no_progress (with_reducible refine mkGaffer_rises rfl rfl ?_))
    | with_reducible apply foldl_rises | intro _ | (extract_lets)
    | (fail_if_no_progress (with_reducible apply mkOut_rises)) | (fail_if_no_progress (with_reducible apply mkDraws_rises)) | split
    | (dsimp +zetaDelta only)

theorem openSweepOf_rises {a d : Device} (x1 : _) (h : rises a d) : rises a (openSweepOf x1 d) := by
  unfold openSweepOf
  repeat' first
    | with_reducible assumption | with_reducible rfl | with_reducible apply complete_rises | with_reducible apply enterSweep_rises
    | (fail_if_no_progress (with_reducible apply mk_rises)) | (fail_if_no_progress (with_reducible refine mkGaffer_rises rfl rfl ?_))
    | with_reducible apply foldl_rises | intro _ | (extract_lets)
    | (fail_if_no_progress (with_reducible apply mkOut_rises)) | (fail_if_no_progress (with_reducible apply mkDraws_rises)) | split
    | (dsimp +zetaDelta only)

theorem openRotation_rises {a d : Device} (x1 : _) (x2 : _) (x3 : _) (h : rises a d) : rises a (openRotation x1 x2 x3 d) := by
  unfold openRotation
  repeat' first
    | with_reducible assumption | with_reducible rfl | with_reducible apply openSweepOf_rises | with_reducible apply loadRoot_rises
    | (fail_if_no_progress (with_reducible apply mk_rises)) | (fail_if_no_progress (with_reducible refine mkGaffer_rises rfl rfl ?_))
    | with_reducible apply foldl_rises | intro _ | (extract_lets)
    | (fail_if_no_progress (with_reducible apply mkOut_rises)) | (fail_if_no_progress (with_reducible apply mkDraws_rises)) | split
    | (dsimp +zetaDelta only)

theorem sweepComplete_rises {a d : Device} (x1 : _) (h : rises a d) : rises a (sweepComplete x1 d) := by
  unfold sweepComplete
  repeat' first
    | with_reducible assumption | with_reducible rfl | with_reducible apply complete_rises | with_reducible apply mbxSend_rises
    | with_reducible apply emit_rises
    | (fail_if_no_progress (with_reducible apply mk_rises)) | (fail_if_no_progress (with_reducible refine mkGaffer_rises rfl rfl ?_))
    | with_reducible apply foldl_rises | intro _ | (extract_lets)
    | (fail_if_no_progress (with_reducible apply mkOut_rises)) | (fail_if_no_progress (with_reducible apply mkDraws_rises)) | split
    | (dsimp +zetaDelta only)

theorem sweepGo_rises {a d : Device} (x1 : Nat) (x2 : List Nat) (x3 : Bytes) (h : rises a d) : rises a (sweepGo x1 x2 x3 d) := by
  induction x2 generalizing d x3 with
  | nil => exact h
  | cons i rest ih =>
    unfold sweepGo
    dsimp only
    split
    · split
      · exact h
      · split
        · exact ih _ (mk_rises (issueBlock_rises _ _ _ _ h))
        · exact mk_rises (issueBlock_rises _ _ _ _ h)
    · exact ih _ (mk_rises h)

theorem commitSweep_rises {a d : Device} (x1 : _) (x2 : _) (h : rises a d) : rises a (commitSweep x1 x2 d) := by
  unfold commitSweep
  repeat' first
    | with_reducible assumption | with_reducible rfl | with_reducible apply sweepGo_rises | with_reducible apply sweepComplete_rises
    | (fail_if_no_progress (with_reducible apply mk_rises)) | (fail_if_no_progress (with_reducible refine mkGaffer_rises rfl rfl ?_))
    | with_reducible apply foldl_rises | intro _ | (extract_lets)
    | (fail_if_no_progress (with_reducible apply mkOut_rises)) | (fail_if_no_progress (with_reducible apply mkDraws_rises)) | split
    | (dsimp +zetaDelta only)

theorem closeRotation_rises {a d : Device} (x1 : _) (h : rises a d) : rises a (closeRotation x1 d) := by
  unfold closeRotation
  repeat' first
    | with_reducible assumption | with_reducible rfl | (fail_if_no_progress (with_reducible apply mk_rises))
    | (fail_if_no_progress (with_reducible refine mkGaffer_rises rfl rfl ?_)) | with_reducible apply foldl_rises | intro _ | (extract_lets)
    | (fail_if_no_progress (with_reducible apply mkOut_rises)) | (fail_if_no_progress (with_reducible apply mkDraws_rises)) | split
    | (dsimp +zetaDelta only)

theorem powerAction_rises {a d : Device} (x1 : _) (x2 : _) (h : rises a d) : rises a (powerAction x1 x2 d) := by
  unfold powerAction
  repeat' first
    | with_reducible assumption | with_reducible rfl | with_reducible apply pwrCount_rises | with_reducible apply setLevel_rises
    | (fail_if_no_progress (with_reducible apply mk_rises)) | (fail_if_no_progress (with_reducible refine mkGaffer_rises rfl rfl ?_))
    | with_reducible apply foldl_rises | intro _ | (extract_lets)
    | (fail_if_no_progress (with_reducible apply mkOut_rises)) | (fail_if_no_progress (with_reducible apply mkDraws_rises)) | split
    | (dsimp +zetaDelta only)

theorem keepComponent_rises {a d : Device} (x1 : _) (x2 : _) (x3 : _) (h : rises a d) : rises a (keepComponent x1 x2 x3 d) := by
  unfold keepComponent
  repeat' first
    | with_reducible assumption | with_reducible rfl | (fail_if_no_progress (with_reducible apply mk_rises))
    | (fail_if_no_progress (with_reducible refine mkGaffer_rises rfl rfl ?_)) | with_reducible apply foldl_rises | intro _ | (extract_lets)
    | (fail_if_no_progress (with_reducible apply mkOut_rises)) | (fail_if_no_progress (with_reducible apply mkDraws_rises)) | split
    | (dsimp +zetaDelta only)

theorem endSession_rises {a d : Device} (x1 : _) (h : rises a d) : rises a (endSession x1 d) := by
  unfold endSession
  repeat' first
    | with_reducible assumption | with_reducible rfl | (fail_if_no_progress (with_reducible apply mk_rises))
    | (fail_if_no_progress (with_reducible refine mkGaffer_rises rfl rfl ?_)) | with_reducible apply foldl_rises | intro _ | (extract_lets)
    | (fail_if_no_progress (with_reducible apply mkOut_rises)) | (fail_if_no_progress (with_reducible apply mkDraws_rises)) | split
    | (dsimp +zetaDelta only)

theorem beginSession_rises {a d : Device} (x1 : _) (x2 : _) (x3 : _) (h : rises a d) : rises a (beginSession x1 x2 x3 d) := by
  unfold beginSession
  repeat' first
    | with_reducible assumption | with_reducible rfl
    | (fail_if_no_progress (with_reducible apply mk_rises)) | (fail_if_no_progress (with_reducible refine mkGaffer_rises rfl rfl ?_))
    | with_reducible apply foldl_rises | intro _ | (extract_lets)
    | (fail_if_no_progress (with_reducible apply mkOut_rises)) | (fail_if_no_progress (with_reducible apply mkDraws_rises)) | split
    | (dsimp +zetaDelta only)

theorem openQuorum_rises {a d : Device} (x1 : _) (x2 : _) (x3 : _) (h : rises a d) : rises a (openQuorum x1 x2 x3 d) := by
  unfold openQuorum
  repeat' first
    | with_reducible assumption | with_reducible rfl
    | (fail_if_no_progress (with_reducible apply mk_rises)) | (fail_if_no_progress (with_reducible refine mkGaffer_rises rfl rfl ?_))
    | with_reducible apply foldl_rises | intro _ | (extract_lets)
    | (fail_if_no_progress (with_reducible apply mkOut_rises)) | (fail_if_no_progress (with_reducible apply mkDraws_rises)) | split
    | (dsimp +zetaDelta only)

theorem writeIntent_rises {a d : Device} (x1 : _) (x2 : _) (h : rises a d) : rises a (writeIntent x1 x2 d).1 := by
  unfold writeIntent
  repeat' first
    | with_reducible assumption | with_reducible rfl | with_reducible apply touchHead_rises | with_reducible apply createKey_rises
    | with_reducible apply deleteKeyOf_rises | with_reducible apply rewriteHead_rises | with_reducible apply reserveAhead_rises
    | with_reducible apply cacheInstall_rises | with_reducible apply openRotation_rises | with_reducible apply openSweepOf_rises
    | with_reducible apply closeRotation_rises | with_reducible apply powerAction_rises | with_reducible apply loadRoot_rises
    | with_reducible apply keepComponent_rises | with_reducible apply endSession_rises | with_reducible apply beginSession_rises
    | with_reducible apply openQuorum_rises | with_reducible apply enterLocked_rises | with_reducible apply burnRetired_rises
    | with_reducible apply commitSweep_rises | with_reducible apply doEach_rises
    | (fail_if_no_progress (with_reducible apply mk_rises)) | (fail_if_no_progress (with_reducible refine mkGaffer_rises rfl rfl ?_))
    | with_reducible apply foldl_rises | intro _ | (extract_lets)
    | (fail_if_no_progress (with_reducible apply mkOut_rises)) | (fail_if_no_progress (with_reducible apply mkDraws_rises)) | split
    | (dsimp +zetaDelta only)

theorem writeIntents_rises {a d : Device} (x1 : Job) (x2 : List Intent) (h : rises a d) : rises a (writeIntents x1 x2 d).1 := by
  suffices go : ∀ (is : List Intent) p, rises a p.1 → rises a (List.foldl (fun (p : Device × Option (BitVec 32)) i => (((writeIntent x1 i p.1).1, match (writeIntent x1 i p.1).2 with | some h => some h | none => p.2) : Device × Option (BitVec 32))) p is).1 from go _ (d, none) h
  intro is
  induction is with
  | nil => exact fun p hp => hp
  | cons i is ih => exact fun p hp => ih _ (writeIntent_rises _ _ hp)

theorem chargeRefusal_rises {a d : Device} (x1 : _) (h : rises a d) : rises a (chargeRefusal x1 d) := by
  unfold chargeRefusal
  repeat' first
    | with_reducible assumption | with_reducible rfl | with_reducible apply charge_rises | with_reducible apply doEach_rises
    | (fail_if_no_progress (with_reducible apply mk_rises)) | (fail_if_no_progress (with_reducible refine mkGaffer_rises rfl rfl ?_))
    | with_reducible apply foldl_rises | intro _ | (extract_lets)
    | (fail_if_no_progress (with_reducible apply mkOut_rises)) | (fail_if_no_progress (with_reducible apply mkDraws_rises)) | split
    | (dsimp +zetaDelta only)

theorem giveVerdict_rises {a d : Device} (x1 : _) (x2 : _) (h : rises a d) : rises a (giveVerdict x1 x2 d) := by
  unfold giveVerdict
  repeat' first
    | with_reducible assumption | with_reducible rfl | with_reducible apply modJob_rises | with_reducible apply dropGrants_rises
    | with_reducible apply chargeRefusal_rises
    | (fail_if_no_progress (with_reducible apply mk_rises)) | (fail_if_no_progress (with_reducible refine mkGaffer_rises rfl rfl ?_))
    | with_reducible apply foldl_rises | intro _ | (extract_lets)
    | (fail_if_no_progress (with_reducible apply mkOut_rises)) | (fail_if_no_progress (with_reducible apply mkDraws_rises)) | split
    | (dsimp +zetaDelta only)

theorem pairFault_rises {a d : Device} (x1 : _) (h : rises a d) : rises a (pairFault x1 d) := by
  unfold pairFault
  repeat' first
    | with_reducible assumption | with_reducible rfl | with_reducible apply coreFaultWith_rises
    | (fail_if_no_progress (with_reducible apply mk_rises)) | (fail_if_no_progress (with_reducible refine mkGaffer_rises rfl rfl ?_))
    | with_reducible apply foldl_rises | intro _ | (extract_lets) | (fail_if_no_progress (with_reducible apply mkOut_rises))
    | (fail_if_no_progress (with_reducible apply mkDraws_rises)) | split | (dsimp +zetaDelta only)

theorem enterPending_rises {a d : Device} (x1 : _) (x2 : _) (x3 : _) (h : rises a d) : rises a (enterPending x1 x2 x3 d) := by
  unfold enterPending
  repeat' first
    | with_reducible assumption | with_reducible rfl | with_reducible apply modUnit_rises | with_reducible apply modCore_rises | with_reducible apply modJob_rises
    | with_reducible apply freeCore_rises
    | (fail_if_no_progress (with_reducible apply mk_rises)) | (fail_if_no_progress (with_reducible refine mkGaffer_rises rfl rfl ?_))
    | with_reducible apply foldl_rises | intro _ | (extract_lets)
    | (fail_if_no_progress (with_reducible apply mkOut_rises)) | (fail_if_no_progress (with_reducible apply mkDraws_rises)) | split
    | (dsimp +zetaDelta only)

theorem stageJob_rises {a d : Device} (x1 : _) (x2 : _) (x3 : _) (h : rises a d) : rises a (stageJob x1 x2 x3 d) := by
  unfold stageJob
  repeat' first
    | with_reducible assumption | with_reducible rfl | with_reducible apply modUnit_rises | with_reducible apply enterPending_rises
    | (fail_if_no_progress (with_reducible apply mk_rises)) | (fail_if_no_progress (with_reducible refine mkGaffer_rises rfl rfl ?_))
    | with_reducible apply foldl_rises | intro _ | (extract_lets)
    | (fail_if_no_progress (with_reducible apply mkOut_rises)) | (fail_if_no_progress (with_reducible apply mkDraws_rises)) | split
    | (dsimp +zetaDelta only)

theorem unitFault_rises {a d : Device} (x1 : _) (x2 : _) (x3 : _) (h : rises a d) : rises a (unitFault x1 x2 x3 d) := by
  unfold unitFault
  repeat' first
    | with_reducible assumption | with_reducible rfl | with_reducible apply coreFault_rises | with_reducible apply faultJob_rises
    | with_reducible apply memoryEvent_rises
    | with_reducible apply firmwareRow_rises | with_reducible apply dataRow_rises | with_reducible apply dispatchAll_rises
    | with_reducible apply correctableRow_rises | (fail_if_no_progress (with_reducible apply mk_rises))
    | (fail_if_no_progress (with_reducible refine mkGaffer_rises rfl rfl ?_)) | with_reducible apply foldl_rises | intro _
    | (extract_lets) | (fail_if_no_progress (with_reducible apply mkOut_rises)) | (fail_if_no_progress (with_reducible apply mkDraws_rises)) | split
    | (dsimp +zetaDelta only)

theorem refusalEvent_rises {a d : Device} (x1 : _) (x2 : _) (x3 : _) (h : rises a d) : rises a (refusalEvent x1 x2 x3 d) := by
  unfold refusalEvent
  repeat' first
    | with_reducible assumption | with_reducible rfl | with_reducible apply emitVia_rises | (fail_if_no_progress (with_reducible apply mk_rises))
    | (fail_if_no_progress (with_reducible refine mkGaffer_rises rfl rfl ?_))
    | with_reducible apply foldl_rises | intro _ | (extract_lets) | (fail_if_no_progress (with_reducible apply mkOut_rises))
    | (fail_if_no_progress (with_reducible apply mkDraws_rises)) | split | (dsimp +zetaDelta only)

theorem countValidation_rises {a d : Device} (x1 : _) (x2 : _) (h : rises a d) : rises a (countValidation x1 x2 d) := by
  unfold countValidation
  repeat' first
    | with_reducible assumption | with_reducible rfl | with_reducible apply modBench_rises
    | (fail_if_no_progress (with_reducible apply mk_rises)) | (fail_if_no_progress (with_reducible refine mkGaffer_rises rfl rfl ?_))
    | with_reducible apply foldl_rises | intro _ | (extract_lets)
    | (fail_if_no_progress (with_reducible apply mkOut_rises)) | (fail_if_no_progress (with_reducible apply mkDraws_rises)) | split
    | (dsimp +zetaDelta only)

theorem noteRetire_rises {a d : Device} (x1 : Job) (x2 : Nat) (x3 : Code) (x4 : Bool) (h : rises a d) : rises a (noteRetire x1 x2 x3 x4 d) := by
  unfold noteRetire
  extract_lets d1 d2 d3 d4 deadline d5 d6 d7
  have h1 : rises a d1 := lehCount_rises _ _ h
  have h2 : rises a d2 := iteRec_rises (lehCount_rises _ _ h1) h1
  have h3 : rises a d3 := doWith_rises _ _ (fun _ _ he => coreCount_rises _ _ _ he) h2
  have h4 : rises a d4 := iteRec_rises (doWith_rises _ _ (fun _ _ he => coreCount_rises _ _ _ he) h3) h3
  have h5 : rises a d5 := iteRec_rises (gafCount_rises _ h4) h4
  have h6 : rises a d6 := iteRec_rises (affect_rises _ _ h5) h5
  exact refusalEvent_rises _ _ _ (traceJob_rises _ _ _ (iteRec_rises (gafCount_rises _ h6) h6))

theorem finishJob_rises {a d : Device} (x1 : _) (x2 : _) (x3 : _) (x4 : _) (h : rises a d) : rises a (finishJob x1 x2 x3 x4 d) := by
  unfold finishJob
  repeat' first
    | with_reducible assumption | with_reducible rfl | with_reducible apply countValidation_rises
    | with_reducible apply noteImage_rises | with_reducible apply noteRetire_rises | with_reducible apply settleWork_rises
    | with_reducible apply dropGrants_rises | with_reducible apply coreCount_rises | with_reducible apply freeJobCore_rises
    | with_reducible apply dropWrites_rises | with_reducible apply advancePtr_rises | with_reducible apply modJob_rises
    | with_reducible apply dropState_rises | with_reducible apply doWith_rises
    | (fail_if_no_progress (with_reducible apply mk_rises)) | (fail_if_no_progress (with_reducible refine mkGaffer_rises rfl rfl ?_))
    | with_reducible apply foldl_rises | intro _ | (extract_lets)
    | (fail_if_no_progress (with_reducible apply mkOut_rises)) | (fail_if_no_progress (with_reducible apply mkDraws_rises)) | split
    | (dsimp +zetaDelta only)

theorem requeue_rises {a d : Device} (x1 : _) (x2 : _) (x3 : _) (x4 : _) (x5 : _) (h : rises a d) : rises a (requeue x1 x2 x3 x4 x5 d) := by
  unfold requeue
  repeat' first
    | with_reducible assumption | with_reducible rfl | with_reducible apply noteRetire_rises | with_reducible apply settleWork_rises
    | with_reducible apply dropGrants_rises | with_reducible apply coreCount_rises | with_reducible apply traceJob_rises
    | with_reducible apply gafCount_rises | with_reducible apply modJob_rises | with_reducible apply saveState_rises
    | with_reducible apply loseState_rises | with_reducible apply dispatchAll_rises | with_reducible apply wake_rises
    | with_reducible apply doWith_rises
    | (fail_if_no_progress (with_reducible apply mk_rises)) | (fail_if_no_progress (with_reducible refine mkGaffer_rises rfl rfl ?_))
    | with_reducible apply foldl_rises | intro _ | (extract_lets)
    | (fail_if_no_progress (with_reducible apply mkOut_rises)) | (fail_if_no_progress (with_reducible apply mkDraws_rises)) | split
    | (dsimp +zetaDelta only)

theorem requeueStep_rises {a d : Device} (x1 : _) (x2 : _) (x3 : _) (x4 : _) (h : rises a d) : rises a (requeueStep x1 x2 x3 x4 d) := by
  unfold requeueStep
  repeat' first
    | with_reducible assumption | with_reducible rfl | with_reducible apply requeue_rises
    | (fail_if_no_progress (with_reducible apply mk_rises)) | (fail_if_no_progress (with_reducible refine mkGaffer_rises rfl rfl ?_))
    | with_reducible apply foldl_rises | intro _ | (extract_lets)
    | (fail_if_no_progress (with_reducible apply mkOut_rises)) | (fail_if_no_progress (with_reducible apply mkDraws_rises)) | split
    | (dsimp +zetaDelta only)

theorem requeueHalf_rises {a d : Device} (x1 : _) (x2 : _) (h : rises a d) : rises a (requeueHalf x1 x2 d) := by
  unfold requeueHalf
  repeat' first
    | with_reducible assumption | with_reducible rfl | with_reducible apply requeue_rises
    | (fail_if_no_progress (with_reducible apply mk_rises)) | (fail_if_no_progress (with_reducible refine mkGaffer_rises rfl rfl ?_))
    | with_reducible apply foldl_rises | intro _ | (extract_lets)
    | (fail_if_no_progress (with_reducible apply mkOut_rises)) | (fail_if_no_progress (with_reducible apply mkDraws_rises)) | split
    | (dsimp +zetaDelta only)

theorem commitJob_rises {a d : Device} (x1 : _) (x2 : _) (x3 : _) (h : rises a d) : rises a (commitJob x1 x2 x3 d) := by
  unfold commitJob
  repeat' first
    | with_reducible assumption | with_reducible rfl | with_reducible apply writeIntents_rises
    | with_reducible apply applyWrites_rises | with_reducible apply requeueHalf_rises | with_reducible apply requeueStep_rises
    | with_reducible apply modJob_rises | with_reducible apply finishJob_rises
    | (fail_if_no_progress (with_reducible apply mk_rises)) | (fail_if_no_progress (with_reducible refine mkGaffer_rises rfl rfl ?_))
    | with_reducible apply foldl_rises | intro _ | (extract_lets)
    | (fail_if_no_progress (with_reducible apply mkOut_rises)) | (fail_if_no_progress (with_reducible apply mkDraws_rises)) | split
    | (dsimp +zetaDelta only)

theorem beginImage_rises {a d : Device} (x1 : _) (x2 : _) (h : rises a d) : rises a (beginImage x1 x2 d) := by
  unfold beginImage
  repeat' first
    | with_reducible assumption | with_reducible rfl | (fail_if_no_progress (with_reducible apply mk_rises))
    | (fail_if_no_progress (with_reducible refine mkGaffer_rises rfl rfl ?_)) | with_reducible apply foldl_rises | intro _ | (extract_lets)
    | (fail_if_no_progress (with_reducible apply mkOut_rises)) | (fail_if_no_progress (with_reducible apply mkDraws_rises)) | split
    | (dsimp +zetaDelta only)

theorem retireJob_rises {a d : Device} (x1 : _) (x2 : _) (x3 : _) (x4 : _) (h : rises a d) : rises a (retireJob x1 x2 x3 x4 d) := by
  unfold retireJob
  repeat' first
    | with_reducible assumption | with_reducible rfl | with_reducible apply finishJob_rises | with_reducible apply modJob_rises
    | with_reducible apply lehCount_rises | with_reducible apply dispatchAll_rises | with_reducible apply squashJob_rises
    | with_reducible apply beginImage_rises | with_reducible apply handGates_rises | with_reducible apply commitJob_rises
    | (fail_if_no_progress (with_reducible apply mk_rises)) | (fail_if_no_progress (with_reducible refine mkGaffer_rises rfl rfl ?_))
    | with_reducible apply foldl_rises | intro _ | (extract_lets)
    | (fail_if_no_progress (with_reducible apply mkOut_rises)) | (fail_if_no_progress (with_reducible apply mkDraws_rises)) | split
    | (dsimp +zetaDelta only)

theorem gateOpened_rises {a d : Device} (x1 : _) (h : rises a d) : rises a (gateOpened x1 d) := by
  unfold gateOpened
  repeat' first
    | with_reducible assumption | with_reducible rfl | with_reducible apply finishJob_rises | with_reducible apply modJob_rises
    | with_reducible apply commitJob_rises
    | (fail_if_no_progress (with_reducible apply mk_rises)) | (fail_if_no_progress (with_reducible refine mkGaffer_rises rfl rfl ?_))
    | with_reducible apply foldl_rises | intro _ | (extract_lets)
    | (fail_if_no_progress (with_reducible apply mkOut_rises)) | (fail_if_no_progress (with_reducible apply mkDraws_rises)) | split
    | (dsimp +zetaDelta only)

theorem entryProgrammed_rises {a d : Device} (x1 : _) (h : rises a d) : rises a (entryProgrammed x1 d) := by
  unfold entryProgrammed
  repeat' first
    | with_reducible assumption | with_reducible rfl | with_reducible apply applyWrite_rises
    | (fail_if_no_progress (with_reducible apply mk_rises)) | (fail_if_no_progress (with_reducible refine mkGaffer_rises rfl rfl ?_))
    | with_reducible apply foldl_rises | intro _ | (extract_lets)
    | (fail_if_no_progress (with_reducible apply mkOut_rises)) | (fail_if_no_progress (with_reducible apply mkDraws_rises)) | split
    | (dsimp +zetaDelta only)

theorem entryDurable_rises {a d : Device} (x1 : _) (h : rises a d) : rises a (entryDurable x1 d) := by
  unfold entryDurable
  repeat' first
    | with_reducible assumption | with_reducible rfl | with_reducible apply entryProgrammed_rises | with_reducible apply modJob_rises
    | with_reducible apply gateOpened_rises | with_reducible apply doEach_rises
    | (fail_if_no_progress (with_reducible apply mk_rises)) | (fail_if_no_progress (with_reducible refine mkGaffer_rises rfl rfl ?_))
    | with_reducible apply foldl_rises | intro _ | (extract_lets)
    | (fail_if_no_progress (with_reducible apply mkOut_rises)) | (fail_if_no_progress (with_reducible apply mkDraws_rises)) | split
    | (dsimp +zetaDelta only)

theorem endWaiting_rises {a d : Device} (x1 : _) (x2 : _) (h : rises a d) : rises a (endWaiting x1 x2 d) := by
  unfold endWaiting
  repeat' first
    | with_reducible assumption | with_reducible rfl | with_reducible apply finishJob_rises | with_reducible apply modJob_rises
    | with_reducible apply doEach_rises
    | (fail_if_no_progress (with_reducible apply mk_rises)) | (fail_if_no_progress (with_reducible refine mkGaffer_rises rfl rfl ?_))
    | with_reducible apply foldl_rises | intro _ | (extract_lets)
    | (fail_if_no_progress (with_reducible apply mkOut_rises)) | (fail_if_no_progress (with_reducible apply mkDraws_rises)) | split
    | (dsimp +zetaDelta only)

theorem entryFailed_rises {a d : Device} (x1 : _) (h : rises a d) : rises a (entryFailed x1 d) := by
  unfold entryFailed
  repeat' first
    | with_reducible assumption | with_reducible rfl | with_reducible apply emit_rises | with_reducible apply faultKind_rises
    | with_reducible apply endWaiting_rises
    | (fail_if_no_progress (with_reducible apply mk_rises)) | (fail_if_no_progress (with_reducible refine mkGaffer_rises rfl rfl ?_))
    | with_reducible apply foldl_rises | intro _ | (extract_lets)
    | (fail_if_no_progress (with_reducible apply mkOut_rises)) | (fail_if_no_progress (with_reducible apply mkDraws_rises)) | split
    | (dsimp +zetaDelta only)

theorem assertAlert_rises {a d : Device} (x1 : _) (h : rises a d) : rises a (assertAlert x1 d) := by
  unfold assertAlert
  repeat' first
    | with_reducible assumption | with_reducible rfl | (fail_if_no_progress (with_reducible apply mk_rises))
    | (fail_if_no_progress (with_reducible refine mkGaffer_rises rfl rfl ?_)) | with_reducible apply foldl_rises | intro _ | (extract_lets)
    | (fail_if_no_progress (with_reducible apply mkOut_rises)) | (fail_if_no_progress (with_reducible apply mkDraws_rises)) | split
    | (dsimp +zetaDelta only)

theorem raiseCauses_rises {a d : Device} (x1 : _) (h : rises a d) : rises a (raiseCauses x1 d) := by
  unfold raiseCauses
  repeat' first
    | with_reducible assumption | with_reducible rfl | with_reducible apply assertAlert_rises
    | (fail_if_no_progress (with_reducible apply mk_rises)) | (fail_if_no_progress (with_reducible refine mkGaffer_rises rfl rfl ?_))
    | with_reducible apply foldl_rises | intro _ | (extract_lets) | (fail_if_no_progress (with_reducible apply mkOut_rises))
    | (fail_if_no_progress (with_reducible apply mkDraws_rises)) | split | (dsimp +zetaDelta only)

theorem resumeAlert_rises {a d : Device}  (h : rises a d) : rises a (resumeAlert d) := by
  unfold resumeAlert
  repeat' first
    | with_reducible assumption | with_reducible rfl | with_reducible apply raiseCauses_rises
    | (fail_if_no_progress (with_reducible apply mk_rises)) | (fail_if_no_progress (with_reducible refine mkGaffer_rises rfl rfl ?_))
    | with_reducible apply foldl_rises | intro _ | (extract_lets) | (fail_if_no_progress (with_reducible apply mkOut_rises))
    | (fail_if_no_progress (with_reducible apply mkDraws_rises)) | split | (dsimp +zetaDelta only)

theorem clearCauses_rises {a d : Device} (x1 : _) (h : rises a d) : rises a (clearCauses x1 d) := by
  unfold clearCauses
  repeat' first
    | with_reducible assumption | with_reducible rfl | (fail_if_no_progress (with_reducible apply mk_rises))
    | (fail_if_no_progress (with_reducible refine mkGaffer_rises rfl rfl ?_)) | with_reducible apply foldl_rises | intro _ | (extract_lets)
    | (fail_if_no_progress (with_reducible apply mkOut_rises)) | (fail_if_no_progress (with_reducible apply mkDraws_rises)) | split
    | (dsimp +zetaDelta only)

theorem storeRecord_rises {a d : Device} (x1 : _) (x2 : _) (x3 : _) (x4 : _) (x5 : _) (x6 : _) (x7 : _) (h : rises a d) : rises a (storeRecord x1 x2 x3 x4 x5 x6 x7 d) := by
  unfold storeRecord
  repeat' first
    | with_reducible assumption | with_reducible rfl | with_reducible apply raiseCauses_rises
    | (fail_if_no_progress (with_reducible apply mk_rises)) | (fail_if_no_progress (with_reducible refine mkGaffer_rises rfl rfl ?_))
    | with_reducible apply foldl_rises | intro _ | (extract_lets) | (fail_if_no_progress (with_reducible apply mkOut_rises))
    | (fail_if_no_progress (with_reducible apply mkDraws_rises)) | split | (dsimp +zetaDelta only)

theorem acceptRecord_rises {a d : Device} (x1 : _) (h : rises a d) : rises a (acceptRecord x1 d) := by
  unfold acceptRecord
  repeat' first
    | with_reducible assumption | with_reducible rfl | with_reducible apply storeRecord_rises
    | (fail_if_no_progress (with_reducible apply mk_rises)) | (fail_if_no_progress (with_reducible refine mkGaffer_rises rfl rfl ?_))
    | with_reducible apply foldl_rises | intro _ | (extract_lets) | (fail_if_no_progress (with_reducible apply mkOut_rises))
    | (fail_if_no_progress (with_reducible apply mkDraws_rises)) | split | (dsimp +zetaDelta only)

theorem servePort_rises {a d : Device}  (h : rises a d) : rises a (servePort d) := by
  unfold servePort
  repeat' first
    | with_reducible assumption | with_reducible rfl | with_reducible apply acceptRecord_rises
    | (fail_if_no_progress (with_reducible apply mk_rises)) | (fail_if_no_progress (with_reducible refine mkGaffer_rises rfl rfl ?_))
    | with_reducible apply foldl_rises | intro _ | (extract_lets)
    | (fail_if_no_progress (with_reducible apply mkOut_rises)) | (fail_if_no_progress (with_reducible apply mkDraws_rises)) | split
    | (dsimp +zetaDelta only)

theorem storeSummary_rises {a d : Device} (x1 : _) (h : rises a d) : rises a (storeSummary x1 d) := by
  unfold storeSummary
  repeat' first
    | with_reducible assumption | with_reducible rfl | with_reducible apply storeRecord_rises
    | (fail_if_no_progress (with_reducible apply mk_rises)) | (fail_if_no_progress (with_reducible refine mkGaffer_rises rfl rfl ?_))
    | with_reducible apply foldl_rises | intro _ | (extract_lets) | (fail_if_no_progress (with_reducible apply mkOut_rises))
    | (fail_if_no_progress (with_reducible apply mkDraws_rises)) | split | (dsimp +zetaDelta only)

theorem serveSummaries_rises {a d : Device}  (h : rises a d) : rises a (serveSummaries d) := by
  unfold serveSummaries
  repeat' first
    | with_reducible assumption | with_reducible rfl | with_reducible apply doEach_rises | with_reducible apply storeSummary_rises
    | (fail_if_no_progress (with_reducible apply mk_rises)) | (fail_if_no_progress (with_reducible refine mkGaffer_rises rfl rfl ?_))
    | with_reducible apply foldl_rises | intro _ | (extract_lets)
    | (fail_if_no_progress (with_reducible apply mkOut_rises)) | (fail_if_no_progress (with_reducible apply mkDraws_rises)) | split
    | (dsimp +zetaDelta only)

theorem refillEvents_rises {a d : Device}  (h : rises a d) : rises a (refillEvents d) := by
  unfold refillEvents
  repeat' first
    | with_reducible assumption | with_reducible rfl | with_reducible apply serveSummaries_rises
    | (fail_if_no_progress (with_reducible apply mk_rises)) | (fail_if_no_progress (with_reducible refine mkGaffer_rises rfl rfl ?_))
    | with_reducible apply foldl_rises | intro _ | (extract_lets) | (fail_if_no_progress (with_reducible apply mkOut_rises))
    | (fail_if_no_progress (with_reducible apply mkDraws_rises)) | split | (dsimp +zetaDelta only)

theorem recycleSector_rises {a d : Device}  (h : rises a d) : rises a (recycleSector d) := by
  unfold recycleSector
  repeat' first
    | with_reducible assumption | with_reducible rfl | (fail_if_no_progress (with_reducible apply mk_rises))
    | (fail_if_no_progress (with_reducible refine mkGaffer_rises rfl rfl ?_)) | with_reducible apply foldl_rises | intro _ | (extract_lets)
    | (fail_if_no_progress (with_reducible apply mkOut_rises)) | (fail_if_no_progress (with_reducible apply mkDraws_rises)) | split
    | (dsimp +zetaDelta only)

theorem makeRoom_rises {a d : Device} (x1 : _) (h : rises a d) : rises a (makeRoom x1 d) := by
  induction x1 generalizing d  with
  | zero => exact h
  | succ n ih =>
    unfold makeRoom
    repeat' first
      | with_reducible assumption | with_reducible rfl | with_reducible apply ih | with_reducible apply recycleSector_rises
      | (fail_if_no_progress (with_reducible apply mk_rises)) | (fail_if_no_progress (with_reducible refine mkGaffer_rises rfl rfl ?_))
      | with_reducible apply foldl_rises | intro _ | (extract_lets)
      | (fail_if_no_progress (with_reducible apply mkOut_rises)) | (fail_if_no_progress (with_reducible apply mkDraws_rises)) | split
      | (dsimp +zetaDelta only)

theorem writeLogPage_rises {a d : Device} (x1 : _) (h : rises a d) : rises a (writeLogPage x1 d) := by
  unfold writeLogPage
  repeat' first
    | with_reducible assumption | with_reducible rfl | with_reducible apply makeRoom_rises | with_reducible apply emit_rises
    | (fail_if_no_progress (with_reducible apply mk_rises)) | (fail_if_no_progress (with_reducible refine mkGaffer_rises rfl rfl ?_))
    | with_reducible apply foldl_rises | intro _ | (extract_lets)
    | (fail_if_no_progress (with_reducible apply mkOut_rises)) | (fail_if_no_progress (with_reducible apply mkDraws_rises)) | split
    | (dsimp +zetaDelta only)

theorem recoverLog_rises {a d : Device}  (h : rises a d) : rises a (recoverLog d) := by
  unfold recoverLog
  repeat' first
    | with_reducible assumption | with_reducible rfl | (fail_if_no_progress (with_reducible apply mk_rises))
    | (fail_if_no_progress (with_reducible refine mkGaffer_rises rfl rfl ?_)) | with_reducible apply foldl_rises | intro _ | (extract_lets)
    | (fail_if_no_progress (with_reducible apply mkOut_rises)) | (fail_if_no_progress (with_reducible apply mkDraws_rises)) | split
    | (dsimp +zetaDelta only)

theorem boundaryKind_rises {a d : Device} (x1 : _) (h : rises a d) : rises a (boundaryKind x1 d) := by
  unfold boundaryKind
  repeat' first
    | with_reducible assumption | with_reducible rfl | with_reducible apply setCredit_rises | with_reducible apply doEach_rises
    | (fail_if_no_progress (with_reducible apply mk_rises)) | (fail_if_no_progress (with_reducible refine mkGaffer_rises rfl rfl ?_))
    | with_reducible apply foldl_rises | intro _ | (extract_lets)
    | (fail_if_no_progress (with_reducible apply mkOut_rises)) | (fail_if_no_progress (with_reducible apply mkDraws_rises)) | split
    | (dsimp +zetaDelta only)

theorem windowBoundary_rises {a d : Device}  (h : rises a d) : rises a (windowBoundary d) := by
  unfold windowBoundary
  repeat' first
    | with_reducible assumption | with_reducible rfl | with_reducible apply doEach_rises | with_reducible apply boundaryKind_rises
    | with_reducible apply refillEvents_rises | (fail_if_no_progress (with_reducible apply mk_rises))
    | (fail_if_no_progress (with_reducible refine mkGaffer_rises rfl rfl ?_)) | with_reducible apply foldl_rises | intro _
    | (extract_lets) | (fail_if_no_progress (with_reducible apply mkOut_rises)) | (fail_if_no_progress (with_reducible apply mkDraws_rises)) | split
    | (dsimp +zetaDelta only)

theorem endParking_rises {a d : Device} (x1 : _) (x2 : _) (x3 : _) (h : rises a d) : rises a (endParking x1 x2 x3 d) := by
  unfold endParking
  repeat' first
    | with_reducible assumption | with_reducible rfl | with_reducible apply dropParked_rises
    | (fail_if_no_progress (with_reducible apply mk_rises)) | (fail_if_no_progress (with_reducible refine mkGaffer_rises rfl rfl ?_))
    | with_reducible apply foldl_rises | intro _ | (extract_lets)
    | (fail_if_no_progress (with_reducible apply mkOut_rises)) | (fail_if_no_progress (with_reducible apply mkDraws_rises)) | split
    | (dsimp +zetaDelta only)

theorem reusePark_rises {a d : Device} (x1 : _) (x2 : _) (h : rises a d) : rises a (reusePark x1 x2 d) := by
  unfold reusePark
  repeat' first
    | with_reducible assumption | with_reducible rfl | with_reducible apply startEngine_rises | with_reducible apply doWith_rises
    | (fail_if_no_progress (with_reducible apply mk_rises)) | (fail_if_no_progress (with_reducible refine mkGaffer_rises rfl rfl ?_))
    | with_reducible apply foldl_rises | intro _ | (extract_lets)
    | (fail_if_no_progress (with_reducible apply mkOut_rises)) | (fail_if_no_progress (with_reducible apply mkDraws_rises)) | split
    | (dsimp +zetaDelta only)

theorem request_rises {a d : Device} (x1 : _) (x2 : _) (x3 : _) (x4 : _) (h : rises a d) : rises a (request x1 x2 x3 x4 d) := by
  unfold request
  repeat' first
    | with_reducible assumption | with_reducible rfl | with_reducible apply setCredit_rises | with_reducible apply reusePark_rises
    | with_reducible apply endParking_rises
    | with_reducible apply arbitrate_rises | (fail_if_no_progress (with_reducible apply mk_rises))
    | (fail_if_no_progress (with_reducible refine mkGaffer_rises rfl rfl ?_)) | with_reducible apply foldl_rises | intro _
    | (extract_lets) | (fail_if_no_progress (with_reducible apply mkOut_rises)) | (fail_if_no_progress (with_reducible apply mkDraws_rises)) | split
    | (dsimp +zetaDelta only)

theorem seedArrived_rises {a d : Device} (x1 : _) (h : rises a d) : rises a (seedArrived x1 d) := by
  unfold seedArrived
  repeat' first
    | with_reducible assumption | with_reducible rfl | with_reducible apply arbitrate_rises
    | (fail_if_no_progress (with_reducible apply mk_rises)) | (fail_if_no_progress (with_reducible refine mkGaffer_rises rfl rfl ?_))
    | with_reducible apply foldl_rises | intro _ | (extract_lets)
    | (fail_if_no_progress (with_reducible apply mkOut_rises)) | (fail_if_no_progress (with_reducible apply mkDraws_rises)) | split
    | (dsimp +zetaDelta only)

theorem instanceServes_rises {a d : Device} (x1 : _) (x2 : _) (h : rises a d) : rises a (instanceServes x1 x2 d) := by
  unfold instanceServes
  repeat' first
    | with_reducible assumption | with_reducible rfl | with_reducible apply arbitrate_rises
    | (fail_if_no_progress (with_reducible apply mk_rises)) | (fail_if_no_progress (with_reducible refine mkGaffer_rises rfl rfl ?_))
    | with_reducible apply foldl_rises | intro _ | (extract_lets)
    | (fail_if_no_progress (with_reducible apply mkOut_rises)) | (fail_if_no_progress (with_reducible apply mkDraws_rises)) | split
    | (dsimp +zetaDelta only)

theorem servePool_rises {a d : Device}  (h : rises a d) : rises a (servePool d) := by
  unfold servePool
  repeat' first
    | with_reducible assumption | with_reducible rfl | with_reducible apply instanceServes_rises
    | with_reducible apply seedArrived_rises | with_reducible apply dispatchAll_rises | with_reducible apply doEach_rises
    | (fail_if_no_progress (with_reducible apply mk_rises)) | (fail_if_no_progress (with_reducible refine mkGaffer_rises rfl rfl ?_))
    | with_reducible apply foldl_rises | intro _ | (extract_lets)
    | (fail_if_no_progress (with_reducible apply mkOut_rises)) | (fail_if_no_progress (with_reducible apply mkDraws_rises)) | split
    | (dsimp +zetaDelta only)

theorem setMoved_rises {a d : Device} (x1 : _) (x2 : _) (h : rises a d) : rises a (setMoved x1 x2 d) := by
  unfold setMoved
  repeat' first
    | with_reducible assumption | with_reducible rfl
    | (fail_if_no_progress (with_reducible apply mk_rises)) | (fail_if_no_progress (with_reducible refine mkGaffer_rises rfl rfl ?_))
    | with_reducible apply foldl_rises | intro _ | (extract_lets)
    | (fail_if_no_progress (with_reducible apply mkOut_rises)) | (fail_if_no_progress (with_reducible apply mkDraws_rises)) | split
    | (dsimp +zetaDelta only)

theorem moveUnits_rises {a d : Device} (x1 : _) (x2 : _) (h : rises a d) : rises a (moveUnits x1 x2 d).2 := by
  unfold moveUnits
  repeat' first
    | with_reducible assumption | with_reducible rfl | with_reducible apply setMoved_rises | with_reducible apply modJob_rises
    | (fail_if_no_progress (with_reducible apply mk_rises)) | (fail_if_no_progress (with_reducible refine mkGaffer_rises rfl rfl ?_))
    | with_reducible apply foldl_rises | intro _ | (extract_lets)
    | (fail_if_no_progress (with_reducible apply mkOut_rises)) | (fail_if_no_progress (with_reducible apply mkDraws_rises)) | split
    | (dsimp +zetaDelta only)

theorem releaseGrant_rises {a d : Device} (x1 : _) (x2 : _) (h : rises a d) : rises a (releaseGrant x1 x2 d) := by
  unfold releaseGrant
  repeat' first
    | with_reducible assumption | with_reducible rfl | with_reducible apply moveUnits_rises | with_reducible apply arbitrate_rises
    | with_reducible apply endGrant_rises | with_reducible apply servePool_rises
    | (fail_if_no_progress (with_reducible apply mk_rises)) | (fail_if_no_progress (with_reducible refine mkGaffer_rises rfl rfl ?_))
    | with_reducible apply foldl_rises | intro _ | (extract_lets)
    | (fail_if_no_progress (with_reducible apply mkOut_rises)) | (fail_if_no_progress (with_reducible apply mkDraws_rises)) | split
    | (dsimp +zetaDelta only)

theorem reinstantiateBench_rises {a d : Device} (x1 : _) (h : rises a d) : rises a (reinstantiateBench x1 d) := by
  unfold reinstantiateBench
  repeat' first
    | with_reducible assumption | with_reducible rfl
    | (fail_if_no_progress (with_reducible apply mk_rises)) | (fail_if_no_progress (with_reducible refine mkGaffer_rises rfl rfl ?_))
    | with_reducible apply foldl_rises | intro _ | (extract_lets)
    | (fail_if_no_progress (with_reducible apply mkOut_rises)) | (fail_if_no_progress (with_reducible apply mkDraws_rises)) | split
    | (dsimp +zetaDelta only)

theorem withdrawUnit_rises {a d : Device} (x1 : _) (h : rises a d) : rises a (withdrawUnit x1 d) := by
  unfold withdrawUnit
  repeat' first
    | with_reducible assumption | with_reducible rfl | with_reducible apply beginTest_rises | with_reducible apply reinstantiateBench_rises
    | (fail_if_no_progress (with_reducible apply mk_rises)) | (fail_if_no_progress (with_reducible refine mkGaffer_rises rfl rfl ?_))
    | with_reducible apply foldl_rises | intro _ | (extract_lets)
    | (fail_if_no_progress (with_reducible apply mkOut_rises)) | (fail_if_no_progress (with_reducible apply mkDraws_rises)) | split
    | (dsimp +zetaDelta only)

theorem cutOff_rises {a d : Device} (x1 : _) (x2 : _) (h : rises a d) : rises a (cutOff x1 x2 d) := by
  unfold cutOff
  repeat' first
    | with_reducible assumption | with_reducible rfl | with_reducible apply moveUnits_rises | with_reducible apply endGrant_rises
    | with_reducible apply emitVia_rises | with_reducible apply arbitrate_rises | with_reducible apply dispatchAll_rises
    | with_reducible apply squashJob_rises | with_reducible apply withdrawUnit_rises
    | (fail_if_no_progress (with_reducible apply mk_rises)) | (fail_if_no_progress (with_reducible refine mkGaffer_rises rfl rfl ?_))
    | with_reducible apply foldl_rises | intro _ | (extract_lets)
    | (fail_if_no_progress (with_reducible apply mkOut_rises)) | (fail_if_no_progress (with_reducible apply mkDraws_rises)) | split
    | (dsimp +zetaDelta only)

theorem readBootstrap_rises {a d : Device}  (h : rises a d) : rises a (readBootstrap d) := by
  unfold readBootstrap
  repeat' first
    | with_reducible assumption | with_reducible rfl | with_reducible apply emit_rises | (fail_if_no_progress (with_reducible apply mk_rises))
    | (fail_if_no_progress (with_reducible refine mkGaffer_rises rfl rfl ?_))
    | with_reducible apply foldl_rises | intro _ | (extract_lets) | (fail_if_no_progress (with_reducible apply mkOut_rises))
    | (fail_if_no_progress (with_reducible apply mkDraws_rises)) | split | (dsimp +zetaDelta only)

theorem selectConfiguration_rises {a d : Device}  (h : rises a d) : rises a (selectConfiguration d).1 := by
  unfold selectConfiguration
  repeat' first
    | with_reducible assumption | with_reducible rfl | with_reducible apply startEntry_rises | with_reducible apply burnTo_rises
    | (fail_if_no_progress (with_reducible apply mk_rises)) | (fail_if_no_progress (with_reducible refine mkGaffer_rises rfl rfl ?_))
    | with_reducible apply foldl_rises | intro _ | (extract_lets)
    | (fail_if_no_progress (with_reducible apply mkOut_rises)) | (fail_if_no_progress (with_reducible apply mkDraws_rises)) | split
    | (dsimp +zetaDelta only)

theorem writeRecord_rises {a d : Device} (x1 : _) (h : rises a d) : rises a (writeRecord x1 d) := by
  unfold writeRecord
  repeat' first
    | with_reducible assumption | with_reducible rfl | (fail_if_no_progress (with_reducible apply mk_rises))
    | (fail_if_no_progress (with_reducible refine mkGaffer_rises rfl rfl ?_)) | with_reducible apply foldl_rises | intro _ | (extract_lets)
    | (fail_if_no_progress (with_reducible apply mkOut_rises)) | (fail_if_no_progress (with_reducible apply mkDraws_rises)) | split
    | (dsimp +zetaDelta only)

theorem readChain_rises {a d : Device}  (h : rises a d) : rises a (readChain d) := by
  unfold readChain
  repeat' first
    | with_reducible assumption | with_reducible rfl | with_reducible apply emitC_rises | (fail_if_no_progress (with_reducible apply mk_rises))
    | (fail_if_no_progress (with_reducible refine mkGaffer_rises rfl rfl ?_))
    | with_reducible apply foldl_rises | intro _ | (extract_lets) | (fail_if_no_progress (with_reducible apply mkOut_rises))
    | (fail_if_no_progress (with_reducible apply mkDraws_rises)) | split | (dsimp +zetaDelta only)

theorem coldDevice_rises {a d : Device}  (h : rises a d) : rises a (coldDevice d) := by
  unfold coldDevice
  exact mkJobs_rises (fun _ => ⟨List.nodup_nil, fun _ m => by simp at m⟩) h

theorem pfAnswers_rises {a d : Device}  (h : rises a d) : rises a (pfAnswers d) := by
  unfold pfAnswers
  repeat' first
    | with_reducible assumption | with_reducible rfl
    | (fail_if_no_progress (with_reducible apply mk_rises)) | (fail_if_no_progress (with_reducible refine mkGaffer_rises rfl rfl ?_))
    | with_reducible apply foldl_rises | intro _ | (extract_lets)
    | (fail_if_no_progress (with_reducible apply mkOut_rises)) | (fail_if_no_progress (with_reducible apply mkDraws_rises)) | split
    | (dsimp +zetaDelta only)

theorem stopStart_rises {a d : Device} (x1 : _) (h : rises a d) : rises a (stopStart x1 d) := by
  unfold stopStart
  repeat' first
    | with_reducible assumption | with_reducible rfl | with_reducible apply startEntry_rises | with_reducible apply raiseCauses_rises
    | with_reducible apply emitC_rises
    | with_reducible apply pfAnswers_rises | (fail_if_no_progress (with_reducible apply mk_rises))
    | (fail_if_no_progress (with_reducible refine mkGaffer_rises rfl rfl ?_)) | with_reducible apply foldl_rises | intro _
    | (extract_lets) | (fail_if_no_progress (with_reducible apply mkOut_rises)) | (fail_if_no_progress (with_reducible apply mkDraws_rises)) | split
    | (dsimp +zetaDelta only)

theorem endStart_rises {a d : Device}  (h : rises a d) : rises a (endStart d) := by
  unfold endStart
  repeat' first
    | with_reducible assumption | with_reducible rfl | with_reducible apply pfAnswers_rises | with_reducible apply emitC_rises
    | with_reducible apply beginHeartbeat_rises | with_reducible apply raiseCauses_rises
    | with_reducible apply closeStartWindow_rises
    | (fail_if_no_progress (with_reducible apply mk_rises)) | (fail_if_no_progress (with_reducible refine mkGaffer_rises rfl rfl ?_))
    | with_reducible apply foldl_rises | intro _ | (extract_lets)
    | (fail_if_no_progress (with_reducible apply mkOut_rises)) | (fail_if_no_progress (with_reducible apply mkDraws_rises)) | split
    | (dsimp +zetaDelta only)

theorem beginCustody_rises {a d : Device}  (h : rises a d) : rises a (beginCustody d) := by
  unfold beginCustody
  repeat' first
    | with_reducible assumption | with_reducible rfl | with_reducible apply stopStart_rises
    | with_reducible apply beginHeartbeat_rises
    | (fail_if_no_progress (with_reducible apply mk_rises)) | (fail_if_no_progress (with_reducible refine mkGaffer_rises rfl rfl ?_))
    | with_reducible apply foldl_rises | intro _ | (extract_lets)
    | (fail_if_no_progress (with_reducible apply mkOut_rises)) | (fail_if_no_progress (with_reducible apply mkDraws_rises)) | split
    | (dsimp +zetaDelta only)

theorem answerNight_rises {a d : Device} (x1 : _) (h : rises a d) : rises a (answerNight x1 d) := by
  unfold answerNight
  repeat' first
    | with_reducible assumption | with_reducible rfl | with_reducible apply setSource_rises | with_reducible apply emitC_rises
    | with_reducible apply respond_rises
    | (fail_if_no_progress (with_reducible apply mk_rises)) | (fail_if_no_progress (with_reducible refine mkGaffer_rises rfl rfl ?_))
    | with_reducible apply foldl_rises | intro _ | (extract_lets)
    | (fail_if_no_progress (with_reducible apply mkOut_rises)) | (fail_if_no_progress (with_reducible apply mkDraws_rises)) | split
    | (dsimp +zetaDelta only)

theorem timebaseFails_rises {a d : Device}  (h : rises a d) : rises a (timebaseFails d) := by
  unfold timebaseFails
  repeat' first
    | with_reducible assumption | with_reducible rfl | with_reducible apply tripSource_rises | with_reducible apply emitC_rises
    | (fail_if_no_progress (with_reducible apply mk_rises)) | (fail_if_no_progress (with_reducible refine mkGaffer_rises rfl rfl ?_))
    | with_reducible apply foldl_rises | intro _ | (extract_lets)
    | (fail_if_no_progress (with_reducible apply mkOut_rises)) | (fail_if_no_progress (with_reducible apply mkDraws_rises)) | split
    | (dsimp +zetaDelta only)

theorem startCalibration_rises {a d : Device} (x1 : _) (x2 : _) (h : rises a d) : rises a (startCalibration x1 x2 d) := by
  unfold startCalibration
  repeat' first
    | with_reducible assumption | with_reducible rfl | with_reducible apply timebaseFails_rises
    | (fail_if_no_progress (with_reducible apply mk_rises)) | (fail_if_no_progress (with_reducible refine mkGaffer_rises rfl rfl ?_))
    | with_reducible apply foldl_rises | intro _ | (extract_lets)
    | (fail_if_no_progress (with_reducible apply mkOut_rises)) | (fail_if_no_progress (with_reducible apply mkDraws_rises)) | split
    | (dsimp +zetaDelta only)

theorem endCustody_rises {a d : Device} (x1 : _) (h : rises a d) : rises a (endCustody x1 d) := by
  unfold endCustody
  repeat' first
    | with_reducible assumption | with_reducible rfl | with_reducible apply startCalibration_rises
    | with_reducible apply answerNight_rises | with_reducible apply tripSource_rises | with_reducible apply doEach_rises
    | (fail_if_no_progress (with_reducible apply mk_rises)) | (fail_if_no_progress (with_reducible refine mkGaffer_rises rfl rfl ?_))
    | with_reducible apply foldl_rises | intro _ | (extract_lets)
    | (fail_if_no_progress (with_reducible apply mkOut_rises)) | (fail_if_no_progress (with_reducible apply mkDraws_rises)) | split
    | (dsimp +zetaDelta only)

theorem loseVault_rises {a d : Device}  (h : rises a d) : rises a (loseVault d) := by
  unfold loseVault
  repeat' first
    | with_reducible assumption | with_reducible rfl | with_reducible apply enterLocked_rises
    | (fail_if_no_progress (with_reducible apply mk_rises)) | (fail_if_no_progress (with_reducible refine mkGaffer_rises rfl rfl ?_))
    | with_reducible apply foldl_rises | intro _ | (extract_lets)
    | (fail_if_no_progress (with_reducible apply mkOut_rises)) | (fail_if_no_progress (with_reducible apply mkDraws_rises)) | split
    | (dsimp +zetaDelta only)

theorem beginSources_rises {a d : Device}  (h : rises a d) : rises a (beginSources d) := by
  unfold beginSources
  repeat' first
    | with_reducible assumption | with_reducible rfl | (fail_if_no_progress (with_reducible apply mk_rises))
    | (fail_if_no_progress (with_reducible refine mkGaffer_rises rfl rfl ?_)) | with_reducible apply foldl_rises | intro _ | (extract_lets)
    | (fail_if_no_progress (with_reducible apply mkOut_rises)) | (fail_if_no_progress (with_reducible apply mkDraws_rises)) | split
    | (dsimp +zetaDelta only)

theorem endFuses_rises {a d : Device} (x1 : _) (h : rises a d) : rises a (endFuses x1 d) := by
  unfold endFuses
  repeat' first
    | with_reducible assumption | with_reducible rfl | with_reducible apply stopStart_rises | with_reducible apply burnLatches_rises
    | with_reducible apply emitC_rises
    | with_reducible apply loseVault_rises | with_reducible apply beginSources_rises | (fail_if_no_progress (with_reducible apply mk_rises))
    | (fail_if_no_progress (with_reducible refine mkGaffer_rises rfl rfl ?_))
    | with_reducible apply foldl_rises | intro _ | (extract_lets) | (fail_if_no_progress (with_reducible apply mkOut_rises))
    | (fail_if_no_progress (with_reducible apply mkDraws_rises)) | split | (dsimp +zetaDelta only)

theorem endGather_rises {a d : Device} (x1 : _) (h : rises a d) : rises a (endGather x1 d) := by
  unfold endGather
  repeat' first
    | with_reducible assumption | with_reducible rfl | with_reducible apply failSource_rises | with_reducible apply stopStart_rises
    | with_reducible apply doEach_rises
    | (fail_if_no_progress (with_reducible apply mk_rises)) | (fail_if_no_progress (with_reducible refine mkGaffer_rises rfl rfl ?_))
    | with_reducible apply foldl_rises | intro _ | (extract_lets)
    | (fail_if_no_progress (with_reducible apply mkOut_rises)) | (fail_if_no_progress (with_reducible apply mkDraws_rises)) | split
    | (dsimp +zetaDelta only)

theorem selectRecord_rises {a d : Device}  (h : rises a d) : rises a (selectRecord d) := by
  unfold selectRecord
  repeat' first
    | with_reducible assumption | with_reducible rfl | with_reducible apply emitC_rises | with_reducible apply enterLocked_rises
    | (fail_if_no_progress (with_reducible apply mk_rises)) | (fail_if_no_progress (with_reducible refine mkGaffer_rises rfl rfl ?_))
    | with_reducible apply foldl_rises | intro _ | (extract_lets)
    | (fail_if_no_progress (with_reducible apply mkOut_rises)) | (fail_if_no_progress (with_reducible apply mkDraws_rises)) | split
    | (dsimp +zetaDelta only)

theorem drawBenchKeys_rises {a d : Device}  (h : rises a d) : rises a (drawBenchKeys d) := by
  unfold drawBenchKeys
  repeat' first
    | with_reducible assumption | with_reducible rfl | with_reducible apply withKeyDraw_rises | with_reducible apply modBench_rises
    | with_reducible apply doEach_rises
    | (fail_if_no_progress (with_reducible apply mk_rises)) | (fail_if_no_progress (with_reducible refine mkGaffer_rises rfl rfl ?_))
    | with_reducible apply foldl_rises | intro _ | (extract_lets)
    | (fail_if_no_progress (with_reducible apply mkOut_rises)) | (fail_if_no_progress (with_reducible apply mkDraws_rises)) | split
    | (dsimp +zetaDelta only)

theorem endNvm_rises {a d : Device} (h : rises a d) : rises a (endNvm d) := by
  have h0 : rises a (selectConfiguration (readBootstrap d)).1 := selectConfiguration_rises (readBootstrap_rises h)
  unfold endNvm
  generalize selectConfiguration (readBootstrap d) = p at h0 ⊢
  obtain ⟨e, stop⟩ := p
  dsimp only at h0 ⊢
  split
  · exact stopStart_rises _ h0
  · exact drawBenchKeys_rises (beginHeartbeat_rises _ (mk_rises (recoverLog_rises (readChain_rises (selectRecord_rises h0)))))

theorem endFirmware_rises {a d : Device}  (h : rises a d) : rises a (endFirmware d) := by
  unfold endFirmware
  repeat' first
    | with_reducible assumption | with_reducible rfl | with_reducible apply stopStart_rises | with_reducible apply startEntry_rises
    | with_reducible apply burnTo_rises
    | (fail_if_no_progress (with_reducible apply mk_rises)) | (fail_if_no_progress (with_reducible refine mkGaffer_rises rfl rfl ?_))
    | with_reducible apply foldl_rises | intro _ | (extract_lets)
    | (fail_if_no_progress (with_reducible apply mkOut_rises)) | (fail_if_no_progress (with_reducible apply mkDraws_rises)) | split
    | (dsimp +zetaDelta only)

theorem noteRetired_rises {a d : Device} (x1 : _) (x2 : _) (x3 : _) (h : rises a d) : rises a (noteRetired x1 x2 x3 d) := by
  unfold noteRetired
  repeat' first
    | with_reducible assumption | with_reducible rfl | with_reducible apply startEntry_rises
    | (fail_if_no_progress (with_reducible apply mk_rises)) | (fail_if_no_progress (with_reducible refine mkGaffer_rises rfl rfl ?_))
    | with_reducible apply foldl_rises | intro _ | (extract_lets) | (fail_if_no_progress (with_reducible apply mkOut_rises))
    | (fail_if_no_progress (with_reducible apply mkDraws_rises)) | split | (dsimp +zetaDelta only)

theorem rollEngine_rises {a d : Device} (x1 : _) (x2 : _) (x3 : _) (x4 : _) (h : rises a d) : rises a (rollEngine x1 x2 x3 x4 d) := by
  unfold rollEngine
  repeat' first
    | with_reducible assumption | with_reducible rfl | with_reducible apply engineCount_rises | with_reducible apply modEngine_rises
    | with_reducible apply openWindow_rises | with_reducible apply noteRetired_rises | with_reducible apply emitVia_rises
    | (fail_if_no_progress (with_reducible apply mk_rises)) | (fail_if_no_progress (with_reducible refine mkGaffer_rises rfl rfl ?_))
    | with_reducible apply foldl_rises | intro _ | (extract_lets)
    | (fail_if_no_progress (with_reducible apply mkOut_rises)) | (fail_if_no_progress (with_reducible apply mkDraws_rises)) | split
    | (dsimp +zetaDelta only)

theorem rollCore_rises {a d : Device} (x1 : _) (x2 : _) (x3 : _) (h : rises a d) : rises a (rollCore x1 x2 x3 d) := by
  unfold rollCore
  repeat' first
    | with_reducible assumption | with_reducible rfl | with_reducible apply modCore_rises | with_reducible apply emitVia_rises
    | with_reducible apply openWindow_rises | with_reducible apply noteRetired_rises
    | (fail_if_no_progress (with_reducible apply mk_rises)) | (fail_if_no_progress (with_reducible refine mkGaffer_rises rfl rfl ?_))
    | with_reducible apply foldl_rises | intro _ | (extract_lets)
    | (fail_if_no_progress (with_reducible apply mkOut_rises)) | (fail_if_no_progress (with_reducible apply mkDraws_rises)) | split
    | (dsimp +zetaDelta only)

theorem benchEnters_rises {a d : Device} (x1 : _) (x2 : _) (h : rises a d) : rises a (benchEnters x1 x2 d) := by
  unfold benchEnters
  repeat' first
    | with_reducible assumption | with_reducible rfl | with_reducible apply modBench_rises | with_reducible apply rollCore_rises
    | with_reducible apply rollEngine_rises | with_reducible apply beginHeartbeat_rises | with_reducible apply doEach_rises
    | (fail_if_no_progress (with_reducible apply mk_rises)) | (fail_if_no_progress (with_reducible refine mkGaffer_rises rfl rfl ?_))
    | with_reducible apply foldl_rises | intro _ | (extract_lets)
    | (fail_if_no_progress (with_reducible apply mkOut_rises)) | (fail_if_no_progress (with_reducible apply mkDraws_rises)) | split
    | (dsimp +zetaDelta only)

theorem takeReport_rises {a d : Device} (x1 : _) (x2 : _) (h : rises a d) : rises a (takeReport x1 x2 d) := by
  unfold takeReport
  repeat' first
    | with_reducible assumption | with_reducible rfl | with_reducible apply fenceBench_rises | with_reducible apply benchEnters_rises
    | (fail_if_no_progress (with_reducible apply mk_rises)) | (fail_if_no_progress (with_reducible refine mkGaffer_rises rfl rfl ?_))
    | with_reducible apply foldl_rises | intro _ | (extract_lets)
    | (fail_if_no_progress (with_reducible apply mkOut_rises)) | (fail_if_no_progress (with_reducible apply mkDraws_rises)) | split
    | (dsimp +zetaDelta only)

theorem endRollCall_rises {a d : Device}  (h : rises a d) : rises a (endRollCall d) := by
  unfold endRollCall
  repeat' first
    | with_reducible assumption | with_reducible rfl | with_reducible apply stopStart_rises
    | (fail_if_no_progress (with_reducible apply mk_rises)) | (fail_if_no_progress (with_reducible refine mkGaffer_rises rfl rfl ?_))
    | with_reducible apply foldl_rises | intro _ | (extract_lets) | (fail_if_no_progress (with_reducible apply mkOut_rises))
    | (fail_if_no_progress (with_reducible apply mkDraws_rises)) | split | (dsimp +zetaDelta only)

theorem initKeyStore_rises {a d : Device}  (h : rises a d) : rises a (initKeyStore d) := by
  unfold initKeyStore
  repeat' first
    | with_reducible assumption | with_reducible rfl | with_reducible apply drawStoreKeys_rises
    | (fail_if_no_progress (with_reducible apply mk_rises)) | (fail_if_no_progress (with_reducible refine mkGaffer_rises rfl rfl ?_))
    | with_reducible apply foldl_rises | intro _ | (extract_lets)
    | (fail_if_no_progress (with_reducible apply mkOut_rises)) | (fail_if_no_progress (with_reducible apply mkDraws_rises)) | split
    | (dsimp +zetaDelta only)

theorem endKeyStore_rises {a d : Device} (x1 : _) (h : rises a d) : rises a (endKeyStore x1 d) := by
  unfold endKeyStore
  repeat' first
    | with_reducible assumption | with_reducible rfl | with_reducible apply stopStart_rises | with_reducible apply initKeyStore_rises
    | with_reducible apply openWindow_rises | with_reducible apply loadRoots_rises
    | (fail_if_no_progress (with_reducible apply mk_rises)) | (fail_if_no_progress (with_reducible refine mkGaffer_rises rfl rfl ?_))
    | with_reducible apply foldl_rises | intro _ | (extract_lets)
    | (fail_if_no_progress (with_reducible apply mkOut_rises)) | (fail_if_no_progress (with_reducible apply mkDraws_rises)) | split
    | (dsimp +zetaDelta only)

theorem endGaffer_rises {a d : Device}  (h : rises a d) : rises a (endGaffer d) := by
  unfold endGaffer
  repeat' first
    | with_reducible assumption | with_reducible rfl | (fail_if_no_progress (with_reducible apply mk_rises))
    | (fail_if_no_progress (with_reducible refine mkGaffer_rises rfl rfl ?_)) | with_reducible apply foldl_rises | intro _ | (extract_lets)
    | (fail_if_no_progress (with_reducible apply mkOut_rises)) | (fail_if_no_progress (with_reducible apply mkDraws_rises)) | split
    | (dsimp +zetaDelta only)

theorem failPath_rises {a d : Device} (x1 : _) (h : rises a d) : rises a (failPath x1 d) := by
  unfold failPath
  repeat' first
    | with_reducible assumption | with_reducible rfl | with_reducible apply fencePath_rises | with_reducible apply startEntry_rises
    | (fail_if_no_progress (with_reducible apply mk_rises)) | (fail_if_no_progress (with_reducible refine mkGaffer_rises rfl rfl ?_))
    | with_reducible apply foldl_rises | intro _ | (extract_lets)
    | (fail_if_no_progress (with_reducible apply mkOut_rises)) | (fail_if_no_progress (with_reducible apply mkDraws_rises)) | split
    | (dsimp +zetaDelta only)

theorem endPaths_rises {a d : Device} (x1 : _) (h : rises a d) : rises a (endPaths x1 d) := by
  unfold endPaths
  repeat' first
    | with_reducible assumption | with_reducible rfl | with_reducible apply failPath_rises
    | with_reducible apply beginHeartbeat_rises
    | (fail_if_no_progress (with_reducible apply mk_rises)) | (fail_if_no_progress (with_reducible refine mkGaffer_rises rfl rfl ?_))
    | with_reducible apply foldl_rises | intro _ | (extract_lets)
    | (fail_if_no_progress (with_reducible apply mkOut_rises)) | (fail_if_no_progress (with_reducible apply mkDraws_rises)) | split
    | (dsimp +zetaDelta only)

theorem phaseWork_rises {a d : Device} (x1 : _) (h : rises a d) : rises a (phaseWork x1 d) := by
  unfold phaseWork
  repeat' first
    | with_reducible assumption | with_reducible rfl | with_reducible apply endCustody_rises | with_reducible apply endFuses_rises
    | with_reducible apply endGather_rises
    | with_reducible apply endNvm_rises | with_reducible apply endFirmware_rises | with_reducible apply endRollCall_rises
    | with_reducible apply endKeyStore_rises | with_reducible apply endGaffer_rises | with_reducible apply endPaths_rises
    | (fail_if_no_progress (with_reducible apply mk_rises)) | (fail_if_no_progress (with_reducible refine mkGaffer_rises rfl rfl ?_))
    | with_reducible apply foldl_rises | intro _ | (extract_lets)
    | (fail_if_no_progress (with_reducible apply mkOut_rises)) | (fail_if_no_progress (with_reducible apply mkDraws_rises)) | split
    | (dsimp +zetaDelta only)

theorem nextPhase_rises {a d : Device}  (h : rises a d) : rises a (nextPhase d) := by
  unfold nextPhase
  repeat' first
    | with_reducible assumption | with_reducible rfl | with_reducible apply startEntry_rises | with_reducible apply endStart_rises
    | (fail_if_no_progress (with_reducible apply mk_rises)) | (fail_if_no_progress (with_reducible refine mkGaffer_rises rfl rfl ?_))
    | with_reducible apply foldl_rises | intro _ | (extract_lets)
    | (fail_if_no_progress (with_reducible apply mkOut_rises)) | (fail_if_no_progress (with_reducible apply mkDraws_rises)) | split
    | (dsimp +zetaDelta only)

theorem endPhase_rises {a d : Device} (x1 : _) (h : rises a d) : rises a (endPhase x1 d) := by
  unfold endPhase
  repeat' first
    | with_reducible assumption | with_reducible rfl | with_reducible apply beginCustody_rises | with_reducible apply nextPhase_rises
    | with_reducible apply phaseWork_rises | (fail_if_no_progress (with_reducible apply mk_rises))
    | (fail_if_no_progress (with_reducible refine mkGaffer_rises rfl rfl ?_)) | with_reducible apply foldl_rises | intro _
    | (extract_lets) | (fail_if_no_progress (with_reducible apply mkOut_rises)) | (fail_if_no_progress (with_reducible apply mkDraws_rises)) | split
    | (dsimp +zetaDelta only)

theorem setPort_rises {a d : Device} (x1 : _) (x2 : _) (x3 : _) (h : rises a d) : rises a (setPort x1 x2 x3 d) := by
  unfold setPort
  repeat' first
    | with_reducible assumption | with_reducible rfl | (fail_if_no_progress (with_reducible apply mk_rises))
    | (fail_if_no_progress (with_reducible refine mkGaffer_rises rfl rfl ?_)) | with_reducible apply foldl_rises | intro _ | (extract_lets)
    | (fail_if_no_progress (with_reducible apply mkOut_rises)) | (fail_if_no_progress (with_reducible apply mkDraws_rises)) | split
    | (dsimp +zetaDelta only)

theorem tagFailure_rises {a d : Device} (x1 : _) (x2 : _) (x3 : _) (h : rises a d) : rises a (tagFailure x1 x2 x3 d) := by
  unfold tagFailure
  repeat' first
    | with_reducible assumption | with_reducible rfl | with_reducible apply dispatchAll_rises | with_reducible apply squashJob_rises
    | with_reducible apply emit_rises
    | (fail_if_no_progress (with_reducible apply mk_rises)) | (fail_if_no_progress (with_reducible refine mkGaffer_rises rfl rfl ?_))
    | with_reducible apply foldl_rises | intro _ | (extract_lets)
    | (fail_if_no_progress (with_reducible apply mkOut_rises)) | (fail_if_no_progress (with_reducible apply mkDraws_rises)) | split
    | (dsimp +zetaDelta only)

theorem chargeSlots_rises {a d : Device} (x1 : _) (x2 : _) (x3 : _) (h : rises a d) : rises a (chargeSlots x1 x2 x3 d) := by
  unfold chargeSlots
  repeat' first
    | with_reducible assumption | with_reducible rfl
    | (fail_if_no_progress (with_reducible apply mk_rises)) | (fail_if_no_progress (with_reducible refine mkGaffer_rises rfl rfl ?_))
    | with_reducible apply foldl_rises | intro _ | (extract_lets)
    | (fail_if_no_progress (with_reducible apply mkOut_rises)) | (fail_if_no_progress (with_reducible apply mkDraws_rises)) | split
    | (dsimp +zetaDelta only)

theorem noteFetched_rises {a d : Device} (x1 : _) (h : rises a d) : rises a (noteFetched x1 d) := by
  unfold noteFetched
  repeat' first
    | with_reducible assumption | with_reducible rfl | with_reducible apply modJob_rises
    | (fail_if_no_progress (with_reducible apply mk_rises)) | (fail_if_no_progress (with_reducible refine mkGaffer_rises rfl rfl ?_))
    | with_reducible apply foldl_rises | intro _ | (extract_lets)
    | (fail_if_no_progress (with_reducible apply mkOut_rises)) | (fail_if_no_progress (with_reducible apply mkDraws_rises)) | split
    | (dsimp +zetaDelta only)

theorem lookupNow_rises {a d : Device} (x1 : _) (x2 : _) (x3 : _) (h : rises a d) : rises a (lookupNow x1 x2 x3 d) := by
  unfold lookupNow
  repeat' first
    | with_reducible assumption | with_reducible rfl | with_reducible apply setPort_rises | with_reducible apply chargeSlots_rises
    | with_reducible apply noteFetched_rises | with_reducible apply dispatchAll_rises | with_reducible apply squashJob_rises
    | (fail_if_no_progress (with_reducible apply mk_rises)) | (fail_if_no_progress (with_reducible refine mkGaffer_rises rfl rfl ?_))
    | with_reducible apply foldl_rises | intro _ | (extract_lets)
    | (fail_if_no_progress (with_reducible apply mkOut_rises)) | (fail_if_no_progress (with_reducible apply mkDraws_rises)) | split
    | (dsimp +zetaDelta only)

theorem countLookup_rises {a d : Device}  (h : rises a d) : rises a (countLookup d) := by
  unfold countLookup
  repeat' first
    | with_reducible assumption | with_reducible rfl
    | (fail_if_no_progress (with_reducible apply mk_rises)) | (fail_if_no_progress (with_reducible refine mkGaffer_rises rfl rfl ?_))
    | with_reducible apply foldl_rises | intro _ | (extract_lets)
    | (fail_if_no_progress (with_reducible apply mkOut_rises)) | (fail_if_no_progress (with_reducible apply mkDraws_rises)) | split
    | (dsimp +zetaDelta only)

theorem lookupRequest_rises {a d : Device} (x1 : _) (x2 : _) (x3 : _) (x4 : _) (x5 : _) (h : rises a d) : rises a (lookupRequest x1 x2 x3 x4 x5 d) := by
  unfold lookupRequest
  repeat' first
    | with_reducible assumption | with_reducible rfl | with_reducible apply countLookup_rises | with_reducible apply setPort_rises
    | with_reducible apply lookupNow_rises
    | (fail_if_no_progress (with_reducible apply mk_rises)) | (fail_if_no_progress (with_reducible refine mkGaffer_rises rfl rfl ?_))
    | with_reducible apply foldl_rises | intro _ | (extract_lets)
    | (fail_if_no_progress (with_reducible apply mkOut_rises)) | (fail_if_no_progress (with_reducible apply mkDraws_rises)) | split
    | (dsimp +zetaDelta only)

theorem resumeGo_rises {a d : Device} (x1 : Nat) (h : rises a d) : rises a (resumeGo x1 d) := by
  induction x1 generalizing d with
  | zero => exact h
  | succ n ih =>
    unfold resumeGo
    split
    · exact h
    · exact ih (lookupNow_rises _ _ _ h)

theorem resumeLookups_rises {a d : Device}  (h : rises a d) : rises a (resumeLookups d) := by
  unfold resumeLookups
  repeat' first
    | with_reducible assumption | with_reducible rfl | with_reducible apply resumeGo_rises
    | (fail_if_no_progress (with_reducible apply mk_rises)) | (fail_if_no_progress (with_reducible refine mkGaffer_rises rfl rfl ?_))
    | with_reducible apply foldl_rises | intro _ | (extract_lets)
    | (fail_if_no_progress (with_reducible apply mkOut_rises)) | (fail_if_no_progress (with_reducible apply mkDraws_rises)) | split
    | (dsimp +zetaDelta only)

theorem convertSlot_rises {a d : Device} (x1 : _) (h : rises a d) : rises a (convertSlot x1 d) := by
  unfold convertSlot
  repeat' first
    | with_reducible assumption | with_reducible rfl | (fail_if_no_progress (with_reducible apply mk_rises))
    | (fail_if_no_progress (with_reducible refine mkGaffer_rises rfl rfl ?_)) | with_reducible apply foldl_rises | intro _ | (extract_lets)
    | (fail_if_no_progress (with_reducible apply mkOut_rises)) | (fail_if_no_progress (with_reducible apply mkDraws_rises)) | split
    | (dsimp +zetaDelta only)

theorem remaskGo_rises {a d : Device}  (h : rises a d) : rises a (remaskGo d) := by
  unfold remaskGo
  repeat' first
    | with_reducible assumption | with_reducible rfl | with_reducible apply convertSlot_rises
    | with_reducible apply resumeLookups_rises | with_reducible apply doEach_rises
    | (fail_if_no_progress (with_reducible apply mk_rises)) | (fail_if_no_progress (with_reducible refine mkGaffer_rises rfl rfl ?_))
    | with_reducible apply foldl_rises | intro _ | (extract_lets)
    | (fail_if_no_progress (with_reducible apply mkOut_rises)) | (fail_if_no_progress (with_reducible apply mkDraws_rises)) | split
    | (dsimp +zetaDelta only)

theorem beginStep_rises {a d : Device}  (h : rises a d) : rises a (beginStep d) := by
  unfold beginStep
  repeat' first
    | with_reducible assumption | with_reducible rfl | with_reducible apply remaskGo_rises
    | (fail_if_no_progress (with_reducible apply mk_rises)) | (fail_if_no_progress (with_reducible refine mkGaffer_rises rfl rfl ?_))
    | with_reducible apply foldl_rises | intro _ | (extract_lets)
    | (fail_if_no_progress (with_reducible apply mkOut_rises)) | (fail_if_no_progress (with_reducible apply mkDraws_rises)) | split
    | (dsimp +zetaDelta only)

theorem verdictIn_rises {a d : Device} (x1 : _) (x2 : _) (x3 : _) (x4 : _) (h : rises a d) : rises a (verdictIn x1 x2 x3 x4 d) := by
  unfold verdictIn
  repeat' first
    | with_reducible assumption | with_reducible rfl | with_reducible apply tagFailure_rises | with_reducible apply setPort_rises
    | with_reducible apply remaskGo_rises
    | (fail_if_no_progress (with_reducible apply mk_rises)) | (fail_if_no_progress (with_reducible refine mkGaffer_rises rfl rfl ?_))
    | with_reducible apply foldl_rises | intro _ | (extract_lets)
    | (fail_if_no_progress (with_reducible apply mkOut_rises)) | (fail_if_no_progress (with_reducible apply mkDraws_rises)) | split
    | (dsimp +zetaDelta only)

theorem conversionEnds_rises {a d : Device} (x1 : _) (h : rises a d) : rises a (conversionEnds x1 d) := by
  unfold conversionEnds
  repeat' first
    | with_reducible assumption | with_reducible rfl | with_reducible apply convertSlot_rises | with_reducible apply resumeLookups_rises
    | with_reducible apply endRemask_rises | (fail_if_no_progress (with_reducible apply mk_rises))
    | (fail_if_no_progress (with_reducible refine mkGaffer_rises rfl rfl ?_)) | with_reducible apply foldl_rises | intro _
    | (extract_lets) | (fail_if_no_progress (with_reducible apply mkOut_rises)) | (fail_if_no_progress (with_reducible apply mkDraws_rises)) | split
    | (dsimp +zetaDelta only)

theorem stageResult_rises {a d : Device} (x1 : _) (x2 : _) (h : rises a d) : rises a (stageResult x1 x2 d) := by
  unfold stageResult
  repeat' first
    | with_reducible assumption | with_reducible rfl | with_reducible apply modJob_rises | (fail_if_no_progress (with_reducible apply mk_rises))
    | (fail_if_no_progress (with_reducible refine mkGaffer_rises rfl rfl ?_))
    | with_reducible apply foldl_rises | intro _ | (extract_lets) | (fail_if_no_progress (with_reducible apply mkOut_rises))
    | (fail_if_no_progress (with_reducible apply mkDraws_rises)) | split | (dsimp +zetaDelta only)

theorem countEvent_rises {a d : Device} (x1 : _) (x2 : _) (x3 : _) (x4 : _) (h : rises a d) : rises a (countEvent x1 x2 x3 x4 d) := by
  unfold countEvent
  repeat' first
    | with_reducible assumption | with_reducible rfl | with_reducible apply engineWork_rises | with_reducible apply modBench_rises
    | (fail_if_no_progress (with_reducible apply mk_rises)) | (fail_if_no_progress (with_reducible refine mkGaffer_rises rfl rfl ?_))
    | with_reducible apply foldl_rises | intro _ | (extract_lets)
    | (fail_if_no_progress (with_reducible apply mkOut_rises)) | (fail_if_no_progress (with_reducible apply mkDraws_rises)) | split
    | (dsimp +zetaDelta only)

theorem noteStaged_rises {a d : Device} (x1 : _) (x2 : _) (x3 : _) (h : rises a d) : rises a (noteStaged x1 x2 x3 d) := by
  unfold noteStaged
  repeat' first
    | with_reducible assumption | with_reducible rfl | with_reducible apply countEvent_rises
    | (fail_if_no_progress (with_reducible apply mk_rises)) | (fail_if_no_progress (with_reducible refine mkGaffer_rises rfl rfl ?_))
    | with_reducible apply foldl_rises | intro _ | (extract_lets)
    | (fail_if_no_progress (with_reducible apply mkOut_rises)) | (fail_if_no_progress (with_reducible apply mkDraws_rises)) | split
    | (dsimp +zetaDelta only)

theorem stage_rises {a d : Device} (x1 : _) (x2 : _) (x3 : _) (h : rises a d) : rises a (stage x1 x2 x3 d) := by
  unfold stage
  repeat' first
    | with_reducible assumption | with_reducible rfl | with_reducible apply stageResult_rises | with_reducible apply noteStaged_rises
    | (fail_if_no_progress (with_reducible apply mk_rises)) | (fail_if_no_progress (with_reducible refine mkGaffer_rises rfl rfl ?_))
    | with_reducible apply foldl_rises | intro _ | (extract_lets)
    | (fail_if_no_progress (with_reducible apply mkOut_rises)) | (fail_if_no_progress (with_reducible apply mkDraws_rises)) | split
    | (dsimp +zetaDelta only)

theorem integrityFault_rises {a d : Device} (x1 : _) (x2 : _) (h : rises a d) : rises a (integrityFault x1 x2 d) := by
  unfold integrityFault
  repeat' first
    | with_reducible assumption | with_reducible rfl | with_reducible apply dispatchAll_rises | with_reducible apply squashJob_rises
    | with_reducible apply tagFailure_rises | (fail_if_no_progress (with_reducible apply mk_rises))
    | (fail_if_no_progress (with_reducible refine mkGaffer_rises rfl rfl ?_)) | with_reducible apply foldl_rises | intro _
    | (extract_lets) | (fail_if_no_progress (with_reducible apply mkOut_rises)) | (fail_if_no_progress (with_reducible apply mkDraws_rises)) | split
    | (dsimp +zetaDelta only)

theorem askFor_rises {a d : Device} (x1 : _) (x2 : _) (x3 : _) (x4 : _) (h : rises a d) : rises a (askFor x1 x2 x3 x4 d) := by
  unfold askFor
  repeat' first
    | with_reducible assumption | with_reducible rfl | with_reducible apply request_rises
    | (fail_if_no_progress (with_reducible apply mk_rises)) | (fail_if_no_progress (with_reducible refine mkGaffer_rises rfl rfl ?_))
    | with_reducible apply foldl_rises | intro _ | (extract_lets)
    | (fail_if_no_progress (with_reducible apply mkOut_rises)) | (fail_if_no_progress (with_reducible apply mkDraws_rises)) | split
    | (dsimp +zetaDelta only)

theorem fetchKey_rises {a d : Device} (x1 : _) (x2 : _) (x4 : _) (h : rises a d) : rises a (fetchKey x1 x2 d x4) := by
  unfold fetchKey
  repeat' first
    | with_reducible assumption | with_reducible rfl | with_reducible apply askFor_rises | with_reducible apply lookupRequest_rises
    | with_reducible apply verdictIn_rises
    | (fail_if_no_progress (with_reducible apply mk_rises)) | (fail_if_no_progress (with_reducible refine mkGaffer_rises rfl rfl ?_))
    | with_reducible apply foldl_rises | intro _ | (extract_lets)
    | (fail_if_no_progress (with_reducible apply mkOut_rises)) | (fail_if_no_progress (with_reducible apply mkDraws_rises)) | split
    | (dsimp +zetaDelta only)

theorem releasePorts_rises {a d : Device} (x1 : _) (h : rises a d) : rises a (releasePorts x1 d) := by
  unfold releasePorts
  repeat' first
    | with_reducible assumption | with_reducible rfl | with_reducible apply releaseGrant_rises | with_reducible apply doEach_rises
    | (fail_if_no_progress (with_reducible apply mk_rises)) | (fail_if_no_progress (with_reducible refine mkGaffer_rises rfl rfl ?_))
    | with_reducible apply foldl_rises | intro _ | (extract_lets)
    | (fail_if_no_progress (with_reducible apply mkOut_rises)) | (fail_if_no_progress (with_reducible apply mkDraws_rises)) | split
    | (dsimp +zetaDelta only)

theorem fetchKeys_rises {a d : Device} (x1 : _) (x2 : _) (x3 : _) (h : rises a d) : rises a (fetchKeys x1 x2 x3 d) := by
  unfold fetchKeys
  repeat' first
    | with_reducible assumption | with_reducible rfl | with_reducible apply fetchKey_rises | with_reducible apply releasePorts_rises
    | (fail_if_no_progress (with_reducible apply mk_rises)) | (fail_if_no_progress (with_reducible refine mkGaffer_rises rfl rfl ?_))
    | with_reducible apply foldl_rises | intro _ | (extract_lets)
    | (fail_if_no_progress (with_reducible apply mkOut_rises)) | (fail_if_no_progress (with_reducible apply mkDraws_rises)) | split
    | (dsimp +zetaDelta only)

theorem loadDerived_rises {a d : Device} (x1 : _) (x2 : _) (x3 : _) (x4 : _) (h : rises a d) : rises a (loadDerived x1 x2 x3 x4 d) := by
  unfold loadDerived
  repeat' first
    | with_reducible assumption | with_reducible rfl | with_reducible apply engineWork_rises | with_reducible apply modEngine_rises
    | with_reducible apply doEach_rises
    | (fail_if_no_progress (with_reducible apply mk_rises)) | (fail_if_no_progress (with_reducible refine mkGaffer_rises rfl rfl ?_))
    | with_reducible apply foldl_rises | intro _ | (extract_lets)
    | (fail_if_no_progress (with_reducible apply mkOut_rises)) | (fail_if_no_progress (with_reducible apply mkDraws_rises)) | split
    | (dsimp +zetaDelta only)

theorem noteDerived_rises {a d : Device} (x1 : _) (x2 : _) (x3 : _) (h : rises a d) : rises a (noteDerived x1 x2 x3 d) := by
  unfold noteDerived
  repeat' first
    | with_reducible assumption | with_reducible rfl | with_reducible apply loadDerived_rises | with_reducible apply doWith_rises
    | (fail_if_no_progress (with_reducible apply mk_rises)) | (fail_if_no_progress (with_reducible refine mkGaffer_rises rfl rfl ?_))
    | with_reducible apply foldl_rises | intro _ | (extract_lets)
    | (fail_if_no_progress (with_reducible apply mkOut_rises)) | (fail_if_no_progress (with_reducible apply mkDraws_rises)) | split
    | (dsimp +zetaDelta only)

theorem finishRun_rises {a d : Device} (x1 : Verb) (x2 : CoreRef) (x3 : Job) (x4 : Bytes) (hn : ∀ b j x, rises a x → rises a (x1.note b j x))
    (h : rises a d) : rises a (finishRun x1 x2 x3 x4 d) := by
  unfold finishRun
  extract_lets st
  split
  · exact modJob_rises _ _ (fun _ _ => rfl) h
  · exact stage_rises _ _ _ (hn _ _ _ (noteDerived_rises _ _ _ h))

theorem freshSeed_rises {a d : Device} (x1 : _) (h : rises a d) : rises a (freshSeed x1 d) := by
  unfold freshSeed
  repeat' first
    | with_reducible assumption | with_reducible rfl | (fail_if_no_progress (with_reducible apply mk_rises))
    | (fail_if_no_progress (with_reducible refine mkGaffer_rises rfl rfl ?_)) | with_reducible apply foldl_rises | intro _ | (extract_lets)
    | (fail_if_no_progress (with_reducible apply mkOut_rises)) | (fail_if_no_progress (with_reducible apply mkDraws_rises)) | split
    | (dsimp +zetaDelta only)

theorem waitSeed_rises {a d : Device} (x1 : _) (x2 : _) (x3 : _) (h : rises a d) : rises a (waitSeed x1 x2 x3 d) := by
  unfold waitSeed
  repeat' first
    | with_reducible assumption | with_reducible rfl | with_reducible apply askFor_rises | with_reducible apply servePool_rises
    | (fail_if_no_progress (with_reducible apply mk_rises)) | (fail_if_no_progress (with_reducible refine mkGaffer_rises rfl rfl ?_))
    | with_reducible apply foldl_rises | intro _ | (extract_lets)
    | (fail_if_no_progress (with_reducible apply mkOut_rises)) | (fail_if_no_progress (with_reducible apply mkDraws_rises)) | split
    | (dsimp +zetaDelta only)

theorem drawFor_rises {a d : Device} (x1 : _) (x2 : _) (x3 : _) (x4 : _) (h : rises a d) : rises a (drawFor x1 x2 x3 x4 d) := by
  unfold drawFor
  repeat' first
    | with_reducible assumption | with_reducible rfl | with_reducible apply waitSeed_rises | with_reducible apply askFor_rises
    | with_reducible apply releaseGrant_rises | with_reducible apply freshSeed_rises | with_reducible apply modJob_rises
    | with_reducible apply doWith_rises
    | (fail_if_no_progress (with_reducible apply mk_rises)) | (fail_if_no_progress (with_reducible refine mkGaffer_rises rfl rfl ?_))
    | with_reducible apply foldl_rises | intro _ | (extract_lets)
    | (fail_if_no_progress (with_reducible apply mkOut_rises)) | (fail_if_no_progress (with_reducible apply mkDraws_rises)) | split
    | (dsimp +zetaDelta only)

theorem callsGo_rises {a d : Device} (x1 : Verb) (x2 : CoreRef) (x3 x4 x5 : Nat) (h : rises a d) : rises a (callsGo x1 x2 x3 x4 x5 d) := by
  induction x5 generalizing d with
  | zero => exact h
  | succ n ih =>
    unfold callsGo
    exact doWith_rises _ _ (fun _ _ hx => iteRec_rises hx (ih (drawFor_rises _ _ _ _ hx))) h

theorem drawCalls_rises {a d : Device} (x1 : _) (x2 : _) (x3 : _) (x4 : _) (h : rises a d) : rises a (drawCalls x1 x2 x3 x4 d) := by
  unfold drawCalls
  repeat' first
    | with_reducible assumption | with_reducible rfl | with_reducible apply callsGo_rises
    | (fail_if_no_progress (with_reducible apply mk_rises)) | (fail_if_no_progress (with_reducible refine mkGaffer_rises rfl rfl ?_))
    | with_reducible apply foldl_rises | intro _ | (extract_lets)
    | (fail_if_no_progress (with_reducible apply mkOut_rises)) | (fail_if_no_progress (with_reducible apply mkDraws_rises)) | split
    | (dsimp +zetaDelta only)

theorem withDrawn_rises {a d : Device} (x1 : Verb) (x2 : CoreRef) (x3 : Nat) (x4 : Job) (f : Job → Device → Device)
    (hf : ∀ j x, rises a x → rises a (f j x)) (h : rises a d) : rises a (withDrawn x1 x2 x3 x4 f d) := by
  unfold withDrawn
  split
  · exact hf _ _ h
  · split
    · exact dispatchAll_rises (squashJob_rises _ _ h)
    · exact doWith_rises _ _ (fun _ _ hx => doIf_rises _ _ (fun _ hy => hf _ _ hy) hx) (drawCalls_rises _ _ _ _ h)

theorem lastStep_rises {a d : Device} (x1 : Verb) (x2 : CoreRef) (x3 : Job) (hn : ∀ b j x, rises a x → rises a (x1.note b j x))
    (h : rises a d) : rises a (lastStep x1 x2 x3 d) :=
  withDrawn_rises _ _ _ _ _ (fun _ _ hx => finishRun_rises _ _ _ _ hn hx) h

theorem runStep_rises {a d : Device} (x1 : Verb) (x2 : CoreRef) (x3 : Job) (hn : ∀ b j x, rises a x → rises a (x1.note b j x))
    (h : rises a d) : rises a (runStep x1 x2 x3 d) :=
  iteRec_rises (stage_rises _ _ _ h) (iteRec_rises (stage_rises _ _ _ h) (lastStep_rises _ _ _ hn h))

theorem engineEvent_rises {a d : Device} (x1 : _) (x2 : _) (x3 : _) (x4 : _) (x5 : _) (x6 : _) (h : rises a d) : rises a (engineEvent x1 x2 x3 x4 x5 x6 d) := by
  unfold engineEvent
  repeat' first
    | with_reducible assumption | with_reducible rfl | with_reducible apply emitVia_rises | (fail_if_no_progress (with_reducible apply mk_rises))
    | (fail_if_no_progress (with_reducible refine mkGaffer_rises rfl rfl ?_))
    | with_reducible apply foldl_rises | intro _ | (extract_lets) | (fail_if_no_progress (with_reducible apply mkOut_rises))
    | (fail_if_no_progress (with_reducible apply mkDraws_rises)) | split | (dsimp +zetaDelta only)

theorem setSticky_rises {a d : Device} (x1 : _) (x2 : _) (x3 : _) (h : rises a d) : rises a (setSticky x1 x2 x3 d) := by
  unfold setSticky
  repeat' first
    | with_reducible assumption | with_reducible rfl | with_reducible apply modBench_rises
    | (fail_if_no_progress (with_reducible apply mk_rises)) | (fail_if_no_progress (with_reducible refine mkGaffer_rises rfl rfl ?_))
    | with_reducible apply foldl_rises | intro _ | (extract_lets) | (fail_if_no_progress (with_reducible apply mkOut_rises))
    | (fail_if_no_progress (with_reducible apply mkDraws_rises)) | split | (dsimp +zetaDelta only)

theorem engineDiffers_rises {a d : Device} (x1 : _) (x2 : _) (x3 : _) (x4 : _) (h : rises a d) : rises a (engineDiffers x1 x2 x3 x4 d) := by
  unfold engineDiffers
  repeat' first
    | with_reducible assumption | with_reducible rfl | with_reducible apply dispatchAll_rises | with_reducible apply faultJob_rises
    | with_reducible apply faultKind_rises
    | with_reducible apply withdrawEngine_rises | (fail_if_no_progress (with_reducible apply mk_rises))
    | (fail_if_no_progress (with_reducible refine mkGaffer_rises rfl rfl ?_)) | with_reducible apply foldl_rises | intro _
    | (extract_lets) | (fail_if_no_progress (with_reducible apply mkOut_rises)) | (fail_if_no_progress (with_reducible apply mkDraws_rises)) | split
    | (dsimp +zetaDelta only)

theorem noteDifference_rises {a d : Device} (x1 : _) (x2 : _) (x3 : _) (x4 : _) (h : rises a d) : rises a (noteDifference x1 x2 x3 x4 d) := by
  unfold noteDifference
  repeat' first
    | with_reducible assumption | with_reducible rfl | with_reducible apply setSticky_rises | with_reducible apply engineCount_rises
    | with_reducible apply engineEvent_rises
    | (fail_if_no_progress (with_reducible apply mk_rises)) | (fail_if_no_progress (with_reducible refine mkGaffer_rises rfl rfl ?_))
    | with_reducible apply foldl_rises | intro _ | (extract_lets)
    | (fail_if_no_progress (with_reducible apply mkOut_rises)) | (fail_if_no_progress (with_reducible apply mkDraws_rises)) | split
    | (dsimp +zetaDelta only)

theorem compareEngine_rises {a d : Device} (x1 : _) (x2 : _) (x3 : _) (x4 : _) (h : rises a d) : rises a (compareEngine x1 x2 x3 x4 d) := by
  unfold compareEngine
  repeat' first
    | with_reducible assumption | with_reducible rfl | with_reducible apply engineDiffers_rises
    | with_reducible apply noteDifference_rises
    | (fail_if_no_progress (with_reducible apply mk_rises)) | (fail_if_no_progress (with_reducible refine mkGaffer_rises rfl rfl ?_))
    | with_reducible apply foldl_rises | intro _ | (extract_lets)
    | (fail_if_no_progress (with_reducible apply mkOut_rises)) | (fail_if_no_progress (with_reducible apply mkDraws_rises)) | split
    | (dsimp +zetaDelta only)

theorem processBlocks_rises {a d : Device} (x1 : Verb) (x2 : EngineKind) (x3 : Nat) (x4 : Grant) (x5 : Job) (h : rises a d) :
    rises a (processBlocks x1 x2 x3 x4 x5 d) :=
  engineWork_rises _ _ _ _ _ _ (modJob_rises _ _ (fun _ _ => by cases x2 <;> rfl) (setMoved_rises _ _ (modEngine_rises _ _ _ _ h)))

theorem segmentStep_rises {a d : Device} (x1 : _) (x2 : _) (x3 : _) (x4 : _) (x5 : _) (x6 : _) (h : rises a d) : rises a (segmentStep x1 x2 x3 x4 x5 x6 d) := by
  unfold segmentStep
  repeat' first
    | with_reducible assumption | with_reducible rfl | with_reducible apply compareEngine_rises
    | with_reducible apply processBlocks_rises | with_reducible apply askFor_rises | with_reducible apply releaseGrant_rises
    | with_reducible apply doWith_rises
    | (fail_if_no_progress (with_reducible apply mk_rises)) | (fail_if_no_progress (with_reducible refine mkGaffer_rises rfl rfl ?_))
    | with_reducible apply foldl_rises | intro _ | (extract_lets)
    | (fail_if_no_progress (with_reducible apply mkOut_rises)) | (fail_if_no_progress (with_reducible apply mkDraws_rises)) | split
    | (dsimp +zetaDelta only)

theorem runSegment_rises {a d : Device} (x1 : _) (x2 : _) (x3 : _) (h : rises a d) : rises a (runSegment x1 x2 x3 d) := by
  unfold runSegment
  repeat' first
    | with_reducible assumption | with_reducible rfl | with_reducible apply segmentStep_rises | with_reducible apply doWith_rises
    | (fail_if_no_progress (with_reducible apply mk_rises)) | (fail_if_no_progress (with_reducible refine mkGaffer_rises rfl rfl ?_))
    | with_reducible apply foldl_rises | intro _ | (extract_lets)
    | (fail_if_no_progress (with_reducible apply mkOut_rises)) | (fail_if_no_progress (with_reducible apply mkDraws_rises)) | split
    | (dsimp +zetaDelta only)

theorem segmentsGo_rises {a d : Device} (x1 : Verb) (x2 : CoreRef) (x3 : EngineKind) (x4 : Nat) (h : rises a d) : rises a (segmentsGo x1 x2 x3 x4 d) := by
  induction x4 generalizing d with
  | zero => exact h
  | succ n ih => exact ih (runSegment_rises _ _ _ h)

theorem runSegments_rises {a d : Device} (x1 : _) (x2 : _) (x3 : _) (h : rises a d) : rises a (runSegments x1 x2 x3 d) := by
  unfold runSegments
  repeat' first
    | with_reducible assumption | with_reducible rfl | with_reducible apply segmentsGo_rises | with_reducible apply doEach_rises
    | (fail_if_no_progress (with_reducible apply mk_rises)) | (fail_if_no_progress (with_reducible refine mkGaffer_rises rfl rfl ?_))
    | with_reducible apply foldl_rises | intro _ | (extract_lets)
    | (fail_if_no_progress (with_reducible apply mkOut_rises)) | (fail_if_no_progress (with_reducible apply mkDraws_rises)) | split
    | (dsimp +zetaDelta only)

theorem runOnEngines_rises {a d : Device} (x1 : Verb) (x2 : CoreRef) (x3 : Job) (hn : ∀ b j x, rises a x → rises a (x1.note b j x))
    (h : rises a d) : rises a (runOnEngines x1 x2 x3 d) := by
  unfold runOnEngines
  refine doWith_rises _ _ (fun _ _ hx => doIf_rises _ _ (fun _ hy => ?_) hx) (foldl_rises _ _ (fun _ _ hx => askFor_rises _ _ _ _ hx) h)
  exact doWith_rises _ _ (fun _ _ hz => doIf_rises _ _ (fun _ hw => runStep_rises _ _ _ hn hw) hz) (runSegments_rises _ _ _ hy)

theorem checkDrawn_rises {a d : Device} (x1 : Verb) (x2 : CoreRef) (x3 : Job) (hn : ∀ b j x, rises a x → rises a (x1.note b j x))
    (h : rises a d) : rises a (checkDrawn x1 x2 x3 d) :=
  iteRec_rises (stage_rises _ _ _ h) (runOnEngines_rises _ _ _ hn h)

theorem runChecked_rises {a d : Device} (x1 : Verb) (x2 : CoreRef) (x3 : Job) (hn : ∀ b j x, rises a x → rises a (x1.note b j x))
    (h : rises a d) : rises a (runChecked x1 x2 x3 d) := by
  unfold runChecked
  split
  · exact integrityFault_rises _ _ h
  · exact iteRec_rises (stage_rises _ _ _ h) (withDrawn_rises _ _ _ _ _ (fun _ _ hx => checkDrawn_rises _ _ _ hn hx) h)

theorem bringState_rises {a d : Device} (x1 : _) (x2 : _) (h : rises a d) : rises a (bringState x1 x2 d) := by
  unfold bringState
  repeat' first
    | with_reducible assumption | with_reducible rfl | with_reducible apply askFor_rises | with_reducible apply saveState_rises
    | with_reducible apply releaseGrant_rises | with_reducible apply dispatchAll_rises | with_reducible apply loseState_rises
    | with_reducible apply doWith_rises
    | (fail_if_no_progress (with_reducible apply mk_rises)) | (fail_if_no_progress (with_reducible refine mkGaffer_rises rfl rfl ?_))
    | with_reducible apply foldl_rises | intro _ | (extract_lets)
    | (fail_if_no_progress (with_reducible apply mkOut_rises)) | (fail_if_no_progress (with_reducible apply mkDraws_rises)) | split
    | (dsimp +zetaDelta only)

theorem runVerb_rises {a d : Device} (x1 : Verb) (x2 : CoreRef) (x3 : Job) (hn : ∀ b j x, rises a x → rises a (x1.note b j x))
    (h : rises a d) : rises a (runVerb x1 x2 x3 d) :=
  iteRec_rises (stage_rises _ _ _ h)
    (doWith_rises _ _ (fun _ _ hx => doIf_rises _ _ (fun _ hy => doWith_rises _ _ (fun _ _ hz => doIf_rises _ _ (fun _ hw => runChecked_rises _ _ _ hn hw) hz)
      (fetchKeys_rises _ _ _ hy)) hx) (bringState_rises _ _ h))

theorem afterReading_rises {a d : Device} (x1 : BitVec 16) (x2 : Verb) (x3 : CoreRef) (f : Device → Device) (hf : ∀ x, rises a x → rises a (f x))
    (h : rises a d) : rises a (afterReading x1 x2 x3 f d) :=
  doWith_rises _ _ (fun _ _ hx => doWith_rises _ _ (fun _ _ hy => doIf_rises _ _ (fun _ hz => hf _ hz) hy) (fetchKeys_rises _ _ _ hx)) h

theorem execVerb_rises {a d : Device} (x1 : BitVec 16) (v : Verb) (x3 : CoreRef) (hn : ∀ b j x, rises a x → rises a (v.note b j x))
    (h : rises a d) : rises a (execVerb x1 v x3 d) :=
  doWith_rises _ _ (fun _ _ hx => runVerb_rises _ _ _ hn hx) h

theorem setPortOf_rises {a d : Device} (x1 : _) (x2 : _) (h : rises a d) : rises a (setPortOf x1 x2 d) := by
  unfold setPortOf
  repeat' first
    | with_reducible assumption | with_reducible rfl | (fail_if_no_progress (with_reducible apply mk_rises))
    | (fail_if_no_progress (with_reducible refine mkGaffer_rises rfl rfl ?_)) | with_reducible apply foldl_rises | intro _ | (extract_lets)
    | (fail_if_no_progress (with_reducible apply mkOut_rises)) | (fail_if_no_progress (with_reducible apply mkDraws_rises)) | split
    | (dsimp +zetaDelta only)

theorem portFault_rises {a d : Device} (x1 : _) (x2 : _) (h : rises a d) : rises a (portFault x1 x2 d) := by
  unfold portFault
  repeat' first
    | with_reducible assumption | with_reducible rfl | with_reducible apply setPortOf_rises | with_reducible apply emitC_rises
    | (fail_if_no_progress (with_reducible apply mk_rises)) | (fail_if_no_progress (with_reducible refine mkGaffer_rises rfl rfl ?_))
    | with_reducible apply foldl_rises | intro _ | (extract_lets)
    | (fail_if_no_progress (with_reducible apply mkOut_rises)) | (fail_if_no_progress (with_reducible apply mkDraws_rises)) | split
    | (dsimp +zetaDelta only)

theorem endExchange_rises {a d : Device} (x1 : _) (h : rises a d) : rises a (endExchange x1 d) := by
  unfold endExchange
  repeat' first
    | with_reducible assumption | with_reducible rfl | with_reducible apply stage_rises | (fail_if_no_progress (with_reducible apply mk_rises))
    | (fail_if_no_progress (with_reducible refine mkGaffer_rises rfl rfl ?_))
    | with_reducible apply foldl_rises | intro _ | (extract_lets) | (fail_if_no_progress (with_reducible apply mkOut_rises))
    | (fail_if_no_progress (with_reducible apply mkDraws_rises)) | split | (dsimp +zetaDelta only)

theorem removeCard_rises {a d : Device} (x1 : _) (h : rises a d) : rises a (removeCard x1 d) := by
  unfold removeCard
  repeat' first
    | with_reducible assumption | with_reducible rfl | with_reducible apply endExchange_rises | with_reducible apply setPortOf_rises
    | with_reducible apply portFault_rises
    | (fail_if_no_progress (with_reducible apply mk_rises)) | (fail_if_no_progress (with_reducible refine mkGaffer_rises rfl rfl ?_))
    | with_reducible apply foldl_rises | intro _ | (extract_lets)
    | (fail_if_no_progress (with_reducible apply mkOut_rises)) | (fail_if_no_progress (with_reducible apply mkDraws_rises)) | split
    | (dsimp +zetaDelta only)

theorem sendCard_rises {a d : Device} (x1 : _) (x2 : _) (x3 : _) (h : rises a d) : rises a (sendCard x1 x2 x3 d) := by
  unfold sendCard
  repeat' first
    | with_reducible assumption | with_reducible rfl | (fail_if_no_progress (with_reducible apply mk_rises))
    | (fail_if_no_progress (with_reducible refine mkGaffer_rises rfl rfl ?_)) | with_reducible apply foldl_rises | intro _ | (extract_lets)
    | (fail_if_no_progress (with_reducible apply mkOut_rises)) | (fail_if_no_progress (with_reducible apply mkDraws_rises)) | split
    | (dsimp +zetaDelta only)

theorem readIdentity_rises {a d : Device} (x1 : _) (x2 : _) (h : rises a d) : rises a (readIdentity x1 x2 d) := by
  unfold readIdentity
  repeat' first
    | with_reducible assumption | with_reducible rfl | with_reducible apply setPortOf_rises | with_reducible apply sendCard_rises
    | (fail_if_no_progress (with_reducible apply mk_rises)) | (fail_if_no_progress (with_reducible refine mkGaffer_rises rfl rfl ?_))
    | with_reducible apply foldl_rises | intro _ | (extract_lets)
    | (fail_if_no_progress (with_reducible apply mkOut_rises)) | (fail_if_no_progress (with_reducible apply mkDraws_rises)) | split
    | (dsimp +zetaDelta only)

theorem closeFull_rises {a d : Device}  (h : rises a d) : rises a (closeFull d) := by
  unfold closeFull
  repeat' first
    | with_reducible assumption | with_reducible rfl | with_reducible apply setLevel_rises
    | (fail_if_no_progress (with_reducible apply mk_rises)) | (fail_if_no_progress (with_reducible refine mkGaffer_rises rfl rfl ?_))
    | with_reducible apply foldl_rises | intro _ | (extract_lets) | (fail_if_no_progress (with_reducible apply mkOut_rises))
    | (fail_if_no_progress (with_reducible apply mkDraws_rises)) | split | (dsimp +zetaDelta only)

theorem takeOwnership_rises {a d : Device} (x1 : Quorum) (x2 : List Card) (h : rises a d) : rises a (takeOwnership x1 x2 d) := by
  unfold takeOwnership
  refine closeUnpermitted_rises (noteTransition_rises _ (mk_rises (writeRecord_rises _ (withKeyDraw_rises _ _ (fun _ _ hx => mk_rises hx) ?_))))
  exact mkFuses_rises ⟨fun f => by cases f <;> exact Nat.le_refl _, id, id, fun _ => id⟩ (burn_rises _ (closeFull_rises h))

theorem commission_rises {a d : Device}  (h : rises a d) : rises a (commission d) := by
  unfold commission
  repeat' first
    | with_reducible assumption | with_reducible rfl | with_reducible apply burnTo_rises
    | with_reducible apply closeStartWindow_rises | with_reducible apply noteTransition_rises
    | (fail_if_no_progress (with_reducible apply mk_rises)) | (fail_if_no_progress (with_reducible refine mkGaffer_rises rfl rfl ?_))
    | with_reducible apply foldl_rises | intro _ | (extract_lets)
    | (fail_if_no_progress (with_reducible apply mkOut_rises)) | (fail_if_no_progress (with_reducible apply mkDraws_rises)) | split
    | (dsimp +zetaDelta only)

theorem changeRecord_rises {a d : Device} (x1 : _) (h : rises a d) : rises a (changeRecord x1 d) := by
  unfold changeRecord
  repeat' first
    | with_reducible assumption | with_reducible rfl | with_reducible apply writeRecord_rises
    | (fail_if_no_progress (with_reducible apply mk_rises)) | (fail_if_no_progress (with_reducible refine mkGaffer_rises rfl rfl ?_))
    | with_reducible apply foldl_rises | intro _ | (extract_lets) | (fail_if_no_progress (with_reducible apply mkOut_rises))
    | (fail_if_no_progress (with_reducible apply mkDraws_rises)) | split | (dsimp +zetaDelta only)

theorem openDiagnostic_rises {a d : Device} (x1 : _) (h : rises a d) : rises a (openDiagnostic x1 d) := by
  unfold openDiagnostic
  repeat' first
    | with_reducible assumption | with_reducible rfl | with_reducible apply setLevel_rises
    | (fail_if_no_progress (with_reducible apply mk_rises)) | (fail_if_no_progress (with_reducible refine mkGaffer_rises rfl rfl ?_))
    | with_reducible apply foldl_rises | intro _ | (extract_lets) | (fail_if_no_progress (with_reducible apply mkOut_rises))
    | (fail_if_no_progress (with_reducible apply mkDraws_rises)) | split | (dsimp +zetaDelta only)

theorem eraseOwnership_rises {a d : Device}  (h : rises a d) : rises a (eraseOwnership d) := by
  unfold eraseOwnership
  repeat' first
    | with_reducible assumption | with_reducible rfl | with_reducible apply fireCullet_rises | with_reducible apply burnTo_rises
    | with_reducible apply remaskOnExit_rises | with_reducible apply closeUnpermitted_rises
    | with_reducible apply noteTransition_rises
    | (fail_if_no_progress (with_reducible apply mk_rises)) | (fail_if_no_progress (with_reducible refine mkGaffer_rises rfl rfl ?_))
    | with_reducible apply foldl_rises | intro _ | (extract_lets)
    | (fail_if_no_progress (with_reducible apply mkOut_rises)) | (fail_if_no_progress (with_reducible apply mkDraws_rises)) | split
    | (dsimp +zetaDelta only)

theorem runProcedure_rises {a d : Device} (x1 : _) (h : rises a d) : rises a (runProcedure x1 d).1 := by
  unfold runProcedure
  repeat' first
    | with_reducible assumption | with_reducible rfl | with_reducible apply takeOwnership_rises
    | with_reducible apply commission_rises | with_reducible apply dispatchAll_rises | with_reducible apply unlockWork_rises
    | with_reducible apply changeRecord_rises | with_reducible apply deviceReseed_rises | with_reducible apply spend_rises
    | with_reducible apply openDiagnostic_rises | with_reducible apply eraseOwnership_rises | with_reducible apply burnRetired_rises
    | with_reducible apply fireCullet_rises
    | (fail_if_no_progress (with_reducible apply mk_rises)) | (fail_if_no_progress (with_reducible refine mkGaffer_rises rfl rfl ?_))
    | with_reducible apply foldl_rises | intro _ | (extract_lets)
    | (fail_if_no_progress (with_reducible apply mkOut_rises)) | (fail_if_no_progress (with_reducible apply mkDraws_rises)) | split
    | (dsimp +zetaDelta only)

theorem custodyRow_rises {a d : Device} (op : BitVec 16) (x2 : Job → Code) (x3 : Nat) (act : Nat → Job → Device → Device) (c : CoreRef)
    (ha : ∀ b j x, rises a x → rises a (act b j x)) (h : rises a d) : rises a (custodyRow op x2 x3 act c d) := by
  refine doWith_rises _ _ (fun _ x hx => ?_) h
  dsimp only; split
  · exact stage_rises _ _ _ hx
  · exact ha _ _ _ hx

theorem askQuorum_rises {a d : Device} (x1 : _) (x2 : _) (h : rises a d) : rises a (askQuorum x1 x2 d) := by
  unfold askQuorum
  repeat' first
    | with_reducible assumption | with_reducible rfl | with_reducible apply stage_rises | with_reducible apply openQuorum_rises
    | (fail_if_no_progress (with_reducible apply mk_rises)) | (fail_if_no_progress (with_reducible refine mkGaffer_rises rfl rfl ?_))
    | with_reducible apply foldl_rises | intro _ | (extract_lets)
    | (fail_if_no_progress (with_reducible apply mkOut_rises)) | (fail_if_no_progress (with_reducible apply mkDraws_rises)) | split
    | (dsimp +zetaDelta only)

theorem exchangeComponent_rises {a d : Device} (x1 : _) (x2 : _) (x3 : _) (h : rises a d) : rises a (exchangeComponent x1 x2 x3 d).1 := by
  unfold exchangeComponent
  repeat' first
    | with_reducible assumption | with_reducible rfl | with_reducible apply forDraw_rises | with_reducible apply sendCard_rises
    | with_reducible apply spend_rises | with_reducible apply deviceReseed_rises
    | (fail_if_no_progress (with_reducible apply mk_rises)) | (fail_if_no_progress (with_reducible refine mkGaffer_rises rfl rfl ?_))
    | with_reducible apply foldl_rises | intro _ | (extract_lets)
    | (fail_if_no_progress (with_reducible apply mkOut_rises)) | (fail_if_no_progress (with_reducible apply mkDraws_rises)) | split
    | (dsimp +zetaDelta only)

theorem finishPresent_rises {a d : Device} (x1 : _) (x2 : _) (x3 : _) (h : rises a d) : rises a (finishPresent x1 x2 x3 d) := by
  unfold finishPresent
  repeat' first
    | with_reducible assumption | with_reducible rfl | with_reducible apply stage_rises | with_reducible apply runProcedure_rises
    | with_reducible apply emitC_rises
    | with_reducible apply notice_rises | (fail_if_no_progress (with_reducible apply mk_rises))
    | (fail_if_no_progress (with_reducible refine mkGaffer_rises rfl rfl ?_)) | with_reducible apply foldl_rises | intro _
    | (extract_lets) | (fail_if_no_progress (with_reducible apply mkOut_rises)) | (fail_if_no_progress (with_reducible apply mkDraws_rises)) | split
    | (dsimp +zetaDelta only)

theorem presentIdentity_rises {a d : Device} (x1 : Nat) (x2 : Job) (x3 : Bool) (x4 : Quorum) (x5 : CardReply) (h : rises a d) :
    rises a (presentIdentity x1 x2 x3 x4 x5 d) := by
  unfold presentIdentity
  extract_lets new c code d0 challenge d1 digest d2
  have h2 : rises a d2 := sendCard_rises _ _ _ (spend_rises _ _ (forDraw_rises _ _ h))
  split
  · exact stage_rises _ _ _ h
  · split
    · exact stage_rises _ _ _ h2
    · have h3 := exchangeComponent_rises x3 (countCard x4 new c d2.time.ticks) x5 h2
      generalize exchangeComponent x3 (countCard x4 new c d2.time.ticks) x5 d2 = p at h3 ⊢
      obtain ⟨e, o⟩ := p
      cases o
      · exact stage_rises _ _ _ h3
      · exact finishPresent_rises _ _ _ h3

theorem presentCard_rises {a d : Device} (x1 : _) (x2 : _) (x3 : _) (h : rises a d) : rises a (presentCard x1 x2 x3 d) := by
  unfold presentCard
  repeat' first
    | with_reducible assumption | with_reducible rfl | with_reducible apply stage_rises | with_reducible apply readIdentity_rises
    | with_reducible apply portFault_rises
    | with_reducible apply dispatchAll_rises | with_reducible apply squashJob_rises | with_reducible apply presentIdentity_rises
    | (fail_if_no_progress (with_reducible apply mk_rises)) | (fail_if_no_progress (with_reducible refine mkGaffer_rises rfl rfl ?_))
    | with_reducible apply foldl_rises | intro _ | (extract_lets)
    | (fail_if_no_progress (with_reducible apply mkOut_rises)) | (fail_if_no_progress (with_reducible apply mkDraws_rises)) | split
    | (dsimp +zetaDelta only)

theorem programFactory_rises {a d : Device} (x1 : Bytes) (x2 : FactoryCalibration) (x3 : Part) (h : rises a d) : rises a (programFactory x1 x2 x3 d) := by
  unfold programFactory
  refine noteTransition_rises _ ?_
  exact mkFuses_rises ⟨fun f => by cases f <;> exact Nat.le_refl _, fun _ => rfl, id, fun _ => id⟩ (closeFull_rises h)

theorem componentRow_rises {a d : Device} (op : BitVec 16) (x2 : Job → Code) (x3 : Device → Job → Nat) (x4 : Device → Job → Code)
    (act : Nat → Job → Device → Device) (c : CoreRef)
    (ha : ∀ b j x, rises a x → rises a (act b j x)) (h : rises a d) : rises a (componentRow op x2 x3 x4 act c d) := by
  refine doWith_rises _ _ (fun _ x hx => ?_) h
  dsimp only; split
  · exact stage_rises _ _ _ hx
  · exact ha _ _ _ hx

theorem askSession_rises {a d : Device} (x1 : _) (x2 : _) (h : rises a d) : rises a (askSession x1 x2 d) := by
  unfold askSession
  repeat' first
    | with_reducible assumption | with_reducible rfl | with_reducible apply stage_rises | with_reducible apply beginSession_rises
    | (fail_if_no_progress (with_reducible apply mk_rises)) | (fail_if_no_progress (with_reducible refine mkGaffer_rises rfl rfl ?_))
    | with_reducible apply foldl_rises | intro _ | (extract_lets)
    | (fail_if_no_progress (with_reducible apply mkOut_rises)) | (fail_if_no_progress (with_reducible apply mkDraws_rises)) | split
    | (dsimp +zetaDelta only)

theorem addComponent_rises {a d : Device} (x1 : _) (x2 : _) (x3 : _) (x4 : _) (x5 : _) (h : rises a d) : rises a (addComponent x1 x2 x3 x4 x5 d) := by
  unfold addComponent
  repeat' first
    | with_reducible assumption | with_reducible rfl | with_reducible apply stage_rises | with_reducible apply forDraw_rises
    | with_reducible apply spend_rises | with_reducible apply sendCard_rises
    | (fail_if_no_progress (with_reducible apply mk_rises)) | (fail_if_no_progress (with_reducible refine mkGaffer_rises rfl rfl ?_))
    | with_reducible apply foldl_rises | intro _ | (extract_lets)
    | (fail_if_no_progress (with_reducible apply mkOut_rises)) | (fail_if_no_progress (with_reducible apply mkDraws_rises)) | split
    | (dsimp +zetaDelta only)

theorem exchangeAdd_rises {a d : Device} (x1 : _) (x2 : _) (x3 : _) (h : rises a d) : rises a (exchangeAdd x1 x2 x3 d) := by
  unfold exchangeAdd
  repeat' first
    | with_reducible assumption | with_reducible rfl | with_reducible apply stage_rises | with_reducible apply readIdentity_rises
    | with_reducible apply portFault_rises
    | with_reducible apply dispatchAll_rises | with_reducible apply squashJob_rises | with_reducible apply addComponent_rises
    | (fail_if_no_progress (with_reducible apply mk_rises)) | (fail_if_no_progress (with_reducible refine mkGaffer_rises rfl rfl ?_))
    | with_reducible apply foldl_rises | intro _ | (extract_lets)
    | (fail_if_no_progress (with_reducible apply mkOut_rises)) | (fail_if_no_progress (with_reducible apply mkDraws_rises)) | split
    | (dsimp +zetaDelta only)

theorem countSeal_rises {a d : Device} (x1 : _) (h : rises a d) : rises a (countSeal x1 d) := by
  unfold countSeal
  repeat' first
    | with_reducible assumption | with_reducible rfl | with_reducible apply modBench_rises
    | (fail_if_no_progress (with_reducible apply mk_rises)) | (fail_if_no_progress (with_reducible refine mkGaffer_rises rfl rfl ?_))
    | with_reducible apply foldl_rises | intro _ | (extract_lets) | (fail_if_no_progress (with_reducible apply mkOut_rises))
    | (fail_if_no_progress (with_reducible apply mkDraws_rises)) | split | (dsimp +zetaDelta only)

theorem noteData_rises {a d : Device} (x1 : _) (x2 : _) (x3 : _) (h : rises a d) : rises a (noteData x1 x2 x3 d) := by
  unfold noteData
  repeat' first
    | with_reducible assumption | with_reducible rfl | with_reducible apply countEvent_rises | with_reducible apply countSeal_rises
    | (fail_if_no_progress (with_reducible apply mk_rises)) | (fail_if_no_progress (with_reducible refine mkGaffer_rises rfl rfl ?_))
    | with_reducible apply foldl_rises | intro _ | (extract_lets)
    | (fail_if_no_progress (with_reducible apply mkOut_rises)) | (fail_if_no_progress (with_reducible apply mkDraws_rises)) | split
    | (dsimp +zetaDelta only)

theorem noteMac_rises {a d : Device} (x1 : _) (x2 : _) (x3 : _) (h : rises a d) : rises a (noteMac x1 x2 x3 d) := by
  unfold noteMac
  repeat' first
    | with_reducible assumption | with_reducible rfl | with_reducible apply countEvent_rises | with_reducible apply countSeal_rises
    | (fail_if_no_progress (with_reducible apply mk_rises)) | (fail_if_no_progress (with_reducible refine mkGaffer_rises rfl rfl ?_))
    | with_reducible apply foldl_rises | intro _ | (extract_lets)
    | (fail_if_no_progress (with_reducible apply mkOut_rises)) | (fail_if_no_progress (with_reducible apply mkDraws_rises)) | split
    | (dsimp +zetaDelta only)

theorem noteDigest_rises {a d : Device} (x1 : _) (x2 : _) (h : rises a d) : rises a (noteDigest x1 x2 d) := by
  unfold noteDigest
  repeat' first
    | with_reducible assumption | with_reducible rfl | with_reducible apply countEvent_rises | with_reducible apply countSeal_rises
    | (fail_if_no_progress (with_reducible apply mk_rises)) | (fail_if_no_progress (with_reducible refine mkGaffer_rises rfl rfl ?_))
    | with_reducible apply foldl_rises | intro _ | (extract_lets)
    | (fail_if_no_progress (with_reducible apply mkOut_rises)) | (fail_if_no_progress (with_reducible apply mkDraws_rises)) | split
    | (dsimp +zetaDelta only)

theorem giveUp_rises {a d : Device} (x1 : _) (h : rises a d) : rises a (giveUp x1 d) := by
  unfold giveUp
  repeat' first
    | with_reducible assumption | with_reducible rfl | with_reducible apply dispatchAll_rises | with_reducible apply squashJob_rises
    | with_reducible apply emitVia_rises
    | (fail_if_no_progress (with_reducible apply mk_rises)) | (fail_if_no_progress (with_reducible refine mkGaffer_rises rfl rfl ?_))
    | with_reducible apply foldl_rises | intro _ | (extract_lets)
    | (fail_if_no_progress (with_reducible apply mkOut_rises)) | (fail_if_no_progress (with_reducible apply mkDraws_rises)) | split
    | (dsimp +zetaDelta only)

theorem endImage_rises {a d : Device} (x1 : _) (x2 : _) (h : rises a d) : rises a (endImage x1 x2 d) := by
  unfold endImage
  repeat' first
    | with_reducible assumption | with_reducible rfl | with_reducible apply commitJob_rises | with_reducible apply finishJob_rises
    | (fail_if_no_progress (with_reducible apply mk_rises)) | (fail_if_no_progress (with_reducible refine mkGaffer_rises rfl rfl ?_))
    | with_reducible apply foldl_rises | intro _ | (extract_lets)
    | (fail_if_no_progress (with_reducible apply mkOut_rises)) | (fail_if_no_progress (with_reducible apply mkDraws_rises)) | split
    | (dsimp +zetaDelta only)

theorem imageWritten_rises {a d : Device} (x1 : _) (x2 : _) (h : rises a d) : rises a (imageWritten x1 x2 d) := by
  unfold imageWritten
  repeat' first
    | with_reducible assumption | with_reducible rfl | with_reducible apply endImage_rises | with_reducible apply emit_rises
    | (fail_if_no_progress (with_reducible apply mk_rises)) | (fail_if_no_progress (with_reducible refine mkGaffer_rises rfl rfl ?_))
    | with_reducible apply foldl_rises | intro _ | (extract_lets)
    | (fail_if_no_progress (with_reducible apply mkOut_rises)) | (fail_if_no_progress (with_reducible apply mkDraws_rises)) | split
    | (dsimp +zetaDelta only)

theorem signStatement_rises {a d : Device} (x1 : _) (x2 : _) (h : rises a d) : rises a (signStatement x1 x2 d) := by
  unfold signStatement
  repeat' first
    | with_reducible assumption | with_reducible rfl | with_reducible apply dispatchAll_rises | with_reducible apply squashJob_rises
    | with_reducible apply withDraw_rises | with_reducible apply stage_rises
    | (fail_if_no_progress (with_reducible apply mk_rises)) | (fail_if_no_progress (with_reducible refine mkGaffer_rises rfl rfl ?_))
    | with_reducible apply foldl_rises | intro _ | (extract_lets)
    | (fail_if_no_progress (with_reducible apply mkOut_rises)) | (fail_if_no_progress (with_reducible apply mkDraws_rises)) | split
    | (dsimp +zetaDelta only)

theorem attestStep_rises {a d : Device} (x1 : _) (x2 : _) (h : rises a d) : rises a (attestStep x1 x2 d) := by
  unfold attestStep
  repeat' first
    | with_reducible assumption | with_reducible rfl | with_reducible apply signStatement_rises
    | (fail_if_no_progress (with_reducible apply mk_rises)) | (fail_if_no_progress (with_reducible refine mkGaffer_rises rfl rfl ?_))
    | with_reducible apply foldl_rises | intro _ | (extract_lets) | (fail_if_no_progress (with_reducible apply mkOut_rises))
    | (fail_if_no_progress (with_reducible apply mkDraws_rises)) | split | (dsimp +zetaDelta only)

theorem runPass_rises {a d : Device} (x1 : _) (x2 : _) (x3 : _) (x4 : _) (h : rises a d) : rises a (runPass x1 x2 x3 x4 d) := by
  unfold runPass
  repeat' first
    | with_reducible assumption | with_reducible rfl | with_reducible apply engineWork_rises | with_reducible apply modBench_rises
    | with_reducible apply modEngine_rises
    | (fail_if_no_progress (with_reducible apply mk_rises)) | (fail_if_no_progress (with_reducible refine mkGaffer_rises rfl rfl ?_))
    | with_reducible apply foldl_rises | intro _ | (extract_lets)
    | (fail_if_no_progress (with_reducible apply mkOut_rises)) | (fail_if_no_progress (with_reducible apply mkDraws_rises)) | split
    | (dsimp +zetaDelta only)

theorem noteForeign_rises {a d : Device} (x1 : _) (x2 : _) (x3 : _) (x4 : _) (h : rises a d) : rises a (noteForeign x1 x2 x3 x4 d) := by
  unfold noteForeign
  repeat' first
    | with_reducible assumption | with_reducible rfl | with_reducible apply setSticky_rises | with_reducible apply engineCount_rises
    | with_reducible apply engineEvent_rises
    | (fail_if_no_progress (with_reducible apply mk_rises)) | (fail_if_no_progress (with_reducible refine mkGaffer_rises rfl rfl ?_))
    | with_reducible apply foldl_rises | intro _ | (extract_lets)
    | (fail_if_no_progress (with_reducible apply mkOut_rises)) | (fail_if_no_progress (with_reducible apply mkDraws_rises)) | split
    | (dsimp +zetaDelta only)

theorem noteSpill_rises {a d : Device} (x1 : _) (x2 : _) (x3 : _) (h : rises a d) : rises a (noteSpill x1 x2 x3 d) := by
  unfold noteSpill
  repeat' first
    | with_reducible assumption | with_reducible rfl | with_reducible apply setSticky_rises | with_reducible apply engineCount_rises
    | with_reducible apply modEngine_rises | with_reducible apply engineEvent_rises
    | (fail_if_no_progress (with_reducible apply mk_rises)) | (fail_if_no_progress (with_reducible refine mkGaffer_rises rfl rfl ?_))
    | with_reducible apply foldl_rises | intro _ | (extract_lets)
    | (fail_if_no_progress (with_reducible apply mkOut_rises)) | (fail_if_no_progress (with_reducible apply mkDraws_rises)) | split
    | (dsimp +zetaDelta only)

theorem onePass_rises {a d : Device} (x1 : _) (x2 : _) (x3 : _) (x4 : _) (h : rises a d) : rises a (onePass x1 x2 x3 x4 d).1 := by
  unfold onePass
  repeat' first
    | with_reducible assumption | with_reducible rfl | with_reducible apply runPass_rises | with_reducible apply noteForeign_rises
    | with_reducible apply noteSpill_rises | with_reducible apply doEach_rises
    | (fail_if_no_progress (with_reducible apply mk_rises)) | (fail_if_no_progress (with_reducible refine mkGaffer_rises rfl rfl ?_))
    | with_reducible apply foldl_rises | intro _ | (extract_lets)
    | (fail_if_no_progress (with_reducible apply mkOut_rises)) | (fail_if_no_progress (with_reducible apply mkDraws_rises)) | split
    | (dsimp +zetaDelta only)

theorem spillEnds_rises {a d : Device} (x1 : _) (x2 : _) (x3 : _) (h : rises a d) : rises a (spillEnds x1 x2 x3 d) := by
  unfold spillEnds
  repeat' first
    | with_reducible assumption | with_reducible rfl | with_reducible apply dispatchAll_rises | with_reducible apply squashJob_rises
    | with_reducible apply withdrawEngine_rises | with_reducible apply modJob_rises | with_reducible apply doEach_rises
    | (fail_if_no_progress (with_reducible apply mk_rises)) | (fail_if_no_progress (with_reducible refine mkGaffer_rises rfl rfl ?_))
    | with_reducible apply foldl_rises | intro _ | (extract_lets)
    | (fail_if_no_progress (with_reducible apply mkOut_rises)) | (fail_if_no_progress (with_reducible apply mkDraws_rises)) | split
    | (dsimp +zetaDelta only)

theorem noteMismatch_rises {a d : Device} (x1 : _) (x2 : _) (x3 : _) (x4 : _) (h : rises a d) : rises a (noteMismatch x1 x2 x3 x4 d) := by
  unfold noteMismatch
  repeat' first
    | with_reducible assumption | with_reducible rfl | with_reducible apply setSticky_rises | with_reducible apply engineCount_rises
    | with_reducible apply engineEvent_rises | with_reducible apply withdrawEngine_rises | with_reducible apply faultKind_rises
    | (fail_if_no_progress (with_reducible apply mk_rises)) | (fail_if_no_progress (with_reducible refine mkGaffer_rises rfl rfl ?_))
    | with_reducible apply foldl_rises | intro _ | (extract_lets)
    | (fail_if_no_progress (with_reducible apply mkOut_rises)) | (fail_if_no_progress (with_reducible apply mkDraws_rises)) | split
    | (dsimp +zetaDelta only)

theorem noteCompared_rises {a d : Device} (x1 : _) (x2 : _) (h : rises a d) : rises a (noteCompared x1 x2 d) := by
  unfold noteCompared
  repeat' first
    | with_reducible assumption | with_reducible rfl | with_reducible apply giveUp_rises | with_reducible apply modJob_rises
    | (fail_if_no_progress (with_reducible apply mk_rises)) | (fail_if_no_progress (with_reducible refine mkGaffer_rises rfl rfl ?_))
    | with_reducible apply foldl_rises | intro _ | (extract_lets)
    | (fail_if_no_progress (with_reducible apply mkOut_rises)) | (fail_if_no_progress (with_reducible apply mkDraws_rises)) | split
    | (dsimp +zetaDelta only)

theorem operationEnd_rises {a d : Device} (x1 : _) (x2 : _) (x3 : _) (x4 : _) (x5 : _) (h : rises a d) : rises a (operationEnd x1 x2 x3 x4 x5 d) := by
  unfold operationEnd
  repeat' first
    | with_reducible assumption | with_reducible rfl | with_reducible apply onePass_rises | with_reducible apply noteMismatch_rises
    | with_reducible apply dispatchAll_rises | with_reducible apply squashJob_rises | with_reducible apply withdrawEngine_rises
    | with_reducible apply spillEnds_rises | with_reducible apply faultJob_rises | with_reducible apply noteCompared_rises
    | with_reducible apply doEach_rises
    | (fail_if_no_progress (with_reducible apply mk_rises)) | (fail_if_no_progress (with_reducible refine mkGaffer_rises rfl rfl ?_))
    | with_reducible apply foldl_rises | intro _ | (extract_lets)
    | (fail_if_no_progress (with_reducible apply mkOut_rises)) | (fail_if_no_progress (with_reducible apply mkDraws_rises)) | split
    | (dsimp +zetaDelta only)

theorem oneBlock_rises {a d : Device} (x1 : _) (x2 : _) (x3 : _) (x4 : _) (x5 : _) (h : rises a d) : rises a (oneBlock x1 x2 x3 x4 x5 d) := by
  unfold oneBlock
  repeat' first
    | with_reducible assumption | with_reducible rfl | with_reducible apply segmentStep_rises
    | with_reducible apply compareEngine_rises
    | (fail_if_no_progress (with_reducible apply mk_rises)) | (fail_if_no_progress (with_reducible refine mkGaffer_rises rfl rfl ?_))
    | with_reducible apply foldl_rises | intro _ | (extract_lets)
    | (fail_if_no_progress (with_reducible apply mkOut_rises)) | (fail_if_no_progress (with_reducible apply mkDraws_rises)) | split
    | (dsimp +zetaDelta only)

theorem blockEnd_rises {a d : Device} (x1 : _) (x2 : _) (x3 : _) (x4 : _) (x5 : _) (h : rises a d) : rises a (blockEnd x1 x2 x3 x4 x5 d) := by
  unfold blockEnd
  repeat' first
    | with_reducible assumption | with_reducible rfl | with_reducible apply noteDifference_rises
    | with_reducible apply engineEvent_rises | with_reducible apply setSticky_rises | with_reducible apply engineCount_rises
    | with_reducible apply engineDiffers_rises | with_reducible apply oneBlock_rises | with_reducible apply doWith_rises
    | (fail_if_no_progress (with_reducible apply mk_rises)) | (fail_if_no_progress (with_reducible refine mkGaffer_rises rfl rfl ?_))
    | with_reducible apply foldl_rises | intro _ | (extract_lets)
    | (fail_if_no_progress (with_reducible apply mkOut_rises)) | (fail_if_no_progress (with_reducible apply mkDraws_rises)) | split
    | (dsimp +zetaDelta only)

theorem katWithdraw_rises {a d : Device} (x1 : _) (h : rises a d) : rises a (katWithdraw x1 d) := by
  unfold katWithdraw
  repeat' first
    | with_reducible assumption | with_reducible rfl | with_reducible apply withdrawEngine_rises | with_reducible apply modBench_rises
    | (fail_if_no_progress (with_reducible apply mk_rises)) | (fail_if_no_progress (with_reducible refine mkGaffer_rises rfl rfl ?_))
    | with_reducible apply foldl_rises | intro _ | (extract_lets)
    | (fail_if_no_progress (with_reducible apply mkOut_rises)) | (fail_if_no_progress (with_reducible apply mkDraws_rises)) | split
    | (dsimp +zetaDelta only)

theorem campaignGo_rises {a d : Device} (x1 : Nat) (x2 : EngineKind) (x3 : Nat) (h : rises a d) : rises a (campaignGo x1 x2 x3 d) := by
  induction x3 generalizing d with
  | zero => exact h
  | succ n ih =>
    unfold campaignGo
    split
    · exact h
    · split
      · exact h
      · exact ih (withdrawEngine_rises _ _ _ _ (setSticky_rises _ _ _ h))

theorem campaignOn_rises {a d : Device} (x1 : _) (x2 : _) (h : rises a d) : rises a (campaignOn x1 x2 d) := by
  unfold campaignOn
  repeat' first
    | with_reducible assumption | with_reducible rfl | with_reducible apply campaignGo_rises | with_reducible apply setSticky_rises
    | with_reducible apply closeWindow_rises
    | (fail_if_no_progress (with_reducible apply mk_rises)) | (fail_if_no_progress (with_reducible refine mkGaffer_rises rfl rfl ?_))
    | with_reducible apply foldl_rises | intro _ | (extract_lets)
    | (fail_if_no_progress (with_reducible apply mkOut_rises)) | (fail_if_no_progress (with_reducible apply mkDraws_rises)) | split
    | (dsimp +zetaDelta only)

theorem katEnd_rises {a d : Device} (x1 : _) (x2 : _) (x3 : _) (x4 : _) (h : rises a d) : rises a (katEnd x1 x2 x3 x4 d) := by
  unfold katEnd
  repeat' first
    | with_reducible assumption | with_reducible rfl | with_reducible apply engineCount_rises | with_reducible apply modEngine_rises
    | with_reducible apply beginDue_rises | with_reducible apply retireEngine_rises | with_reducible apply dispatchAll_rises
    | with_reducible apply arbitrate_rises | with_reducible apply campaignOn_rises
    | (fail_if_no_progress (with_reducible apply mk_rises)) | (fail_if_no_progress (with_reducible refine mkGaffer_rises rfl rfl ?_))
    | with_reducible apply foldl_rises | intro _ | (extract_lets)
    | (fail_if_no_progress (with_reducible apply mkOut_rises)) | (fail_if_no_progress (with_reducible apply mkDraws_rises)) | split
    | (dsimp +zetaDelta only)

theorem startCampaign_rises {a d : Device} (x1 : _) (x2 : _) (x3 : _) (h : rises a d) : rises a (startCampaign x1 x2 x3 d) := by
  unfold startCampaign
  repeat' first
    | with_reducible assumption | with_reducible rfl | with_reducible apply setSticky_rises | with_reducible apply campaignOn_rises
    | with_reducible apply openWindow_rises
    | (fail_if_no_progress (with_reducible apply mk_rises)) | (fail_if_no_progress (with_reducible refine mkGaffer_rises rfl rfl ?_))
    | with_reducible apply foldl_rises | intro _ | (extract_lets)
    | (fail_if_no_progress (with_reducible apply mkOut_rises)) | (fail_if_no_progress (with_reducible apply mkDraws_rises)) | split
    | (dsimp +zetaDelta only)

theorem cancelTenant_rises {a d : Device} (x1 : _) (h : rises a d) : rises a (cancelTenant x1 d) := by
  unfold cancelTenant
  repeat' first
    | with_reducible assumption | with_reducible rfl | with_reducible apply doEach_rises | with_reducible apply cancelJob_rises
    | (fail_if_no_progress (with_reducible apply mk_rises)) | (fail_if_no_progress (with_reducible refine mkGaffer_rises rfl rfl ?_))
    | with_reducible apply foldl_rises | intro _ | (extract_lets)
    | (fail_if_no_progress (with_reducible apply mkOut_rises)) | (fail_if_no_progress (with_reducible apply mkDraws_rises)) | split
    | (dsimp +zetaDelta only)

theorem drainFunction_rises {a d : Device} (x1 : _) (h : rises a d) : rises a (drainFunction x1 d) := by
  unfold drainFunction
  repeat' first
    | with_reducible assumption | with_reducible rfl | with_reducible apply startDrain_rises
    | (fail_if_no_progress (with_reducible apply mk_rises)) | (fail_if_no_progress (with_reducible refine mkGaffer_rises rfl rfl ?_))
    | with_reducible apply foldl_rises | intro _ | (extract_lets) | (fail_if_no_progress (with_reducible apply mkOut_rises))
    | (fail_if_no_progress (with_reducible apply mkDraws_rises)) | split | (dsimp +zetaDelta only)

theorem closeTenant_rises {a d : Device} (x1 : _) (h : rises a d) : rises a (closeTenant x1 d) := by
  unfold closeTenant
  repeat' first
    | with_reducible assumption | with_reducible rfl | (fail_if_no_progress (with_reducible apply mk_rises))
    | (fail_if_no_progress (with_reducible refine mkGaffer_rises rfl rfl ?_)) | with_reducible apply foldl_rises | intro _ | (extract_lets)
    | (fail_if_no_progress (with_reducible apply mkOut_rises)) | (fail_if_no_progress (with_reducible apply mkDraws_rises)) | split
    | (dsimp +zetaDelta only)

theorem forgetTenant_rises {a d : Device} (x1 : _) (h : rises a d) : rises a (forgetTenant x1 d) := by
  unfold forgetTenant
  repeat' first
    | with_reducible assumption | with_reducible rfl | with_reducible apply dropCaches_rises
    | (fail_if_no_progress (with_reducible apply mk_rises)) | (fail_if_no_progress (with_reducible refine mkGaffer_rises rfl rfl ?_))
    | with_reducible apply foldl_rises | intro _ | (extract_lets) | (fail_if_no_progress (with_reducible apply mkOut_rises))
    | (fail_if_no_progress (with_reducible apply mkDraws_rises)) | split | (dsimp +zetaDelta only)

theorem clearTenantFault_rises {a d : Device} (x1 : _) (h : rises a d) : rises a (clearTenantFault x1 d) := by
  unfold clearTenantFault
  repeat' first
    | with_reducible assumption | with_reducible rfl | with_reducible apply modTenant_rises
    | (fail_if_no_progress (with_reducible apply mk_rises)) | (fail_if_no_progress (with_reducible refine mkGaffer_rises rfl rfl ?_))
    | with_reducible apply foldl_rises | intro _ | (extract_lets) | (fail_if_no_progress (with_reducible apply mkOut_rises))
    | (fail_if_no_progress (with_reducible apply mkDraws_rises)) | split | (dsimp +zetaDelta only)

theorem resetSteps_rises {a d : Device} (x1 : _) (x2 : _) (h : rises a d) : rises a (resetSteps x1 x2 d) := by
  unfold resetSteps
  repeat' first
    | with_reducible assumption | with_reducible rfl | with_reducible apply cancelTenant_rises | with_reducible apply drainFunction_rises
    | with_reducible apply closeTenant_rises | with_reducible apply stage_rises | with_reducible apply clearTenantFault_rises
    | with_reducible apply forgetTenant_rises | (fail_if_no_progress (with_reducible apply mk_rises))
    | (fail_if_no_progress (with_reducible refine mkGaffer_rises rfl rfl ?_)) | with_reducible apply foldl_rises | intro _
    | (extract_lets) | (fail_if_no_progress (with_reducible apply mkOut_rises)) | (fail_if_no_progress (with_reducible apply mkDraws_rises)) | split
    | (dsimp +zetaDelta only)

theorem runReset_rises {a d : Device} (x1 : _) (x2 : _) (h : rises a d) : rises a (runReset x1 x2 d) := by
  unfold runReset
  repeat' first
    | with_reducible assumption | with_reducible rfl | with_reducible apply stage_rises | with_reducible apply resetSteps_rises
    | (fail_if_no_progress (with_reducible apply mk_rises)) | (fail_if_no_progress (with_reducible refine mkGaffer_rises rfl rfl ?_))
    | with_reducible apply foldl_rises | intro _ | (extract_lets)
    | (fail_if_no_progress (with_reducible apply mkOut_rises)) | (fail_if_no_progress (with_reducible apply mkDraws_rises)) | split
    | (dsimp +zetaDelta only)

theorem smbusTouch_rises {a d : Device}  (h : rises a d) : rises a (smbusTouch d) := by
  unfold smbusTouch
  repeat' first
    | with_reducible assumption | with_reducible rfl | with_reducible apply resumeAlert_rises
    | (fail_if_no_progress (with_reducible apply mk_rises)) | (fail_if_no_progress (with_reducible refine mkGaffer_rises rfl rfl ?_))
    | with_reducible apply foldl_rises | intro _ | (extract_lets) | (fail_if_no_progress (with_reducible apply mkOut_rises))
    | (fail_if_no_progress (with_reducible apply mkDraws_rises)) | split | (dsimp +zetaDelta only)

theorem releaseReset_rises {a d : Device} (x1 : _) (h : rises a d) : rises a (releaseReset x1 d) := by
  unfold releaseReset
  repeat' first
    | with_reducible assumption | with_reducible rfl | (fail_if_no_progress (with_reducible apply mk_rises))
    | (fail_if_no_progress (with_reducible refine mkGaffer_rises rfl rfl ?_)) | with_reducible apply foldl_rises | intro _ | (extract_lets)
    | (fail_if_no_progress (with_reducible apply mkOut_rises)) | (fail_if_no_progress (with_reducible apply mkDraws_rises)) | split
    | (dsimp +zetaDelta only)

theorem lowerPin_rises {a d : Device} (x1 : _) (h : rises a d) : rises a (lowerPin x1 d) := by
  unfold lowerPin
  repeat' first
    | with_reducible assumption | with_reducible rfl | (fail_if_no_progress (with_reducible apply mk_rises))
    | (fail_if_no_progress (with_reducible refine mkGaffer_rises rfl rfl ?_)) | with_reducible apply foldl_rises | intro _ | (extract_lets)
    | (fail_if_no_progress (with_reducible apply mkOut_rises)) | (fail_if_no_progress (with_reducible apply mkDraws_rises)) | split
    | (dsimp +zetaDelta only)

theorem boundExceeded_rises {a d : Device}  (h : rises a d) : rises a (boundExceeded d) := by
  unfold boundExceeded
  repeat' first
    | with_reducible assumption | with_reducible rfl | with_reducible apply doEach_rises | with_reducible apply fenceBench_rises
    | with_reducible apply stopStart_rises
    | (fail_if_no_progress (with_reducible apply mk_rises)) | (fail_if_no_progress (with_reducible refine mkGaffer_rises rfl rfl ?_))
    | with_reducible apply foldl_rises | intro _ | (extract_lets)
    | (fail_if_no_progress (with_reducible apply mkOut_rises)) | (fail_if_no_progress (with_reducible apply mkDraws_rises)) | split
    | (dsimp +zetaDelta only)

theorem wakePf_rises {a d : Device}  (h : rises a d) : rises a (wakePf d) := by
  unfold wakePf
  repeat' first
    | with_reducible assumption | with_reducible rfl | (fail_if_no_progress (with_reducible apply mk_rises))
    | (fail_if_no_progress (with_reducible refine mkGaffer_rises rfl rfl ?_)) | with_reducible apply foldl_rises | intro _ | (extract_lets)
    | (fail_if_no_progress (with_reducible apply mkOut_rises)) | (fail_if_no_progress (with_reducible apply mkDraws_rises)) | split
    | (dsimp +zetaDelta only)

theorem noteIdle_rises {a d : Device}  (h : rises a d) : rises a (noteIdle d) := by
  unfold noteIdle
  repeat' first
    | with_reducible assumption | with_reducible rfl | (fail_if_no_progress (with_reducible apply mk_rises))
    | (fail_if_no_progress (with_reducible refine mkGaffer_rises rfl rfl ?_)) | with_reducible apply foldl_rises | intro _ | (extract_lets)
    | (fail_if_no_progress (with_reducible apply mkOut_rises)) | (fail_if_no_progress (with_reducible apply mkDraws_rises)) | split
    | (dsimp +zetaDelta only)

theorem calibrate_rises {a d : Device}  (h : rises a d) : rises a (calibrate d) := by
  unfold calibrate
  repeat' first
    | with_reducible assumption | with_reducible rfl | with_reducible apply timebaseFails_rises
    | (fail_if_no_progress (with_reducible apply mk_rises)) | (fail_if_no_progress (with_reducible refine mkGaffer_rises rfl rfl ?_))
    | with_reducible apply foldl_rises | intro _ | (extract_lets)
    | (fail_if_no_progress (with_reducible apply mkOut_rises)) | (fail_if_no_progress (with_reducible apply mkDraws_rises)) | split
    | (dsimp +zetaDelta only)

theorem setSpeeds_rises {a d : Device}  (h : rises a d) : rises a (setSpeeds d) := by
  unfold setSpeeds
  repeat' first
    | with_reducible assumption | with_reducible rfl | (fail_if_no_progress (with_reducible apply mk_rises))
    | (fail_if_no_progress (with_reducible refine mkGaffer_rises rfl rfl ?_)) | with_reducible apply foldl_rises | intro _ | (extract_lets)
    | (fail_if_no_progress (with_reducible apply mkOut_rises)) | (fail_if_no_progress (with_reducible apply mkDraws_rises)) | split
    | (dsimp +zetaDelta only)

theorem takeVolts_rises {a d : Device} (x1 : _) (h : rises a d) : rises a (takeVolts x1 d) := by
  unfold takeVolts
  repeat' first
    | with_reducible assumption | with_reducible rfl | with_reducible apply setSpeeds_rises | with_reducible apply tripSource_rises
    | (fail_if_no_progress (with_reducible apply mk_rises)) | (fail_if_no_progress (with_reducible refine mkGaffer_rises rfl rfl ?_))
    | with_reducible apply foldl_rises | intro _ | (extract_lets)
    | (fail_if_no_progress (with_reducible apply mkOut_rises)) | (fail_if_no_progress (with_reducible apply mkDraws_rises)) | split
    | (dsimp +zetaDelta only)

theorem takeTemperatures_rises {a d : Device} (x1 : _) (x2 : _) (h : rises a d) : rises a (takeTemperatures x1 x2 d) := by
  unfold takeTemperatures
  repeat' first
    | with_reducible assumption | with_reducible rfl | with_reducible apply tripSource_rises
    | (fail_if_no_progress (with_reducible apply mk_rises)) | (fail_if_no_progress (with_reducible refine mkGaffer_rises rfl rfl ?_))
    | with_reducible apply foldl_rises | intro _ | (extract_lets) | (fail_if_no_progress (with_reducible apply mkOut_rises))
    | (fail_if_no_progress (with_reducible apply mkDraws_rises)) | split | (dsimp +zetaDelta only)

theorem ackRollCall_rises {a d : Device} (x1 : _) (h : rises a d) : rises a (ackRollCall x1 d) := by
  unfold ackRollCall
  repeat' first
    | with_reducible assumption | with_reducible rfl | with_reducible apply doIf_rises
    | (fail_if_no_progress (with_reducible apply mk_rises)) | (fail_if_no_progress (with_reducible refine mkGaffer_rises rfl rfl ?_))
    | with_reducible apply foldl_rises | intro _ | (extract_lets)
    | (fail_if_no_progress (with_reducible apply mkOut_rises)) | (fail_if_no_progress (with_reducible apply mkDraws_rises)) | split
    | (dsimp +zetaDelta only)

theorem haltRegion_rises {a d : Device} (x1 : _) (h : rises a d) : rises a (haltRegion x1 d) := by
  unfold haltRegion
  repeat' first
    | with_reducible assumption | with_reducible rfl | with_reducible apply modBench_rises | with_reducible apply modPath_rises
    | (fail_if_no_progress (with_reducible apply mk_rises)) | (fail_if_no_progress (with_reducible refine mkGaffer_rises rfl rfl ?_))
    | with_reducible apply foldl_rises | intro _ | (extract_lets)
    | (fail_if_no_progress (with_reducible apply mkOut_rises)) | (fail_if_no_progress (with_reducible apply mkDraws_rises)) | split
    | (dsimp +zetaDelta only)

theorem linkDrop_rises {a d : Device} (x1 : _) (h : rises a d) : rises a (linkDrop x1 d) := by
  unfold linkDrop
  repeat' first
    | with_reducible assumption | with_reducible rfl | with_reducible apply netCount_rises
    | (fail_if_no_progress (with_reducible apply mk_rises)) | (fail_if_no_progress (with_reducible refine mkGaffer_rises rfl rfl ?_))
    | with_reducible apply foldl_rises | intro _ | (extract_lets) | (fail_if_no_progress (with_reducible apply mkOut_rises))
    | (fail_if_no_progress (with_reducible apply mkDraws_rises)) | split | (dsimp +zetaDelta only)

theorem pathCheckFails_rises {a d : Device} (x1 : _) (h : rises a d) : rises a (pathCheckFails x1 d) := by
  unfold pathCheckFails
  repeat' first
    | with_reducible assumption | with_reducible rfl | with_reducible apply modPath_rises | with_reducible apply netCount_rises
    | with_reducible apply fencePath_rises
    | (fail_if_no_progress (with_reducible apply mk_rises)) | (fail_if_no_progress (with_reducible refine mkGaffer_rises rfl rfl ?_))
    | with_reducible apply foldl_rises | intro _ | (extract_lets)
    | (fail_if_no_progress (with_reducible apply mkOut_rises)) | (fail_if_no_progress (with_reducible apply mkDraws_rises)) | split
    | (dsimp +zetaDelta only)

theorem receive_rises {a d : Device} (x1 : Byte) (x2 : Bool) (x3 : Frame) (f : Device → Device) (hf : ∀ x, rises a x → rises a (f x))
    (h : rises a d) : rises a (receive x1 x2 x3 f d) := by
  unfold receive
  repeat' first
    | with_reducible assumption | with_reducible rfl | with_reducible apply hf | with_reducible apply linkDrop_rises
    | with_reducible apply pathCheckFails_rises
    | with_reducible apply netCount_rises | (extract_lets) | split

theorem unknownSession_rises {a d : Device} (x1 : _) (x2 : _) (h : rises a d) : rises a (unknownSession x1 x2 d) := by
  unfold unknownSession
  repeat' first
    | with_reducible assumption | with_reducible rfl | with_reducible apply sendAbort_rises | with_reducible apply netCount_rises
    | (fail_if_no_progress (with_reducible apply mk_rises)) | (fail_if_no_progress (with_reducible refine mkGaffer_rises rfl rfl ?_))
    | with_reducible apply foldl_rises | intro _ | (extract_lets)
    | (fail_if_no_progress (with_reducible apply mkOut_rises)) | (fail_if_no_progress (with_reducible apply mkDraws_rises)) | split
    | (dsimp +zetaDelta only)

theorem countRepeat_rises {a d : Device} (x1 : _) (x2 : _) (h : rises a d) : rises a (countRepeat x1 x2 d) := by
  unfold countRepeat
  repeat' first
    | with_reducible assumption | with_reducible rfl | with_reducible apply modPath_rises | with_reducible apply netCount_rises
    | (fail_if_no_progress (with_reducible apply mk_rises)) | (fail_if_no_progress (with_reducible refine mkGaffer_rises rfl rfl ?_))
    | with_reducible apply foldl_rises | intro _ | (extract_lets)
    | (fail_if_no_progress (with_reducible apply mkOut_rises)) | (fail_if_no_progress (with_reducible apply mkDraws_rises)) | split
    | (dsimp +zetaDelta only)

theorem crossBridge_rises {a d : Device} (x1 : _) (x2 : _) (h : rises a d) : rises a (crossBridge x1 x2 d) := by
  unfold crossBridge
  repeat' first
    | with_reducible assumption | with_reducible rfl | with_reducible apply modPath_rises
    | (fail_if_no_progress (with_reducible apply mk_rises)) | (fail_if_no_progress (with_reducible refine mkGaffer_rises rfl rfl ?_))
    | with_reducible apply foldl_rises | intro _ | (extract_lets)
    | (fail_if_no_progress (with_reducible apply mkOut_rises)) | (fail_if_no_progress (with_reducible apply mkDraws_rises)) | split
    | (dsimp +zetaDelta only)

theorem enterBridge_rises {a d : Device} (x1 : _) (h : rises a d) : rises a (enterBridge x1 d) := by
  unfold enterBridge
  repeat' first
    | with_reducible assumption | with_reducible rfl | with_reducible apply modPath_rises
    | (fail_if_no_progress (with_reducible apply mk_rises)) | (fail_if_no_progress (with_reducible refine mkGaffer_rises rfl rfl ?_))
    | with_reducible apply foldl_rises | intro _ | (extract_lets)
    | (fail_if_no_progress (with_reducible apply mkOut_rises)) | (fail_if_no_progress (with_reducible apply mkDraws_rises)) | split
    | (dsimp +zetaDelta only)

theorem admitOnce_rises {a d : Device} (x1 : _) (x2 : _) (h : rises a d) : rises a (admitOnce x1 x2 d) := by
  unfold admitOnce
  repeat' first
    | with_reducible assumption | with_reducible rfl | with_reducible apply setSession_rises
    | with_reducible apply closeExhausted_rises | with_reducible apply pathWrite_rises
    | (fail_if_no_progress (with_reducible apply mk_rises)) | (fail_if_no_progress (with_reducible refine mkGaffer_rises rfl rfl ?_))
    | with_reducible apply foldl_rises | intro _ | (extract_lets)
    | (fail_if_no_progress (with_reducible apply mkOut_rises)) | (fail_if_no_progress (with_reducible apply mkDraws_rises)) | split
    | (dsimp +zetaDelta only)

theorem admitFrame_rises {a d : Device} (x1 : Bool) (x2 : Nat) (x3 : Frame) (f : Nat → Bytes → Device → Device) (x5 : Bytes)
    (hf : ∀ i b x, rises a x → rises a (f i b x)) (h : rises a d) : rises a (admitFrame x1 x2 x3 f x5 d) := by
  unfold admitFrame
  extract_lets s seq
  split
  · exact countRepeat_rises _ _ h
  · split
    · exact netCount_rises _ _ h
    · exact hf _ _ _ (admitOnce_rises _ _ h)

theorem traffic_rises {a d : Device} (x1 : Byte) (x2 : Bool) (x3 : Frame) (f : Nat → Bytes → Device → Device)
    (hf : ∀ i b x, rises a x → rises a (f i b x)) (h : rises a d) : rises a (traffic x1 x2 x3 f d) := by
  refine receive_rises _ _ _ _ (fun x hx => ?_) h
  extract_lets i
  split
  · exact unknownSession_rises _ _ hx
  · split
    · exact unknownSession_rises _ _ hx
    · split
      · exact netCount_rises _ _ hx
      · extract_lets _ e
        have he : rises a e := crossBridge_rises _ _ (setSession_rises _ _ hx)
        split
        · exact netCount_rises _ _ he
        · split
          · exact enterBridge_rises _ he
          · exact admitFrame_rises _ _ _ _ _ hf (enterBridge_rises _ he)

theorem queueReply_rises {a d : Device} (x1 : _) (x2 : _) (x3 : _) (h : rises a d) : rises a (queueReply x1 x2 x3 d) := by
  unfold queueReply
  repeat' first
    | with_reducible assumption | with_reducible rfl | (fail_if_no_progress (with_reducible apply mk_rises))
    | (fail_if_no_progress (with_reducible refine mkGaffer_rises rfl rfl ?_)) | with_reducible apply foldl_rises | intro _ | (extract_lets)
    | (fail_if_no_progress (with_reducible apply mkOut_rises)) | (fail_if_no_progress (with_reducible apply mkDraws_rises)) | split
    | (dsimp +zetaDelta only)

theorem leaveEgress_rises {a d : Device} (x1 : _) (x2 : _) (h : rises a d) : rises a (leaveEgress x1 x2 d) := by
  unfold leaveEgress
  repeat' first
    | with_reducible assumption | with_reducible rfl | with_reducible apply modPath_rises
    | (fail_if_no_progress (with_reducible apply mk_rises)) | (fail_if_no_progress (with_reducible refine mkGaffer_rises rfl rfl ?_))
    | with_reducible apply foldl_rises | intro _ | (extract_lets)
    | (fail_if_no_progress (with_reducible apply mkOut_rises)) | (fail_if_no_progress (with_reducible apply mkDraws_rises)) | split
    | (dsimp +zetaDelta only)

theorem enterEgress_rises {a d : Device} (x1 : _) (h : rises a d) : rises a (enterEgress x1 d) := by
  unfold enterEgress
  repeat' first
    | with_reducible assumption | with_reducible rfl | with_reducible apply modPath_rises
    | (fail_if_no_progress (with_reducible apply mk_rises)) | (fail_if_no_progress (with_reducible refine mkGaffer_rises rfl rfl ?_))
    | with_reducible apply foldl_rises | intro _ | (extract_lets)
    | (fail_if_no_progress (with_reducible apply mkOut_rises)) | (fail_if_no_progress (with_reducible apply mkDraws_rises)) | split
    | (dsimp +zetaDelta only)

theorem releaseFrame_rises {a d : Device} (x1 : _) (x2 : _) (x3 : _) (h : rises a d) : rises a (releaseFrame x1 x2 x3 d) := by
  unfold releaseFrame
  repeat' first
    | with_reducible assumption | with_reducible rfl | with_reducible apply enterEgress_rises
    | with_reducible apply sendSession_rises
    | (fail_if_no_progress (with_reducible apply mk_rises)) | (fail_if_no_progress (with_reducible refine mkGaffer_rises rfl rfl ?_))
    | with_reducible apply foldl_rises | intro _ | (extract_lets)
    | (fail_if_no_progress (with_reducible apply mkOut_rises)) | (fail_if_no_progress (with_reducible apply mkDraws_rises)) | split
    | (dsimp +zetaDelta only)

theorem sendResponse_rises {a d : Device} (x1 : _) (x2 : _) (x3 : _) (h : rises a d) : rises a (sendResponse x1 x2 x3 d) := by
  unfold sendResponse
  repeat' first
    | with_reducible assumption | with_reducible rfl | with_reducible apply releaseFrame_rises
    | (fail_if_no_progress (with_reducible apply mk_rises)) | (fail_if_no_progress (with_reducible refine mkGaffer_rises rfl rfl ?_))
    | with_reducible apply foldl_rises | intro _ | (extract_lets)
    | (fail_if_no_progress (with_reducible apply mkOut_rises)) | (fail_if_no_progress (with_reducible apply mkDraws_rises)) | split
    | (dsimp +zetaDelta only)

theorem releaseJob_rises {a d : Device} (x1 : _) (h : rises a d) : rises a (releaseJob x1 d) := by
  have h0 : rises a { d with gaffer := { d.gaffer with jobs := d.gaffer.jobs.filter (fun o => o.id ≠ x1.id) } } :=
    mkJobs_rises (jobs_filter _) h
  unfold releaseJob
  repeat' first
    | with_reducible assumption | with_reducible apply freeJobCore_rises | with_reducible apply doWith_rises | with_reducible apply modBench_rises
    | with_reducible apply sendResponse_rises | with_reducible apply fnCount_rises | with_reducible apply complete_rises
    | with_reducible apply doEach_rises | with_reducible apply enterSweep_rises
    | intro _ | (extract_lets) | split | (dsimp +zetaDelta only)

theorem releaseGo_rises {a d : Device} (x1 : Nat) (x2 : Tab Nat) (h : rises a d) : rises a (releaseGo x1 x2 d).1 := by
  induction x1 generalizing d x2 with
  | zero => exact h
  | succ n ih =>
    unfold releaseGo
    split
    · exact h
    · exact ih _ (releaseJob_rises _ h)

theorem countDeferrals_rises {a d : Device}  (h : rises a d) : rises a (countDeferrals d) := by
  unfold countDeferrals
  repeat' first
    | with_reducible assumption | with_reducible rfl | with_reducible apply lehCount_rises | with_reducible apply doEach_rises
    | (fail_if_no_progress (with_reducible apply mk_rises)) | (fail_if_no_progress (with_reducible refine mkGaffer_rises rfl rfl ?_))
    | with_reducible apply foldl_rises | intro _ | (extract_lets)
    | (fail_if_no_progress (with_reducible apply mkOut_rises)) | (fail_if_no_progress (with_reducible apply mkDraws_rises)) | split
    | (dsimp +zetaDelta only)

theorem markGrid_rises {a d : Device}  (h : rises a d) : rises a (markGrid d) := by
  unfold markGrid
  repeat' first
    | with_reducible assumption | with_reducible rfl | (fail_if_no_progress (with_reducible apply mk_rises))
    | (fail_if_no_progress (with_reducible refine mkGaffer_rises rfl rfl ?_)) | with_reducible apply foldl_rises | intro _ | (extract_lets)
    | (fail_if_no_progress (with_reducible apply mkOut_rises)) | (fail_if_no_progress (with_reducible apply mkDraws_rises)) | split
    | (dsimp +zetaDelta only)

theorem nextEpoch_rises {a d : Device} (x1 : _) (h : rises a d) : rises a (nextEpoch x1 d) := by
  unfold nextEpoch
  repeat' first
    | with_reducible assumption | with_reducible rfl | with_reducible apply netCount_rises | with_reducible apply pathWrite_rises
    | (fail_if_no_progress (with_reducible apply mk_rises)) | (fail_if_no_progress (with_reducible refine mkGaffer_rises rfl rfl ?_))
    | with_reducible apply foldl_rises | intro _ | (extract_lets)
    | (fail_if_no_progress (with_reducible apply mkOut_rises)) | (fail_if_no_progress (with_reducible apply mkDraws_rises)) | split
    | (dsimp +zetaDelta only)

theorem sendReply_rises {a d : Device} (x1 : _) (h : rises a d) : rises a (sendReply x1 d) := by
  unfold sendReply
  repeat' first
    | with_reducible assumption | with_reducible rfl | with_reducible apply releaseFrame_rises | with_reducible apply nextEpoch_rises
    | (fail_if_no_progress (with_reducible apply mk_rises)) | (fail_if_no_progress (with_reducible refine mkGaffer_rises rfl rfl ?_))
    | with_reducible apply foldl_rises | intro _ | (extract_lets)
    | (fail_if_no_progress (with_reducible apply mkOut_rises)) | (fail_if_no_progress (with_reducible apply mkDraws_rises)) | split
    | (dsimp +zetaDelta only)

theorem sendReplies_rises {a d : Device}  (h : rises a d) : rises a (sendReplies d) := by
  unfold sendReplies
  repeat' first
    | with_reducible assumption | with_reducible rfl | with_reducible apply sendReply_rises | with_reducible apply doEach_rises
    | (fail_if_no_progress (with_reducible apply mk_rises)) | (fail_if_no_progress (with_reducible refine mkGaffer_rises rfl rfl ?_))
    | with_reducible apply foldl_rises | intro _ | (extract_lets)
    | (fail_if_no_progress (with_reducible apply mkOut_rises)) | (fail_if_no_progress (with_reducible apply mkDraws_rises)) | split
    | (dsimp +zetaDelta only)

theorem closeSessions_rises {a d : Device}  (h : rises a d) : rises a (closeSessions d) := by
  unfold closeSessions
  repeat' first
    | with_reducible assumption | with_reducible rfl | with_reducible apply freeSession_rises
    | with_reducible apply releaseFrame_rises | with_reducible apply doEach_rises
    | (fail_if_no_progress (with_reducible apply mk_rises)) | (fail_if_no_progress (with_reducible refine mkGaffer_rises rfl rfl ?_))
    | with_reducible apply foldl_rises | intro _ | (extract_lets)
    | (fail_if_no_progress (with_reducible apply mkOut_rises)) | (fail_if_no_progress (with_reducible apply mkDraws_rises)) | split
    | (dsimp +zetaDelta only)

theorem gridPoint_rises {a d : Device} (x1 : _) (x2 : _) (h : rises a d) : rises a (gridPoint x1 x2 d) :=
  dispatchAll_rises (offerSweeps_rises (closeSessions_rises (sendReplies_rises (markGrid_rises (countDeferrals_rises
    (releaseGo_rises _ _ (leaveEgress_rises _ _ (leaveEgress_rises _ _ h))))))))

theorem askForWork_rises {a d : Device} (x1 : _) (h : rises a d) : rises a (askForWork x1 d) := by
  unfold askForWork
  exact dispatchAll_rises (mkGaffer_rises (e := modUnit x1 _ d) (by rw [modUnit_gaffer]) (by rw [modUnit_gaffer]) (modUnit_rises _ _ h))

theorem scanExpired_rises {a d : Device}  (h : rises a d) : rises a (scanExpired d) := by
  unfold scanExpired
  repeat' first
    | with_reducible assumption | with_reducible rfl | with_reducible apply doEach_rises | with_reducible apply expireJob_rises
    | (fail_if_no_progress (with_reducible apply mk_rises)) | (fail_if_no_progress (with_reducible refine mkGaffer_rises rfl rfl ?_))
    | with_reducible apply foldl_rises | intro _ | (extract_lets)
    | (fail_if_no_progress (with_reducible apply mkOut_rises)) | (fail_if_no_progress (with_reducible apply mkDraws_rises)) | split
    | (dsimp +zetaDelta only)

theorem windowPasses_rises {a d : Device} (x1 : _) (x2 : _) (x3 : _) (x4 : _) (h : rises a d) : rises a (windowPasses x1 x2 x3 x4 d) := by
  unfold windowPasses
  repeat' first
    | with_reducible assumption | with_reducible rfl | with_reducible apply failSource_rises
    | (fail_if_no_progress (with_reducible apply mk_rises)) | (fail_if_no_progress (with_reducible refine mkGaffer_rises rfl rfl ?_))
    | with_reducible apply foldl_rises | intro _ | (extract_lets)
    | (fail_if_no_progress (with_reducible apply mkOut_rises)) | (fail_if_no_progress (with_reducible apply mkDraws_rises)) | split
    | (dsimp +zetaDelta only)

theorem takeWindow_rises {a d : Device} (x1 : _) (x2 : _) (x3 : _) (h : rises a d) : rises a (takeWindow x1 x2 x3 d) := by
  unfold takeWindow
  repeat' first
    | with_reducible assumption | with_reducible rfl | with_reducible apply failSource_rises
    | with_reducible apply windowPasses_rises
    | (fail_if_no_progress (with_reducible apply mk_rises)) | (fail_if_no_progress (with_reducible refine mkGaffer_rises rfl rfl ?_))
    | with_reducible apply foldl_rises | intro _ | (extract_lets)
    | (fail_if_no_progress (with_reducible apply mkOut_rises)) | (fail_if_no_progress (with_reducible apply mkDraws_rises)) | split
    | (dsimp +zetaDelta only)

theorem blockArrives_rises {a d : Device} (x1 : _) (x2 : _) (x3 : _) (h : rises a d) : rises a (blockArrives x1 x2 x3 d) := by
  unfold blockArrives
  repeat' first
    | with_reducible assumption | with_reducible rfl | with_reducible apply servePool_rises
    | (fail_if_no_progress (with_reducible apply mk_rises)) | (fail_if_no_progress (with_reducible refine mkGaffer_rises rfl rfl ?_))
    | with_reducible apply foldl_rises | intro _ | (extract_lets)
    | (fail_if_no_progress (with_reducible apply mkOut_rises)) | (fail_if_no_progress (with_reducible apply mkDraws_rises)) | split
    | (dsimp +zetaDelta only)

theorem doorbell_rises {a d : Device} (x1 : _) (x2 : _) (x3 : _) (x4 : _) (h : rises a d) : rises a (doorbell x1 x2 x3 x4 d) := by
  unfold doorbell
  repeat' first
    | with_reducible assumption | with_reducible rfl | with_reducible apply fnCount_rises | with_reducible apply queueFault_rises
    | with_reducible apply modQueue_rises
    | (fail_if_no_progress (with_reducible apply mk_rises)) | (fail_if_no_progress (with_reducible refine mkGaffer_rises rfl rfl ?_))
    | with_reducible apply foldl_rises | intro _ | (extract_lets)
    | (fail_if_no_progress (with_reducible apply mkOut_rises)) | (fail_if_no_progress (with_reducible apply mkDraws_rises)) | split
    | (dsimp +zetaDelta only)

theorem noteTurn_rises {a d : Device} (x1 : _) (x2 : _) (h : rises a d) : rises a (noteTurn x1 x2 d) := by
  unfold noteTurn
  repeat' first
    | with_reducible assumption | with_reducible rfl | with_reducible apply modFn_rises
    | (fail_if_no_progress (with_reducible apply mk_rises)) | (extract_lets) | split | (dsimp +zetaDelta only)

theorem takeDescriptor_rises {a d : Device} (x1 x2 : Nat) (k : Nat → Device → Device) (hk : ∀ n x, rises a x → rises a (k n x))
    (h : rises a d) : rises a (takeDescriptor x1 x2 k d) := by
  unfold takeDescriptor
  repeat' first
    | with_reducible assumption | with_reducible rfl | with_reducible apply hk | with_reducible apply fnCount_rises
    | with_reducible apply modQueue_rises | with_reducible apply noteTurn_rises
    | with_reducible apply queueFault_rises | with_reducible apply denied_rises | (extract_lets) | split

theorem completeAtFetch_rises {a d : Device} (x1 : _) (x2 : _) (x3 : _) (x4 : _) (h : rises a d) : rises a (completeAtFetch x1 x2 x3 x4 d) := by
  unfold completeAtFetch
  repeat' first
    | with_reducible assumption | with_reducible rfl | with_reducible apply modQueue_rises | with_reducible apply complete_rises
    | (fail_if_no_progress (with_reducible apply mk_rises)) | (fail_if_no_progress (with_reducible refine mkGaffer_rises rfl rfl ?_))
    | with_reducible apply foldl_rises | intro _ | (extract_lets)
    | (fail_if_no_progress (with_reducible apply mkOut_rises)) | (fail_if_no_progress (with_reducible apply mkDraws_rises)) | split
    | (dsimp +zetaDelta only)

theorem refuseAtFetch_rises {a d : Device} (x1 : _) (x2 : _) (x3 : _) (x4 : _) (h : rises a d) : rises a (refuseAtFetch x1 x2 x3 x4 d) := by
  unfold refuseAtFetch
  repeat' first
    | with_reducible assumption | with_reducible rfl | with_reducible apply completeAtFetch_rises | with_reducible apply fnCount_rises
    | (fail_if_no_progress (with_reducible apply mk_rises)) | (fail_if_no_progress (with_reducible refine mkGaffer_rises rfl rfl ?_))
    | with_reducible apply foldl_rises | intro _ | (extract_lets)
    | (fail_if_no_progress (with_reducible apply mkOut_rises)) | (fail_if_no_progress (with_reducible apply mkDraws_rises)) | split
    | (dsimp +zetaDelta only)

theorem noteList_rises {a d : Device} (x1 : _) (x2 : _) (x3 : _) (h : rises a d) : rises a (noteList x1 x2 x3 d) := by
  unfold noteList
  repeat' first
    | with_reducible assumption | with_reducible rfl | with_reducible apply denied_rises | with_reducible apply doIf_rises
    | (fail_if_no_progress (with_reducible apply mk_rises)) | (fail_if_no_progress (with_reducible refine mkGaffer_rises rfl rfl ?_))
    | with_reducible apply foldl_rises | intro _ | (extract_lets)
    | (fail_if_no_progress (with_reducible apply mkOut_rises)) | (fail_if_no_progress (with_reducible apply mkDraws_rises)) | split
    | (dsimp +zetaDelta only)

theorem enterRequest_rises {a d : Device} (x1 : _) (x2 : _) (x3 : _) (x4 : _) (h : rises a d) : rises a (enterRequest x1 x2 x3 x4 d) := by
  unfold enterRequest
  repeat' first
    | with_reducible assumption | with_reducible rfl | with_reducible apply enterJob_rises | with_reducible apply modQueue_rises
    | (fail_if_no_progress (with_reducible apply mk_rises)) | (fail_if_no_progress (with_reducible refine mkGaffer_rises rfl rfl ?_))
    | with_reducible apply foldl_rises | intro _ | (extract_lets)
    | (fail_if_no_progress (with_reducible apply mkOut_rises)) | (fail_if_no_progress (with_reducible apply mkDraws_rises)) | split
    | (dsimp +zetaDelta only)

theorem admitDescriptor_rises {a d : Device} (x1 : _) (x2 : _) (x3 : _) (x4 : _) (x5 : _) (x6 : _) (h : rises a d) : rises a (admitDescriptor x1 x2 x3 x4 x5 x6 d) := by
  unfold admitDescriptor
  repeat' first
    | with_reducible assumption | with_reducible rfl | with_reducible apply refuseAtFetch_rises | with_reducible apply noteList_rises
    | with_reducible apply enterRequest_rises
    | (fail_if_no_progress (with_reducible apply mk_rises)) | (fail_if_no_progress (with_reducible refine mkGaffer_rises rfl rfl ?_))
    | with_reducible apply foldl_rises | intro _ | (extract_lets)
    | (fail_if_no_progress (with_reducible apply mkOut_rises)) | (fail_if_no_progress (with_reducible apply mkDraws_rises)) | split
    | (dsimp +zetaDelta only)

theorem cancelTarget_rises {a d : Device} (x1 : _) (x2 : _) (x3 : _) (h : rises a d) : rises a (cancelTarget x1 x2 x3 d).1 := by
  unfold cancelTarget
  repeat' first
    | with_reducible assumption | with_reducible rfl | with_reducible apply cancelJob_rises
    | (fail_if_no_progress (with_reducible apply mk_rises)) | (fail_if_no_progress (with_reducible refine mkGaffer_rises rfl rfl ?_))
    | with_reducible apply foldl_rises | intro _ | (extract_lets) | (fail_if_no_progress (with_reducible apply mkOut_rises))
    | (fail_if_no_progress (with_reducible apply mkDraws_rises)) | split | (dsimp +zetaDelta only)

theorem admitCancel_rises {a d : Device} (x1 : _) (x2 : _) (x3 : _) (h : rises a d) : rises a (admitCancel x1 x2 x3 d) := by
  unfold admitCancel
  repeat' first
    | with_reducible assumption | with_reducible rfl | with_reducible apply refuseAtFetch_rises | with_reducible apply cancelTarget_rises
    | with_reducible apply completeAtFetch_rises | (fail_if_no_progress (with_reducible apply mk_rises))
    | (fail_if_no_progress (with_reducible refine mkGaffer_rises rfl rfl ?_)) | with_reducible apply foldl_rises | intro _
    | (extract_lets) | (fail_if_no_progress (with_reducible apply mkOut_rises)) | (fail_if_no_progress (with_reducible apply mkDraws_rises)) | split
    | (dsimp +zetaDelta only)

theorem functionInfo_rises {a d : Device} (x1 : _) (x2 : _) (h : rises a d) : rises a (functionInfo x1 x2 d) := by
  unfold functionInfo
  repeat' first
    | with_reducible assumption | with_reducible rfl | with_reducible apply mbxSend_rises | (fail_if_no_progress (with_reducible apply mk_rises))
    | (fail_if_no_progress (with_reducible refine mkGaffer_rises rfl rfl ?_))
    | with_reducible apply foldl_rises | intro _ | (extract_lets) | (fail_if_no_progress (with_reducible apply mkOut_rises))
    | (fail_if_no_progress (with_reducible apply mkDraws_rises)) | split | (dsimp +zetaDelta only)

theorem relayToManager_rises {a d : Device} (x1 : _) (x2 : _) (h : rises a d) : rises a (relayToManager x1 x2 d) := by
  unfold relayToManager
  repeat' first
    | with_reducible assumption | with_reducible rfl | with_reducible apply mbxSend_rises | (fail_if_no_progress (with_reducible apply mk_rises))
    | (fail_if_no_progress (with_reducible refine mkGaffer_rises rfl rfl ?_))
    | with_reducible apply foldl_rises | intro _ | (extract_lets) | (fail_if_no_progress (with_reducible apply mkOut_rises))
    | (fail_if_no_progress (with_reducible apply mkDraws_rises)) | split | (dsimp +zetaDelta only)

theorem relayToVf_rises {a d : Device} (x1 : _) (h : rises a d) : rises a (relayToVf x1 d) := by
  unfold relayToVf
  repeat' first
    | with_reducible assumption | with_reducible rfl | with_reducible apply mbxSend_rises | with_reducible apply fnCount_rises
    | (fail_if_no_progress (with_reducible apply mk_rises)) | (fail_if_no_progress (with_reducible refine mkGaffer_rises rfl rfl ?_))
    | with_reducible apply foldl_rises | intro _ | (extract_lets)
    | (fail_if_no_progress (with_reducible apply mkOut_rises)) | (fail_if_no_progress (with_reducible apply mkDraws_rises)) | split
    | (dsimp +zetaDelta only)

theorem takePost_rises {a d : Device} (x1 : _) (x2 : _) (h : rises a d) : rises a (takePost x1 x2 d) := by
  unfold takePost
  repeat' first
    | with_reducible assumption | with_reducible rfl | with_reducible apply fnCount_rises | with_reducible apply modFn_rises
    | (fail_if_no_progress (with_reducible apply mk_rises)) | (fail_if_no_progress (with_reducible refine mkGaffer_rises rfl rfl ?_))
    | with_reducible apply foldl_rises | intro _ | (extract_lets)
    | (fail_if_no_progress (with_reducible apply mkOut_rises)) | (fail_if_no_progress (with_reducible apply mkDraws_rises)) | split
    | (dsimp +zetaDelta only)

theorem actOnMessage_rises {a d : Device} (x1 : _) (x2 : _) (h : rises a d) : rises a (actOnMessage x1 x2 d) := by
  unfold actOnMessage
  repeat' first
    | with_reducible assumption | with_reducible rfl | with_reducible apply functionInfo_rises | with_reducible apply relayToManager_rises
    | with_reducible apply relayToVf_rises | with_reducible apply fnCount_rises | (fail_if_no_progress (with_reducible apply mk_rises))
    | (fail_if_no_progress (with_reducible refine mkGaffer_rises rfl rfl ?_))
    | with_reducible apply foldl_rises | intro _ | (extract_lets) | (fail_if_no_progress (with_reducible apply mkOut_rises))
    | (fail_if_no_progress (with_reducible apply mkDraws_rises)) | split | (dsimp +zetaDelta only)

theorem clearOutValid_rises {a d : Device} (x1 : _) (h : rises a d) : rises a (clearOutValid x1 d) := by
  unfold clearOutValid
  repeat' first
    | with_reducible assumption | with_reducible rfl | with_reducible apply modFn_rises | with_reducible apply mbxSend_rises
    | (fail_if_no_progress (with_reducible apply mk_rises)) | (fail_if_no_progress (with_reducible refine mkGaffer_rises rfl rfl ?_))
    | with_reducible apply foldl_rises | intro _ | (extract_lets)
    | (fail_if_no_progress (with_reducible apply mkOut_rises)) | (fail_if_no_progress (with_reducible apply mkDraws_rises)) | split
    | (dsimp +zetaDelta only)

theorem resetFunction_rises {a d : Device} (x1 : _) (h : rises a d) : rises a (resetFunction x1 d) := by
  unfold resetFunction
  repeat' first
    | with_reducible assumption | with_reducible rfl | with_reducible apply drainVfs_rises | with_reducible apply startDrain_rises
    | (fail_if_no_progress (with_reducible apply mk_rises)) | (fail_if_no_progress (with_reducible refine mkGaffer_rises rfl rfl ?_))
    | with_reducible apply foldl_rises | intro _ | (extract_lets)
    | (fail_if_no_progress (with_reducible apply mkOut_rises)) | (fail_if_no_progress (with_reducible apply mkDraws_rises)) | split
    | (dsimp +zetaDelta only)

theorem enableVfs_rises {a d : Device} (x1 : _) (h : rises a d) : rises a (enableVfs x1 d) := by
  unfold enableVfs
  repeat' first
    | with_reducible assumption | with_reducible rfl | with_reducible apply doEach_rises | with_reducible apply setFn_rises
    | (fail_if_no_progress (with_reducible apply mk_rises)) | (fail_if_no_progress (with_reducible refine mkGaffer_rises rfl rfl ?_))
    | with_reducible apply foldl_rises | intro _ | (extract_lets)
    | (fail_if_no_progress (with_reducible apply mkOut_rises)) | (fail_if_no_progress (with_reducible apply mkDraws_rises)) | split
    | (dsimp +zetaDelta only)

theorem countAer_rises {a d : Device}  (h : rises a d) : rises a (countAer d) := by
  unfold countAer
  repeat' first
    | with_reducible assumption | with_reducible rfl | (fail_if_no_progress (with_reducible apply mk_rises))
    | (fail_if_no_progress (with_reducible refine mkGaffer_rises rfl rfl ?_)) | with_reducible apply foldl_rises | intro _ | (extract_lets)
    | (fail_if_no_progress (with_reducible apply mkOut_rises)) | (fail_if_no_progress (with_reducible apply mkDraws_rises)) | split
    | (dsimp +zetaDelta only)

theorem failList_rises {a d : Device} (x1 x2 : Nat) (x3 : BitVec 16) (h : rises a d) : rises a (failList x1 x2 x3 d) :=
  takeDescriptor_rises _ _ _ (fun _ _ hx => refuseAtFetch_rises _ _ _ _ (countAer_rises hx)) h

theorem failInput_rises {a d : Device} (x1 : _) (x2 : _) (x3 : _) (h : rises a d) : rises a (failInput x1 x2 x3 d) := by
  unfold failInput
  repeat' first
    | with_reducible assumption | with_reducible rfl | with_reducible apply dispatchAll_rises | with_reducible apply dropJob_rises
    | with_reducible apply countAer_rises
    | (fail_if_no_progress (with_reducible apply mk_rises)) | (fail_if_no_progress (with_reducible refine mkGaffer_rises rfl rfl ?_))
    | with_reducible apply foldl_rises | intro _ | (extract_lets)
    | (fail_if_no_progress (with_reducible apply mkOut_rises)) | (fail_if_no_progress (with_reducible apply mkDraws_rises)) | split
    | (dsimp +zetaDelta only)

theorem writeRegion_rises {a d : Device} (x1 : _) (x2 : _) (x3 : _) (x4 : _) (h : rises a d) : rises a (writeRegion x1 x2 x3 x4 d) := by
  unfold writeRegion
  repeat' first
    | with_reducible assumption | with_reducible rfl | with_reducible apply setFn_rises | (fail_if_no_progress (with_reducible apply mk_rises))
    | (fail_if_no_progress (with_reducible refine mkGaffer_rises rfl rfl ?_))
    | with_reducible apply foldl_rises | intro _ | (extract_lets) | (fail_if_no_progress (with_reducible apply mkOut_rises))
    | (fail_if_no_progress (with_reducible apply mkDraws_rises)) | split | (dsimp +zetaDelta only)

theorem drainEvery_rises {a d : Device}  (h : rises a d) : rises a (drainEvery d) := by
  unfold drainEvery
  repeat' first
    | with_reducible assumption | with_reducible rfl | with_reducible apply doEach_rises | with_reducible apply startDrain_rises
    | (fail_if_no_progress (with_reducible apply mk_rises)) | (fail_if_no_progress (with_reducible refine mkGaffer_rises rfl rfl ?_))
    | with_reducible apply foldl_rises | intro _ | (extract_lets)
    | (fail_if_no_progress (with_reducible apply mkOut_rises)) | (fail_if_no_progress (with_reducible apply mkDraws_rises)) | split
    | (dsimp +zetaDelta only)

theorem resolve_rises {a d : Device} (x1 : _) (x2 : _) (x3 : _) (h : rises a d) : rises a (resolve x1 x2 x3 d) := by
  unfold resolve
  repeat' first
    | with_reducible assumption | with_reducible rfl | with_reducible apply linkDrop_rises
    | (fail_if_no_progress (with_reducible apply mk_rises)) | (fail_if_no_progress (with_reducible refine mkGaffer_rises rfl rfl ?_))
    | with_reducible apply foldl_rises | intro _ | (extract_lets) | (fail_if_no_progress (with_reducible apply mkOut_rises))
    | (fail_if_no_progress (with_reducible apply mkDraws_rises)) | split | (dsimp +zetaDelta only)

theorem noteTwin_rises {a d : Device} (x1 : _) (x2 : _) (x3 : _) (h : rises a d) : rises a (noteTwin x1 x2 x3 d) := by
  unfold noteTwin
  repeat' first
    | with_reducible assumption | with_reducible rfl | with_reducible apply sendAbort_rises
    | (fail_if_no_progress (with_reducible apply mk_rises)) | (fail_if_no_progress (with_reducible refine mkGaffer_rises rfl rfl ?_))
    | with_reducible apply foldl_rises | intro _ | (extract_lets)
    | (fail_if_no_progress (with_reducible apply mkOut_rises)) | (fail_if_no_progress (with_reducible apply mkDraws_rises)) | split
    | (dsimp +zetaDelta only)

theorem takeHello_rises {a d : Device} (x1 : _) (x2 : _) (h : rises a d) : rises a (takeHello x1 x2 d) := by
  unfold takeHello
  repeat' first
    | with_reducible assumption | with_reducible rfl | with_reducible apply pwrCount_rises | with_reducible apply noteTwin_rises
    | with_reducible apply noteNonce_rises | with_reducible apply netCount_rises | with_reducible apply openHello_rises
    | (fail_if_no_progress (with_reducible apply mk_rises)) | (fail_if_no_progress (with_reducible refine mkGaffer_rises rfl rfl ?_))
    | with_reducible apply foldl_rises | intro _ | (extract_lets)
    | (fail_if_no_progress (with_reducible apply mkOut_rises)) | (fail_if_no_progress (with_reducible apply mkDraws_rises)) | split
    | (dsimp +zetaDelta only)

theorem takeHelloPart_rises {a d : Device} (x1 : _) (x2 : _) (h : rises a d) : rises a (takeHelloPart x1 x2 d) := by
  unfold takeHelloPart
  repeat' first
    | with_reducible assumption | with_reducible rfl | with_reducible apply takeHello_rises
    | (fail_if_no_progress (with_reducible apply mk_rises)) | (fail_if_no_progress (with_reducible refine mkGaffer_rises rfl rfl ?_))
    | with_reducible apply foldl_rises | intro _ | (extract_lets)
    | (fail_if_no_progress (with_reducible apply mkOut_rises)) | (fail_if_no_progress (with_reducible apply mkDraws_rises)) | split
    | (dsimp +zetaDelta only)

theorem establish_rises {a d : Device} (x1 : _) (x2 : _) (h : rises a d) : rises a (establish x1 x2 d) := by
  unfold establish
  repeat' first
    | with_reducible assumption | with_reducible rfl | with_reducible apply sendSession_rises | with_reducible apply netCount_rises
    | with_reducible apply pathWrite_rises
    | (fail_if_no_progress (with_reducible apply mk_rises)) | (fail_if_no_progress (with_reducible refine mkGaffer_rises rfl rfl ?_))
    | with_reducible apply foldl_rises | intro _ | (extract_lets)
    | (fail_if_no_progress (with_reducible apply mkOut_rises)) | (fail_if_no_progress (with_reducible apply mkDraws_rises)) | split
    | (dsimp +zetaDelta only)

theorem takeFinish_rises {a d : Device} (x1 : _) (x2 : _) (h : rises a d) : rises a (takeFinish x1 x2 d) := by
  unfold takeFinish
  repeat' first
    | with_reducible assumption | with_reducible rfl | with_reducible apply unknownSession_rises
    | with_reducible apply netCount_rises | with_reducible apply abortSession_rises | with_reducible apply setSession_rises
    | with_reducible apply establish_rises
    | (fail_if_no_progress (with_reducible apply mk_rises)) | (fail_if_no_progress (with_reducible refine mkGaffer_rises rfl rfl ?_))
    | with_reducible apply foldl_rises | intro _ | (extract_lets)
    | (fail_if_no_progress (with_reducible apply mkOut_rises)) | (fail_if_no_progress (with_reducible apply mkDraws_rises)) | split
    | (dsimp +zetaDelta only)

theorem noteAdmitted_rises {a d : Device} (x1 : _) (x2 : _) (x3 : _) (h : rises a d) : rises a (noteAdmitted x1 x2 x3 d) := by
  unfold noteAdmitted
  repeat' first
    | with_reducible assumption | with_reducible rfl | with_reducible apply setSession_rises
    | (fail_if_no_progress (with_reducible apply mk_rises)) | (fail_if_no_progress (with_reducible refine mkGaffer_rises rfl rfl ?_))
    | with_reducible apply foldl_rises | intro _ | (extract_lets) | (fail_if_no_progress (with_reducible apply mkOut_rises))
    | (fail_if_no_progress (with_reducible apply mkDraws_rises)) | split | (dsimp +zetaDelta only)

theorem takeRequest_rises {a d : Device} (x1 : _) (x2 : _) (x3 : _) (h : rises a d) : rises a (takeRequest x1 x2 x3 d) := by
  unfold takeRequest
  repeat' first
    | with_reducible assumption | with_reducible rfl | with_reducible apply noteAdmitted_rises | with_reducible apply refuseJob_rises
    | with_reducible apply pwrCount_rises
    | with_reducible apply enterJob_rises | (fail_if_no_progress (with_reducible apply mk_rises))
    | (fail_if_no_progress (with_reducible refine mkGaffer_rises rfl rfl ?_)) | with_reducible apply foldl_rises | intro _
    | (extract_lets) | (fail_if_no_progress (with_reducible apply mkOut_rises)) | (fail_if_no_progress (with_reducible apply mkDraws_rises)) | split
    | (dsimp +zetaDelta only)

theorem takeCancel_rises {a d : Device} (x1 : _) (x2 : _) (x3 : _) (h : rises a d) : rises a (takeCancel x1 x2 x3 d) := by
  unfold takeCancel
  repeat' first
    | with_reducible assumption | with_reducible rfl | with_reducible apply cancelJob_rises | with_reducible apply queueReply_rises
    | (fail_if_no_progress (with_reducible apply mk_rises)) | (fail_if_no_progress (with_reducible refine mkGaffer_rises rfl rfl ?_))
    | with_reducible apply foldl_rises | intro _ | (extract_lets)
    | (fail_if_no_progress (with_reducible apply mkOut_rises)) | (fail_if_no_progress (with_reducible apply mkDraws_rises)) | split
    | (dsimp +zetaDelta only)

theorem takeRekey_rises {a d : Device} (x1 : _) (x2 : _) (x3 : _) (h : rises a d) : rises a (takeRekey x1 x2 x3 d) := by
  unfold takeRekey
  repeat' first
    | with_reducible assumption | with_reducible rfl | with_reducible apply netCount_rises | with_reducible apply withDraw_rises
    | with_reducible apply queueReply_rises | with_reducible apply pathWrite_rises
    | (fail_if_no_progress (with_reducible apply mk_rises)) | (fail_if_no_progress (with_reducible refine mkGaffer_rises rfl rfl ?_))
    | with_reducible apply foldl_rises | intro _ | (extract_lets)
    | (fail_if_no_progress (with_reducible apply mkOut_rises)) | (fail_if_no_progress (with_reducible apply mkDraws_rises)) | split
    | (dsimp +zetaDelta only)

theorem orderHandover_rises {a d : Device} (x1 : _) (x2 : _) (h : rises a d) : rises a (orderHandover x1 x2 d) := by
  unfold orderHandover
  repeat' first
    | with_reducible assumption | with_reducible rfl | with_reducible apply modPath_rises | (fail_if_no_progress (with_reducible apply mk_rises))
    | (fail_if_no_progress (with_reducible refine mkGaffer_rises rfl rfl ?_))
    | with_reducible apply foldl_rises | intro _ | (extract_lets) | (fail_if_no_progress (with_reducible apply mkOut_rises))
    | (fail_if_no_progress (with_reducible apply mkDraws_rises)) | split | (dsimp +zetaDelta only)

theorem finishHandover_rises {a d : Device} (x1 : _) (h : rises a d) : rises a (finishHandover x1 d) := by
  unfold finishHandover
  repeat' first
    | with_reducible assumption | with_reducible rfl | with_reducible apply modPath_rises | with_reducible apply tableWrite_rises
    | with_reducible apply serveHeld_rises | with_reducible apply emit_rises | with_reducible apply notice_rises
    | (fail_if_no_progress (with_reducible apply mk_rises)) | (fail_if_no_progress (with_reducible refine mkGaffer_rises rfl rfl ?_))
    | with_reducible apply foldl_rises | intro _ | (extract_lets)
    | (fail_if_no_progress (with_reducible apply mkOut_rises)) | (fail_if_no_progress (with_reducible apply mkDraws_rises)) | split
    | (dsimp +zetaDelta only)

theorem keepOnline_rises {a d : Device} (x1 : _) (h : rises a d) : rises a (keepOnline x1 d) := by
  unfold keepOnline
  repeat' first
    | with_reducible assumption | with_reducible rfl
    | (fail_if_no_progress (with_reducible apply mk_rises)) | (fail_if_no_progress (with_reducible refine mkGaffer_rises rfl rfl ?_))
    | with_reducible apply foldl_rises | intro _ | (extract_lets)
    | (fail_if_no_progress (with_reducible apply mkOut_rises)) | (fail_if_no_progress (with_reducible apply mkDraws_rises)) | split
    | (dsimp +zetaDelta only)

theorem writeOffline_rises {a d : Device} (x1 : _) (x2 : _) (h : rises a d) : rises a (writeOffline x1 x2 d) := by
  unfold writeOffline
  repeat' first
    | with_reducible assumption | with_reducible rfl | with_reducible apply keepOnline_rises | with_reducible apply abandonHandover_rises | with_reducible apply modPath_rises | with_reducible apply orderHandover_rises
    | (fail_if_no_progress (with_reducible apply mk_rises)) | (fail_if_no_progress (with_reducible refine mkGaffer_rises rfl rfl ?_))
    | with_reducible apply foldl_rises | intro _ | (extract_lets)
    | (fail_if_no_progress (with_reducible apply mkOut_rises)) | (fail_if_no_progress (with_reducible apply mkDraws_rises)) | split
    | (dsimp +zetaDelta only)

theorem powerRow_rises {a d : Device} (x1 : Nat) (x2 : CoreRef) (h : rises a d) : rises a (powerRow x1 x2 d) := by
  unfold powerRow
  split
  · exact doIf_rises _ _ (fun _ hx => execVerb_rises _ _ _ (fun _ _ _ hy => hy) hx) h
  · exact h

theorem enterDusk_rises {a d : Device}  (h : rises a d) : rises a (enterDusk d) := by
  unfold enterDusk
  repeat' first
    | with_reducible assumption | with_reducible rfl | with_reducible apply pwrCount_rises
    | (fail_if_no_progress (with_reducible apply mk_rises)) | (fail_if_no_progress (with_reducible refine mkGaffer_rises rfl rfl ?_))
    | with_reducible apply foldl_rises | intro _ | (extract_lets) | (fail_if_no_progress (with_reducible apply mkOut_rises))
    | (fail_if_no_progress (with_reducible apply mkDraws_rises)) | split | (dsimp +zetaDelta only)

theorem wakes_rises {a d : Device}  (h : rises a d) : rises a (wakes d) := by
  unfold wakes
  repeat' first
    | with_reducible assumption | with_reducible rfl | with_reducible apply dispatchAll_rises | with_reducible apply doEach_rises
    | with_reducible apply beginHeartbeat_rises | (fail_if_no_progress (with_reducible apply mk_rises))
    | (fail_if_no_progress (with_reducible refine mkGaffer_rises rfl rfl ?_)) | with_reducible apply foldl_rises | intro _
    | (extract_lets) | (fail_if_no_progress (with_reducible apply mkOut_rises)) | (fail_if_no_progress (with_reducible apply mkDraws_rises)) | split
    | (dsimp +zetaDelta only)

theorem refuseOpen_rises {a d : Device} (x1 : _) (h : rises a d) : rises a (refuseOpen x1 d) := by
  unfold refuseOpen
  repeat' first
    | with_reducible assumption | with_reducible rfl | (fail_if_no_progress (with_reducible apply mk_rises))
    | (fail_if_no_progress (with_reducible refine mkGaffer_rises rfl rfl ?_)) | with_reducible apply foldl_rises | intro _ | (extract_lets)
    | (fail_if_no_progress (with_reducible apply mkOut_rises)) | (fail_if_no_progress (with_reducible apply mkDraws_rises)) | split
    | (dsimp +zetaDelta only)

theorem latchFn_rises {a d : Device} (x1 : _) (x2 : _) (h : rises a d) : rises a (latchFn x1 x2 d) := by
  unfold latchFn
  repeat' first
    | with_reducible assumption | with_reducible rfl | with_reducible apply modFn_rises | (fail_if_no_progress (with_reducible apply mk_rises))
    | (fail_if_no_progress (with_reducible refine mkGaffer_rises rfl rfl ?_))
    | with_reducible apply foldl_rises | intro _ | (extract_lets) | (fail_if_no_progress (with_reducible apply mkOut_rises))
    | (fail_if_no_progress (with_reducible apply mkDraws_rises)) | split | (dsimp +zetaDelta only)

theorem latchKind_rises {a d : Device} (x1 : _) (x2 : _) (x3 : _) (h : rises a d) : rises a (latchKind x1 x2 x3 d) := by
  unfold latchKind
  repeat' first
    | with_reducible assumption | with_reducible rfl | with_reducible apply setSticky_rises
    | (fail_if_no_progress (with_reducible apply mk_rises)) | (fail_if_no_progress (with_reducible refine mkGaffer_rises rfl rfl ?_))
    | with_reducible apply foldl_rises | intro _ | (extract_lets) | (fail_if_no_progress (with_reducible apply mkOut_rises))
    | (fail_if_no_progress (with_reducible apply mkDraws_rises)) | split | (dsimp +zetaDelta only)

theorem latchGather_rises {a d : Device} (x1 : _) (x2 : _) (h : rises a d) : rises a (latchGather x1 x2 d) := by
  unfold latchGather
  repeat' first
    | with_reducible assumption | with_reducible rfl
    | (fail_if_no_progress (with_reducible apply mk_rises)) | (fail_if_no_progress (with_reducible refine mkGaffer_rises rfl rfl ?_))
    | with_reducible apply foldl_rises | intro _ | (extract_lets)
    | (fail_if_no_progress (with_reducible apply mkOut_rises)) | (fail_if_no_progress (with_reducible apply mkDraws_rises)) | split
    | (dsimp +zetaDelta only)

theorem latchBench_rises {a d : Device} (x1 : _) (x2 : _) (x3 : _) (x4 : _) (h : rises a d) : rises a (latchBench x1 x2 x3 x4 d) := by
  unfold latchBench
  repeat' first
    | with_reducible assumption | with_reducible rfl | with_reducible apply modBench_rises | with_reducible apply latchKind_rises
    | with_reducible apply latchGather_rises
    | (fail_if_no_progress (with_reducible apply mk_rises)) | (fail_if_no_progress (with_reducible refine mkGaffer_rises rfl rfl ?_))
    | with_reducible apply foldl_rises | intro _ | (extract_lets)
    | (fail_if_no_progress (with_reducible apply mkOut_rises)) | (fail_if_no_progress (with_reducible apply mkDraws_rises)) | split
    | (dsimp +zetaDelta only)

theorem latchNet_rises {a d : Device} (x1 : _) (x2 : _) (x3 : _) (h : rises a d) : rises a (latchNet x1 x2 x3 d) := by
  unfold latchNet
  repeat' first
    | with_reducible assumption | with_reducible rfl | with_reducible apply modPath_rises | (fail_if_no_progress (with_reducible apply mk_rises))
    | (fail_if_no_progress (with_reducible refine mkGaffer_rises rfl rfl ?_))
    | with_reducible apply foldl_rises | intro _ | (extract_lets) | (fail_if_no_progress (with_reducible apply mkOut_rises))
    | (fail_if_no_progress (with_reducible apply mkDraws_rises)) | split | (dsimp +zetaDelta only)

theorem latchCustody_rises {a d : Device} (x1 : _) (h : rises a d) : rises a (latchCustody x1 d) := by
  unfold latchCustody
  repeat' first
    | with_reducible assumption | with_reducible rfl | (fail_if_no_progress (with_reducible apply mk_rises))
    | (fail_if_no_progress (with_reducible refine mkGaffer_rises rfl rfl ?_)) | with_reducible apply foldl_rises | intro _ | (extract_lets)
    | (fail_if_no_progress (with_reducible apply mkOut_rises)) | (fail_if_no_progress (with_reducible apply mkDraws_rises)) | split
    | (dsimp +zetaDelta only)

theorem latchEvents_rises {a d : Device} (x1 : _) (x2 : _) (h : rises a d) : rises a (latchEvents x1 x2 d) := by
  unfold latchEvents
  repeat' first
    | with_reducible assumption | with_reducible rfl | (fail_if_no_progress (with_reducible apply mk_rises))
    | (fail_if_no_progress (with_reducible refine mkGaffer_rises rfl rfl ?_)) | with_reducible apply foldl_rises | intro _ | (extract_lets)
    | (fail_if_no_progress (with_reducible apply mkOut_rises)) | (fail_if_no_progress (with_reducible apply mkDraws_rises)) | split
    | (dsimp +zetaDelta only)

theorem latchAt_rises {a d : Device} (x1 : Reader) (x2 x3 : Nat) (h : rises a d) : rises a (latchAt x1 x2 x3 d) := by
  unfold latchAt
  refine iteRec_rises (latchFn_rises _ _ h) (iteRec_rises h (iteRec_rises (latchFn_rises _ _ h) (iteRec_rises (mk_rises h)
    (iteRec_rises (mk_rises h) (iteRec_rises (latchBench_rises _ _ _ _ h) (iteRec_rises (latchNet_rises _ _ _ h)
    (iteRec_rises (latchNet_rises _ _ _ h) (iteRec_rises (latchCustody_rises _ h) (iteRec_rises (latchEvents_rises _ _ h)
    (iteRec_rises (mk_rises h) h))))))))))

theorem copyRecord_rises {a d : Device}  (h : rises a d) : rises a (copyRecord d) := by
  unfold copyRecord
  repeat' first
    | with_reducible assumption | with_reducible rfl | (fail_if_no_progress (with_reducible apply mk_rises))
    | (fail_if_no_progress (with_reducible refine mkGaffer_rises rfl rfl ?_)) | with_reducible apply foldl_rises | intro _ | (extract_lets)
    | (fail_if_no_progress (with_reducible apply mkOut_rises)) | (fail_if_no_progress (with_reducible apply mkDraws_rises)) | split
    | (dsimp +zetaDelta only)

theorem writeKst_rises {a d : Device} (x1 : _) (x2 : _) (h : rises a d) : rises a (writeKst x1 x2 d) := by
  unfold writeKst
  repeat' first
    | with_reducible assumption | with_reducible rfl | with_reducible apply doIf_rises | with_reducible apply requestRemask_rises
    | (fail_if_no_progress (with_reducible apply mk_rises)) | (fail_if_no_progress (with_reducible refine mkGaffer_rises rfl rfl ?_))
    | with_reducible apply foldl_rises | intro _ | (extract_lets)
    | (fail_if_no_progress (with_reducible apply mkOut_rises)) | (fail_if_no_progress (with_reducible apply mkDraws_rises)) | split
    | (dsimp +zetaDelta only)

theorem writeGaf_rises {a d : Device} (x1 : _) (x2 : _) (h : rises a d) : rises a (writeGaf x1 x2 d) := by
  unfold writeGaf
  repeat' first
    | with_reducible assumption | with_reducible rfl | (fail_if_no_progress (with_reducible apply mk_rises))
    | (fail_if_no_progress (with_reducible refine mkGaffer_rises rfl rfl ?_)) | with_reducible apply foldl_rises | intro _ | (extract_lets)
    | (fail_if_no_progress (with_reducible apply mkOut_rises)) | (fail_if_no_progress (with_reducible apply mkDraws_rises)) | split
    | (dsimp +zetaDelta only)

theorem writeLeh_rises {a d : Device} (x1 : _) (x2 : _) (x3 : _) (h : rises a d) : rises a (writeLeh x1 x2 x3 d) := by
  unfold writeLeh
  repeat' first
    | with_reducible assumption | with_reducible rfl | with_reducible apply modBench_rises
    | (fail_if_no_progress (with_reducible apply mk_rises)) | (fail_if_no_progress (with_reducible refine mkGaffer_rises rfl rfl ?_))
    | with_reducible apply foldl_rises | intro _ | (extract_lets) | (fail_if_no_progress (with_reducible apply mkOut_rises))
    | (fail_if_no_progress (with_reducible apply mkDraws_rises)) | split | (dsimp +zetaDelta only)

theorem writeSelftest_rises {a d : Device} (x1 : _) (x2 : _) (x3 : _) (h : rises a d) : rises a (writeSelftest x1 x2 x3 d) := by
  unfold writeSelftest
  repeat' first
    | with_reducible assumption | with_reducible rfl | with_reducible apply startCampaign_rises
    | with_reducible apply setSticky_rises | with_reducible apply doIf_rises
    | (fail_if_no_progress (with_reducible apply mk_rises)) | (fail_if_no_progress (with_reducible refine mkGaffer_rises rfl rfl ?_))
    | with_reducible apply foldl_rises | intro _ | (extract_lets)
    | (fail_if_no_progress (with_reducible apply mkOut_rises)) | (fail_if_no_progress (with_reducible apply mkDraws_rises)) | split
    | (dsimp +zetaDelta only)

theorem writeEngines_rises {a d : Device} (x1 : _) (x2 : _) (x3 : _) (x4 : _) (x5 : _) (x6 : _) (x7 : _) (h : rises a d) : rises a (writeEngines x1 x2 x3 x4 x5 x6 x7 d) := by
  unfold writeEngines
  repeat' first
    | with_reducible assumption | with_reducible rfl | with_reducible apply setSticky_rises | with_reducible apply writeSelftest_rises
    | (fail_if_no_progress (with_reducible apply mk_rises)) | (fail_if_no_progress (with_reducible refine mkGaffer_rises rfl rfl ?_))
    | with_reducible apply foldl_rises | intro _ | (extract_lets)
    | (fail_if_no_progress (with_reducible apply mkOut_rises)) | (fail_if_no_progress (with_reducible apply mkDraws_rises)) | split
    | (dsimp +zetaDelta only)

theorem writeGth_rises {a d : Device} (x1 : _) (x2 : _) (x3 : _) (h : rises a d) : rises a (writeGth x1 x2 x3 d) := by
  unfold writeGth
  repeat' first
    | with_reducible assumption | with_reducible rfl | (fail_if_no_progress (with_reducible apply mk_rises))
    | (fail_if_no_progress (with_reducible refine mkGaffer_rises rfl rfl ?_)) | with_reducible apply foldl_rises | intro _ | (extract_lets)
    | (fail_if_no_progress (with_reducible apply mkOut_rises)) | (fail_if_no_progress (with_reducible apply mkDraws_rises)) | split
    | (dsimp +zetaDelta only)

theorem writeBench_rises {a d : Device} (x1 : _) (x2 : _) (x3 : _) (x4 : _) (h : rises a d) : rises a (writeBench x1 x2 x3 x4 d) := by
  unfold writeBench
  repeat' first
    | with_reducible assumption | with_reducible rfl | with_reducible apply writeLeh_rises | with_reducible apply modBench_rises
    | with_reducible apply writeEngines_rises
    | with_reducible apply doIf_rises | with_reducible apply writeGth_rises | (fail_if_no_progress (with_reducible apply mk_rises))
    | (fail_if_no_progress (with_reducible refine mkGaffer_rises rfl rfl ?_))
    | with_reducible apply foldl_rises | intro _ | (extract_lets) | (fail_if_no_progress (with_reducible apply mkOut_rises))
    | (fail_if_no_progress (with_reducible apply mkDraws_rises)) | split | (dsimp +zetaDelta only)

theorem writeNetCtrl_rises {a d : Device} (x1 : _) (x2 : _) (h : rises a d) : rises a (writeNetCtrl x1 x2 d) := by
  unfold writeNetCtrl
  repeat' first
    | with_reducible assumption | with_reducible rfl | with_reducible apply writeOffline_rises | with_reducible apply doIf_rises
    | with_reducible apply orderHandover_rises
    | (fail_if_no_progress (with_reducible apply mk_rises)) | (fail_if_no_progress (with_reducible refine mkGaffer_rises rfl rfl ?_))
    | with_reducible apply foldl_rises | intro _ | (extract_lets)
    | (fail_if_no_progress (with_reducible apply mkOut_rises)) | (fail_if_no_progress (with_reducible apply mkDraws_rises)) | split
    | (dsimp +zetaDelta only)

theorem writeNet_rises {a d : Device} (x1 : _) (x2 : _) (x3 : _) (h : rises a d) : rises a (writeNet x1 x2 x3 d) := by
  unfold writeNet
  repeat' first
    | with_reducible assumption | with_reducible rfl | with_reducible apply modPath_rises | with_reducible apply doIf_rises
    | with_reducible apply writeNetCtrl_rises
    | (fail_if_no_progress (with_reducible apply mk_rises)) | (fail_if_no_progress (with_reducible refine mkGaffer_rises rfl rfl ?_))
    | with_reducible apply foldl_rises | intro _ | (extract_lets)
    | (fail_if_no_progress (with_reducible apply mkOut_rises)) | (fail_if_no_progress (with_reducible apply mkDraws_rises)) | split
    | (dsimp +zetaDelta only)

theorem writeAlert_rises {a d : Device} (x1 : _) (h : rises a d) : rises a (writeAlert x1 d) := by
  unfold writeAlert
  repeat' first
    | with_reducible assumption | with_reducible rfl | with_reducible apply doIf_rises | with_reducible apply resumeAlert_rises
    | (fail_if_no_progress (with_reducible apply mk_rises)) | (fail_if_no_progress (with_reducible refine mkGaffer_rises rfl rfl ?_))
    | with_reducible apply foldl_rises | intro _ | (extract_lets)
    | (fail_if_no_progress (with_reducible apply mkOut_rises)) | (fail_if_no_progress (with_reducible apply mkDraws_rises)) | split
    | (dsimp +zetaDelta only)

theorem writeEvr_rises {a d : Device} (x1 : _) (x2 : _) (h : rises a d) : rises a (writeEvr x1 x2 d) := by
  unfold writeEvr
  repeat' first
    | with_reducible assumption | with_reducible rfl | with_reducible apply writeAlert_rises
    | (fail_if_no_progress (with_reducible apply mk_rises)) | (fail_if_no_progress (with_reducible refine mkGaffer_rises rfl rfl ?_))
    | with_reducible apply foldl_rises | intro _ | (extract_lets) | (fail_if_no_progress (with_reducible apply mkOut_rises))
    | (fail_if_no_progress (with_reducible apply mkDraws_rises)) | split | (dsimp +zetaDelta only)

theorem writePwr_rises {a d : Device} (x1 : _) (x2 : _) (h : rises a d) : rises a (writePwr x1 x2 d) := by
  unfold writePwr
  repeat' first
    | with_reducible assumption | with_reducible rfl | (fail_if_no_progress (with_reducible apply mk_rises))
    | (fail_if_no_progress (with_reducible refine mkGaffer_rises rfl rfl ?_)) | with_reducible apply foldl_rises | intro _ | (extract_lets)
    | (fail_if_no_progress (with_reducible apply mkOut_rises)) | (fail_if_no_progress (with_reducible apply mkDraws_rises)) | split
    | (dsimp +zetaDelta only)

theorem writeFnCtrl_rises {a d : Device} (x1 : _) (x2 : _) (h : rises a d) : rises a (writeFnCtrl x1 x2 d) := by
  unfold writeFnCtrl
  repeat' first
    | with_reducible assumption | with_reducible rfl | with_reducible apply setEnable_rises | with_reducible apply clearEnable_rises
    | with_reducible apply setQuiesce_rises | with_reducible apply clearQuiesce_rises | (fail_if_no_progress (with_reducible apply mk_rises))
    | (fail_if_no_progress (with_reducible refine mkGaffer_rises rfl rfl ?_))
    | with_reducible apply foldl_rises | intro _ | (extract_lets) | (fail_if_no_progress (with_reducible apply mkOut_rises))
    | (fail_if_no_progress (with_reducible apply mkDraws_rises)) | split | (dsimp +zetaDelta only)

theorem writePringCons_rises {a d : Device} (x1 : _) (x2 : _) (h : rises a d) : rises a (writePringCons x1 x2 d) := by
  unfold writePringCons
  repeat' first
    | with_reducible assumption | with_reducible rfl | with_reducible apply resumeSweeps_rises | with_reducible apply modFn_rises
    | (fail_if_no_progress (with_reducible apply mk_rises)) | (fail_if_no_progress (with_reducible refine mkGaffer_rises rfl rfl ?_))
    | with_reducible apply foldl_rises | intro _ | (extract_lets)
    | (fail_if_no_progress (with_reducible apply mkOut_rises)) | (fail_if_no_progress (with_reducible apply mkDraws_rises)) | split
    | (dsimp +zetaDelta only)

theorem writeFn_rises {a d : Device} (x1 : _) (x2 : _) (x3 : _) (h : rises a d) : rises a (writeFn x1 x2 x3 d) := by
  unfold writeFn
  repeat' first
    | with_reducible assumption | with_reducible rfl | with_reducible apply writeFnCtrl_rises | with_reducible apply modFn_rises
    | with_reducible apply writePringCons_rises | (fail_if_no_progress (with_reducible apply mk_rises))
    | (fail_if_no_progress (with_reducible refine mkGaffer_rises rfl rfl ?_)) | with_reducible apply foldl_rises | intro _
    | (extract_lets) | (fail_if_no_progress (with_reducible apply mkOut_rises)) | (fail_if_no_progress (with_reducible apply mkDraws_rises)) | split
    | (dsimp +zetaDelta only)

theorem writeQueue_rises {a d : Device} (x1 : _) (x2 : _) (x3 : _) (x4 : _) (h : rises a d) : rises a (writeQueue x1 x2 x3 x4 d) := by
  unfold writeQueue
  repeat' first
    | with_reducible assumption | with_reducible rfl | with_reducible apply modQueue_rises | with_reducible apply writeQueueCfg_rises
    | (fail_if_no_progress (with_reducible apply mk_rises)) | (fail_if_no_progress (with_reducible refine mkGaffer_rises rfl rfl ?_))
    | with_reducible apply foldl_rises | intro _ | (extract_lets)
    | (fail_if_no_progress (with_reducible apply mkOut_rises)) | (fail_if_no_progress (with_reducible apply mkDraws_rises)) | split
    | (dsimp +zetaDelta only)

theorem writeMbxIn_rises {a d : Device} (x1 : _) (x2 : _) (x3 : _) (h : rises a d) : rises a (writeMbxIn x1 x2 x3 d) := by
  unfold writeMbxIn
  repeat' first
    | with_reducible assumption | with_reducible rfl | with_reducible apply modFn_rises | (fail_if_no_progress (with_reducible apply mk_rises))
    | (fail_if_no_progress (with_reducible refine mkGaffer_rises rfl rfl ?_))
    | with_reducible apply foldl_rises | intro _ | (extract_lets) | (fail_if_no_progress (with_reducible apply mkOut_rises))
    | (fail_if_no_progress (with_reducible apply mkDraws_rises)) | split | (dsimp +zetaDelta only)

theorem writeMbxCtrl_rises {a d : Device} (x1 : _) (x2 : _) (h : rises a d) : rises a (writeMbxCtrl x1 x2 d) := by
  unfold writeMbxCtrl
  repeat' first
    | with_reducible assumption | with_reducible rfl | with_reducible apply doIf_rises | with_reducible apply clearOutValid_rises
    | with_reducible apply actOnMessage_rises
    | with_reducible apply takePost_rises | (fail_if_no_progress (with_reducible apply mk_rises))
    | (fail_if_no_progress (with_reducible refine mkGaffer_rises rfl rfl ?_)) | with_reducible apply foldl_rises | intro _
    | (extract_lets) | (fail_if_no_progress (with_reducible apply mkOut_rises)) | (fail_if_no_progress (with_reducible apply mkDraws_rises)) | split
    | (dsimp +zetaDelta only)

theorem writeMsix_rises {a d : Device} (x1 : _) (x2 : _) (x3 : _) (h : rises a d) : rises a (writeMsix x1 x2 x3 d) := by
  unfold writeMsix
  repeat' first
    | with_reducible assumption | with_reducible rfl | with_reducible apply modFn_rises | with_reducible apply fireVector_rises
    | (fail_if_no_progress (with_reducible apply mk_rises)) | (fail_if_no_progress (with_reducible refine mkGaffer_rises rfl rfl ?_))
    | with_reducible apply foldl_rises | intro _ | (extract_lets)
    | (fail_if_no_progress (with_reducible apply mkOut_rises)) | (fail_if_no_progress (with_reducible apply mkDraws_rises)) | split
    | (dsimp +zetaDelta only)

theorem writeBar_rises {a d : Device} (x1 : _) (x2 : _) (x3 : _) (h : rises a d) : rises a (writeBar x1 x2 x3 d) := by
  unfold writeBar
  repeat' first
    | with_reducible assumption | with_reducible rfl | with_reducible apply writeFn_rises | with_reducible apply writeQueue_rises
    | with_reducible apply doorbell_rises
    | with_reducible apply writeMbxIn_rises | with_reducible apply writeMbxCtrl_rises | with_reducible apply writeMsix_rises
    | (fail_if_no_progress (with_reducible apply mk_rises)) | (fail_if_no_progress (with_reducible refine mkGaffer_rises rfl rfl ?_))
    | with_reducible apply foldl_rises | intro _ | (extract_lets)
    | (fail_if_no_progress (with_reducible apply mkOut_rises)) | (fail_if_no_progress (with_reducible apply mkDraws_rises)) | split
    | (dsimp +zetaDelta only)

theorem writeAcuGlobal_rises {a d : Device} (x1 : _) (x2 : _) (h : rises a d) : rises a (writeAcuGlobal x1 x2 d) := by
  unfold writeAcuGlobal
  repeat' first
    | with_reducible assumption | with_reducible rfl | (fail_if_no_progress (with_reducible apply mk_rises))
    | (fail_if_no_progress (with_reducible refine mkGaffer_rises rfl rfl ?_)) | with_reducible apply foldl_rises | intro _ | (extract_lets)
    | (fail_if_no_progress (with_reducible apply mkOut_rises)) | (fail_if_no_progress (with_reducible apply mkDraws_rises)) | split
    | (dsimp +zetaDelta only)

theorem refuseWrite_rises {a d : Device} (x1 : _) (x2 : _) (x3 : _) (h : rises a d) : rises a (refuseWrite x1 x2 x3 d) := by
  unfold refuseWrite
  repeat' first
    | with_reducible assumption | with_reducible rfl | with_reducible apply emitC_rises
    | (fail_if_no_progress (with_reducible apply mk_rises)) | (fail_if_no_progress (with_reducible refine mkGaffer_rises rfl rfl ?_))
    | with_reducible apply foldl_rises | intro _ | (extract_lets)
    | (fail_if_no_progress (with_reducible apply mkOut_rises)) | (fail_if_no_progress (with_reducible apply mkDraws_rises)) | split
    | (dsimp +zetaDelta only)

theorem custodyWrite_rises {a d : Device} (x1 : _) (x2 : _) (h : rises a d) : rises a (custodyWrite x1 x2 d) := by
  unfold custodyWrite
  repeat' first
    | with_reducible assumption | with_reducible rfl | with_reducible apply refuseWrite_rises
    | (fail_if_no_progress (with_reducible apply mk_rises)) | (fail_if_no_progress (with_reducible refine mkGaffer_rises rfl rfl ?_))
    | with_reducible apply foldl_rises | intro _ | (extract_lets)
    | (fail_if_no_progress (with_reducible apply mkOut_rises)) | (fail_if_no_progress (with_reducible apply mkDraws_rises)) | split
    | (dsimp +zetaDelta only)

theorem objectWrite_rises {a d : Device} (x1 : _) (x2 : _) (h : rises a d) : rises a (objectWrite x1 x2 d) := by
  unfold objectWrite
  repeat' first
    | with_reducible assumption | with_reducible rfl | with_reducible apply tableWrite_rises
    | with_reducible apply custodyWrite_rises | with_reducible apply refuseWrite_rises | with_reducible apply doIf_rises
    | (fail_if_no_progress (with_reducible apply mk_rises)) | (fail_if_no_progress (with_reducible refine mkGaffer_rises rfl rfl ?_))
    | with_reducible apply foldl_rises | intro _ | (extract_lets)
    | (fail_if_no_progress (with_reducible apply mkOut_rises)) | (fail_if_no_progress (with_reducible apply mkDraws_rises)) | split
    | (dsimp +zetaDelta only)

theorem writeReg_rises {a d : Device} (x1 x2 : Nat) (x3 : Word) (h : rises a d) : rises a (writeReg x1 x2 x3 d) := by
  unfold writeReg
  refine iteRec_rises (writeBar_rises _ _ _ h) (iteRec_rises h (iteRec_rises (doIf_rises _ _ (fun _ hx => writeFn_rises _ _ _ hx) h)
    (iteRec_rises (iteRec_rises (writeRegion_rises _ _ _ _ h) h) (iteRec_rises (writeAcuGlobal_rises _ _ h)
    (iteRec_rises (writeKst_rises _ _ h) (iteRec_rises (writeGaf_rises _ _ h) (iteRec_rises (writeBench_rises _ _ _ _ h)
    (iteRec_rises (writeNet_rises _ _ _ h) (iteRec_rises (writeNet_rises _ _ _ h) (iteRec_rises (custodyWrite_rises _ _ h)
    (iteRec_rises (writeEvr_rises _ _ h) (iteRec_rises (writePwr_rises _ _ h) h))))))))))))

theorem regionWrite_rises {a d : Device} (x1 : _) (x2 : _) (h : rises a d) : rises a (regionWrite x1 x2 d) := by
  unfold regionWrite
  repeat' first
    | with_reducible assumption | with_reducible rfl | with_reducible apply custodyWrite_rises
    | with_reducible apply refuseWrite_rises
    | (fail_if_no_progress (with_reducible apply mk_rises)) | (fail_if_no_progress (with_reducible refine mkGaffer_rises rfl rfl ?_))
    | with_reducible apply foldl_rises | intro _ | (extract_lets)
    | (fail_if_no_progress (with_reducible apply mkOut_rises)) | (fail_if_no_progress (with_reducible apply mkDraws_rises)) | split
    | (dsimp +zetaDelta only)

theorem stoppedWrite_rises {a d : Device} (x1 : _) (x2 : _) (x3 : _) (h : rises a d) : rises a (stoppedWrite x1 x2 x3 d) := by
  unfold stoppedWrite
  repeat' first
    | with_reducible assumption | with_reducible rfl | with_reducible apply writeReg_rises | with_reducible apply doIf_rises
    | (fail_if_no_progress (with_reducible apply mk_rises)) | (fail_if_no_progress (with_reducible refine mkGaffer_rises rfl rfl ?_))
    | with_reducible apply foldl_rises | intro _ | (extract_lets)
    | (fail_if_no_progress (with_reducible apply mkOut_rises)) | (fail_if_no_progress (with_reducible apply mkDraws_rises)) | split
    | (dsimp +zetaDelta only)

theorem overwriteEnds_rises {a d : Device}  (h : rises a d) : rises a (overwriteEnds d) := by
  unfold overwriteEnds
  repeat' first
    | with_reducible assumption | with_reducible rfl | with_reducible apply emitC_rises | with_reducible apply notice_rises
    | (fail_if_no_progress (with_reducible apply mk_rises)) | (fail_if_no_progress (with_reducible refine mkGaffer_rises rfl rfl ?_))
    | with_reducible apply foldl_rises | intro _ | (extract_lets)
    | (fail_if_no_progress (with_reducible apply mkOut_rises)) | (fail_if_no_progress (with_reducible apply mkDraws_rises)) | split
    | (dsimp +zetaDelta only)

theorem challengeAt_rises {a d : Device} (x1 : _) (h : rises a d) : rises a (challengeAt x1 d) := by
  unfold challengeAt
  repeat' first
    | with_reducible assumption | with_reducible rfl | (fail_if_no_progress (with_reducible apply mk_rises))
    | (fail_if_no_progress (with_reducible refine mkGaffer_rises rfl rfl ?_)) | with_reducible apply foldl_rises | intro _ | (extract_lets)
    | (fail_if_no_progress (with_reducible apply mkOut_rises)) | (fail_if_no_progress (with_reducible apply mkDraws_rises)) | split
    | (dsimp +zetaDelta only)

theorem challengeEnds_rises {a d : Device} (x1 : _) (x2 : _) (x3 : _) (h : rises a d) : rises a (challengeEnds x1 x2 x3 d) := by
  unfold challengeEnds
  repeat' first
    | with_reducible assumption | with_reducible rfl | with_reducible apply notice_rises | (fail_if_no_progress (with_reducible apply mk_rises))
    | (fail_if_no_progress (with_reducible refine mkGaffer_rises rfl rfl ?_))
    | with_reducible apply foldl_rises | intro _ | (extract_lets) | (fail_if_no_progress (with_reducible apply mkOut_rises))
    | (fail_if_no_progress (with_reducible apply mkDraws_rises)) | split | (dsimp +zetaDelta only)

theorem detectorQuiets_rises {a d : Device} (x1 : _) (x2 : _) (h : rises a d) : rises a (detectorQuiets x1 x2 d) := by
  unfold detectorQuiets
  repeat' first
    | with_reducible assumption | with_reducible rfl | with_reducible apply setSource_rises
    | (fail_if_no_progress (with_reducible apply mk_rises)) | (fail_if_no_progress (with_reducible refine mkGaffer_rises rfl rfl ?_))
    | with_reducible apply foldl_rises | intro _ | (extract_lets) | (fail_if_no_progress (with_reducible apply mkOut_rises))
    | (fail_if_no_progress (with_reducible apply mkDraws_rises)) | split | (dsimp +zetaDelta only)

end Sys2Proof.Machine
end

