-- ==== Sys2Proof/Tests/Slice0.lean ====
section
/-! SUPPORT. Tests of the model: well-formedness of commands, one small run of some commands with values taken from the
specification, and for every statement of Obligations.lean a concrete state and operands that meet its hypotheses. Where a
hypothesis rests on a value that Config leaves open, the operand is built from that same value, or the open fact is a
premise of the witness. -/

namespace Sys2Proof.Tests
set_option Elab.async false
open Sys2Proof Sys2Proof.Machine

/-! ### Small devices -/

/-- 100,000 s after release of reset: a multiple of every period the rules name. -/
def now : Nat := 3200000000000

/-- A KY-0320 in Operational. -/
def fusesOperational : Fuses :=
  { part := .ky0320, issued := true, ownCount := { width := 16, blown := [0] }, commissionCount := { width := 16, blown := [0] } }

/-- An engine in service. -/
def engineIn : Engine := { state := .inService }

/-- A bench in service with two idle cores and two engines of each kind. -/
def benchIn : Bench :=
  { inService := true, cores := [(0, { state := .idle }), (1, { state := .idle })], firmware := true,
    marver := { engines := [(0, engineIn), (1, engineIn)] }, cipher := { engines := [(0, engineIn), (1, engineIn)] },
    punty := { engines := [(0, engineIn), (1, engineIn)] }, lehr := { ready := true } }

/-- A function that is enabled, with one queue pair of 16 entries. -/
def fnIn : Fn :=
  { mode := .enabled, enable := true, noticed := true, queues := [(0, { enable := true, log2Depth := 4, intEnable := true, coalesceUs := 1 })] }

/-- A path with an address and its link up. -/
def pathIn : NetPath := { linkUp := true, mode := 1, addr := { configured := true, mac := 1, ipv4 := some 7, ipv6 := some 9 } }

/-- A tenant with a quota and a session limit. -/
def tenantIn : Tenant := { quota := 16, sessionLimit := 4 }

/-- An operational part after its start, with one bench, the physical function and one virtual function. -/
def device : Device :=
  { time := { ticks := now, windowsDone := 1 }, pins := { pwrOk := true, rstN := true, perstN := true, pfAnswer := .normal },
    start := { phase := 10, done := true }, fuses := fusesOperational,
    custody := { recordValid := true, record := { ownership := 1, mUnlock := 2, mRoot := 2, mDebug := 2, mAdmin := 2, cards := [(0, { serial := 1, key := fit 65 [4] })] } },
    tamper := { armed := true }, keys := { ready := true, refusing := false },
    gaffer := { ready := true, stopped := false, tenants := [(0, tenantIn), (1, tenantIn)] }, benches := [(0, benchIn)],
    gather := { service := true, sources := [(0, { state := .healthy }), (1, { state := .healthy })], instances := [(0, { ready := true }), (8, { ready := true }), (9, { ready := true }), (10, { ready := true })] },
    host := { fns := [(0, fnIn), (1, { fnIn with pringEnable := true })], numVfs := 1 },
    net := { a := { pathIn with claim := 2 }, b := pathIn }, events := { nvmOk := true }, flash := { selected := 1 } }

/-- A state with a device and an empty queue. -/
def at_ (d : Device) : State := { dev := d }

/-- A part in a start, at the beginning of a phase. -/
def inPhase (n : Nat) : Device :=
  { device with start := { phase := n }, battery := { cycles := 0xFFFFFFFF }, time := {} }

/-- A job of tenant 1 on core 0.0. -/
def jobOnCore (op : BitVec 16) (params input : Bytes) (outCap : Nat) : Job :=
  { id := 0, tenant := 1, stream := .host 1 0, ticket := 0, arrival := 0, deadline := now, recipe := op, dispatch := now,
    origin := .host 1 0 3 0 0 0, params := params, input := input, outCap := outCap, place := .core 0 0 }

/-- The device with a job on core 0.0. -/
def running (j : Job) : Device :=
  { device with
    gaffer := { device.gaffer with jobs := [j], nextJob := 1 },
    benches := [(0, { benchIn with cores := [(0, { state := .running, job := some 0 }), (1, { state := .idle })] })] }

/-- Core 0.0. -/
def core : CoreRef := { bench := 0, core := 0 }

/-! ### Well-formed commands, and an ill-formed term for each check -/

theorem test_wf_bench : (Instr.rollCallReport 7 {}).wf = true ∧ (Instr.rollCallReport 8 {}).wf = false ∧
    (Instr.periodicKatWithdrawal 8).wf = false ∧ (Instr.engineKatEnd 8 .marver 0 {}).wf = false ∧
    (Instr.benchRowConversionEnd 8).wf = false ∧ (Instr.reseedTimerExpiry 8).wf = false ∧ (Instr.digCacheFlush 8).wf = false ∧
    (Instr.mrvSelftestStart 8 1).wf = false ∧ (Instr.cipSelftestStart 8 1).wf = false ∧ (Instr.digSelftestStart 8 1).wf = false := by
  decide +kernel

theorem test_wf_core : (Instr.coreWorkRequest ⟨7, 15⟩).wf = true ∧ (Instr.coreWorkRequest ⟨8, 0⟩).wf = false ∧
    (Instr.coreWorkRequest ⟨0, 16⟩).wf = false ∧
    [Instr.checkVerdict ⟨8, 0⟩ false, .lockstepPartnerTimeout ⟨8, 0⟩, .stageOut ⟨8, 0⟩ .none, .coreSelftestEnd ⟨8, 0⟩ true,
     .requestDusk ⟨8, 0⟩, .lock ⟨8, 0⟩, .presentCard ⟨8, 0⟩ {}, .componentAdd ⟨8, 0⟩ {}, .generateSymmetricKey ⟨8, 0⟩,
     .pinVerifyOffset ⟨8, 0⟩, .arqcVerify ⟨8, 0⟩, .encryptData ⟨8, 0⟩, .rsaSign ⟨8, 0⟩, .mlKemDecapsulate ⟨8, 0⟩,
     .digest ⟨8, 0⟩, .random ⟨8, 0⟩, .writeFirmwareImage ⟨8, 0⟩, .attest ⟨8, 0⟩, .readEventLog ⟨8, 0⟩, .resetTenant ⟨8, 0⟩].all
      (fun i => !i.wf) = true := by
  decide +kernel

theorem test_wf_source : (Instr.detectorTrip 15 .detA).wf = true ∧ (Instr.detectorTrip 16 .detA).wf = false ∧
    [Instr.sourceClear 16, .tripFuseBurn 16, .analogPairMismatch 16 .detA, .alarmStretchEnd 16, .nightMeshCheck 16 true,
     .detectorQuiet 16 .detB, .tamperDisableBurn 16, .conditionedBlock 16, .sourceWakeTestEnd 16 true].all (fun i => !i.wf) = true := by
  decide +kernel

theorem test_wf_function : (Instr.functionEnable 255).wf = true ∧ (Instr.functionEnable 256).wf = false ∧
    [Instr.functionDisable 256, .quiesceSet 256, .quiesceClear 256, .functionLevelReset 256, .drainEnd 256, .mbxOutValidClear 256,
     .pringConsWrite 256 0, .acuRegionWrite 256 0 0 0, .acuRegionWrite 0 32 0 0, .acuRegionWrite 0 0 4 0, .vfEnableSet 256,
     .counterLowWordRead .pcie 256 0, .registerWrite (.function 256) 0 0, .registerWrite (.region (.bench 8)) 0 0,
     .sqTailDoorbell 0 16 0, .cqHeadDoorbell 256 0 0, .coalesceTimerExpiry 0 16, .intEnableSet 0 16, .queueEnableWrite 0 16 0,
     .hostReadFailure .input 0 16 0].all (fun i => !i.wf) = true := by
  decide +kernel

/-- 18 R619: an array of two; tag 98, an array of four: protected header, empty map, payload; in the payload keys 1, 2 and 3. -/
theorem test_subject_keys :
    (devicePayload ([0x82, 0xD8, 0x62, 0x84, 0x41, 0xA0, 0xA0, 0x4D] ++
      [0xA5, 0x01, 0x42, 0x0A, 0x0B, 0x02, 0x42, 0x11, 0x12, 0x03, 0x42, 0x21, 0x22] ++ [0x80])).bind subjectKeys =
      some ([0x11, 0x12], [0x21, 0x22]) ∧
    (devicePayload [0x83, 0xD8, 0x62, 0x84]) = none := by decide +kernel

/-- A factory calibration of the right shape. -/
def fac : FactoryCalibration := { gatherTrims := List.replicate 16 0x20 }

theorem test_wf_bytes : (Instr.descriptorFetch 0 0 (List.replicate 64 0) [] []).wf = true ∧
    (Instr.descriptorFetch 0 0 (List.replicate 63 0) [] []).wf = false ∧ (Instr.descriptorFetch 0 0 (List.replicate 32 0) [0] []).wf = false ∧
    (Instr.cancel 0 0 (List.replicate 33 0)).wf = false ∧ (Instr.mbxFunctionInfo 0 (List.replicate 8 0)).wf = true ∧
    (Instr.mbxFunctionInfo 0 (List.replicate 7 0)).wf = false ∧ (Instr.mbxRelayToManager 1 (List.replicate 257 0)).wf = false ∧
    (Instr.mbxRelayToVf []).wf = false ∧ (Instr.mbxOtherTypeIgnored 0 []).wf = false ∧
    (Instr.voltageSample (List.replicate 14 850)).wf = true ∧ (Instr.voltageSample [850]).wf = false ∧
    (Instr.temperatureSample (List.replicate 14 50) [50]).wf = false ∧ (Instr.keaborFactoryProgramming 640 [0] fac).wf = false ∧
    (Instr.keaborFactoryProgramming 641 (List.replicate 32 0) fac).wf = false ∧
    (Instr.keaborFactoryProgramming 640 (List.replicate 32 0) fac).wf = true ∧
    (Instr.keaborFactoryProgramming 640 (List.replicate 32 0) {}).wf = false := by
  decide +kernel

theorem test_wf_window : (Instr.gatherWindowEnd 0 (List.replicate 1024 true)).wf = true ∧
    (Instr.gatherWindowEnd 0 (List.replicate 1023 true)).wf = false ∧ (Instr.gatherWindowEnd 16 (List.replicate 1024 true)).wf = false := by
  decide +kernel

theorem test_wf_numbers : (Instr.arbiterRequest core 5 1).wf = true ∧ (Instr.arbiterRequest core 6 1).wf = false ∧
    (Instr.grantRelease core 6 0 0).wf = false ∧ (Instr.overHoldCutoff core 6 0 0).wf = false ∧
    (Instr.marverOperationEnd core 8 0 {}).wf = false ∧ (Instr.engineBlockCompare core .cipher 4 {}).wf = false ∧
    (Instr.engineBlockCompare core .punty 2 {}).wf = false ∧ (Instr.keyLookup core 2 0).wf = false ∧ (Instr.tagVerdict core 2).wf = false ∧
    (Instr.sweepStep 4).wf = false ∧ (Instr.tapOpen 3).wf = true ∧ (Instr.tapOpen 4).wf = false ∧
    (Instr.handshakeMessageTimeout 65536).wf = false ∧ (Instr.rekeyWindowEnd 65536).wf = false ∧ (Instr.rekeyDueTimer 65536).wf = false ∧
    (Instr.sessionIdleTimeout 65535).wf = true ∧ (Instr.sessionIdleTimeout 65536).wf = false ∧
    (Instr.handshakeTimeout (.bench 8) .host 0).wf = false ∧ (Instr.lateAcknowledge .host (.bench 8)).wf = false ∧
    (Instr.heartbeatAcknowledge (.bench 8)).wf = false ∧ (Instr.tickLossDetected (.bench 8)).wf = false := by
  decide +kernel

/-- The table gives no bit fields: no word spells a command. -/
theorem test_no_word_decodes : decodeTableWord 16 0 = none ∧ (State.reset.withFetchWord 16 0) = State.reset := by
  decide +kernel

/-! ### Witnesses -/

theorem witness_ReleaseOfResetBeginsAStart : outOfReset State.reset.dev = false := by decide +kernel

theorem witness_CustodyPhaseCountsThePowerCycle :
    (starting (inPhase 0) = true ∧ (inPhase 0).start.phase = 0 ∧ startPaused (inPhase 0) = false ∧ (inPhase 0).battery.cycles = BitVec.allOnes 32) ∧
    (let d := { inPhase 0 with battery := {} }; starting d = true ∧ d.start.phase = 0 ∧ startPaused d = false) := by
  decide +kernel

theorem witness_ReservedStrapStopsStart :
    ∀ n ∈ [0x600, 0x180], let d := { inPhase 0 with pins := { (inPhase 0).pins with strapSampled := BitVec.ofNat 12 n } }
      starting d = true ∧ d.start.phase = 0 ∧ startPaused d = false ∧
      (d.pins.strapSampled.extractLsb' 9 2 = 3 ∨ d.pins.strapSampled.extractLsb' 7 2 = 3) := by
  decide +kernel

theorem witness_StartEventsTakeEffect :
    (outOfReset device = true ∧ (1 : BitVec 12) ≠ device.pins.strapSampled) ∧
    (let d := { device with pins := { device.pins with perstN := false } }; d.pins.perstN = false ∧ outOfReset d = true) ∧
    (let d := { device with pins := { device.pins with pfAnswer := .retry } }
     outOfReset d = true ∧ started d = true ∧ d.pins.perstN = true ∧ d.pins.pfAnswer = .retry) ∧
    (let d := { inPhase 1 with time := { ticks := 100 * msTicks } }
     starting d = true ∧ d.start.phase = 1 ∧ d.start.phaseSince + 100 * msTicks ≤ d.time.ticks) ∧
    (let d := { inPhase 2 with time := { ticks := 10 * msTicks + 1 } }
     starting d = true ∧ 1 ≤ d.start.phase ∧ d.start.phase ≠ 6 ∧ d.start.phase ≠ 9 ∧ d.start.excursion = false ∧ d.start.breached = false ∧
     d.start.phaseSince + msTicks * phaseBoundMs d.fuses.part (strapBits d 9 2) d.start.phase < d.time.ticks) ∧
    (let d := { inPhase 6 with benches := [(1, {})] }
     starting d = true ∧ d.start.phase = 6 ∧ (tabGet 1 d.benches).isSome = true ∧ (benchOf 1 d).fenced = false ∧
     d.start.reported.contains 1 = false ∧ ({} : RollCall).digestOk = true ∧
     (List.range 16).all (coreFails (izvi d) ({} : RollCall).failedCores) = false) := by
  decide +kernel

theorem witness_WatchTickAdvancesTheWatch : outOfReset device = true := by decide +kernel

/-- The device at the edge that ends a second of crystal time, so many ticks after the one before. -/
def counted (n : Nat) : Device := { device with time := { device.time with secondAt := now - n, edges := 32768 } }

theorem witness_CalibrationFollowsTheCrystal :
    (∀ n ∈ [31680000, 32320000], outOfReset (counted n) = true ∧ (counted n).tamper.armed = true ∧ (counted n).time.secondEdge + 32768 ≤ (counted n).time.edges ∧
      31680000 ≤ secondCount (counted n) ∧
      secondCount (counted n) ≤ 32320000) ∧
    (∀ n ∈ [31040000, 31679999, 32320001, 32960000], outOfReset (counted n) = true ∧ (counted n).tamper.armed = true ∧ (counted n).time.secondEdge + 32768 ≤ (counted n).time.edges ∧
      (31040000 ≤ secondCount (counted n) ∧ secondCount (counted n) < 31680000 ∨
        32320000 < secondCount (counted n) ∧ secondCount (counted n) ≤ 32960000)) ∧
    (∀ n ∈ [0, 31039999, 32960001], outOfReset (counted n) = true ∧ (counted n).tamper.armed = true ∧
      (counted n).time.secondEdge + 32768 ≤ (counted n).time.edges ∧ srcEnabled 12 (counted n) = true ∧
      (secondCount (counted n) < 31040000 ∨ 32960000 < secondCount (counted n))) ∧
    (outOfReset device = true ∧ device.tamper.armed = true ∧ xtalOk device = false ∧ device.time.edgeLost = false ∧ srcEnabled 12 device = true) := by
  decide +kernel

/-- Supplies and temperatures of a part with one bench, all within range. -/
def supplies : List Nat := List.replicate 14 850
def temperatures : List Int := List.replicate 14 60

theorem witness_SamplesAreKeptAndTrip :
    (let d := { device with tamper := { device.tamper with volts := 981 :: supplies.tail } }
     outOfReset d = true ∧ d.time.ticks % 64 = 0 ∧ d.tamper.voltsAt ≠ some d.time.ticks ∧ tabGet 0 d.benches = some benchIn ∧
     d.tamper.armed = true ∧ srcEnabled 6 d = true ∧ watched d 0 = true ∧ d.tamper.volts[0]? = some 981 ∧
     (669 :: supplies.tail)[0]? = some 669 ∧ supplyOut 981 = true ∧ supplyOut 669 = true) ∧
    (let d := { device with tamper := { device.tamper with diode := 113 :: temperatures.tail } }
     outOfReset d = true ∧ d.time.ticks % 32000 = 0 ∧ d.tamper.diodeAt ≠ some d.time.ticks ∧ d.tamper.armed = true ∧
     srcEnabled 9 d = true ∧ watched d 0 = true ∧ d.tamper.diode[0]? = some 113 ∧ ((-28) :: temperatures.tail)[0]? = some (-28) ∧
     hotOrCold 113 = true ∧ hotOrCold (-28) = true) := by
  decide +kernel

theorem witness_SilentRegionsAreFenced :
    (∀ far ∈ [Region.bench 0, .path true, .host, .nvm, .keyStore],
      outOfReset device = true ∧ Region.path false ≠ far ∧ regionAlive device (.path false) = true ∧ regionThere device far = true ∧
      waited (.path false) far (now - 1600) device = true ∧ regionHalted device far = false ∧ device.tamper.armed = true ∧
      srcEnabled 14 device = true) ∧
    (let d := { device with custody := { device.custody with heartbeats := [(.bench 0, now - 1599)] } }
     outOfReset d = true ∧ regionThere d (.bench 0) = true ∧
     (∃ p ∈ d.custody.heartbeats, p.1 = .bench 0 ∧ d.time.ticks < p.2 + 1600)) ∧
    (let d := { device with benches := [(0, { benchIn with halted := true })] }
     Region.bench 0 ≠ .keyStore ∧ regionHalted d (.bench 0) = true ∧ srcEnabled 12 d = true) ∧
    (outOfReset device = true ∧ regionExists device (.bench 0) = true ∧ regionHalted device (.bench 0) = false ∧
     Region.bench 0 ≠ .custody ∧ device.tamper.armed = true ∧ srcEnabled 12 device = true) := by
  decide +kernel

/-! Network paths and HTL. -/

/-- A frame's link findings at path A of the small device. -/
def link : LinkInfo := { destMac := 1, destIp := 7 }

/-- An established session of tenant 1, whose highest admitted number is 2000, and 1999 seen. -/
def sessionIn : Session := { state := .established, tenant := 1, keys := List.replicate 120 1, egressNext := 2, high := 2000, seen := [1999] }

/-- The device with a session at index 0. -/
def withSession (x : Session) : Device := { device with net := { device.net with sessions := [(0, x)] } }

/-- A frame of a type and number, its plaintext encrypted and its tag formed under a key. -/
def frameUnder (key : Bytes) (type : Byte) (seq : BitVec 64) (plain : Bytes) : Frame :=
  let h : HtlHeader := { type := type, seq := seq }
  let payload := gcmXor (key.take 32) (nonceOf key seq.toNat) plain
  { link := link, header := h, payload := payload, tag := gcmTagOf (key.take 32) (nonceOf key seq.toNat) (headerBytes h) payload }

/-- The key of frames to the part that the session's masked keys stand for, and a frame under it. -/
def inKey : Bytes := field (clearKeys device 0 sessionIn) 48 36
def traffic (type : Byte) (seq : BitVec 64) (plain : Bytes) : Frame := frameUnder inKey type seq plain

theorem frameUnder_ok (key : Bytes) (type : Byte) (seq : BitVec 64) (plain : Bytes) : frameOk key (frameUnder key type seq plain) = true := by
  simp [frameOk, frameUnder, gcmTagOf_length, fit_of_length]

theorem frameUnder_plain (key : Bytes) (type : Byte) (seq : BitVec 64) (plain : Bytes) :
    framePlain key (frameUnder key type seq plain) = plain := gcmXor_twice _ _ _

/-- The link rules ask nothing of the payload of a frame without a checksum. -/
theorem link_passes (f : Frame) (d : Device) (h : f.link = link) (ha : (pathOf false d).addr = pathIn.addr) (hp : d.net.htlPort = 47011) :
    linkOk false f d = true := by
  simp [linkOk, checksumOk, ownAddress, vlanOk, h, ha, hp, link, pathIn]

theorem traffic_heard (type : Byte) (seq : BitVec 64) (plain : Bytes) : htlHears type false (traffic type seq plain) (withSession sessionIn) :=
  ⟨by decide +kernel, by decide +kernel, link_passes _ _ rfl rfl rfl, by decide +kernel, rfl, rfl, rfl⟩

theorem named_zero (f : Frame) (h : f.header.session = 0) (x : Session) (d : Device) (hx : sessionOf 0 d = x) (hl : x.state ≠ .free)
    (hg : x.gen = 0) : namedSession f d = some x := by
  have e : sessionIndex f = 0 := by rw [sessionIndex, h]; rfl
  have g : sessionGen f = 0 := by rw [sessionGen, h]; rfl
  unfold namedSession
  rw [e, g, hx]
  exact if_pos ⟨hl, hg⟩

theorem traffic_named (type : Byte) (seq : BitVec 64) (plain : Bytes) :
    namedSession (traffic type seq plain) (withSession sessionIn) = some sessionIn :=
  named_zero _ rfl _ _ rfl (by decide) rfl

/-- A frame above the highest number, or in the window at its end and unseen, is admitted. -/
theorem traffic_admitted (type : Byte) (seq : BitVec 64) (plain : Bytes) (h : admits sessionIn seq.toNat = true) :
    htlAdmits type false (traffic type seq plain) sessionIn inKey (withSession sessionIn) :=
  ⟨⟨traffic_heard type seq plain, traffic_named type seq plain, rfl, frameUnder_ok _ _ _ _, by show (0 : Nat) < 1024; decide, rfl⟩,
    by decide, h⟩

theorem witness_PathsAnswerAndTimersRun :
    (pathHears false device = true ∧ (pathOf false device).offline = false ∧ vlanOk (pathOf false device) link = true ∧
      ownAddress (pathOf false device) false link.destIp = true ∧ link.fragmentOrOptions = false ∧
      ownAddress (pathOf false device) true 9 = true ∧ ownAddress (pathOf false device) false 8 = false) ∧
    (let d := withSession { state := .handshake, acceptAt := now - 2 * secTicks }
     (sessionOf 0 d).state = .handshake ∧ (sessionOf 0 d).acceptAt + 2 * secTicks ≤ d.time.ticks ∧ tableTakes d) ∧
    (let d := withSession { sessionIn with state := .rekeying, rekeyAt := some (now - 2 * secTicks), prevKeys := some [2] }
     (sessionOf 0 d).rekeyAt = some (now - 2 * secTicks) ∧ now - 2 * secTicks + 2 * secTicks ≤ d.time.ticks ∧
     (sessionOf 0 d).prevKeys ≠ none ∧ tableTakes d) ∧
    (let d := withSession { sessionIn with epochStart := now - 3600 * secTicks, lastFrame := now - 600 * secTicks }
     ((sessionOf 0 d).state = .established ∨ (sessionOf 0 d).state = .rekeying) ∧
     (sessionOf 0 d).epochStart + d.net.rekeyS * secTicks ≤ d.time.ticks ∧ (sessionOf 0 d).state ≠ .free ∧
     (sessionOf 0 d).state ≠ .handshake ∧ (sessionOf 0 d).lastFrame + d.net.idleS * secTicks ≤ d.time.ticks ∧ tableTakes d) ∧
    (∀ isB ∈ [false, true], outOfReset device = true ∧ pathAlive (pathOf isB device) = true ∧ (pathOf isB device).linkUp = true) ∧
    (started device = true ∧ pathAlive (pathOf true device) = true ∧ (pathOf true device).offline = false ∧ authorityB device.net ≠ true ∧
      device.net.handover = none) ∧
    (started device = true ∧ pathAlive (pathOf false device) = true ∧ handoverAllowed false device = true) ∧
    (let d := { device with net := { device.net with handover := some { fromB := false } } }
     d.net.handover = some { fromB := false } ∧ d.net.heldHellos = [] ∧ started d = true ∧ pathAlive (pathOf true d) = true ∧
       (pathOf true d).offline = false ∧ authorityB d.net = false) := by
  unfold tableTakes
  decide +kernel

/-- The base point of P-256, x and y: a point that every check passes. -/
def pointG : Bytes := beBytes 32 (curveGx 0x01) ++ beBytes 32 (curveGy 0x01)
/-- A HELLO of tenant 1, with the profile `profile`, that point, and an encapsulation key of zeros. -/
def helloFrame (profile : Byte) : Frame :=
  { link := link, header := { type := 0x01 }, payload := [1, profile] ++ List.replicate 42 0 ++ [4] ++ pointG ++ List.replicate 1184 0 }

/-- The device with a client of tenant 1 whose fingerprint is all zeros. -/
def helloDevice : Device :=
  { device with gaffer := { device.gaffer with
      tenants := [(0, tenantIn), (1, { tenantIn with clients := [(0, { fingerprint := List.replicate 8 0, ecKey := [], mlKey := [] })] })] } }

theorem hello_point : pointOk 0x01 ((helloPoint (helloFrame 1).payload).drop 1) = true := by decide +kernel
theorem hello_key : mlKemDecodes 3 (helloKey (helloFrame 1).payload) = true := by
  unfold helloKey
  rw [field_within _ _ _ (by decide +kernel)]
  decide +kernel
theorem witness_HandshakeOpensASession_hello :
    htlHears 0x01 false (helloFrame 1) helloDevice ∧ (helloFrame 1).header.seg = 0 ∧ 1293 ≤ (helloFrame 1).payload.length ∧ Machine.preparing helloDevice = false ∧
    helloSeen (helloNonce (helloFrame 1).payload) helloDevice = false ∧ helloDevice.net.handover = none ∧
    helloRefusal (helloFrame 1).payload helloDevice = none ∧
    freeIndex helloDevice = some (Config.sessionChoice 0 % 65536) ∧
    tableTakes helloDevice := by
  have hf : freeIndex helloDevice = some (Config.sessionChoice 0 % 65536) := rfl
  have hc : (clientOf (helloTenant (helloFrame 1).payload) (helloClient (helloFrame 1).payload) helloDevice).isNone = false := by decide +kernel
  have ht : ¬ (tenantOf (helloTenant (helloFrame 1).payload) helloDevice).sessionLimit ≤
      tenantSessions (helloTenant (helloFrame 1).payload) helloDevice.net := by decide +kernel
  have h1 : byteAt (helloFrame 1).payload 1 = 0x01 := by decide +kernel
  have h4 : byteAt (helloFrame 1).payload 44 = 0x04 := by decide +kernel
  refine ⟨⟨by decide +kernel, by decide +kernel, by decide +kernel, by decide +kernel, rfl, rfl, rfl⟩, rfl, by decide +kernel, by decide +kernel,
    by decide +kernel, rfl, ?_, hf, by unfold tableTakes; decide +kernel⟩
  unfold helloRefusal
  rw [if_neg (not_not_intro h1), if_neg ht, hf, if_neg (by simp), hello_point, hello_key, hc, h4]
  rfl

theorem witness_HandshakeOpensASession_refused :
    htlHears 0x01 false (helloFrame 2) helloDevice ∧ (helloFrame 2).header.seg = 0 ∧ 1293 ≤ (helloFrame 2).payload.length ∧
    Machine.preparing helloDevice = false ∧ helloSeen (helloNonce (helloFrame 2).payload) helloDevice = false ∧
    helloDevice.net.handover = none ∧ helloRefusal (helloFrame 2).payload helloDevice = some 0x04 :=
  ⟨⟨by decide +kernel, by decide +kernel, by decide +kernel, by decide +kernel, rfl, rfl, rfl⟩, rfl, by decide +kernel, by decide +kernel,
    by decide +kernel, rfl, by decide +kernel⟩
/-- The same HELLO once more, after path B had brought and been refused it. -/
theorem witness_HandshakeOpensASession_twin :
    let seen : HelloSeen := { nonce := helloNonce (helloFrame 2).payload, tick := now, onB := true, refused := some 0x04 }
    let d := { helloDevice with net := { helloDevice.net with nonces := [seen] } }
    pathHears false d = true ∧ seenNonce (helloNonce (helloFrame 2).payload) d = some seen ∧ seen.onA = false ∧ seen.refused = some 0x04 := by
  decide +kernel

/-- A session in Handshake, and the one segment of a FINISH under its key. -/
def handshakeIn : Session := { state := .handshake, tenant := 1, prk := [1], th1 := [2], acceptAt := now }
def finishFrame : Frame := frameUnder (handshakeKey [1] [2]) 0x03 0 [5]
def finishDevice : Device := { withSession handshakeIn with gaffer := helloDevice.gaffer }

/-- Whether the FINISH verifies rests on the client's signatures: both cases of the statement are premised in turn. -/
theorem witness_HandshakeOpensASession_finish :
    htlHears 0x03 false finishFrame finishDevice ∧ namedSession finishFrame finishDevice = some handshakeIn ∧ handshakeIn.state = .handshake ∧
    frameOk (handshakeKey handshakeIn.prk handshakeIn.th1) finishFrame = true ∧
    finishFrame.header.seq.toNat = finishFrame.header.seg.toNat / 16 ∧ finishDevice.time.ticks < handshakeIn.acceptAt + 2 * secTicks ∧
    (∀ y : Session, y.segments = tabSet 0 (framePlain (handshakeKey [1] [2]) finishFrame) [] →
      wholeMessage (finishFrame.header.seg.toNat % 16) y.segments = some [5] ∧ finishVerifies y [5] finishDevice = false) ∧
    tableTakes finishDevice := by
  refine ⟨⟨by decide +kernel, by decide +kernel, link_passes _ _ rfl rfl rfl, by decide +kernel, rfl, rfl, rfl⟩, ?_, rfl, frameUnder_ok _ _ _ _,
    rfl, by decide +kernel, ?_, by unfold tableTakes; decide +kernel⟩
  · exact named_zero _ rfl _ _ rfl (by decide) rfl
  · intro y hy
    rw [finishFrame, frameUnder_plain] at hy
    refine ⟨by rw [hy]; rfl, ?_⟩
    unfold finishVerifies
    split <;> simp

/-- A FINISH that verifies: the length of the message and the client's two signatures are premises. -/
theorem witness_HandshakeOpensASession_verified (c : Client) (y : Session) (m : Bytes) (client : clientOf y.tenant y.clientFp helloDevice = some c)
    (len : m.length = 3373) (ec : ecdsaVerify 0x01 c.ecKey (sha256 (handshakeHash2 y)) (m.take 64) = true)
    (ml : mlDsaVerify {} 65 c.mlKey 0x01 (ascii "HTL1".toList) (handshakeHash2 y) (m.drop 64) = true) :
    finishVerifies y m helloDevice = true := by
  unfold finishVerifies
  rw [client]
  show (decide (m.length = 3373) && _ && _) = true
  rw [ec, ml, decide_eq_true len]
  rfl

theorem witness_TrafficFramesTakeEffect (type : Byte) (plain : Bytes) :
    htlAdmits type false (traffic type 2001 plain) sessionIn inKey (withSession sessionIn) ∧
    htlAdmits type false (traffic type 976 plain) sessionIn inKey (withSession sessionIn) ∧
    Machine.preparing (withSession sessionIn) = false ∧ noToken sessionIn.tenant (withSession sessionIn) = false ∧
    listFull sessionIn.tenant (withSession sessionIn) = false ∧
    (htlSession false (traffic type 2001 plain) sessionIn (withSession sessionIn)).state = .established ∧
    (htlSession false (traffic type 2001 plain) sessionIn (withSession sessionIn)).rekeyOpen = none ∧
    (htlSession false (traffic type 2001 plain) sessionIn (withSession sessionIn)).prevKeys = none ∧
    tableTakes (withSession sessionIn) := by
  refine ⟨traffic_admitted type 2001 plain (by decide +kernel), traffic_admitted type 976 plain (by decide +kernel), by decide +kernel, by decide +kernel,
    by decide +kernel, ?_, ?_, ?_, by unfold tableTakes; decide +kernel⟩ <;> rfl

/-- The device that is asked to refuse a request: for Night, for want of a token, at the cap of the tenant's ready jobs. -/
def refusing (power : Power) (t : Tenant) : Device := { withSession sessionIn with power := power, gaffer := { device.gaffer with tenants := [(1, t)] } }
theorem refusing_admits (power : Power) (t : Tenant) : htlAdmits 0x10 false (traffic 0x10 2001 []) sessionIn inKey (refusing power t) :=
  ⟨⟨⟨rfl, rfl, link_passes _ _ rfl rfl rfl, rfl, rfl, rfl, rfl⟩, named_zero _ rfl _ _ rfl (by decide) rfl, rfl, frameUnder_ok _ _ _ _,
    by show (0 : Nat) < 1024; decide, rfl⟩, by decide, by decide +kernel⟩
theorem witness_TrafficFramesTakeEffect_refused :
    Machine.preparing (refusing { mode := .preparingNight } tenantIn) = true ∧
    (Machine.preparing (refusing {} { tenantIn with rate := 1, bucket := 99999 }) = false ∧
      noToken sessionIn.tenant (refusing {} { tenantIn with rate := 1, bucket := 99999 }) = true) ∧
    (Machine.preparing (refusing {} { tenantIn with readyCap := 0 }) = false ∧ noToken sessionIn.tenant (refusing {} { tenantIn with readyCap := 0 }) = false ∧
      listFull sessionIn.tenant (refusing {} { tenantIn with readyCap := 0 }) = true) := by
  decide +kernel

/-- A REKEY with the base point and an encapsulation key of zeros. -/
def rekeyPlain : Bytes := [4] ++ pointG ++ List.replicate 1184 0
theorem witness_TrafficFramesTakeEffect_rekey :
    let m := framePlain inKey (traffic 0x14 2001 rekeyPlain)
    htlAdmits 0x14 false (traffic 0x14 2001 rekeyPlain) sessionIn inKey (withSession sessionIn) ∧ (withSession sessionIn).gather.service = true ∧ m.length = 1249 ∧ byteAt m 0 = 0x04 ∧
    pointOk 0x01 ((field m 0 65).drop 1) = true ∧ mlKemDecodes 3 (field m 65 1184) = true := by
  intro m
  have hm : m = rekeyPlain := frameUnder_plain _ _ _ _
  rw [hm]
  exact ⟨traffic_admitted 0x14 2001 rekeyPlain (by decide +kernel), rfl, by decide +kernel, by decide +kernel, by decide +kernel, by
    rw [field_within _ _ _ (by decide +kernel)]
    decide +kernel⟩

/-- The highest number again is a twin; 975, below the window, is stale. -/
theorem witness_ANumberIsAdmittedOnce :
    (admits sessionIn 976 = true ∧ admits sessionIn 975 = false ∧ admits sessionIn 1999 = false ∧ admits sessionIn 2000 = false ∧
      admits sessionIn 2001 = true ∧ repeated sessionIn 1999 = true ∧ 1999 ≤ sessionIn.high) ∧
    (∀ seq ∈ [(2000 : BitVec 64), 1999, 975], htlAuthentic 0x10 false (traffic 0x10 seq []) sessionIn inKey (withSession sessionIn)) ∧
    (repeated sessionIn 2000 = true ∧ repeated sessionIn 975 = false) ∧
    (let x := { sessionIn with state := .closing }
     htlAuthentic 0x10 false (traffic 0x10 2001 []) x inKey (withSession x) ∧ admits x 2001 = true ∧ x.state = .closing) :=
  ⟨by decide +kernel, fun seq _ => ⟨traffic_heard 0x10 seq [], traffic_named 0x10 seq [], rfl, frameUnder_ok _ _ _ _,
    by show (0 : Nat) < 1024; decide, rfl⟩, by decide +kernel,
    ⟨⟨rfl, rfl, link_passes _ _ rfl rfl rfl, rfl, rfl, rfl, rfl⟩, named_zero _ rfl _ _ rfl (by decide) rfl, rfl, frameUnder_ok _ _ _ _,
      by show (0 : Nat) < 1024; decide, rfl⟩, by decide +kernel, rfl⟩

/-! The host interface. -/

/-- The device with queue 0 of the physical function in a given state. -/
def withQueue (q : Queue) : Device := { device with host := { device.host with fns := [(0, { fnIn with queues := [(0, q)] }), (1, fnIn)] } }
/-- The device with virtual function 1 in a given state. -/
def withFn (x : Fn) : Device := { device with host := { device.host with fns := [(0, fnIn), (1, x)] } }

theorem witness_QueuesRingAndSignal :
    (fnUp 0 device = true ∧ takesDoorbells (fnOf 0 device) = true ∧ (queueOf 0 0 device).enable = true ∧ (queueOf 0 0 device).error = false ∧
      (15 : BitVec 12).toNat < 2 ^ (queueOf 0 0 device).log2Depth ∧ 2 ^ (queueOf 0 0 device).log2Depth ≤ (16 : BitVec 12).toNat) ∧
    (fnUp 1 (withFn {}) = true ∧ takesDoorbells (fnOf 1 (withFn {})) = false ∧ (queueOf 0 1 device).enable = false) ∧
    (∀ on ∈ [true, false], let d := withQueue { enable := true, coalesceUs := 1, firstUnsignalled := some (now - 32), intEnable := on }
      coalesceDue 0 0 d = true ∧ (queueOf 0 0 d).intEnable = on ∧ msixMasked 0 0 d = false) ∧
    (∀ held ∈ [true, false], let d := withQueue { enable := true, heldFiring := held }
      (queueOf 0 0 d).stopping = false ∧ (queueOf 0 0 d).heldFiring = held ∧ msixMasked 0 0 d = false) ∧
    (∀ n ∈ [0x84000000, 0x8C000000], let v : Word := BitVec.ofNat 32 n
      (queueOf 0 0 (withQueue {})).stopping = false ∧ (queueOf 0 0 (withQueue {})).enable = false ∧
      v.getLsbD 31 = true ∧ v.getLsbD 0 = false ∧ 4 ≤ (v.extractLsb' 24 4).toNat ∧ (v.extractLsb' 24 4).toNat ≤ 12) ∧
    (∀ n ∈ [0x83000000, 0x8D000000], let v : Word := BitVec.ofNat 32 n
      v.getLsbD 31 = true ∧ v.getLsbD 0 = false ∧
      ((v.extractLsb' 24 4).toNat < 4 ∨ 12 < (v.extractLsb' 24 4).toNat)) ∧
    ((queueOf 0 0 device).stopping = false ∧ (queueOf 0 0 device).enable = true ∧ (0 : Word).getLsbD 31 = false ∧
      (0 : Word).getLsbD 0 = false ∧ (queueOf 0 0 device).outstanding = []) := by
  decide +kernel

/-- A descriptor of a native opcode with identifier 3 and no buffer list. -/
def descriptor (op : Nat) : Bytes := leBytes 2 op ++ leBytes 2 3 ++ List.replicate 60 0
/-- A queue whose submission queue holds one entry. -/
def rung : Queue := { enable := true, log2Depth := 4, sqTail := 1, doorbells := [(1, now)] }
/-- The same queue with one command outstanding, of identifier 9 and job 0. -/
def busy : Queue := { rung with outstanding := [{ cid := 9, job := 0 }] }
/-- The descriptor of a cancel of command 9 on queue 0. -/
def cancelDesc : Bytes := leBytes 2 0x0A01 ++ leBytes 2 3 ++ List.replicate 12 0 ++ leBytes 2 9 ++ List.replicate 46 0
/-- A job of the physical function that waits on the ready list. -/
def waitingJob : Job :=
  { id := 0, tenant := 0, stream := .host 0 0, ticket := 0, arrival := 0, deadline := now + 1, recipe := 0x0801, origin := .host 0 0 9 0 0 0 }

theorem witness_CommandsAreFetchedAndCancelled :
    (let d := withQueue rung
     fetchable 0 0 d = true ∧ nextFetch d = some (0, 0) ∧ (descriptor 0x0801).length = descriptorSize d ∧ isCancel (izvi d) (descriptor 0x0801) = false ∧
      fetchedNow 0 (requestOf (izvi d) (descriptor 0x0801) [] []).1 d = true ∧ fetchHeld d = false ∧
      acuAllows 0 ((queueOf 0 0 d).sqBase.toNat + descriptorSize d * (queueOf 0 0 d).sqHead) false d.host = true ∧
      fetchCheck 0 0 (descriptor 0x0801) [] d = 0 ∧ (requestOf (izvi d) (descriptor 0x0801) [] []).2 = 0 ∧
      (∀ o ∈ (queueOf 0 0 d).outstanding, o.cid ≠ 3)) ∧
    (let d := withQueue { rung with outstanding := [{ cid := 3, job := 0 }] }
     fetchable 0 0 d = true ∧ nextFetch d = some (0, 0) ∧ nextFetch d ≠ some (1, 0) ∧ fetchCheck 0 0 (descriptor 0x0801) [] d ≠ 0) ∧
    (∀ x ∈ [(0, 8), (0, 0), (1, 3)], let d := withQueue rung
     let d : Device := { d with host := { d.host with turn := x.1, turnLeft := x.2 } }
     fetchable 0 0 d = true ∧ nextFetch d = some (0, 0) ∧ d.host.turn = x.1 ∧ d.host.turnLeft = x.2) ∧
    (let d := { withQueue rung with gaffer := { device.gaffer with jobs := [{ waitingJob with place := .core 0 0 }] } }
     fetchable 0 0 d = true ∧ nextFetch d = some (0, 0) ∧ d.gaffer.jobs.find? (inDecode 0 0 9) = some { waitingJob with place := .core 0 0 }) ∧
    (let d := { withQueue busy with gaffer := { device.gaffer with jobs := [waitingJob] } }
     fetchable 0 0 d = true ∧ nextFetch d = some (0, 0) ∧ cancelDesc.length = descriptorSize d ∧ isCancel (izvi d) cancelDesc = true ∧ fetchHeld d = false ∧
      acuAllows 0 ((queueOf 0 0 d).sqBase.toNat + descriptorSize d * (queueOf 0 0 d).sqHead) false d.host = true ∧
      (∀ o ∈ (queueOf 0 0 d).outstanding, o.cid ≠ cidOf cancelDesc) ∧ (cancelFields (izvi d) cancelDesc).2.2 = true ∧
      (queueOf 0 (cancelFields (izvi d) cancelDesc).2.1 d).outstanding.find? (fun o => o.cid == (cancelFields (izvi d) cancelDesc).1) =
        some { cid := 9, job := 0 } ∧
      jobOf 0 d = some waitingJob ∧ waitingJob.place = .ready ∧ waitingJob.stream = .host 0 0) := by
  decide +kernel

theorem witness_MailboxMessagesAreAnswered :
    (fnUp 1 device = true ∧ num (message 0x01 [] 0 []) 0 1 = 0x01 ∧ (fnOf 1 device).outValid = false ∧ msixMasked 1 16 device = false) ∧
    (num (message 0x02 [] 0 []) 0 1 = 0x02 ∧ (1 : Nat) ≠ 0 ∧ (tabGet 0 device.host.fns).isSome = true ∧ (fnOf 0 device).outValid = false ∧
      msixMasked 0 16 device = false) ∧
    (let m := message 0x03 [] 1 []
     fnUp 0 device = true ∧ num m 0 1 = 0x03 ∧ num m 6 2 ≠ 0 ∧ fnExists (num m 6 2) device.host = true ∧
      (fnOf (num m 6 2) device).mode = .enabled ∧ (fnOf (num m 6 2) device).outValid = false ∧ msixMasked (num m 6 2) 16 device = false) ∧
    (otherType 1 (num (message 0x03 [] 0 []) 0 1) = true ∧ otherType 0 (num (message 0x02 [] 0 []) 0 1) = true) ∧
    (∀ h ∈ [([] : List Bytes), [[1]]], let d := withFn { fnIn with outValid := true, mbxHeld := h }
      fnUp 1 d = true ∧ (fnOf 1 d).outValid = true ∧ (fnOf 1 d).mbxHeld = h) := by
  decide +kernel

theorem witness_FunctionsComeAndGo :
    (fnUp 1 (withFn {}) = true ∧ (fnOf 1 (withFn {})).mode = .disabled ∧ (fnOf 1 (withFn {})).quiesce = false) ∧
    (∀ m ∈ [FnMode.enabled, .quiescing, .quiesced, .draining], fnUp 1 (withFn { fnIn with mode := m }) = true ∧
      (fnOf 1 (withFn { fnIn with mode := m })).mode = m) ∧
    (1 : Nat) ≠ 0 ∧
    (∀ h ∈ [true, false], let d := withFn { mode := .draining, enableHeld := h }
      fnUp 1 d = true ∧ (fnOf 1 d).mode = .draining ∧ drained 1 d = true ∧ (fnOf 1 d).enableHeld = h ∧ (fnOf 1 d).quiesce = false) ∧
    (let d := { device with host := { device.host with numVfs := 0 } }
     fnUp 0 d = true ∧ d.host.numVfs = 0 ∧ 1 ≤ totalVfs d ∧ totalVfs d ≤ totalVfs d) := by
  decide +kernel

theorem witness_AccessControlIsWritten : fnUp 0 device = true ∧ fnUp 1 device = true := by decide +kernel

theorem witness_AccessNeedsEveryRegion : ¬ ((1 : Nat) = 0 ∧ device.host.pfDefault = true) ∧
    ¬ ((0 : Nat) = 0 ∧ { device.host with pfDefault := false }.pfDefault = true) := by decide +kernel

/-! Gaffer, Lehr, the grid and the shares. -/

/-- A job of tenant 1 that hashes. -/
def hashJob : Job := jobOnCore 0x0801 (List.replicate 48 0) [] 64

theorem witness_CoresAskAndJobsAreDispatched :
    (benchRuns 0 device = true ∧ (coreOf (lead core device) device).state = .idle ∧ readyJobs device = []) ∧
    (let d := { device with gaffer := { device.gaffer with jobs := [waitingJob], nextJob := 1 } }
     benchRuns 0 d = true ∧ (coreOf (lead core d) d).state = .idle ∧ dispatching d = true ∧ d.gaffer.requests = [] ∧
      (∀ k ∈ readyJobs d, expired d k = false) ∧ chooseJob (lead core d) d = some waitingJob ∧ jobOf waitingJob.id d = some waitingJob) := by
  decide +kernel

/-- The pair of a KY-1280 strapped for Izvi has the lower core in front. -/
def izviRunning (j : Job) : Device := { running j with pins := { device.pins with strapSampled := 0x800 } }

theorem witness_VerdictsAndStageOut :
    (∀ n ∈ [0, 0x0202, 0x0110], let code : Code := BitVec.ofNat 16 n; let j := { hashJob with staged := some { code := code } }
      jobOn core (running j) = some j ∧ j.staged = some { code := code } ∧ j.verdict = none ∧ izvi (running j) = false ∧
      lateVerdict core (running j) = none ∧ comparedResult j { code := code } (running j) = true ∧ pendingCount 0 (running j) < 512 ∧ blockedBefore (lead core (running j)) (running j) = false) ∧
    (let j := { hashJob with place := .pending 0, ranOn := some core, staged := some {} }
     lateVerdict core (running j) = some j ∧ jobOf j.id (running j) = some j ∧ j.verdict = none) ∧
    (floorCode 0x0110 = false ∧ floorCode 0x0202 = true ∧ floorCode 0x04FF = true ∧ floorCode 0x0500 = false ∧ (0x0202 : Code) ≠ 0) ∧
    (∀ r ∈ [true, false], let j := { hashJob with reentered := r }
      izvi (izviRunning j) = true ∧ jobOn core (izviRunning j) = some j ∧ j.reentered = r ∧
      (coreOf (lead core (izviRunning j)) (izviRunning j)).faults < 3 ∧ (izviRunning j).gaffer.requests = []) ∧
    (((izviRunning hashJob).gaffer.jobs.map (·.id)).Nodup ∧
      ∀ j ∈ (izviRunning hashJob).gaffer.jobs, j.id < (izviRunning hashJob).gaffer.nextJob) := by
  decide +kernel

/-- A job in the pending buffer of bench 0 with a result. -/
def pendingJob (code : Code) : Job := { hashJob with place := .pending 0, staged := some { code := code, output := [1] }, verdict := some code }

theorem witness_RetireDecidesTheOutcome :
    ∀ n ∈ [0, 0x0202], let code : Code := BitVec.ofNat 16 n; let j := pendingJob code; let st : Staged := { code := code, output := [1] }
      let d := running j
      jobOf j.id d = some j ∧ j.place = .pending 0 ∧ j.staged = some st ∧ j.verdict = some code ∧ j.durable = false ∧ benchRuns 0 d = true ∧
      mayRetire j d = true ∧ resetWaits j st d = false ∧ conversionBlocks st d = false ∧ j.cancelMark = false ∧
      lockedAgainst j st d = false ∧ limitsCode j.tenant st d = 0 ∧ quotaCode j.tenant st d = 0 ∧ journalCode j.tenant st d = 0 ∧
      writesImage st = false ∧ (handGates j st d).2 = [] ∧ st.half = false ∧ st.more = false ∧
      (jobOf j.id (writeIntents j st.intents (handGates j st d).1).1).isSome = true := by
  decide +kernel

/-- A journal write at its first attempt. -/
def rootWrite : PendingWrite :=
  { id := 5, write := .root { tenant := 1, version := 1, suite := 1, nonce := [], cipher := [], tag := 0 } }

theorem witness_LehrAndGafferEventsTakeEffect :
    (let d := { device with benches := [(0, { benchIn with cores := [(0, { state := .testing })] })] }
     benchRuns 0 d = true ∧ (coreOf (lead core d) d).state = .testing ∧ d.gaffer.requests = []) ∧
    (∀ a ∈ [0, 1], ∀ job ∈ [none, some 7], let w := { rootWrite with attempts := a, job := job }
      let d := { device with flash := { device.flash with writes := [w] } }
      d.flash.writes.find? (fun w => decide (w.id = 5) && !w.durable) = some w ∧ outOfReset d = true ∧ nvmServes d = true ∧
      (∀ j ∈ d.gaffer.jobs, 5 ∉ j.gates) ∧ a < 2) ∧
    (let j := { hashJob with place := .retired 0, held := some (0, 0), releasable := some now }
     jobOf j.id (running j) = some j ∧ j.place = .retired 0 ∧ j.held.isSome = true ∧ isReleasable (running j) j = true) ∧
    (let d := { device with gaffer := { device.gaffer with jobs := [{ waitingJob with deadline := now }], lastScan := some (now - 256) } }
     outOfReset d = true ∧ d.gaffer.ready = true ∧ d.time.ticks % 256 = 0 ∧ d.gaffer.lastScan ≠ some d.time.ticks ∧
      ∃ j ∈ d.gaffer.jobs, expired d j = true) ∧
    (let d := { device with gaffer := { device.gaffer with traceOpen := [.recovery], traceEnds := now } }
     outOfReset d = true ∧ .recovery ∈ d.gaffer.traceOpen ∧ d.gaffer.traceEnds ≤ d.time.ticks ∧ d.gaffer.traceFrozen = false) := by
  decide +kernel

theorem witness_TheReleaseGridReleases :
    (∀ o ∈ [Origin.host 1 0 3 0 0 0, .background],
      let j := { hashJob with place := .answered, releasable := some now, origin := o }
      let d := running j
      outOfReset d = true ∧ started d = true ∧ d.time.ticks % 8 = 0 ∧ d.keys.halted = false ∧ d.gaffer.jobs = [j] ∧ isReleasable d j = true ∧
      j.place = .answered ∧ j.origin = o ∧ d.keys.sweeps = [] ∧ (d.gaffer.jobs.map (·.id)).Nodup ∧
      (∀ j ∈ d.gaffer.jobs, j.id < d.gaffer.nextJob)) ∧
    (let j := { hashJob with place := .answered, releasable := some now, origin := .background }
     let w : Sweep := { active := true, tenant := 1, job := some 0 }
     let d := { running j with keys := { device.keys with sweeps := [(0, w)] } }
     outOfReset d = true ∧ started d = true ∧ d.time.ticks % 8 = 0 ∧ d.keys.halted = false ∧ d.gaffer.jobs = [j] ∧ isReleasable d j = true ∧
      d.keys.sweeps = [(0, w)] ∧ w.job = some j.id ∧ w.active = true ∧ w.waiting = false ∧ 0 < (tenantOf 0 d).readyCap) := by
  decide +kernel

theorem witness_WindowBoundaryRefillsCredits :
    let d := { device with time := { device.time with windowsDone := now / 320 - 1 } }
    outOfReset d = true ∧ 320 * (d.time.windowsDone + 1) ≤ d.time.ticks ∧ 5 < 6 ∧ 255 < 256 := by
  decide +kernel

/-- A grant of unit 0 of a kind to core 0.0 for the job there. -/
def grantIn (kind since : Nat) : Grant := { bench := 0, kind := kind, unit := 0, core := core, tenant := 1, job := 0, since := since }
/-- The device with a job on its core and grants of every engine kind, taken now. -/
def granted (j : Job) : Device := { running j with shares := { grants := [grantIn 0 now, grantIn 1 now, grantIn 2 now] } }

theorem witness_UnitsAreGrantedChargedAndCutOff :
    (let d := running hashJob
     jobOn core d = some hashJob ∧ 2 < 6 ∧ pendingAt 0 2 d = [] ∧ parkedFor core 2 1 d = none ∧ freeUnits 0 2 d = [0, 1] ∧
      d.gather.service = true ∧ instancesReady d.gather = true) ∧
    (let d := { running hashJob with shares := { grants := [{ grantIn 2 now with job := 7, core := { bench := 0, core := 1 } },
        { grantIn 2 now with job := 7, core := { bench := 0, core := 1 }, unit := 1 }] } }
     jobOn core d = some hashJob ∧ pendingAt 0 2 d = [] ∧ parkedFor core 2 1 d = none ∧ freeUnits 0 2 d = []) ∧
    (let d := { running hashJob with shares := { grants := [grantIn 2 (now - 641)] } }
     grantOf core 2 0 d = some (grantIn 2 (now - 641)) ∧ 32 * d.shares.limitUs.toNat < d.time.ticks - (now - 641) ∧
      jobOf 0 d = some hashJob ∧ (d.gaffer.jobs.map (·.id)).Nodup ∧ (∀ j ∈ d.gaffer.jobs, j.id < d.gaffer.nextJob)) := by
  decide +kernel

/-! Engines, the key store, Gather. -/

/-- An engine whose scratch line 3 was written for tenant 2. -/
def taggedEngine : Engine := { engineIn with scratch := [(3, 2)] }
/-- The device with a job on its core that holds two Marver engines. -/
def marvering (j : Job) : Device :=
  { running j with
    benches := [(0, { benchIn with marver := { engines := [(0, taggedEngine), (1, engineIn)] }
                                   cores := [(0, { state := .running, job := some 0 }), (1, { state := .idle })] })]
    shares := { grants := [grantIn 0 now, { grantIn 0 now with unit := 1 }] } }
/-- An ML-DSA signature, in safe mode or not, re-entered or not. -/
def signJob (safe again : Bool) (code : Code) : Job :=
  { jobOnCore 0x0705 [] [] 0 with safeMode := safe, reentered := again, staged := some { code := code } }
/-- A pass in polynomial mode that subtracts 1 from a lane that holds 0; one that reads line 3. -/
def spillPass : EnginePass := { layers := [[.sub 0 1]] }
def foreignPass : EnginePass := { reads := [3] }
/-- What two passes observe: a spill, a foreign line. -/
def observed (a b : EnginePass) (j : Job) : Bool × Bool :=
  let pa := onePass 0 0 a j (marvering j)
  let pb := onePass 0 1 b j pa.1
  (pa.2.1 || pb.2.1, pa.2.2 || pb.2.2)

/-- The result that both passes are to give. -/
def given (code : Code) : EnginePass := { result := resultBytes { code := code } }

theorem witness_EngineOperationsEnd_marver : ∀ safe again : Bool, let j := signJob safe again 0
    jobOn core (marvering j) = some j ∧ j.staged = some {} ∧ holds (lead core (marvering j)) .marver 0 (marvering j) = true ∧
    holds (lead core (marvering j)) .marver 1 (marvering j) = true ∧ pairOk 0 0 1 (marvering j) = true ∧
    observed {} {} j = (false, false) ∧ observed spillPass {} j = (true, false) ∧ observed {} foreignPass j = (false, false) ∧
    observed foreignPass {} j = (false, true) ∧ observed {} { result := [1] } j = (false, false) ∧ ([] : Bytes) ≠ [1] ∧
    j.safeMode = safe ∧ j.reentered = again ∧ ((marvering j).gaffer.jobs.map (·.id)).Nodup ∧
    ∀ j ∈ (marvering (signJob safe again 0)).gaffer.jobs, j.id < (marvering (signJob safe again 0)).gaffer.nextJob := by
  decide +kernel

/-- Two passes that give the staged result, with a code or another; one that does not. -/
theorem witness_EngineOperationsEnd_results :
    observed (given 0) (given 0) (signJob false false 0) = (false, false) ∧
    observed (given 0x0507) (given 0x0507) (signJob false false 0x0507) = (false, false) ∧
    jobOn core (marvering (signJob false false 0x0507)) = some (signJob false false 0x0507) ∧
    (signJob false false 0x0507).staged = some { code := 0x0507 } ∧ ({} : EnginePass).result ≠ resultBytes {} := by
  decide +kernel

theorem witness_EngineOperationsEnd_foreign :
    foreignLines 0 0 foreignPass (signJob false false 0) (marvering (signJob false false 0)) = [(3, 2)] := by
  decide +kernel

/-- An encryption of 33 bytes under AES-ECB, three blocks, of which none or two are done; at a block of it, and at a save. -/
def blockJob (n : Nat) (again : Bool) : Job :=
  { jobOnCore 0x0501 (leBytes 4 0x00100100 ++ [0x01] ++ List.replicate 43 0) (List.replicate 48 0) 48 with cipherDone := n, reentered := again }
def blockDevice (e : Engine) (j : Job) : Device :=
  { granted j with
    keys := { device.keys with slots := [(256, { keyClass := 0x03, keyParam := 16, usage := 0xFFFF, tenant := 1, state := .active, gen := 1, length := 1, head := 256 })] }
    benches := [(0, { benchIn with cipher := { engines := [(0, e), (1, engineIn)] }, punty := { engines := [(0, e), (1, engineIn)] }
                                   cores := [(0, { state := .running, job := some 0 }), (1, { state := .idle })] })] }

theorem witness_EngineOperationsEnd_block : ∀ again : Bool, ∀ n ∈ [0, 2, 3], ∀ k ∈ [EngineKind.cipher, .punty],
    let j := blockJob n again
    let d := blockDevice engineIn j
    jobOn core d = some j ∧ k ≠ .marver ∧ engineGrant (lead core d) k 0 d = some (grantIn (kindCode k) now) ∧ j.reentered = again ∧
    blocksLeft (dataVerbOf j.recipe) .cipher d j = 3 - n ∧ (grantIn 1 now).moved + 1 < segmentOf .cipher j d ∧
    pathsAgree (engineOf 0 k 0 d) = true ∧ pathsAgree (engineOf 0 k 0 (blockDevice { engineIn with chain := [1] } j)) = false ∧
    (d.gaffer.jobs.map (·.id)).Nodup ∧ ∀ k ∈ d.gaffer.jobs, k.id < d.gaffer.nextJob := by
  decide +kernel

/-- Outcomes of a block: none, a difference, a count of 17 valid bytes, equal and different flags at once. -/
theorem witness_EngineOperationsEnd_outcomes :
    flagFault {} = none ∧ flagFault { flags := some (true, true) } = some (true, true) ∧ flagFault { flags := some (true, false) } = none ∧
    ({ difference := true } : BlockOutcome).difference = true ∧ (16 < 17 ∧ ¬ 16 < 16 ∧ 8 < 9 ∧ ¬ 8 < 8) := by
  decide +kernel

/-- The device with the engines of its bench in a given state. -/
def withEngines (e : Engine) : Device :=
  { device with benches := [(0, { benchIn with marver := { engines := [(0, e)] }, cipher := { engines := [(0, e)] }, punty := { engines := [(0, e)] } })] }

theorem witness_KnownAnswerTestsRun :
    (benchRuns 0 device = true ∧ katDue 0 device = true ∧ katPosition 0 device = some 0 ∧ engineHeld 0 (katUnit 0).1 (katUnit 0).2 device = false ∧
      (engineOf 0 (katUnit 0).1 (katUnit 0).2 device).causes = []) ∧
    (∀ k ∈ [EngineKind.marver, .cipher, .punty], let d := withEngines { engineIn with state := .inTest }
      benchRuns 0 d = true ∧ (engineOf 0 k 0 d).state = .inTest ∧ (engineBlock k (benchOf 0 d)).testBusy = false ∧
      (engineOf 0 k 0 d).causes = [] ∧ katOver 0 k 0 d = true) ∧
    (∀ k ∈ [EngineKind.marver, .cipher, .punty], let d := withEngines engineIn
      campaignMay 0 k d = true ∧ (engineOf 0 k 0 d).state = .inService ∧ (engineOf 0 k 0 d).causes = [] ∧ campaignRunning 0 k d = 0 ∧ engineHeld 0 k 0 d = false) ∧
    (started device = true ∧ outOfReset device = true ∧ (benchOf 0 device).inService = true) := by
  decide +kernel

/-- The findings of a test that passes, the ROM's own answers with every forced fault caught, and of one that caught nothing. -/
theorem witness_KnownAnswerTestsRun_pass (k : EngineKind) (f : KatFindings) (h : f.outputs = katAnswers k) :
    katPasses k { f with spill := true, difference := true, flag := true } = true ∧
    katPasses k { f with spill := false, difference := false } = false := by
  unfold katPasses
  rw [h]
  generalize katAnswers k = a
  cases k <;> simp

/-- An active key of tenant 1 at slot 256 of generation 1, and its handle. -/
def slotIn : Slot := { keyClass := 0x06, keyParam := 32, usage := 0xFFFF, tenant := 1, state := .active, gen := 1, length := 1, head := 256 }
def handleIn : BitVec 32 := 0x00100100
/-- The device with a slot at 256 under a valid tag, and a job on its core. -/
def withSlot (s : Slot) (j : Job) : Device := { running j with keys := { device.keys with slots := [(256, retag device.custody 256 s)] } }

/-- The same device whose core holds its bench's lookup port 0, granted now. -/
def lookingUp (s : Slot) (k : KeyStore → KeyStore) : Device :=
  { withSlot s hashJob with keys := k (withSlot s hashJob).keys, shares := { grants := [grantIn 3 now] } }

/-- The port's record of a lookup that the job on core 0.0 asks for. -/
def asking (h : BitVec 32) (d : Device) : LookupPort := arriving (lead core d) 0 false h hashJob d

theorem witness_LookupsDeliverOrRefuse :
    (let d := lookingUp slotIn id
     jobOn core d = some hashJob ∧ keyStoreRuns d = true ∧ 0 < 2 ∧ (portGrant (lead core d) 0 d).isSome = true ∧
      (portOf (lead core d) 0 d).waiting = false ∧ (portOf (lead core d) 0 d).verdictDue = false ∧ lookupBlocked (asking handleIn d) d = false ∧
      lookupCode hashJob.tenant handleIn d = 0 ∧ mapped (handleSlot handleIn) d = false ∧
      lookupBlocked (asking 0x00200100 d) d = false ∧ lookupCode hashJob.tenant 0x00200100 d ≠ 0) ∧
    (∀ k ∈ [{ device.keys with converting := some 256 }, { device.keys with awaits := some 256 }],
      let d := lookingUp slotIn (fun x => { x with converting := k.converting, awaits := k.awaits })
      lookupBlocked (asking handleIn d) d = true) ∧
    (let d := lookingUp slotIn (fun k => { k with ports := [(0, { verdictDue := true, handle := handleIn, job := some 0 })] })
     keyStoreRuns d = true ∧ (portOf (lead core d) 0 d).verdictDue = true ∧ (portOf (lead core d) 0 d).job = some 0 ∧ (jobOf 0 d).isSome = true ∧
      d.keys.awaits ≠ some (handleSlot (portOf (lead core d) 0 d).handle) ∧
      (d.gaffer.jobs.map (·.id)).Nodup ∧ (∀ j ∈ d.gaffer.jobs, j.id < d.gaffer.nextJob)) := by
  decide +kernel

theorem retag_sound (c : Custody) (i : Nat) (s : Slot) : tagOk c i (retag c i s) = true := by
  simp [tagOk, retag, slotTag, recordBytes, attrBytes]

theorem badSlot_one (d : Device) (h : chainOf 256 d.keys = [256]) :
    badSlot 256 d = if tagOk d.custody 256 (slotOf 256 d.keys) then none else some 256 := by
  unfold badSlot
  rw [h]
  cases ht : tagOk d.custody 256 (slotOf 256 d.keys) <;> simp [ht]

/-- The tag of the key is the right one, so its verdict is sound; with any other it is not. -/
theorem witness_LookupsDeliverOrRefuse_verdict (t : BitVec 128)
    (other : t ≠ slotTag (rootOf false device.custody) 256 { slotIn with tag := t }) :
    badSlot 256 (withSlot slotIn hashJob) = none ∧
    badSlot 256 { device with keys := { device.keys with slots := [(256, { slotIn with tag := t })] } } = some 256 := by
  have h1 : tagOk device.custody 256 (retag device.custody 256 slotIn) = true := retag_sound _ _ _
  have h2 : tagOk device.custody 256 { slotIn with tag := t } = false := by
    unfold tagOk
    exact beq_eq_false_iff_ne.mpr other
  have c1 : chainOf 256 (withSlot slotIn hashJob).keys = [256] := rfl
  have e1 : slotOf 256 (withSlot slotIn hashJob).keys = retag device.custody 256 slotIn := rfl
  have e2 : slotOf 256 { device.keys with slots := [(256, { slotIn with tag := t })] } = { slotIn with tag := t } := rfl
  refine ⟨(badSlot_one _ c1).trans ?_, (badSlot_one _ rfl).trans ?_⟩
  · exact if_pos (by rw [e1]; exact h1)
  · exact if_neg (by rw [e2, h2]; decide)

theorem witness_TenantsReachOnlyTheirKeys :
    (lookupCode 1 handleIn (withSlot slotIn hashJob) = 0 ∧ lookupCode 1 handleIn (withSlot { slotIn with state := .suspended } hashJob) = 0) ∧
    (∀ s ∈ [{ slotIn with state := .free }, { slotIn with tenant := 2 }, { slotIn with state := .continuation }, { slotIn with gen := 2 }],
      let d := withSlot s hashJob
      handleSlot handleIn < slotCount d ∧ ((slotOf (handleSlot handleIn) d.keys).state = .free ∨
        (slotOf (handleSlot handleIn) d.keys).tenant ≠ 1 ∨ (slotOf (handleSlot handleIn) d.keys).state = .continuation ∨
        (slotOf (handleSlot handleIn) d.keys).gen ≠ handleGen handleIn)) ∧
    (handleSlot 0x001000FF < 256 ∧ slotCount device ≤ handleSlot 0x0013FFFF + 1 ∧ slotCount device ≤ handleSlot 0x001FFFFF) := by
  decide +kernel

theorem witness_DeletedKeysAreGone : 1 ≤ (slotOf 256 (withSlot slotIn hashJob).keys).length ∧ handleSlot handleIn = 256 ∧
    511 ∉ chainOf 256 (withSlot slotIn hashJob).keys := by decide +kernel

theorem witness_UsageIsCountedAndLimited :
    ∀ s ∈ [slotIn, { slotIn with state := .suspended }, { slotIn with usageLimit := 1, usageCount := 1 },
        { slotIn with usageCount := 0xFFFFFFFF }],
      let x := slotOf 256 (withSlot s hashJob).keys
      x.tenant = 1 ∧ x.gen = 1 ∧ x.state = s.state ∧ x.usageLimit = s.usageLimit ∧ x.usageCount = s.usageCount := by
  decide +kernel

/-- The job of a sweep step on its core. -/
def sweepingJob : Job := { hashJob with recipe := 0, origin := .background, tenant := 0 }
/-- The device with a sweep of tenant 1. -/
def sweeping (w : Sweep) : Device := { running sweepingJob with keys := { device.keys with sweeps := [(0, w)] } }

theorem witness_RemaskingAndSweepsProceed :
    (keyStoreRuns device = true ∧ started device = true ∧ device.keys.remaskActive = false ∧ device.gather.service = true ∧
      device.keys.remaskInterval ≠ 0 ∧ device.keys.lastRemask + 3600 * secTicks * device.keys.remaskInterval.toNat ≤ device.time.ticks) ∧
    (let d := { device with keys := { device.keys with remaskActive := true, cursor := 256, lastStep := some (now - 3200) } }
     keyStoreRuns d = true ∧ d.keys.remaskActive = true ∧ d.keys.converting = none ∧ d.keys.stepLeft = 0 ∧ stepDue d = true ∧
      d.keys.cursor < slotCount d ∧ d.keys.ports = [] ∧ (∀ i, fetched i d = false)) ∧
    (let d := { device with keys := { device.keys with remaskActive := true, cursor := 256, ports := [(0, { fetching := some 256 })] } }
     keyStoreRuns d = true ∧ stepDue d = true ∧ (∀ p ∈ d.keys.ports, p.2.waiting = false) ∧ fetched d.keys.cursor d = true) ∧
    (∀ i ∈ [0, slotCount device - 1], let d := { device with keys := { device.keys with remaskActive := true, converting := some i } }
      keyStoreRuns d = true ∧ d.keys.converting = some i ∧ (∀ p ∈ d.keys.ports, p.2.waiting = false) ∧ d.keys.remaskQueued = false) ∧
    (0 + 1 < slotCount device ∧ slotCount device ≤ slotCount device - 1 + 1) ∧
    (∀ row ∈ [0, 4094, 4095], let d := { device with benches := [(0, { benchIn with rescramble := some row })] }
      outOfReset d = true ∧ (benchOf 0 d).inService = true ∧ (benchOf 0 d).halted = false ∧ (benchOf 0 d).rescramble = some row ∧
      (benchOf 0 d).rescrambleQueued = false) ∧
    (let w : Sweep := { active := true, tenant := 1, job := some 0 }
     keyStoreRuns (sweeping w) = true ∧ tabGetD 0 ({} : Sweep) (sweeping w).keys.sweeps = w ∧ w.active = true ∧
      state (sweeping w) = .operational ∧ sweepJob w (sweeping w) = some (core, sweepingJob)) ∧
    (let w : Sweep := { active := true, tenant := 1, cursor := 257 }
     tabGetD 0 ({} : Sweep) (sweeping w).keys.sweeps = w ∧ w.active = true ∧ w.waiting = false ∧ sweepHeads 0 (sweeping w).keys = []) := by
  refine ⟨by decide +kernel, ⟨by decide +kernel, by decide +kernel, by decide +kernel, by decide +kernel, by decide +kernel, by decide +kernel,
    by decide +kernel, fun _ => rfl⟩, by decide +kernel, by decide +kernel, by decide +kernel, by decide +kernel, by decide +kernel,
    by decide +kernel⟩

/-- Windows of 1,024 bits: alternating, with a run of 80 or of 81 ones at the front, and 840 ones of 1,024 in runs below 81. -/
def alternating (n : Nat) : List Bool := (List.range n).map (fun i => i % 2 = 0)
def runOf (n : Nat) : List Bool := List.replicate n true ++ (alternating (1024 - n)).map (fun b => !b)
def biased : List Bool := (List.range 1024).map (fun i => i % 6 ≠ 5)

theorem witness_WindowsBlocksAndReseeds :
    (sourceRuns 0 device = true ∧ (sourceState 0 device.gather).state = .healthy ∧ (sourceState 0 device.gather).waking = false ∧
      (sourceState 0 device.gather).trim ≠ 0 ∧ (sourceState 0 device.gather).trim ≠ 0x3F) ∧
    (∀ bits ∈ [alternating 1024, runOf 80], bits.length = 1024 ∧ (bits.foldl runBit (0, none, 0)).2.2 < 81 ∧ likeFirst bits < 840) ∧
    ((runOf 81).length = 1024 ∧ 81 ≤ ((runOf 81).foldl runBit (0, none, 0)).2.2) ∧
    (biased.length = 1024 ∧ (biased.foldl runBit (0, none, 0)).2.2 < 81 ∧ 840 ≤ likeFirst biased) ∧
    (let d := { device with gather := { device.gather with sources := [(0, { state := .healthy, passed := [[1]], waking := true })], pool := List.replicate 512 { source := 1, bits := 2 } } }
     sourceRuns 0 d = true ∧ (sourceState 0 d.gather).passed ≠ [] ∧ d.gather.service = true ∧ 512 ≤ d.gather.pool.length ∧ instancesReady d.gather = true ∧
      (sourceState 0 d.gather).state = .healthy ∧ (sourceState 0 d.gather).waking = true) ∧
    (let d := { device with gather := { device.gather with sources := [(0, { state := .healthy, passed := [[1], [2]] })] } }
     sourceRuns 0 d = true ∧ (sourceState 0 d.gather).passed = [1] :: [[2]] ∧ d.gather.service = true ∧ d.gather.pool = []) ∧
    (outOfReset device = true ∧ 0 < 8 ∧ (instOf 0 device.gather).ready = true ∧ (instOf 0 device.gather).lastReseed + 1000 * msTicks ≤ device.time.ticks) := by
  decide +kernel

/-- The pool holds the first block of a pair, one of the same source, and the first of another. -/
def poolBlocks : List PoolBlock := [{ source := 3, bits := 1 }, { source := 3, bits := 2 }, { source := 5, bits := 3 }, { source := 4, bits := 4 }]
theorem witness_SeedsComeFromTwoSources :
    takeSeed poolBlocks = some (bvBytes 24 (1 : BitVec 192) ++ bvBytes 24 (3 : BitVec 192), [{ source := 3, bits := 2 }, { source := 4, bits := 4 }]) ∧
    takeSeed (poolBlocks.take 2) = none := by decide +kernel

/-! Tamper, power, debug. -/

/-- The device with source n in a given state. -/
def withSource (n : Nat) (x : TamperSource) : Device := { device with tamper := { device.tamper with sources := [(n, x)] } }

theorem witness_TripsStopThePart :
    (∀ n ∈ [0, 5, 6, 15], sourceWatched n device = true ∧ masked n .detA device = false ∧ (sourceOf n device).state = .quiet ∧
      (state device = .owned ∨ state device = .operational) ∧ device.custody.lockCause ≠ .breach) ∧
    (let d := withSource 6 { state := .tripped, detA := true }
     sourceWatched 6 d = true ∧ masked 6 .detB d = false ∧ (sourceOf 6 d).state = .tripped) := by
  decide +kernel

theorem witness_BreachErasesAndLatchesBurn :
    (∀ n ∈ [5, 6], sourceWatched n device = true ∧ masked n .detA device = false ∧ (sourceOf n device).state = .quiet) ∧
    (let d := { device with tamper := { device.tamper with overwriteActive := true } }
     outOfReset d = true ∧ d.tamper.overwriteActive = true) ∧
    (let l : TripLatch := { source := 0, seconds := 0, lockDue := true, evidenceDue := true }
     let d := { device with battery := { latches := [l] } }
     outOfReset d = true ∧ suppliesQuiet d = true ∧ d.battery.latches = [l] ∧ l.night = false ∧ l.evidenceDue = true ∧ l.lockDue = true ∧
      saturated (fuseGet (.evidence l.source) d.fuses) = false ∧ lifecycle d.fuses = .operational ∧ saturated d.fuses.lockCount = false) ∧
    (let l : TripLatch := { source := 15, seconds := 0 }
     let d := { device with battery := { latches := [l] } }
     outOfReset d = true ∧ suppliesQuiet d = true ∧ d.battery.latches = [l] ∧ l.night = false ∧ l.evidenceDue = false ∧ l.lockDue = false) := by
  decide +kernel

theorem witness_ChallengesAndNotices :
    (∀ k ∈ [0, 31], let d := { device with tamper := { device.tamper with nextChallenge := k, lastChallenge := now - 100 * msTicks } }
      outOfReset d = true ∧ d.tamper.armed = true ∧ d.tamper.challenge = none ∧ d.tamper.lastChallenge + 100 * msTicks ≤ d.time.ticks ∧
      nextPosition d = some k) ∧
    (let d := { device with tamper := { device.tamper with challenge := some (3, .detB, now) } }
     outOfReset d = true ∧ d.tamper.challenge = some (3, .detB, now) ∧ (true && false) = false) ∧
    (∀ n ∈ [6, 9], sourceWatched n device = true ∧ 6 ≤ n ∧ n ≤ 9 ∧ (sourceOf n device).detA = false ∧ (sourceOf n device).detB = false) ∧
    (let d := withSource 7 { noticeUntil := some now }
     (sourceOf 7 d).noticeUntil = some now ∧ now ≤ d.time.ticks) ∧
    (∀ n ∈ [0, 4], ∀ p ∈ [{ device.pins with mainOn := false }, { device.pins with pwrOk := false }], let d := { device with pins := p }
      batteryWatches d = true ∧ n ≤ 4 ∧ srcEnabled n d = true ∧ (∀ l ∈ d.battery.latches, ¬ (l.source = n ∧ l.night = true))) := by
  decide +kernel

theorem witness_SourcesClear :
    (∀ b ∈ [false, true], let d := withSource 6 { state := .tripped, detA := true, detB := b }
      sourceWatched 6 d = true ∧ (sourceOf 6 d).state = .tripped ∧ (sourceOf 6 d).detA = true ∧ (sourceOf 6 d).detB = b) ∧
    (∀ t ∈ [now - secTicks, now - secTicks + 1], let d := withSource 6 { state := .clearing, quietSince := t }
      sourceWatched 6 d = true ∧ (sourceOf 6 d).state = .clearing ∧ masked 6 .detA d = false) ∧
    (now - secTicks + secTicks ≤ device.time.ticks ∧ device.time.ticks < now - secTicks + 1 + secTicks) := by
  decide +kernel

theorem witness_SuppliesAndPowerStates :
    (outOfReset device = true ∧ started device = true ∧ duskState device = true) ∧
    ({ device with battery := { onVbat := true } }.battery.onVbat = true) ∧
    (let d := { device with power := { idleMs := 1, idleSince := some (now - msTicks) } }
     duskState d = true ∧ d.power.mode = .noon ∧ idleLong d = true) ∧
    (let d := { device with power := { mode := .duskRequested } }
     duskState d = true ∧ d.power.mode = .duskRequested ∧ partIdle d = true ∧ d.power.wakePending = false) ∧
    ({ device with power := { mode := .waking } }.power.mode = .waking) ∧
    (let d := { device with power := { mode := .preparingNight } }
     outOfReset d = true ∧ d.power.mode = .preparingNight ∧ d.gaffer.jobs = [] ∧ d.flash.writes = [] ∧ d.events.toFlash = [] ∧
      d.events.buffers = []) := by
  decide +kernel

theorem witness_DebugIsGated :
    (let d := { device with fuses := {} }; outOfReset d = true ∧ fullMayOpen d = true) ∧ fullMayOpen device = false ∧ ((3 : Nat) ≠ 2) ∧
    (let d := { device with power := { level := .diagnostic, diagEnds := now } }
     outOfReset d = true ∧ d.power.level = .diagnostic ∧ d.power.diagEnds ≤ d.time.ticks) ∧
    (device.tamper.armed = true ∧ srcEnabled 15 device = true) ∧
    (∀ n ∈ [2, 9, 11, 13, 15], let d := { device with power := { level := .full } }
      outOfReset d = true ∧ d.power.level = .full ∧ mayDisable n = true) := by
  decide +kernel

/-! Verbs. -/

/-- A parameter block of 48 bytes with the given strings at the given offsets. -/
def block (fs : List (Nat × List Nat)) : Bytes :=
  (List.range 48).map (fun i => match fs.find? (fun f => decide (f.1 ≤ i) && decide (i < f.1 + f.2.length)) with
    | some f => BitVec.ofNat 8 ((f.2[i - f.1]?).getD 0)
    | none => 0)
/-- The handles of key_a at slot 256 and key_b at slot 257, both of generation 1. -/
def hA : List Nat := [0x00, 0x01, 0x10, 0x00]
def hB : List Nat := [0x01, 0x01, 0x10, 0x00]
/-- A PAN of 16 digits, and bytes of a decimalization table. -/
def panBytes : List Nat := [0x41, 0x11, 0x11, 0x11, 0x11, 0x11, 0x11, 0x11, 0xFF, 0xFF]
def tableBytes : Bytes := [0x01, 0x23, 0x45, 0x67, 0x89, 0x01, 0x23, 0x45]
/-- A key of tenant 1 in one slot. -/
def keySlot (cls param : Nat) (usage : Nat) : Slot :=
  { slotIn with keyClass := BitVec.ofNat 8 cls, keyParam := BitVec.ofNat 8 param, usage := BitVec.ofNat 16 usage, exportBits := 0xC0, last := true, policySet := 1 }
/-- A tenant whose policy set 1 allows what the verbs ask. -/
def tenantOpen : Tenant := { tenantIn with policies := [(1, { allowDowngrade := true, allowUnbind := true, allowGenerate := true, arpcMethods := 3 })], masks := [(1, 0)] }
/-- The device with a job on core 0.0 that holds an engine of each kind, a root for tenant 1, and keys at slots 256 and 257 under valid
tags. -/
def verbDevice (a b : Slot) (j : Job) : Device :=
  { granted j with
    gaffer := { (running j).gaffer with tenants := [(0, tenantIn), (1, tenantOpen)] },
    keys := { device.keys with slots := [(1, { tenant := 1, state := .root, suite := 1, rootVersion := 1 }),
      (256, retag device.custody 256 a), (257, retag device.custody 257 b)] } }

/-- A slot whose key is `clear`, masked for its index. -/
def keyed (i : Nat) (clear : BitVec 512) (s : Slot) : Slot := { s with material := clear ^^^ maskPad (rootOf s.epoch device.custody) i }
theorem keyed_delivered (i : Nat) (clear : BitVec 512) (s : Slot) :
    delivered device.custody i (retag device.custody i (keyed i clear s)) = clear := by
  show (clear ^^^ maskPad (rootOf s.epoch device.custody) i) ^^^ maskPad (rootOf s.epoch device.custody) i = clear
  rw [BitVec.xor_assoc, BitVec.xor_self, BitVec.xor_zero]
theorem keyBytes_one (d : Device) (i : Nat) (clear : BitVec 512) (s : Slot) (hc : d.custody = device.custody)
    (hs : slotOf i d.keys = retag device.custody i (keyed i clear s)) (hl : s.length = 1) :
    keyBytes d i = (bvBytes 64 clear).take (materialLen s.keyClass.toNat s.keyParam.toNat (isOriginator s.keyClass s.usage)) := by
  have hn : (slotOf i d.keys).length = 1 := by rw [hs]; exact hl
  have hch : chainOf i d.keys = [i] := by
    unfold chainOf
    rw [hn]
    cases h : (slotOf i d.keys).last <;> simp [chainGo]
  unfold keyBytes
  rw [hch, List.flatMap_singleton, hs, hc, keyed_delivered]
  rfl
/-- The key of key_a and of key_b. -/
theorem keyOf_a (clear : BitVec 512) (s b : Slot) (j : Job) (h : handleSlot (keyA j) = 256) (hl : s.length = 1) :
    keyOf (keyA j) (verbDevice (keyed 256 clear s) b j) =
      (bvBytes 64 clear).take (materialLen s.keyClass.toNat s.keyParam.toNat (isOriginator s.keyClass s.usage)) := by
  unfold keyOf
  rw [h]
  exact keyBytes_one _ 256 clear s rfl rfl hl
theorem keyOf_b (clear : BitVec 512) (a s : Slot) (j : Job) (h : handleSlot (keyB j) = 257) (hl : s.length = 1) :
    keyOf (keyB j) (verbDevice a (keyed 257 clear s) j) =
      (bvBytes 64 clear).take (materialLen s.keyClass.toNat s.keyParam.toNat (isOriginator s.keyClass s.usage)) := by
  unfold keyOf
  rw [h]
  exact keyBytes_one _ 257 clear s rfl rfl hl

theorem chainSound_a (a b : Slot) (j : Job) (h : a.length = 1) : chainSound 256 (verbDevice a b j) = true := by
  have hc : chainOf 256 (verbDevice a b j).keys = [256] := by
    show chainGo _ (retag device.custody 256 a).length 256 = [256]
    rw [show (retag device.custody 256 a).length = 1 from h]
    cases hl : a.last <;> simp [chainGo]
  unfold chainSound
  rw [hc]
  have ht : tagOk (verbDevice a b j).custody 256 (slotOf 256 (verbDevice a b j).keys) = true := retag_sound device.custody 256 a
  rw [List.all_cons, ht]
  rfl

theorem chainSound_b (a b : Slot) (j : Job) (h : b.length = 1) : chainSound 257 (verbDevice a b j) = true := by
  have hc : chainOf 257 (verbDevice a b j).keys = [257] := by
    show chainGo _ (retag device.custody 257 b).length 257 = [257]
    rw [show (retag device.custody 257 b).length = 1 from h]
    cases hl : b.last <;> simp [chainGo]
  unfold chainSound
  rw [hc]
  have ht : tagOk (verbDevice a b j).custody 257 (slotOf 257 (verbDevice a b j).keys) = true := retag_sound device.custody 257 b
  rw [List.all_cons, ht]
  rfl

/-- The root of tenant 1 and the keys at 256 and 257 are all that the small device's verbs read. -/
def readsKnown (v : Verb) (d : Device) (j : Job) : Bool :=
  (v.handles d j).all (fun h => decide (handleSlot h = 256) || decide (handleSlot h = 257)) &&
  (innerSlots v d j).all (fun i => decide (handleSlot (handleOf i d) = 1))
theorem unsound_none (v : Verb) (a b : Slot) (j k : Job) (ha : a.length = 1) (hb : b.length = 1) (h : readsKnown v (verbDevice a b j) k = true) :
    unsound v (verbDevice a b j) k = none := by
  simp only [readsKnown, Bool.and_eq_true, List.all_eq_true, Bool.or_eq_true, decide_eq_true_eq] at h
  unfold unsound
  rw [List.find?_eq_none]
  intro x hx
  rcases List.mem_append.mp hx with hx | hx
  · rcases h.1 x (List.mem_filter.mp hx).1 with e | e <;> rw [e]
    · rw [chainSound_a a b j ha]; simp
    · rw [chainSound_b a b j hb]; simp
  · obtain ⟨i, hi, rfl⟩ := List.mem_map.mp hx
    rw [h.2 i hi, show chainSound 1 (verbDevice a b j) = true from rfl]
    simp

/-- The job of the small device is found by its row. -/
theorem verbJob_running (op : BitVec 16) (d : Device) (j : Job) (hop : j.recipe = op) (hid : j.id = 0) (hp : j.place = .core 0 0) (hs : j.staged = none)
    (hb : benchRuns 0 d = true) (hz : d.pins = device.pins) (hc : coreOf core d = { state := .running, job := some 0 }) (hj : d.gaffer.jobs = [j]) :
    verbJob op core d = some j := by
  have hl : lead core d = core := by simp [lead, izvi, hz, device]
  have hf : jobOf 0 d = some j := by simp [jobOf, hj, hid]
  have ho : jobOn core d = some j := by
    unfold jobOn
    simp only [hl, hc, show core.bench = 0 from rfl, show core.core = 0 from rfl, hb, hf, hp]
    rfl
  unfold verbJob
  rw [ho]
  simp [hs, hop]

/-- Such a job, for which a port has fetched both keys and the root, and the generator has delivered 1 MiB. -/
def room : Nat := 1048576
def verbIn (op : BitVec 16) (params input : Bytes) (outCap : Nat) : Job :=
  { jobOnCore op params input outCap with fetched := [0x00100100, 0x00100101], fetchedInner := [1], drawn := List.replicate room 0 }

theorem verbIn_own (op : BitVec 16) (p i : Bytes) (n : Nat) :
    verbIn op p i n = verbIn op (verbIn op p i n).params (verbIn op p i n).input (verbIn op p i n).outCap := rfl

/-- The job once its engines have processed every block that the verb counts on a device: how many some recipes count is open. -/
def done (v : Verb) (d : Device) (j : Job) : Job := { j with cipherDone := v.blocks .cipher d j, puntyDone := v.blocks .punty d j }
theorem blocksDone_done (v : Verb) (d e : Device) (j : Job) (h : ∀ k, v.blocks k e (done v d j) = v.blocks k d j) :
    blocksDone v e (done v d j) = true := by
  unfold blocksDone blocksLeft
  simp only [h]
  simp [doneBlocks, done]
/-- Grants of the three engine kinds serve whatever the job needs. -/
theorem engines_held (d : Device) (j : Job) (hz : d.pins = device.pins)
    (hs : d.shares = { grants := [grantIn 0 now, grantIn 1 now, grantIn 2 now] }) (hj : j.id = 0) : enginesMissing (lead core d) j d = [] := by
  have hl : lead core d = core := by simp [lead, izvi, hz, device]
  have hk : ∀ k ∈ kindsOf j d, k = 0 ∨ k = 1 ∨ k = 2 := by
    intro k hk
    unfold kindsOf at hk
    generalize jobNeeds j d = n at hk
    obtain ⟨x, y, z⟩ := n
    revert hk
    cases x <;> cases y <;> cases z <;> simp <;> omega
  unfold enginesMissing heldGrant
  rw [hl, hs, hj, List.filter_eq_nil_iff]
  intro k h
  rcases hk k h with e | e | e <;> subst e <;> decide

/-- The verb's job on the small device, its blocks done, and the device. -/
def verbJobDone (v : Verb) (a b : Slot) (j : Job) : Job := done v (verbDevice a b j) j
def verbDone (v : Verb) (a b : Slot) (j : Job) : Device := verbDevice a b (verbJobDone v a b j)
/-- What a verb's last step asks: shown of a concrete job and device. -/
def Ready (op : BitVec 16) (v : Verb) (a b : Slot) (j : Job) : Prop := verbReady op v core (verbJobDone v a b j) (verbDone v a b j)

/-- What is checked of it by evaluation, beside the verb's code. -/
def fits (v : Verb) (a b : Slot) (j : Job) : Bool :=
  let d := verbDone v a b j
  let j := verbJobDone v a b j
  decide (a.length = 1) && decide (b.length = 1) && readsKnown v d j && (keysMissing v d j).isEmpty &&
  lastOf v d j && decide (v.draws d j ≤ room) && !v.fresh j &&
  (decide (v.early d j = 0) || decide (v.late d j (j.drawn.take (v.early d j)) = 0))
def ready (v : Verb) (a b : Slot) (j : Job) : Bool := decide (verbCode v (verbDone v a b j) (verbJobDone v a b j) = 0) && fits v a b j

theorem bytesDrawn_room (v : Verb) (j : Job) (d : Device) (hj : j.drawn = List.replicate room 0) (hs : j.step = 0) (hf : v.fresh j = false)
    (hn : v.draws d j ≤ room) (he : v.early d j = 0 ∨ v.late d j (j.drawn.take (v.early d j)) = 0)
    (hr : (v.run d j (stepBytes v j d)).redo = false) : bytesDrawn v j d := by
  refine ⟨Or.inr ?_, he.imp_right (fun e => Or.inr e), hr⟩
  have hk : kept v d j = [] := by unfold kept; rw [if_pos hs]
  unfold stepDraw drawnEnough drawnSo
  rw [hf, hk, hj]
  simpa using hn

theorem ready_code (op : BitVec 16) (v : Verb) (a b : Slot) (j : Job) (hj : j = verbIn op j.params j.input j.outCap) (h2 : verbCode v (verbDone v a b j) (verbJobDone v a b j) = 0)
    (h : fits v a b j = true)
    (hr : (v.run (verbDone v a b j) (verbJobDone v a b j) (stepBytes v (verbJobDone v a b j) (verbDone v a b j))).redo = false)
    (hb : ∀ k, v.blocks k (verbDone v a b j) (verbJobDone v a b j) = v.blocks k (verbDevice a b j) j) : Ready op v a b j := by
  simp only [fits, Bool.and_eq_true, decide_eq_true_eq, Bool.or_eq_true, Bool.not_eq_true', List.isEmpty_iff] at h
  obtain ⟨⟨⟨⟨⟨⟨⟨h3, h4⟩, h5⟩, h6⟩, h7⟩, h8⟩, h9⟩, h10⟩ := h
  have hd : (verbJobDone v a b j).drawn = List.replicate room 0 := by show j.drawn = _; rw [hj]; rfl
  refine ⟨⟨⟨verbJob_running _ _ _ ?_ ?_ ?_ ?_ rfl rfl rfl rfl, ?_, h6, unsound_none v a b _ _ h3 h4 h5, h2⟩, h7, ?_, blocksDone_done _ _ _ _ hb, ?_⟩,
    bytesDrawn_room v _ _ hd ?_ h9 h8 h10 hr⟩
  · show j.recipe = op; rw [hj]; rfl
  · show j.id = 0; rw [hj]; rfl
  · show j.place = _; rw [hj]; rfl
  · show j.staged = _; rw [hj]; rfl
  · have e : (verbJobDone v a b j).savedRows = [] := by show j.savedRows = _; rw [hj]; rfl
    unfold stateHere
    rw [e]; rfl
  · exact engines_held _ _ rfl rfl (by show j.id = 0; rw [hj]; rfl)
  · intro e
    have e' : j.safeMode = true := e
    rw [hj] at e'; cases e'
  · show j.step = 0; rw [hj]; rfl

theorem ready_verb (op : BitVec 16) (v : Verb) (a b : Slot) (j : Job) (hj : j = verbIn op j.params j.input j.outCap) (h : ready v a b j = true)
    (hr : (v.run (verbDone v a b j) (verbJobDone v a b j) (stepBytes v (verbJobDone v a b j) (verbDone v a b j))).redo = false)
    (hb : ∀ k, v.blocks k (verbDone v a b j) (verbJobDone v a b j) = v.blocks k (verbDevice a b j) j) : Ready op v a b j := by
  simp only [ready, Bool.and_eq_true, decide_eq_true_eq] at h
  exact ready_code op v a b j hj h.1 h.2 hr hb

theorem verb_generateSymmetricKey : Ready 0x0101 generateVerb (keySlot 0x03 32 0x0003) (keySlot 0x03 32 0x0003) (verbIn 0x0101 (block [(8, [0x03, 32, 0x03, 0x00, 0])]) [] 104) :=
  ready_verb _ _ _ _ _ rfl (by decide +kernel) rfl (fun _ => rfl)
theorem verb_exportKeyBlock : Ready 0x0103 exportVerb (keySlot 0x03 32 0x0004) (keySlot 0x03 16 0x0003) (verbIn 0x0103 (block [(0, hA), (4, hB)]) [] 200) :=
  ready_verb _ _ _ _ _ rfl (by decide +kernel) rfl (fun _ => rfl)
theorem verb_deleteKey : Ready 0x0105 deleteVerb (keySlot 0x03 32 0x0003) (keySlot 0x03 32 0x0003) (verbIn 0x0105 (block [(0, hA)]) [] 0) :=
  ready_verb _ _ _ _ _ rfl (by decide +kernel) rfl (fun _ => rfl)
theorem verb_openRootRotation : Ready 0x010C rotateVerb (keySlot 0x03 32 0x0003) (keySlot 0x03 32 0x0003) (verbIn 0x010C (block [(20, [1]), (22, [2])]) [] 0) :=
  ready_verb _ _ _ _ _ rfl (by decide +kernel) rfl (fun _ => rfl)
theorem verb_massRewrap : Ready 0x010E rewrapVerb (keySlot 0x03 32 0x0003) (keySlot 0x03 32 0x0003) (verbIn 0x010E (block [(22, [1]), (24, [1, 0])]) ([1, 0, 1, 1, 1, 0x03, 16] ++ List.replicate 73 0) 80) :=
  ready_verb _ _ _ _ _ rfl (by decide +kernel) rfl (fun _ => rfl)
theorem verb_suspendOrResumeKey : Ready 0x010F suspendVerb (keySlot 0x03 32 0x0003) (keySlot 0x03 32 0x0003) (verbIn 0x010F (block [(0, hA), (21, [1])]) [] 0) :=
  ready_verb _ _ _ _ _ rfl (by decide +kernel) rfl (fun _ => rfl)
theorem verb_deriveKey : Ready 0x0109 deriveVerb (keySlot 0x03 32 0x0100) (keySlot 0x03 32 0x0003) (verbIn 0x0109 (block [(0, hA), (8, [0x03, 16, 0x03, 0x00, 0]), (21, [1])]) [7] 104) :=
  ready_verb _ _ _ _ _ rfl (by decide +kernel) rfl (fun _ => rfl)
theorem verb_exportUnderPublicKey : Ready 0x010A wrapVerb (keySlot 0x21 3 0x0004) (keySlot 0x03 32 0x0003) (verbIn 0x010A (block [(0, hA), (4, hB)]) [] 2000) :=
  ready_verb _ _ _ _ _ rfl (by decide +kernel) rfl (fun _ => rfl)
theorem verb_pinVerifyOffset : Ready 0x0203 offsetVerifyVerb (keySlot 0x03 16 0x0080) (keySlot 0x03 16 0x0080) (verbIn 0x0203 (block [(0, hA), (4, hB), (8, [4]), (10, panBytes), (26, [4, 1])]) tableBytes 0) :=
  ready_verb _ _ _ _ _ rfl (by decide +kernel) rfl (fun _ => rfl)
theorem verb_pinVerifyVerificationValue : Ready 0x0205 valueVerifyVerb (keySlot 0x01 0 0x0080) (keySlot 0x01 0 0x0080) (verbIn 0x0205 (block [(0, hA), (4, hB), (8, [0]), (10, panBytes), (22, [9])]) [] 0) :=
  ready_verb _ _ _ _ _ rfl (by decide +kernel) rfl (fun _ => rfl)
theorem verb_cardVerificationValueGenerate : Ready 0x0301 cvvGenerateVerb (keySlot 0x01 0 0x2000) (keySlot 0x03 32 0x0003) (verbIn 0x0301 (block [(0, hA), (8, [5]), (10, panBytes), (20, [0x25, 0x12, 0x10, 0x1F])]) [] 3) :=
  ready_verb _ _ _ _ _ rfl (by decide +kernel) rfl (fun _ => rfl)
theorem verb_cardVerificationValueVerify : Ready 0x0302 cvvVerifyVerb (keySlot 0x01 0 0x2000) (keySlot 0x03 32 0x0003) (verbIn 0x0302 (block [(0, hA), (8, [3]), (10, panBytes), (20, [0x25, 0x12, 0x10, 0x1F, 0x12, 0x3F, 0xFF])]) [] 0) :=
  ready_verb _ _ _ _ _ rfl (by decide +kernel) rfl (fun _ => rfl)
theorem verb_arqcVerify : Ready 0x0401 arqcVerb (keySlot 0x03 16 0x4000) (keySlot 0x03 32 0x0003) (verbIn 0x0401 (block [(0, hA), (8, [1]), (10, panBytes)]) [1] 0) :=
  ready_verb _ _ _ _ _ rfl (by decide +kernel) rfl (fun _ => rfl)
theorem verb_arqcVerifyAndArpcGenerate : Ready 0x0402 arpcVerb (keySlot 0x01 0 0x4000) (keySlot 0x03 32 0x0003) (verbIn 0x0402 (block [(0, hA), (8, [5]), (10, panBytes)]) (List.replicate 256 0) 8) :=
  ready_verb _ _ _ _ _ rfl (by decide +kernel) rfl (fun _ => rfl)
theorem verb_encryptData : Ready 0x0501 encryptVerb (keySlot 0x03 32 0x0001) (keySlot 0x03 32 0x0003) (verbIn 0x0501 (block [(0, hA), (4, [0x07, 0, 16])]) [1, 2, 3] 19) :=
  ready_verb _ _ _ _ _ rfl (by decide +kernel) rfl (by intro k; cases k <;> decide +kernel)
theorem verb_decryptData : Ready 0x0502 decryptVerb (keySlot 0x01 0 0x0002) (keySlot 0x03 32 0x0003) (verbIn 0x0502 (block [(0, hA), (4, [0x12])]) (List.replicate 16 0) 16) :=
  ready_verb _ _ _ _ _ rfl (by decide +kernel) rfl (by intro k; cases k <;> decide +kernel)
theorem verb_macGenerate : Ready 0x0503 macGenerateVerb (keySlot 0x03 16 0x0010) (keySlot 0x03 32 0x0003) (verbIn 0x0503 (block [(0, hA), (4, [0x08, 0, 8])]) [1] 8) :=
  ready_verb _ _ _ _ _ rfl (by decide +kernel) rfl (fun _ => rfl)
theorem verb_macVerify : Ready 0x0504 macVerifyVerb (keySlot 0x04 64 0x0020) (keySlot 0x03 32 0x0003) (verbIn 0x0504 (block [(0, hA), (4, [0x62, 0, 4])]) [1] 0) :=
  ready_verb _ _ _ _ _ rfl (by decide +kernel) rfl (fun _ => rfl)
theorem rsa_redo (d : Device) (j : Job) (r : Bytes) (h : (rsaPrimesOf (newKey j).param.toNat (r.take (32 * (newKey j).param.toNat))).isNone = false) :
    (rsaGenerateVerb.run d j r).redo = false := by
  dsimp only [rsaGenerateVerb]
  rw [h]
  rfl
/-- That the drawn bytes lead to two primes is a premise: the candidates are open (11 R404). -/
def rsaNewJob : Job := verbIn 0x0601 (block [(16, [0x10, 8, 0x00, 0x02, 0])]) [] 1300
theorem verb_rsaKeyGeneration (found : (rsaPrimesOf 8 (List.replicate 256 0)).isNone = false) :
    Ready 0x0601 rsaGenerateVerb (keySlot 0x03 32 0x0003) (keySlot 0x03 32 0x0003) rsaNewJob :=
  ready_verb _ _ _ _ _ rfl (by decide +kernel) (by
    have hn : (newKey (verbJobDone rsaGenerateVerb (keySlot 0x03 32 0x0003) (keySlot 0x03 32 0x0003) rsaNewJob)).param.toNat = 8 := by
      decide +kernel
    have hb : (stepBytes rsaGenerateVerb (verbJobDone rsaGenerateVerb (keySlot 0x03 32 0x0003) (keySlot 0x03 32 0x0003) rsaNewJob)
        (verbDone rsaGenerateVerb (keySlot 0x03 32 0x0003) (keySlot 0x03 32 0x0003) rsaNewJob)).take (32 * 8) = List.replicate 256 0 := by
      decide +kernel
    refine rsa_redo _ _ _ ?_
    rw [hn, hb]
    exact found) (fun _ => rfl)
theorem verb_rsaEncrypt : Ready 0x0605 rsaEncryptVerb (keySlot 0x11 8 0x0001) (keySlot 0x03 32 0x0003) (verbIn 0x0605 (block [(0, hA), (8, [3, 0x22])]) (List.replicate 190 0) 256) :=
  ready_verb _ _ _ _ _ rfl (by decide +kernel) rfl (fun _ => rfl)
theorem verb_ecKeyGeneration : Ready 0x0606 ecPairVerb (keySlot 0x03 32 0x0003) (keySlot 0x03 32 0x0003) (verbIn 0x0606 (block [(16, [0x18, 3, 0x00, 0x03, 0])]) [] 262) :=
  ready_verb _ _ _ _ _ rfl (by decide +kernel) rfl (fun _ => rfl)
theorem ecdsa_redo (d : Device) (j : Job) (r k : Bytes) (hk : keyOf (keyA j) d = k)
    (h : let c := (headOf (keyA j) d).keyParam
      (ecdsaSign c (beNat k) (messageDigest j j.input) (scalarOf c (r.take (scalarDraw c.toNat)))
        (field r (scalarDraw c.toNat) (invertBlindBytes c))).isSome = true) : (ecdsaSignVerb.run d j r).redo = false := by
  obtain ⟨x, hx⟩ := Option.isSome_iff_exists.mp h
  dsimp only [ecdsaSignVerb]
  rw [hk, hx]
def ecKeySlot : Slot := keyed 256 (bytesBv 512 (fit 64 (beBytes 32 1))) (keySlot 0x18 1 0x0200)
def ecSignJob : Job := verbIn 0x0607 (block [(0, hA), (9, [0x22, 1])]) (List.replicate 32 0) 64
theorem verb_ecdsaSign : Ready 0x0607 ecdsaSignVerb ecKeySlot (keySlot 0x03 32 0x0003) ecSignJob :=
  ready_verb _ _ _ _ _ rfl (by decide +kernel)
    (ecdsa_redo _ _ _ (beBytes 32 1) ((keyOf_a _ _ _ _ (by decide) rfl).trans (by decide +kernel)) (by decide +kernel)) (fun _ => rfl)
theorem verb_eddsaKeyGeneration : Ready 0x060A edPairVerb (keySlot 0x03 32 0x0003) (keySlot 0x03 32 0x0003) (verbIn 0x060A (block [(16, [0x1A, 17, 0x00, 0x02, 0])]) [] 235) :=
  ready_verb _ _ _ _ _ rfl (by decide +kernel) rfl (fun _ => rfl)
theorem verb_eddsaSign : Ready 0x060B eddsaSignVerb (keySlot 0x1A 17 0x0200) (keySlot 0x03 32 0x0003) (verbIn 0x060B (block [(0, hA), (11, [255])]) (List.replicate 256 0) 114) :=
  ready_verb _ _ _ _ _ rfl (by decide +kernel) rfl (fun _ => rfl)
theorem verb_publicKeyImport : Ready 0x060D publicImportVerb (keySlot 0x03 32 0x0003) (keySlot 0x03 32 0x0003) (verbIn 0x060D (block [(16, [0x29, 44, 0x00, 0x04, 0])]) (List.replicate 1312 0) 1384) :=
  ready_verb _ _ _ _ _ rfl (by decide +kernel) rfl (fun _ => rfl)
theorem verb_mlKemKeyGeneration : Ready 0x0701 kemPairVerb (keySlot 0x03 32 0x0003) (keySlot 0x03 32 0x0003) (verbIn 0x0701 (block [(16, [0x20, 4, 0x08, 0x10, 0])]) [] 1696) :=
  ready_verb _ _ _ _ _ rfl (by decide +kernel) rfl (fun _ => rfl)
theorem verb_mlKemEncapsulate : Ready 0x0702 encapsulateVerb (keySlot 0x21 3 0x0800) (keySlot 0x03 32 0x0003) (verbIn 0x0702 (block [(0, hA), (16, [0x03, 32, 0x03, 0x00, 0])]) [] 1192) :=
  ready_verb _ _ _ _ _ rfl (by decide +kernel) rfl (fun _ => rfl)
theorem verb_mlKemDecapsulate : Ready 0x0703 decapsulateVerb (keySlot 0x20 2 0x1000) (keySlot 0x03 32 0x0003) (verbIn 0x0703 (block [(0, hA), (16, [0x03, 32, 0x03, 0x00, 0])]) (List.replicate 768 0) 104) :=
  ready_verb _ _ _ _ _ rfl (by decide +kernel) rfl (fun _ => rfl)
theorem verb_mlDsaKeyGeneration : Ready 0x0704 dsaPairVerb (keySlot 0x03 32 0x0003) (keySlot 0x03 32 0x0003) (verbIn 0x0704 (block [(16, [0x28, 87, 0x00, 0x02, 0])]) [] 2688) :=
  ready_verb _ _ _ _ _ rfl (by decide +kernel) rfl (fun _ => rfl)
theorem verb_mlDsaSign : Ready 0x0705 dsaSignVerb (keySlot 0x28 65 0x0200) (keySlot 0x03 32 0x0003) (verbIn 0x0705 (block [(0, hA), (8, [2, 0, 3])]) (List.replicate 64 0) 3309) :=
  ready_verb _ _ _ _ _ rfl (by decide +kernel) rfl (fun _ => rfl)
theorem verb_mlDsaVerify : Ready 0x0706 dsaVerifyVerb (keySlot 0x29 44 0x0400) (keySlot 0x03 32 0x0003) (verbIn 0x0706 (block [(0, hA), (8, [1])]) (List.replicate 2420 0) 0) :=
  ready_verb _ _ _ _ _ rfl (by decide +kernel) rfl (fun _ => rfl)
theorem verb_digest : Ready 0x0801 digestVerb (keySlot 0x03 32 0x0003) (keySlot 0x03 32 0x0003) (verbIn 0x0801 (block [(4, [0x22])]) [1] 32) :=
  ready_verb _ _ _ _ _ rfl (by decide +kernel) rfl (by intro k; cases k <;> decide +kernel)
theorem verb_retentionSign : Ready 0x0802 retentionVerb (keySlot 0x30 1 0x8000) (keySlot 0x03 32 0x0003) (verbIn 0x0802 (block [(0, hA)]) (List.replicate 32 0) 2828) :=
  ready_verb _ _ _ _ _ rfl (by decide +kernel) rfl (fun _ => rfl)
theorem verb_lmsHssKeyGeneration : Ready 0x0803 lmsGenerateVerb (keySlot 0x03 32 0x0003) (keySlot 0x03 32 0x0003) (verbIn 0x0803 (block [(16, [0x30, 8, 0x00, 0x80, 0])]) [] 172) :=
  ready_verb _ _ _ _ _ rfl (by decide +kernel) rfl (fun _ => rfl)
theorem verb_lmsHssVerify : Ready 0x0804 lmsVerifyVerb (keySlot 0x31 1 0x0400) (keySlot 0x03 32 0x0003) (verbIn 0x0804 (block [(0, hA)]) (List.replicate 2860 0) 0) :=
  ready_verb _ _ _ _ _ rfl (by decide +kernel) rfl (fun _ => rfl)
theorem verb_random : Ready 0x0901 randomVerb (keySlot 0x03 32 0x0003) (keySlot 0x03 32 0x0003) (verbIn 0x0901 (block []) [] 65536) :=
  ready_verb _ _ _ _ _ rfl (by decide +kernel) rfl (fun _ => rfl)
theorem verb_rsaVerify : Ready 0x0603 rsaVerifyVerb (keySlot 0x11 8 0x0400) (keySlot 0x03 32 0x0003)
    (verbIn 0x0603 (block [(0, hA), (8, [1, 0x24, 1])]) (List.replicate 320 0) 0) :=
  ready_verb _ _ _ _ _ rfl (by decide +kernel) rfl (fun _ => rfl)

/-- A verb that looks up no key and needs no engine, on any device. -/
def plainReady (v : Verb) (j : Job) (d : Device) : Bool :=
  decide (verbCode v d j = 0) && decide (v.handles d j = []) && decide (innerSlots v d j = []) && (kindsOf j d).isEmpty &&
  lastOf v d j && !j.safeMode && j.savedRows.isEmpty
theorem ready_plain (op : BitVec 16) (v : Verb) (j : Job) (d : Device) (hj : verbJob op core d = some j) (hd : bytesDrawn v j d)
    (h : plainReady v j d = true) : verbReady op v core j d := by
  simp only [plainReady, Bool.and_eq_true, decide_eq_true_eq, Bool.not_eq_true', List.isEmpty_iff] at h
  obtain ⟨⟨⟨⟨⟨⟨h1, h2⟩, h3⟩, h4⟩, h5⟩, h6⟩, h7⟩ := h
  refine ⟨⟨⟨hj, by unfold stateHere; rw [h7]; rfl, by unfold keysMissing; rw [h2, h3]; rfl, by unfold unsound; rw [h2, h3]; rfl, h1⟩, h5,
    by unfold enginesMissing; rw [h4]; rfl, by unfold blocksDone; rw [h4]; rfl, fun e => by rw [h6] at e; cases e⟩, hd⟩

/-- A job of tenant 0, the manager's. -/
def managerJob (op : BitVec 16) (params input : Bytes) (outCap : Nat) : Job := { jobOnCore op params input outCap with tenant := 0 }
/-- The device of a manager's job, with a certificate chain. -/
def managerDevice (j : Job) : Device := { running j with custody := { device.custody with chain := some [1, 2, 3] } }

theorem verb_purgeTenant : let j := managerJob 0x0110 (block [(20, [1])]) [] 0
    verbReady 0x0110 purgeVerb core j (managerDevice j) := ready_plain _ _ _ _ (verbJob_running _ _ _ rfl rfl rfl rfl rfl rfl rfl rfl) ⟨Or.inl rfl, Or.inl rfl, rfl⟩ (by decide +kernel)
theorem verb_readCertificateChain : let j := managerJob 0x0A21 (block []) [] 3
    verbReady 0x0A21 chainVerb core j (managerDevice j) := ready_plain _ _ _ _ (verbJob_running _ _ _ rfl rfl rfl rfl rfl rfl rfl rfl) ⟨Or.inl rfl, Or.inl rfl, rfl⟩ (by decide +kernel)
theorem verb_readEventLog : let j := managerJob 0x0A30 (block [(9, [0, 16])]) [] 64
    verbReady 0x0A30 eventLogVerb core j (managerDevice j) := ready_plain _ _ _ _ (verbJob_running _ _ _ rfl rfl rfl rfl rfl rfl rfl rfl) ⟨Or.inl rfl, Or.inl rfl, rfl⟩ (by decide +kernel)
theorem verb_mirrorConfigurationCopy : let j := managerJob 0x0A11 (block []) [] 0
    verbReady 0x0A11 mirrorVerb core j (managerDevice j) :=
  ready_plain _ _ _ _ (verbJob_running _ _ _ rfl rfl rfl rfl rfl rfl rfl rfl) ⟨Or.inl rfl, Or.inl rfl, rfl⟩ (by decide +kernel)
theorem verb_power : ∀ a ∈ [1, 2, 4, 5], let j := managerJob 0x0A50 (block [(0, [a])]) [] 0
    verbReady 0x0A50 powerVerb core j (managerDevice j) ∧ par j 0 1 = a := by
  intro a h
  refine ⟨ready_plain _ _ _ _ (verbJob_running _ _ _ rfl rfl rfl rfl rfl rfl rfl rfl) ⟨Or.inl rfl, Or.inl rfl, rfl⟩ ?_, ?_⟩ <;> revert a <;> decide +kernel
theorem verb_abandonNightPreparation : let j := managerJob 0x0A50 (block [(0, [3])]) [] 0
    let d := { managerDevice j with power := { mode := .preparingNight } }
    verbReady 0x0A50 powerVerb core j d ∧ par j 0 1 = 3 := ⟨ready_plain _ _ _ _ (verbJob_running _ _ _ rfl rfl rfl rfl rfl rfl rfl rfl) ⟨Or.inl rfl, Or.inl rfl, rfl⟩ (by decide +kernel), by decide +kernel⟩
/-- A component session of tenant 1 whose two components have come. -/
def twoComponents : CompSession :=
  { number := 1, tenant := 1, template := field (block [(0, [0x03, 32, 0x03, 0x00])]) 0 12, count := 2, components := [[1], [2]], opened := now }
/-- A device on which the verb reads the root of tenant 1 at most, with its blocks done. -/
def rootedReady (v : Verb) (d e : Device) (j : Job) : Bool :=
  let k := done v d j
  decide (verbCode v e k = 0) && decide (v.handles e k = []) && (innerSlots v e k).all (fun i => decide (handleSlot (handleOf i e) = 1)) &&
  chainSound 1 e && (keysMissing v e k).isEmpty && lastOf v e k && !j.safeMode && j.savedRows.isEmpty && decide (j.id = 0)
theorem ready_rooted (op : BitVec 16) (v : Verb) (j : Job) (d e : Device) (hj : verbJob op core e = some (done v d j))
    (hd : bytesDrawn v (done v d j) e) (hp : e.pins = device.pins) (hs : e.shares = { grants := [grantIn 0 now, grantIn 1 now, grantIn 2 now] })
    (hb : ∀ k, v.blocks k e (done v d j) = v.blocks k d j) (h : rootedReady v d e j = true) : verbReady op v core (done v d j) e := by
  simp only [rootedReady, Bool.and_eq_true, decide_eq_true_eq, Bool.not_eq_true', List.isEmpty_iff, List.all_eq_true] at h
  obtain ⟨⟨⟨⟨⟨⟨⟨⟨h1, h2⟩, h3⟩, h4⟩, h5⟩, h6⟩, h7⟩, h8⟩, h9⟩ := h
  refine ⟨⟨⟨hj, ?_, h5, ?_, h1⟩, h6, engines_held _ _ hp hs h9, blocksDone_done _ _ _ _ hb, ?_⟩, hd⟩
  · have e' : (done v d j).savedRows = [] := h8
    unfold stateHere
    rw [e']; rfl
  · unfold unsound
    rw [h2, List.find?_eq_none]
    intro x hx
    obtain ⟨i, hi, rfl⟩ := List.mem_map.mp (by simpa using hx)
    rw [h3 i hi, h4]
    simp
  · intro e'
    have e'' : j.safeMode = true := e'
    rw [h7] at e''; cases e''
def completeJob : Job := verbIn 0x0108 (block [(24, [1])]) [] 104
def completeDevice (j : Job) : Device :=
  { verbDevice slotIn slotIn j with custody := { device.custody with sessions := [twoComponents] } }
def completeDone : Job := done completeVerb (completeDevice completeJob) completeJob
theorem verb_componentComplete : verbReady 0x0108 completeVerb core completeDone (completeDevice completeDone) :=
  ready_rooted _ _ _ _ _ (verbJob_running _ _ _ rfl rfl rfl rfl rfl rfl rfl rfl)
    (bytesDrawn_room _ _ _ rfl rfl rfl (by decide +kernel) (Or.inl (by decide +kernel)) rfl) rfl rfl (fun _ => rfl) (by decide +kernel)
theorem verb_closeRootRotation : let j := verbIn 0x010D (block [(20, [1])]) [] 0
    verbReady 0x010D closeVerb core j { verbDevice slotIn slotIn j with
      keys := { (verbDevice slotIn slotIn j).keys with sweeps := [(0, { tenant := 1, complete := true })] } } :=
  ready_plain _ _ _ _ (verbJob_running _ _ _ rfl rfl rfl rfl rfl rfl rfl rfl) ⟨Or.inl rfl, Or.inl rfl, rfl⟩ (by decide +kernel)

/-! Verbs with a check that reads a key: the key is known by `keyOf_a` or `keyOf_b`, and the rest is evaluated. -/

theorem firstCode_cons {c : Code} {t : List Code} (hc : c = 0) (ht : firstCode t = 0) : firstCode (c :: t) = 0 := by
  simp [firstCode, hc, ht]
theorem need_ok {b : Bool} {c : Code} (h : b = true) : need b c = 0 := by simp [need, h]

/-- `ready` without the verb's own checks, and those apart. -/
def readyBut (v : Verb) (a b : Slot) (j : Job) : Bool := ready { v with checks := fun _ _ => 0 } a b j

theorem gated_zero {v : Verb} {d : Device} {j : Job} (hk : v.checks d j = 0) (hg : gateCode d j = 0) : gatedCode v d j = 0 := by
  simp [gatedCode, keyCode, firstCode, hk, hg]
theorem code_gate {v : Verb} {d : Device} {j : Job} (h : verbCode { v with checks := fun _ _ => 0 } d j = 0) (hk : v.checks d j = 0) :
    verbCode v d j = 0 := by
  have e : gatedCode v d j = gatedCode { v with checks := fun _ _ => 0 } d j := by unfold gatedCode; rw [hk]
  unfold verbCode at h ⊢
  rw [e]
  exact h
theorem readyBut_verb (op : BitVec 16) (v : Verb) (a b : Slot) (j : Job) (hj : j = verbIn op j.params j.input j.outCap) (h : readyBut v a b j = true)
    (hr : (v.run (verbDone v a b j) (verbJobDone v a b j) (stepBytes v (verbJobDone v a b j) (verbDone v a b j))).redo = false)
    (hb : ∀ k, v.blocks k (verbDone v a b j) (verbJobDone v a b j) = v.blocks k (verbDevice a b j) j)
    (hc : v.checks (verbDone v a b j) (verbJobDone v a b j) = 0) : Ready op v a b j := by
  obtain ⟨⟨⟨g1, g2, g3, g4, g5⟩, g6⟩, g7⟩ := ready_verb op { v with checks := fun _ _ => 0 } a b j hj h hr hb
  exact ⟨⟨⟨g1, g2, g3, g4, code_gate g5 hc⟩, g6⟩, g7⟩

/-- PIN jobs: of zone keys at both slots, from format 4 to format 0; of base keys; generations. -/
def pinBytes : List Nat := [0xA9, 0x87, 0xBA, 0x56, 0x63, 0x94, 0xE4, 0x09, 0xD6, 0x33, 0xE3, 0x52, 0x78, 0x9A, 0x9B, 0x14]
def zoneJob : Job := verbIn 0x0201 (block [(0, hA), (4, hB), (8, [4, 0]), (10, panBytes), (32, pinBytes)]) [] 8
def aesPinKey : Slot := keyed 256 0 (keySlot 0x03 16 0x0080)
def tdesOutKey : Slot := keySlot 0x01 0 0x0040
theorem verb_pinTranslateZoneToZone : Ready 0x0201 zoneVerb aesPinKey tdesOutKey zoneJob :=
  readyBut_verb _ _ _ _ _ rfl (by decide +kernel) rfl (fun _ => rfl) (by
    have hk : keyOf (keyA (verbJobDone zoneVerb aesPinKey tdesOutKey zoneJob)) (verbDone zoneVerb aesPinKey tdesOutKey zoneJob) = List.replicate 16 0 :=
      (keyOf_a 0 (keySlot 0x03 16 0x0080) tdesOutKey (verbJobDone zoneVerb aesPinKey tdesOutKey zoneJob) (by decide) rfl).trans (by decide +kernel)
    generalize hd : verbDone zoneVerb aesPinKey tdesOutKey zoneJob = d at hk ⊢
    generalize hj : verbJobDone zoneVerb aesPinKey tdesOutKey zoneJob = j at hk ⊢
    dsimp only [zoneVerb]
    unfold secretOf
    rw [hk]
    subst hd hj
    decide +kernel)
/-- The KSN's counter is 1 of 32 bits; the PIN block stands under the key of that transaction, by ANSI X9.24-3. -/
def dukptBytes : List Nat := [0x75, 0x30, 0x1F, 0x5F, 0x9B, 0x9A, 0xCB, 0xF1, 0x2E, 0x8D, 0xC9, 0x69, 0x8F, 0xFD, 0xA0, 0x65]
def dukptJob : Job :=
  verbIn 0x0202 (block [(0, hA), (4, hB), (8, [4, 4]), (10, panBytes), (20, [0, 0, 0, 0, 0, 0, 0, 0, 0, 0, 0, 1]), (32, dukptBytes)]) [] 16
def aesBaseKey : Slot := keyed 256 0 (keySlot 0x06 16 0x0100)
def aesOutKey : Slot := keySlot 0x03 16 0x0040
theorem verb_pinTranslateDukptToZone : Ready 0x0202 dukptVerb aesBaseKey aesOutKey dukptJob :=
  readyBut_verb _ _ _ _ _ rfl (by decide +kernel) rfl (fun _ => rfl) (by
    have hk : keyOf (keyA (verbJobDone dukptVerb aesBaseKey aesOutKey dukptJob)) (verbDone dukptVerb aesBaseKey aesOutKey dukptJob) = List.replicate 16 0 :=
      (keyOf_a 0 (keySlot 0x06 16 0x0100) aesOutKey (verbJobDone dukptVerb aesBaseKey aesOutKey dukptJob) (by decide) rfl).trans (by decide +kernel)
    generalize hd : verbDone dukptVerb aesBaseKey aesOutKey dukptJob = d at hk ⊢
    generalize hj : verbJobDone dukptVerb aesBaseKey aesOutKey dukptJob = j at hk ⊢
    dsimp only [dukptVerb]
    unfold receivedKey secretOf
    rw [hk]
    subst hd hj
    decide +kernel)
/-- A PIN of 12 digits, 123456789012. -/
def longPinBytes : List Nat := [0xCC, 0x41, 0x0F, 0xE6, 0x9F, 0xDC, 0xFE, 0x7E, 0xBC, 0xE2, 0x32, 0xF3, 0xA4, 0xBD, 0x51, 0x69]
def offsetJob : Job := verbIn 0x0204 (block [(0, hA), (4, hB), (8, [4]), (10, panBytes), (26, [12, 1]), (32, longPinBytes)]) tableBytes 6
def otherPinKey : Slot := keySlot 0x03 16 0x0080
theorem verb_pinOffsetGenerate : Ready 0x0204 offsetGenerateVerb aesPinKey otherPinKey offsetJob :=
  readyBut_verb _ _ _ _ _ rfl (by decide +kernel) rfl (fun _ => rfl) (by
    have hk : keyOf (keyA (verbJobDone offsetGenerateVerb aesPinKey otherPinKey offsetJob)) (verbDone offsetGenerateVerb aesPinKey otherPinKey offsetJob) = List.replicate 16 0 :=
      (keyOf_a 0 (keySlot 0x03 16 0x0080) otherPinKey (verbJobDone offsetGenerateVerb aesPinKey otherPinKey offsetJob) (by decide) rfl).trans (by decide +kernel)
    generalize hd : verbDone offsetGenerateVerb aesPinKey otherPinKey offsetJob = d at hk ⊢
    generalize hj : verbJobDone offsetGenerateVerb aesPinKey otherPinKey offsetJob = j at hk ⊢
    dsimp only [offsetGenerateVerb]
    unfold offsetChecks secretOf
    rw [hk]
    subst hd hj
    decide +kernel)
def valueJob : Job := verbIn 0x0206 (block [(0, hA), (4, hB), (8, [4]), (10, panBytes), (22, [0]), (32, pinBytes)]) [] 2
def tdesPinKey : Slot := keySlot 0x01 0 0x0080
theorem verb_pinVerificationValueGenerate : Ready 0x0206 valueGenerateVerb aesPinKey tdesPinKey valueJob :=
  readyBut_verb _ _ _ _ _ rfl (by decide +kernel) rfl (fun _ => rfl) (by
    have hk : keyOf (keyA (verbJobDone valueGenerateVerb aesPinKey tdesPinKey valueJob)) (verbDone valueGenerateVerb aesPinKey tdesPinKey valueJob) = List.replicate 16 0 :=
      (keyOf_a 0 (keySlot 0x03 16 0x0080) tdesPinKey (verbJobDone valueGenerateVerb aesPinKey tdesPinKey valueJob) (by decide) rfl).trans (by decide +kernel)
    generalize hd : verbDone valueGenerateVerb aesPinKey tdesPinKey valueJob = d at hk ⊢
    generalize hj : verbJobDone valueGenerateVerb aesPinKey tdesPinKey valueJob = j at hk ⊢
    dsimp only [valueGenerateVerb]
    unfold valueChecks secretOf
    rw [hk]
    subst hd hj
    decide +kernel)
def originJob : Job := verbIn 0x0207 (block [(0, hA), (4, hB), (8, [4, 4]), (10, panBytes), (32, pinBytes)]) [] 28
def originKey : Slot := keyed 257 0 (keySlot 0x06 16 0x0040)
theorem verb_pinTranslateZoneToDukpt : Ready 0x0207 originatorVerb aesPinKey originKey originJob :=
  readyBut_verb _ _ _ _ _ rfl (by decide +kernel) rfl (fun _ => rfl) (by
    have hk : keyOf (keyA (verbJobDone originatorVerb aesPinKey originKey originJob)) (verbDone originatorVerb aesPinKey originKey originJob) = List.replicate 16 0 :=
      (keyOf_a 0 (keySlot 0x03 16 0x0080) originKey (verbJobDone originatorVerb aesPinKey originKey originJob) (by decide) rfl).trans (by decide +kernel)
    have hl : keyOf (keyB (verbJobDone originatorVerb aesPinKey originKey originJob)) (verbDone originatorVerb aesPinKey originKey originJob) = List.replicate 44 0 :=
      (keyOf_b 0 aesPinKey (keySlot 0x06 16 0x0040) (verbJobDone originatorVerb aesPinKey originKey originJob) (by decide) rfl).trans (by decide +kernel)
    generalize hd : verbDone originatorVerb aesPinKey originKey originJob = d at hk hl ⊢
    generalize hj : verbJobDone originatorVerb aesPinKey originKey originJob = j at hk hl ⊢
    dsimp only [originatorVerb]
    unfold committedCounter committedKsn secretOf
    rw [hk, hl]
    subst hd hj
    decide +kernel)

/-- Key information: that the open function's value fits the output area is a premise. -/
def infoJob : Job := verbIn 0x0111 (block [(0, hA)]) [] 64
theorem verb_keyInformation
    (room : (Config.keyInformation (infoBytes (keyA (verbJobDone infoVerb slotIn slotIn infoJob)) (verbDone infoVerb slotIn slotIn infoJob))).length ≤ 64) :
    Ready 0x0111 infoVerb slotIn slotIn infoJob := by
  refine ready_code _ _ _ _ _ rfl ?_ (by decide +kernel) rfl (fun _ => rfl)
  unfold verbCode
  refine firstCode_cons ?_ (firstCode_cons (gated_zero (by decide +kernel) (by decide +kernel)) rfl)
  unfold decodeCode
  refine firstCode_cons (by decide +kernel) (firstCode_cons (need_ok (decide_eq_true ?_)) rfl)
  generalize verbDone infoVerb slotIn slotIn infoJob = d at room ⊢
  have ho : outRoom d (verbJobDone infoVerb slotIn slotIn infoJob) = 64 := rfl
  rw [ho]
  generalize verbJobDone infoVerb slotIn slotIn infoJob = j at room ⊢
  dsimp only [infoVerb]
  split
  · exact room
  · exact Nat.zero_le _

/-- A key block of version D under an AES key of zeros: a PIN encryption key of TDES, exportable. -/
def keyBlock : Bytes :=
  [0x44, 0x30, 0x31, 0x31, 0x32, 0x50, 0x30, 0x54, 0x45, 0x30, 0x30, 0x45, 0x30, 0x30, 0x30, 0x30] ++
  [0x42, 0x42, 0x33, 0x38, 0x44, 0x42, 0x44, 0x37, 0x34, 0x44, 0x41, 0x41, 0x36, 0x38, 0x32, 0x43] ++
  [0x44, 0x37, 0x34, 0x46, 0x33, 0x42, 0x33, 0x38, 0x46, 0x33, 0x45, 0x35, 0x36, 0x36, 0x43, 0x32] ++
  [0x35, 0x34, 0x41, 0x34, 0x43, 0x39, 0x37, 0x37, 0x45, 0x32, 0x42, 0x46, 0x32, 0x33, 0x43, 0x35] ++
  [0x30, 0x38, 0x45, 0x42, 0x32, 0x30, 0x42, 0x46, 0x32, 0x32, 0x31, 0x39, 0x31, 0x45, 0x36, 0x44] ++
  [0x36, 0x30, 0x33, 0x32, 0x38, 0x35, 0x43, 0x41, 0x43, 0x37, 0x30, 0x32, 0x31, 0x30, 0x30, 0x43] ++
  [0x43, 0x41, 0x31, 0x42, 0x42, 0x38, 0x32, 0x35, 0x36, 0x30, 0x42, 0x41, 0x34, 0x36, 0x36, 0x36]
def importJob : Job := verbIn 0x0102 (block [(0, hA)]) keyBlock 104
def kbpkSlot : Slot := keyed 256 0 (keySlot 0x03 16 0x0008)
def pinRow : HeaderRow := { codes := ["P0"], classes := [0x01, 0x02, 0x03], modes := [('E', 0x0040), ('D', 0x0080), ('B', 0x00C0)] }
theorem keyBlock_code : headerCode keyBlock = 0 := by decide +kernel
theorem importDraft_code (d : Device) (j : Job) (t : Template) (b kbpk key : Bytes) (r : HeaderRow) (bits : BitVec 16) (aes : Bool)
    (cp : Byte × Byte) (hu : keyBlockUnwrap (charAt b 0 = 'D') kbpk b = some key) (hx : headerUse b = some (r, bits))
    (ha : headerAes b = some aes) (hc : headerClass r aes key.length = some cp) (ho : r.codes.contains "B1" = false) :
    draftCode d j (importDraft b kbpk t) = 0 := by
  unfold importDraft
  simp only [hu, hx, ha, hc, ho]
  rfl
theorem keyBlock_draft (kbpk : Bytes) (hk : kbpk = List.replicate 16 0) (t : Template) (d : Device) (j : Job) :
    draftCode d j (importDraft keyBlock kbpk t) = 0 := by
  have hu : keyBlockUnwrap (charAt keyBlock 0 = 'D') (List.replicate 16 0) keyBlock = some ((List.range 16).map (fun i => BitVec.ofNat 8 (i + 1))) := by
    decide +kernel
  have hx : headerUse keyBlock = some (pinRow, 0x0040) := by
    unfold headerUse
    rewrite [show charAt keyBlock 5 = 'P' from by decide +kernel, show charAt keyBlock 6 = '0' from by decide +kernel,
      show charAt keyBlock 8 = 'E' from by decide +kernel]
    rfl
  have ha : headerAes keyBlock = some false := by decide +kernel
  subst hk
  exact importDraft_code d j t _ _ _ _ _ _ (0x01, 0) hu hx ha (by decide +kernel) (by decide +kernel)
theorem verb_importKeyBlock : Ready 0x0102 importVerb kbpkSlot slotIn importJob := by
  have hk : keyOf (keyA (verbJobDone importVerb kbpkSlot slotIn importJob)) (verbDone importVerb kbpkSlot slotIn importJob) = List.replicate 16 0 :=
    (keyOf_a 0 (keySlot 0x03 16 0x0008) slotIn (verbJobDone importVerb kbpkSlot slotIn importJob) (by decide) rfl).trans (by decide +kernel)
  refine ready_code _ _ _ _ _ rfl ?_ (by decide +kernel) ?_ (fun _ => rfl)
  · unfold verbCode
    refine firstCode_cons ?_ (firstCode_cons (gated_zero ?_ (by decide +kernel)) rfl)
    · unfold decodeCode
      generalize hd : verbDone importVerb kbpkSlot slotIn importJob = d at *
      generalize hj : verbJobDone importVerb kbpkSlot slotIn importJob = j at *
      dsimp only [importVerb]
      subst hd hj
      exact firstCode_cons (firstCode_cons (by decide +kernel) (firstCode_cons (by decide +kernel) (firstCode_cons (by decide +kernel)
        (firstCode_cons (by decide +kernel) (firstCode_cons keyBlock_code rfl))))) (firstCode_cons (by decide +kernel) rfl)
    · generalize hd : verbDone importVerb kbpkSlot slotIn importJob = d at *
      generalize hj : verbJobDone importVerb kbpkSlot slotIn importJob = j at *
      dsimp only [importVerb]
      subst hd hj
      refine (if_neg (by decide +kernel)).trans ?_
      exact firstCode_cons (by decide +kernel) (firstCode_cons (keyBlock_draft _ hk _ _ _) (firstCode_cons (by decide +kernel) rfl))
  · generalize verbDone importVerb kbpkSlot slotIn importJob = d
    generalize verbJobDone importVerb kbpkSlot slotIn importJob = j
    dsimp only [importVerb]
    split <;> rfl

/-- A persistence block of an AES key of zeros, encrypted under the root of tenant 1. -/
def restoreHead : Bytes := [1, 0, 1, 1, 1, 0x03, 16, 1] ++ [0x03, 16, 3, 0] ++ List.replicate 36 0
def restoreKey : Bytes := persKey 0x01 []
def restoreBody : Bytes := gcmXor restoreKey (field restoreHead 36 12) (List.replicate 16 0)
def restoreJob : Job := verbIn 0x0104 (block []) (restoreHead ++ restoreBody ++ gcmTagOf restoreKey (field restoreHead 36 12) restoreHead restoreBody) 8
theorem verb_restorePersistenceBlock : Ready 0x0104 restoreVerb slotIn slotIn restoreJob :=
  ready_verb _ _ _ _ _ rfl (by decide +kernel) (by
    generalize verbDone restoreVerb slotIn slotIn restoreJob = d
    generalize verbJobDone restoreVerb slotIn slotIn restoreJob = j
    dsimp only [restoreVerb]
    split <;> rfl) (fun _ => rfl)

/-! An RSA-2048 key of OpenSSL in a chain of eleven slots (03 R82), and two ciphertexts under it. -/

def rsaP : Nat := 0xCBA98D098EF41E9EA7FA73D6F0E4C86A8E4B629F99BEA223814DEC20A448FDB6F658ED2694E13C8830A05154117CECEC224AF01F21E0AD2D7A18A334FE98F61EBAAD6ECC5AB32F041D1A2E7C935BD153AFF5D7CC66C95189BEFB2D1AA9CC4E9DDBE04107FFA19E00860648DD6EC72B50E54E92DEB7B858B91C9E085DA1A4F553
def rsaQ : Nat := 0xBB65CA704DF9B0A2B6BE11037D5142BF76B6867D297A0C8FD4936B2E890E74F1616E573FD1C6EEE0060A50398018D47BDFD33D472C0B7D145ECF6D01D9BAFC170118C23CBAF486E4A6489DAFB6D70D774F5BFBA040812280E5C79B4AF569F6416BD06969C1254968DCDC8D55022F9AA731A83528591D12D2DC48CAC809F9A329
def rsaDp : Nat := 0x6BFD25399241431321429DB5B4D9BAA3357C2779350E6DEEA19B6DBF091D62DA66D9543606EF3F277F91224E8F4F4C5910FDE740BAB7E55B9DC7FE9215058A4B54F4AD31524E7C7993ECD4055E256B6312842ABEC929AA407DB1B582D3D1EF45A8D6C9E4B1D9426C48A480725950E658E89DB726BD07D493A2E6F0CCA4EF50DD
def rsaDq : Nat := 0x2741C6ABCA19F17FD4AA7263F9BFA92CF4D07DD2007B59E05396E250285407F97D00A174741CA973F2AFFC685F465454F2E98C9FB9415ADD86930B71E4CBBFFD8DB4431477D1BBE470552BFB606122A808CEEB228200CB5A97483E66F08C57131363E0814FFDE0A800048FF2EBF74EFD91707C5A4C78C3B5BA81E141109DE429
def rsaQinv : Nat := 0x51BF0E7A1D56B734B45EBCE6219370EF5F5AA799604E7FF1AC9B9456A5235239CD39C80D815E38BBEA832A98F55DEF67902D966EE853088AC53D2EF719B943029DDA15841ECC06E536412B88999F8805C79659061412AF37669626D1FE53EF463C06FCE29F8C004060170BC88280B90936435282085B8F72EB1AAD57F855412B
/-- OAEP of the bytes 1, 2, 3, and of 32 bytes of zeros. -/
def cipherShort : Nat := 0x5F3D52432B668B04FC23CEECBFBB96D19BE56442B0867C6EAB71E7A5A51B99C95D99916A7B723932B7740F840C739E94C8A2E1F0679E5334E4D119556D2938F98299BD1977954FE8D87DEEA3170C4AAE1C5F07FFC2A4A8158806A64270D33A9DF0BDF9A9FE0ED1A1684973D0782376C5574F9D761AD80DC324A743CBFCEB2D897BFAE7BB9A75D9F501A00EECB78A3CE1F465E97A08BA7AF6B3355F669FB66F4F7BD9F24223C6B8B16C8DE61CDBAE2B1631857A2FF69DDC745BB5287A6C3F9EF33217002BAA0DA72C4FFCB61B3ACF1529CA6DE37B4EF83E77F0C43445C04A98B6B6CDAD5260916E601D445B5F354129E2987257CC7E63AFCDDD0E3C7BAFD17D22
def cipherKey : Nat := 0x92BFA5277B888FF099F347028791330289B9CEF098A1515ED692055C75938FB1C7DFF20E3DC67BE31327CA13D9975300AD7D936B0F1FAD4F03E4C7A0273788121A7D6FA61147573EC035FFEDF18A76CC6C5934D19D041135447E5DAE234EACEB06BB8EDEAA6352D8E85D8A1F50B72F89770C08890A616AE22CB57E2D14954A2E63600C0E32F86E2D9A15340EAFEDF713AD2160B14687E8E78C0F9E6554DE220AC48977F2C9325B1287382B74281C5FA434228DFCAAA01E72DFB01FB973CBB25E6A4241FC89D7EE1765E88F471EEDF35F2E805BD4D2243E237C0FF04622F2B31229BF65EC9238B2DE467DD4ED9B1613FE0100B26D8291E5594E30ED66372A0923
def rsaClear : Bytes :=
  beBytes 128 rsaP ++ beBytes 128 rsaQ ++ beBytes 128 rsaDp ++ beBytes 128 rsaDq ++ beBytes 128 rsaQinv ++ beBytes 8 65537
/-- The 64 bytes of a slot of the chain, and the slot. -/
def rsaPiece (i : Nat) : BitVec 512 := bytesBv 512 (fit 64 ((rsaClear.drop (64 * (i - 256))).take 64))
def rsaLink (usage i : Nat) : Slot :=
  { keySlot 0x10 8 usage with state := if i = 256 then .active else .continuation, next := i + 1, last := i = 266, length := if i = 256 then 11 else 0 }
def rsaStored (usage i : Nat) : Slot := retag device.custody i (keyed i (rsaPiece i) (rsaLink usage i))
def rsaDevice (usage : Nat) (j : Job) : Device :=
  { verbDevice slotIn slotIn j with keys := { device.keys with
      slots := (1, { tenant := 1, state := .root, suite := 1, rootVersion := 1 }) :: (List.range' 256 11).map (fun i => (i, rsaStored usage i)) } }
theorem rsa_stored (usage : Nat) (j : Job) : ∀ i ∈ List.range' 256 11, slotOf i (rsaDevice usage j).keys = rsaStored usage i := by
  intro i hi
  simp only [List.range', List.mem_cons, List.not_mem_nil, or_false] at hi
  rcases hi with h | h | h | h | h | h | h | h | h | h | h <;> (subst h; rfl)
theorem rsaStored_last (usage i : Nat) : (rsaStored usage i).last = decide (i = 266) := rfl
theorem rsaStored_next (usage i : Nat) : (rsaStored usage i).next = i + 1 := rfl
theorem rsaStored_length (usage : Nat) : (rsaStored usage 256).length = 11 := rfl
theorem rsa_chainGo (usage : Nat) (j : Job) : ∀ n i, 256 ≤ i → i + n = 267 → chainGo (rsaDevice usage j).keys n i = List.range' i n := by
  intro n
  induction n with
  | zero => intro i _ _; rfl
  | succ n ih =>
    intro i h1 h2
    have hs := rsa_stored usage j i (by rw [List.mem_range'_1]; omega)
    simp only [chainGo, hs, rsaStored_last, rsaStored_next, List.range'_succ]
    by_cases hl : i = 266
    · have hn : n = 0 := by omega
      subst hn hl; rfl
    · rw [if_neg (by simpa using hl), ih (i + 1) (by omega) (by omega)]
theorem rsa_chain (usage : Nat) (j : Job) : chainOf 256 (rsaDevice usage j).keys = List.range' 256 11 := by
  unfold chainOf
  rw [rsa_stored usage j 256 (by decide), rsaStored_length]
  exact rsa_chainGo usage j 11 256 (by decide) (by decide)
theorem rsa_sound (usage : Nat) (j : Job) : chainSound 256 (rsaDevice usage j) = true := by
  unfold chainSound
  rw [rsa_chain, List.all_eq_true]
  intro i hi
  rw [rsa_stored usage j i hi, show tagOk (rsaDevice usage j).custody i (rsaStored usage i) = true from retag_sound device.custody i _]
  rfl
theorem rsa_key (usage : Nat) (j : Job) (h : BitVec 32) (hh : handleSlot h = 256) (ho : isOriginator 0x10 (BitVec.ofNat 16 usage) = false) :
    keyOf h (rsaDevice usage j) = rsaClear := by
  have hd : ∀ i ∈ List.range' 256 11, bvBytes 64 (delivered (rsaDevice usage j).custody i (slotOf i (rsaDevice usage j).keys)) = bvBytes 64 (rsaPiece i) := by
    intro i hi
    rw [rsa_stored usage j i hi]
    exact congrArg (bvBytes 64) (keyed_delivered i (rsaPiece i) (rsaLink usage i))
  have h0 : slotOf 256 (rsaDevice usage j).keys = rsaStored usage 256 := rsa_stored usage j 256 (by decide)
  unfold keyOf keyBytes
  rw [hh, rsa_chain, List.flatMap_congr hd, h0]
  show ((List.range' 256 11).flatMap (fun i => bvBytes 64 (rsaPiece i))).take (materialLen 0x10 8 (isOriginator 0x10 (BitVec.ofNat 16 usage))) = rsaClear
  rw [ho]
  decide +kernel

/-- OpenSSL's ciphertext opens under the private operation, whatever blinds base and exponents (06 R210). -/
theorem test_rsa_blinded : rsaDecode 8 (rsaPrivateOp 8 rsaClear (List.replicate 272 3) cipherShort) = some [1, 2, 3] := by
  unfold rsaPrivateOp
  decide +kernel

/-- A verb that looks up the RSA key, on a job whose blocks are done: its own checks apart. -/
def rsaDone (v : Verb) (usage : Nat) (j : Job) : Job := done v (rsaDevice usage j) j
def rsaHeld (v : Verb) (usage : Nat) (j : Job) : Device := rsaDevice usage (rsaDone v usage j)
def rsaFits (v : Verb) (usage : Nat) (j : Job) : Bool :=
  let d := rsaHeld v usage j
  let j := rsaDone v usage j
  decide (verbCode { v with checks := fun _ _ => 0 } d j = 0) && (keysMissing v d j).isEmpty &&
  (v.handles d j).all (fun h => decide (handleSlot h = 256)) && (innerSlots v d j).all (fun i => decide (handleSlot (handleOf i d) = 1)) &&
  lastOf v d j && decide (v.draws d j ≤ room) && !v.fresh j
theorem rsa_blocks (v : Verb) (usage : Nat) (j : Job) (hv : v.blocks = plainVerb.blocks) (k : EngineKind) :
    v.blocks k (rsaHeld v usage j) (rsaDone v usage j) = v.blocks k (rsaDevice usage j) j := by
  rw [hv]
  rfl
theorem rsa_ready (op : BitVec 16) (v : Verb) (usage : Nat) (j : Job) (hj : j = verbIn op j.params j.input j.outCap) (h : rsaFits v usage j = true)
    (he : v.early (rsaHeld v usage j) (rsaDone v usage j) = 0 ∨ v.late (rsaHeld v usage j) (rsaDone v usage j)
      ((rsaDone v usage j).drawn.take (v.early (rsaHeld v usage j) (rsaDone v usage j))) = 0)
    (hr : (v.run (rsaHeld v usage j) (rsaDone v usage j) (stepBytes v (rsaDone v usage j) (rsaHeld v usage j))).redo = false)
    (hb : ∀ k, v.blocks k (rsaHeld v usage j) (rsaDone v usage j) = v.blocks k (rsaDevice usage j) j)
    (hk : v.checks (rsaHeld v usage j) (rsaDone v usage j) = 0) : verbReady op v core (rsaDone v usage j) (rsaHeld v usage j) := by
  simp only [rsaFits, Bool.and_eq_true, decide_eq_true_eq, Bool.not_eq_true', List.isEmpty_iff, List.all_eq_true] at h
  obtain ⟨⟨⟨⟨⟨⟨h2, h6⟩, h3⟩, h4⟩, h5⟩, h8⟩, h9⟩ := h
  have hd : (rsaDone v usage j).drawn = List.replicate room 0 := by show j.drawn = _; rw [hj]; rfl
  refine ⟨⟨⟨verbJob_running _ _ _ ?_ ?_ ?_ ?_ rfl rfl rfl rfl, ?_, h6, ?_, code_gate h2 hk⟩, h5, ?_, blocksDone_done _ _ _ _ hb, ?_⟩,
    bytesDrawn_room v _ _ hd ?_ h9 h8 he hr⟩
  · show j.recipe = op; rw [hj]; rfl
  · show j.id = 0; rw [hj]; rfl
  · show j.place = _; rw [hj]; rfl
  · show j.staged = _; rw [hj]; rfl
  · have e : (rsaDone v usage j).savedRows = [] := by show j.savedRows = _; rw [hj]; rfl
    unfold stateHere
    rw [e]; rfl
  · unfold unsound
    rw [List.find?_eq_none]
    intro x hx
    rcases List.mem_append.mp hx with hx | hx
    · rw [h3 x (List.mem_filter.mp hx).1, rsaHeld, rsa_sound]; simp
    · obtain ⟨i, hi, rfl⟩ := List.mem_map.mp hx
      rw [h4 i hi, show chainSound 1 (rsaHeld v usage j) = true from rfl]; simp
  · exact engines_held _ _ rfl rfl (by show j.id = 0; rw [hj]; rfl)
  · intro e
    have e' : j.safeMode = true := e
    rw [hj] at e'; cases e'
  · show j.step = 0; rw [hj]; rfl

def decryptJob : Job := verbIn 0x0604 (block [(0, hA), (8, [3, 0x22])]) (beBytes 256 cipherShort) 190
theorem verb_rsaDecrypt : verbReady 0x0604 rsaDecryptVerb core (rsaDone rsaDecryptVerb 0x0002 decryptJob) (rsaHeld rsaDecryptVerb 0x0002 decryptJob) := by
  have hk : keyOf (keyA (rsaDone rsaDecryptVerb 0x0002 decryptJob)) (rsaHeld rsaDecryptVerb 0x0002 decryptJob) = rsaClear :=
    rsa_key 0x0002 (rsaDone rsaDecryptVerb 0x0002 decryptJob) (keyA (rsaDone rsaDecryptVerb 0x0002 decryptJob)) (by decide +kernel) (by decide)
  refine rsa_ready _ _ _ _ (verbIn_own _ _ _ _) (by decide +kernel) (Or.inl rfl) ?_ (rsa_blocks _ _ _ rfl) ?_
  · generalize rsaHeld rsaDecryptVerb 0x0002 decryptJob = d
    generalize rsaDone rsaDecryptVerb 0x0002 decryptJob = j
    dsimp only [rsaDecryptVerb]
    split <;> rfl
  · generalize hd : rsaHeld rsaDecryptVerb 0x0002 decryptJob = d at hk ⊢
    generalize hj : rsaDone rsaDecryptVerb 0x0002 decryptJob = j at hk ⊢
    dsimp only [rsaDecryptVerb]
    rw [hk]
    subst hd hj
    decide +kernel
/-- A PSS signature: the encoded message lies below the modulus, whatever the salt. -/
def pssJob : Job := verbIn 0x0602 (block [(0, hA), (8, [2, 0x22])]) [1] 256
theorem verb_rsaSign : verbReady 0x0602 rsaSignVerb core (rsaDone rsaSignVerb 0x0200 pssJob) (rsaHeld rsaSignVerb 0x0200 pssJob) := by
  have hk : keyOf (keyA (rsaDone rsaSignVerb 0x0200 pssJob)) (rsaHeld rsaSignVerb 0x0200 pssJob) = rsaClear :=
    rsa_key 0x0200 (rsaDone rsaSignVerb 0x0200 pssJob) (keyA (rsaDone rsaSignVerb 0x0200 pssJob)) (by decide +kernel) (by decide)
  refine rsa_ready _ _ _ _ rfl (by decide +kernel) (Or.inr ?_) rfl (fun _ => rfl) (by decide +kernel)
  have hs : (rsaDone rsaSignVerb 0x0200 pssJob).drawn.take (rsaSignVerb.early (rsaHeld rsaSignVerb 0x0200 pssJob) (rsaDone rsaSignVerb 0x0200 pssJob)) =
      List.replicate 32 0 := by decide +kernel
  rw [hs]
  show signValidation _ _ _ = 0
  unfold signValidation
  rw [hk]
  decide +kernel

/-- A key block under a KBPK of 32 zeros, behind the ciphertext of that KBPK. -/
def wrappedBlock : Bytes :=
  [0x44, 0x30, 0x31, 0x31, 0x32, 0x50, 0x30, 0x54, 0x45, 0x30, 0x30, 0x45, 0x30, 0x30, 0x30, 0x30] ++
  [0x39, 0x43, 0x38, 0x46, 0x32, 0x31, 0x30, 0x30, 0x39, 0x35, 0x30, 0x45, 0x35, 0x45, 0x34, 0x31] ++
  [0x31, 0x36, 0x46, 0x41, 0x37, 0x43, 0x41, 0x31, 0x42, 0x46, 0x36, 0x42, 0x31, 0x38, 0x37, 0x46] ++
  [0x30, 0x42, 0x42, 0x35, 0x35, 0x46, 0x38, 0x30, 0x38, 0x46, 0x31, 0x35, 0x31, 0x32, 0x33, 0x38] ++
  [0x45, 0x46, 0x45, 0x37, 0x39, 0x41, 0x37, 0x32, 0x43, 0x44, 0x42, 0x31, 0x31, 0x38, 0x46, 0x32] ++
  [0x36, 0x46, 0x32, 0x36, 0x39, 0x33, 0x44, 0x46, 0x43, 0x30, 0x32, 0x39, 0x32, 0x44, 0x41, 0x46] ++
  [0x45, 0x46, 0x34, 0x32, 0x35, 0x45, 0x30, 0x37, 0x39, 0x42, 0x39, 0x34, 0x45, 0x41, 0x31, 0x33]
def unwrapJob : Job := verbIn 0x010B (block [(0, hA)]) (beBytes 256 cipherKey ++ wrappedBlock) 116
theorem verb_importUnderPrivateKey : verbReady 0x010B unwrapVerb core (rsaDone unwrapVerb 0x0008 unwrapJob) (rsaHeld unwrapVerb 0x0008 unwrapJob) := by
  have hk : keyOf (keyA (rsaDone unwrapVerb 0x0008 unwrapJob)) (rsaHeld unwrapVerb 0x0008 unwrapJob) = rsaClear :=
    rsa_key 0x0008 (rsaDone unwrapVerb 0x0008 unwrapJob) (keyA (rsaDone unwrapVerb 0x0008 unwrapJob)) (by decide +kernel) (by decide)
  have hv : unwrapValidation (rsaHeld unwrapVerb 0x0008 unwrapJob) (rsaDone unwrapVerb 0x0008 unwrapJob) = 0 := by
    unfold unwrapValidation
    rewrite [hk]
    decide +kernel
  refine rsa_ready _ _ _ _ rfl (by decide +kernel) (Or.inl rfl) ?_ (fun _ => rfl) ?_
  · generalize rsaHeld unwrapVerb 0x0008 unwrapJob = d
    generalize rsaDone unwrapVerb 0x0008 unwrapJob = j
    dsimp only [unwrapVerb]
    repeat' split
    all_goals rfl
  · generalize hd : rsaHeld unwrapVerb 0x0008 unwrapJob = d at hv ⊢
    generalize hj : rsaDone unwrapVerb 0x0008 unwrapJob = j at hv ⊢
    dsimp only [unwrapVerb]
    rw [hv]
    subst hd hj
    decide +kernel
/-- The base points of P-256 and Edwards25519 as public keys. -/
def pointKey (cls param : Nat) (usage : Nat) (b : Bytes) : Slot := keyed 256 (bytesBv 512 (fit 64 b)) (keySlot cls param usage)
def baseEd : Bytes := 0x58 :: List.replicate 31 0x66
def ecVerifyJob : Job := verbIn 0x0608 (block [(0, hA), (9, [0x22])]) (List.replicate 64 1) 0
theorem ecdsaInputs_of (d : Device) (j : Job) (k : Bytes) (hk : pubKey 0x19 d j = k) :
    ecdsaInputs d j = let c := pubParam 0x19 d j; let b := afterKey 0x19 d j
      [.point (clsByte c) k, .scalar (beNat (field b 0 (curveBytes c))) (curveOrder (clsByte c)),
       .scalar (beNat (field b (curveBytes c) (curveBytes c))) (curveOrder (clsByte c))] := by rw [← hk]; rfl
theorem eddsaInputs_of (d : Device) (j : Job) (k : Bytes) (hk : pubKey 0x1B d j = k) :
    eddsaInputs d j = let c := pubParam 0x1B d j; let b := afterKey 0x1B d j
      [.point (clsByte c) k, .point (clsByte c) (field b 0 (curveBytes c)),
       .scalar (num b (curveBytes c) (curveBytes c)) (curveOrder (clsByte c))] := by rw [← hk]; rfl
theorem verb_ecdsaVerify : Ready 0x0608 ecdsaVerifyVerb (pointKey 0x19 1 0x400 pointG) slotIn ecVerifyJob :=
  readyBut_verb _ _ _ _ _ rfl (by decide +kernel) rfl (fun _ => rfl) (by
    have hk : pubKey 0x19 (verbDone ecdsaVerifyVerb (pointKey 0x19 1 0x400 pointG) slotIn ecVerifyJob) (verbJobDone ecdsaVerifyVerb (pointKey 0x19 1 0x400 pointG) slotIn ecVerifyJob) = pointG := by
      unfold pubKey verbDone pointKey
      rewrite [if_neg (by decide +kernel), keyOf_a _ _ _ _ (by decide) rfl]
      decide +kernel
    have hi := ecdsaInputs_of (verbDone ecdsaVerifyVerb (pointKey 0x19 1 0x400 pointG) slotIn ecVerifyJob) (verbJobDone ecdsaVerifyVerb (pointKey 0x19 1 0x400 pointG) slotIn ecVerifyJob) pointG hk
    generalize hd : verbDone ecdsaVerifyVerb (pointKey 0x19 1 0x400 pointG) slotIn ecVerifyJob = d at hi ⊢
    generalize hj : verbJobDone ecdsaVerifyVerb (pointKey 0x19 1 0x400 pointG) slotIn ecVerifyJob = j at hi ⊢
    dsimp only [ecdsaVerifyVerb]
    rw [hi]
    subst hd hj
    decide +kernel)
def agreeJob : Job := verbIn 0x0609 (block [(0, hA), (16, [0x03, 32, 0x03, 0x00])]) pointG 104
theorem verb_ecdhToNewSlot : Ready 0x0609 ecdhVerb (keySlot 0x18 1 0x100) slotIn agreeJob :=
  readyBut_verb _ _ _ _ _ rfl (by decide +kernel) rfl (fun _ => rfl) (by decide +kernel)
def edVerifyJob : Job := verbIn 0x060C (block [(0, hA)]) (baseEd ++ [1] ++ List.replicate 31 0) 0
theorem verb_eddsaVerify : Ready 0x060C eddsaVerifyVerb (pointKey 0x1B 0x10 0x400 baseEd) slotIn edVerifyJob :=
  readyBut_verb _ _ _ _ _ rfl (by decide +kernel) rfl (fun _ => rfl) (by
    have hk : pubKey 0x1B (verbDone eddsaVerifyVerb (pointKey 0x1B 0x10 0x400 baseEd) slotIn edVerifyJob) (verbJobDone eddsaVerifyVerb (pointKey 0x1B 0x10 0x400 baseEd) slotIn edVerifyJob) = baseEd := by
      unfold pubKey verbDone pointKey
      rewrite [if_neg (by decide +kernel), keyOf_a _ _ _ _ (by decide) rfl]
      decide +kernel
    have hi := eddsaInputs_of (verbDone eddsaVerifyVerb (pointKey 0x1B 0x10 0x400 baseEd) slotIn edVerifyJob) (verbJobDone eddsaVerifyVerb (pointKey 0x1B 0x10 0x400 baseEd) slotIn edVerifyJob) baseEd hk
    generalize hd : verbDone eddsaVerifyVerb (pointKey 0x1B 0x10 0x400 baseEd) slotIn edVerifyJob = d at hi ⊢
    generalize hj : verbJobDone eddsaVerifyVerb (pointKey 0x1B 0x10 0x400 baseEd) slotIn edVerifyJob = j at hi ⊢
    dsimp only [eddsaVerifyVerb]
    rw [hi]
    subst hd hj
    decide +kernel)

theorem gate_image (d : Device) (j : Job) (hs : state d = .operational) (ht : j.tenant = 0) (hr : j.recipe = 0x0A10 ∨ j.recipe = 0x0A12) :
    gateCode d j = 0 := by
  rcases hr with h | h <;> simp [gateCode, managerVerb, h, ht, hs]

/-- The manager's job on a device whose engines it holds, its blocks done. -/
def imageDevice (j : Job) : Device := { managerDevice j with shares := { grants := [grantIn 0 now, grantIn 1 now, grantIn 2 now] } }
def imageDone (v : Verb) (op : BitVec 16) (image : Bytes) : Job :=
  done v (imageDevice (managerJob op (block []) image 0)) (managerJob op (block []) image 0)
/-- Images: that the copy or the image passes its examination (signatures among it) is a premise. -/
theorem ready_image (op : BitVec 16) (v : Verb) (n : Nat) (f : Device → Job → Code) (k : Nat) (g : Device → Job → Bytes) (image : Bytes)
    (hv : v = imageVerb n f k g) (ho : op = 0x0A10 ∨ op = 0x0A12) (len : image.length ≤ n)
    (passes : f (imageDevice (imageDone v op image)) (imageDone v op image) = 0) :
    verbReady op v core (imageDone v op image) (imageDevice (imageDone v op image)) := by
  have hp : v.handles = (fun _ _ => []) ∧ v.inner = (fun _ _ => []) ∧ v.draws = (fun _ _ => 0) ∧ v.early = (fun _ _ => 0) ∧
      v.blocks = plainVerb.blocks ∧ (∀ d j r, (v.run d j r).redo = false) := by subst hv; exact ⟨rfl, rfl, rfl, rfl, rfl, fun _ _ _ => rfl⟩
  obtain ⟨h1, h2, h3, h4, h5, h6⟩ := hp
  have hi : innerSlots v (imageDevice (imageDone v op image)) (imageDone v op image) = [] := by
    unfold innerSlots
    rw [h2]
    rfl
  have hk : v.checks (imageDevice (imageDone v op image)) (imageDone v op image) = 0 := by
    subst hv
    generalize hj : imageDone (imageVerb n f k g) op image = j at *
    dsimp only [imageVerb]
    subst hj
    exact firstCode_cons (by rcases ho with e | e <;> subst e <;> rfl) (firstCode_cons passes rfl)
  have hd : decodeCode v (imageDevice (imageDone v op image)) (imageDone v op image) = 0 := by
    have hl : (imageDone v op image).input.length ≤ n := len
    have hz : reserved (imageDone v op image) 0 48 = 0 := rfl
    generalize imageDone v op image = j at hl hz
    subst hv
    unfold decodeCode
    dsimp only [imageVerb]
    exact firstCode_cons (firstCode_cons hz (firstCode_cons (need_ok (decide_eq_true hl)) rfl)) (firstCode_cons rfl rfl)
  refine ⟨⟨⟨verbJob_running _ _ _ rfl rfl rfl rfl rfl rfl rfl rfl, rfl, ?_, ?_,
    firstCode_cons hd (firstCode_cons (gated_zero hk (gate_image _ _ (by rfl) rfl ho)) rfl)⟩, ?_, engines_held _ _ rfl rfl rfl,
    blocksDone_done _ _ _ _ (fun k => by rw [h5]; rfl), fun e => by cases e⟩, Or.inl ?_, Or.inl (by rw [h4]), h6 _ _ _⟩
  · unfold keysMissing; rw [h1, hi]; rfl
  · unfold unsound; rw [h1, hi]; rfl
  · subst hv; rfl
  · unfold stepDraw; rw [h3]; exact Nat.zero_sub _
theorem verb_writeConfigurationCopy (copy : Bytes) (len : copy.length ≤ 262144)
    (passes : copyCode (imageDevice (imageDone writeCopyVerb 0x0A10 copy)) (imageDone writeCopyVerb 0x0A10 copy) = 0) :
    verbReady 0x0A10 writeCopyVerb core (imageDone writeCopyVerb 0x0A10 copy) (imageDevice (imageDone writeCopyVerb 0x0A10 copy)) :=
  ready_image _ _ _ _ _ _ copy rfl (Or.inl rfl) len passes
theorem verb_writeFirmwareImage (image : Bytes) (len : image.length ≤ 16777216)
    (passes : imageValid (imageDevice (imageDone firmwareVerb 0x0A12 image)) (imageOf image) = true) :
    verbReady 0x0A12 firmwareVerb core (imageDone firmwareVerb 0x0A12 image) (imageDevice (imageDone firmwareVerb 0x0A12 image)) :=
  ready_image _ _ _ _ _ _ image rfl (Or.inr rfl) len (need_ok passes)

/-- The 814th attempt of an ML-DSA signature ends the job once it is rejected, which rests on its hash: that is a premise (07 R262). -/
theorem witness_PublicKeyVerbs_limit (x : DsaKey) (sch : Schedule) (n : Nat) (u : List Intent) (a : DsaWork) (begun : a.begun = true)
    (last : a.kappa = 813 * (dsaSet 65).l) (rejected : dsaComplete sch (dsaSet 65) x a.y a.w a.commit = none) :
    (dsaHalf (dsaSet 65) x sch n u a).code = 0x0507 := by
  have h : ¬ a.kappa + (dsaSet 65).l < attemptLimit * (dsaSet 65).l := by rw [last]; decide
  unfold dsaHalf
  rw [if_pos begun, rejected]
  exact congrArg Staged.code (if_neg h)

/-- A verb that draws under the grant of its bench's generator: the bytes are there once the grant has ended. -/
def drawingBase : Job := { verbIn 0x0101 (block [(8, [0x03, 32, 0x03, 0x00, 0])]) [] 104 with drawn := [] }
def drawingOn (j : Job) : Device :=
  { verbDevice slotIn slotIn j with shares := { grants := [grantIn 0 now, grantIn 1 now, grantIn 2 now, grantIn 4 now] } }
def drawingJob : Job := done generateVerb (drawingOn drawingBase) drawingBase
def drawing : Device := drawingOn drawingJob
theorem witness_VerbDraws_due : verbDue 0x0101 generateVerb core drawingJob drawing :=
  ⟨⟨verbJob_running _ _ _ rfl rfl rfl rfl rfl rfl rfl rfl, rfl, by decide +kernel, by decide +kernel, by decide +kernel⟩, by decide +kernel, by decide +kernel,
    blocksDone_done _ _ _ _ (fun _ => rfl), fun e => by cases e⟩
theorem witness_VerbDraws : generateVerb.draws drawing drawingJob ≠ 0 ∧ generateVerb.early drawing drawingJob = 0 ∧ generateVerb.fresh drawingJob = false ∧
    drawingJob.drawn = [] ∧ drawing.gather.service = true ∧ heldGrant (lead core drawing) 4 (fun _ => true) drawing = some (grantIn 4 now) ∧
    (grantIn 4 now).job = drawingJob.id := by decide +kernel
theorem witness_VerbDraws_drawn :
    (jobOf drawingJob.id (releaseGrant (grantIn 4 now) (blocksOf (generateVerb.draws drawing drawingJob)) drawing)).map
      (fun k => decide (generateVerb.draws drawing drawingJob ≤ k.drawn.length)) = some true ∧
    ∀ e k r, (generateVerb.run e k r).redo = false := ⟨by decide +kernel, fun _ _ _ => rfl⟩

/-- A decode that fails, a check that fails, an input that fails after its draw, a job in safe mode before its first half, a step of which
more than one is needed. -/
theorem witness_VerbRefuses : let j := jobOnCore 0x0101 (block [(0, [1])]) [] 0
    verbJob 0x0101 core (verbDevice slotIn slotIn j) = some j ∧ decodeCode generateVerb (verbDevice slotIn slotIn j) j ≠ 0 := by decide +kernel
theorem witness_VerbRefuses_gate : let j := jobOnCore 0x0110 (block [(20, [1])]) [] 0
    let d := verbDevice slotIn slotIn j
    verbJob 0x0110 core d = some j ∧ decodeCode purgeVerb d j = 0 ∧ stateHere (lead core d) j = true ∧ keysMissing purgeVerb d j = [] ∧
    unsound purgeVerb d j = none ∧ gatedCode purgeVerb d j ≠ 0 := by decide +kernel
def steppedBase (safe : Bool) : Job :=
  { verbIn 0x0606 (block [(16, [0x18, 3, 0x00, 0x03])]) [] 262 with stream := .stepped 0, safeMode := safe, drawn := [] }
def steppedJob (safe : Bool) : Job := done ecPairVerb (verbDevice slotIn slotIn (steppedBase safe)) (steppedBase safe)
def steppedOn (safe : Bool) : Device := verbDevice slotIn slotIn (steppedJob safe)
theorem witness_VerbRefuses_job (safe : Bool) : verbJob 0x0606 core (steppedOn safe) = some (steppedJob safe) :=
  verbJob_running _ _ _ rfl rfl rfl rfl rfl rfl rfl rfl
theorem witness_VerbRefuses_steps (safe : Bool) :
    decodeCode ecPairVerb (steppedOn safe) (steppedJob safe) = 0 ∧
    stateHere (lead core (steppedOn safe)) (steppedJob safe) = true ∧ keysMissing ecPairVerb (steppedOn safe) (steppedJob safe) = [] ∧
    gatedCode ecPairVerb (steppedOn safe) (steppedJob safe) = 0 ∧
    checkDraw ecPairVerb (steppedOn safe) (steppedJob safe) = 0 ∧ ecPairVerb.early (steppedOn safe) (steppedJob safe) = 0 ∧
    lastOf ecPairVerb (steppedOn safe) (steppedJob safe) = false ∧ (steppedJob safe).half = false ∧ (steppedJob safe).safeMode = safe := by
  cases safe <;> decide +kernel
theorem witness_VerbRefuses_sound (safe : Bool) : unsound ecPairVerb (steppedOn safe) (steppedJob safe) = none :=
  unsound_none _ _ _ _ _ rfl rfl (by cases safe <;> decide +kernel)
theorem witness_VerbRefuses_engines (safe : Bool) : enginesMissing (lead core (steppedOn safe)) (steppedJob safe) (steppedOn safe) = [] :=
  engines_held _ _ rfl rfl rfl
theorem witness_VerbRefuses_blocks (safe : Bool) : blocksDone ecPairVerb (steppedOn safe) (steppedJob safe) = true :=
  blocksDone_done _ _ _ _ (fun _ => rfl)
/-- An encoded message is no smaller than the modulus of a key of zeros, whatever the salt. -/
def lateJob : Job := { verbIn 0x0602 (block [(0, hA), (8, [2, 0x22])]) [1] 256 with drawn := List.replicate 64 0 }
def lateOn : Device := verbDevice (keyed 256 0 (keySlot 0x10 8 0x0200)) slotIn lateJob
theorem witness_VerbRefuses_late : rsaSignVerb.early lateOn lateJob ≠ 0 ∧ lateJob.step = 0 ∧
    rsaSignVerb.late lateOn lateJob (lateJob.drawn.take (rsaSignVerb.early lateOn lateJob)) ≠ 0 := by
  have hk : keyOf (keyA lateJob) lateOn = List.replicate 64 0 := (keyOf_a 0 (keySlot 0x10 8 0x0200) slotIn lateJob (by decide +kernel) rfl).trans (by decide +kernel)
  refine ⟨by decide +kernel, rfl, ?_⟩
  show signValidation _ _ _ ≠ 0
  unfold signValidation
  rw [hk]
  decide +kernel

/-- A sweep step that owes the block of one key of tenant 1. -/
def sweepOne : Sweep := { active := true, tenant := 1, suite := 1, version := 2, cursor := 256, job := some 0 }
def sweepBase : Job := { verbIn 0 [] [] 0 with origin := .background, tenant := 0, fetchedInner := [1, 256, 257] }
def sweepOn (j : Job) : Device :=
  { verbDevice slotIn slotIn j with keys := { (verbDevice slotIn slotIn j).keys with sweeps := [(0, sweepOne)] } }
def sweepStepJob : Job := done (sweepVerb 0) (sweepOn sweepBase) sweepBase
theorem witness_SweepStep : keyStoreRuns (sweepOn sweepStepJob) = true ∧ (tabGetD 0 ({} : Sweep) (sweepOn sweepStepJob).keys.sweeps).active = true ∧
    state (sweepOn sweepStepJob) = .operational ∧ sweepOwes 0 (sweepOn sweepStepJob).keys = [256, 257] := by decide +kernel
theorem witness_SweepStep_job : sweepJob sweepOne (sweepOn sweepStepJob) = some (core, sweepStepJob) := by
  show (if (verbJob 0 core (sweepOn sweepStepJob)).isSome then some (core, sweepStepJob) else none) = _
  rw [verbJob_running 0 (sweepOn sweepStepJob) sweepStepJob rfl rfl rfl rfl rfl rfl rfl rfl]
  rfl
theorem witness_SweepStep_ready : verbReady 0 (sweepVerb 0) core sweepStepJob (sweepOn sweepStepJob) := by
  refine ⟨⟨⟨verbJob_running _ _ _ rfl rfl rfl rfl rfl rfl rfl rfl, rfl, by decide +kernel, ?_, by decide +kernel⟩, by decide +kernel,
    engines_held _ _ rfl rfl rfl, blocksDone_done _ _ _ _ (fun _ => rfl), fun e => by cases e⟩,
    bytesDrawn_room _ _ _ rfl rfl rfl (by decide +kernel) (Or.inl rfl) rfl⟩
  have hi : (innerSlots (sweepVerb 0) (sweepOn sweepStepJob) sweepStepJob).all (fun i => handleSlot (handleOf i (sweepOn sweepStepJob)) ∈ [1, 256, 257]) = true := by
    decide +kernel
  have hc : ∀ i ∈ [1, 256, 257], chainSound i (sweepOn sweepStepJob) = true := by
    intro i h
    simp only [List.mem_cons, List.not_mem_nil, or_false] at h
    rcases h with e | e | e <;> subst e
    · rfl
    · exact chainSound_a slotIn slotIn sweepStepJob rfl
    · exact chainSound_b slotIn slotIn sweepStepJob rfl
  unfold unsound
  rw [List.find?_eq_none]
  intro x hx
  obtain ⟨i, hi', rfl⟩ := List.mem_map.mp (show x ∈ (innerSlots (sweepVerb 0) (sweepOn sweepStepJob) sweepStepJob).map (fun i => handleOf i (sweepOn sweepStepJob)) from hx)
  rw [hc _ (of_decide_eq_true (List.all_eq_true.mp hi i hi'))]
  simp

/-! The recorder, the SMBus target, registers. -/

/-- The device with one submission in a buffer. -/
def submitted (sev : Severity) (level : Nat) : Device :=
  let x : Submission := { severity := sev, code := 0x0302, region := .custody, via := .custody }
  { device with events := { device.events with buffers := [x], buckets := [(0x0302, { level := level })], lastAccept := some (now - 4) } }
/-- A record. -/
def recordIn : Record :=
  { seq := 0, seconds := 0, cycle := 0, tick := 0, severity := .notice, code := 0x0302, region := 9, unit := 0xFF, tenant := none,
    suppressed := 0, detail := [], tag := 0 }

theorem witness_EventsAreAccepted :
    (∀ sev ∈ [Severity.tamper, .info], ∀ level ∈ [99999, 100000], let d := submitted sev level
      outOfReset d = true ∧ leastBy servedBefore d.events.buffers = some { severity := sev, code := 0x0302, region := .custody, via := .custody } ∧
      d.events.lastAccept = some (now - 4) ∧ now - 4 + 4 ≤ d.time.ticks ∧ (bucketOf 0x0302 d.events).level = level ∧
      (bucketOf 0x0302 d.events).summaryDue = false ∧ d.events.ring.length < 16384) ∧
    (let d := { device with events := { device.events with buckets := [(0x0302, { level := 99999, suppressed := 1, quietSince := now - secTicks })] } }
     summaryFalls 0x0302 d = true ∧ (bucketOf 0x0302 d.events).level < 100000 ∧ (∀ p ∈ d.events.buckets, p.2.summaryDue = false)) ∧
    (let d := { device with events := { device.events with toFlash := [recordIn] } }
     outOfReset d = true ∧ d.events.nvmOk = true ∧ d.flash.fenced = false ∧ d.flash.halted = false ∧ d.events.toFlash ≠ [] ∧
      d.flash.log.length + sectorPages d.flash < logPages d.flash) := by
  decide +kernel

theorem witness_SmbusIsAnswered :
    outOfReset device = true ∧
    (∀ n ∈ [0, 2, 3], let d := { device with events := { device.events with alert := .asserted (now - secTicks) n, hostNotify := true, causes := 1 } }
      outOfReset d = true ∧ smbAlertLow d.events = true ∧ d.events.alert = .asserted (now - secTicks) n ∧ d.events.hostNotify = true ∧
      now - secTicks + secTicks ≤ d.time.ticks) ∧
    (let d := { device with events := { device.events with alert := .backoff now 1 } }
     d.events.alert = .backoff now 1 ∧ now ≤ d.time.ticks) ∧
    (let d := { device with events := { device.events with alert := .silenced, causes := 1 } }
     outOfReset d = true ∧ d.events.alert = .silenced ∧ d.events.causes ≠ 0) := by
  decide +kernel

theorem witness_RegistersAreReadAndWritten :
    (fnUp 0 device = true ∧ fnUp 1 device = true ∧ outOfReset device = true) ∧
    (∀ r ∈ [Reader.smbus, .pcie], let d := { device with events := { device.events with ring := [recordIn] } }
     readerUp r 0 0x610000 d = true ∧ d.events.ring[d.events.readSel.toNat]? = some recordIn) ∧
    (Region.nvm ≠ .custody ∧ regionExists device .nvm = true ∧ regionExists device (.bench 15) = false ∧ 0x600000 ≤ 0x600FFC ∧
      0x600FFC < 0x601000 ∧ 0x610000 ≤ 0x610000 ∧ 0x63FFFC < 0x640000) ∧
    (let d := { device with start := { device.start with done := false, stopped := true } }
     stoppedUp d = true ∧ 0 < 0x600000) ∧ 0x630000 ≤ 0x630000 := by
  decide +kernel

/-! Cards and custody. -/

/-- A presentation at port A for quorum 1, of the enrolled card; the manager's job. -/
def presentJob : Job := managerJob 0x0B03 (block [(0, [1])]) [] 0
/-- A quorum of procedure 0x06 that needs two cards. -/
def quorumIn : Quorum := { number := 1, procedure := 0x06, params := [2, 2, 2, 2], required := 2, opened := now }
/-- The small device with a quorum open and a card in port A. -/
def withQuorum (q : Quorum) (j : Job) : Device :=
  { running j with custody := { device.custody with quorum := some q, portA := { present := true, active := true } } }

theorem witness_CardsAreActivatedAndCounted_ports :
    (outOfReset device = true ∧ ∀ b : Bool, (portFor b device).present = false) ∧
    (∀ b : Bool, ∀ on : Bool, let p : CardPort := { present := true, active := on }
      let d := { device with custody := { device.custody with portA := p, portB := p } }
      outOfReset d = true ∧ portFor b d = p) ∧
    (let j := { presentJob with dispatch := now - 2 * secTicks }
     let d := withQuorum quorumIn j
     (portFor false d).present = true ∧ (portFor false d).active = true ∧ (cardHolder false d).isSome = true ∧ cardHolder false d = some j ∧
      jobOf j.id d = some j ∧ j.place = .core 0 0 ∧ 2 * secTicks ≤ ticksSince j.dispatch d) := by
  decide +kernel

/-- The reply of the enrolled card. -/
def enrolledReply : CardReply := { serial := 1, publicKey := [4] }

theorem witness_CardsAreActivatedAndCounted_present :
    (let d := withQuorum quorumIn presentJob
     verbJob 0x0B03 core d = some presentJob ∧ presentDecode presentJob = 0 ∧ gateCode d presentJob = 0 ∧
      quorumOpen (par presentJob 0 4) d = some quorumIn ∧ portServes (decide (par presentJob 4 1 = 1)) presentJob d = true ∧
      enrolledReply.status = 0x9000 ∧ d.gather.service = true ∧ decide (par presentJob 5 1 % 2 = 1) = false ∧
      cardCode quorumIn false (fit 65 enrolledReply.publicKey) d = 0 ∧ quorumIn.procedure ≠ 0x08 ∧ quorumIn.procedure ≠ 0x09 ∧
      quorumIn.procedure ≠ 0x04 ∧ quorumIn.procedure ≠ 0x01 ∧ quorumIn.newCard = none ∧ quorumIn.presented.length + 1 < quorumIn.required ∧
      enrolled d (fit 65 enrolledReply.publicKey) = true ∧ enrolled d (fit 65 [5]) = false) ∧
    (let q := { quorumIn with presented := [{ serial := 1, key := fit 65 [4] }], first := some now }
     let d := withQuorum q presentJob
     quorumOpen (par presentJob 0 4) d = some q ∧ (∃ x ∈ q.presented, x.key = fit 65 enrolledReply.publicKey)) := by
  decide +kernel

/-- Whether a card's signature verifies is open: each case of the statement holds of one of the two values. -/
theorem witness_CardsAreActivatedAndCounted_signature (r : CardReply) (digest : Bytes) : cardSigned r digest = true ∨ cardSigned r digest = false := by
  cases cardSigned r digest <;> simp

theorem witness_CustodyChangesState :
    (let j := managerJob 0x0B01 (block []) [] 0
     verbJob 0x0B01 core (running j) = some j ∧ gateCode (running j) j = 0 ∧ zeros j.params 0 48 = true ∧
      (state (running j) = .owned ∨ state (running j) = .operational) ∧ (running j).battery.latches = [] ∧
      saturated (running j).fuses.lockCount = false ∧ thermVal (running j).fuses.unlockCount = thermVal (running j).fuses.lockCount) ∧
    (let j := managerJob 0x0B02 (block [(0, [0x06]), (4, [2, 2, 2, 2])]) [] 0
     let d := { running j with custody := { device.custody with record := { device.custody.record with
        cards := [(0, { serial := 1, key := [1] }), (1, { serial := 2, key := [2] })] } } }
     verbJob 0x0B02 core d = some j ∧ openDecode j = 0 ∧ gateCode d j = 0 ∧ procedureMay (par j 0 1) (field j.params 4 32) d = true ∧
      quorumBusy d = false ∧ quorumBusy { d with custody := { d.custody with quorum := some quorumIn } } = true) ∧
    (let j := managerJob 0x0B04 (block [(0, [1])]) [] 0
     let d := withQuorum quorumIn j
     verbJob 0x0B04 core d = some j ∧ gateCode d j = 0 ∧ zeros j.params 4 44 = true ∧ quorumOpen (par j 0 4) d = some quorumIn) ∧
    (let j := managerJob 0x0B05 (block []) [] 688
     verbJob 0x0B05 core (running j) = some j ∧ gateCode (running j) j = 0 ∧ zeros j.params 0 48 = true ∧ 688 ≤ j.outCap) ∧
    (let j := managerJob 0x0B06 (block []) [] 0
     let d := { running j with fuses := { issued := true } }
     verbJob 0x0B06 core d = some j ∧ gateCode d j = 0 ∧ zeros j.params 0 48 = true) ∧
    (∀ t ∈ [now - 300 * secTicks, now - 300 * secTicks + 1], let q := { quorumIn with first := some t }
      outOfReset (withQuorum q presentJob) = true ∧ (withQuorum q presentJob).custody.quorum = some q) ∧
    (let d : Device := {}
     state d = .blank ∧ d.pins.mainOn = true ∧ d.fuses.ownCount.blown = [] ∧ d.fuses.eraseCount.blown = []) := by
  decide +kernel

/-! Verbs that ask the custody partition, and flash writes. -/

/-- The component session 1 of tenant 1, with no component yet. -/
def sessionOne : CompSession := { twoComponents with components := [] }
/-- A component for it at port A, and its device. -/
def addJob : Job := jobOnCore 0x0107 (block [(24, [1])]) [] 8
def addDevice : Device :=
  { verbDevice slotIn slotIn addJob with custody := { device.custody with sessions := [sessionOne], portA := { present := true, active := true } } }
/-- An attestation of tenant 1 with a challenge of 16 bytes. -/
def attestJob : Job := jobOnCore 0x0A20 (block []) (List.replicate 16 0) 8192

theorem witness_PartitionVerbsTakeEffect :
    (let j := jobOnCore 0x0106 (block [(8, [0x03, 32, 0x03, 0x00]), (23, [2])]) [] 0
     verbJob 0x0106 core (running j) = some j ∧ gateCode (running j) j = 0 ∧ beginChecks (running j) j = 0 ∧ zeros j.params 0 8 = true ∧
      zeros j.params 20 3 = true ∧ zeros j.params 24 24 = true ∧ templateRsv j 8 = 0 ∧ (parByte j 23 = 2 ∨ parByte j 23 = 3)) ∧
    (verbJob 0x0107 core addDevice = some addJob ∧ gateCode addDevice addJob = 0 ∧ zeros addJob.params 0 24 = true ∧
      zeros addJob.params 29 19 = true ∧ par addJob 28 1 < 2 ∧ 8 ≤ addJob.outCap ∧ sessionNamed addDevice addJob = some sessionOne ∧
      portServes (decide (par addJob 28 1 = 1)) addJob addDevice = true ∧ addDevice.gather.service = true ∧
      enrolled addDevice (fit 65 enrolledReply.publicKey) = true ∧ sessionOne.custodians.contains (fit 65 enrolledReply.publicKey) = false) ∧
    (let d := running attestJob
     verbJob 0x0A20 core d = some attestJob ∧ attestDecode attestJob = 0 ∧ gateCode d attestJob = 0 ∧
      (if allTenants attestJob then 16384 else 8192) ≤ attestJob.outCap ∧ d.gather.service = true ∧ liveRequests d = []) ∧
    (let other := { attestJob with id := 1, place := .core 0 1 }
     let d := { running attestJob with
        gaffer := { device.gaffer with jobs := [attestJob, other], nextJob := 2 }, custody := { device.custody with attesting := [1] } }
     verbJob 0x0A20 core d = some attestJob ∧ liveRequests d = [1] ∧ (1 : Nat) ≠ attestJob.id ∧ attestJob.id ∉ ([] : List Nat) ∧
      ([] : List Nat).length < 16) ∧
    (let j := managerJob 0x0A40 (block [(0, [1, 1])]) [] 0
     verbJob 0x0A40 core (running j) = some j ∧ verbCode { plainVerb with decode := resetDecode } (running j) j = 0 ∧
      (parByte j 1).getLsbD 0 = true) := by
  decide +kernel

/-- The card's signature is a premise; its component is one that this very session encrypts, so it opens. -/
theorem witness_PartitionVerbsTakeEffect_component (m : Bytes) (len : m.length = 32) :
    let t := templateAt sessionOne.template 0
    let ctx := cardContext sessionOne.number addJob.tenant (slotOf addJob.tenant addDevice.keys).suite
      (slotOf addJob.tenant addDevice.keys).rootVersion t.cls
    let scalar := beNat (drawn 8 32 (forDraw 8 32 (spend 8 32 (forDraw 8 32 addDevice))))
    let key := componentKey scalar enrolledReply.publicKey ctx
    let c := gcmXor key (fit 12 []) m
    openComponent scalar { enrolledReply with component := c, tag := gcmTagOf key (fit 12 []) ctx c } ctx (keyLen t.cls t.param) = some m := by
  intro t ctx scalar key c
  have hl : c.length = keyLen t.cls t.param := (gcmXor_length _ _ _).trans (len.trans (by decide +kernel))
  unfold openComponent
  dsimp only
  rw [if_pos ⟨hl, rfl⟩]
  exact congrArg some (gcmXor_twice _ _ _)

/-- A job whose Retire waits for an image write. -/
def imageJob (kind : Nat) : Job :=
  { managerJob 0x0A10 (block []) [] 0 with place := .pending 0, staged := some { intents := [.flashImage kind [1]] } }
theorem witness_ManagementVerbsAndFlashWrites_images : ∀ kind ∈ [1, 2, 3], ∀ sel : Bool,
    let d := { running (imageJob kind) with flash := { device.flash with
      imageWrite := some { kind := kind, image := [1], job := 0 }, selected := if sel then 1 else 2 } }
    d.flash.imageWrite = some { kind := kind, image := [1], job := 0 } ∧ ({ intents := [.flashImage kind [1]] } : Staged).half = false ∧ outOfReset d = true ∧ nvmServes d = true ∧
    jobOf 0 d = some (imageJob kind) ∧ (imageJob kind).place = .pending 0 ∧
    (imageJob kind).staged = some { intents := [.flashImage kind [1]] } ∧ targetEvening d.flash = sel := by
  decide +kernel

theorem witness_OutputsAnswerTheirInputs :
    (let pin := [1, 2, 3, 9]; let natural := [9, 0, 5, 0]
     pin.length = natural.length ∧ (∀ p ∈ pin, p < 10) ∧ (∀ n ∈ natural, n < 10) ∧ offsetOf pin natural = [2, 2, 8, 9] ∧
      ([2, 2, 8, 9] : List Nat).length = pin.length ∧ offsetMatches pin natural [2, 2, 8, 9] = true) ∧
    (({} : Context).reverse = false) ∧ (255 < 256 ∧ 0 < 256 ∧ (0 : Nat) ≠ 255) := by
  decide +kernel

/-! The whole machine: a step of a Retired part, and of one with two jobs. -/

theorem witness_NothingIsTakenBack :
    step { pending := [.operatingSecond], dev := { fuses := { retired := true } } } =
      .next { pending := [], dev := { fuses := { retired := true }, battery := { opSeconds := 1 } } } ∧
    state { fuses := { retired := true } } = .retired := ⟨rfl, rfl⟩

theorem witness_JobsStayDistinct :
    let d := { device with gaffer := { device.gaffer with jobs := [waitingJob, { waitingJob with id := 1 }], nextJob := 2 } }
    (d.gaffer.jobs.map (·.id)).Nodup ∧ (∀ j ∈ d.gaffer.jobs, j.id < d.gaffer.nextJob) ∧
    step { pending := [.operatingSecond], dev := d } =
      .next { dev := { d with battery := { opSeconds := 1 } } } :=
  ⟨by decide +kernel, by decide +kernel, rfl⟩

/-! ### The specification's own examples -/

/-- 02, Example: 0.81 V and 85 °C give 0.857, 0.85 V and 75 °C give 0.964, in units of 1/256. -/
theorem test_speed_code : speedCode 810 85 = 219 ∧ speedCode 850 75 = 247 ∧ speedCode 850 80 = 244 := by decide +kernel
/-- 03, Example: the handle 0x2A30_C41E, and the slots of an RSA-2048 private key. -/
theorem test_handle : handleGen 0x2A30C41E = 0x2A3 ∧ handleSlot 0x2A30C41E = 0xC41E ∧ slotsFor (materialLen 0x10 8 false) = 11 := by decide +kernel
/-- 06, Example and R226: floor_eff of an RSA-2048 signature at speed 230, and the ECDSA floor at an over-hold limit of 2 µs. -/
theorem test_floors : floorEff (rsaPrivateFloor 2048) 230 = 14247 ∧ (curveFloors 0x01).1 = 1138 ∧ steppedFloor 1138 2 = 1354 := by decide +kernel
/-- 04, Example: ticket 41, dispatched at 12 with floor_eff 29 and refused with 0x0401, retires at 35 and is releasable at 41. -/
theorem test_retire_floor :
    let j := { pendingJob 0x0401 with dispatch := 12, floorEff := 29 }
    (match exec (.retire 0 .none) (at_ { running j with time := { ticks := 35 }, gaffer := { (running j).gaffer with tickets := [(j.stream, 1)] } }) with
     | .next t => jobOf 0 t.dev |>.map (fun k => (k.code, k.releasable))
     | _ => none) = some (0x0401, some 41) := by decide +kernel
/-- 05, Example: the refills of weights 1, 1 and 2 in kind 5 are 640, 640 and 1,280. -/
theorem test_refills :
    let tenants := [(3, { tenantIn with weights := [(5, 1)] }), (4, { tenantIn with weights := [(5, 1)] }), (5, { tenantIn with weights := [(5, 2)] })]
    let credits := [3, 4, 5].map (fun t => (creditKey 5 t, ({ requested := true } : Credit)))
    let d := { device with gaffer := { device.gaffer with tenants := tenants }, shares := { credits := credits } }
    (match exec .creditWindowBoundary (at_ d) with
     | .next t => [3, 4, 5, 6].map (fun k => (creditOf 5 k t.dev).counter)
     | _ => []) = [640, 640, 1280, 0] := by decide +kernel
/-- 08, Example: the second block of a SHA-256 over 70 bytes, and the padding block after 64. -/
theorem test_sha_padding :
    hashPad 0x22 70 [1, 2, 3, 4, 5, 6] = [1, 2, 3, 4, 5, 6, 0x80] ++ List.replicate 49 0 ++ [0, 0, 0, 0, 0, 0, 0x02, 0x30] ∧
    hashPad 0x22 64 [] = [0x80] ++ List.replicate 55 0 ++ [0, 0, 0, 0, 0, 0, 0x02, 0x00] := by decide +kernel
/-- 10, Example: PIN 2981 under format 0 with the PAN 5123 4567 8901 2346. -/
theorem test_pin_block :
    let pan := [5, 1, 2, 3, 4, 5, 6, 7, 8, 9, 0, 1, 2, 3, 4, 6]
    pinField 0 [2, 9, 8, 1] [] = [0x04, 0x29, 0x81, 0xFF, 0xFF, 0xFF, 0xFF, 0xFF] ∧
    panField 0 pan = [0x00, 0x00, 0x34, 0x56, 0x78, 0x90, 0x12, 0x34] ∧
    bytesXor (pinField 0 [2, 9, 8, 1] []) (panField 0 pan) = [0x04, 0x29, 0xB5, 0xA9, 0x87, 0x6F, 0xED, 0xCB] ∧
    pinValid 0 4 (pinField 0 [2, 9, 8, 1] []) = true ∧ pinDigits (pinField 0 [2, 9, 8, 1] []) = [2, 9, 8, 1] := by decide +kernel
/-- 10, Example: the counter after 0x00_07FE is 0x00_0800. -/
theorem test_next_counter : nextCounter false 0x7FE = 0x800 := by decide +kernel
/-- 10, Example: PIN 2981, natural PIN 7035. -/
theorem test_offset : offsetOf [2, 9, 8, 1] [7, 0, 3, 5] = [5, 9, 5, 6] ∧ packDigits 6 [5, 9, 5, 6] = [0x59, 0x56, 0xFF, 0xFF, 0xFF, 0xFF] ∧
    offsetMatches [2, 9, 8, 1] [7, 0, 3, 5] [5, 9, 5, 6] = true := by decide +kernel
/-- 10, Example: digit extraction. -/
theorem test_extract : extractDigits 3 [0xC2, 0xA9, 0xE4, 0xFB, 0x1D, 0x07, 0x3B, 0x8E] = [2, 9, 4] ∧
    extractDigits 4 [0xAB, 0xCD, 0xE7, 0xFA, 0xBC, 0xDE, 0xFA, 0xB9] = [7, 9, 0, 1] := by decide +kernel
/-- 10 R368: the PAN 4012 3456 7890 with psn 01. -/
theorem test_emv_y : emvY (jobOnCore 0x0401 (block [(9, [0x01, 0x40, 0x12, 0x34, 0x56, 0x78, 0x90, 0xFF, 0xFF, 0xFF, 0xFF])]) [] 0) =
    [0x00, 0x40, 0x12, 0x34, 0x56, 0x78, 0x90, 0x01] := by decide +kernel
/-- 11, Example: the header "D0144P0AE00E0000", and the length of the block of such a key. -/
theorem test_key_block : (headerUse (ascii "D0144P0AE00E0000".toList)).map (·.2) = some 0x0040 ∧
    headerExport (ascii "D0144P0AE00E0000".toList) = some 0xC0 ∧ exportLen true (keySlot 0x03 32 0x0040) = 144 := by decide +kernel

end Sys2Proof.Tests
end

section
/-! SUPPORT. A key lookup by its outcome, and O33. -/

namespace Sys2Proof.Machine

/-! ### The outcome of a lookup (03 R4, R74) -/

/-- The check of R74 passes exactly for an unreserved head of that tenant and of the handle's generation. -/
theorem handleOk_iff (t : Nat) (h : BitVec 32) (k : KeyStore) :
    handleOk t h k = true ↔ 256 ≤ handleSlot h ∧
      ((slotOf (handleSlot h) k).state = .active ∨ (slotOf (handleSlot h) k).state = .suspended) ∧
      (slotOf (handleSlot h) k).tenant = t ∧ (slotOf (handleSlot h) k).gen = handleGen h := by
  simp [handleOk, and_assoc]

/-- A lookup delivers exactly where the index is in range, the key store serves and the handle passes. -/
theorem lookupCode_eq_zero_iff (t : Nat) (h : BitVec 32) (d : Device) :
    lookupCode t h d = 0 ↔ handleSlot h < slotCount d ∧ d.keys.refusing = false ∧ d.keys.halted = false ∧ handleOk t h d.keys = true := by
  simp only [lookupCode]
  split
  case isTrue hr => simp [Nat.not_lt.mpr hr]
  case isFalse hr =>
    split
    case isTrue hs => rcases (Bool.or_eq_true _ _).mp hs with hs | hs <;> simp [hs]
    case isFalse hs => split <;> simp_all

theorem lookupCode_of_beyond {t : Nat} {h : BitVec 32} {d : Device} (hr : slotCount d ≤ handleSlot h) : lookupCode t h d = 0x0201 :=
  if_pos hr

theorem lookupCode_of_not_handleOk {t : Nat} {h : BitVec 32} {d : Device} (hr : handleSlot h < slotCount d)
    (hk : handleOk t h d.keys = false) : lookupCode t h d = 0x0202 := by
  simp [lookupCode, Nat.not_le.mpr hr, hk]

/-- Settles O33: the lookup's code decides the check of R74, and that check names the tenant, generation and state. -/
theorem tenantsReachOnlyTheirKeys : Obligations.TenantsReachOnlyTheirKeys := by
  refine ⟨fun t h d hz => ?_, fun t h d hr hbad => ?_, fun t h d hr => lookupCode_of_beyond hr⟩
  · obtain ⟨hr, href, -, hk⟩ := (lookupCode_eq_zero_iff t h d).mp hz
    obtain ⟨hres, hst, ht, hg⟩ := (handleOk_iff t h d.keys).mp hk
    exact ⟨ht, hg, hres, hr, href, hst⟩
  · refine lookupCode_of_not_handleOk hr (Bool.eq_false_iff.mpr fun hk => ?_)
    obtain ⟨hres, hst, ht, hg⟩ := (handleOk_iff t h d.keys).mp hk
    rcases hbad with hfree | hforeign | hcont | hlow | hgen
    · simp [hfree] at hst
    · exact hforeign ht
    · simp [hcont] at hst
    · omega
    · exact hgen hg

end Sys2Proof.Machine
end

section
/-! SUPPORT. What the rows that read and write registers do, offset by offset, and O48. -/

namespace Sys2Proof.Machine

/-! ### Who reaches a register -/

theorem fnUp_iff (f : Nat) (d : Device) : fnUp f d = true ↔ hostUp d = true ∧ fnExists f d.host = true := by
  simp [fnUp]

/-- The host region serves only after a start that has not stopped. -/
theorem stoppedUp_eq_false_of_fnUp {f : Nat} {d : Device} (up : fnUp f d = true) : stoppedUp d = false := by
  have hs : d.start.stopped = false := by
    have := ((fnUp_iff f d).mp up).1
    simp only [hostUp, started, Bool.and_eq_true, Bool.not_eq_true'] at this
    tauto
  simp [stoppedUp, hs]

theorem readerUp_pcie_of_fnUp {f off : Nat} {d : Device} (up : fnUp f d = true) : readerUp .pcie f off d = true := by
  simp [readerUp, stoppedUp_eq_false_of_fnUp up, up]

/-! ### The rows by their effect -/

/-- The interface that reads takes the low word, and the latch is made. -/
theorem counterLowWordRead_completes {r : Reader} {f off : Nat} {s : State} {P : Device → Prop} (up : readerUp r f off s.dev = true)
    (h : P (latchAt r f off { s.dev with out := s.dev.out ++ [.counterLow (readWord f off s.dev)] })) :
    Completes (.counterLowWordRead r f off) s P :=
  ⟨_, congrArg Host.Outcome.next (congrArg (fun d => { s with dev := d }) (if_pos up)), h⟩

theorem exec_evrReadD0 {r : Reader} {s : State} (up : readerUp r 0 0x610000 s.dev = true) :
    exec (.evrReadD0 r) s = .next { s with dev := copyRecord s.dev } :=
  congrArg Host.Outcome.next (congrArg (fun d => { s with dev := d }) (if_pos up))

theorem exec_functionWrite (f off : Nat) (v : Word) (s : State) :
    exec (.registerWrite (.function f) off v) s = .next { s with dev :=
      (if stoppedUp s.dev then stoppedWrite f off v s.dev else doIf (fnUp f s.dev) (writeReg f off v) s.dev) } := rfl

theorem exec_regionWrite (r : Region) (off : Nat) (v : Word) (s : State) :
    exec (.registerWrite (.region r) off v) s = .next { s with dev :=
      (doIf (outOfReset s.dev && regionExists s.dev r) (regionWrite r off) s.dev) } := rfl

theorem functionWrite_completes {f off : Nat} {v : Word} {s : State} {P : Device → Prop} (up : fnUp f s.dev = true)
    (h : P (writeReg f off v s.dev)) : Completes (.registerWrite (.function f) off v) s P :=
  ⟨_, by rw [exec_functionWrite]; simp [stoppedUp_eq_false_of_fnUp up, up, doIf], h⟩

theorem regionWrite_completes {r : Region} {off : Nat} {v : Word} {s : State} {P : Device → Prop} (hreset : outOfReset s.dev = true)
    (hr : regionExists s.dev r = true) (h : P (regionWrite r off s.dev)) : Completes (.registerWrite (.region r) off v) s P :=
  ⟨_, by rw [exec_regionWrite]; simp [hreset, hr, doIf], h⟩

theorem exec_regionWrite_of_absent {r : Region} {off : Nat} {v : Word} {s : State} (hr : regionExists s.dev r = false) :
    exec (.registerWrite (.region r) off v) s = .next s := by
  rw [exec_regionWrite]; simp [hr, doIf]

/-- A write that neither a serving nor a stopped part performs. -/
theorem exec_functionWrite_of_writeReg_eq {f off : Nat} {v : Word} {s : State} (hw : writeReg f off v s.dev = s.dev)
    (h0 : writeReg 0 off v s.dev = s.dev) : exec (.registerWrite (.function f) off v) s = .next s := by
  rw [exec_functionWrite]; simp [stoppedWrite, doIf, hw, h0]

/-! ### A function's entry -/

theorem fnOf_modFn_of_ne {f g : Nat} (m : Fn → Fn) (d : Device) (h : g ≠ f) : fnOf g (modFn f m d) = fnOf g d := by
  simp [fnOf, modFn, tabGetD, Ne.symm h]

theorem fnOf_modFn_self {f : Nat} (m : Fn → Fn) {d : Device} (h : fnExists f d.host = true) : fnOf f (modFn f m d) = m (fnOf f d) := by
  simp only [fnExists, Bool.and_eq_true] at h
  obtain ⟨x, hx⟩ := Option.isSome_iff_exists.mp h.1
  simp [fnOf, modFn, tabGetD, hx]

/-! ### Registers by their offsets (12 R423, R456, R458; 19 R648) -/

theorem latchAt_functionCounter (r : Reader) (f : Nat) (d : Device) : latchAt r f 0x10 d = latchFn r f d := rfl
theorem latchAt_eventCounter (r : Reader) (d : Device) : latchAt r 0 0x610020 d =
    { d with events := { d.events with ctr := latchFor r (ctrVal (evrSel d.events) d.events.ctr) d.events.ctr } } := rfl

theorem writeReg_functionStatus (f : Nat) (v : Word) (d : Device) : writeReg f 0x08 v d =
    modFn f (fun x => { x with acuFault := w1c v 27 x.acuFault, queueError := w1c v 26 x.queueError }) d := rfl
theorem writeReg_acuFault (v : Word) (d : Device) : writeReg 0 0x240004 v d = { d with host := { d.host with
    faultValid := w1c v 31 d.host.faultValid, faultOverflow := w1c v 30 d.host.faultOverflow } } := rfl
theorem writeReg_alert (v : Word) (d : Device) : writeReg 0 0x610010 v d = writeAlert v d := rfl
theorem writeReg_readSel (v : Word) (d : Device) : writeReg 0 0x61000C v d =
    { d with events := { d.events with readSel := v.setWidth 14 } } := rfl

/-- No register of the manager takes a write at or above the debug block. -/
theorem writeReg_of_beyond {off : Nat} (v : Word) (d : Device) (h : 0x630000 ≤ off) : writeReg 0 off v d = d := by
  simp only [writeReg]
  repeat rw [if_neg (by omega)]

theorem stoppedOffset_eq_false_of_lt {off : Nat} (h : off < 0x600000) : stoppedOffset off = false := by
  simp [stoppedOffset]; omega

/-- After a stopped start the PF writes within the CUS_ and EVR_ blocks. -/
theorem stoppedWrite_completes {off : Nat} {v : Word} {s : State} {P : Device → Prop} (up : stoppedUp s.dev = true)
    (ho : stoppedOffset off = true) (h : P (writeReg 0 off v s.dev)) : Completes (.registerWrite (.function 0) off v) s P :=
  ⟨_, by rw [exec_functionWrite]; simp [up, stoppedWrite, ho, doIf], h⟩

theorem exec_stoppedWrite_of_lt {off : Nat} {v : Word} {s : State} (up : stoppedUp s.dev = true) (ho : off < 0x600000) :
    exec (.registerWrite (.function 0) off v) s = .next s := by
  rw [exec_functionWrite]; simp [up, stoppedWrite, stoppedOffset_eq_false_of_lt ho, doIf]

/-- The window's first word copies the entry that the select register names (19 R648). -/
theorem copyRecord_of_some {d : Device} {x : Record} (h : d.events.ring[d.events.readSel.toNat]? = some x) :
    copyRecord d = { d with events := { d.events with readCopy := eventBytes x } } := by
  simp only [copyRecord, h]

/-! ### The alert register (19 R646, R647) -/

theorem raiseCauses_frame (b : Byte) (d : Device) : raiseCauses b d = { d with
    events := { d.events with causes := (raiseCauses b d).events.causes, alert := (raiseCauses b d).events.alert, ctr := (raiseCauses b d).events.ctr }
    out := (raiseCauses b d).out } := by
  simp only [raiseCauses]; split <;> rfl

theorem resumeAlert_frame (d : Device) : resumeAlert d = { d with
    events := { d.events with causes := (resumeAlert d).events.causes, alert := (resumeAlert d).events.alert, ctr := (resumeAlert d).events.ctr }
    out := (resumeAlert d).out } := by
  simp only [resumeAlert]
  split
  · exact raiseCauses_frame _ _
  · rfl

theorem raiseCauses_alert_of_idle {b : Byte} {d : Device} (h : d.events.alert = .idle) : (raiseCauses b d).events.alert ≠ .silenced := by
  simp only [raiseCauses]
  split
  · simp [assertAlert]
  · simp [h]

theorem resumeAlert_alert_ne_silenced (d : Device) : (resumeAlert d).events.alert ≠ .silenced := by
  simp only [resumeAlert]
  split
  · exact raiseCauses_alert_of_idle rfl
  · assumption

/-- A write of EVR_ALERT sets the two fields, whether alerting resumes or not. -/
theorem writeAlert_frame (v : Word) (d : Device) : writeAlert v d = { d with
    events := { d.events with
      hostNotify := v.getLsbD 29, alertMin := if 3 < (v.extractLsb' 24 3).toNat then 3 else v.extractLsb' 24 3
      causes := (writeAlert v d).events.causes, alert := (writeAlert v d).events.alert, ctr := (writeAlert v d).events.ctr }
    out := (writeAlert v d).out } := by
  simp only [writeAlert, doIf]
  split
  · exact resumeAlert_frame _
  · rfl

theorem writeAlert_hostNotify (v : Word) (d : Device) : (writeAlert v d).events.hostNotify = v.getLsbD 29 := by
  rw [writeAlert_frame]

theorem writeAlert_alertMin (v : Word) (d : Device) : (writeAlert v d).events.alertMin =
    if 3 < (v.extractLsb' 24 3).toNat then 3 else v.extractLsb' 24 3 := by
  rw [writeAlert_frame]

theorem writeAlert_resumes {v : Word} (d : Device) (h : v.getLsbD 31 = true) : (writeAlert v d).events.alert ≠ .silenced := by
  simp only [writeAlert, h, doIf]
  exact resumeAlert_alert_ne_silenced _

/-! ### Writes refused at the handshake (01 R29) -/

/-- Every submission is numbered, whether it finds room or is dropped. -/
theorem submitEvent_submitted (x : Submission) (e : Events) : (submitEvent x e).submitted = e.submitted + 1 := by
  simp only [submitEvent]
  split <;> split <;> rfl

theorem refuseWrite_submitted (r : Region) (o a : Nat) (d : Device) : (refuseWrite r o a d).events.submitted = d.events.submitted + 1 :=
  submitEvent_submitted _ _

theorem regionWrite_of_custodyRegister {r : Region} {off : Nat} (d : Device) (hr : r ≠ .custody) (h1 : 0x600000 ≤ off)
    (h2 : off < 0x601000) : regionWrite r off d = custodyWrite r off d := by
  simp [regionWrite, hr, h1, h2]

theorem regionWrite_of_partitionRegister {r : Region} {off : Nat} (d : Device) (hr : r ≠ .custody) (h1 : 0x610000 ≤ off)
    (h2 : off < 0x640000) : regionWrite r off d = refuseWrite r 0 off d := by
  rw [regionWrite, if_neg hr, if_neg (by omega), if_pos ⟨h1, h2⟩]

/-! ### The clauses of O48 -/

theorem functionCounterRead_latches (f : Nat) (s : State) (up : fnUp f s.dev = true) :
    Completes (.counterLowWordRead .pcie f 0x10) s (fun d =>
      let x := fnOf f s.dev
      (fnOf f d).ctr = { x.ctr with latchPcie := (ctrVal (fnSel x) x.ctr).extractLsb' 32 16 } ∧
      (∀ g, g ≠ f → fnOf g d = fnOf g s.dev) ∧ d.out = s.dev.out ++ [.counterLow (readWord f 0x10 s.dev)] ∧
      d = { s.dev with host := d.host, out := d.out }) := by
  refine counterLowWordRead_completes (readerUp_pcie_of_fnUp up) ?_
  rw [latchAt_functionCounter]
  refine ⟨?_, fun g hg => ?_, rfl, rfl⟩
  · exact congrArg Fn.ctr (fnOf_modFn_self _ ((fnUp_iff f s.dev).mp up).2)
  · exact fnOf_modFn_of_ne _ _ hg

theorem eventCounterRead_latches (r : Reader) (s : State) (up : readerUp r 0 0x610020 s.dev = true) :
    Completes (.counterLowWordRead r 0 0x610020) s (fun d =>
      d.events.ctr = latchFor r (ctrVal (evrSel s.dev.events) s.dev.events.ctr) s.dev.events.ctr ∧
      d = { s.dev with events := { s.dev.events with ctr := d.events.ctr }, out := d.out }) := by
  refine counterLowWordRead_completes up ?_
  rw [latchAt_eventCounter]
  exact ⟨rfl, rfl⟩

theorem functionStatusWrite_clears (v : Word) (f : Nat) (s : State) (up : fnUp f s.dev = true) :
    Completes (.registerWrite (.function f) 0x08 v) s (fun d =>
      (fnOf f d).acuFault = ((fnOf f s.dev).acuFault && !v.getLsbD 27) ∧
      (fnOf f d).queueError = ((fnOf f s.dev).queueError && !v.getLsbD 26) ∧ (∀ g, g ≠ f → fnOf g d = fnOf g s.dev) ∧
      d = { s.dev with host := d.host }) := by
  refine functionWrite_completes up ?_
  have hf := ((fnUp_iff f s.dev).mp up).2
  rw [writeReg_functionStatus]
  refine ⟨?_, ?_, fun g hg => fnOf_modFn_of_ne _ _ hg, rfl⟩
  · rw [fnOf_modFn_self _ hf]; rfl
  · rw [fnOf_modFn_self _ hf]; rfl

theorem acuFaultWrite_clears (v : Word) (s : State) (up : fnUp 0 s.dev = true) :
    Completes (.registerWrite (.function 0) 0x240004 v) s (fun d => d.host.faultValid = (s.dev.host.faultValid && !v.getLsbD 31) ∧
      d.host.faultOverflow = (s.dev.host.faultOverflow && !v.getLsbD 30) ∧
      d = { s.dev with host := { s.dev.host with faultValid := d.host.faultValid, faultOverflow := d.host.faultOverflow } }) := by
  refine functionWrite_completes up ?_
  rw [writeReg_acuFault]
  exact ⟨rfl, rfl, rfl⟩

theorem alertWrite_sets (v : Word) (s : State) (up : fnUp 0 s.dev = true) :
    Completes (.registerWrite (.function 0) 0x610010 v) s (fun d => d.events.hostNotify = v.getLsbD 29 ∧ d.events.alertMin.toNat ≤ 3 ∧
      ((v.extractLsb' 24 3).toNat ≤ 3 → d.events.alertMin = v.extractLsb' 24 3) ∧ (v.getLsbD 31 = true → d.events.alert ≠ .silenced) ∧
      d = { s.dev with events := d.events, out := d.out }) := by
  refine functionWrite_completes up ?_
  rw [writeReg_alert]
  refine ⟨writeAlert_hostNotify v _, ?_, fun hm => ?_, writeAlert_resumes _, ?_⟩
  · rw [writeAlert_alertMin]; split
    · decide
    · omega
  · rw [writeAlert_alertMin, if_neg (by omega)]
  · rw [writeAlert_frame]

theorem custodyRegisterWrite_refused (r : Region) (off : Nat) (v : Word) (s : State) (hreset : outOfReset s.dev = true) (hr : r ≠ .custody)
    (hx : regionExists s.dev r = true) (h1 : 0x600000 ≤ off) (h2 : off < 0x601000) :
    Completes (.registerWrite (.region r) off v) s (fun d => d.custody.coCount = satInc s.dev.custody.coCount ∧
      d.custody.coRegion = BitVec.ofNat 8 (regionNo r) ∧ d.events.submitted = s.dev.events.submitted + 1 ∧
      d = { s.dev with events := d.events, custody := { s.dev.custody with coCount := d.custody.coCount, coRegion := d.custody.coRegion } }) := by
  refine regionWrite_completes hreset hx ?_
  rw [regionWrite_of_custodyRegister _ hr h1 h2]
  exact ⟨rfl, rfl, refuseWrite_submitted _ _ _ _, rfl⟩

theorem partitionRegisterWrite_refused (r : Region) (off : Nat) (v : Word) (s : State) (hreset : outOfReset s.dev = true)
    (hr : r ≠ .custody) (hx : regionExists s.dev r = true) (h1 : 0x610000 ≤ off) (h2 : off < 0x640000) :
    Completes (.registerWrite (.region r) off v) s (fun d => d.events.submitted = s.dev.events.submitted + 1 ∧
      d = { s.dev with events := d.events }) := by
  refine regionWrite_completes hreset hx ?_
  rw [regionWrite_of_partitionRegister _ hr h1 h2]
  exact ⟨refuseWrite_submitted _ _ _ _, rfl⟩

/-- Settles O48, clause by clause from the register at each offset. -/
theorem registersAreReadAndWritten : Obligations.RegistersAreReadAndWritten := by
  refine ⟨functionCounterRead_latches, fun s up => eventCounterRead_latches .pcie s (readerUp_pcie_of_fnUp up),
    eventCounterRead_latches .smbus, fun r x s up hx => ?_, functionStatusWrite_clears, fun v s up => ⟨acuFaultWrite_clears v s up,
      alertWrite_sets v s up, functionWrite_completes up (writeReg_readSel v s.dev)⟩, fun r off v s hreset hr =>
    ⟨custodyRegisterWrite_refused r off v s hreset hr, partitionRegisterWrite_refused r off v s hreset hr, exec_regionWrite_of_absent⟩,
    fun off v s up => ⟨stoppedWrite_completes up rfl (writeReg_readSel v s.dev), exec_stoppedWrite_of_lt up⟩, fun off v s h => ?_⟩
  · rw [exec_evrReadD0 up, copyRecord_of_some hx]
  · exact exec_functionWrite_of_writeReg_eq (writeReg_of_beyond v s.dev h) (writeReg_of_beyond v s.dev h)

end Sys2Proof.Machine
end

section
/-! SUPPORT. What the watch, the supervision of the regions and the tamper monitors stand on, and that the work on jobs, grants, events and
sessions leaves it alone. -/

namespace Sys2Proof.Machine

/-! ### What stands -/

/-- Of a bench: whether it is fenced or halted, and its speed code. -/
def standBench (b : Bench) : Bench := { fenced := b.fenced, halted := b.halted, lehr := { speed := b.lehr.speed } }
/-- Of a path: whether it is fenced or halted. -/
def standPath (p : NetPath) : NetPath := { fenced := p.fenced, halted := p.halted }
/-- Of the tamper monitors: everything but the Cullet line. -/
def standTamper (t : Tamper) : Tamper :=
  { t with culletFired := false, overwriteActive := false, overwriteDone := false, firings := 0, cursor := 0, culletTick := 0 }
/-- Of the device: the timebase, the fuses, the tamper sources and samples, which regions are fenced or halted, and the benches' speeds. -/
def standing (d : Device) : Device :=
  { time := d.time, fuses := d.fuses, tamper := standTamper d.tamper, keys := { halted := d.keys.halted }
    benches := tabMap (fun _ => standBench) d.benches, host := { fenced := d.host.fenced, halted := d.host.halted }
    net := { a := standPath d.net.a, b := standPath d.net.b }, flash := { fenced := d.flash.fenced, halted := d.flash.halted } }

variable {d e : Device}

theorem time_of_standing (h : standing d = e) : d.time = e.time := h ▸ rfl
theorem fuses_of_standing (h : standing d = e) : d.fuses = e.fuses := h ▸ rfl
theorem tamper_of_standing (h : standing d = e) : standTamper d.tamper = e.tamper := h ▸ rfl
theorem sourceOf_of_standing (h : standing d = e) (n : Nat) : sourceOf n d = sourceOf n e := h ▸ rfl
theorem tabGet_of_standing (h : standing d = e) (b : Nat) : (tabGet b d.benches).map standBench = tabGet b e.benches :=
  h ▸ (tabGet_tabMap b (fun _ => standBench) d.benches).symm
theorem benchOf_of_standing (h : standing d = e) (b : Nat) : standBench (benchOf b d) = benchOf b e := by
  have hb := tabGet_of_standing h b
  unfold benchOf tabGetD
  rw [← hb]
  cases tabGet b d.benches <;> rfl
theorem pathOf_of_standing (h : standing d = e) (isB : Bool) : standPath (pathOf isB d) = pathOf isB e := by
  subst h; cases isB <;> rfl
theorem regionAlive_of_standing (h : standing d = e) (r : Region) : regionAlive d r = regionAlive e r := by
  cases r with
  | bench b =>
    simp only [regionAlive, ← tabGet_of_standing h b, ← benchOf_of_standing h b, Option.isSome_map]
    rfl
  | path isB => simp only [regionAlive, ← pathOf_of_standing h isB]; rfl
  | _ => subst h; rfl

/-! ### Updates that leave it alone -/

/-- Parts that are not among it change. -/
theorem standing_mk {pins start battery custody gaffer shares gather events power draws out : _} (e : Device) :
    standing { e with pins, start, battery, custody, gaffer, shares, gather, events, power, draws, out } = standing e := rfl

/-- The parts that are partly among it change, and keep what is. -/
theorem standing_congr (htime : d.time = e.time) (hfuses : d.fuses = e.fuses) (htamper : standTamper d.tamper = standTamper e.tamper)
    (hkeys : d.keys.halted = e.keys.halted)
    (hbenches : tabMap (fun _ => standBench) d.benches = tabMap (fun _ => standBench) e.benches)
    (hhost : d.host.fenced = e.host.fenced ∧ d.host.halted = e.host.halted)
    (hnet : standPath d.net.a = standPath e.net.a ∧ standPath d.net.b = standPath e.net.b)
    (hflash : d.flash.fenced = e.flash.fenced ∧ d.flash.halted = e.flash.halted) : standing d = standing e := by
  simp only [standing, htime, hfuses, htamper, hkeys, hbenches, hhost, hnet, hflash]

theorem tabMap_tabMod_of_eq {α : Type} {g f : α → α} (hf : ∀ x, g (f x) = g x) (k : Nat) (t : Tab α) :
    tabMap (fun _ => g) (tabMod k f t) = tabMap (fun _ => g) t := by
  induction t with
  | nil => rfl
  | cons p t ih =>
    obtain ⟨i, x⟩ := p
    simp only [tabMod]
    split
    · simp only [tabMap, List.map_cons, hf]
    · exact congrArg ((i, g x) :: ·) ih
theorem tabMap_tabMap_of_eq {α : Type} {g : α → α} {f : Nat → α → α} {t : Tab α} (hf : ∀ n x, g (f n x) = g x) :
    tabMap (fun _ => g) (tabMap f t) = tabMap (fun _ => g) t := by
  simp [tabMap, hf]

theorem modBench_standing {b : Nat} {f : Bench → Bench} {d : Device} (hf : ∀ x, standBench (f x) = standBench x) :
    standing (modBench b f d) = standing d :=
  standing_congr rfl rfl rfl rfl (tabMap_tabMod_of_eq hf b d.benches) ⟨rfl, rfl⟩ ⟨rfl, rfl⟩ ⟨rfl, rfl⟩
theorem mapBenches_standing {f : Nat → Bench → Bench} {d : Device} (hf : ∀ n x, standBench (f n x) = standBench x) :
    standing { d with benches := tabMap f d.benches } = standing d :=
  standing_congr rfl rfl rfl rfl (tabMap_tabMap_of_eq hf) ⟨rfl, rfl⟩ ⟨rfl, rfl⟩ ⟨rfl, rfl⟩
theorem modPath_standing {isB : Bool} {f : NetPath → NetPath} {d : Device} (hf : ∀ p, standPath (f p) = standPath p) :
    standing (modPath isB f d) = standing d :=
  standing_congr rfl rfl rfl rfl rfl ⟨rfl, rfl⟩ (by cases isB <;> exact ⟨by simp [modPath, hf], by simp [modPath, hf]⟩) ⟨rfl, rfl⟩

theorem ite_standing {c : Prop} [Decidable c] {x d : Device} (hx : standing x = standing d) : standing (if c then x else d) = standing d := by
  split
  · exact hx
  · rfl
theorem doIf_standing {c : Bool} {f : Device → Device} {d : Device} (hf : ∀ x, standing (f x) = standing x) :
    standing (doIf c f d) = standing d := ite_standing (hf d)
theorem doWith_standing {α : Type} {o : Option α} {f : α → Device → Device} {d : Device} (hf : ∀ v x, standing (f v x) = standing x) :
    standing (doWith o f d) = standing d := by
  cases o with
  | none => rfl
  | some v => exact hf v d
theorem foldl_standing {α : Type} {f : Device → α → Device} {xs : List α} {d : Device} (hf : ∀ x v, standing (f x v) = standing x) :
    standing (xs.foldl f d) = standing d := by
  induction xs generalizing d with
  | nil => rfl
  | cons v xs ih => exact ih.trans (hf d v)
theorem doEach_standing {α : Type} {xs : List α} {f : α → Device → Device} {d : Device} (hf : ∀ v x, standing (f v x) = standing x) :
    standing (doEach xs f d) = standing d := foldl_standing fun x v => hf v x

/-! ### Events, traces and power -/

theorem emitVia_standing (via sev code region unit tenant detail) (d : Device) :
    standing (emitVia via sev code region unit tenant detail d) = standing d := rfl
theorem emit_standing (sev code region detail) (d : Device) : standing (emit sev code region detail d) = standing d := rfl
theorem emitC_standing (sev code detail) (d : Device) : standing (emitC sev code detail d) = standing d := rfl
theorem openWindow_standing (w) (d : Device) : standing (openWindow w d) = standing d := rfl
theorem startEntry_standing (kind subject unit detail) (d : Device) : standing (startEntry kind subject unit detail d) = standing d := rfl
theorem wake_standing (cause counter) (d : Device) : standing (wake cause counter d) = standing d := by
  unfold wake; split
  · rfl
  · split <;> rfl
  · rfl
theorem setLevel_standing (l hours) (d : Device) : standing (setLevel l hours d) = standing d := by
  unfold setLevel; split <;> rfl
theorem noteTransition_standing (l) (d : Device) : standing (noteTransition l d) = standing d :=
  doIf_standing fun _ => rfl

/-! ### Benches, engines and grants (05) -/

theorem modCore_standing (c f) (d : Device) : standing (modCore c f d) = standing d := modBench_standing fun _ => rfl
theorem modEngine_standing (b k n f) (d : Device) : standing (modEngine b k n f d) = standing d := modBench_standing fun _ => rfl
theorem engineWork_standing (b k n c v job) (d : Device) : standing (engineWork b k n c v job d) = standing d :=
  modBench_standing fun _ => rfl
theorem lehCount_standing (b k) (d : Device) : standing (lehCount b k d) = standing d := modBench_standing fun _ => rfl
theorem modJob_standing (id f) (d : Device) : standing (modJob id f d) = standing d := rfl
theorem charge_standing (kind t n) (d : Device) : standing (charge kind t n d) = standing d := rfl
theorem freePort_standing (g) (d : Device) : standing (freePort g d) = standing d := ite_standing rfl
theorem saveContext_standing (g) (d : Device) : standing (saveContext g d) = standing d := by
  unfold saveContext; split
  · rfl
  · dsimp only; split
    · rfl
    · simp only [engineWork_standing, modJob_standing, modEngine_standing]
theorem dropParked_standing (p) (d : Device) : standing (dropParked p d) = standing d := by
  simp only [dropParked, standing_mk, doEach_standing saveContext_standing]
theorem beginTest_standing (b k n cause) (d : Device) : standing (beginTest b k n cause d) = standing d := by
  simp only [beginTest, standing_mk, modEngine_standing, dropParked_standing]
  split
  · exact modBench_standing fun _ => rfl
  · rfl
theorem beginDue_standing (b k n) (d : Device) : standing (beginDue b k n d) = standing d := by
  unfold beginDue; split
  · rfl
  · simp only [beginTest_standing, modEngine_standing]
theorem endGrant_standing (g park) (d : Device) : standing (endGrant g park d) = standing d := by
  simp only [endGrant]
  rw [doWith_standing (fun k x => by simp only [beginDue_standing, engineWork_standing, modEngine_standing]), standing_mk]
  split
  · simp only [freePort_standing, charge_standing]
  · simp only [saveContext_standing, freePort_standing, charge_standing]
theorem forgetChain_standing (job) (d : Device) : standing (forgetChain job d) = standing d := mapBenches_standing fun _ _ => rfl
theorem loadFromPort_standing (b k n j) (d : Device) : standing (loadFromPort b k n j d) = standing d := by
  unfold loadFromPort; split
  · dsimp only; split
    · simp only [engineWork_standing, modEngine_standing]
    · simp only [modEngine_standing]
  · rfl
theorem restoreContext_standing (b k n j) (d : Device) : standing (restoreContext b k n j d) = standing d := by
  unfold restoreContext; split
  · rfl
  · simp only [engineWork_standing, modJob_standing, modEngine_standing]
theorem startEngine_standing (b k n job) (d : Device) : standing (startEngine b k n job d) = standing d := by
  unfold startEngine
  rw [doWith_standing (fun j x => by simp only [restoreContext_standing, loadFromPort_standing, modEngine_standing]), modEngine_standing]
theorem giveUnit_standing (r unit) (d : Device) : standing (giveUnit r unit d) = standing d := by
  simp only [giveUnit, doWith_standing (fun _ _ => startEngine_standing _ _ _ _ _), standing_mk, dropParked_standing]
theorem grantOne_standing (bench kind) (d : Device) : standing (grantOne bench kind d) = standing d := by
  unfold grantOne; split
  · rfl
  · split
    · rfl
    · exact giveUnit_standing _ _ d
theorem arbitrate_standing (bench kind) (d : Device) : standing (arbitrate bench kind d) = standing d :=
  foldl_standing fun x _ => grantOne_standing bench kind x
theorem dropGrants_standing (job park) (d : Device) : standing (dropGrants job park d) = standing d := by
  simp only [dropGrants, doEach_standing (fun _ _ => arbitrate_standing _ _ _), standing_mk, doEach_standing (fun _ _ => endGrant_standing _ _ _),
    forgetChain_standing]

end Sys2Proof.Machine
end

section
/-! SUPPORT. Jobs, random draws and sessions leave alone what stands. -/

namespace Sys2Proof.Machine

/-! ### Jobs (04) -/

theorem gafCount_standing (k) (d : Device) : standing (gafCount k d) = standing d := rfl
theorem coreCount_standing (c k n) (d : Device) : standing (coreCount c k n d) = standing d := rfl
theorem modTenant_standing (t f) (d : Device) : standing (modTenant t f d) = standing d := rfl
theorem affect_standing (t code) (d : Device) : standing (affect t code d) = standing d := rfl
theorem traceJob_standing (kind j code) (d : Device) : standing (traceJob kind j code d) = standing d := rfl
theorem traceUnit_standing (b core) (d : Device) : standing (traceUnit b core d) = standing d := rfl
theorem modUnit_standing (c f) (d : Device) : standing (modUnit c f d) = standing d := by
  unfold modUnit; split <;> simp only [modCore_standing]
theorem freeCore_standing (c) (d : Device) : standing (freeCore c d) = standing d := by
  rw [freeCore, doWith_standing fun _ _ => modJob_standing _ _ _, modUnit_standing]
theorem freeJobCore_standing (j) (d : Device) : standing (freeJobCore j d) = standing d := doWith_standing freeCore_standing
theorem advanceGo_standing (st fuel) (d : Device) : standing (advanceGo st fuel d) = standing d := by
  induction fuel generalizing d with
  | zero => rfl
  | succ fuel ih =>
    unfold advanceGo; split
    · exact (ih _).trans rfl
    · rfl
theorem advancePtr_standing (st) (d : Device) : standing (advancePtr st d) = standing d := advanceGo_standing st _ d
theorem dropState_standing (id) (d : Device) : standing (dropState id d) = standing d := by
  unfold dropState; split
  · rfl
  · exact (modJob_standing _ _ _).trans (doWith_standing fun _ _ => modBench_standing fun _ => rfl)
theorem dropWrites_standing (id) (d : Device) : standing (dropWrites id d) = standing d := rfl
theorem noteImage_standing (j code) (d : Device) : standing (noteImage j code d) = standing d :=
  ite_standing (standing_congr rfl rfl rfl rfl rfl ⟨rfl, rfl⟩ ⟨rfl, rfl⟩ ⟨rfl, rfl⟩)
theorem answerJob_standing (id code) (d : Device) : standing (answerJob id code d) = standing d := by
  unfold answerJob; split
  · rfl
  · simp only [advancePtr_standing, modJob_standing, noteImage_standing, dropWrites_standing, dropState_standing]
theorem settleDraws_standing (retired j) (d : Device) : standing (settleDraws retired j d) = standing d := by
  unfold settleDraws; split
  · split <;> rfl
  · rfl
theorem settleBench_standBench (retired id) (b : Bench) : standBench (settleBench retired id b) = standBench b := by
  have counted : ∀ (ws : List WorkCount) (x : Bench), standBench (ws.foldl (fun b w =>
      modEngineBlock w.kind (fun x => { x with ctr := ctrAdd w.counter w.amount x.ctr }) b) x) = standBench x := by
    intro ws
    induction ws with
    | nil => exact fun _ => rfl
    | cons w ws ih => exact fun x => ih _
  unfold settleBench; dsimp only; split
  · exact counted _ _
  · rfl
theorem settleWork_standing (retired j) (d : Device) : standing (settleWork retired j d) = standing d :=
  (settleDraws_standing _ _ _).trans (mapBenches_standing fun _ _ => settleBench_standBench _ _ _)
/-- The counts that a job's end leaves with the core and the bench on which it ran. -/
theorem countEnd_standing (ran : Option CoreRef) (on : Option Nat) (d : Device) :
    standing (doWith on (fun b => lehCount b 3) (doWith ran (fun c => coreCount c 1 1) d)) = standing d := by
  rw [doWith_standing fun _ _ => lehCount_standing _ _ _, doWith_standing fun _ _ => coreCount_standing _ _ _ _]
theorem dropJob_standing (id code) (d : Device) : standing (dropJob id code d) = standing d := by
  unfold dropJob; split
  · rfl
  · simp only [answerJob_standing, countEnd_standing, traceJob_standing, settleWork_standing, freeJobCore_standing, dropGrants_standing]
theorem squashJob_standing (id code) (d : Device) : standing (squashJob id code d) = standing d := by
  unfold squashJob; split
  · rfl
  · dsimp only; split <;> simp only [dropJob_standing, affect_standing, gafCount_standing]
theorem reenterJob_standing (id) (d : Device) : standing (reenterJob id d) = standing d := by
  unfold reenterJob; split
  · rfl
  · simp only [modJob_standing, modTenant_standing, countEnd_standing, gafCount_standing, traceJob_standing, settleWork_standing,
      freeJobCore_standing, dropGrants_standing, dropWrites_standing]
theorem faultJob_standing (id further) (d : Device) : standing (faultJob id further d) = standing d := by
  unfold faultJob; split
  · rfl
  · split
    · exact squashJob_standing _ _ d
    · exact reenterJob_standing _ d
theorem loseState_standing (id) (d : Device) : standing (loseState id d) = standing d := by
  unfold loseState; split
  · rfl
  · split
    · exact squashJob_standing _ _ d
    · split
      · exact squashJob_standing _ _ d
      · simp only [standing_mk, modJob_standing, dropState_standing, reenterJob_standing]
theorem leaveBench_standing (b j) (d : Device) : standing (leaveBench b j d) = standing d := by
  unfold leaveBench; split
  · exact loseState_standing _ d
  · split
    · exact ite_standing (faultJob_standing _ _ d)
    · exact ite_standing (faultJob_standing _ _ d)
    · exact ite_standing (modJob_standing _ _ d)
    · rfl
/-- The benches, the flash and the scheduler forget the jobs. -/
theorem forgetJobs_standing (gaffer shares custody writes) (e : Device) :
    standing { e with gaffer, shares, custody, benches := tabMap (fun _ b => { b with work := [] }) e.benches
                      flash := { e.flash with writes } } = standing e :=
  standing_congr rfl rfl rfl rfl (by dsimp only; exact tabMap_tabMap_of_eq fun _ _ => rfl) ⟨rfl, rfl⟩ ⟨rfl, rfl⟩ ⟨rfl, rfl⟩
theorem discardAll_standing (d : Device) : standing (discardAll d) = standing d := by
  simp only [discardAll, forgetJobs_standing, doEach_standing dropState_standing, doEach_standing fun _ _ => endGrant_standing _ _ _,
    doEach_standing fun _ _ => freeJobCore_standing _ _, standing_mk]

/-! ### Dispatch (04 R135 to R139) -/

theorem expireJob_standing (id) (d : Device) : standing (expireJob id d) = standing d := by
  unfold expireJob; split
  · rfl
  · simp only [answerJob_standing, gafCount_standing, traceJob_standing]
theorem expireHeads_standing (fuel) (d : Device) : standing (expireHeads fuel d) = standing d := by
  induction fuel generalizing d with
  | zero => rfl
  | succ fuel ih =>
    unfold expireHeads; split
    · rfl
    · split
      · exact (ih _).trans (expireJob_standing _ d)
      · rfl
theorem fireVector_standing (f v) (d : Device) : standing (fireVector f v d) = standing d := by
  unfold fireVector; split <;> rfl
theorem denied_standing (f purpose write addr) (d : Device) : standing (denied f purpose write addr d) = standing d := by
  unfold denied
  rw [fireVector_standing]
  refine standing_congr rfl rfl rfl rfl rfl ?_ ⟨rfl, rfl⟩ ⟨rfl, rfl⟩
  dsimp only [emit, emitVia, fnCount, modFn]
  split <;> exact ⟨rfl, rfl⟩
theorem decodeRead_standing (j) (d : Device) : standing (decodeRead j d).2 = standing d := by
  unfold decodeRead; split
  · split
    · exact denied_standing _ _ _ _ d
    · rfl
  · rfl
theorem beginReset_standing (j) (d : Device) : standing (beginReset j d).2 = standing d := by
  unfold beginReset; split
  · rfl
  · split <;> rfl
theorem dispatchJob_standing (c j) (d : Device) : standing (dispatchJob c j d) = standing d := by
  have reset : ∀ (x : Prop) [Decidable x] (code : Code) (k : Job) (e : Device),
      standing (if x then beginReset k e else (code, e)).2 = standing e := by
    intro x _ code k e; split
    · exact beginReset_standing k e
    · rfl
  unfold dispatchJob
  dsimp only
  rw [doIf_standing fun _ => dropJob_standing _ _ _]
  simp only [traceJob_standing, gafCount_standing, modJob_standing, standing_mk, modUnit_standing, coreCount_standing, reset, decodeRead_standing]
theorem dispatchGo_standing (fuel) (d : Device) : standing (dispatchGo fuel d) = standing d := by
  induction fuel generalizing d with
  | zero => rfl
  | succ fuel ih =>
    unfold dispatchGo; split
    · rfl
    · exact (ih _).trans (dispatchJob_standing _ _ d)
theorem dispatchAll_standing (d : Device) : standing (dispatchAll d) = standing d := by
  unfold dispatchAll; split
  · exact (dispatchGo_standing _ _).trans (expireHeads_standing _ d)
  · rfl

/-! ### Random draws (09) -/

theorem checkService_standing (d : Device) : standing (checkService d) = standing d := by
  unfold checkService; split
  · exact (doEach_standing fun _ _ => squashJob_standing _ _ _).trans rfl
  · rfl
theorem stopBenchSources_standing (b) (d : Device) : standing (stopBenchSources b d) = standing d := (checkService_standing _).trans rfl
theorem forDraw_standing (k n) (d : Device) : standing (forDraw k n d) = standing d := by
  unfold forDraw; dsimp only; split <;> rfl
theorem spend_standing (k n) (d : Device) : standing (spend k n d) = standing d := rfl

/-! ### Sessions (13) -/

theorem netCount_standing (isB k) (d : Device) : standing (netCount isB k d) = standing d := modPath_standing fun _ => rfl
theorem tableWrite_standing {isB : Bool} {f : Net → Net} {d : Device} (ha : ∀ n, (f n).a = n.a) (hb : ∀ n, (f n).b = n.b) :
    standing (tableWrite isB f d) = standing d := by
  unfold tableWrite; split
  · simp only [standing, ha, hb]
  · exact netCount_standing _ _ d
theorem pathWrite_standing (i f) (d : Device) : standing (pathWrite i f d) = standing d := tableWrite_standing (fun _ => rfl) fun _ => rfl
theorem freeSession_standing (i) (d : Device) : standing (freeSession i d) = standing d := pathWrite_standing _ _ d
theorem freeAllSessions_standing (d : Device) : standing (freeAllSessions d) = standing d := rfl
theorem noteNonce_standing (isB twin n) (d : Device) : standing (noteNonce isB twin n d) = standing d := rfl
theorem noteRefused_standing (n reason) (d : Device) : standing { d with net := noteRefused n reason d.net } = standing d := rfl
theorem sendClear_standing (isB dest h payload) (d : Device) : standing (sendClear isB dest h payload d) = standing d := by
  unfold sendClear; dsimp only; split
  · rfl
  · split
    · split
      · exact (standing_mk _).trans (netCount_standing _ _ d)
      · exact netCount_standing _ _ d
    · exact netCount_standing _ _ d
theorem sendAbort_standing (isB dest session nonce reason) (d : Device) :
    standing (sendAbort isB dest session nonce reason d) = standing d := by
  unfold sendAbort; dsimp only; split <;> simp only [netCount_standing, sendClear_standing]
theorem sendMessage_standing (type session a b m) (d : Device) : standing (sendMessage type session a b m d) = standing d :=
  doEach_standing fun _ _ => by simp only [sendClear_standing]
theorem abortSession_standing (i reason) (d : Device) : standing (abortSession i reason d) = standing d := by
  unfold abortSession; dsimp only
  rw [freeSession_standing]
  split <;> split <;> simp only [sendAbort_standing, noteRefused_standing]
theorem openHello_standing (isB f twin) (d : Device) : standing (openHello isB f twin d) = standing d := by
  unfold openHello; dsimp only; split
  · split <;> simp only [sendAbort_standing, noteRefused_standing, noteNonce_standing]
  · rw [doWith_standing fun _ _ => by simp only [sendMessage_standing, pathWrite_standing, spend_standing, forDraw_standing]]
    exact noteNonce_standing _ _ _ d
theorem serveHeld_standing (d : Device) : standing (serveHeld d) = standing d :=
  (doEach_standing fun _ _ => openHello_standing _ _ _ _).trans rfl
theorem takeover_standing (isB) (d : Device) : standing (takeover isB d) = standing d := by
  unfold takeover; dsimp only
  rw [serveHeld_standing, doEach_standing fun _ _ => abortSession_standing _ _ _, emit_standing]
  refine (tableWrite_standing ?_ ?_).trans (modPath_standing ?_) <;> exact fun _ => rfl
theorem abandonHandover_standing (d : Device) : standing (abandonHandover d) = standing d := by
  unfold abandonHandover; split
  · rfl
  · rw [serveHeld_standing]
    refine (modPath_standing ?_).trans ?_
    · exact fun _ => rfl
    · exact (standing_congr rfl rfl rfl rfl rfl ⟨rfl, rfl⟩ ⟨rfl, rfl⟩ ⟨rfl, rfl⟩)

end Sys2Proof.Machine
end

section
/-! SUPPORT. A trip changes its own source, and of the rest of what stands nothing. -/

namespace Sys2Proof.Machine

/-! ### The response to a trip (17 R583 to R590) -/

theorem clearAllScratch_standBench (b : Bench) : standBench (clearAllScratch b) = standBench b := by
  have cleared : ∀ (ns : List Nat) (x : Bench), standBench (ns.foldl (fun b n => clearScratch n b) x) = standBench x := by
    intro ns
    induction ns with
    | nil => exact fun _ => rfl
    | cons n ns ih => exact fun x => ih _
  exact cleared _ b
theorem clearBench_standBench (b : Bench) : standBench (clearBench b) = standBench b :=
  (show standBench (clearBench b) = standBench (clearAllScratch (flushCache b)) from rfl).trans (clearAllScratch_standBench _)
theorem clearUse_standing (d : Device) : standing (clearUse d) = standing d :=
  standing_congr rfl rfl rfl rfl (tabMap_tabMap_of_eq fun _ b => clearBench_standBench b) ⟨rfl, rfl⟩ ⟨rfl, rfl⟩ ⟨rfl, rfl⟩
theorem tearImage_fenced_halted (f : Flash) : (tearImage f).fenced = f.fenced ∧ (tearImage f).halted = f.halted := by
  unfold tearImage; split
  · exact ⟨rfl, rfl⟩
  · dsimp only; split
    · unfold setImage; split <;> exact ⟨rfl, rfl⟩
    · unfold setCopy; split <;> exact ⟨rfl, rfl⟩
theorem stopWork_standing (d : Device) : standing (stopWork d) = standing d :=
  calc standing (stopWork d)
    _ = standing (clearUse (discardAll d)) := standing_congr rfl rfl rfl rfl rfl ⟨rfl, rfl⟩ ⟨rfl, rfl⟩ (tearImage_fenced_halted _)
    _ = standing d := by rw [clearUse_standing, discardAll_standing]
theorem fireCullet_standing (d : Device) : standing (fireCullet d) = standing d :=
  calc standing (fireCullet d)
    _ = standing (clearUse d) := standing_congr rfl rfl rfl rfl rfl ⟨rfl, rfl⟩ ⟨rfl, rfl⟩ ⟨rfl, rfl⟩
    _ = standing d := clearUse_standing d
/-- A source counts its trip, and its evidence as called for. -/
def counting (d : Device) (s : TamperSource) : TamperSource := { s with trips := satInc s.trips, counted := s.counted || state d != .blank }
theorem respond_standing (n night seconds) (d : Device) :
    standing (respond n night seconds d) = standing (setSource n (counting d (sourceOf n d)) d) := by
  simp only [respond, wake_standing, setLevel_standing, emitC_standing, noteTransition_standing, standing_mk, freeAllSessions_standing,
    stopWork_standing]
  split
  · exact fireCullet_standing _
  · rfl

/-! ### Trips (17 R580) -/

/-- The source is tripped, with this detector's output high. -/
def trippedBy (n : Nat) (det : Detector) (d : Device) : Prop := (sourceOf n d).state = .tripped ∧ detectorHigh n det d = true
/-- The device without its tamper sources: what a trip does not change of what stands. -/
def sourceless (d : Device) : Device := { d with tamper := { d.tamper with sources := [] } }

theorem sourceOf_setSource (n m : Nat) (s : TamperSource) (d : Device) : sourceOf m (setSource n s d) = if n = m then s else sourceOf m d :=
  tabGetD_tabSet n m s {} d.tamper.sources

/-- A source after the output of one of its detectors. -/
def struck (det : Detector) (s : TamperSource) : TamperSource :=
  { s with detA := s.detA || det == .detA, detB := s.detB || det == .detB, state := .tripped }

theorem respond_sourceless (n night seconds) (d : Device) : standing (sourceless (respond n night seconds d)) = standing (sourceless d) :=
  congrArg sourceless (respond_standing n night seconds d)
theorem sourceOf_respond (n night seconds m) (d : Device) :
    sourceOf m (respond n night seconds d) = if n = m then counting d (sourceOf n d) else sourceOf m d :=
  (sourceOf_of_standing (respond_standing n night seconds d) m).trans (sourceOf_setSource n m _ d)

theorem tripSource_of_off {n : Nat} (det : Detector) {d : Device} (h : ¬(srcEnabled n d = true ∧ d.tamper.armed = true)) :
    tripSource n det d = d := by
  rw [tripSource, if_pos]
  cases hn : srcEnabled n d <;> simp_all
/-- A source in use, of armed monitors, takes the detector's output and is tripped; a quiet one responds. -/
theorem tripSource_of_on {n : Nat} (det : Detector) {d : Device} (hn : srcEnabled n d = true) (ha : d.tamper.armed = true) :
    tripSource n det d =
      if (sourceOf n d).state = .quiet then respond n false d.battery.opSeconds (setSource n (struck det (sourceOf n d)) d)
      else setSource n (struck det (sourceOf n d)) d := by
  rw [tripSource, hn, ha]
  simp only [Bool.not_true, Bool.or_self, Bool.false_eq_true, if_false, beq_iff_eq]
  rfl

/-- Of what stands, a trip changes nothing but its source. -/
theorem tripSource_sourceless (n det) (d : Device) : standing (sourceless (tripSource n det d)) = standing (sourceless d) := by
  by_cases h : srcEnabled n d = true ∧ d.tamper.armed = true
  · rw [tripSource_of_on det h.1 h.2]
    split
    · rw [respond_sourceless]; rfl
    · rfl
  · rw [tripSource_of_off det h]
theorem tripSource_time (n det) (d : Device) : (tripSource n det d).time = d.time := by
  injection tripSource_sourceless n det d
theorem tripSource_fuses (n det) (d : Device) : (tripSource n det d).fuses = d.fuses := by
  injection tripSource_sourceless n det d
theorem sourceOf_tripSource {n : Nat} (m : Nat) (det : Detector) {d : Device} (hn : srcEnabled n d = true) (ha : d.tamper.armed = true) :
    sourceOf m (tripSource n det d) =
      if n = m then if (sourceOf n d).state = .quiet then counting d (struck det (sourceOf n d)) else struck det (sourceOf n d)
      else sourceOf m d := by
  rw [tripSource_of_on det hn ha]
  split
  · rw [sourceOf_respond, sourceOf_setSource, if_pos rfl, sourceOf_setSource]
    split <;> rfl
  · rw [sourceOf_setSource]

theorem trippedBy_tripSource {n : Nat} (det : Detector) {d : Device} (hn : srcEnabled n d = true) (ha : d.tamper.armed = true) :
    trippedBy n det (tripSource n det d) := by
  have hs := sourceOf_tripSource n det hn ha
  rw [if_pos rfl] at hs
  constructor
  · rw [hs]; split <;> rfl
  · cases det <;> simp only [detectorHigh, hs] <;> split <;> simp [counting, struck]
/-- A later trip, of the same source or of another, leaves it tripped. -/
theorem trippedBy.tripSource {n : Nat} {det : Detector} {d : Device} (h : trippedBy n det d) (m : Nat) (det' : Detector) :
    trippedBy n det (tripSource m det' d) := by
  by_cases hon : srcEnabled m d = true ∧ d.tamper.armed = true
  · have hs := sourceOf_tripSource n det' hon.1 hon.2
    obtain ⟨hstate, hdet⟩ := h
    by_cases hm : m = n
    · subst hm
      cases det <;> simp_all [trippedBy, detectorHigh, struck]
    · rw [if_neg hm] at hs
      exact ⟨hs ▸ hstate, by cases det <;> simpa only [detectorHigh, hs] using hdet⟩
  · rwa [tripSource_of_off det' hon]

end Sys2Proof.Machine
end

section
/-! SUPPORT. The watch, its calibration and the samples: O9, O10 and O11. -/

namespace Sys2Proof.Machine

/-! ### Rows that act on their occasion -/

/-- A row whose occasion has arisen takes its effect. -/
theorem next_doIf {s : State} {due : Bool} {f : Device → Device} (h : due = true) :
    (.next { s with dev := doIf due f s.dev } : Host.Outcome State Fault Refusal) = .next { s with dev := f s.dev } := by
  rw [doIf, if_pos h]

/-! ### A watch tick (02 R46, R734) -/

theorem wakePf_frame (d : Device) : wakePf d = { d with pins := { d.pins with pfAnswer := (wakePf d).pins.pfAnswer } } := by
  unfold wakePf; split
  · split <;> rfl
  · rfl
theorem noteIdle_frame (d : Device) : noteIdle d = { d with power := { d.power with idleSince := (noteIdle d).power.idleSince } } := rfl
theorem noteIdle_wakePf_time (d : Device) : (noteIdle (wakePf d)).time = d.time := by
  rw [noteIdle_frame, wakePf_frame]
theorem noteIdle_wakePf_frame (d : Device) : noteIdle (wakePf d) = { d with
    pins := { d.pins with pfAnswer := (noteIdle (wakePf d)).pins.pfAnswer }
    power := { d.power with idleSince := (noteIdle (wakePf d)).power.idleSince } } := by
  rw [noteIdle_frame, wakePf_frame]

theorem xtalOk_of_edge {d : Device} (h : d.time.lastEdge = some d.time.ticks) : xtalOk d = true := by
  simp [xtalOk, h]

/-- The timebase after a tick, with the edge that came in it. -/
def ticked (edge : Bool) (d : Device) : TimeBase :=
  let t := { d.time with ticks := d.time.ticks + 1 }
  if edge then crystalEdge d.start.phase t else t
theorem exec_watchTick (edge : Bool) {s : State} (hreset : outOfReset s.dev = true) :
    exec (.watchTick edge) s = .next { s with dev := noteIdle (wakePf { s.dev with time := ticked edge s.dev }) } := next_doIf hreset

/-- Settles O9: the tick's own timebase, and the frame of what the tick does beside it. -/
theorem watchTickAdvancesTheWatch : Obligations.WatchTickAdvancesTheWatch := by
  intro edge s hreset
  refine ⟨_, exec_watchTick edge hreset, ?_⟩
  have htime := noteIdle_wakePf_time { s.dev with time := ticked edge s.dev }
  have hframe := noteIdle_wakePf_frame { s.dev with time := ticked edge s.dev }
  dsimp only
  rw [htime]
  cases edge
  case false => exact ⟨rfl, fun _ => rfl, nofun, hframe⟩
  case true =>
    refine ⟨rfl, nofun, fun _ => ⟨xtalOk_of_edge ?_, rfl, fun hphase => ?_⟩, hframe⟩
    · rw [htime]; rfl
    · exact if_neg fun h => hphase h.1

/-! ### Calibration (02 R44 to R46) -/

/-- How far a second of the crystal lies from 32,000,000 ticks. -/
def ticksOff (n : Nat) : Nat := if 32000000 < n then n - 32000000 else 32000000 - n
/-- The timebase with the error of the second that ends now. -/
def measured (d : Device) : TimeBase :=
  { d.time with secondAt := d.time.ticks, secondEdge := d.time.secondEdge + 32768, lastError := errorField (countError 32000000 (secondCount d)) }
/-- One step towards zero error from there. -/
def trimmed (d : Device) : TimeBase := stepTrim (decide (32000000 < secondCount d)) (measured d)

theorem calibrate_eq (d : Device) : calibrate d =
    let e := { d with time := if 320000 < ticksOff (secondCount d) then trimmed d else measured d }
    if 960000 < ticksOff (secondCount d) then timebaseFails e else e := by
  simp only [calibrate, ticksOff, decide_eq_true_eq]
  rfl
theorem calibrate_within {d : Device} (h : ticksOff (secondCount d) ≤ 320000) : calibrate d = { d with time := measured d } := by
  simp only [calibrate_eq, if_neg (by omega : ¬320000 < ticksOff (secondCount d)), if_neg (by omega : ¬960000 < ticksOff (secondCount d))]
theorem calibrate_between {d : Device} (h : 320000 < ticksOff (secondCount d)) (h' : ticksOff (secondCount d) ≤ 960000) :
    calibrate d = { d with time := trimmed d } := by
  simp only [calibrate_eq, if_pos h, if_neg (Nat.not_lt.mpr h')]
theorem calibrate_beyond {d : Device} (h : 960000 < ticksOff (secondCount d)) : calibrate d = timebaseFails { d with time := trimmed d } := by
  simp only [calibrate_eq, if_pos (by omega : 320000 < ticksOff (secondCount d)), if_pos h]

/-- The error of a count within 3% fits the field. -/
theorem errorField_countError {n : Nat} (h : ticksOff n ≤ 960000) :
    errorField (countError 32000000 n) = BitVec.ofInt 16 (countError 32000000 n) := by
  have hn : 31040000 ≤ n ∧ n ≤ 32960000 := by unfold ticksOff at h; split at h <;> omega
  have he : -300 ≤ countError 32000000 n ∧ countError 32000000 n ≤ 300 := by
    simp only [countError, Nat.reduceDiv, Nat.cast_ofNat]; omega
  rw [errorField, min_eq_right (by omega), max_eq_right (by omega)]

theorem trimmed_trim (d : Device) : (trimmed d).trim =
    if decide (32000000 < secondCount d) = Config.trimSlows then satInc d.time.trim else if d.time.trim = 0 then 0 else d.time.trim - 1 := by
  simp only [trimmed, stepTrim, beq_iff_eq]
  rfl

/-- Loss or failure of the timebase (02 R45): of what stands only T12 changes, which trips. -/
theorem timebaseFails_time (d : Device) : (timebaseFails d).time = d.time := tripSource_time 12 .detA _
theorem trippedBy_timebaseFails {d : Device} (hn : srcEnabled 12 d = true) (ha : d.tamper.armed = true) :
    trippedBy 12 .detA (timebaseFails d) := trippedBy_tripSource .detA hn ha

theorem exec_calibrationSecond (n : Nat) {s : State} (hreset : outOfReset s.dev = true) (ha : s.dev.tamper.armed = true)
    (hedges : s.dev.time.secondEdge + 32768 ≤ s.dev.time.edges) :
    exec (.watchCalibrationSecond n) s = .next { s with dev := calibrate s.dev } :=
  next_doIf (by simp [hreset, ha, secondEdges, hedges])
theorem exec_crystalEdgeLoss {s : State} (hreset : outOfReset s.dev = true) (ha : s.dev.tamper.armed = true)
    (hxtal : xtalOk s.dev = false) (hlost : s.dev.time.edgeLost = false) :
    exec .crystalEdgeLoss s = .next { s with dev := timebaseFails { s.dev with time := { s.dev.time with edgeLost := true } } } :=
  next_doIf (by simp [hreset, ha, hxtal, hlost])

/-- Settles O10: by how far the second lies from 32,000,000 ticks, within 1%, within 3% or beyond. -/
theorem calibrationFollowsTheCrystal : Obligations.CalibrationFollowsTheCrystal := by
  refine ⟨fun n s hreset ha hedges => ⟨fun hlo hhi => ?_, fun hrange => ?_, fun h12 hrange => ?_⟩, fun s hreset ha hxtal hlost h12 => ?_⟩
  · have hoff : ticksOff (secondCount s.dev) ≤ 320000 := by unfold ticksOff; split <;> omega
    rw [exec_calibrationSecond n hreset ha hedges, calibrate_within hoff, measured,
      errorField_countError (by omega)]
  · have hoff : 320000 < ticksOff (secondCount s.dev) ∧ ticksOff (secondCount s.dev) ≤ 960000 := by unfold ticksOff; split <;> omega
    have hfast : decide (32320000 < secondCount s.dev) = decide (32000000 < secondCount s.dev) := decide_eq_decide.mpr (by omega)
    refine ⟨_, exec_calibrationSecond n hreset ha hedges, ?_⟩
    rw [calibrate_between hoff.1 hoff.2, hfast]
    refine ⟨rfl, errorField_countError hoff.2, rfl, rfl, rfl, rfl, fun h => ?_, fun h => ?_⟩
    · exact (trimmed_trim _).trans (if_pos h)
    · exact (trimmed_trim _).trans (if_neg h)
  · have hoff : 960000 < ticksOff (secondCount s.dev) := by unfold ticksOff; split <;> omega
    refine ⟨_, exec_calibrationSecond n hreset ha hedges, ?_⟩
    rw [calibrate_beyond hoff]
    dsimp only
    rw [timebaseFails_time]
    obtain ⟨hstate, hdet⟩ := trippedBy_timebaseFails (d := { s.dev with time := trimmed s.dev }) h12 ha
    exact ⟨hstate, hdet, rfl, rfl⟩
  · exact ⟨_, exec_crystalEdgeLoss hreset ha hxtal hlost, timebaseFails_time _, trippedBy_timebaseFails h12 ha⟩

end Sys2Proof.Machine
end

section
/-! SUPPORT. The samples of supplies and temperatures: O11. -/

namespace Sys2Proof.Machine

/-! ### Trips on a condition -/

/-- A condition found, the source trips. -/
def tripIf (c : Bool) (n : Nat) (det : Detector) (d : Device) : Device := if c then tripSource n det d else d

theorem tripIf_sourceless (c n det) (d : Device) : standing (sourceless (tripIf c n det d)) = standing (sourceless d) := by
  unfold tripIf; split
  · exact tripSource_sourceless n det d
  · rfl
theorem trippedBy.tripIf {n : Nat} {det : Detector} {d : Device} (h : trippedBy n det d) (c m det') : trippedBy n det (tripIf c m det' d) := by
  unfold Machine.tripIf; split
  · exact h.tripSource m det'
  · exact h
theorem trippedBy_tripIf {c : Bool} {n : Nat} (det : Detector) {d : Device} (hc : c = true) (hn : srcEnabled n d = true)
    (ha : d.tamper.armed = true) : trippedBy n det (tripIf c n det d) := by
  rw [tripIf, if_pos hc]
  exact trippedBy_tripSource det hn ha

/-! ### Supplies (02 R53; 04 R156; 17 R596) -/

/-- The new samples are kept beside the ones before, and set the speeds. -/
def voltsKept (mv : List Nat) (d : Device) : Device :=
  setSpeeds { d with tamper := { d.tamper with volts := mv, prevVolts := d.tamper.volts, voltsAt := some d.time.ticks } }
/-- A watched bench's supply was outside its limits in both samples. -/
def supplyFails (d : Device) (old mv : List Nat) : Bool := (List.range 8).any (fun r => watched d r && twice supplyOut old mv r)

theorem takeVolts_eq (mv : List Nat) (d : Device) : ∃ c7 c10, takeVolts mv d =
    tripIf c10 10 .detA (tripIf c7 7 .detA (tripIf (supplyFails (voltsKept mv d) d.tamper.volts mv) 6 .detA (voltsKept mv d))) :=
  ⟨_, _, rfl⟩
theorem takeVolts_sourceless (mv : List Nat) (d : Device) : standing (sourceless (takeVolts mv d)) = standing (sourceless (voltsKept mv d)) := by
  obtain ⟨c7, c10, h⟩ := takeVolts_eq mv d
  rw [h, tripIf_sourceless, tripIf_sourceless, tripIf_sourceless]

theorem watched_voltsKept (mv : List Nat) (d : Device) (r : Nat) : watched (voltsKept mv d) r = watched d r := by
  simp [watched, voltsKept, setSpeeds, tabGet_tabMap]

theorem twice_eq_true {α : Type} {p : α → Bool} {a b : List α} {r : Nat} {v w : α} (hv : a[r]? = some v) (hw : b[r]? = some w)
    (pv : p v = true) (pw : p w = true) : twice p a b r = true := by
  simp [twice, hv, hw, pv, pw]

theorem trippedBy_takeVolts {mv : List Nat} {d : Device} (hfails : supplyFails (voltsKept mv d) d.tamper.volts mv = true)
    (hn : srcEnabled 6 d = true) (ha : d.tamper.armed = true) : trippedBy 6 .detA (takeVolts mv d) := by
  obtain ⟨c7, c10, h⟩ := takeVolts_eq mv d
  rw [h]
  exact ((trippedBy_tripIf .detA (d := voltsKept mv d) hfails hn ha).tripIf c7 7 .detA).tripIf c10 10 .detA

/-- The speed of a bench after the sample. -/
theorem takeVolts_speed {mv : List Nat} {d : Device} {b : Nat} {x : Bench} (h : tabGet b (takeVolts mv d).benches = some x) :
    x.lehr.speed = speedCode ((mv[b]?).getD 850 : Nat) ((d.tamper.diode[b]?).getD 60) := by
  have hb : (tabGet b (takeVolts mv d).benches).map standBench = (tabGet b (voltsKept mv d).benches).map standBench :=
    (tabGet_of_standing (takeVolts_sourceless mv d) b).trans (tabGet_of_standing rfl b).symm
  rw [h, voltsKept, setSpeeds, tabGet_tabMap] at hb
  cases hy : tabGet b d.benches with
  | none => simp [hy] at hb
  | some y =>
    simp only [hy, Option.map_some, Option.some.injEq] at hb
    have hspeed := congrArg (fun z : Bench => z.lehr.speed) hb
    exact hspeed

/-! ### Temperatures (02 R53, R54; 17 R596) -/

def temperaturesKept (a b : List Int) (d : Device) : Device :=
  { d with tamper := { d.tamper with diode := a, prevDiode := d.tamper.diode, oscillator := b, prevOscillator := d.tamper.oscillator
                                     diodeAt := some d.time.ticks } }
/-- A watched region's junction was outside its limits in both samples. -/
def junctionFails (d : Device) (old a : List Int) : Bool := ((List.range 14).filter (watched d)).any (twice hotOrCold old a)

theorem takeTemperatures_eq (a b : List Int) (d : Device) : ∃ c9 c10, takeTemperatures a b d =
    tripIf c10 10 .detA (tripIf c9 9 .detB (tripIf (junctionFails d d.tamper.diode a) 9 .detA (temperaturesKept a b d))) :=
  ⟨_, _, rfl⟩
theorem takeTemperatures_sourceless (a b : List Int) (d : Device) :
    standing (sourceless (takeTemperatures a b d)) = standing (sourceless (temperaturesKept a b d)) := by
  obtain ⟨c9, c10, h⟩ := takeTemperatures_eq a b d
  rw [h, tripIf_sourceless, tripIf_sourceless, tripIf_sourceless]
theorem trippedBy_takeTemperatures {a b : List Int} {d : Device} (hfails : junctionFails d d.tamper.diode a = true)
    (hn : srcEnabled 9 d = true) (ha : d.tamper.armed = true) : trippedBy 9 .detA (takeTemperatures a b d) := by
  obtain ⟨c9, c10, h⟩ := takeTemperatures_eq a b d
  rw [h]
  exact ((trippedBy_tripIf .detA (d := temperaturesKept a b d) hfails hn ha).tripIf c9 9 .detB).tripIf c10 10 .detA

/-! ### O11 -/

theorem exec_voltageSample (mv : List Nat) {s : State} (hreset : outOfReset s.dev = true) (htick : s.dev.time.ticks % 64 = 0)
    (hnew : s.dev.tamper.voltsAt ≠ some s.dev.time.ticks) : exec (.voltageSample mv) s = .next { s with dev := takeVolts mv s.dev } :=
  next_doIf (by simp [hreset, htick, hnew])
theorem exec_temperatureSample (a b : List Int) {s : State} (hreset : outOfReset s.dev = true) (htick : s.dev.time.ticks % 32000 = 0)
    (hnew : s.dev.tamper.diodeAt ≠ some s.dev.time.ticks) :
    exec (.temperatureSample a b) s = .next { s with dev := takeTemperatures a b s.dev } :=
  next_doIf (by simp [hreset, htick, hnew])

/-- Settles O11: what is kept does not change with the trips that the samples call for. -/
theorem samplesAreKeptAndTrip : Obligations.SamplesAreKeptAndTrip := by
  refine ⟨fun mv s hreset htick hnew => ⟨_, exec_voltageSample mv hreset htick hnew, ?_⟩,
    fun a b s hreset htick hnew => ⟨_, exec_temperatureSample a b hreset htick hnew, ?_⟩⟩
  · have hkept := takeVolts_sourceless mv s.dev
    have htamper := tamper_of_standing hkept
    refine ⟨congrArg (·.volts) htamper, congrArg (·.prevVolts) htamper, congrArg (·.voltsAt) htamper, (fuses_of_standing hkept :),
      (time_of_standing hkept :), fun b x => takeVolts_speed, fun ha h6 hout => ?_⟩
    obtain ⟨r, hr, hwatched, v, w, hv, hw, houtv, houtw⟩ := hout
    have hfails : supplyFails (voltsKept mv s.dev) s.dev.tamper.volts mv = true :=
      List.any_eq_true.mpr ⟨r, List.mem_range.mpr hr, by
        rw [watched_voltsKept, hwatched, twice_eq_true hv hw houtv houtw]; rfl⟩
    exact (trippedBy_takeVolts hfails h6 ha).symm
  · have hkept := takeTemperatures_sourceless a b s.dev
    have htamper := tamper_of_standing hkept
    refine ⟨congrArg (·.diode) htamper, congrArg (·.oscillator) htamper, congrArg (·.prevDiode) htamper, congrArg (·.prevOscillator) htamper,
      (fuses_of_standing hkept :), (time_of_standing hkept :), fun ha h9 hout => ?_⟩
    obtain ⟨r, hr, hwatched, v, w, hv, hw, houtv, houtw⟩ := hout
    have hfails : junctionFails s.dev s.dev.tamper.diode a = true :=
      List.any_eq_true.mpr ⟨r, List.mem_filter.mpr ⟨List.mem_range.mpr hr, hwatched⟩, twice_eq_true hv hw houtv houtw⟩
    exact (trippedBy_takeTemperatures hfails h9 ha).symm

end Sys2Proof.Machine
end

section
/-! SUPPORT. Silent and halted regions: O12. -/

namespace Sys2Proof.Machine

/-! ### Changes of one bench or path among what stands -/

theorem tabMap_tabMod_comm {α : Type} {g f f' : α → α} (hf : ∀ x, g (f x) = f' (g x)) (k : Nat) (t : Tab α) :
    tabMap (fun _ => g) (tabMod k f t) = tabMod k f' (tabMap (fun _ => g) t) := by
  induction t with
  | nil => rfl
  | cons p t ih =>
    obtain ⟨i, x⟩ := p
    simp only [tabMap, List.map_cons, tabMod] at ih ⊢
    split
    · simp only [List.map_cons, hf]
    · simp only [List.map_cons, ih]
theorem standing_modBench {b : Nat} {f f' : Bench → Bench} {d : Device} (hf : ∀ x, standBench (f x) = f' (standBench x)) :
    standing (modBench b f d) = modBench b f' (standing d) := by
  unfold standing modBench
  rw [tabMap_tabMod_comm hf]
theorem standing_modPath {isB : Bool} {f f' : NetPath → NetPath} {d : Device} (hf : ∀ p, standPath (f p) = f' (standPath p)) :
    standing (modPath isB f d) = modPath isB f' (standing d) := by
  cases isB <;> simp [standing, modPath, hf]

theorem benchOf_modBench_self {b : Nat} (f : Bench → Bench) {d : Device} (h : (tabGet b d.benches).isSome = true) :
    benchOf b (modBench b f d) = f (benchOf b d) := by
  obtain ⟨x, hx⟩ := Option.isSome_iff_exists.mp h
  simp [benchOf, modBench, tabGetD, hx]
theorem pathOf_modPath_self (isB : Bool) (f : NetPath → NetPath) (d : Device) : pathOf isB (modPath isB f d) = f (pathOf isB d) := by
  cases isB <;> rfl

/-! ### Fences (02 R61) -/

theorem closeIfIdle_standing (was) (d : Device) : standing (closeIfIdle was d) = standing d := ite_standing rfl
theorem dropPorts_standing (gaffer shares start ports) (e : Device) :
    standing { e with gaffer, shares, start, keys := { e.keys with ports } } = standing e := rfl

/-- Fencing a bench that is present and not fenced changes nothing else that stands. -/
theorem fenceBench_standing {b : Nat} (reporter kind) {d : Device} (hb : (tabGet b d.benches).isSome = true)
    (hf : (benchOf b d).fenced = false) :
    standing (fenceBench b reporter kind d) = modBench b (fun x => { x with fenced := true }) (standing d) := by
  simp only [fenceBench, hb, hf, Bool.not_true, Bool.or_self, Bool.false_eq_true, if_false]
  rw [dispatchAll_standing, emitVia_standing, stopBenchSources_standing, startEntry_standing, traceUnit_standing,
    dropPorts_standing, closeIfIdle_standing]
  refine (standing_modBench ?_).trans (congrArg (modBench b _) ?_)
  · exact fun _ => rfl
  · exact doEach_standing fun _ _ => leaveBench_standing _ _ _
theorem fencePath_standing {isB : Bool} (reporter) {d : Device} (hf : (pathOf isB d).fenced = false) :
    standing (fencePath isB reporter d) = modPath isB (fun p => { p with fenced := true }) (standing d) := by
  simp only [fencePath, hf, Bool.false_eq_true, if_false]
  split
  · rw [takeover_standing, emitVia_standing, openWindow_standing]; exact standing_modPath fun _ => rfl
  · rw [abandonHandover_standing, emitVia_standing, openWindow_standing]; exact standing_modPath fun _ => rfl
theorem fenceHost_standing (reporter) {d : Device} (hf : d.host.fenced = false) :
    standing (fenceHost reporter d) = { standing d with host := { fenced := true, halted := d.host.halted } } := by
  simp only [fenceHost, hf, Bool.false_eq_true, if_false]
  rfl
theorem fenceNvm_standing (reporter) {d : Device} (hf : d.flash.fenced = false) :
    standing (fenceNvm reporter d) = { standing d with flash := { fenced := true, halted := d.flash.halted } } := by
  simp only [fenceNvm, hf, Bool.false_eq_true, if_false]
  rw [doEach_standing fun _ _ => squashJob_standing _ _ _, emitVia_standing]
  simp only [standing, (tearImage_fenced_halted _).2]
  rfl

/-! ### A region declared silent (02 R59, R61) -/

/-- No heartbeat to the region is open any longer. -/
def endHeartbeats (r : Region) (d : Device) : Device :=
  { d with custody := { d.custody with heartbeats := d.custody.heartbeats.filter (fun p => p.1 ≠ r) } }

/-- A region that tick loss has not halted, or whose loss trips nothing, is fenced. -/
theorem regionSilent_of_not_lost {far : Region} (q : Region) {d : Device} (h : regionHalted d far = false ∨ srcEnabled 12 d = false) :
    regionSilent far q d = match far with
      | .bench b => fenceBench b q 4 (endHeartbeats (.bench b) d)
      | .keyStore => tripSource 14 (if q = .custody then .detB else .detA) (doIf (decide (q = .custody)) (beginHeartbeat .keyStore) d)
      | .custody => d
      | .path isB => faultKind 4 (fencePath isB q (endHeartbeats (.path isB) d))
      | .host => fenceHost q (endHeartbeats .host d)
      | .nvm => fenceNvm q (endHeartbeats .nvm d) := by
  have hlost : (regionHalted d far && srcEnabled 12 d) = false := Bool.and_eq_false_iff.mpr h
  cases far <;> simp only [regionSilent, hlost, Bool.false_eq_true, if_false] <;> rfl
/-- One that tick loss has halted is not declared silent as well (02 R63). -/
theorem regionSilent_of_lost {far : Region} (q : Region) {d : Device} (hfar : far ≠ .keyStore) (hh : regionHalted d far = true)
    (h12 : srcEnabled 12 d = true) : regionSilent far q d = d := by
  cases far <;> simp_all [regionSilent]

theorem fenceBench_fenced {b : Nat} (q kind) {d : Device} (hthere : regionThere d (.bench b) = true) :
    (benchOf b (fenceBench b q kind d)).fenced = true ∧ (fenceBench b q kind d).fuses = d.fuses := by
  simp only [regionThere, Bool.and_eq_true, Bool.not_eq_true'] at hthere
  have h := fenceBench_standing q kind hthere.1 hthere.2
  have hb : (tabGet b (standing d).benches).isSome = true := by rw [← tabGet_of_standing rfl, Option.isSome_map]; exact hthere.1
  have hfenced := congrArg (·.fenced) (benchOf_of_standing h b)
  rw [benchOf_modBench_self _ hb] at hfenced
  exact ⟨hfenced, (fuses_of_standing h :)⟩
theorem fencePath_fenced {isB : Bool} (q) {d : Device} (hthere : regionThere d (.path isB) = true) :
    (pathOf isB (fencePath isB q d)).fenced = true ∧ (fencePath isB q d).fuses = d.fuses := by
  have h := fencePath_standing q (by simpa [regionThere] using hthere)
  have hfenced := congrArg (·.fenced) (pathOf_of_standing h isB)
  rw [pathOf_modPath_self] at hfenced
  exact ⟨hfenced, (fuses_of_standing h :)⟩
theorem fenceHost_fenced (q) {d : Device} (hthere : regionThere d .host = true) :
    (fenceHost q d).host.fenced = true ∧ (fenceHost q d).fuses = d.fuses := by
  have h := fenceHost_standing q (by simpa [regionThere] using hthere)
  exact ⟨congrArg (fun x => x.host.fenced) h, (fuses_of_standing h :)⟩
theorem fenceNvm_fenced (q) {d : Device} (hthere : regionThere d .nvm = true) :
    (fenceNvm q d).flash.fenced = true ∧ (fenceNvm q d).fuses = d.fuses := by
  have h := fenceNvm_standing q (by simpa [regionThere] using hthere)
  exact ⟨congrArg (fun x => x.flash.fenced) h, (fuses_of_standing h :)⟩

/-! ### Tick loss (02 R62, R63) -/

theorem haltRegion_fuses (r) (d : Device) : (haltRegion r d).fuses = d.fuses := by cases r <;> rfl
theorem haltRegion_tamper (r) (d : Device) : (haltRegion r d).tamper = d.tamper := by cases r <;> rfl
theorem regionAlive_haltRegion {r : Region} {d : Device} (hr : r ≠ .custody) (hx : regionExists d r = true) :
    regionAlive (haltRegion r d) r = false := by
  cases r with
  | custody => exact absurd rfl hr
  | bench b =>
    have hh : (benchOf b (haltRegion (.bench b) d)).halted = true := by rw [haltRegion, benchOf_modBench_self _ hx]
    simp [regionAlive, hh]
  | path isB =>
    have hh : (pathOf isB (haltRegion (.path isB) d)).halted = true := by rw [haltRegion, pathOf_modPath_self]
    simp [regionAlive, hh]
  | _ => simp [regionAlive, haltRegion]
theorem regionAlive_tripSource (n det r) (d : Device) : regionAlive (tripSource n det d) r = regionAlive d r :=
  (regionAlive_of_standing (tripSource_sourceless n det d) r).trans (regionAlive_of_standing rfl r).symm

/-! ### The rows, and O12 -/

/-- What a declaration of silence leaves of the region (02 R61). -/
def silenced (q far : Region) (a d : Device) : Prop :=
  d.fuses = a.fuses ∧ (∀ b, far = .bench b → (benchOf b d).fenced = true) ∧ (∀ isB, far = .path isB → (pathOf isB d).fenced = true) ∧
  (far = .host → d.host.fenced = true) ∧ (far = .nvm → d.flash.fenced = true) ∧
  (far = .keyStore → a.tamper.armed = true → srcEnabled 14 a = true → trippedBy 14 (if q = .custody then .detB else .detA) d)
theorem silenced_regionSilent {q far : Region} {d : Device} (hthere : regionThere d far = true)
    (hlost : far = .keyStore ∨ regionHalted d far = false ∨ srcEnabled 12 d = false) : silenced q far d (regionSilent far q d) := by
  cases far with
  | keyStore =>
    refine ⟨?_, nofun, nofun, nofun, nofun, fun _ ha h14 => ?_⟩
    · exact (tripSource_fuses _ _ _).trans (fuses_of_standing (e := standing d) (doIf_standing fun _ => rfl))
    · refine trippedBy_tripSource _ ?_ ?_ <;> unfold doIf <;> split <;> assumption
  | custody => exact ⟨rfl, nofun, nofun, nofun, nofun, nofun⟩
  | bench b =>
    rw [regionSilent_of_not_lost q (hlost.resolve_left nofun)]
    have h := fenceBench_fenced q 4 (d := endHeartbeats (.bench b) d) hthere
    exact ⟨h.2, fun _ e => by cases e; exact h.1, nofun, nofun, nofun, nofun⟩
  | path isB =>
    rw [regionSilent_of_not_lost q (hlost.resolve_left nofun)]
    have h := fencePath_fenced q (d := endHeartbeats (.path isB) d) hthere
    exact ⟨h.2, nofun, fun _ e => by cases e; exact h.1, nofun, nofun, nofun⟩
  | host =>
    rw [regionSilent_of_not_lost q (hlost.resolve_left nofun)]
    have h := fenceHost_fenced q (d := endHeartbeats .host d) hthere
    exact ⟨h.2, nofun, nofun, fun _ => h.1, nofun, nofun⟩
  | nvm =>
    rw [regionSilent_of_not_lost q (hlost.resolve_left nofun)]
    have h := fenceNvm_fenced q (d := endHeartbeats .nvm d) hthere
    exact ⟨h.2, nofun, nofun, nofun, fun _ => h.1, nofun⟩

theorem handshakeTimeout_completes {q far : Region} {raised : Nat} {s : State} (hreset : outOfReset s.dev = true) (hne : q ≠ far)
    (hq : regionAlive s.dev q = true) (hthere : regionThere s.dev far = true) (hw : waited q far raised s.dev = true)
    (hlost : far = .keyStore ∨ regionHalted s.dev far = false ∨ srcEnabled 12 s.dev = false) :
    Completes (.handshakeTimeout q far raised) s (silenced q far s.dev) :=
  ⟨_, next_doIf (by simp [hreset, hne, hq, hthere, hw]), silenced_regionSilent hthere hlost⟩
/-- A halted region whose Excursion governs is not declared silent, whether or not its request has timed out. -/
theorem exec_handshakeTimeout_of_lost {q far : Region} {raised : Nat} {s : State} (hfar : far ≠ .keyStore)
    (hh : regionHalted s.dev far = true) (h12 : srcEnabled 12 s.dev = true) : exec (.handshakeTimeout q far raised) s = .next s := by
  have hsame : ∀ c, doIf c (regionSilent far q) s.dev = s.dev := fun c => by rw [doIf, regionSilent_of_lost q hfar hh h12, ite_self]
  exact congrArg (fun d => Host.Outcome.next { s with dev := d }) (hsame _)

theorem tickLossDetected_completes {r : Region} {s : State} (hreset : outOfReset s.dev = true) (hx : regionExists s.dev r = true)
    (hh : regionHalted s.dev r = false) (hr : r ≠ .custody) (ha : s.dev.tamper.armed = true) (h12 : srcEnabled 12 s.dev = true) :
    Completes (.tickLossDetected r) s (fun d => regionAlive d r = false ∧ trippedBy 12 .detB d ∧ d.fuses = s.dev.fuses) := by
  refine ⟨tripSource 12 .detB (haltRegion r s.dev), next_doIf (by simp [hreset, hx, hh, hr]), ?_, ?_, ?_⟩
  · rw [regionAlive_tripSource, regionAlive_haltRegion hr hx]
  · exact trippedBy_tripSource .detB (by rw [srcEnabled, haltRegion_fuses]; exact h12) (by rw [haltRegion_tamper]; exact ha)
  · rw [tripSource_fuses, haltRegion_fuses]

/-- A heartbeat acknowledged in time is raised again at once (02 R741), after the roll-call handshake has taken the acknowledge as well. -/
theorem exec_heartbeatAcknowledge {r : Region} {s : State} (hreset : outOfReset s.dev = true) (hthere : regionThere s.dev r = true)
    (hopen : ∃ p ∈ s.dev.custody.heartbeats, p.1 = r ∧ s.dev.time.ticks < p.2 + 1600) :
    exec (.heartbeatAcknowledge r) s = .next { s with dev := beginHeartbeat r (ackRollCall r s.dev) } := by
  have hany : s.dev.custody.heartbeats.any (fun p => decide (p.1 = r) && decide (s.dev.time.ticks < p.2 + 1600)) = true :=
    List.any_eq_true.mpr (by simpa using hopen)
  refine (next_doIf (by simp [hreset, hthere])).trans ?_
  rw [doIf, if_pos hany]
/-- Where no roll-call handshake to the region is open, nothing else changes. -/
theorem exec_heartbeatAcknowledge_of_closed {r : Region} {s : State} (hreset : outOfReset s.dev = true)
    (hthere : regionThere s.dev r = true) (hopen : ∃ p ∈ s.dev.custody.heartbeats, p.1 = r ∧ s.dev.time.ticks < p.2 + 1600)
    (hroll : ∀ b, r = .bench b → rollOpen s.dev b = false) :
    exec (.heartbeatAcknowledge r) s = .next { s with dev := beginHeartbeat r s.dev } := by
  have hack : ackRollCall r s.dev = s.dev := by
    cases r with
    | bench b => simp [ackRollCall, doIf, hroll b rfl]
    | _ => rfl
  rw [exec_heartbeatAcknowledge hreset hthere hopen, hack]

/-- Refutes O12 by its clause about heartbeats, which quantifies over every state: in a roll-call whose handshake to bench 0 is open, with a
heartbeat to bench 0 open as well, the acknowledge is also the one of the roll-call (14 R508) and bench 0 enters `start.acknowledged`, where the
clause says that only the heartbeats change. The other clauses hold (`handshakeTimeout_completes`, `exec_handshakeTimeout_of_lost`,
`tickLossDetected_completes`), and so does this one where no roll-call handshake is open (`exec_heartbeatAcknowledge_of_closed`). -/
theorem not_silentRegionsAreFenced : ¬ Obligations.SilentRegionsAreFenced := by
  rintro ⟨-, -, hheartbeat, -, -⟩
  have h := hheartbeat (.bench 0)
    { dev := { pins := { pwrOk := true, rstN := true, mainOn := true }, start := { phase := 6 }, benches := [(0, {})]
               custody := { heartbeats := [(.bench 0, 0)] } } }
    (by decide) (by decide) ⟨_, List.mem_singleton_self _, rfl, by decide⟩
  injection h with hstate
  injection hstate with _ hdev
  exact absurd (congrArg (fun d => d.start.acknowledged) hdev) (by decide)

end Sys2Proof.Machine
end

section
/-! SUPPORT. Records, their masks and chains in the key store, and O3, O34, O35, O36. -/

namespace Sys2Proof.Machine

/-! ### The array (03 R95) -/

theorem tabGet_tabErase {α : Type} (k j : Nat) (t : Tab α) : tabGet j (tabErase k t) = if k = j then none else tabGet j t := by
  induction t with
  | nil => simp [tabErase, tabGet]
  | cons p t ih =>
    obtain ⟨i, v⟩ := p
    unfold tabErase at ih ⊢
    by_cases hi : i = k
    · subst hi
      simp only [List.filter_cons, bne_self_eq_false, Bool.false_eq_true, if_false, ih, tabGet]
      split <;> rfl
    · simp only [List.filter_cons, bne_iff_ne, ne_eq, hi, not_false_eq_true, if_true, tabGet, ih]
      split
      · next hj => rw [if_neg (fun hk => hi (hj.trans hk.symm))]
      · rfl

theorem tabGet_memSet_of_ne {α : Type} [DecidableEq α] {x v : α} {k j : Nat} (t : Tab α) (h : k ≠ j) :
    tabGet j (memSet x k v t) = tabGet j t := by
  unfold memSet
  split
  · rw [tabGet_tabErase, if_neg h]
  · rw [tabGet_tabSet, if_neg h]

theorem tabGetD_memSet {α : Type} [DecidableEq α] (x v : α) (k j : Nat) (t : Tab α) :
    tabGetD j x (memSet x k v t) = if k = j then v else tabGetD j x t := by
  split
  case isFalse h => unfold tabGetD; rw [tabGet_memSet_of_ne t h]
  case isTrue h =>
    subst h
    unfold memSet
    split
    · next hv => rw [tabGetD, tabGet_tabErase, if_pos rfl, hv]; rfl
    · exact tabGetD_tabSet_self k v x t

theorem slotOf_putSlot (i j : Nat) (s : Slot) (k : KeyStore) : slotOf j (putSlot i s k) = if i = j then s else slotOf j k :=
  tabGetD_memSet (freeSlot k) s i j k.slots

@[simp] theorem slotOf_putSlot_self (i : Nat) (s : Slot) (k : KeyStore) : slotOf i (putSlot i s k) = s := by
  rw [slotOf_putSlot, if_pos rfl]

theorem slotOf_putSlot_of_ne {i j : Nat} (s : Slot) (k : KeyStore) (h : i ≠ j) : slotOf j (putSlot i s k) = slotOf j k := by
  rw [slotOf_putSlot, if_neg h]

/-- Slots written one after another, each with a record that does not depend on the others; the fault map is no part of the array. -/
theorem slotOf_foldl_putSlot (f : Nat → Slot) (g : Nat → KeyStore → List Nat) (l : List Nat) (j : Nat) (k : KeyStore) :
    slotOf j (l.foldl (fun k i => putSlot i (f i) { k with faultMap := g i k }) k) = if j ∈ l then f j else slotOf j k := by
  induction l generalizing k with
  | nil => simp
  | cons i l ih =>
    rw [List.foldl_cons, ih]
    by_cases hl : j ∈ l
    · simp [hl]
    · by_cases hi : i = j
      · subst hi; simp [hl]
      · simp only [hl, if_false, List.mem_cons, or_false, Ne.symm hi]
        exact slotOf_putSlot_of_ne _ _ hi

/-! ### Masks and tags (03 R96 to R98, R106, R107) -/

@[simp] theorem delivered_sealSlot (c : Custody) (i : Nat) (clear : BitVec 512) (s : Slot) : delivered c i (sealSlot c i clear s) = clear := by
  simp only [delivered, sealSlot, BitVec.xor_assoc, BitVec.xor_self, BitVec.xor_zero]

/-- A tag is no part of the record that it covers. -/
theorem slotTag_tag (root : BitVec 256) (i : Nat) (s : Slot) (t : BitVec 128) : slotTag root i { s with tag := t } = slotTag root i s := rfl

theorem tagOk_sealSlot (c : Custody) (i : Nat) (clear : BitVec 512) (s : Slot) : tagOk c i (sealSlot c i clear s) = true :=
  beq_iff_eq.mpr (slotTag_tag _ i _ _).symm

theorem tagOk_retag (c : Custody) (i : Nat) (s : Slot) : tagOk c i (retag c i s) = true := beq_iff_eq.mpr (slotTag_tag _ i _ _).symm

theorem convert_epoch (c : Custody) (i : Nat) (s : Slot) : (convert c i s).epoch = !s.epoch := rfl

theorem delivered_convert (c : Custody) (i : Nat) (s : Slot) : delivered c i (convert c i s) = delivered c i s := delivered_sealSlot c i _ _

/-- Settles O36: sealing delivers what was sealed, under a tag that matches, and changes the material and the tag alone. -/
theorem conversionKeepsTheKey : Obligations.ConversionKeepsTheKey :=
  fun c i s => ⟨delivered_convert c i s, tagOk_sealSlot c i _ _, convert_epoch c i s, rfl⟩

/-! ### A record that a commit writes (03 R91, R108) -/

/-- The record as a commit finds it under the epoch of new records. -/
def underEpoch (c : Custody) (e : Bool) (i : Nat) (s : Slot) : Slot := if s.epoch = e then s else convert c i s

theorem delivered_underEpoch (c : Custody) (e : Bool) (i : Nat) (s : Slot) : delivered c i (underEpoch c e i s) = delivered c i s := by
  unfold underEpoch
  split
  · rfl
  · exact delivered_convert c i s

theorem underEpoch_usageCount (c : Custody) (e : Bool) (i : Nat) (s : Slot) : (underEpoch c e i s).usageCount = s.usageCount := by
  unfold underEpoch
  split <;> rfl

theorem slotOf_useOnce_self (c : Custody) (i : Nat) (k : KeyStore) : slotOf i (useOnce c i k) =
    retag c i { underEpoch c k.epoch i (slotOf i k) with usageCount := satInc (underEpoch c k.epoch i (slotOf i k)).usageCount } :=
  slotOf_putSlot_self i _ k

theorem usageCheck_eq_zero_iff (t head : Nat) (gen : BitVec 12) (k : KeyStore) : usageCheck t head gen k = 0 ↔
    (slotOf head k).tenant = t ∧ (slotOf head k).gen = gen ∧ (slotOf head k).state = .active ∧
    ((slotOf head k).usageLimit = 0 ∨ (slotOf head k).usageCount ≠ (slotOf head k).usageLimit) := by
  simp only [usageCheck]
  split
  case isTrue hforeign => simp; tauto
  case isFalse hown =>
    split
    case isTrue hsuspended => simp [hsuspended]
    case isFalse hactive => split <;> simp <;> tauto

/-- Settles O35: the checks in their order, and the increment on the record under the epoch of new records. -/
theorem usageIsCountedAndLimited : Obligations.UsageIsCountedAndLimited := by
  intro t head gen k s
  refine ⟨usageCheck_eq_zero_iff t head gen k, fun ht hg hs => ?_, fun ht hg hs hl hc => ?_, fun c _ =>
    ⟨?_, ?_, ?_, fun i hi => slotOf_putSlot_of_ne _ k (Ne.symm hi)⟩⟩
  · simp only [s] at ht hg hs; simp [usageCheck, ht, hg, hs]
  · simp only [s] at ht hg hs hl hc; simpa [usageCheck, ht, hg, hs, hc] using hl
  all_goals rw [slotOf_useOnce_self]
  · exact congrArg satInc (underEpoch_usageCount c k.epoch head s)
  · exact delivered_underEpoch c k.epoch head s
  · exact tagOk_retag c head _

/-! ### Deletion (03 R72, R84, R89) -/

theorem nextGen_ne (g : BitVec 12) : nextGen g ≠ g := by
  unfold nextGen
  split
  · next h => rw [h]; decide
  · simp

/-- A chain of at least one slot begins with its head. -/
theorem head_mem_chainOf {head : Nat} {k : KeyStore} (h : 1 ≤ (slotOf head k).length) : head ∈ chainOf head k := by
  obtain ⟨n, hn⟩ := Nat.exists_eq_add_of_le' h
  rw [chainOf, hn]
  exact List.mem_cons_self

theorem slotOf_deleteChain (d : Device) (head i : Nat) : slotOf i (deleteChain d head) =
    if i ∈ chainOf head d.keys then deletedSlot d.custody d.keys.epoch i (slotOf i d.keys) else slotOf i d.keys :=
  slotOf_foldl_putSlot _ (fun i k => k.faultMap.filter (fun j => j ≠ i)) _ i d.keys

/-- Settles O34: every slot of the chain holds the record of a deleted one, and a Free slot passes no check of a handle. -/
theorem deletedKeysAreGone : Obligations.DeletedKeysAreGone := by
  intro head d hlength k
  have hhead : slotOf head k = deletedSlot d.custody d.keys.epoch head (slotOf head d.keys) := by
    rw [slotOf_deleteChain, if_pos (head_mem_chainOf hlength)]
  refine ⟨by rw [hhead]; rfl, by rw [hhead]; rfl, by rw [hhead]; exact nextGen_ne _, fun i hi => ?_, fun t h hslot hcode => ?_⟩
  · rw [slotOf_deleteChain, if_neg hi]
  · obtain ⟨-, -, -, hok⟩ := (lookupCode_eq_zero_iff t h _).mp hcode
    obtain ⟨-, hstate, -, -⟩ := (handleOk_iff t h _).mp hok
    rw [hslot] at hstate
    change (slotOf head k).state = _ ∨ (slotOf head k).state = _ at hstate
    rw [hhead] at hstate
    rcases hstate with h | h <;> cases h

/-! ### Reset -/

/-- Settles O3: the reset state is given value by value. -/
theorem resetHoldsTheSpecifiedValues : Obligations.ResetHoldsTheSpecifiedValues := by
  unfold Obligations.ResetHoldsTheSpecifiedValues
  decide

end Sys2Proof.Machine
end

section
/-! SUPPORT. The work on other jobs leaves alone the key store and a job that has its answer. -/

namespace Sys2Proof.Machine

/-! ### Jobs by identifier -/

theorem jobOf_id {id : Nat} {j : Job} {d : Device} (h : jobOf id d = some j) : j.id = id := by
  have := List.find?_some h
  simpa using this

theorem jobOf_modJob {k : Nat} {f : Job → Job} (hf : ∀ j, j.id = k → (f j).id = j.id) (id : Nat) (d : Device) :
    jobOf id (modJob k f d) = (jobOf id d).map (fun j => if j.id = k then f j else j) := by
  simp only [jobOf, modJob, List.find?_map]
  congr 2
  funext j
  simp only [Function.comp]
  split
  · next h => rw [hf j h]
  · rfl

theorem jobOf_modJob_self {id : Nat} {f : Job → Job} (hf : ∀ j, j.id = id → (f j).id = j.id) {d : Device} {j : Job} (h : jobOf id d = some j) :
    jobOf id (modJob id f d) = some (f j) := by
  rw [jobOf_modJob hf, h, Option.map_some, if_pos (jobOf_id h)]

theorem jobOf_modJob_of_ne {id k : Nat} {f : Job → Job} (hf : ∀ j, j.id = k → (f j).id = j.id) (d : Device) (h : id ≠ k) :
    jobOf id (modJob k f d) = jobOf id d := by
  rw [jobOf_modJob hf]
  cases hj : jobOf id d with
  | none => rfl
  | some j => rw [Option.map_some, if_neg (by rw [jobOf_id hj]; exact h)]

/-- A device whose jobs all differ finds each of them by its identifier. -/
theorem jobOf_of_mem {d : Device} (hd : (d.gaffer.jobs.map (·.id)).Nodup) {j : Job} (hj : j ∈ d.gaffer.jobs) : jobOf j.id d = some j := by
  unfold jobOf
  generalize d.gaffer.jobs = js at hd hj
  induction js with
  | nil => cases hj
  | cons x xs ih =>
    simp only [List.map_cons, List.nodup_cons] at hd
    rw [List.find?_cons]
    rcases List.mem_cons.mp hj with rfl | hmem
    · simp
    · have hx : x.id ≠ j.id := fun he => hd.1 (he ▸ List.mem_map_of_mem hmem)
      simp only [hx, decide_false]
      exact ih hd.2 hmem

/-! ### What stands aside -/

/-- Of a device the key store but for its ports, the jobs' identifiers, and the place and code of one job. -/
def aside (id : Nat) (d : Device) : KeyStore × List Nat × Option (Place × Code) :=
  ({ d.keys with ports := [] }, d.gaffer.jobs.map (·.id), (jobOf id d).map (fun j => (j.place, j.code)))

variable {id : Nat}

theorem keys_of_aside {d e : Device} (h : aside id d = aside id e) : d.keys = { e.keys with ports := d.keys.ports } :=
  congrArg (fun x => { x.1 with ports := d.keys.ports }) h
theorem ids_of_aside {d e : Device} (h : aside id d = aside id e) : d.gaffer.jobs.map (·.id) = e.gaffer.jobs.map (·.id) :=
  congrArg (·.2.1) h
theorem answer_of_aside {d e : Device} (h : aside id d = aside id e) :
    (jobOf id d).map (fun j => (j.place, j.code)) = (jobOf id e).map (fun j => (j.place, j.code)) := congrArg (·.2.2) h

theorem isSome_of_aside {d e : Device} (h : aside id d = aside id e) : (jobOf id d).isSome = (jobOf id e).isSome := by
  simpa using congrArg Option.isSome (answer_of_aside h)

/-- Parts that are not among it change. -/
theorem aside_mk {time pins start fuses battery custody tamper shares benches gather host net events power flash draws out : _} (e : Device) :
    aside id { e with time, pins, start, fuses, battery, custody, tamper, shares, benches, gather, host, net, events, power, flash, draws,
                      out } = aside id e := rfl
/-- Of the scheduler the jobs alone are among it. -/
theorem aside_gaffer {g : Gaffer} {e : Device} (h : g.jobs = e.gaffer.jobs) : aside id { e with gaffer := g } = aside id e := by
  simp only [aside, jobOf, h]

theorem modJob_aside {k : Nat} {f : Job → Job} {d : Device} (hid : ∀ j, j.id = k → (f j).id = j.id)
    (hanswer : k = id → ∀ j, ((f j).place, (f j).code) = (j.place, j.code)) : aside id (modJob k f d) = aside id d := by
  have hids : (modJob k f d).gaffer.jobs.map (·.id) = d.gaffer.jobs.map (·.id) := by
    simp only [modJob, List.map_map]
    exact List.map_congr_left fun j _ => by simp only [Function.comp]; split <;> [exact hid j ‹_›; rfl]
  have hone : (jobOf id (modJob k f d)).map (fun j => (j.place, j.code)) = (jobOf id d).map (fun j => (j.place, j.code)) := by
    by_cases hk : id = k
    · subst hk
      cases hj : jobOf id d with
      | none => rw [jobOf_modJob hid, hj]; rfl
      | some j => rw [jobOf_modJob_self hid hj]; exact congrArg some (hanswer rfl j)
    · rw [jobOf_modJob_of_ne hid d hk]
  unfold aside
  rw [hids, hone]
  rfl
/-- A job keeps its identifier, its place and its code. -/
theorem modJob_aside_of_kept {k : Nat} {f : Job → Job} {d : Device} (h : ∀ j, (f j).id = j.id ∧ (f j).place = j.place ∧ (f j).code = j.code) :
    aside id (modJob k f d) = aside id d :=
  modJob_aside (fun j _ => (h j).1) fun _ j => by rw [(h j).2.1, (h j).2.2]
theorem modJob_aside_of_ne {k : Nat} {f : Job → Job} {d : Device} (hid : ∀ j, j.id = k → (f j).id = j.id) (h : k ≠ id) :
    aside id (modJob k f d) = aside id d := modJob_aside hid fun hk => absurd hk h

theorem ite_aside {c : Prop} [Decidable c] {x d : Device} (hx : aside id x = aside id d) : aside id (if c then x else d) = aside id d := by
  split
  · exact hx
  · rfl
theorem doWith_aside {α : Type} {o : Option α} {f : α → Device → Device} {d : Device} (hf : ∀ v x, aside id (f v x) = aside id x) :
    aside id (doWith o f d) = aside id d := by
  cases o with
  | none => rfl
  | some v => exact hf v d
theorem foldl_aside {α : Type} {f : Device → α → Device} {xs : List α} {d : Device} (hf : ∀ x v, aside id (f x v) = aside id x) :
    aside id (xs.foldl f d) = aside id d := by
  induction xs generalizing d with
  | nil => rfl
  | cons v xs ih => exact ih.trans (hf d v)
theorem doEach_aside {α : Type} {xs : List α} {f : α → Device → Device} {d : Device} (hf : ∀ v x, aside id (f v x) = aside id x) :
    aside id (doEach xs f d) = aside id d := foldl_aside fun x v => hf v x

/-! ### Engines and grants (05) -/

theorem modBench_aside (b f) (d : Device) : aside id (modBench b f d) = aside id d := rfl
theorem lehCount_aside (b k) (d : Device) : aside id (lehCount b k d) = aside id d := rfl
theorem modEngine_aside (b k n f) (d : Device) : aside id (modEngine b k n f d) = aside id d := rfl
theorem engineWork_aside (b k n c v job) (d : Device) : aside id (engineWork b k n c v job d) = aside id d := rfl
theorem charge_aside (kind t n) (d : Device) : aside id (charge kind t n d) = aside id d := rfl
theorem freePort_aside (g) (d : Device) : aside id (freePort g d) = aside id d := ite_aside rfl
/-- A job's context record is neither its place nor its code. -/
theorem modContext_aside (k : Nat) (x : Bytes) (d : Device) : aside id (modJob k (fun j => { j with context := x }) d) = aside id d :=
  modJob_aside_of_kept fun _ => ⟨rfl, rfl, rfl⟩
theorem saveContext_aside (g) (d : Device) : aside id (saveContext g d) = aside id d := by
  unfold saveContext; split
  · rfl
  · dsimp only; split
    · rfl
    · rw [engineWork_aside, modContext_aside, modEngine_aside]
theorem dropParked_aside (p) (d : Device) : aside id (dropParked p d) = aside id d := by
  simp only [dropParked, aside_mk, doEach_aside saveContext_aside]
theorem beginTest_aside (b k n cause) (d : Device) : aside id (beginTest b k n cause d) = aside id d := by
  simp only [beginTest, aside_mk, modEngine_aside, dropParked_aside]
  split <;> rfl
theorem beginDue_aside (b k n) (d : Device) : aside id (beginDue b k n d) = aside id d := by
  unfold beginDue; split
  · rfl
  · rw [beginTest_aside, modEngine_aside]
theorem endGrant_aside (g park) (d : Device) : aside id (endGrant g park d) = aside id d := by
  simp only [endGrant]
  rw [doWith_aside fun k x => by simp only [beginDue_aside, engineWork_aside, modEngine_aside], aside_mk]
  split
  · rw [freePort_aside, charge_aside]
  · rw [saveContext_aside, freePort_aside, charge_aside]
theorem forgetChain_aside (job) (d : Device) : aside id (forgetChain job d) = aside id d := rfl
theorem loadFromPort_aside (b k n j) (d : Device) : aside id (loadFromPort b k n j d) = aside id d := by
  unfold loadFromPort; split
  · exact ite_aside rfl
  · rfl
theorem restoreContext_aside (b k n j) (d : Device) : aside id (restoreContext b k n j d) = aside id d := by
  unfold restoreContext; split
  · rfl
  · rw [engineWork_aside, modContext_aside, modEngine_aside]
theorem startEngine_aside (b k n job) (d : Device) : aside id (startEngine b k n job d) = aside id d := by
  unfold startEngine
  rw [doWith_aside fun j x => by rw [restoreContext_aside, loadFromPort_aside, modEngine_aside], modEngine_aside]
theorem giveUnit_aside (r unit) (d : Device) : aside id (giveUnit r unit d) = aside id d := by
  simp only [giveUnit, doWith_aside fun _ _ => startEngine_aside _ _ _ _ _, aside_mk, dropParked_aside]
theorem grantOne_aside (bench kind) (d : Device) : aside id (grantOne bench kind d) = aside id d := by
  unfold grantOne; split
  · rfl
  · split
    · rfl
    · exact giveUnit_aside _ _ d
theorem arbitrate_aside (bench kind) (d : Device) : aside id (arbitrate bench kind d) = aside id d :=
  foldl_aside fun x _ => grantOne_aside bench kind x
theorem dropGrants_aside (job park) (d : Device) : aside id (dropGrants job park d) = aside id d := by
  simp only [dropGrants, doEach_aside fun _ _ => arbitrate_aside _ _ _, aside_mk, doEach_aside fun _ _ => endGrant_aside _ _ _,
    forgetChain_aside]

/-! ### Another job ends (04 R142) -/

theorem gafCount_aside (k) (d : Device) : aside id (gafCount k d) = aside id d := rfl
theorem coreCount_aside (c k n) (d : Device) : aside id (coreCount c k n d) = aside id d := rfl
theorem modTenant_aside (t f) (d : Device) : aside id (modTenant t f d) = aside id d := rfl
theorem traceJob_aside (kind j code) (d : Device) : aside id (traceJob kind j code d) = aside id d :=
  aside_gaffer (by split <;> [rfl; split <;> rfl])
theorem modUnit_aside (c f) (d : Device) : aside id (modUnit c f d) = aside id d := by
  unfold modUnit; split <;> rfl
theorem freeCore_aside (c) (d : Device) : aside id (freeCore c d) = aside id d := by
  refine (doWith_aside fun _ _ => modJob_aside_of_kept ?_).trans (modUnit_aside _ _ _)
  exact fun _ => ⟨rfl, rfl, rfl⟩
theorem freeJobCore_aside (j) (d : Device) : aside id (freeJobCore j d) = aside id d := doWith_aside freeCore_aside
theorem advanceGo_aside (st fuel) (d : Device) : aside id (advanceGo st fuel d) = aside id d := by
  induction fuel generalizing d with
  | zero => rfl
  | succ fuel ih =>
    unfold advanceGo; split
    · exact (ih _).trans rfl
    · rfl
theorem advancePtr_aside (st) (d : Device) : aside id (advancePtr st d) = aside id d := advanceGo_aside st _ d
theorem dropState_aside (k) (d : Device) : aside id (dropState k d) = aside id d := by
  unfold dropState; split
  · rfl
  · refine (modJob_aside_of_kept ?_).trans (doWith_aside fun _ _ => modBench_aside _ _ _)
    exact fun _ => ⟨rfl, rfl, rfl⟩
theorem dropWrites_aside (k) (d : Device) : aside id (dropWrites k d) = aside id d := rfl
theorem noteImage_aside (j code) (d : Device) : aside id (noteImage j code d) = aside id d := by
  unfold noteImage; split
  · exact aside_mk d
  · rfl
theorem settleWork_aside (retired j) (d : Device) : aside id (settleWork retired j d) = aside id d := by
  unfold settleWork settleDraws; split
  · split <;> rfl
  · rfl

/-- What comes before the answer of a job that is answered. -/
theorem beforeAnswer_aside (k j code) (d : Device) : aside id (noteImage j code (dropWrites k (dropState k d))) = aside id d := by
  rw [noteImage_aside, dropWrites_aside, dropState_aside]
theorem answerJob_aside {k : Nat} (code) (d : Device) (h : k ≠ id) : aside id (answerJob k code d) = aside id d := by
  unfold answerJob; split
  · rfl
  · rw [advancePtr_aside]
    refine (modJob_aside_of_ne ?_ h).trans (beforeAnswer_aside _ _ _ _)
    exact fun _ _ => rfl
/-- What comes before the answer of a job that is squashed. -/
def beforeDrop (k : Nat) (j : Job) (code : Code) (d : Device) : Device :=
  doWith (benchOfJob j) (fun b => lehCount b 3) (doWith j.ranOn (fun c => coreCount c 1 1)
    (traceJob 0x05 j code (settleWork false j (freeJobCore j (dropGrants k true d)))))
theorem dropJob_eq {k : Nat} {j : Job} {d : Device} (code) (h : jobOf k d = some j) : dropJob k code d = answerJob k code (beforeDrop k j code d) := by
  simp only [dropJob, h]
  rfl
theorem beforeDrop_aside (k j code) (d : Device) : aside id (beforeDrop k j code d) = aside id d := by
  rw [beforeDrop, doWith_aside fun _ _ => lehCount_aside _ _ _, doWith_aside fun _ _ => coreCount_aside _ _ _ _, traceJob_aside, settleWork_aside,
    freeJobCore_aside, dropGrants_aside]
theorem dropJob_aside {k : Nat} (code) (d : Device) (h : k ≠ id) : aside id (dropJob k code d) = aside id d := by
  cases hj : jobOf k d with
  | none => simp only [dropJob, hj]
  | some j => rw [dropJob_eq code hj, answerJob_aside code _ h, beforeDrop_aside]

/-! ### Other jobs are dispatched (04 R135 to R139) -/

theorem expireJob_aside {k : Nat} (d : Device) (h : k ≠ id) : aside id (expireJob k d) = aside id d := by
  unfold expireJob; split
  · rfl
  · rw [answerJob_aside _ _ h, gafCount_aside, traceJob_aside]
theorem fireVector_aside (f v) (d : Device) : aside id (fireVector f v d) = aside id d := by
  unfold fireVector; split <;> rfl
theorem denied_aside (f purpose write addr) (d : Device) : aside id (denied f purpose write addr d) = aside id d :=
  (fireVector_aside _ _ _).trans rfl
theorem decodeRead_aside (j) (d : Device) : aside id (decodeRead j d).2 = aside id d := by
  unfold decodeRead; split
  · split
    · exact denied_aside _ _ _ _ d
    · rfl
  · rfl
theorem decodeRead_id (j) (d : Device) : (decodeRead j d).1.id = j.id := by
  unfold decodeRead; split
  · split <;> rfl
  · rfl
theorem beginReset_aside (j) (d : Device) : aside id (beginReset j d).2 = aside id d := by
  unfold beginReset; split
  · rfl
  · split <;> rfl
/-- A dispatch writes the job that it grants over the one of that identifier, and drops it when its input could not be read. -/
theorem dispatchJob_eq (id : Nat) (c : CoreRef) (j : Job) (d : Device) : ∃ k e, k.id = j.id ∧ aside id e = aside id d ∧
    dispatchJob c j d = doIf (unread k) (dropJob k.id k.inputFault) (traceJob 0x01 k 0 (gafCount 1 (modJob k.id (fun _ => k) e))) := by
  have reset : ∀ (x : Prop) [Decidable x] (code : Code) (k : Job) (e : Device),
      aside id (if x then beginReset k e else (code, e)).2 = aside id e := by
    intro x _ code k e; split
    · exact beginReset_aside k e
    · rfl
  unfold dispatchJob
  dsimp only
  refine ⟨_, _, ?_, ?_, rfl⟩
  · exact (apply_ite Job.id _ _ _).trans ((ite_self _).trans (decodeRead_id j d))
  · refine (aside_gaffer rfl).trans ?_
    rw [modUnit_aside, coreCount_aside, reset, decodeRead_aside]
theorem dispatchJob_aside (c) {j : Job} (d : Device) (h : j.id ≠ id) : aside id (dispatchJob c j d) = aside id d := by
  obtain ⟨k, e, hk, he, heq⟩ := dispatchJob_eq id c j d
  rw [← hk] at h
  rw [heq, doIf, ite_aside (dropJob_aside _ _ h), traceJob_aside, gafCount_aside, modJob_aside_of_ne (fun _ hj => hj.symm) h, he]

/-- The job has its answer, with that code, and no other carries its identifier. -/
def answeredWith (id : Nat) (code : Code) (d : Device) : Prop :=
  (d.gaffer.jobs.map (·.id)).Nodup ∧ ∃ j, jobOf id d = some j ∧ j.place = .answered ∧ j.code = code

theorem answeredWith_of_aside {code : Code} {d e : Device} (h : aside id d = aside id e) (he : answeredWith id code e) : answeredWith id code d := by
  obtain ⟨hids, j, hj, hplace, hcode⟩ := he
  refine ⟨ids_of_aside h ▸ hids, ?_⟩
  have ha := answer_of_aside h
  rw [hj, Option.map_some, hplace, hcode] at ha
  obtain ⟨k, hk, heq⟩ := Option.map_eq_some_iff.mp ha
  simp only [Prod.mk.injEq] at heq
  exact ⟨k, hk, heq⟩

/-- A job on the ready list is another one. -/
theorem answeredWith.ne_of_ready {code : Code} {d : Device} (h : answeredWith id code d) {j : Job} (hj : j ∈ readyJobs d) : j.id ≠ id := by
  obtain ⟨hids, k, hk, hplace, -⟩ := h
  obtain ⟨hmem, hready⟩ := List.mem_filter.mp hj
  rintro rfl
  rw [jobOf_of_mem hids hmem] at hk
  cases hk
  simp [hplace] at hready

theorem mem_of_leastBy {α : Type} {lt : α → α → Bool} {xs : List α} {x : α} (h : leastBy lt xs = some x) : x ∈ xs := by
  induction xs generalizing x with
  | nil => cases h
  | cons y ys ih =>
    simp only [leastBy] at h
    split at h
    · cases h; exact List.mem_cons_self
    · next z hz =>
      split at h <;> cases h
      · exact List.mem_cons_of_mem _ (ih hz)
      · exact List.mem_cons_self

theorem chooseJob_ready {c : CoreRef} {j : Job} {d : Device} (h : chooseJob c d = some j) : j ∈ readyJobs d :=
  List.mem_of_mem_filter (mem_of_leastBy h)
theorem nextGrant_ready {c : CoreRef} {j : Job} {d : Device} (h : nextGrant d = some (c, j)) : j ∈ readyJobs d := by
  unfold nextGrant at h
  split at h
  · cases h
  · obtain ⟨k, hk, he⟩ := Option.map_eq_some_iff.mp h
    cases he
    exact chooseJob_ready hk

theorem expireHeads_aside {code : Code} (fuel) {d : Device} (h : answeredWith id code d) : aside id (expireHeads fuel d) = aside id d := by
  induction fuel generalizing d with
  | zero => rfl
  | succ fuel ih =>
    unfold expireHeads; split
    · rfl
    · next j hj =>
      have hstep := expireJob_aside d (h.ne_of_ready (mem_of_leastBy hj))
      split
      · exact (ih (answeredWith_of_aside hstep h)).trans hstep
      · rfl
theorem dispatchGo_aside {code : Code} (fuel) {d : Device} (h : answeredWith id code d) : aside id (dispatchGo fuel d) = aside id d := by
  induction fuel generalizing d with
  | zero => rfl
  | succ fuel ih =>
    unfold dispatchGo; split
    · rfl
    · next c j hj =>
      have hstep := dispatchJob_aside c d (h.ne_of_ready (nextGrant_ready hj))
      exact (ih (answeredWith_of_aside hstep h)).trans hstep
theorem dispatchAll_aside {code : Code} {d : Device} (h : answeredWith id code d) : aside id (dispatchAll d) = aside id d := by
  unfold dispatchAll; split
  · have hheads := expireHeads_aside d.gaffer.jobs.length h
    exact (dispatchGo_aside _ (answeredWith_of_aside hheads h)).trans hheads
  · rfl

/-! ### The job itself is squashed (20 R656) -/

theorem answerJob_answers {k : Nat} {code : Code} {d : Device} (hids : (d.gaffer.jobs.map (·.id)).Nodup) (hk : (jobOf k d).isSome = true) :
    answeredWith k code (answerJob k code d) := by
  obtain ⟨j, hj⟩ := Option.isSome_iff_exists.mp hk
  have hother : aside (k + 1) (answerJob k code d) = aside (k + 1) d := answerJob_aside code d (by omega)
  obtain ⟨x, hx, -⟩ := Option.map_eq_some_iff.mp ((answer_of_aside (beforeAnswer_aside k j code d)).trans (congrArg _ hj))
  refine ⟨ids_of_aside hother ▸ hids, ?_⟩
  obtain ⟨y, hy, heq⟩ : ∃ y, jobOf k (answerJob k code d) = some y ∧ (y.place, y.code) = (Place.answered, code) := by
    apply Option.map_eq_some_iff.mp
    rw [answerJob, hj]
    refine (answer_of_aside (advancePtr_aside _ _)).trans ?_
    rw [jobOf_modJob_self ?_ hx]
    · rfl
    · exact fun _ _ => rfl
  simp only [Prod.mk.injEq] at heq
  exact ⟨y, hy, heq⟩

theorem dropJob_answers {k : Nat} {code : Code} {d : Device} (hids : (d.gaffer.jobs.map (·.id)).Nodup) (hk : (jobOf k d).isSome = true) :
    answeredWith k code (dropJob k code d) := by
  obtain ⟨j, hj⟩ := Option.isSome_iff_exists.mp hk
  have hbefore := beforeDrop_aside (id := k) k j code d
  rw [dropJob_eq code hj]
  exact answerJob_answers (ids_of_aside hbefore ▸ hids) (isSome_of_aside hbefore ▸ hk)

/-- A squash marks the tenant, and counts a fault of the part, before it drops the job. -/
theorem squashJob_eq {k : Nat} (code) {d : Device} (hk : (jobOf k d).isSome = true) :
    ∃ e, squashJob k code d = dropJob k code e ∧ ∀ id, aside id e = aside id d := by
  obtain ⟨j, hj⟩ := Option.isSome_iff_exists.mp hk
  refine ⟨affect j.tenant code (if code = 0x0503 ∨ code = 0x050B then gafCount 10 d else d), by simp only [squashJob, hj], fun id => ?_⟩
  rw [affect, modTenant_aside]
  exact ite_aside (gafCount_aside 10 d)
theorem squashJob_aside {k : Nat} (code) (d : Device) (h : k ≠ id) : aside id (squashJob k code d) = aside id d := by
  cases hk : jobOf k d with
  | none => simp only [squashJob, hk]
  | some j =>
    obtain ⟨e, heq, he⟩ := squashJob_eq code (by rw [hk]; rfl)
    rw [heq, dropJob_aside code e h, he]
theorem squashJob_answers {k : Nat} {code : Code} {d : Device} (hids : (d.gaffer.jobs.map (·.id)).Nodup) (hk : (jobOf k d).isSome = true) :
    answeredWith k code (squashJob k code d) := by
  obtain ⟨e, heq, he⟩ := squashJob_eq code hk
  rw [heq]
  exact dropJob_answers (ids_of_aside (he k) ▸ hids) (isSome_of_aside (he k) ▸ hk)

/-- Dispatch after a squash leaves the job its answer, and both leave all of the key store but the ports. -/
theorem dispatchAll_squashJob {k : Nat} {code : Code} {d : Device} (hids : (d.gaffer.jobs.map (·.id)).Nodup) (hk : (jobOf k d).isSome = true) :
    answeredWith k code (dispatchAll (squashJob k code d)) ∧
    (dispatchAll (squashJob k code d)).keys = { d.keys with ports := (dispatchAll (squashJob k code d)).keys.ports } := by
  have hsquash := squashJob_answers (code := code) hids hk
  have hdispatch := dispatchAll_aside hsquash
  have hkeys := keys_of_aside (squashJob_aside (id := k + 1) code d (Nat.ne_of_lt k.lt_succ_self))
  refine ⟨answeredWith_of_aside hdispatch hsquash, (keys_of_aside hdispatch).trans ?_⟩
  rw [hkeys]

end Sys2Proof.Machine
end

section
/-! SUPPORT. Lookups and tag verdicts: O32. -/

namespace Sys2Proof.Machine

/-! ### The core, its job and its port -/

theorem lead_lead (c : CoreRef) (d : Device) : lead (lead c d) d = lead c d := by
  unfold lead
  split
  · simp
  · rfl

theorem jobOn_lead (c : CoreRef) (d : Device) : jobOn (lead c d) d = jobOn c d := by
  simp only [jobOn, lead_lead]

/-- The job that a core runs is the one that its bench's core names, and stands on that core. -/
theorem jobOn_eq_some {c : CoreRef} {d : Device} {j : Job} (h : jobOn c d = some j) :
    jobOf j.id d = some j ∧ j.place = .core (lead c d).bench (lead c d).core := by
  simp only [jobOn] at h
  split at h
  · split at h
    · split at h
      · next hx => split at h <;> cases h; exact ⟨jobOf_id hx ▸ hx, ‹_›⟩
      · cases h
    · cases h
  · cases h

@[simp] theorem portOf_setPort_self (c : CoreRef) (port : Nat) (p : LookupPort) (d : Device) : portOf c port (setPort c port p d) = p :=
  tabGetD_tabSet_self _ _ _ _

/-! ### Counting a lookup changes no key (03 R126) -/

theorem chainGo_congr {k l : KeyStore} (hslots : k.slots = l.slots) (hgen : k.gen0 = l.gen0) (n i : Nat) : chainGo k n i = chainGo l n i := by
  have hslot : ∀ i, slotOf i k = slotOf i l := fun i => by simp only [slotOf, freeSlot, hslots, hgen]
  induction n generalizing i with
  | zero => rfl
  | succ n ih => simp only [chainGo, hslot, ih]

/-- A chain is read from the array alone. -/
theorem chainOf_congr {k l : KeyStore} (hslots : k.slots = l.slots) (hgen : k.gen0 = l.gen0) (head : Nat) : chainOf head k = chainOf head l := by
  rw [chainOf, chainGo_congr hslots hgen, slotOf, freeSlot, hslots, hgen]
  rfl

@[simp] theorem chainOf_countLookup (head : Nat) (d : Device) : chainOf head (countLookup d).keys = chainOf head d.keys :=
  chainOf_congr (k := (countLookup d).keys) (l := d.keys) rfl rfl head
@[simp] theorem chainKeys_countLookup (head : Nat) (d : Device) : chainKeys head (countLookup d) = chainKeys head d := by
  simp only [chainKeys, chainOf_countLookup]
  rfl
@[simp] theorem mapped_countLookup (head : Nat) (d : Device) : mapped head (countLookup d) = mapped head d := by
  simp only [mapped, chainOf_countLookup]
  rfl
@[simp] theorem portCode_countLookup (p : LookupPort) (d : Device) : portCode p (countLookup d) = portCode p d := rfl
@[simp] theorem lookupBlocked_countLookup (p : LookupPort) (d : Device) : lookupBlocked p (countLookup d) = lookupBlocked p d := by
  simp only [lookupBlocked, chainOf_countLookup, portCode_countLookup]
  rfl
@[simp] theorem arriving_countLookup (c : CoreRef) (port : Nat) (inner : Bool) (h : BitVec 32) (j : Job) (d : Device) :
    arriving c port inner h j (countLookup d) = arriving c port inner h j d := rfl

/-! ### A lookup by its outcome (03 R74, R101, R102, R110, R111) -/

theorem exec_keyLookup {c : CoreRef} {port : Nat} {h : BitVec 32} {j : Job} {s : State} (hj : jobOn c s.dev = some j)
    (hruns : keyStoreRuns s.dev = true) (hport : port < 2) (hgrant : (portGrant (lead c s.dev) port s.dev).isSome = true)
    (hwaiting : (portOf (lead c s.dev) port s.dev).waiting = false) (hdue : (portOf (lead c s.dev) port s.dev).verdictDue = false) :
    exec (.keyLookup c port h) s = .next { s with dev := lookupRequest (lead c s.dev) port false h j s.dev } := by
  change execKeyLookup c port h s = _
  simp only [execKeyLookup, runDev, jobOn_lead, hj, doWith]
  exact next_doIf (by simp [hruns, hport, hgrant, hwaiting, hdue])

/-- The port's record of a lookup that delivers, and of one that is refused. -/
def delivering (head : Nat) (p : LookupPort) (d : Device) : LookupPort :=
  { p with code := 0, waiting := false, fetching := some head, engineKey := chainKeys head d, verdictDue := true
           fetchedSlots := p.fetchedSlots + (chainOf head d.keys).length }
def refused (p : LookupPort) (d : Device) : LookupPort :=
  { p with code := portCode p d, waiting := false, engineKey := [], fetching := none, verdictDue := false, fetchedSlots := p.fetchedSlots + 1 }

theorem lookupNow_of_refused {c : CoreRef} {port : Nat} {p : LookupPort} {d : Device} (hcode : portCode p d ≠ 0) :
    lookupNow c port p d = setPort c port (refused p d) (chargeSlots c port 1 (noteFetched p d)) := if_pos hcode

theorem lookupNow_of_sound {c : CoreRef} {port : Nat} {p : LookupPort} {d : Device} (hcode : portCode p d = 0)
    (hmapped : mapped (handleSlot p.handle) d = false) :
    lookupNow c port p d = setPort c port (delivering (handleSlot p.handle) p d)
      (chargeSlots c port (chainOf (handleSlot p.handle) d.keys).length (noteFetched p d)) :=
  (if_neg (by simp [hcode])).trans (if_neg (by simp [hmapped]))

@[simp] theorem refused_countLookup (p : LookupPort) (d : Device) : refused p (countLookup d) = refused p d := rfl
@[simp] theorem delivering_countLookup (head : Nat) (p : LookupPort) (d : Device) : delivering head p (countLookup d) = delivering head p d := by
  simp only [delivering, chainKeys_countLookup, chainOf_countLookup]

variable {c : CoreRef} {port : Nat} {inner : Bool} {h : BitVec 32} {j : Job} {d : Device}

theorem lookupRequest_of_blocked (hblocked : lookupBlocked (arriving c port inner h j d) d = true) :
    lookupRequest c port inner h j d = setPort c port { arriving c port inner h j d with waiting := true } (countLookup d) :=
  if_pos (by rw [lookupBlocked_countLookup]; exact hblocked)

theorem lookupRequest_of_free (hblocked : lookupBlocked (arriving c port inner h j d) d = false) :
    lookupRequest c port inner h j d = lookupNow c port (arriving c port inner h j d) (countLookup d) :=
  if_neg (by rw [lookupBlocked_countLookup, arriving_countLookup, hblocked]; decide)

/-- The job that asked has its answer noted. -/
def asked (h : BitVec 32) (j : Job) : Job := { j with fetched := if j.fetched.contains h then j.fetched else j.fetched ++ [h] }

/-- What a lookup that did not wait leaves of the device, its port apart. -/
def looked (c : CoreRef) (port n : Nat) (h : BitVec 32) (j : Job) (d : Device) : Device :=
  chargeSlots c port n (modJob j.id (asked h) (countLookup d))

theorem jobOf_looked {n : Nat} {p : LookupPort} (hj : jobOf j.id d = some j) :
    jobOf j.id (setPort c port p (looked c port n h j d)) = some (asked h j) := by
  refine Eq.trans ?_ (jobOf_modJob_self (f := asked h) (fun _ _ => rfl) hj)
  rfl

theorem lookupRequest_of_refused (hblocked : lookupBlocked (arriving c port false h j d) d = false) (hcode : lookupCode j.tenant h d ≠ 0) :
    lookupRequest c port false h j d = setPort c port (refused (arriving c port false h j d) d) (looked c port 1 h j d) := by
  have hp : portCode (arriving c port false h j d) (countLookup d) ≠ 0 := hcode
  rw [lookupRequest_of_free hblocked, lookupNow_of_refused hp, refused_countLookup]
  rfl

theorem lookupRequest_of_sound (hblocked : lookupBlocked (arriving c port false h j d) d = false) (hcode : lookupCode j.tenant h d = 0)
    (hmapped : mapped (handleSlot h) d = false) :
    lookupRequest c port false h j d = setPort c port (delivering (handleSlot h) (arriving c port false h j d) d)
      (looked c port (chainOf (handleSlot h) d.keys).length h j d) := by
  have hp : portCode (arriving c port false h j d) (countLookup d) = 0 := hcode
  rw [lookupRequest_of_free hblocked, lookupNow_of_sound hp ((mapped_countLookup _ d).trans hmapped), delivering_countLookup, chainOf_countLookup]
  rfl

/-! ### The tag verdict (03 R99, R102, R111) -/

theorem exec_tagVerdict {c : CoreRef} {port : Nat} {s : State} (hruns : keyStoreRuns s.dev = true)
    (hdue : (portOf (lead c s.dev) port s.dev).verdictDue = true) :
    exec (.tagVerdict c port) s = .next { s with dev :=
      (verdictIn (lead c s.dev) port (portOf (lead c s.dev) port s.dev) ((portOf (lead c s.dev) port s.dev).job.getD 0) s.dev) } :=
  next_doIf (by simp [hruns, hdue])

theorem verdictIn_of_sound {p : LookupPort} {job : Nat} (hbad : badSlot (handleSlot p.handle) d = none) :
    let e := setPort c port { p with fetching := none, verdictDue := false } d
    verdictIn c port p job d = if d.keys.awaits = some (handleSlot p.handle) then remaskGo e else e := by
  simp only [verdictIn, hbad]
  rfl

/-- The port's record of a fetch whose tag does not match. -/
def failedPort (p : LookupPort) : LookupPort := { p with fetching := none, verdictDue := false, engineKey := [], code := 0x0504 }
/-- The device in which an integrity failure of a slot is recorded, before the job is squashed. -/
def failureNoted (i : Nat) (h : BitVec 32) (d : Device) : Device :=
  emit .alarm 0x0201 .keyStore (leBytes 4 i ++ leBytes 4 h.toNat) { d with keys := { d.keys with
    faultMap := if d.keys.faultMap.contains i then d.keys.faultMap else d.keys.faultMap ++ [i]
    tagErrCount := d.keys.tagErrCount + 1
    tagErrOverflow := d.keys.tagErrOverflow || d.keys.tagErrCount == BitVec.allOnes 11
    tagErrSlot := BitVec.ofNat 20 i } }
theorem tagFailure_eq (i : Nat) (h : BitVec 32) (job : Nat) (d : Device) :
    tagFailure i h job d = dispatchAll (squashJob job 0x0504 (failureNoted i h d)) := rfl

theorem tagFailure_fuses (i : Nat) (h : BitVec 32) (job : Nat) (d : Device) : (tagFailure i h job d).fuses = d.fuses := by
  have hstand : standing (tagFailure i h job d) = standing d := by
    rw [tagFailure_eq, dispatchAll_standing, squashJob_standing]
    rfl
  exact (fuses_of_standing hstand :)

theorem mem_failureNoted (i : Nat) (h : BitVec 32) (d : Device) : i ∈ (failureNoted i h d).keys.faultMap := by
  change i ∈ if d.keys.faultMap.contains i then d.keys.faultMap else d.keys.faultMap ++ [i]
  split
  · next hi => simpa using hi
  · simp

theorem tagFailure_records {i job : Nat} {h : BitVec 32} {d : Device} (hids : (d.gaffer.jobs.map (·.id)).Nodup) (hjob : (jobOf job d).isSome = true) :
    answeredWith job 0x0504 (tagFailure i h job d) ∧
    (tagFailure i h job d).keys = { (failureNoted i h d).keys with ports := (tagFailure i h job d).keys.ports } :=
  dispatchAll_squashJob (d := failureNoted i h d) hids hjob

theorem verdictIn_of_bad {p : LookupPort} {job i : Nat} (hbad : badSlot (handleSlot p.handle) d = some i)
    (hids : (d.gaffer.jobs.map (·.id)).Nodup) (hjob : (jobOf job d).isSome = true) (hawaits : d.keys.awaits ≠ some (handleSlot p.handle)) :
    verdictIn c port p job d = tagFailure i p.handle job (setPort c port (failedPort p) d) := by
  simp only [verdictIn, hbad]
  refine if_neg ?_
  change (tagFailure i p.handle job (setPort c port (failedPort p) d)).keys.awaits ≠ _
  rw [(tagFailure_records (d := setPort c port (failedPort p) d) hids hjob).2]
  exact hawaits

/-- Settles O32: the request by its outcome, and the verdict by what the tags of the chain say. -/
theorem lookupsDeliverOrRefuse : Obligations.LookupsDeliverOrRefuse := by
  constructor
  · intro c port h j s hj hruns hport hgrant u p n asked hwaiting hdue
    have hexec := exec_keyLookup (h := h) hj hruns hport hgrant hwaiting hdue
    have hjob := (jobOn_eq_some hj).1
    refine ⟨fun hblocked hcode hmapped => ?_, fun hblocked hcode => ?_, fun hblocked => ?_⟩
    · rw [lookupRequest_of_sound hblocked hcode hmapped] at hexec
      exact ⟨_, hexec, portOf_setPort_self _ _ _ _, jobOf_looked hjob, rfl, rfl, rfl⟩
    · rw [lookupRequest_of_refused hblocked hcode] at hexec
      exact ⟨_, hexec, portOf_setPort_self _ _ _ _, jobOf_looked hjob, rfl, rfl⟩
    · rw [lookupRequest_of_blocked hblocked] at hexec
      exact hexec
  · intro c port s hruns u p hdue
    have hexec := exec_tagVerdict hruns hdue
    refine ⟨fun hbad => ?_, fun i j hawaits hbad hj hjob hdistinct => ?_⟩
    · rw [hexec, verdictIn_of_sound hbad]
    · rw [hj, Option.getD_some, verdictIn_of_bad hbad hdistinct.1 hjob hawaits] at hexec
      obtain ⟨⟨-, hanswer⟩, hkeys⟩ := tagFailure_records (i := i) (h := p.handle)
        (d := setPort u port (failedPort p) s.dev) hdistinct.1 hjob
      refine ⟨_, hexec, ?_, ?_, ?_, hanswer, ?_, tagFailure_fuses _ _ _ _⟩
      · rw [hkeys]; exact mem_failureNoted i p.handle (setPort u port (failedPort p) s.dev)
      all_goals rw [hkeys]; rfl

end Sys2Proof.Machine
end

section
/-! SUPPORT. A re-mask: its start, its steps and its end. -/

namespace Sys2Proof.Machine

/-! ### Session keys (13 R487; log entry 97) -/

theorem sessionPad_twice (root : BitVec 256) (i at_ : Nat) (data : Bytes) : sessionPad root i at_ (sessionPad root i at_ data) = data := by
  have hl : (sessionPad root i at_ data).length = data.length := bytesXor_length _ _ (by simp)
  rw [sessionPad, hl]
  exact bytesXor_twice data _ (by simp)

theorem clearKeys_withKeys (d : Device) (i : Nat) (keys : Bytes) (prev : Option Bytes) (s : Session) :
    clearKeys d i (withKeys d i keys prev s) = keys := sessionPad_twice _ i 0 keys

/-- An entry without keys reads as empty under every root. -/
theorem clearKeys_of_isEmpty {s : Session} (d : Device) (i : Nat) (h : s.keys.isEmpty = true) : clearKeys d i s = [] := by
  rw [clearKeys, List.isEmpty_iff.mp h]
  rfl

/-- Every entry of the table reads under the new root as it read under the old one. -/
theorem clearKeys_remaskSessions {old d : Device} (hnet : d.net = old.net) (i : Nat) :
    clearKeys (remaskSessions old d) i (sessionOf i (remaskSessions old d)) = clearKeys old i (sessionOf i old) := by
  simp only [sessionOf, remaskSessions, tabGetD, tabGet_tabMap, hnet]
  cases tabGet i old.net.sessions with
  | none => rfl
  | some x =>
    simp only [Option.map_some, Option.getD_some]
    split
    · next hx => rw [clearKeys_of_isEmpty _ i hx, clearKeys_of_isEmpty _ i hx]
    · exact clearKeys_withKeys d i _ _ x

/-! ### The start (03 R105, R109; 01 R15) -/

/-- The root that the draw of a re-mask gives. -/
def drawnRoot (d : Device) : BitVec 256 := bytesBv 256 ((drawn 8 (32 + benchKeyBytes d) (deviceReseed 8 d)).take 32)
/-- The root registers and the key store as the first step leaves them. -/
def remaskCustody (d : Device) : Custody :=
  { d.custody with root0 := if !d.keys.epoch then d.custody.root0 else drawnRoot d
                   root1 := if !d.keys.epoch then drawnRoot d else d.custody.root1 }
def remaskKeys (d : Device) : KeyStore :=
  { d.keys with epoch := !d.keys.epoch, remaskActive := true, cursor := 0, stepLeft := 0, awaits := none, converting := none
                lastRemask := d.time.ticks }

theorem rootOf_remaskCustody_new (d : Device) : rootOf (!d.keys.epoch) (remaskCustody d) = drawnRoot d := by
  cases he : d.keys.epoch <;> simp [rootOf, remaskCustody, he]
theorem rootOf_remaskCustody_old (d : Device) : rootOf d.keys.epoch (remaskCustody d) = rootOf d.keys.epoch d.custody := by
  cases he : d.keys.epoch <;> simp [rootOf, remaskCustody, he]

theorem doEach_benches {α : Type} {f : α → Device → Device} (hf : ∀ x d, f x d = { d with benches := (f x d).benches }) (xs : List α) (d : Device) :
    doEach xs f d = { d with benches := (doEach xs f d).benches } := by
  induction xs generalizing d with
  | nil => rfl
  | cons x xs ih => exact (ih (f x d)).trans (congrArg (fun e => { e with benches := (doEach xs f (f x d)).benches }) (hf x d))

theorem rescrambleAll_frame (keys : Bytes) (d : Device) : rescrambleAll keys d = { d with benches := (rescrambleAll keys d).benches } :=
  doEach_benches (fun p e => by split <;> rfl) _ d

/-- The first step, the benches apart: the root drawn, the session keys under it. -/
def remaskBegun (d : Device) : Device :=
  let e := spend 8 (32 + benchKeyBytes d) (deviceReseed 8 d)
  remaskSessions e { e with custody := remaskCustody d, keys := remaskKeys d }

theorem startRemask_frame (d : Device) : startRemask d = { remaskBegun d with benches := (startRemask d).benches } :=
  rescrambleAll_frame _ (remaskBegun d)

theorem startRemask_clearKeys (i : Nat) (d : Device) : clearKeys (startRemask d) i (sessionOf i (startRemask d)) = clearKeys d i (sessionOf i d) := by
  have hbenches : ∀ (e : Device) (bs : Tab Bench), clearKeys { e with benches := bs } i (sessionOf i { e with benches := bs }) =
      clearKeys e i (sessionOf i e) := fun _ _ => rfl
  have hdrawn : ∀ (e : Device) (g : Gather) (n : Nat), clearKeys { e with gather := g, draws := n } i
      (sessionOf i { e with gather := g, draws := n }) = clearKeys e i (sessionOf i e) := fun _ _ _ => rfl
  rw [startRemask_frame, hbenches]
  exact (clearKeys_remaskSessions (by rfl) i).trans (hdrawn d _ _)

theorem requestRemask_starts {d : Device} (hready : d.keys.ready = true) (ha : d.keys.remaskActive = false) (hs : d.gather.service = true) :
    requestRemask d = startRemask d := by
  simp [requestRemask, hready, ha, hs]
theorem requestRemask_queues {d : Device} (hready : d.keys.ready = true) (h : d.keys.remaskActive = true ∨ d.gather.service = false) :
    requestRemask d = { d with keys := { d.keys with remaskQueued := true } } := by
  rcases h with h | h <;> simp [requestRemask, hready, h]

theorem keyStoreRuns_iff (d : Device) : keyStoreRuns d = true ↔ outOfReset d = true ∧ d.keys.ready = true ∧ d.keys.halted = false := by
  simp [keyStoreRuns, and_assoc]

theorem exec_remaskNow {s : State} (hruns : keyStoreRuns s.dev = true) (hstarted : started s.dev = true) :
    exec .remaskNow s = .next { s with dev := requestRemask s.dev } := next_doIf (by simp [hruns, hstarted])
theorem exec_remaskIntervalExpiry {s : State} (hruns : keyStoreRuns s.dev = true) (hi : s.dev.keys.remaskInterval ≠ 0)
    (hdue : s.dev.keys.lastRemask + 3600 * secTicks * s.dev.keys.remaskInterval.toNat ≤ s.dev.time.ticks) :
    exec .remaskIntervalExpiry s = .next { s with dev := requestRemask s.dev } := 
  next_doIf (by simpa [hruns, hdue] using hi)

/-- What the first step of a re-mask leaves of the roots, the key store and the session keys. -/
def begun (a d : Device) : Prop :=
  d.keys.epoch = !a.keys.epoch ∧ d.keys.remaskActive = true ∧ d.keys.cursor = 0 ∧ d.keys.lastRemask = a.time.ticks ∧
  rootOf d.keys.epoch d.custody = drawnRoot a ∧ rootOf a.keys.epoch d.custody = rootOf a.keys.epoch a.custody ∧ d.keys.slots = a.keys.slots ∧
  (∀ i, clearKeys d i (sessionOf i d) = clearKeys a i (sessionOf i a)) ∧
  d = { a with custody := d.custody, keys := d.keys, net := d.net, benches := d.benches, gather := d.gather, draws := d.draws }
theorem startRemask_begun (d : Device) : begun d (startRemask d) := by
  have hkeys : (startRemask d).keys = remaskKeys d := by rw [startRemask_frame]; rfl
  have hcustody : (startRemask d).custody = remaskCustody d := by rw [startRemask_frame]; rfl
  unfold begun
  rw [hkeys, hcustody]
  refine ⟨rfl, rfl, rfl, rfl, rootOf_remaskCustody_new d, rootOf_remaskCustody_old d, rfl, fun i => startRemask_clearKeys i d, ?_⟩
  rw [startRemask_frame]
  rfl

theorem remaskNow_begins (s : State) (hruns : keyStoreRuns s.dev = true) (hstarted : started s.dev = true)
    (ha : s.dev.keys.remaskActive = false) (hs : s.dev.gather.service = true) : Completes .remaskNow s (begun s.dev) :=
  ⟨_, by rw [exec_remaskNow hruns hstarted, requestRemask_starts ((keyStoreRuns_iff _).mp hruns).2.1 ha hs], startRemask_begun s.dev⟩

theorem remaskIntervalExpiry_begins (s : State) (hruns : keyStoreRuns s.dev = true) (hi : s.dev.keys.remaskInterval ≠ 0)
    (ha : s.dev.keys.remaskActive = false) (hs : s.dev.gather.service = true)
    (hdue : s.dev.keys.lastRemask + 3600 * secTicks * s.dev.keys.remaskInterval.toNat ≤ s.dev.time.ticks) :
    Completes .remaskIntervalExpiry s (begun s.dev) :=
  ⟨_, by rw [exec_remaskIntervalExpiry hruns hi hdue, requestRemask_starts ((keyStoreRuns_iff _).mp hruns).2.1 ha hs], startRemask_begun s.dev⟩

/-! ### Lookups that wait -/

/-- Where no lookup waits, none is resumed. -/
theorem resumeLookups_of_idle {d : Device} (h : ∀ p ∈ d.keys.ports, p.2.waiting = false) : resumeLookups d = d := by
  have hnone : d.keys.ports.filter (fun p => p.2.waiting && !lookupBlocked p.2 d) = [] :=
    List.filter_eq_nil_iff.mpr fun p hp => by simp [h p hp]
  unfold resumeLookups
  cases d.keys.ports.length with
  | zero => rfl
  | succ n => simp only [resumeGo, hnone, leastBy]

/-! ### One slot converted (03 R106 to R108) -/

theorem convertSlot_frame (i : Nat) (d : Device) : convertSlot i d = { d with keys := { d.keys with slots := (convertSlot i d).keys.slots } } := by
  unfold convertSlot
  split
  · rfl
  · split <;> rfl

theorem tabGet_convertSlot_of_ne {i j : Nat} (d : Device) (h : i ≠ j) : tabGet j (convertSlot i d).keys.slots = tabGet j d.keys.slots := by
  unfold convertSlot
  split
  · rfl
  · split
    · rfl
    · exact tabGet_memSet_of_ne _ h

theorem eq_of_tabGet_memSet {α : Type} [DecidableEq α] {x v y : α} {k : Nat} {t : Tab α} (h : tabGet k (memSet x k v t) = some y) : y = v := by
  unfold memSet at h
  split at h
  · rw [tabGet_tabErase, if_pos rfl] at h; cases h
  · rw [tabGet_tabSet_self] at h; exact (Option.some.inj h).symm

/-- A slot that is listed after its conversion is of the epoch of new records. -/
theorem epoch_convertSlot {i : Nat} {d : Device} {x : Slot} (h : tabGet i (convertSlot i d).keys.slots = some x) : x.epoch = d.keys.epoch := by
  unfold convertSlot at h
  split at h
  · next hnone => rw [hnone] at h; cases h
  · next s hs =>
    split at h
    · next he => rw [hs] at h; cases h; exact he
    · next he =>
      rw [eq_of_tabGet_memSet h, convert_epoch]
      exact Bool.not_eq.mpr he

/-! ### The slots of a step converted in turn -/

theorem doEach_convertSlot_frame (xs : List Nat) (d : Device) :
    doEach xs convertSlot d = { d with keys := { d.keys with slots := (doEach xs convertSlot d).keys.slots } } := by
  induction xs generalizing d with
  | nil => rfl
  | cons i xs ih =>
    exact (ih (convertSlot i d)).trans (congrArg
      (fun e => { e with keys := { e.keys with slots := (doEach xs convertSlot (convertSlot i d)).keys.slots } }) (convertSlot_frame i d))

theorem tabGet_doEach_convertSlot_of_not_mem {xs : List Nat} {j : Nat} (d : Device) (h : j ∉ xs) :
    tabGet j (doEach xs convertSlot d).keys.slots = tabGet j d.keys.slots := by
  induction xs generalizing d with
  | nil => rfl
  | cons i xs ih =>
    rw [List.mem_cons, not_or] at h
    exact (ih (convertSlot i d) h.2).trans (tabGet_convertSlot_of_ne d (Ne.symm h.1))

theorem epoch_doEach_convertSlot {xs : List Nat} {j : Nat} {d : Device} {x : Slot} (hj : j ∈ xs)
    (h : tabGet j (doEach xs convertSlot d).keys.slots = some x) : x.epoch = d.keys.epoch := by
  induction xs generalizing d with
  | nil => cases hj
  | cons i xs ih =>
    have hepoch : (convertSlot i d).keys.epoch = d.keys.epoch := by rw [convertSlot_frame]
    by_cases hmem : j ∈ xs
    · exact (ih hmem h).trans hepoch
    · obtain rfl : j = i := (List.mem_cons.mp hj).resolve_right hmem
      exact epoch_convertSlot ((tabGet_doEach_convertSlot_of_not_mem (convertSlot j d) hmem).symm.trans h)

theorem slotOf_congr {k l : KeyStore} {i : Nat} (hget : tabGet i k.slots = tabGet i l.slots) (hgen : k.gen0 = l.gen0) : slotOf i k = slotOf i l := by
  simp only [slotOf, tabGetD, freeSlot, hget, hgen]

/-! ### A step (03 R105, R110, R111) -/

/-- The device in which a step of n slots begins. -/
def stepBegun (n : Nat) (d : Device) : Device := { d with keys := { d.keys with stepLeft := n, lastStep := some d.time.ticks } }

theorem exec_remaskStep {s : State} (hruns : keyStoreRuns s.dev = true) (ha : s.dev.keys.remaskActive = true) (hc : s.dev.keys.converting = none)
    (hleft : s.dev.keys.stepLeft = 0) (hdue : stepDue s.dev = true) :
    exec .remaskStep s = .next { s with dev := remaskGo (stepBegun (min 256 (slotCount s.dev - s.dev.keys.cursor)) s.dev) } := by
  refine (next_doIf (by simp [hruns, ha, hc, hdue])).trans ?_
  simp only [beginStep, hleft, ne_eq, not_true_eq_false, if_false]
  rfl

/-- The n slots from a cursor. -/
def stepRange (cursor n : Nat) : List Nat := (List.range n).map (fun i => cursor + i)
theorem mem_stepRange {cursor n i : Nat} : i ∈ stepRange cursor n ↔ cursor ≤ i ∧ i < cursor + n := by
  simp only [stepRange, List.mem_map, List.mem_range]
  exact ⟨fun ⟨k, hk, he⟩ => by omega, fun h => ⟨i - cursor, by omega, by omega⟩⟩

theorem stepSlots_eq {d : Device} (h : ∀ i ∈ stepRange d.keys.cursor d.keys.stepLeft, fetched i d = false) :
    stepSlots d = stepRange d.keys.cursor d.keys.stepLeft :=
  List.takeWhile_eq_self_iff.mpr fun i hi => by rw [h i hi]; rfl

theorem length_stepRange (cursor n : Nat) : (stepRange cursor n).length = n := by simp [stepRange]
theorem dropLast_stepRange (cursor m : Nat) : (stepRange cursor (m + 1)).dropLast = stepRange cursor m := by
  simp [stepRange, List.range_succ]

/-- A step that no fetch stops converts all its slots but the last, which stays under conversion. -/
theorem remaskGo_of_unfetched {d : Device} {m : Nat} (hleft : d.keys.stepLeft = m + 1)
    (hfetched : ∀ i, d.keys.cursor ≤ i → i ≤ d.keys.cursor + m → fetched i d = false) (hidle : ∀ p ∈ d.keys.ports, p.2.waiting = false) :
    remaskGo d = { d with keys := { d.keys with
      slots := (doEach (stepRange d.keys.cursor m) convertSlot d).keys.slots
      cursor := d.keys.cursor + m, converting := some (d.keys.cursor + m), stepLeft := 0, awaits := none } } := by
  have hslots : stepSlots d = stepRange d.keys.cursor (m + 1) := by
    rw [stepSlots_eq, hleft]
    intro i hi
    rw [hleft, mem_stepRange] at hi
    exact hfetched i hi.1 (by omega)
  unfold remaskGo
  simp only [hslots, hleft, length_stepRange, dropLast_stepRange, Nat.succ_ne_zero, if_false, if_true]
  rw [doEach_convertSlot_frame]
  exact resumeLookups_of_idle hidle

/-- A step whose first slot belongs to a key that is being fetched waits for that fetch. -/
theorem remaskGo_of_fetched {d : Device} (hleft : d.keys.stepLeft ≠ 0) (hfetched : fetched d.keys.cursor d = true)
    (hidle : ∀ p ∈ d.keys.ports, p.2.waiting = false) :
    remaskGo d = { d with keys := { d.keys with awaits := some (headOfSlot d.keys.cursor d) } } := by
  obtain ⟨m, hm⟩ := Nat.exists_eq_succ_of_ne_zero hleft
  have hslots : stepSlots d = [] := by
    simp [stepSlots, hm, List.range_succ_eq_map, hfetched]
  unfold remaskGo
  simp only [hslots, hm, List.length_nil, Nat.succ_ne_zero, (Nat.succ_ne_zero m).symm, if_false]
  refine (resumeLookups_of_idle ?_).trans ?_
  · exact hidle
  · rw [← hm]; rfl

/-- A step that begins where no key of its slots is being fetched. -/
theorem remaskStep_converts (s : State) (hruns : keyStoreRuns s.dev = true) (ha : s.dev.keys.remaskActive = true)
    (hc : s.dev.keys.converting = none) (hleft : s.dev.keys.stepLeft = 0) (hdue : stepDue s.dev = true)
    (hcursor : s.dev.keys.cursor < slotCount s.dev) (hidle : ∀ p ∈ s.dev.keys.ports, p.2.waiting = false) :
    let n := min 256 (slotCount s.dev - s.dev.keys.cursor)
    let last := s.dev.keys.cursor + n - 1
    (∀ i, s.dev.keys.cursor ≤ i → i ≤ last → fetched i s.dev = false) →
    Completes .remaskStep s (fun d => d.keys.converting = some last ∧ d.keys.cursor = last ∧ d.keys.lastStep = some s.dev.time.ticks ∧
      d.keys.stepLeft = 0 ∧
      (∀ i, s.dev.keys.cursor ≤ i → i < last → ∀ x, tabGet i d.keys.slots = some x → x.epoch = s.dev.keys.epoch) ∧
      (∀ i, (i < s.dev.keys.cursor ∨ last ≤ i) → slotOf i d.keys = slotOf i s.dev.keys) ∧ d = { s.dev with keys := d.keys }) := by
  intro n last hfetched
  obtain ⟨m, hm⟩ : ∃ m, n = m + 1 := ⟨n - 1, by omega⟩
  have hlast : last = s.dev.keys.cursor + m := by omega
  have hgo := remaskGo_of_unfetched (d := stepBegun n s.dev) hm (fun i h1 h2 => hfetched i h1 (hlast ▸ h2)) hidle
  refine ⟨_, by rw [exec_remaskStep hruns ha hc hleft hdue, hgo], ?_⟩
  rw [hlast]
  refine ⟨rfl, rfl, rfl, rfl, fun i h1 h2 x hx => ?_, fun i hi => ?_, rfl⟩
  · exact epoch_doEach_convertSlot (d := stepBegun n s.dev) (mem_stepRange.mpr ⟨h1, h2⟩) hx
  · refine slotOf_congr (tabGet_doEach_convertSlot_of_not_mem (stepBegun n s.dev) fun hmem => ?_) rfl
    have := mem_stepRange.mp hmem
    change s.dev.keys.cursor ≤ i ∧ i < s.dev.keys.cursor + m at this
    omega

theorem remaskStep_awaits (s : State) (hruns : keyStoreRuns s.dev = true) (ha : s.dev.keys.remaskActive = true)
    (hc : s.dev.keys.converting = none) (hleft : s.dev.keys.stepLeft = 0) (hdue : stepDue s.dev = true)
    (hcursor : s.dev.keys.cursor < slotCount s.dev) (hidle : ∀ p ∈ s.dev.keys.ports, p.2.waiting = false)
    (hfetched : fetched s.dev.keys.cursor s.dev = true) :
    exec .remaskStep s = .next { s with dev := { s.dev with keys := { s.dev.keys with
      stepLeft := min 256 (slotCount s.dev - s.dev.keys.cursor), lastStep := some s.dev.time.ticks
      awaits := some (headOfSlot s.dev.keys.cursor s.dev) } } } := by
  have hn : min 256 (slotCount s.dev - s.dev.keys.cursor) ≠ 0 := by omega
  rw [exec_remaskStep hruns ha hc hleft hdue, remaskGo_of_fetched (d := stepBegun _ s.dev) hn hfetched hidle]
  rfl

/-! ### The end of a conversion and of the re-mask (03 R108, R110) -/

theorem exec_conversionEnd {i : Nat} {s : State} (hruns : keyStoreRuns s.dev = true) (ha : s.dev.keys.remaskActive = true)
    (hc : s.dev.keys.converting = some i) : exec .conversionEnd s = .next { s with dev := conversionEnds i s.dev } :=
  (next_doIf (by simp [hruns, ha])).trans (by rw [hc]; rfl)

/-- The slot is converted, and the cursor stands behind it. -/
def slotConverted (i : Nat) (d : Device) : Device :=
  { d with keys := { d.keys with slots := (convertSlot i d).keys.slots, converting := none, cursor := i + 1 } }

theorem conversionEnds_eq {i : Nat} {d : Device} (hidle : ∀ p ∈ d.keys.ports, p.2.waiting = false) :
    conversionEnds i d = if slotCount d ≤ i + 1 then endRemask (slotConverted i d) else slotConverted i d := by
  unfold conversionEnds
  rw [convertSlot_frame]
  dsimp only
  rw [resumeLookups_of_idle]
  · rfl
  · exact hidle

/-- The old root is erased and the end is reported. -/
def remaskEnded (d : Device) : Device :=
  let e := d.keys.epoch
  emit .info 0x0202 .keyStore ([if e then 1 else 0] ++ leBytes 1 (satInc d.keys.completed).toNat) { d with
    custody := { d.custody with root0 := if e then 0 else d.custody.root0, root1 := if e then d.custody.root1 else 0 }
    keys := { d.keys with remaskActive := false, completed := satInc d.keys.completed } }
theorem endRemask_of_unqueued {d : Device} (hq : d.keys.remaskQueued = false) : endRemask d = remaskEnded d :=
  if_neg (by simp [hq])

theorem rootOf_remaskEnded_old (d : Device) : rootOf (!d.keys.epoch) (remaskEnded d).custody = 0 := by
  cases he : d.keys.epoch <;> simp [rootOf, remaskEnded, he]
theorem rootOf_remaskEnded_new (d : Device) : rootOf d.keys.epoch (remaskEnded d).custody = rootOf d.keys.epoch d.custody := by
  cases he : d.keys.epoch <;> simp [rootOf, remaskEnded, he]

theorem conversionEnd_ends (i : Nat) (s : State) (hruns : keyStoreRuns s.dev = true) (ha : s.dev.keys.remaskActive = true)
    (hc : s.dev.keys.converting = some i) (hidle : ∀ p ∈ s.dev.keys.ports, p.2.waiting = false) :
    (i + 1 < slotCount s.dev → Completes .conversionEnd s (fun d => d.keys.converting = none ∧ d.keys.cursor = i + 1 ∧
      d.keys.remaskActive = true ∧ (∀ k, k ≠ i → slotOf k d.keys = slotOf k s.dev.keys) ∧ d = { s.dev with keys := d.keys })) ∧
    (slotCount s.dev ≤ i + 1 → s.dev.keys.remaskQueued = false → Completes .conversionEnd s (fun d => d.keys.remaskActive = false ∧
      d.keys.completed = satInc s.dev.keys.completed ∧ rootOf (!s.dev.keys.epoch) d.custody = 0 ∧
      rootOf s.dev.keys.epoch d.custody = rootOf s.dev.keys.epoch s.dev.custody ∧
      d = { s.dev with custody := d.custody, keys := d.keys, events := d.events })) := by
  have hexec := exec_conversionEnd hruns ha hc
  rw [conversionEnds_eq hidle] at hexec
  refine ⟨fun hlt => ?_, fun hle hq => ?_⟩
  · rw [if_neg (by omega)] at hexec
    exact ⟨_, hexec, rfl, rfl, ha, fun k hk => slotOf_congr (tabGet_convertSlot_of_ne s.dev (Ne.symm hk)) rfl, rfl⟩
  · rw [if_pos hle, endRemask_of_unqueued (d := slotConverted i s.dev) hq] at hexec
    exact ⟨_, hexec, rfl, rfl, rootOf_remaskEnded_old (slotConverted i s.dev), rootOf_remaskEnded_new (slotConverted i s.dev), rfl⟩

end Sys2Proof.Machine
end

section
/-! SUPPORT. A verb's row whose step stands ready stages the result that the verb computes. -/

namespace Sys2Proof.Machine

variable {v : Verb} {c : CoreRef} {j : Job} {d : Device}

/-! ### What the row finds -/

theorem firstCode_pair_eq_zero {a b : Code} : firstCode [a, b] = 0 ↔ a = 0 ∧ b = 0 := by
  simp only [firstCode]
  split
  case isTrue ha => split <;> simp_all
  case isFalse ha => exact ⟨fun h => absurd h ha, fun h => absurd h.1 ha⟩

theorem verbJob_eq_some_iff {op : BitVec 16} : verbJob op c d = some j ↔ jobOn c d = some j ∧ j.recipe = op ∧ j.staged = none := by
  unfold verbJob
  cases jobOn c d with
  | none => simp
  | some k => by_cases hk : k = j <;> simp [hk, Option.isNone_iff_eq_none]
theorem verbJob_lead (op : BitVec 16) (c : CoreRef) (d : Device) : verbJob op (lead c d) d = verbJob op c d := by
  simp only [verbJob, jobOn_lead]

/-! ### Stages that find their work done -/

theorem fetchKeys_of_fetched (h : keysMissing v d j = []) : fetchKeys v c j d = d := if_pos (by rw [h]; rfl)
theorem bringState_of_here (h : stateHere c j = true) : bringState c j d = d := if_pos h
theorem withDrawn_of_drawn {n : Nat} {f : Job → Device → Device} (h : n = 0 ∨ drawnEnough v n j = true) : withDrawn v c n j f d = f j d :=
  if_pos (by simpa using h)

theorem runSegment_of_done {k : EngineKind} (hj : jobOn c d = some j) (hdone : blocksLeft v k d j = 0) : runSegment v c k d = d := by
  simp only [runSegment, hj, doWith]
  split
  · exact if_pos hdone
  · rfl
theorem segmentsGo_of_done {k : EngineKind} (hj : jobOn c d = some j) (hdone : blocksLeft v k d j = 0) (fuel : Nat) :
    segmentsGo v c k fuel d = d := by
  induction fuel with
  | zero => rfl
  | succ fuel ih => rw [segmentsGo, runSegment_of_done hj hdone, ih]
theorem runSegments_of_done (hj : jobOn c d = some j) (hdone : blocksDone v d j = true) : runSegments v c j d = d := by
  have hkind : ∀ k ∈ [EngineKind.cipher, .punty], (if (kindsOf j d).contains (kindCode k) then
      segmentsGo v c k (blocksLeft v k d j / segmentOf k j d + 2) d else d) = d := by
    intro k hk
    have := List.all_eq_true.mp hdone k hk
    split
    · next hn => exact segmentsGo_of_done hj (by rw [hn] at this; simpa using this) _
    · rfl
  simp only [runSegments, doEach, List.foldl_cons, List.foldl_nil]
  rw [hkind .cipher (by simp), hkind .punty (by simp)]

theorem checkDraw_drawn (hlast : lastOf v d j = true) (h : stepDraw v j d = 0 ∨ drawnEnough v (stepDraw v j d) j = true) :
    checkDraw v d j = 0 ∨ drawnEnough v (checkDraw v d j) j = true := by
  by_cases hlate : v.early d j = 0 ∨ j.step ≠ 0
  · exact .inl (if_pos (by simpa using hlate))
  · rw [not_or, not_not] at hlate
    have hcheck : checkDraw v d j = stepDraw v j d := by
      simp [checkDraw, stepDraw, kept, hlate, hlast]
    rw [hcheck]
    exact h

/-! ### The step -/

/-- The device in which a completed run is staged. -/
def runStaged (v : Verb) (c : CoreRef) (j : Job) (d : Device) : Device :=
  stage c.bench j.id (v.run d j (stepBytes v j d)) (v.note c.bench j (noteDerived v c.bench j d))

theorem runStep_of_due (hlast : lastOf v d j = true) (hhalf : j.safeMode = true → j.half = true)
    (hdrawn : stepDraw v j d = 0 ∨ drawnEnough v (stepDraw v j d) j = true) (hredo : (v.run d j (stepBytes v j d)).redo = false) :
    runStep v c j d = runStaged v c j d := by
  have hwhole : ¬ (j.safeMode && !j.half) = true := by simpa using hhalf
  rw [runStep, if_neg hwhole, if_neg (by simp [hlast])]
  refine (withDrawn_of_drawn (n := stepDraw v j d) hdrawn).trans (if_neg ?_)
  exact Bool.eq_false_iff.mp hredo

theorem runOnEngines_of_held (hj : verbJob j.recipe c d = some j) (hengines : enginesMissing c j d = []) (hblocks : blocksDone v d j = true) :
    runOnEngines v c j d = runStep v c j d := by
  have hseg := runSegments_of_done (v := v) (verbJob_eq_some_iff.mp hj).1 hblocks
  simp [runOnEngines, hengines, hj, doWith, doIf, hseg, hblocks]

/-- A step that stands ready runs at once from Decode to its result. -/
theorem runVerb_of_ready {op : BitVec 16} (h : verbReady op v c j d) : runVerb v (lead c d) j d = runStaged v (lead c d) j d := by
  obtain ⟨⟨⟨hjob, hhere, hkeys, hsound, hcode⟩, hlast, hengines, hblocks, hhalf⟩, hdrawn, hlate, hredo⟩ := h
  obtain ⟨hdecode, hgated⟩ := firstCode_pair_eq_zero.mp hcode
  have hjob' : verbJob j.recipe (lead c d) d = some j := by
    rw [verbJob_lead, (verbJob_eq_some_iff.mp hjob).2.1]
    exact hjob
  have hchecked : checkDrawn v (lead c d) j d = runStaged v (lead c d) j d := by
    refine (if_neg ?_).trans ((runOnEngines_of_held hjob' hengines hblocks).trans (runStep_of_due hlast hhalf hdrawn hredo))
    rw [not_not]
    split
    · rfl
    · next hnow =>
      simp only [Bool.or_eq_true, decide_eq_true_eq, not_or, not_not] at hnow
      simpa [hnow] using hlate
  have hrun : runChecked v (lead c d) j d = runStaged v (lead c d) j d := by
    simp only [runChecked, hsound]
    rw [if_neg (by simp [hgated]), withDrawn_of_drawn (checkDraw_drawn hlast hdrawn), hchecked]
  rw [runVerb, if_neg (by simp [hdecode]), bringState_of_here hhere]
  simp [hjob', doWith, doIf, hhere, fetchKeys_of_fetched hkeys, hkeys, hrun]

end Sys2Proof.Machine
end

section
/-! SUPPORT. The rows of a bench under the next key, sweeps, and O37. -/

namespace Sys2Proof.Machine

/-! ### The rows of a bench under the next key (01 R14, R15) -/

theorem maskRow_length (key : BitVec 256) (row : Nat) (data : Bytes) : (maskRow key row data).length = rowBytes := by
  rw [maskRow, bytesXor_length _ _ (by simp [fit, field_length]), fit, field_length]

/-- A row masked and unmasked under one key is the row. -/
theorem maskRow_twice (key : BitVec 256) (row : Nat) {data : Bytes} (h : data.length = rowBytes) : maskRow key row (maskRow key row data) = data := by
  have hm := maskRow_length key row data
  rw [maskRow, fit_of_length _ _ hm, maskRow, fit_of_length _ _ h]
  exact bytesXor_twice _ _ (by simp [h])

theorem convertRow_frame (row : Nat) (b : Bench) : convertRow row b = { b with rows := (convertRow row b).rows } := by
  unfold convertRow
  split <;> rfl

theorem tabGet_convertRow_of_ne {row r : Nat} (b : Bench) (h : r ≠ row) : tabGet r (convertRow row b).rows = tabGet r b.rows := by
  unfold convertRow
  split
  · rfl
  · exact (tabGet_tabSet _ _ _ _).trans (if_neg (Ne.symm h))

theorem epoch_convertRow {row : Nat} {b : Bench} {x : MemRow} (h : tabGet row (convertRow row b).rows = some x) : x.epoch = !b.rowEpoch := by
  unfold convertRow at h
  split at h
  · next hnone => rw [hnone] at h; cases h
  · rw [tabGet_tabSet_self] at h; rw [← Option.some.inj h]

/-- A converted row reads as before wherever the next epoch's key is the next key. -/
theorem readRow_converted (row : Nat) {b c : Bench} (hrows : c.rows = (convertRow row b).rows) (hkey : rowKey c (!b.rowEpoch) = rowKey b (!b.rowEpoch)) :
    readRow c row = readRow b row := by
  unfold readRow
  rw [hrows, convertRow]
  split
  · next x hx =>
    split at hx
    · next hnone => rw [hnone] at hx; cases hx
    · next y hy =>
      rw [tabGet_tabSet_self] at hx
      rw [hy, ← Option.some.inj hx]
      dsimp only
      rw [hkey]
      exact maskRow_twice _ row (maskRow_length _ _ _)
  · next hx =>
    split at hx
    · next hnone => rw [hnone]
    · rw [tabGet_tabSet_self] at hx; cases hx

theorem rowConverted_before {row : Nat} (b : Bench) (h : row + 1 < 4096) : rowConverted row b =
    { b with rescramble := some (row + 1), rows := (convertRow row b).rows } := by
  have : row + 1 < benchRows := h
  rw [rowConverted, convertRow_frame]
  exact if_pos this
theorem rowConverted_last {row : Nat} (b : Bench) (h : 4096 ≤ row + 1) : rowConverted row b =
    { b with rescramble := none, benchKey := b.nextKey, nextKey := 0, rowEpoch := !b.rowEpoch, rows := (convertRow row b).rows } := by
  have : ¬ row + 1 < benchRows := Nat.not_lt.mpr h
  rw [rowConverted, convertRow_frame]
  exact if_neg this
theorem rowConverted_rows (row : Nat) (b : Bench) : (rowConverted row b).rows = (convertRow row b).rows := by
  by_cases h : row + 1 < 4096
  · rw [rowConverted_before b h]
  · rw [rowConverted_last b (Nat.not_lt.mp h)]

/-- Every row reads as before, the converted one and the others. -/
theorem readRow_rowConverted_before {row : Nat} (b : Bench) (h : row + 1 < 4096) (r : Nat) : readRow (rowConverted row b) r = readRow b r := by
  rw [rowConverted_before b h]
  by_cases hr : r = row
  · subst hr
    exact readRow_converted r rfl rfl
  · simp only [readRow, tabGet_convertRow_of_ne b hr]
    rfl
theorem readRow_rowConverted_last {row : Nat} (b : Bench) (h : 4096 ≤ row + 1) : readRow (rowConverted row b) row = readRow b row := by
  rw [rowConverted_last b h]
  exact readRow_converted row rfl (by simp [rowKey])

theorem tabGet_isSome_of_inService {b : Nat} {d : Device} (h : (benchOf b d).inService = true) : (tabGet b d.benches).isSome = true := by
  cases hb : tabGet b d.benches with
  | none => simp [benchOf, tabGetD, hb] at h
  | some x => rfl

/-- No other re-scramble follows before the last row, nor after it where none is queued. -/
theorem rowDone_of_unqueued {b row : Nat} {d : Device} (hb : (tabGet b d.benches).isSome = true)
    (h : row + 1 < 4096 ∨ (benchOf b d).rescrambleQueued = false) : rowDone b row d = modBench b (rowConverted row) d := by
  have hbench := benchOf_modBench_self (rowConverted row) hb
  refine if_neg ?_
  rw [hbench]
  by_cases hlt : row + 1 < 4096
  · simp [rowConverted_before _ hlt]
  · simp [rowConverted_last _ (Nat.not_lt.mp hlt), h.resolve_left hlt]

theorem benchRowConversionEnd_converts (b row : Nat) (s : State) (hreset : outOfReset s.dev = true) (hin : (benchOf b s.dev).inService = true)
    (hhalted : (benchOf b s.dev).halted = false) (hrow : (benchOf b s.dev).rescramble = some row)
    (hq : row + 1 < 4096 ∨ (benchOf b s.dev).rescrambleQueued = false) :
    Completes (.benchRowConversionEnd b) s (fun d =>
      (row + 1 < 4096 → benchOf b d = { benchOf b s.dev with rescramble := some (row + 1), rows := (benchOf b d).rows } ∧
        (∀ r, readRow (benchOf b d) r = readRow (benchOf b s.dev) r)) ∧
      (4096 ≤ row + 1 → benchOf b d = { benchOf b s.dev with
          rescramble := none, benchKey := (benchOf b s.dev).nextKey, nextKey := 0, rowEpoch := !(benchOf b s.dev).rowEpoch
          rows := (benchOf b d).rows } ∧ readRow (benchOf b d) row = readRow (benchOf b s.dev) row) ∧
      (∀ x, tabGet row (benchOf b d).rows = some x → x.epoch = !(benchOf b s.dev).rowEpoch) ∧
      (∀ r, r ≠ row → tabGet r (benchOf b d).rows = tabGet r (benchOf b s.dev).rows) ∧
      d = { s.dev with benches := d.benches }) := by
  have hb := tabGet_isSome_of_inService hin
  have hbench := benchOf_modBench_self (rowConverted row) hb
  have hexec : exec (.benchRowConversionEnd b) s = .next { s with dev := rowDone b row s.dev } :=
    (next_doIf (by simp [hreset, hin, hhalted])).trans (by rw [hrow]; rfl)
  rw [rowDone_of_unqueued hb hq] at hexec
  refine ⟨_, hexec, ?_⟩
  beta_reduce
  rw [hbench]
  refine ⟨fun hlt => ⟨?_, readRow_rowConverted_before _ hlt⟩, fun hle => ⟨?_, readRow_rowConverted_last _ hle⟩, fun x hx => ?_, fun r hr => ?_, rfl⟩
  · rw [rowConverted_before _ hlt]
  · rw [rowConverted_last _ hle]
  · rw [rowConverted_rows] at hx; exact epoch_convertRow hx
  · rw [rowConverted_rows]; exact tabGet_convertRow_of_ne _ hr

/-! ### A step of a sweep (03 R115) -/

/-- The job of a sweep's step stands on the core that the row names, the first of its pair in Izvi. -/
theorem sweepJob_lead {w : Sweep} {c : CoreRef} {j : Job} {d : Device} (hsweep : sweepJob w d = some (c, j))
    (hj : verbJob j.recipe c d = some j) : lead c d = c := by
  have hplace := (jobOn_eq_some (verbJob_eq_some_iff.mp hj).1).2
  unfold sweepJob at hsweep
  split at hsweep
  · split at hsweep
    · split at hsweep
      · next hx =>
        split at hsweep
        · cases hsweep
          rw [hx, Place.core.injEq] at hplace
          exact congrArg₂ CoreRef.mk hplace.1.symm hplace.2.symm
        · cases hsweep
      · cases hsweep
    · cases hsweep
  · cases hsweep

theorem stagedOnly_stageResult {j : Job} (st : Staged) {d : Device} (hj : jobOf j.id d = some j) : stagedOnly j st d (stageResult j.id st d) := by
  refine ⟨jobOf_modJob_self (f := fun k => { k with staged := some st }) ?_ hj, fun i hi =>
    jobOf_modJob_of_ne (f := fun k => { k with staged := some st }) ?_ d hi, rfl⟩
  all_goals exact fun _ _ => rfl

/-- A sweep's step stages its intent and nothing else: the row notes no event of an engine. -/
theorem runStaged_sweepVerb (n : Nat) (c : CoreRef) (j : Job) (d : Device) : runStaged (sweepVerb n) c j d =
    stageResult j.id { intents := [.sweepStep n (stepBytes (sweepVerb n) j d)] } d := by
  have hderived : noteDerived (sweepVerb n) c.bench j d = d := by
    unfold noteDerived
    cases jobEngine .cipher j.id d <;> rfl
  rw [runStaged, hderived]
  rfl

theorem sweepStep_stages (n : Nat) (c : CoreRef) (j : Job) (s : State) (hruns : keyStoreRuns s.dev = true)
    (hactive : (tabGetD n ({} : Sweep) s.dev.keys.sweeps).active = true) (hstate : state s.dev = .operational)
    (hjob : sweepJob (tabGetD n ({} : Sweep) s.dev.keys.sweeps) s.dev = some (c, j)) (hready : verbReady j.recipe (sweepVerb n) c j s.dev) :
    Completes (.sweepStep n) s (stagedOnly j { intents := [.sweepStep n (stepBytes (sweepVerb n) j s.dev)] } s.dev) := by
  have hverb : verbJob j.recipe c s.dev = some j := hready.1.1.1
  have hexec : exec (.sweepStep n) s = .next { s with dev := runVerb (sweepVerb n) c j s.dev } :=
    (next_doIf (by simp only [hruns, hactive, hstate, decide_true, Bool.and_self])).trans (by rw [hjob]; rfl)
  have hrun := runVerb_of_ready hready
  rw [sweepJob_lead hjob hverb, runStaged_sweepVerb] at hrun
  rw [hrun] at hexec
  exact ⟨_, hexec, stagedOnly_stageResult _ (jobOn_eq_some (verbJob_eq_some_iff.mp hverb).1).1⟩

/-! ### The end of a sweep (03 R115, R116) -/

theorem mbxSend_keys (f : Nat) (m : Bytes) (d : Device) : (mbxSend f m d).keys = d.keys := by
  unfold mbxSend fireVector
  dsimp only
  split
  · split <;> rfl
  · split <;> rfl

theorem sweepComplete_keys (n : Nat) (d : Device) : (sweepComplete n d).keys =
    modSweep n (fun w => { w with active := false, complete := true, waiting := false, job := none }) d.keys :=
  mbxSend_keys _ _ _

theorem commitSweep_of_done {n : Nat} (nonces : Bytes) {d : Device} (hactive : (tabGetD n ({} : Sweep) d.keys.sweeps).active = true)
    (hwaiting : (tabGetD n ({} : Sweep) d.keys.sweeps).waiting = false) (hheads : sweepHeads n d.keys = []) :
    commitSweep n nonces d = sweepComplete n d := by
  simp only [commitSweep, hactive, hheads, sweepGo, hwaiting, Bool.not_true, Bool.false_or, List.isEmpty_nil, Bool.false_eq_true, if_false]

theorem tabGetD_tabMod_active {n : Nat} (f : Sweep → Sweep) {t : Tab Sweep} (h : (tabGetD n ({} : Sweep) t).active = true) :
    tabGetD n ({} : Sweep) (tabMod n f t) = f (tabGetD n {} t) := by
  cases hn : tabGet n t with
  | none => simp [tabGetD, hn] at h
  | some w => simp [tabGetD, hn]

/-- Settles O37, clause by clause from the operations of the sequencer, the benches and the sweeps. -/
theorem remaskingAndSweepsProceed : Obligations.RemaskingAndSweepsProceed := by
  refine ⟨⟨remaskNow_begins, fun s hruns hstarted h => ?_, fun s hruns hi ha hs hdue => ?_, fun s hruns ha hc hleft hdue hcursor hidle => ?_,
    conversionEnd_ends, benchRowConversionEnd_converts⟩, sweepStep_stages, fun n nonces d => ?_⟩
  · rw [exec_remaskNow hruns hstarted, requestRemask_queues ((keyStoreRuns_iff _).mp hruns).2.1 h]
  · obtain ⟨d, hexec, hepoch, hactive, hcursor, -, hroot, -, hslots, -⟩ := remaskIntervalExpiry_begins s hruns hi ha hs hdue
    exact ⟨d, hexec, hepoch, hactive, hcursor, hroot, hslots⟩
  · exact ⟨remaskStep_converts s hruns ha hc hleft hdue hcursor hidle, remaskStep_awaits s hruns ha hc hleft hdue hcursor hidle⟩
  · intro w hactive hwaiting hheads
    rw [commitSweep_of_done nonces hactive hwaiting hheads, sweepComplete_keys]
    exact ⟨rfl, tabGetD_tabMod_active _ hactive, rfl⟩

end Sys2Proof.Machine
end

section
/-! SUPPORT. The step of the machine: what every command keeps, and O59 and O1. -/

namespace Sys2Proof.Machine

/-! ### The forms of a row -/

/-- A row that acts on its occasion keeps what its effect keeps. -/
theorem completes_rises_doIf {i : Instr} {s : State} {due : Bool} {f : Device → Device}
    (hexec : exec i s = .next { s with dev := doIf due f s.dev }) (hf : ∀ d, rises s.dev d → rises s.dev (f d)) :
    Completes i s (rises s.dev) := ⟨_, hexec, doIf_rises _ _ hf (rises_refl _)⟩

/-- A row that acts on what it finds keeps what its effect keeps. -/
theorem completes_rises_doWith {α : Type} {i : Instr} {s : State} {found : Option α} {f : α → Device → Device}
    (hexec : exec i s = .next { s with dev := doWith found f s.dev }) (hf : ∀ v d, rises s.dev d → rises s.dev (f v d)) :
    Completes i s (rises s.dev) := ⟨_, hexec, doWith_rises _ _ hf (rises_refl _)⟩

/-- A verb's row keeps what the verb's note keeps. -/
theorem completes_rises_verb {i : Instr} {s : State} {op : BitVec 16} {v : Verb} {c : CoreRef}
    (hexec : exec i s = .next { s with dev := execVerb op v c s.dev })
    (hnote : ∀ b j d, rises s.dev d → rises s.dev (v.note b j d) := by exact fun _ _ _ h => h) :
    Completes i s (rises s.dev) := ⟨_, hexec, execVerb_rises _ _ _ hnote (rises_refl _)⟩

/-- A row of the custody partition keeps what its act keeps. -/
theorem completes_rises_custodyRow {i : Instr} {s : State} {op : BitVec 16} {code : Job → Code} {room : Nat}
    {act : Nat → Job → Device → Device} {c : CoreRef}
    (hexec : exec i s = .next { s with dev := custodyRow op code room act c s.dev })
    (hact : ∀ b j d, rises s.dev d → rises s.dev (act b j d)) :
    Completes i s (rises s.dev) := ⟨_, hexec, custodyRow_rises _ _ _ _ _ hact (rises_refl _)⟩

/-- A row that asks for components or a statement keeps what its act keeps. -/
theorem completes_rises_componentRow {i : Instr} {s : State} {op : BitVec 16} {code : Job → Code} {room : Device → Job → Nat}
    {late : Device → Job → Code} {act : Nat → Job → Device → Device} {c : CoreRef}
    (hexec : exec i s = .next { s with dev := componentRow op code room late act c s.dev })
    (hact : ∀ b j d, rises s.dev d → rises s.dev (act b j d)) :
    Completes i s (rises s.dev) := ⟨_, hexec, componentRow_rises _ _ _ _ _ _ hact (rises_refl _)⟩

/-- A frame's row keeps what the session's work keeps. -/
theorem completes_rises_traffic {i : Instr} {s : State} {type : Byte} {isB : Bool} {frame : Frame} {f : Nat → Bytes → Device → Device}
    (hexec : exec i s = .next { s with dev := traffic type isB frame f s.dev })
    (hf : ∀ n b d, rises s.dev d → rises s.dev (f n b d)) :
    Completes i s (rises s.dev) := ⟨_, hexec, traffic_rises _ _ _ _ hf (rises_refl _)⟩

/-- A read over the SMBus only adds its answer to what has left the part. -/
theorem completes_rises_smbusRead {i : Instr} {s : State} {content : Device → Bytes} (hexec : exec i s = smbusRead content s) :
    Completes i s (rises s.dev) :=
  completes_rises_doIf hexec fun _ h => smbusTouch_rises (mkOut_rises h)

/-! ### Rows with a choice of their own -/

theorem checkVerdict_completes_rises (c : CoreRef) (differs : Bool) (s : State) : Completes (.checkVerdict c differs) s (rises s.dev) := by
  refine ⟨_, rfl, ?_⟩
  dsimp only
  split
  · exact rises_refl _
  · split
    · exact iteRec_rises (pairFault_rises _ (rises_refl _)) (giveVerdict_rises _ _ (rises_refl _))
    · exact rises_refl _

theorem stageOut_completes_rises (c : CoreRef) (fault : UnitFault) (s : State) : Completes (.stageOut c fault) s (rises s.dev) := by
  refine ⟨_, rfl, ?_⟩
  dsimp only
  split
  · exact rises_refl _
  · split
    · exact rises_refl _
    · have hfault := fun c' id => unitFault_rises c' id fault (rises_refl s.dev)
      exact iteRec_rises (stageJob_rises _ _ _ (hfault _ _)) (hfault _ _)

theorem retire_completes_rises (n : Nat) (fault : UnitFault) (s : State) : Completes (.retire n fault) s (rises s.dev) := by
  refine ⟨_, rfl, ?_⟩
  dsimp only
  split
  · exact rises_refl _
  · split
    · have hfault := fun c' id => unitFault_rises c' id fault (rises_refl s.dev)
      exact iteRec_rises (rises_refl _)
        (iteRec_rises (iteRec_rises (gateOpened_rises _ (hfault _ _)) (retireJob_rises _ _ _ _ (hfault _ _))) (hfault _ _))
    · exact rises_refl _

theorem journalEntryDurable_completes_rises (n : Nat) (programmed : Bool) (s : State) :
    Completes (.journalEntryDurable n programmed) s (rises s.dev) := by
  refine ⟨_, rfl, ?_⟩
  dsimp only
  split
  · exact rises_refl _
  · cases programmed
    · exact doIf_rises _ _ (fun _ => entryFailed_rises _) (rises_refl _)
    · exact doIf_rises _ _ (fun _ => entryDurable_rises _) (rises_refl _)

theorem floorReached_completes_rises (n : Nat) (s : State) : Completes (.floorReached n) s (rises s.dev) := by
  refine ⟨_, rfl, ?_⟩
  dsimp only
  split
  · exact rises_refl _
  · split
    · exact doIf_rises _ _ (fun _ h => modJob_rises _ _ (fun _ _ => rfl) (freeJobCore_rises _ h)) (rises_refl _)
    · exact rises_refl _

theorem arbiterRequest_completes_rises (c : CoreRef) (kind amount : Nat) (s : State) :
    Completes (.arbiterRequest c kind amount) s (rises s.dev) := by
  refine ⟨_, rfl, ?_⟩
  dsimp only
  split
  · exact rises_refl _
  · exact iteRec_rises (dispatchAll_rises (squashJob_rises _ _ (rises_refl _)))
      (doIf_rises _ _ (fun _ => request_rises _ _ _ _) (rises_refl _))

theorem hostReadFailure_completes_rises (purpose : ReadPurpose) (f q : Nat) (cid : BitVec 16) (s : State) :
    Completes (.hostReadFailure purpose f q cid) s (rises s.dev) := by
  cases purpose with
  | descriptor => exact completes_rises_doIf rfl fun _ h => queueFault_rises _ _ _ (countAer_rises (noteTurn_rises _ _ h))
  | bufferList => exact completes_rises_doIf rfl fun _ => failList_rises _ _ _
  | input => exact completes_rises_doIf rfl fun _ => failInput_rises _ _ _

theorem registerWrite_completes_rises (a : Accessor) (offset : Nat) (v : Word) (s : State) :
    Completes (.registerWrite a offset v) s (rises s.dev) := by
  cases a with
  | function f =>
    exact ⟨_, rfl, iteRec_rises (stoppedWrite_rises _ _ _ (rises_refl _))
      (doIf_rises _ _ (fun _ => writeReg_rises _ _ _) (rises_refl _))⟩
  | region r => exact completes_rises_doIf rfl fun _ => regionWrite_rises _ _
  | object r o => exact completes_rises_doIf rfl fun _ => objectWrite_rises _ _

theorem alertUnansweredTimeout_completes_rises (s : State) : Completes .alertUnansweredTimeout s (rises s.dev) := by
  refine ⟨_, rfl, ?_⟩
  dsimp only
  split
  · split
    · split
      · exact rises_refl _
      · exact emitC_rises _ _ _ (rises_refl _)
    · exact rises_refl _
  · exact rises_refl _

theorem alertBackoffExpiry_completes_rises (s : State) : Completes .alertBackoffExpiry s (rises s.dev) := by
  refine ⟨_, rfl, ?_⟩
  dsimp only
  split
  · exact iteRec_rises (assertAlert_rises _ (rises_refl _)) (rises_refl _)
  · exact rises_refl _

theorem rekeyWindowEnd_completes_rises (n : Nat) (s : State) : Completes (.rekeyWindowEnd n) s (rises s.dev) := by
  refine ⟨_, rfl, ?_⟩
  dsimp only
  split
  · exact iteRec_rises (pathWrite_rises _ _ (rises_refl _)) (rises_refl _)
  · exact rises_refl _

theorem alarmStretchEnd_completes_rises (n : Nat) (s : State) : Completes (.alarmStretchEnd n) s (rises s.dev) := by
  refine ⟨_, rfl, ?_⟩
  dsimp only
  split
  · exact doIf_rises _ _ (fun _ => setSource_rises _ _) (rises_refl _)
  · exact rises_refl _

theorem flashWriteReadbackEnd_completes_rises (matched : Bool) (s : State) : Completes (.flashWriteReadbackEnd matched) s (rises s.dev) := by
  refine ⟨_, rfl, ?_⟩
  dsimp only
  split
  · exact rises_refl _
  · exact doIf_rises _ _ (fun _ => imageWritten_rises _ _) (rises_refl _)

/-- A burned tamper-disable fuse stands beside those burned before it. -/
theorem tamperDisable_fusesRise (x : Fuses) (m : BitVec 16) : fusesRise x { x with tamperDisable := x.tamperDisable ||| m } :=
  ⟨fun f => by cases f <;> exact Nat.le_refl _, id, id, fun n h => by simp [h]⟩

/-! ### Every row -/

/-- Every command answers a next state in which nothing is taken back and the jobs are as distinct as before. -/
theorem exec_completes_rises (i : Instr) (s : State) : Completes i s (rises s.dev) := by
  cases i with
  -- Start, reset and the watch
  | releaseOfReset _ => exact completes_rises_doIf rfl fun _ h => releaseReset_rises _ (coldDevice_rises h)
  | resetAsserted _ => exact ⟨_, rfl, lowerPin_rises _ (mk_rises (coldDevice_rises (rises_refl s.dev)))⟩
  | perstNAsserted => exact ⟨_, rfl, doIf_rises _ _ (fun _ => drainEvery_rises) (rises_refl s.dev)⟩
  | perstNDeasserted => exact ⟨_, rfl, rises_refl s.dev⟩
  | hostRegionReinitEnd => exact completes_rises_doIf rfl fun _ h => h
  | strapChanged _ =>
    exact ⟨_, rfl, doIf_rises _ _ (fun x h => emitC_rises _ _ _ (startEntry_rises _ _ _ _ (mk_rises h))) (rises_refl s.dev)⟩
  | startPhaseEnd _ => exact completes_rises_doIf rfl fun _ => endPhase_rises _
  | rollCallReport _ _ => exact completes_rises_doIf rfl fun _ => takeReport_rises _ _
  | crystalStartTimeout => exact completes_rises_doIf rfl fun _ h => stopStart_rises _ (emitC_rises _ _ _ h)
  | startPhaseBoundExceeded => exact completes_rises_doIf rfl fun _ => boundExceeded_rises
  | watchTick _ => exact completes_rises_doIf rfl fun _ h => noteIdle_rises (wakePf_rises h)
  | watchCalibrationSecond _ => exact completes_rises_doIf rfl fun _ => calibrate_rises
  | crystalEdgeLoss => exact completes_rises_doIf rfl fun _ h => timebaseFails_rises h
  | voltageSample _ => exact completes_rises_doIf rfl fun _ => takeVolts_rises _
  | temperatureSample _ _ => exact completes_rises_doIf rfl fun _ => takeTemperatures_rises _ _
  -- Regions
  | handshakeTimeout _ _ _ => exact completes_rises_doIf rfl fun _ => regionSilent_rises _ _
  | lateAcknowledge _ _ => exact ⟨_, rfl, rises_refl _⟩
  | heartbeatAcknowledge _ =>
    exact completes_rises_doIf rfl fun _ h => doIf_rises _ _ (fun _ => beginHeartbeat_rises _) (ackRollCall_rises _ h)
  | tickLossDetected _ => exact completes_rises_doIf rfl fun _ h => tripSource_rises _ _ (haltRegion_rises _ h)
  -- Network paths and HTL
  | arpRequest _ _ | neighbourSolicitation _ _ => exact ⟨_, rfl, resolve_rises _ _ _ (rises_refl _)⟩
  | hello _ frame =>
    refine ⟨_, rfl, receive_rises _ _ _ _ (fun _ h => ?_) (rises_refl _)⟩
    split
    · exact takeHello_rises _ _ h
    · exact takeHelloPart_rises _ _ h
  | finish _ _ => exact ⟨_, rfl, receive_rises _ _ _ _ (fun _ => takeFinish_rises _ _) (rises_refl _)⟩
  | htlRequest _ _ => exact completes_rises_traffic rfl fun _ _ _ => takeRequest_rises _ _ _
  | htlCancel _ _ => exact completes_rises_traffic rfl fun _ _ _ => takeCancel_rises _ _ _
  | keepalive _ _ => exact completes_rises_traffic rfl fun _ _ _ => queueReply_rises _ _ _
  | rekey _ _ => exact completes_rises_traffic rfl fun _ _ _ => takeRekey_rises _ _ _
  | close _ _ => exact completes_rises_traffic rfl fun _ _ _ => pathWrite_rises _ _
  | handshakeMessageTimeout _ => exact completes_rises_doIf rfl fun _ => abortSession_rises _ _
  | rekeyWindowEnd n => exact rekeyWindowEnd_completes_rises n s
  | rekeyDueTimer _ => exact completes_rises_doIf rfl fun _ => setSession_rises _ _
  | sessionIdleTimeout _ => exact completes_rises_doIf rfl fun _ => freeSession_rises _
  | handover _ => exact completes_rises_doIf rfl fun _ => orderHandover_rises _ _
  | handoverEnd => exact completes_rises_doWith rfl fun _ _ => finishHandover_rises _
  | pathOfflineWrite _ _ => exact completes_rises_doIf rfl fun _ => writeOffline_rises _ _
  | linkDown _ => exact completes_rises_doIf rfl fun _ h => emit_rises _ _ _ _ (modPath_rises _ _ h)
  | linkUp _ => exact completes_rises_doIf rfl fun _ => modPath_rises _ _
  -- The host interface
  | sqTailDoorbell _ _ _ | cqHeadDoorbell _ _ _ => exact completes_rises_doIf rfl fun _ => doorbell_rises _ _ _ _
  | descriptorFetch _ _ _ _ _ =>
    exact completes_rises_doIf rfl fun _ => takeDescriptor_rises _ _ _ fun _ _ => admitDescriptor_rises _ _ _ _ _ _
  | cancel _ _ _ => exact completes_rises_doIf rfl fun _ => takeDescriptor_rises _ _ _ fun _ _ => admitCancel_rises _ _ _
  | hostReadFailure purpose f q cid => exact hostReadFailure_completes_rises purpose f q cid s
  | coalesceTimerExpiry _ _ => exact completes_rises_doIf rfl fun _ => fireDue_rises _ _
  | intEnableSet _ _ => exact completes_rises_doIf rfl fun _ => setIntEnable_rises _ _
  | queueEnableWrite _ _ _ => exact completes_rises_doIf rfl fun _ => writeQueueCfg_rises _ _ _
  | mbxFunctionInfo _ _ => exact completes_rises_doIf rfl fun _ h => functionInfo_rises _ _ (takePost_rises _ _ h)
  | mbxRelayToManager _ _ => exact completes_rises_doIf rfl fun _ h => relayToManager_rises _ _ (takePost_rises _ _ h)
  | mbxRelayToVf _ => exact completes_rises_doIf rfl fun _ h => relayToVf_rises _ (takePost_rises _ _ h)
  | mbxOutValidClear _ => exact completes_rises_doIf rfl fun _ => clearOutValid_rises _
  | mbxOtherTypeIgnored _ _ => exact completes_rises_doIf rfl fun _ h => fnCount_rises _ _ (takePost_rises _ _ h)
  | functionEnable _ => exact completes_rises_doIf rfl fun _ => setEnable_rises _
  | functionDisable _ => exact completes_rises_doIf rfl fun _ => clearEnable_rises _
  | quiesceSet _ => exact completes_rises_doIf rfl fun _ => setQuiesce_rises _
  | quiesceClear _ => exact completes_rises_doIf rfl fun _ => clearQuiesce_rises _
  | functionLevelReset _ => exact completes_rises_doIf rfl fun _ => resetFunction_rises _
  | vfEnableSet _ => exact completes_rises_doIf rfl fun _ => enableVfs_rises _
  | vfEnableClear => exact completes_rises_doIf rfl fun _ h => mk_rises (drainVfs_rises h)
  | drainEnd _ => exact completes_rises_doIf rfl fun _ => endDrain_rises _
  | acuRegionWrite _ _ _ _ => exact completes_rises_doIf rfl fun _ => writeRegion_rises _ _ _ _
  | pfDefaultClear => exact completes_rises_doIf rfl fun _ h => h
  | pringConsWrite _ _ => exact completes_rises_doIf rfl fun _ h => resumeSweeps_rises (modFn_rises _ _ h)
  -- Gaffer, Lehr and the grid
  | coreWorkRequest _ => exact completes_rises_doIf rfl fun _ => askForWork_rises _
  | checkVerdict c differs => exact checkVerdict_completes_rises c differs s
  | lockstepPartnerTimeout _ => exact completes_rises_doIf rfl fun _ => pairFault_rises _
  | stageOut c fault => exact stageOut_completes_rises c fault s
  | retire n fault => exact retire_completes_rises n fault s
  | coreSelftestEnd _ _ =>
    exact completes_rises_doIf rfl fun _ h => iteRec_rises (modUnit_rises _ _ h) (dispatchAll_rises (retireCore_rises _ h))
  | journalEntryDurable n programmed => exact journalEntryDurable_completes_rises n programmed s
  | floorReached n => exact floorReached_completes_rises n s
  | gridPoint _ _ => exact completes_rises_doIf rfl fun _ => gridPoint_rises _ _
  | expiryScan => exact completes_rises_doIf rfl fun _ => scanExpired_rises
  | recoveryTraceWindowEnd => exact completes_rises_doIf rfl fun _ => closeWindow_rises _
  -- Shares and engines
  | creditWindowBoundary => exact completes_rises_doIf rfl fun _ => windowBoundary_rises
  | arbiterRequest c kind amount => exact arbiterRequest_completes_rises c kind amount s
  | grantRelease _ _ _ _ => exact completes_rises_doWith rfl fun _ _ => releaseGrant_rises _ _
  | overHoldCutoff _ _ _ _ => exact completes_rises_doWith rfl fun _ _ => doIf_rises _ _ fun _ => cutOff_rises _ _
  | marverOperationEnd _ _ _ _ => exact completes_rises_doWith rfl fun _ _ => doIf_rises _ _ fun _ => operationEnd_rises _ _ _ _ _
  | engineBlockCompare _ _ _ _ => exact completes_rises_doWith rfl fun _ _ => doIf_rises _ _ fun _ => blockEnd_rises _ _ _ _ _
  | periodicKatWithdrawal _ => exact completes_rises_doIf rfl fun _ => katWithdraw_rises _
  | engineKatEnd _ _ _ _ => exact completes_rises_doIf rfl fun _ => katEnd_rises _ _ _ _
  | mrvSelftestStart _ _ | cipSelftestStart _ _ | digSelftestStart _ _ =>
    exact completes_rises_doIf rfl fun _ => startCampaign_rises _ _ _
  | digCacheFlush _ => exact completes_rises_doIf rfl fun _ => modBench_rises _ _
  -- The key store
  | keyLookup _ _ _ => exact completes_rises_doWith rfl fun _ _ => doIf_rises _ _ fun _ => lookupRequest_rises _ _ _ _ _
  | tagVerdict _ _ => exact completes_rises_doIf rfl fun _ => verdictIn_rises _ _ _ _
  | remaskIntervalExpiry | remaskNow => exact completes_rises_doIf rfl fun _ => requestRemask_rises
  | remaskStep => exact completes_rises_doIf rfl fun _ => beginStep_rises
  | conversionEnd => exact completes_rises_doIf rfl fun _ => doWith_rises _ _ fun _ _ => conversionEnds_rises _
  | benchRowConversionEnd _ => exact completes_rises_doIf rfl fun _ => doWith_rises _ _ fun _ _ => rowDone_rises _ _
  | sweepStep _ =>
    exact completes_rises_doIf rfl fun _ => doWith_rises _ _ fun _ _ => runVerb_rises _ _ _ fun _ _ _ h => h
  -- Random generation
  | gatherWindowEnd _ _ => exact completes_rises_doIf rfl fun _ => takeWindow_rises _ _ _
  | conditionedBlock _ => exact completes_rises_doIf rfl fun _ => doWith_rises _ _ fun _ _ => blockArrives_rises _ _ _
  | reseedTimerExpiry _ => exact completes_rises_doIf rfl fun _ h => h
  | sourceWakeTestEnd _ _ =>
    exact completes_rises_doIf rfl fun _ h => iteRec_rises (mk_rises h) (failSource_rises _ _ (mk_rises h))
  -- Tamper, power and debug
  | detectorTrip _ _ => exact completes_rises_doIf rfl fun _ => tripSource_rises _ _
  | culletOverwriteEnd => exact completes_rises_doIf rfl fun _ => overwriteEnds_rises
  | tripFuseBurn _ => exact completes_rises_doIf rfl fun _ => burnLatches_rises _
  | detectorChallenge => exact completes_rises_doIf rfl fun _ => doWith_rises _ _ fun _ _ => challengeAt_rises _
  | challengeEnd _ _ => exact completes_rises_doIf rfl fun _ => doWith_rises _ _ fun _ _ => challengeEnds_rises _ _ _
  | analogPairMismatch _ _ => exact completes_rises_doIf rfl fun _ => notice_rises _ _
  | detectorQuiet _ _ => exact completes_rises_doIf rfl fun _ => detectorQuiets_rises _ _
  | sourceClear _ => exact completes_rises_doIf rfl fun _ => setSource_rises _ _
  | alarmStretchEnd n => exact alarmStretchEnd_completes_rises n s
  | nightMeshCheck _ _ => exact completes_rises_doIf rfl fun _ h => h
  | mainSuppliesFall => exact ⟨_, rfl, mk_rises (coldDevice_rises (rises_refl s.dev))⟩
  | batterySwitchover _ | operatingSecond => exact ⟨_, rfl, rises_refl s.dev⟩
  | vbatMeasurement _ => exact completes_rises_doIf rfl fun _ h => h
  | lossOfVbat => exact completes_rises_doIf rfl fun _ h => h
  | requestDusk _ | prepareNight _ | abandonNightPreparation _ | setAutomaticDusk _ | closeDebugLevel _ =>
    exact ⟨_, rfl, powerRow_rises _ _ (rises_refl _)⟩
  | automaticDuskTimer => exact completes_rises_doIf rfl fun _ h => h
  | duskEntry =>
    exact completes_rises_doIf rfl fun _ h => iteRec_rises (wake_rises _ _ (enterDusk_rises h)) (enterDusk_rises h)
  | wakeComplete => exact completes_rises_doIf rfl fun _ => wakes_rises
  | nightReady => exact completes_rises_doIf rfl fun _ h => h
  | tapOpen _ => exact completes_rises_doIf rfl fun _ h => iteRec_rises (setLevel_rises _ _ h) (refuseOpen_rises _ h)
  | tapClose | diagnosticExpiry => exact completes_rises_doIf rfl fun _ => setLevel_rises _ _
  | tapAccessBeyondLevel => exact completes_rises_doIf rfl fun _ => tripSource_rises _ _
  | tamperDisableBurn _ => exact completes_rises_doIf rfl fun _ => mkFuses_rises (tamperDisable_fusesRise _ _)
  -- The recorder, the SMBus target and registers
  | eventAccept => exact completes_rises_doIf rfl fun _ => servePort_rises
  | summaryDue _ => exact completes_rises_doIf rfl fun _ h => serveSummaries_rises h
  | flashLogPageWrite _ => exact completes_rises_doIf rfl fun _ => writeLogPage_rises _
  | smbusDeviceIdentity | smbusStatus | smbusTemperatures | smbusSupplies | smbusRecordCounts | smbusNewestRecord =>
    exact completes_rises_smbusRead rfl
  | smbusClearAlertCause _ _ =>
    exact completes_rises_doIf rfl fun _ h => iteRec_rises (clearCauses_rises _ (smbusTouch_rises h)) (mk_rises (smbusTouch_rises h))
  | alertResponseAddressRead _ => exact completes_rises_doIf rfl fun _ => mkOut_rises
  | hostNotifyAcknowledge => exact completes_rises_doIf rfl fun _ h => h
  | alertUnansweredTimeout => exact alertUnansweredTimeout_completes_rises s
  | alertBackoffExpiry => exact alertBackoffExpiry_completes_rises s
  | alertResume => exact completes_rises_doIf rfl fun _ => resumeAlert_rises
  | smbusClockLowTimeout => exact completes_rises_doIf rfl fun _ => mkOut_rises
  | counterLowWordRead _ _ _ => exact completes_rises_doIf rfl fun _ h => latchAt_rises _ _ _ (mkOut_rises h)
  | evrReadD0 _ => exact completes_rises_doIf rfl fun _ => copyRecord_rises
  | registerWrite a offset v => exact registerWrite_completes_rises a offset v s
  -- Cards and custody
  | cardInserted _ => exact completes_rises_doIf rfl fun _ => setPortOf_rises _ _
  | cardRemoved _ => exact completes_rises_doIf rfl fun _ => removeCard_rises _
  | atrTimeout _ => exact completes_rises_doIf rfl fun _ h => portFault_rises _ _ (setPortOf_rises _ _ h)
  | cardExchangeTimeout _ => exact completes_rises_doIf rfl fun _ h => portFault_rises _ _ (endExchange_rises _ h)
  | lock _ | custodyInformation _ | retireWithoutQuorum _ => exact completes_rises_custodyRow rfl fun _ _ _ => stage_rises _ _ _
  | openQuorum _ => exact completes_rises_custodyRow rfl fun _ _ _ => askQuorum_rises _ _
  | presentCard _ _ =>
    exact ⟨_, rfl, afterReading_rises _ _ _ _ (fun _ => custodyRow_rises _ _ _ _ _ fun _ _ _ => presentCard_rises _ _ _) (rises_refl _)⟩
  | abandonQuorum _ =>
    refine completes_rises_custodyRow rfl fun _ _ _ h => ?_
    split <;> exact stage_rises _ _ _ h
  | quorumExpiry => exact completes_rises_doIf rfl fun _ h => h
  | componentSessionExpiry _ => exact completes_rises_doIf rfl fun _ h => h
  | keaborFactoryProgramming _ _ _ => exact completes_rises_doIf rfl fun _ => doWith_rises _ _ fun _ _ => programFactory_rises _ _ _
  -- Verbs
  | componentSessionBegin _ => exact completes_rises_componentRow rfl fun _ _ _ => askSession_rises _ _
  | componentAdd _ _ => exact completes_rises_componentRow rfl fun _ _ _ => exchangeAdd_rises _ _ _
  | attest _ => exact completes_rises_componentRow rfl fun _ _ _ => attestStep_rises _ _
  | resetTenant _ => exact completes_rises_doWith rfl fun _ _ => runReset_rises _ _
  | flashWriteReadbackEnd matched => exact flashWriteReadbackEnd_completes_rises matched s
  | mlDsaSign _ =>
    have hverb := fun c => execVerb_rises 0x0705 dsaSignVerb c (fun _ _ _ h => h) (rises_refl s.dev)
    exact ⟨_, rfl, iteRec_rises (giveUp_rises _ (hverb _)) (hverb _)⟩
  | arqcVerify _ | arqcVerifyAndArpcGenerate _ => exact completes_rises_verb rfl fun _ _ _ => countEvent_rises _ _ _ _
  | encryptData _ | decryptData _ => exact completes_rises_verb rfl fun _ _ _ => noteData_rises _ _ _
  | macGenerate _ | macVerify _ => exact completes_rises_verb rfl fun _ _ _ => noteMac_rises _ _ _
  | digest _ => exact completes_rises_verb rfl fun _ _ _ => noteDigest_rises _ _
  | generateSymmetricKey _ | importKeyBlock _ | exportKeyBlock _ | restorePersistenceBlock _ | deleteKey _ | componentComplete _
  | deriveKey _ | exportUnderPublicKey _ | importUnderPrivateKey _ | openRootRotation _ | closeRootRotation _ | massRewrap _
  | suspendOrResumeKey _ | purgeTenant _ | keyInformation _ | pinTranslateZoneToZone _ | pinTranslateDukptToZone _
  | pinVerifyOffset _ | pinOffsetGenerate _ | pinVerifyVerificationValue _ | pinVerificationValueGenerate _
  | pinTranslateZoneToDukpt _ | cardVerificationValueGenerate _ | cardVerificationValueVerify _ | rsaKeyGeneration _ | rsaSign _
  | rsaVerify _ | rsaDecrypt _ | rsaEncrypt _ | ecKeyGeneration _ | ecdsaSign _ | ecdsaVerify _ | ecdhToNewSlot _
  | eddsaKeyGeneration _ | eddsaSign _ | eddsaVerify _ | publicKeyImport _ | mlKemKeyGeneration _ | mlKemEncapsulate _
  | mlKemDecapsulate _ | mlDsaKeyGeneration _ | mlDsaVerify _ | retentionSign _ | lmsHssKeyGeneration _ | lmsHssVerify _ | random _
  | writeConfigurationCopy _ | mirrorConfigurationCopy _ | writeFirmwareImage _ | readCertificateChain _ | readEventLog _ =>
    exact completes_rises_verb rfl

theorem step_rises {s t : State} (h : step s = .next t) : rises s.dev t.dev := by
  unfold step at h
  split at h
  · cases h
    exact rises_refl _
  · obtain ⟨d, hexec, hd⟩ := exec_completes_rises _ { s with pending := _ }
    cases hexec.symm.trans h
    exact hd

/-- Settles O59: it is what `rises` says of jobs. -/
theorem jobsStayDistinct : Obligations.JobsStayDistinct := by
  unfold Obligations.JobsStayDistinct
  intro s t hdistinct hstep
  obtain ⟨-, -, -, hjobs⟩ := step_rises hstep
  exact hjobs hdistinct

/-- Settles O1: the equation of `step` for a queue with a front (log entry 1). -/
theorem stepRunsTheFrontCommand : Obligations.StepRunsTheFrontCommand := by
  unfold Obligations.StepRunsTheFrontCommand
  exact fun _ _ _ => rfl

end Sys2Proof.Machine
end

section
/-! SUPPORT. Cores, requests and grants (04 R135 to R139): what a dispatch writes, and O23. -/

namespace Sys2Proof.Machine

/-! ### Cores and pairs (21 R670, R675) -/

theorem lead_bench (c : CoreRef) (d : Device) : (lead c d).bench = c.bench := by
  unfold lead
  split <;> rfl

/-- The core that a bench lists, if any. -/
def coreAt (c : CoreRef) (d : Device) : Option Core := (tabGet c.bench d.benches).bind (fun b => tabGet c.core b.cores)

theorem coreOf_eq (c : CoreRef) (d : Device) : coreOf c d = (coreAt c d).getD {} := by
  unfold coreOf benchOf coreAt tabGetD
  cases tabGet c.bench d.benches <;> rfl

theorem coreAt_of_not_absent {c : CoreRef} {d : Device} (h : (coreOf c d).state ≠ .absent) : coreAt c d = some (coreOf c d) := by
  rw [coreOf_eq] at h ⊢
  cases hc : coreAt c d with
  | none => rw [hc] at h; exact absurd rfl h
  | some x => rfl

theorem coreAt_modCore (a c : CoreRef) (f : Core → Core) (d : Device) :
    coreAt a (modCore c f d) = if a = c then (coreAt a d).map f else coreAt a d := by
  obtain ⟨b, n⟩ := a
  obtain ⟨b', n'⟩ := c
  simp only [coreAt, modCore, modBench, tabGet_tabMod, CoreRef.mk.injEq]
  cases tabGet b d.benches with
  | none => simp
  | some x => by_cases hb : b' = b <;> by_cases hn : n' = n <;> simp [hb, hn, Ne.symm]

theorem coreAt_modUnit (a c : CoreRef) (f : Core → Core) (d : Device) :
    coreAt a (modUnit c f d) = if a ∈ unitCores c d then (coreAt a d).map f else coreAt a d := by
  unfold modUnit unitCores
  split
  · simp only [coreAt_modCore, List.mem_cons, List.not_mem_nil, or_false]
    by_cases h : a = { c with core := 2 * (c.core / 2) }
    · simp [h]
    · simp [h]
  · simp only [coreAt_modCore, List.mem_singleton]

/-- The core that stands for a unit is one of its cores. -/
theorem lead_mem_unitCores (c : CoreRef) (d : Device) : lead c d ∈ unitCores (lead c d) d := by
  unfold lead unitCores
  split <;> simp

theorem coreOf_modUnit_self {c : CoreRef} (f : Core → Core) {d : Device} (hc : c ∈ unitCores c d) (h : (coreOf c d).state ≠ .absent) :
    coreOf c (modUnit c f d) = f (coreOf c d) := by
  rw [coreOf_eq (d := modUnit _ _ _), coreAt_modUnit, if_pos hc, coreAt_of_not_absent h]
  rfl

theorem modUnit_frame (c : CoreRef) (f : Core → Core) (d : Device) : modUnit c f d = { d with benches := (modUnit c f d).benches } := by
  unfold modUnit
  split <;> rfl

/-- A bench keeps everything but its cores. -/
theorem benchOf_modUnit (b : Nat) (c : CoreRef) (f : Core → Core) (d : Device) :
    { benchOf b (modUnit c f d) with cores := [] } = { benchOf b d with cores := [] } := by
  have one : ∀ (c : CoreRef) (e : Device), { benchOf b (modCore c f e) with cores := [] } = { benchOf b e with cores := [] } := by
    intro c e
    unfold benchOf modCore modBench tabGetD
    rw [tabGet_tabMod]
    split
    · cases tabGet b e.benches <;> rfl
    · rfl
  unfold modUnit
  split
  · rw [one, one]
  · rw [one]

theorem benchServes_modUnit (b : Nat) (c : CoreRef) (f : Core → Core) (d : Device) (n : Bool × Bool × Bool) :
    benchServes (benchOf b (modUnit c f d)) n = benchServes (benchOf b d) n :=
  congrArg (fun x => benchServes { x with cores := [] } n) (benchOf_modUnit b c f d)

/-! ### The decision trace and the counters (04 R171, R172) -/

theorem traceEntry_gaffer (kind tenant core deadline recipe code) (d : Device) : (traceEntry kind tenant core deadline recipe code d).gaffer =
    { d.gaffer with trace := (traceEntry kind tenant core deadline recipe code d).gaffer.trace
                    traceDropped := (traceEntry kind tenant core deadline recipe code d).gaffer.traceDropped } := by
  unfold traceEntry
  dsimp only
  split
  · rfl
  · split <;> rfl
theorem traceJob_gaffer (kind : Byte) (j : Job) (code : Code) (d : Device) : (traceJob kind j code d).gaffer =
    { d.gaffer with trace := (traceJob kind j code d).gaffer.trace, traceDropped := (traceJob kind j code d).gaffer.traceDropped } :=
  traceEntry_gaffer _ _ _ _ _ _ d
theorem traceJob_frame (kind : Byte) (j : Job) (code : Code) (d : Device) :
    traceJob kind j code d = { d with gaffer := (traceJob kind j code d).gaffer } := rfl

/-! ### The choice of a job (04 R137, R138) -/

/-- A choice looks at the jobs, the engines of the core's bench, the time and the component sessions. -/
theorem chooseJob_congr {c : CoreRef} {d e : Device} (hjobs : d.gaffer.jobs = e.gaffer.jobs) (htime : d.time = e.time)
    (hcustody : d.custody = e.custody) (hserves : ∀ n, benchServes (benchOf c.bench d) n = benchServes (benchOf c.bench e) n) :
    chooseJob c d = chooseJob c e := by
  have hexpired : expired d = expired e := by
    funext j
    unfold expired reached ticksUntil extended
    rw [htime]
  have hranks : ranks d = ranks e := by
    funext a b
    unfold ranks ticksUntil extended
    rw [htime]
  have heligible : eligible c d = eligible c e := by
    funext j
    simp only [eligible, hserves, serialOk, jobNeeds, sessionClass, hjobs, hcustody]
  rw [chooseJob, chooseJob, readyJobs, readyJobs, hjobs, hexpired, hranks, heligible]

theorem nextGrant_of_no_requests {d : Device} (h : d.gaffer.requests = []) : nextGrant d = none := by
  simp [nextGrant, h, leastBy]
theorem nextGrant_of_no_ready {d : Device} (h : readyJobs d = []) : nextGrant d = none := by
  have hnone : ∀ c, chooseJob c d = none := fun c => by simp [chooseJob, h, leastBy]
  simp [nextGrant, hnone, leastBy]
/-- The one request for which a job is eligible is served with that job. -/
theorem nextGrant_of_alone {d : Device} {c : CoreRef} {t : Nat} {j : Job} (h : d.gaffer.requests = [(c, t)]) (hj : chooseJob c d = some j) :
    nextGrant d = some (c, j) := by
  simp [nextGrant, h, hj, leastBy]

theorem dispatchGo_of_no_grant {d : Device} (h : nextGrant d = none) (n : Nat) : dispatchGo n d = d := by
  cases n with
  | zero => rfl
  | succ n => simp only [dispatchGo, h]
theorem expireHeads_of_unexpired {d : Device} (h : ∀ k ∈ readyJobs d, expired d k = false) (n : Nat) : expireHeads n d = d := by
  cases n with
  | zero => rfl
  | succ n =>
    unfold expireHeads
    split
    · rfl
    · next j hj => rw [h j (mem_of_leastBy hj)]; rfl

theorem dispatchAll_of_no_ready {d : Device} (h : readyJobs d = []) : dispatchAll d = d := by
  unfold dispatchAll
  split
  · rw [expireHeads_of_unexpired (by simp [h]), dispatchGo_of_no_grant (nextGrant_of_no_ready h)]
  · rfl

/-! ### A grant (04 R137, R155; 12 R453) -/

/-- An input that is not denied is read without effect. -/
theorem decodeRead_of_read {j : Job} {d : Device} (h : unread (decodeRead j d).1 = false) : decodeRead j d = (j, d) := by
  unfold decodeRead at h ⊢
  split
  · next horigin =>
    simp only [horigin] at h
    split
    · next hdenied => simp [hdenied, unread] at h
    · rfl
  · rfl

/-- What a grant writes of its job, and what it keeps. -/
structure GrantedAs (c : CoreRef) (d : Device) (j k : Job) : Prop where
  place : k.place = .core c.bench c.core
  dispatch : k.dispatch = extended d
  ranOn : k.ranOn = some c
  id : k.id = j.id
  ticket : k.ticket = j.ticket
  recipe : k.recipe = j.recipe
  params : k.params = j.params
  input : k.input = j.input
  inputFault : k.inputFault = j.inputFault
  stream : k.stream = j.stream
  origin : k.origin = j.origin
  tenant : k.tenant = j.tenant
  step : k.step = j.step

/-- A core as a grant leaves it. -/
def grantedCore (j : Job) (tick : Nat) (x : Core) : Core :=
  { x with state := .running, job := some j.id, since := tick, localMem := (j.params ++ j.input).take coreMemory }

/-- The job that a grant writes, before the ruling of its Decode. -/
def grantedJob (c : CoreRef) (j : Job) (d : Device) : Job :=
  let eff := floorEff (nominalFloor d j.tenant j.recipe.toNat j.params j.input j.outCap) (benchOf c.bench d).lehr.speed.toNat
  { j with place := .core c.bench c.core, dispatch := extended d
           firstDispatch := if j.step = 0 && !j.half then extended d else j.firstDispatch
           floorEff := if j.step = 0 && !j.half then eff else j.floorEff
           ranOn := some c, fetched := [], fetchedInner := [] }
/-- The ruling of its Decode: the code that stages it at once, or the begin of a reset. -/
def ruling (k : Job) (d : Device) : Code × Device :=
  let code : Code := if k.inputFault ≠ 0 then k.inputFault else if !isBackground k && !verbPresent d k.recipe.toNat then 0x0110 else 0
  if code = 0 then beginReset k d else (code, d)
/-- The job with its ruling. -/
def ruled (k : Job) (code : Code) : Job := if code = 0 then k else { k with staged := some { code } }

/-- Gaffer's side of a grant: the request is served, the turn goes on. -/
def grantedGaffer (c : CoreRef) (g : Gaffer) : Gaffer := { g with requests := g.requests.filter (fun r => r.1 ≠ c), turn := (g.turn + 1) % 8 }

theorem beginReset_frame (j : Job) (d : Device) : ∃ ts, (beginReset j d).2 = { d with gaffer := { d.gaffer with tenants := ts } } := by
  unfold beginReset
  split
  · exact ⟨_, rfl⟩
  · split <;> exact ⟨_, rfl⟩
theorem ruling_frame (k : Job) (d : Device) : ∃ ts, (ruling k d).2 = { d with gaffer := { d.gaffer with tenants := ts } } := by
  unfold ruling
  dsimp only
  generalize (if k.inputFault ≠ 0 then k.inputFault else _ : Code) = code
  split
  · exact beginReset_frame k d
  · exact ⟨_, rfl⟩

theorem modUnit_of_gaffer (c : CoreRef) (f : Core → Core) (d : Device) (g : Gaffer) :
    modUnit c f { d with gaffer := g } = { d with gaffer := g, benches := (modUnit c f d).benches } := by
  unfold modUnit
  cases h : izvi d <;> simp only [show izvi { d with gaffer := g } = _ from h] <;> rfl

theorem unread_ruled (k : Job) (code : Code) : unread (ruled k code) = unread k := by
  unfold ruled
  split <;> rfl
theorem grantedAs_ruled (c : CoreRef) (j : Job) (d : Device) (code : Code) : GrantedAs c d j (ruled (grantedJob c j d) code) := by
  unfold ruled
  split <;> exact ⟨rfl, rfl, rfl, rfl, rfl, rfl, rfl, rfl, rfl, rfl, rfl, rfl, rfl⟩

/-- A grant whose input is read. -/
theorem dispatchJob_eq_of_read {c : CoreRef} {j : Job} {d : Device} (h : decodeRead j d = (j, d)) :
    dispatchJob c j d =
      let r := ruling (grantedJob c j d) d
      let k := ruled (grantedJob c j d) r.1
      let e := modUnit c (grantedCore k r.2.time.ticks) (coreCount c 3 (r.2.time.ticks - (coreOf c r.2).since) r.2)
      doIf (unread k) (dropJob k.id k.inputFault) (traceJob 0x01 k 0 (gafCount 1 (modJob k.id (fun _ => k)
        { e with gaffer := grantedGaffer c e.gaffer }))) := by
  unfold dispatchJob
  rw [h]
  rfl

theorem dispatchJob_of_read {c : CoreRef} {j : Job} {d : Device} (h : unread (decodeRead j d).1 = false) :
    ∃ k g, GrantedAs c d j k ∧ g.jobs = d.gaffer.jobs ∧ g.requests = d.gaffer.requests.filter (fun r => r.1 ≠ c) ∧
      dispatchJob c j d = traceJob 0x01 k 0 (gafCount 1 (modJob j.id (fun _ => k)
        { d with gaffer := g, benches := (modUnit c (grantedCore j d.time.ticks) d).benches })) := by
  have hread := decodeRead_of_read h
  rw [hread] at h
  rw [dispatchJob_eq_of_read hread]
  obtain ⟨ts, hruling⟩ := ruling_frame (grantedJob c j d) d
  have hk := grantedAs_ruled c j d (ruling (grantedJob c j d) d).1
  have hunread := unread_ruled (grantedJob c j d) (ruling (grantedJob c j d) d).1
  dsimp only
  rw [hruling]
  generalize ruled (grantedJob c j d) (ruling (grantedJob c j d) d).1 = k at hk hunread ⊢
  have hcore : grantedCore k d.time.ticks = grantedCore j d.time.ticks := by
    unfold grantedCore
    rw [hk.id, hk.params, hk.input]
  let e : Device := { d with gaffer := { d.gaffer with tenants := ts } }
  refine ⟨k, grantedGaffer c (coreCount c 3 (d.time.ticks - (coreOf c e).since) e).gaffer, hk, rfl, rfl, ?_⟩
  rw [hunread, show unread (grantedJob c j d) = false from h, hk.id]
  show doIf false _ _ = _
  rw [hcore]
  exact congrArg (fun e => traceJob 0x01 k 0 (gafCount 1 (modJob j.id (fun _ => k) { e with gaffer := grantedGaffer c e.gaffer })))
    (modUnit_of_gaffer c _ d _)

/-! ### A request for work (04 R137) -/

/-- The part with the request of a core. -/
def asking (c : CoreRef) (d : Device) : Device :=
  { d with gaffer := { d.gaffer with requests := d.gaffer.requests ++ [(c, d.time.ticks)] }
           benches := (modUnit c (fun x => { x with state := .asking, since := d.time.ticks }) d).benches }

theorem askForWork_eq (c : CoreRef) (d : Device) : askForWork c d = dispatchAll (asking c d) := by
  rw [askForWork, modUnit_frame]
  rfl
theorem coreOf_asking {c : CoreRef} {d : Device} (hc : c ∈ unitCores c d) (h : (coreOf c d).state ≠ .absent) :
    coreOf c (asking c d) = { coreOf c d with state := .asking, since := d.time.ticks } := coreOf_modUnit_self _ hc h
theorem dispatching_asking (c : CoreRef) (d : Device) : dispatching (asking c d) = dispatching d := rfl
theorem expired_asking (c : CoreRef) (d : Device) (j : Job) : expired (asking c d) j = expired d j := rfl
theorem readyJobs_asking (c : CoreRef) (d : Device) : readyJobs (asking c d) = readyJobs d := rfl
theorem chooseJob_asking (a c : CoreRef) (d : Device) : chooseJob a (asking c d) = chooseJob a d :=
  chooseJob_congr rfl rfl rfl (fun n => benchServes_modUnit a.bench c _ d n)
/-- The job that a read gives rests on the host region alone. -/
theorem decodeRead_congr (j : Job) {d e : Device} (h : e.host = d.host) : (decodeRead j e).1 = (decodeRead j d).1 := by
  unfold decodeRead
  split
  · rw [h]
    split <;> rfl
  · rfl

theorem decodeRead_asking (c : CoreRef) (j : Job) (d : Device) : (decodeRead j (asking c d)).1 = (decodeRead j d).1 := decodeRead_congr j rfl

/-- A request that meets a list without jobs stays. -/
theorem askForWork_of_no_ready {c : CoreRef} {d : Device} (h : readyJobs d = []) : askForWork c d = asking c d := by
  rw [askForWork_eq, dispatchAll_of_no_ready (d := asking c d) h]

/-- The one request meets the job that is eligible for it. -/
theorem askForWork_of_alone {c : CoreRef} {d : Device} {j : Job} (hdispatching : dispatching d = true) (hrequests : d.gaffer.requests = [])
    (hunexpired : ∀ k ∈ readyJobs d, expired d k = false) (hj : chooseJob c d = some j) (hread : unread (decodeRead j d).1 = false) :
    askForWork c d = dispatchJob c j (asking c d) := by
  have hpos : 0 < d.gaffer.jobs.length := List.length_pos_of_mem (List.mem_of_mem_filter (chooseJob_ready hj))
  obtain ⟨n, hn⟩ : ∃ n, (asking c d).gaffer.jobs.length = n + 1 := ⟨_, (Nat.succ_pred_eq_of_pos hpos).symm⟩
  have hrequest : (asking c d).gaffer.requests = [(c, d.time.ticks)] := by simp [asking, hrequests]
  obtain ⟨k, g, -, -, hafter, heq⟩ := dispatchJob_of_read (c := c) (j := j) (d := asking c d) (by rw [decodeRead_asking, hread])
  have hnone : (dispatchJob c j (asking c d)).gaffer.requests = [] := by
    rw [heq, traceJob_gaffer]
    exact hafter.trans (by simp [hrequest])
  rw [askForWork_eq, dispatchAll, dispatching_asking, if_pos hdispatching, expireHeads_of_unexpired (d := asking c d) hunexpired]
  dsimp only
  rw [hn, dispatchGo,
    nextGrant_of_alone hrequest (by rw [chooseJob_asking, hj])]
  exact dispatchGo_of_no_grant (nextGrant_of_no_requests hnone) n

theorem exec_coreWorkRequest {c : CoreRef} {s : State} (hruns : benchRuns c.bench s.dev = true) (hidle : (coreOf (lead c s.dev) s.dev).state = .idle) :
    exec (.coreWorkRequest c) s = .next { s with dev := askForWork (lead c s.dev) s.dev } :=
  next_doIf (f := fun d => askForWork (lead c s.dev) d) (by rw [hruns, hidle]; rfl)

/-- Settles O23: a request meets an empty list, or the one job that is eligible for it. -/
theorem coresAskAndJobsAreDispatched : Obligations.CoresAskAndJobsAreDispatched := by
  intro c s hruns u hidle
  have hpresent : (coreOf u s.dev).state ≠ .absent := by simp [hidle]
  have hmem : u ∈ unitCores u s.dev := lead_mem_unitCores c s.dev
  have hasking := coreOf_asking hmem hpresent
  refine ⟨fun hready => ⟨_, exec_coreWorkRequest hruns hidle, ?_⟩, ?_⟩
  · rw [askForWork_of_no_ready hready]
    exact ⟨congrArg Core.state hasking, congrArg Core.since hasking, rfl, rfl, rfl⟩
  · intro j hdispatching hrequests hunexpired hj hjob hread
    refine ⟨_, exec_coreWorkRequest hruns hidle, ?_⟩
    obtain ⟨k, g, hk, hjobs, hafter, heq⟩ := dispatchJob_of_read (c := u) (j := j) (d := asking u s.dev) (by rw [decodeRead_asking, hread])
    have hcore : coreOf u (dispatchJob u j (asking u s.dev)) = grantedCore j s.dev.time.ticks (coreOf u (asking u s.dev)) := by
      rw [heq]
      exact coreOf_modUnit_self _ hmem (by simp [hasking])
    rw [askForWork_of_alone hdispatching hrequests hunexpired hj hread, hcore]
    refine ⟨rfl, rfl, ?_⟩
    rw [heq, traceJob_frame]
    refine ⟨?_, rfl, rfl, rfl, k, ?_, hk.place, hk.dispatch, hk.ranOn, hk.ticket, hk.recipe, hk.params, hk.input⟩
    · rw [traceJob_gaffer]
      exact hafter.trans (by simp [asking, hrequests])
    · have htrace := fun e => congrArg Gaffer.jobs (traceJob_gaffer 0x01 k 0 e)
      unfold jobOf
      rw [htrace]
      exact jobOf_modJob_self (fun _ h => hk.id.trans h.symm) ((congrArg (List.find? _) hjobs).trans hjob)

end Sys2Proof.Machine
end

section
/-! SUPPORT. A verdict reaches Lehr (04 R140; 21 R673), and O24. -/

namespace Sys2Proof.Machine

/-- The verdict of a staged job, late or on its core, without a difference of the pair. -/
theorem exec_checkVerdict {c : CoreRef} {j : Job} {st : Staged} {differs : Bool} {s : State} (hst : j.staged = some st) (hv : j.verdict = none)
    (hj : lateVerdict c s.dev = some j ∨ lateVerdict c s.dev = none ∧ jobOn c s.dev = some j) (hsame : differs = false ∨ izvi s.dev = false) :
    exec (.checkVerdict c differs) s = .next { s with dev := giveVerdict j st.code s.dev } := by
  have hpair : (differs && izvi s.dev) = false := by rcases hsame with h | h <;> simp [h]
  have hfound : (match lateVerdict c s.dev with | some j => some j | none => jobOn c s.dev) = some j := by
    rcases hj with hlate | ⟨hlate, hon⟩
    · rw [hlate]
    · rw [hlate, hon]
  show execCheckVerdict c differs s = _
  unfold execCheckVerdict runDev
  dsimp only
  split
  · next hnone => exact absurd (hfound.symm.trans hnone) (by simp)
  · next k hk =>
    cases hfound.symm.trans hk
    simp only [hst, hv, hpair, Bool.false_eq_true, if_false]

/-- A verdict without a code is the only change (04 R140; 08 R280). -/
theorem exec_checkVerdict_of_passed {c : CoreRef} {j : Job} {st : Staged} {differs : Bool} {s : State} (hst : j.staged = some st)
    (hv : j.verdict = none) (hj : lateVerdict c s.dev = some j ∨ lateVerdict c s.dev = none ∧ jobOn c s.dev = some j)
    (hsame : differs = false ∨ izvi s.dev = false) (hcode : st.code = 0) :
    exec (.checkVerdict c differs) s = .next { s with dev := modJob j.id (fun j => { j with verdict := some 0, flags := st.pair }) s.dev } := by
  rw [exec_checkVerdict hst hv hj hsame, giveVerdict, hcode, if_pos rfl, hst]
  rfl

/-- A late partner is a fault of the pair (21 R673). -/
theorem exec_lockstepPartnerTimeout {c : CoreRef} {j : Job} {s : State} (hizvi : izvi s.dev = true) (hj : jobOn c s.dev = some j) :
    exec (.lockstepPartnerTimeout c) s = .next { s with dev := pairFault c s.dev } := next_doIf (by rw [hizvi, hj]; rfl)

/-- A job whose refusal comes late: it waits in the pending buffer for its verdict. -/
def refusedJob : Job :=
  { id := 0, tenant := 1, stream := .background 0, ticket := 0, arrival := 0, deadline := 0, recipe := 0x0602, origin := .background
    place := .pending 0, ranOn := some { bench := 0, core := 0 }, staged := some { code := 0x0110 } }
/-- It holds a grant of a Marver engine that carries the state of its chain and is due for a test, so that it does not stay parked (05 R187; 06 R231). -/
def refusedDevice : Device :=
  { gaffer := { jobs := [refusedJob] }
    shares := { grants := [{ bench := 0, kind := 0, unit := 0, core := { bench := 0, core := 0 }, tenant := 1, job := 0, since := 0 }] }
    benches := [(0, { marver := { engines := [(0, { state := .inService, causes := [2], chain := [0], chainJob := some 0 })] } })] }

/-- Refutes O24 by its clause about a refusal, which says that the job keeps all but its verdict and its flags: the refusal of `refusedJob` ends the
grant of a Marver engine that holds the chain of the job, and the end of a grant that does not stay parked saves that chain as the job's
`context` (`saveContext`; `forgetChain` clears cipher and Punty engines only). A verdict without a code does say what the statement says
(`exec_checkVerdict_of_passed`), and a late partner is a fault of its pair (`exec_lockstepPartnerTimeout`). -/
theorem not_verdictsAndStageOut : ¬ Obligations.VerdictsAndStageOut := by
  rintro ⟨hverdict, -, -⟩
  have hlate : lateVerdict ⟨0, 0⟩ refusedDevice = some refusedJob := by decide
  have hjob : jobOf refusedJob.id refusedDevice = some refusedJob := by decide
  obtain ⟨-, hrefused⟩ := hverdict ⟨0, 0⟩ refusedJob { code := 0x0110 } { dev := refusedDevice } rfl (.inl ⟨hlate, hjob⟩)
  obtain ⟨d, hexec, ⟨k, hk, rfl⟩, -⟩ := hrefused false rfl (.inl rfl) (by decide)
  have hgiven := (exec_checkVerdict (st := { code := 0x0110 }) (s := { dev := refusedDevice }) rfl rfl (.inl hlate) (.inl rfl)).symm.trans hexec
  have hdev : giveVerdict refusedJob 0x0110 refusedDevice = d := by
    injection hgiven with hstate
    exact congrArg State.dev hstate
  have hcontext : (jobOf 0 (giveVerdict refusedJob 0x0110 refusedDevice)).map (·.context) = some [0] := by decide
  rw [hdev] at hcontext
  exact absurd (hcontext.symm.trans (congrArg (Option.map (·.context)) hk)) (by decide)

end Sys2Proof.Machine
end

section
/-! SUPPORT. Answers without a Retire leave the rest of the part alone (04 R135, R142). -/

namespace Sys2Proof.Machine

/-! ### Updates that keep a view of the device -/

section
variable {β : Type} {view : Device → β} {d : Device}

theorem foldl_kept {α : Type} {f : Device → α → Device} {xs : List α} (hf : ∀ x v, view (f x v) = view x) : view (xs.foldl f d) = view d := by
  induction xs generalizing d with
  | nil => rfl
  | cons v xs ih => exact ih.trans (hf d v)
theorem doEach_kept {α : Type} {xs : List α} {f : α → Device → Device} (hf : ∀ v x, view (f v x) = view x) : view (doEach xs f d) = view d :=
  foldl_kept fun x v => hf v x
theorem doWith_kept {α : Type} {o : Option α} {f : α → Device → Device} (hf : ∀ v x, view (f v x) = view x) : view (doWith o f d) = view d := by
  cases o with
  | none => rfl
  | some v => exact hf v d
theorem ite_kept {c : Prop} [Decidable c] {x : Device} (hx : view x = view d) : view (if c then x else d) = view d := by
  split
  · exact hx
  · rfl
end

/-! ### What no answer touches -/

/-- A bench without its data area. -/
def rowless (b : Bench) : Bench := { b with rows := [] }
/-- The device without its jobs and their pointers, the trace, Gaffer's counters, the flash and the benches' data areas. -/
def jobless (d : Device) : Device :=
  { d with gaffer := { d.gaffer with jobs := [], retirePtr := [], trace := [], traceDropped := 0, ctr := ({} : Gaffer).ctr }
           flash := {}, benches := tabMap (fun _ => rowless) d.benches }

theorem frame_of_jobless {d e : Device} (h : jobless e = jobless d) : e = { d with gaffer := e.gaffer, flash := e.flash, benches := e.benches } :=
  congrArg (fun x => { x with gaffer := e.gaffer, flash := e.flash, benches := e.benches }) h
theorem requests_of_jobless {d e : Device} (h : jobless e = jobless d) : e.gaffer.requests = d.gaffer.requests :=
  congrArg (·.gaffer.requests) h
theorem coreOf_jobless (c : CoreRef) (d : Device) : coreOf c (jobless d) = coreOf c d := by
  rw [coreOf_eq, coreOf_eq, coreAt, coreAt, jobless, tabGet_tabMap]
  cases tabGet c.bench d.benches <;> rfl
theorem coreOf_of_jobless {d e : Device} (h : jobless e = jobless d) (c : CoreRef) : coreOf c e = coreOf c d := by
  rw [← coreOf_jobless c e, h, coreOf_jobless]

theorem traceJob_jobless (kind j code) (d : Device) : jobless (traceJob kind j code d) = jobless d := by
  rw [traceJob_frame, traceJob_gaffer]
  rfl
theorem gafCount_jobless (k) (d : Device) : jobless (gafCount k d) = jobless d := rfl
theorem modJob_jobless (id f) (d : Device) : jobless (modJob id f d) = jobless d := rfl
theorem eraseRows_jobless (b p) (d : Device) : jobless (modBench b (eraseRows p) d) = jobless d :=
  congrArg (fun t => { jobless d with benches := t }) (tabMap_tabMod_of_eq (g := rowless) (f := eraseRows p) (fun _ => rfl) b d.benches)
theorem dropState_jobless (id) (d : Device) : jobless (dropState id d) = jobless d := by
  unfold dropState
  split
  · rfl
  · rw [modJob_jobless, doWith_kept fun _ _ => eraseRows_jobless _ _ _]
theorem jobless_of_flash (fl : Flash) (d : Device) : jobless { d with flash := fl } = jobless d := rfl
theorem noteImage_jobless (j code) (d : Device) : jobless (noteImage j code d) = jobless d := by
  unfold noteImage
  split
  · exact jobless_of_flash _ d
  · rfl
theorem dropWrites_jobless (id) (d : Device) : jobless (dropWrites id d) = jobless d := rfl
theorem advanceGo_jobless (st fuel) (d : Device) : jobless (advanceGo st fuel d) = jobless d := by
  induction fuel generalizing d with
  | zero => rfl
  | succ fuel ih =>
    unfold advanceGo
    split
    · exact (ih _).trans rfl
    · rfl
theorem advancePtr_jobless (st) (d : Device) : jobless (advancePtr st d) = jobless d := advanceGo_jobless st _ d
theorem answerJob_jobless (id code) (d : Device) : jobless (answerJob id code d) = jobless d := by
  unfold answerJob
  split
  · rfl
  · rw [advancePtr_jobless, modJob_jobless, noteImage_jobless, dropWrites_jobless, dropState_jobless]
theorem expireJob_jobless (id) (d : Device) : jobless (expireJob id d) = jobless d := by
  unfold expireJob
  split
  · rfl
  · rw [answerJob_jobless, gafCount_jobless, traceJob_jobless]
theorem expireHeads_jobless (fuel) (d : Device) : jobless (expireHeads fuel d) = jobless d := by
  induction fuel generalizing d with
  | zero => rfl
  | succ fuel ih =>
    unfold expireHeads
    split
    · rfl
    · split
      · exact (ih _).trans (expireJob_jobless _ d)
      · rfl

/-- Where no core asks, a dispatch only removes expired jobs. -/
theorem dispatchAll_jobless_of_no_requests {d : Device} (h : d.gaffer.requests = []) : jobless (dispatchAll d) = jobless d := by
  unfold dispatchAll
  split
  · have hheads := expireHeads_jobless d.gaffer.jobs.length d
    dsimp only
    rw [dispatchGo_of_no_grant (nextGrant_of_no_requests ((requests_of_jobless hheads).trans h)), hheads]
  · rfl

/-! ### The jobs of an expiry (04 R135) -/

/-- A job as an expiry leaves it. -/
def expiredTo (x : Job) : Prop := x.place = .answered ∧ x.code = 0x0604

theorem advanceGo_jobs (st fuel) (d : Device) : (advanceGo st fuel d).gaffer.jobs = d.gaffer.jobs := by
  induction fuel generalizing d with
  | zero => rfl
  | succ fuel ih =>
    unfold advanceGo
    split
    · exact (ih _).trans rfl
    · rfl

theorem dropState_jobs (id) (d : Device) : ∃ f : Job → Job, (∀ x, (f x).id = x.id) ∧
    (dropState id d).gaffer.jobs = d.gaffer.jobs.map (fun x => if x.id = id then f x else x) := by
  unfold dropState
  split
  · exact ⟨fun x => x, fun _ => rfl, by simp⟩
  · refine ⟨_, ?_, congrArg (List.map _) (doWith_kept (view := (·.gaffer.jobs)) fun _ _ => rfl)⟩
    exact fun _ => rfl
theorem noteImage_jobs (j code) (d : Device) : (noteImage j code d).gaffer.jobs = d.gaffer.jobs :=
  ite_kept (view := (·.gaffer.jobs)) rfl

theorem map_of_id_map_of_id {id : Nat} {f : Job → Job} (hf : ∀ x, (f x).id = x.id) (g : Job → Job) (xs : List Job) :
    (xs.map (fun x => if x.id = id then f x else x)).map (fun x => if x.id = id then g x else x) =
      xs.map (fun x => if x.id = id then g (f x) else x) := by
  rw [List.map_map]
  refine List.map_congr_left fun x _ => ?_
  by_cases hx : x.id = id <;> simp [hx, hf]

/-- An answer writes the jobs of its identifier, and no other. -/
theorem answerJob_jobs {id code} {d : Device} (h : (jobOf id d).isSome = true) : ∃ f : Job → Job,
    (∀ x, (f x).id = x.id ∧ (f x).place = .answered ∧ (f x).code = code) ∧
    (answerJob id code d).gaffer.jobs = d.gaffer.jobs.map (fun x => if x.id = id then f x else x) := by
  obtain ⟨j, hj⟩ := Option.isSome_iff_exists.mp h
  obtain ⟨f, hf, hjobs⟩ := dropState_jobs id d
  have hnoted : (noteImage j code (dropWrites id (dropState id d))).gaffer.jobs = _ := (noteImage_jobs _ _ _).trans hjobs
  rw [answerJob, hj]
  refine ⟨_, ?_, (advanceGo_jobs _ _ _).trans ((congrArg (List.map _) hnoted).trans (map_of_id_map_of_id hf _ _))⟩
  exact fun x => ⟨hf x, rfl, rfl⟩

/-- An expiry writes the jobs of its identifier, and no other. -/
theorem expireJob_jobs (id) (d : Device) : ∃ f : Job → Job, (∀ x, (f x).id = x.id ∧ expiredTo (f x)) ∧
    (expireJob id d).gaffer.jobs = d.gaffer.jobs.map (fun x => if x.id = id then f x else x) := by
  unfold expireJob
  cases hj : jobOf id d with
  | none =>
    have hnone : ∀ x ∈ d.gaffer.jobs, x.id ≠ id := fun x hx => by simpa using List.find?_eq_none.mp hj x hx
    refine ⟨fun x => { x with place := .answered, code := 0x0604 }, fun x => ⟨rfl, rfl, rfl⟩, ?_⟩
    exact ((List.map_congr_left fun x hx => if_neg (hnone x hx)).trans (List.map_id' _)).symm
  | some j =>
    have hjobs : (gafCount 2 (traceJob 0x02 j 0x0604 d)).gaffer.jobs = d.gaffer.jobs :=
      congrArg (fun g => g.jobs) (traceJob_gaffer 0x02 j 0x0604 d)
    obtain ⟨f, hf, heq⟩ := answerJob_jobs (id := id) (code := 0x0604) (d := gafCount 2 (traceJob 0x02 j 0x0604 d))
      (by rw [jobOf, hjobs]; exact Option.isSome_of_eq_some hj)
    exact ⟨f, hf, heq.trans (congrArg (List.map _) hjobs)⟩

/-- A scan writes the jobs of its list, and no other. -/
theorem doEach_expireJob_jobs (ids : List Nat) (d : Device) : ∃ g : Job → Job,
    (∀ x, (g x).id = x.id ∧ (x.id ∈ ids → expiredTo (g x)) ∧ (x.id ∉ ids → g x = x)) ∧
    (doEach ids expireJob d).gaffer.jobs = d.gaffer.jobs.map g := by
  induction ids generalizing d with
  | nil => exact ⟨fun x => x, fun x => ⟨rfl, fun h => absurd h List.not_mem_nil, fun _ => rfl⟩, (List.map_id' _).symm⟩
  | cons i is ih =>
    obtain ⟨f, hf, hfirst⟩ := expireJob_jobs i d
    obtain ⟨g, hg, hrest⟩ := ih (expireJob i d)
    refine ⟨fun x => g (if x.id = i then f x else x), fun x => ?_, ?_⟩
    · obtain ⟨hid, hexpired⟩ := hf x
      dsimp only
      by_cases hx : x.id = i
      · obtain ⟨hgid, hin, hout⟩ := hg (f x)
        rw [if_pos hx]
        refine ⟨hgid.trans hid, fun _ => ?_, fun h => absurd (hx ▸ List.mem_cons_self) h⟩
        by_cases his : (f x).id ∈ is
        · exact hin his
        · rwa [hout his]
      · obtain ⟨hgid, hin, hout⟩ := hg x
        rw [if_neg hx]
        exact ⟨hgid, fun h => hin ((List.mem_cons.mp h).resolve_left hx), fun h => hout fun his => h (List.mem_cons_of_mem _ his)⟩
    · show (doEach is expireJob (expireJob i d)).gaffer.jobs = _
      rw [hrest, hfirst, List.map_map]
      rfl

theorem scanExpired_eq (d : Device) : scanExpired d =
    doEach ((d.gaffer.jobs.filter (expired d)).map (·.id)) expireJob { d with gaffer := { d.gaffer with lastScan := some d.time.ticks } } := rfl
theorem scanExpired_jobless (d : Device) : jobless (scanExpired d) = jobless { d with gaffer := { d.gaffer with lastScan := some d.time.ticks } } :=
  doEach_kept expireJob_jobless
theorem not_expired_of_answered {d : Device} {j : Job} (h : j.place = .answered) : expired d j = false := by simp [expired, h]

/-- EXPIRY_SCAN (04 R135). -/
theorem expiryScan_completes {s : State} (hreset : outOfReset s.dev = true) (hready : s.dev.gaffer.ready = true) (hcount : s.dev.time.ticks % 256 = 0)
    (hlast : s.dev.gaffer.lastScan ≠ some s.dev.time.ticks) :
    Completes .expiryScan s (fun d => d.gaffer.lastScan = some s.dev.time.ticks ∧ (∀ j ∈ d.gaffer.jobs, expired s.dev j = false) ∧
      (∀ j ∈ s.dev.gaffer.jobs, expired s.dev j = true → ∃ k ∈ d.gaffer.jobs, k.id = j.id ∧ k.place = .answered ∧ k.code = 0x0604) ∧
      d = { s.dev with gaffer := d.gaffer, flash := d.flash, benches := d.benches }) := by
  refine ⟨_, next_doIf (by simp [hreset, hready, hcount, hlast]), ?_⟩
  have hrest := scanExpired_jobless s.dev
  obtain ⟨g, hg, hjobs⟩ := doEach_expireJob_jobs ((s.dev.gaffer.jobs.filter (expired s.dev)).map (·.id))
    { s.dev with gaffer := { s.dev.gaffer with lastScan := some s.dev.time.ticks } }
  rw [← scanExpired_eq] at hjobs
  dsimp only
  rw [hjobs]
  have hlisted : ∀ j ∈ s.dev.gaffer.jobs, expired s.dev j = true → expiredTo (g j) := fun j hj hexpired =>
    (hg j).2.1 (List.mem_map_of_mem (List.mem_filter.mpr ⟨hj, hexpired⟩))
  refine ⟨congrArg (·.gaffer.lastScan) hrest, ?_, ?_, (frame_of_jobless hrest :)⟩
  · intro k hk
    obtain ⟨j, hj, rfl⟩ := List.mem_map.mp hk
    by_cases hin : j.id ∈ (s.dev.gaffer.jobs.filter (expired s.dev)).map (·.id)
    · exact not_expired_of_answered ((hg j).2.1 hin).1
    · rw [(hg j).2.2 hin]
      by_contra hexpired
      exact hin (List.mem_map_of_mem (List.mem_filter.mpr ⟨hj, by simpa using hexpired⟩))
  · exact fun j hj hexpired => ⟨g j, List.mem_map_of_mem hj, (hg j).1, hlisted j hj hexpired⟩

end Sys2Proof.Machine
end

section
/-! SUPPORT. Self-tests, journal entries, floors and the recovery window, and O26. -/

namespace Sys2Proof.Machine

/-! ### A core's self-test ends (20 R651) -/

theorem exec_coreSelftestEnd_passed {c : CoreRef} {s : State} (hruns : benchRuns c.bench s.dev = true)
    (htesting : (coreOf (lead c s.dev) s.dev).state = .testing) : exec (.coreSelftestEnd c true) s =
      .next { s with dev := modUnit (lead c s.dev) (fun x => { x with state := .idle, since := s.dev.time.ticks }) s.dev } :=
  next_doIf (f := fun d => modUnit (lead c s.dev) (fun x => { x with state := .idle, since := d.time.ticks }) d)
    (by rw [lead_bench, hruns, htesting]; rfl)
theorem exec_coreSelftestEnd_failed {c : CoreRef} {s : State} (hruns : benchRuns c.bench s.dev = true)
    (htesting : (coreOf (lead c s.dev) s.dev).state = .testing) :
    exec (.coreSelftestEnd c false) s = .next { s with dev := dispatchAll (retireCore (lead c s.dev) s.dev) } :=
  next_doIf (f := fun d => dispatchAll (retireCore (lead c s.dev) d)) (by rw [lead_bench, hruns, htesting]; rfl)

/-- The part with a core retired, before its bench is looked at. -/
def retired (c : CoreRef) (d : Device) : Device :=
  let e := modUnit c (fun x => { x with state := .retired, job := none, since := d.time.ticks }) (openWindow .recovery d)
  traceUnit c.bench (BitVec.ofNat 8 c.core) (emitVia (.bench c.bench) .alarm 0x0302 (.bench c.bench) (BitVec.ofNat 8 c.core) none
    (leBytes 4 (coreOf c d).lastStream ++ leBytes 4 (coreOf c d).lastTicket.toNat)
    { e with gaffer := { e.gaffer with coresRetired := e.gaffer.coresRetired + BitVec.ofNat 8 (unitCores c d).length
                                       requests := e.gaffer.requests.filter (fun r => r.1 ≠ c) } })
theorem retireCore_eq (c : CoreRef) (d : Device) : retireCore c d =
    if benchDead c.bench (retired c d) then fenceBench c.bench (.bench c.bench) 1 (retired c d) else retired c d := rfl

theorem retired_standing (c : CoreRef) (d : Device) : standing (retired c d) = standing d := by
  rw [retired, traceUnit_standing, emitVia_standing, standing_mk, modUnit_standing, openWindow_standing]

theorem retired_requests (c : CoreRef) (d : Device) : (retired c d).gaffer.requests = d.gaffer.requests.filter (fun r => r.1 ≠ c) := by
  rw [retired, traceUnit, traceEntry_gaffer]
  exact congrArg (fun g => g.requests.filter (fun r => r.1 ≠ c)) (modUnit_gaffer c _ (openWindow .recovery d))
theorem coreOf_retired {c : CoreRef} {d : Device} (hc : c ∈ unitCores c d) (h : (coreOf c d).state ≠ .absent) :
    (coreOf c (retired c d)).state = .retired :=
  congrArg Core.state (coreOf_modUnit_self (d := openWindow .recovery d) _ hc h)

theorem there_of_benchRuns {b : Nat} {d : Device} (h : benchRuns b d = true) : (tabGet b d.benches).isSome = true := by
  simp only [benchRuns, Bool.and_eq_true] at h
  obtain ⟨⟨⟨⟨hthere, -⟩, -⟩, -⟩, -⟩ := h
  exact hthere
theorem fenced_of_standing {d e : Device} (h : standing d = standing e) (b : Nat) : (benchOf b d).fenced = (benchOf b e).fenced :=
  (congrArg Bench.fenced ((benchOf_of_standing h b).trans (benchOf_of_standing rfl b).symm :) :)
/-- A bench that is there is fenced, whether or not it was before. -/
theorem fenceBench_fenced_of_there {b : Nat} (q kind) {d : Device} (hthere : (tabGet b d.benches).isSome = true) :
    (benchOf b (fenceBench b q kind d)).fenced = true ∧ (fenceBench b q kind d).fuses = d.fuses := by
  cases hfenced : (benchOf b d).fenced with
  | false => exact fenceBench_fenced q kind (by rw [regionThere, hthere, hfenced]; rfl)
  | true =>
    have hsame : fenceBench b q kind d = d := by rw [fenceBench, hthere, hfenced]; rfl
    rw [hsame]
    exact ⟨hfenced, rfl⟩

/-- A core that fails its test is retired, or its bench is fenced with it (20 R651). -/
theorem coreSelftestEnd_failed_completes {c : CoreRef} {s : State} (hruns : benchRuns c.bench s.dev = true)
    (htesting : (coreOf (lead c s.dev) s.dev).state = .testing) (hrequests : s.dev.gaffer.requests = []) :
    Completes (.coreSelftestEnd c false) s (fun d =>
      ((coreOf (lead c s.dev) d).state = .retired ∨ (benchOf c.bench d).fenced = true) ∧ d.fuses = s.dev.fuses) := by
  refine ⟨_, exec_coreSelftestEnd_failed hruns htesting, ?_⟩
  let u := lead c s.dev
  have hbench : u.bench = c.bench := lead_bench c s.dev
  have hstands : standing (dispatchAll (retireCore u s.dev)) = standing (retireCore u s.dev) := dispatchAll_standing _
  have hretired : standing (retired u s.dev) = standing s.dev := retired_standing u s.dev
  have hthere : (tabGet u.bench (retired u s.dev).benches).isSome = true := by
    have hone := congrArg Option.isSome ((tabGet_of_standing hretired u.bench).trans (tabGet_of_standing rfl u.bench).symm)
    rw [Option.isSome_map, Option.isSome_map] at hone
    rw [hone, hbench]
    exact there_of_benchRuns hruns
  have hfuses : (retired u s.dev).fuses = s.dev.fuses := (fuses_of_standing hretired :)
  rw [retireCore_eq] at hstands ⊢
  by_cases hdead : benchDead u.bench (retired u s.dev) = true
  · rw [if_pos hdead] at hstands ⊢
    obtain ⟨hfenced, hkept⟩ := fenceBench_fenced_of_there (b := u.bench) (.bench u.bench) 1 hthere
    exact ⟨.inr (by rw [← hbench]; exact (fenced_of_standing hstands _).trans hfenced), (fuses_of_standing hstands).trans (hkept.trans hfuses)⟩
  · rw [if_neg hdead] at hstands ⊢
    have hrequests' : (retired u s.dev).gaffer.requests = [] := by rw [retired_requests, hrequests]; rfl
    refine ⟨.inl ?_, (fuses_of_standing hstands).trans hfuses⟩
    rw [coreOf_of_jobless (dispatchAll_jobless_of_no_requests hrequests')]
    exact coreOf_retired (lead_mem_unitCores c s.dev) (by simp [htesting])

/-! ### Journal entries (04 R147; 20 R660) -/

theorem exec_journalEntryDurable {n : Nat} {w : PendingWrite} (programmed : Bool) {s : State}
    (hw : s.dev.flash.writes.find? (fun w => decide (w.id = n) && !w.durable) = some w) (hreset : outOfReset s.dev = true)
    (hserves : nvmServes s.dev = true) : exec (.journalEntryDurable n programmed) s =
      .next { s with dev := (if programmed then entryDurable w else entryFailed w) s.dev } := by
  show execJournalEntryDurable n programmed s = _
  unfold execJournalEntryDurable runDev
  dsimp only
  rw [hw]
  exact next_doIf (by rw [hreset, hserves]; rfl)

/-- The entry found bears the number asked for. -/
theorem writeFound_id {n : Nat} {w : PendingWrite} {ws : List PendingWrite} (h : ws.find? (fun w => decide (w.id = n) && !w.durable) = some w) :
    w.id = n := by
  have hfound := List.find?_some h
  simp only [Bool.and_eq_true, decide_eq_true_eq] at hfound
  exact hfound.1

/-- An entry for which no job waits is only programmed. -/
theorem entryDurable_of_no_gates {w : PendingWrite} {d : Device} (h : ∀ j ∈ d.gaffer.jobs, w.id ∉ j.gates) :
    entryDurable w d = entryProgrammed w d := by
  have hjobs : (entryProgrammed w d).gaffer.jobs = d.gaffer.jobs := by
    unfold entryProgrammed
    split <;> rfl
  have hwaiting : (entryProgrammed w d).gaffer.jobs.filter (fun j => j.gates.contains w.id) = [] := by
    rw [hjobs]
    exact List.filter_eq_nil_iff.mpr fun j hj => by simpa using h j hj
  unfold entryDurable
  dsimp only
  rw [hwaiting]
  rfl

/-! ### Floors (04 R158) and the recovery window (04 R170) -/

theorem exec_floorReached {j : Job} {b : Nat} {s : State} (hj : jobOf j.id s.dev = some j) (hplace : j.place = .retired b)
    (hheld : j.held.isSome = true) (hdue : isReleasable s.dev j = true) :
    exec (.floorReached j.id) s = .next { s with dev := modJob j.id (fun j => { j with held := none }) (freeJobCore j s.dev) } := by
  show execFloorReached j.id s = _
  unfold execFloorReached runDev
  dsimp only
  rw [hj]
  dsimp only
  rw [hplace]
  exact next_doIf (by rw [hheld, hdue]; rfl)

/-- The recovery window closes; the trace is frozen where no other window is open. -/
theorem recoveryTraceWindowEnd_completes {s : State} (hreset : outOfReset s.dev = true) (hopen : .recovery ∈ s.dev.gaffer.traceOpen)
    (hends : s.dev.gaffer.traceEnds ≤ s.dev.time.ticks) :
    Completes .recoveryTraceWindowEnd s (fun d => d.gaffer.traceOpen = s.dev.gaffer.traceOpen.erase .recovery ∧
      d.gaffer.trace = s.dev.gaffer.trace ∧ (s.dev.gaffer.traceOpen = [.recovery] → s.dev.gaffer.traceFrozen = false →
        recording d.gaffer = false ∧ d.gaffer.traceFrozen = true) ∧ d = { s.dev with gaffer := d.gaffer }) := by
  refine ⟨_, next_doIf (by simp [hreset, hopen, hends]), rfl, rfl, fun hone _ => ?_, rfl⟩
  constructor <;> simp [recording, closeWindow, hone]

/-- Settles O26: each of the five rows acts on its occasion. -/
theorem lehrAndGafferEventsTakeEffect : Obligations.LehrAndGafferEventsTakeEffect := by
  refine ⟨fun c s hruns htesting => ⟨exec_coreSelftestEnd_passed hruns htesting, coreSelftestEnd_failed_completes hruns htesting⟩, ?_,
    fun j b s hj hplace hheld hdue => exec_floorReached hj hplace hheld hdue,
    fun s hreset hready hcount hlast => expiryScan_completes hreset hready hcount hlast,
    fun s hreset hopen hends => recoveryTraceWindowEnd_completes hreset hopen hends⟩
  intro n w s hw hreset hserves hgates
  obtain rfl := writeFound_id hw
  have hdurable := (exec_journalEntryDurable true hw hreset hserves).trans
    (congrArg (fun d => Host.Outcome.next { s with dev := d }) (entryDurable_of_no_gates hgates))
  refine ⟨fun hjob => ?_, fun hjob => ?_, fun hattempts => ⟨_, exec_journalEntryDurable false hw hreset hserves, ?_⟩⟩
  · rw [hdurable, entryProgrammed, hjob]
    rfl
  · rw [hdurable, entryProgrammed, hjob]
    rfl
  · have hagain : w.attempts + 1 < 3 := by omega
    simp only [entryFailed, hagain, if_true, Bool.false_eq_true, if_false]
    exact ⟨rfl, rfl⟩

end Sys2Proof.Machine
end

section
/-! SUPPORT. The work on jobs leaves alone the custody partition, the network and the grid point that a bench has served. -/

namespace Sys2Proof.Machine

/-! ### What lies outside -/

/-- Of a bench the grid point that it has served. -/
def gridOnly (b : Bench) : Bench := { lehr := { gridDone := b.lehr.gridDone } }
/-- Of the device the custody partition, the network and the benches' grid points. -/
def outlying (d : Device) : Device := { custody := d.custody, net := d.net, benches := tabMap (fun _ => gridOnly) d.benches }

theorem custody_of_outlying {d e : Device} (h : outlying d = outlying e) : d.custody = e.custody := congrArg (·.custody) h
theorem net_of_outlying {d e : Device} (h : outlying d = outlying e) : d.net = e.net := congrArg (·.net) h
/-- A grid point that every bench has served stays served. -/
theorem gridDone_of_outlying {d e : Device} {n : Nat} (h : outlying d = outlying e) (he : ∀ p ∈ e.benches, p.2.lehr.gridDone = some n) :
    ∀ p ∈ d.benches, p.2.lehr.gridDone = some n := by
  intro p hp
  have hmem : (p.1, gridOnly p.2) ∈ tabMap (fun _ => gridOnly) e.benches := by
    have hbenches : tabMap (fun _ => gridOnly) d.benches = tabMap (fun _ => gridOnly) e.benches := congrArg (·.benches) h
    rw [← hbenches]
    exact List.mem_map_of_mem hp
  obtain ⟨q, hq, heq⟩ := List.mem_map.mp hmem
  exact (congrArg (fun r => r.2.lehr.gridDone) heq).symm.trans (he q hq)

theorem outlying_mk {time pins start fuses battery tamper keys gaffer shares gather host events power flash draws out : _} (e : Device) :
    outlying { e with time, pins, start, fuses, battery, tamper, keys, gaffer, shares, gather, host, events, power, flash, draws, out } = outlying e := rfl
theorem modBench_outlying {b : Nat} {f : Bench → Bench} {d : Device} (hf : ∀ x, (f x).lehr.gridDone = x.lehr.gridDone) :
    outlying (modBench b f d) = outlying d :=
  congrArg (fun t => { outlying d with benches := t })
    (tabMap_tabMod_of_eq (g := gridOnly) (f := f) (fun x => congrArg (fun n => ({ lehr := { gridDone := n } } : Bench)) (hf x)) b d.benches)
theorem mapBenches_outlying {f : Nat → Bench → Bench} {d : Device} (hf : ∀ n x, (f n x).lehr.gridDone = x.lehr.gridDone) :
    outlying { d with benches := tabMap f d.benches } = outlying d :=
  congrArg (fun t => { outlying d with benches := t })
    (tabMap_tabMap_of_eq (g := gridOnly) (f := f) (t := d.benches) fun n x => congrArg (fun n => ({ lehr := { gridDone := n } } : Bench)) (hf n x))

/-! ### Engines and grants (05) -/

theorem modCore_outlying (c f) (d : Device) : outlying (modCore c f d) = outlying d := modBench_outlying fun _ => rfl
theorem modEngineBlock_lehr (k f) (b : Bench) : (modEngineBlock k f b).lehr = b.lehr := by cases k <;> rfl
theorem modEngine_outlying (b k n f) (d : Device) : outlying (modEngine b k n f d) = outlying d :=
  modBench_outlying fun _ => congrArg Lehr.gridDone (modEngineBlock_lehr _ _ _)
theorem engineWork_outlying (b k n c v job) (d : Device) : outlying (engineWork b k n c v job d) = outlying d := modBench_outlying fun _ => rfl
theorem lehCount_outlying (b k) (d : Device) : outlying (lehCount b k d) = outlying d := modBench_outlying fun _ => rfl
theorem modJob_outlying (id f) (d : Device) : outlying (modJob id f d) = outlying d := rfl
theorem charge_outlying (kind t n) (d : Device) : outlying (charge kind t n d) = outlying d := rfl
theorem freePort_outlying (g) (d : Device) : outlying (freePort g d) = outlying d := ite_kept rfl
theorem saveContext_outlying (g) (d : Device) : outlying (saveContext g d) = outlying d := by
  unfold saveContext
  split
  · rfl
  · dsimp only
    split
    · rfl
    · rw [engineWork_outlying, modJob_outlying, modEngine_outlying]
theorem dropParked_outlying (p) (d : Device) : outlying (dropParked p d) = outlying d := doEach_kept (view := outlying) saveContext_outlying
theorem clearScratch_outlying (b n) (d : Device) : outlying (modBench b (clearScratch n) d) = outlying d := modBench_outlying fun _ => rfl
theorem beginTest_outlying (b k n cause) (d : Device) : outlying (beginTest b k n cause d) = outlying d := by
  rw [beginTest, outlying_mk, modEngine_outlying, dropParked_outlying, ite_kept (clearScratch_outlying b n d)]
theorem beginDue_outlying (b k n) (d : Device) : outlying (beginDue b k n d) = outlying d := by
  unfold beginDue
  split
  · rfl
  · rw [beginTest_outlying, modEngine_outlying]
theorem endGrant_outlying (g park) (d : Device) : outlying (endGrant g park d) = outlying d := by
  rw [endGrant, doWith_kept (view := outlying) fun k x => by rw [beginDue_outlying, engineWork_outlying, modEngine_outlying], outlying_mk]
  split
  · rw [freePort_outlying, charge_outlying]
  · rw [saveContext_outlying, freePort_outlying, charge_outlying]
theorem forgetChain_outlying (job) (d : Device) : outlying (forgetChain job d) = outlying d := by
  refine mapBenches_outlying fun _ x => congrArg Lehr.gridDone ?_
  rw [modEngineBlock_lehr, modEngineBlock_lehr]
theorem loadFromPort_outlying (b k n j) (d : Device) : outlying (loadFromPort b k n j d) = outlying d := by
  unfold loadFromPort
  split
  · rw [ite_kept (engineWork_outlying _ _ _ _ _ _ _), modEngine_outlying]
  · rfl
theorem restoreContext_outlying (b k n j) (d : Device) : outlying (restoreContext b k n j d) = outlying d := by
  unfold restoreContext
  split
  · rfl
  · rw [engineWork_outlying, modJob_outlying, modEngine_outlying]
theorem startEngine_outlying (b k n job) (d : Device) : outlying (startEngine b k n job d) = outlying d := by
  rw [startEngine, doWith_kept (view := outlying) fun j x => by rw [restoreContext_outlying, loadFromPort_outlying, modEngine_outlying], modEngine_outlying]
theorem giveUnit_outlying (r unit) (d : Device) : outlying (giveUnit r unit d) = outlying d := by
  rw [giveUnit, doWith_kept fun _ _ => startEngine_outlying _ _ _ _ _, outlying_mk, dropParked_outlying]
theorem grantOne_outlying (bench kind) (d : Device) : outlying (grantOne bench kind d) = outlying d := by
  unfold grantOne
  split
  · rfl
  · split
    · rfl
    · exact giveUnit_outlying _ _ d
theorem arbitrate_outlying (bench kind) (d : Device) : outlying (arbitrate bench kind d) = outlying d :=
  foldl_kept fun x _ => grantOne_outlying bench kind x
theorem dropGrants_outlying (job park) (d : Device) : outlying (dropGrants job park d) = outlying d := by
  rw [dropGrants, doEach_kept fun _ _ => arbitrate_outlying _ _ _, outlying_mk, doEach_kept fun _ _ => endGrant_outlying _ _ _, forgetChain_outlying]

/-! ### Jobs (04) -/

theorem gafCount_outlying (k) (d : Device) : outlying (gafCount k d) = outlying d := rfl
theorem coreCount_outlying (c k n) (d : Device) : outlying (coreCount c k n d) = outlying d := rfl
theorem affect_outlying (t code) (d : Device) : outlying (affect t code d) = outlying d := rfl
theorem traceJob_outlying (kind j code) (d : Device) : outlying (traceJob kind j code d) = outlying d := rfl
theorem modUnit_outlying (c f) (d : Device) : outlying (modUnit c f d) = outlying d := by
  unfold modUnit
  split <;> simp only [modCore_outlying]
theorem freeCore_outlying (c) (d : Device) : outlying (freeCore c d) = outlying d := by
  rw [freeCore, doWith_kept fun _ _ => modJob_outlying _ _ _, modUnit_outlying]
theorem freeJobCore_outlying (j) (d : Device) : outlying (freeJobCore j d) = outlying d := doWith_kept freeCore_outlying
theorem settleBench_lehr (retired id) (b : Bench) : (settleBench retired id b).lehr = b.lehr := by
  have counted : ∀ (ws : List WorkCount) (x : Bench), (ws.foldl (fun b w =>
      modEngineBlock w.kind (fun x => { x with ctr := ctrAdd w.counter w.amount x.ctr }) b) x).lehr = x.lehr := by
    intro ws
    induction ws with
    | nil => exact fun _ => rfl
    | cons w ws ih => exact fun x => (ih _).trans (modEngineBlock_lehr _ _ _)
  unfold settleBench
  dsimp only
  split
  · exact counted _ _
  · rfl
theorem settleWork_outlying (retired j) (d : Device) : outlying (settleWork retired j d) = outlying d := by
  have hdraws : ∀ x, outlying (settleDraws retired j x) = outlying x := by
    intro x
    unfold settleDraws
    split
    · split <;> rfl
    · rfl
  exact (hdraws _).trans (mapBenches_outlying fun _ _ => congrArg Lehr.gridDone (settleBench_lehr _ _ _))
theorem dropWrites_outlying (id) (d : Device) : outlying (dropWrites id d) = outlying d := rfl
theorem noteImage_outlying (j code) (d : Device) : outlying (noteImage j code d) = outlying d := by
  unfold noteImage
  split
  · exact outlying_mk d
  · rfl
theorem advancePtr_outlying (st) (d : Device) : outlying (advancePtr st d) = outlying d := by
  have go : ∀ fuel x, outlying (advanceGo st fuel x) = outlying x := by
    intro fuel
    induction fuel with
    | zero => exact fun _ => rfl
    | succ fuel ih =>
      intro x
      unfold advanceGo
      split
      · exact (ih _).trans rfl
      · rfl
  exact go _ d
theorem eraseRows_outlying (b p) (d : Device) : outlying (modBench b (eraseRows p) d) = outlying d := modBench_outlying fun _ => rfl
theorem dropState_outlying (id) (d : Device) : outlying (dropState id d) = outlying d := by
  unfold dropState
  split
  · rfl
  · rw [modJob_outlying, doWith_kept fun b _ => eraseRows_outlying b _ _]
theorem answerJob_outlying (id code) (d : Device) : outlying (answerJob id code d) = outlying d := by
  unfold answerJob
  split
  · rfl
  · rw [advancePtr_outlying, modJob_outlying, noteImage_outlying, dropWrites_outlying, dropState_outlying]
theorem dropJob_outlying (id code) (d : Device) : outlying (dropJob id code d) = outlying d := by
  cases hj : jobOf id d with
  | none => simp only [dropJob, hj]
  | some j =>
    rw [dropJob_eq code hj, answerJob_outlying, beforeDrop, doWith_kept fun _ _ => lehCount_outlying _ _ _,
      doWith_kept fun _ _ => coreCount_outlying _ _ _ _, traceJob_outlying, settleWork_outlying, freeJobCore_outlying, dropGrants_outlying]

/-! ### Dispatch (04 R135 to R139) -/

theorem expireJob_outlying (id) (d : Device) : outlying (expireJob id d) = outlying d := by
  unfold expireJob
  split
  · rfl
  · rw [answerJob_outlying, gafCount_outlying, traceJob_outlying]
theorem expireHeads_outlying (fuel) (d : Device) : outlying (expireHeads fuel d) = outlying d := by
  induction fuel generalizing d with
  | zero => rfl
  | succ fuel ih =>
    unfold expireHeads
    split
    · rfl
    · split
      · exact (ih _).trans (expireJob_outlying _ d)
      · rfl
theorem fireVector_outlying (f v) (d : Device) : outlying (fireVector f v d) = outlying d := by
  unfold fireVector
  split <;> rfl
theorem denied_outlying (f purpose write addr) (d : Device) : outlying (denied f purpose write addr d) = outlying d :=
  (fireVector_outlying _ _ _).trans rfl
theorem decodeRead_outlying (j) (d : Device) : outlying (decodeRead j d).2 = outlying d := by
  unfold decodeRead
  split
  · split
    · exact denied_outlying _ _ _ _ d
    · rfl
  · rfl
/-- A dispatch writes its unit, Gaffer and the host's fault record, and drops a job whose input could not be read. -/
theorem dispatchJob_outlying (c j) (d : Device) : outlying (dispatchJob c j d) = outlying d := by
  have reset : ∀ (x : Prop) [Decidable x] (code : Code) (k : Job) (e : Device),
      outlying (if x then beginReset k e else (code, e)).2 = outlying e := by
    intro x _ code k e
    split
    · obtain ⟨ts, heq⟩ := beginReset_frame k e
      rw [heq]
      rfl
    · rfl
  unfold dispatchJob
  dsimp only
  rw [doIf, ite_kept (dropJob_outlying _ _ _), traceJob_outlying, gafCount_outlying, modJob_outlying, outlying_mk, modUnit_outlying,
    coreCount_outlying, reset, decodeRead_outlying]
theorem dispatchGo_outlying (fuel) (d : Device) : outlying (dispatchGo fuel d) = outlying d := by
  induction fuel generalizing d with
  | zero => rfl
  | succ fuel ih =>
    unfold dispatchGo
    split
    · rfl
    · exact (ih _).trans (dispatchJob_outlying _ _ d)
theorem dispatchAll_outlying (d : Device) : outlying (dispatchAll d) = outlying d := by
  unfold dispatchAll
  split
  · exact (dispatchGo_outlying _ _).trans (expireHeads_outlying _ d)
  · rfl

end Sys2Proof.Machine
end

section
/-! SUPPORT. A job leaves for its release (04 R145, R146, R154, R158), and O25. -/

namespace Sys2Proof.Machine

/-! ### What a Retire counts -/

theorem refusalEvent_aside {id : Nat} (j code b) (d : Device) : aside id (refusalEvent j code b d) = aside id d := ite_aside rfl
theorem refusalEvent_standing (j code b) (d : Device) : standing (refusalEvent j code b d) = standing d := ite_standing rfl
theorem refusalEvent_outlying (j code b) (d : Device) : outlying (refusalEvent j code b d) = outlying d := ite_kept rfl

/-- What keeps the counts of a Retire keeps a Retire's note. -/
theorem noteRetire_kept {β : Type} {view : Device → β} (hleh : ∀ b k d, view (lehCount b k d) = view d)
    (hcore : ∀ c k n d, view (coreCount c k n d) = view d) (hgaf : ∀ k d, view (gafCount k d) = view d)
    (haffect : ∀ t code d, view (affect t code d) = view d) (htrace : ∀ kind j code d, view (traceJob kind j code d) = view d)
    (hevent : ∀ j code b d, view (refusalEvent j code b d) = view d) (j b code last) (d : Device) :
    view (noteRetire j b code last d) = view d := by
  simp only [noteRetire]
  rw [hevent, htrace, ite_kept (hgaf _ _), ite_kept (haffect _ _ _), ite_kept (hgaf _ _), ite_kept (doWith_kept fun _ _ => hcore _ _ _ _),
    doWith_kept fun _ _ => hcore _ _ _ _, ite_kept (hleh _ _ _), hleh]

theorem noteRetire_aside {id : Nat} (j b code last) (d : Device) : aside id (noteRetire j b code last d) = aside id d :=
  noteRetire_kept lehCount_aside coreCount_aside gafCount_aside (fun t _ => modTenant_aside t _) traceJob_aside refusalEvent_aside j b code last d
theorem noteRetire_standing (j b code last) (d : Device) : standing (noteRetire j b code last d) = standing d :=
  noteRetire_kept lehCount_standing coreCount_standing gafCount_standing affect_standing traceJob_standing refusalEvent_standing j b code last d
theorem noteRetire_outlying (j b code last) (d : Device) : outlying (noteRetire j b code last d) = outlying d :=
  noteRetire_kept lehCount_outlying coreCount_outlying gafCount_outlying affect_outlying traceJob_outlying refusalEvent_outlying j b code last d

theorem countValidation_standing (id b) (d : Device) : standing (countValidation id b d) = standing d := modBench_standing fun _ => rfl
theorem countValidation_outlying (id b) (d : Device) : outlying (countValidation id b d) = outlying d :=
  modBench_outlying fun _ => congrArg Lehr.gridDone (modEngineBlock_lehr _ _ _)

/-! ### A job leaves -/

/-- What comes before the release of a job: its grants end, its work is counted, its Retire is noted. -/
def settled (j : Job) (b : Nat) (code : Code) (d : Device) : Device :=
  let d := if 0x0301 ≤ code.toNat ∧ code.toNat ≤ 0x0305 then countValidation j.id b d else d
  let d := noteImage j code (noteRetire j b code true (settleWork (code == 0) j (dropGrants j.id true d)))
  if code = 0 && isStepped j then doWith j.ranOn (fun c => coreCount c 4 1) d else d
/-- The count at which a job with that code is releasable (04 R158). -/
def releaseAt (j : Job) (code : Code) (d : Device) : Nat :=
  if floorCode code then d.time.ticks + (j.floorEff - ticksSince (if j.step = 0 && !j.half then j.dispatch else j.firstDispatch) d)
  else d.time.ticks
/-- Its core is free unless it is held to a floor, its pointer has moved, and its state and its entries are gone. -/
def left (j : Job) (at_ : Nat) (d : Device) : Device :=
  let d := if at_ ≤ d.time.ticks then freeJobCore j d else d
  dropState j.id (dropWrites j.id { d with gaffer := { d.gaffer with retirePtr := assocSet j.stream (j.ticket + 1) d.gaffer.retirePtr } })

theorem settled_aside {id : Nat} (j b code) (d : Device) : aside id (settled j b code d) = aside id d := by
  simp only [settled]
  rw [ite_aside (doWith_aside fun _ _ => coreCount_aside _ _ _ _), noteImage_aside, noteRetire_aside, settleWork_aside, dropGrants_aside]
  exact ite_aside rfl
theorem settled_standing (j b code) (d : Device) : standing (settled j b code d) = standing d := by
  simp only [settled]
  rw [ite_standing (doWith_standing fun _ _ => coreCount_standing _ _ _ _), noteImage_standing, noteRetire_standing, settleWork_standing,
    dropGrants_standing, ite_standing (countValidation_standing _ _ _)]
theorem settled_outlying (j b code) (d : Device) : outlying (settled j b code d) = outlying d := by
  simp only [settled]
  rw [ite_kept (doWith_kept fun _ _ => coreCount_outlying _ _ _ _), noteImage_outlying, noteRetire_outlying, settleWork_outlying,
    dropGrants_outlying, ite_kept (countValidation_outlying _ _ _)]
theorem left_aside {id : Nat} (j at_) (d : Device) : aside id (left j at_ d) = aside id d := by
  simp only [left]
  rw [dropState_aside, dropWrites_aside, aside_gaffer (by rfl), ite_aside (freeJobCore_aside _ _)]
theorem left_standing (j at_) (d : Device) : standing (left j at_ d) = standing d := by
  simp only [left]
  rw [dropState_standing, dropWrites_standing, standing_mk, ite_standing (freeJobCore_standing _ _)]
theorem left_outlying (j at_) (d : Device) : outlying (left j at_ d) = outlying d := by
  simp only [left]
  rw [dropState_outlying, dropWrites_outlying, outlying_mk, ite_kept (freeJobCore_outlying _ _)]

theorem finishJob_eq (j : Job) (b : Nat) (code : Code) (staged : Option Staged) (d : Device) :
    finishJob j b code staged d =
      let e := settled j b code d
      let at_ := releaseAt j code e
      let held := if at_ ≤ (if at_ ≤ e.time.ticks then freeJobCore j e else e).time.ticks then none else j.held
      advancePtr j.stream (modJob j.id (fun j => { j with
        place := .retired b, code := code, mirror := staged, releasable := some at_, held := held, gates := []
        durable := false, staged := none, verdict := none, flags := none, ranOn := none, drawn := [], drewAll := false }) (left j at_ e)) := rfl

/-- The job stands in the retire mirror of the bench with its code. -/
def hasLeft (id b : Nat) (code : Code) (mirror : Option Staged) (at_ : Nat) (d : Device) : Prop :=
  ∃ k, jobOf id d = some k ∧ k.place = .retired b ∧ k.code = code ∧ k.mirror = mirror ∧ k.releasable = some at_
/-- Of the key store but its ports, of the fuses, the custody partition and the network a device keeps all. -/
def keepsRest (d e : Device) : Prop :=
  d.keys = { e.keys with ports := d.keys.ports } ∧ d.fuses = e.fuses ∧ d.custody = e.custody ∧ d.net = e.net

theorem keepsRest_of_views {id : Nat} {d e : Device} (haside : aside id d = aside id e) (hstands : standing d = standing e)
    (hout : outlying d = outlying e) : keepsRest d e :=
  ⟨keys_of_aside haside, (fuses_of_standing hstands :), custody_of_outlying hout, net_of_outlying hout⟩

theorem releaseAt_of_time {j : Job} {code : Code} {d e : Device} (h : d.time = e.time) : releaseAt j code d = releaseAt j code e := by
  simp only [releaseAt, ticksSince, ticksUntil, extended, h]

theorem jobOf_advancePtr (id : Nat) (st : Stream) (d : Device) : jobOf id (advancePtr st d) = jobOf id d :=
  congrArg (List.find? _) (advanceGo_jobs _ _ d)

theorem finishJob_hasLeft {j : Job} (b : Nat) (code : Code) (staged : Option Staged) {d : Device} (hj : (jobOf j.id d).isSome = true) :
    hasLeft j.id b code staged (releaseAt j code d) (finishJob j b code staged d) := by
  have hsettled : releaseAt j code (settled j b code d) = releaseAt j code d := releaseAt_of_time (time_of_standing (settled_standing j b code d) :)
  have hthere : (jobOf j.id (left j (releaseAt j code (settled j b code d)) (settled j b code d))).isSome = true := by
    rw [isSome_of_aside ((left_aside j _ _).trans (settled_aside j b code d)), hj]
  obtain ⟨k, hk⟩ := Option.isSome_iff_exists.mp hthere
  rw [finishJob_eq]
  dsimp only
  refine ⟨_, (jobOf_advancePtr _ _ _).trans (jobOf_modJob_self ?_ hk), rfl, rfl, rfl, congrArg some hsettled⟩
  exact fun _ _ => rfl

theorem finishJob_keepsRest (j : Job) (b : Nat) (code : Code) (staged : Option Staged) (d : Device) :
    keepsRest (finishJob j b code staged d) d := by
  refine keepsRest_of_views (id := j.id + 1) ?_ ?_ ?_
  · rw [finishJob_eq, advancePtr_aside]
    refine (modJob_aside_of_ne ?_ (Nat.ne_of_lt (Nat.lt_succ_self _))).trans ((left_aside _ _ _).trans (settled_aside _ _ _ _))
    exact fun _ _ => rfl
  · rw [finishJob_eq, advancePtr_standing, modJob_standing, left_standing, settled_standing]
  · rw [finishJob_eq, advancePtr_outlying, modJob_outlying, left_outlying, settled_outlying]

/-! ### The decision of a Retire (04 R145, R146) -/

theorem retireJob_of_refused {j : Job} {verdict code : Code} (b st) (d : Device) (hcode : code = (if j.cancelMark then 0x0602 else verdict))
    (hrefused : code ≠ 0) : retireJob j b verdict st d = finishJob j b code none d := by
  subst hcode
  simp only [retireJob]
  exact if_pos hrefused

/-- A job that passes every check and needs no durable entry commits. -/
theorem retireJob_of_passed {j : Job} {st : Staged} {d : Device} (b : Nat) (hcancel : j.cancelMark = false) (hlocked : lockedAgainst j st d = false)
    (hlimits : limitsCode j.tenant st d = 0) (hquota : quotaCode j.tenant st d = 0) (hjournal : journalCode j.tenant st d = 0)
    (hservice : drawsNonce st = true → d.gather.service = true) (himage : writesImage st = false) (hgates : (handGates j st d).2 = [])
    (hhalf : st.half = false) (hmore : st.more = false) : retireJob j b 0 st d = commitJob j b st (handGates j st d).1 := by
  have hdraws : (drawsNonce st && !d.gather.service) = false := by
    cases hd : drawsNonce st with
    | false => rfl
    | true => rw [hservice hd]; rfl
  have hwaits : stepWaits j st d = false := by rw [stepWaits, hhalf, hmore]; rfl
  simp [retireJob, hcancel, hlocked, hlimits, hquota, hjournal, hdraws, hwaits, himage, hgates]

/-- The result of a job's last step, in the retire mirror. -/
def resultOf (j : Job) (st : Staged) (d : Device) : Staged :=
  { judged j st with aux := (writeIntents j st.intents (applyWrites j.id d)).2.getD st.aux, intents := [], progress := progressAfter j st }

/-- A commit of a last step writes the intents and leaves. -/
theorem commitJob_of_last {j : Job} {st : Staged} {d : Device} (b : Nat) (hhalf : st.half = false) (hmore : st.more = false)
    (hthere : (jobOf j.id (writeIntents j st.intents (applyWrites j.id d)).1).isSome = true) : commitJob j b st d =
      finishJob j b 0 (some (resultOf j st d))
        (modJob j.id (fun x => { x with progress := progressAfter j st }) (writeIntents j st.intents (applyWrites j.id d)).1) := by
  simp only [commitJob, hhalf, hmore, Option.isNone_eq_false_iff.mpr hthere, Bool.false_eq_true, if_false]
  rfl

theorem judged_of_no_pair {j : Job} {st : Staged} (h : st.pair = none) : judged j st = st := by simp only [judged, h]

/-- RETIRE of a job whose turn has come, without a fault. -/
theorem exec_retire {j : Job} {b : Nat} {st : Staged} {v : Code} {s : State} (hj : jobOf j.id s.dev = some j) (hplace : j.place = .pending b)
    (hst : j.staged = some st) (hv : j.verdict = some v) (hdurable : j.durable = false) (hruns : benchRuns b s.dev = true)
    (hturn : mayRetire j s.dev = true) (hresets : resetWaits j st s.dev = false) (hconversion : conversionBlocks st s.dev = false) :
    exec (.retire j.id .none) s = .next { s with dev := retireJob j b v st s.dev } := by
  have hstill : stillAt j.id (.pending b) s.dev = true := by simp [stillAt, hj, hplace]
  show execRetire j.id .none s = _
  simp [execRetire, runDev, hj, hplace, hst, hv, hdurable, hruns, hturn, hresets, hconversion, unitFault, hstill]

/-- Settles O25: a refused job leaves with its code; one that passes commits and leaves with its result. -/
theorem retireDecidesTheOutcome : Obligations.RetireDecidesTheOutcome := by
  intro j b st v s hj hplace hst hv hdurable hruns hturn hresets hconversion
  have hexec := exec_retire hj hplace hst hv hdurable hruns hturn hresets hconversion
  refine ⟨fun code hcode hrefused => ⟨_, hexec, ?_⟩, ?_⟩
  · dsimp only
    rw [retireJob_of_refused b st s.dev hcode hrefused]
    obtain ⟨k, hk, hretired, hkcode, hmirror, hat⟩ := finishJob_hasLeft b code none (Option.isSome_of_eq_some hj)
    exact ⟨k, hk, hretired, hkcode, hmirror, hat, finishJob_keepsRest j b code none s.dev⟩
  · intro hcancel hzero hlocked hlimits hquota hjournal hservice himage hgates hhalf hmore e hthere
    subst hzero
    refine ⟨_, hexec, ?_⟩
    dsimp only
    rw [retireJob_of_passed b hcancel hlocked hlimits hquota hjournal hservice himage hgates hhalf hmore,
      commitJob_of_last b hhalf hmore hthere]
    let m := resultOf j st (handGates j st s.dev).1
    let x := modJob j.id (fun x => { x with progress := progressAfter j st }) e
    have hthere' : (jobOf j.id x).isSome = true := by
      obtain ⟨y, hy⟩ := Option.isSome_iff_exists.mp hthere
      exact Option.isSome_of_eq_some (jobOf_modJob_self (f := fun x => { x with progress := progressAfter j st }) (fun _ _ => rfl) hy)
    obtain ⟨k, hk, hretired, hkcode, hmirror, hat⟩ := finishJob_hasLeft b 0 (some m) hthere'
    obtain ⟨hkeys, hfuses, hcustody, hnet⟩ := finishJob_keepsRest j b 0 (some m) x
    have hresult : st.pair = none → m.output = st.output ∧ m.verdict = st.verdict := by
      intro hpair
      have hjudged := judged_of_no_pair (j := j) hpair
      exact ⟨(congrArg Staged.output hjudged :), (congrArg Staged.verdict hjudged :)⟩
    exact ⟨k, m, hk, hretired, hkcode, hmirror, rfl, rfl, hresult, hat, hkeys, hfuses, hnet, hcustody⟩

end Sys2Proof.Machine
end

section
/-! SUPPORT. What leaves the part touches only the host's and the network's side (12 R432; 13 R468, R480 to R489). -/

namespace Sys2Proof.Machine

/-! ### Off the wire -/

/-- The device without the host, the network, the events and what has left the part. -/
def offwire (d : Device) : Device := { d with host := {}, net := {}, events := {}, out := [] }

theorem offwire_mk {host net events out : _} (d : Device) : offwire { d with host, net, events, out } = offwire d := rfl
/-- A choice between two updates that keep a view keeps it. -/
theorem both_kept {β : Type} {view : Device → β} {c : Prop} [Decidable c] {x y d : Device} (hx : view x = view d) (hy : view y = view d) :
    view (if c then x else y) = view d := by
  split
  · exact hx
  · exact hy
theorem doIf_offwire {c : Bool} {f : Device → Device} {d : Device} (h : offwire (f d) = offwire d) : offwire (doIf c f d) = offwire d := ite_kept h

/-! ### The host (12) -/

theorem modFn_offwire (f g) (d : Device) : offwire (modFn f g d) = offwire d := rfl
theorem fireVector_offwire (f v) (d : Device) : offwire (fireVector f v d) = offwire d := by
  unfold fireVector
  split <;> rfl
theorem denied_offwire (f purpose write addr) (d : Device) : offwire (denied f purpose write addr d) = offwire d :=
  (fireVector_offwire _ _ _).trans rfl
theorem queueFault_offwire (f q cause) (d : Device) : offwire (queueFault f q cause d) = offwire d := (fireVector_offwire _ _ _).trans rfl
theorem fireDue_offwire (f q) (d : Device) : offwire (fireDue f q d) = offwire d := by
  unfold fireDue
  dsimp only
  split
  · exact (fireVector_offwire _ _ _).trans rfl
  · rfl
/-- The end of a completion: the queue and the function settle. -/
theorem settle_offwire (f q) (d : Device) : offwire (settleQuiesce f (settleQueue f q d)) = offwire d := rfl
theorem complete_offwire (f q cid inc a outAddr) (d : Device) : offwire (complete f q cid inc a outAddr d) = offwire d := by
  have lost : ∀ (c : Bool) (g : Queue → Queue) (x : Device),
      offwire (if c then fnCount f 9 (modQueue f q g x) else modQueue f q g x) = offwire x := by
    intro c g x
    split <;> rfl
  have refused : ∀ (bad : Option Nat) (xs : List Output),
      offwire { doWith bad (fun addr => denied f 3 true addr) d with out := xs } = offwire d := by
    intro bad xs
    exact (doWith_kept (view := offwire) fun _ _ => denied_offwire _ _ _ _ _)
  unfold complete
  dsimp only
  refine both_kept ((settle_offwire f q _).trans (lost _ _ d)) (both_kept ?_ (both_kept ?_ ?_))
  · rw [settle_offwire, lost, refused]
  · rw [settle_offwire, ite_kept (fireDue_offwire _ _ _)]
    exact refused _ []
  · rw [settle_offwire, lost, queueFault_offwire, denied_offwire, refused]

/-! ### The network (13) -/

theorem modPath_offwire (isB f) (d : Device) : offwire (modPath isB f d) = offwire d := rfl
theorem tableWrite_offwire (isB f) (d : Device) : offwire (tableWrite isB f d) = offwire d := by
  unfold tableWrite
  split <;> rfl
theorem pathWrite_offwire (i f) (d : Device) : offwire (pathWrite i f d) = offwire d := tableWrite_offwire _ _ d
theorem sendOn_offwire (isB dest h payload tag) (d : Device) : offwire (sendOn isB dest h payload tag d) = offwire d := by
  unfold sendOn
  dsimp only
  split
  · rfl
  · split
    · split <;> rfl
    · rfl
theorem sendSession_offwire (i type plain) (d : Device) : offwire (sendSession i type plain d) = offwire d := by
  unfold sendSession
  dsimp only
  rw [sendOn_offwire, sendOn_offwire]
  refine Eq.trans (b := offwire (closeExhausted i _)) rfl ?_
  rw [closeExhausted, doIf_offwire (pathWrite_offwire _ _ _), raiseCeiling, doIf_offwire (pathWrite_offwire _ _ _)]
  rfl
theorem releaseFrame_offwire (i type plain) (d : Device) : offwire (releaseFrame i type plain d) = offwire d := by
  rw [releaseFrame, enterEgress, enterEgress, modPath_offwire, modPath_offwire, sendSession_offwire]
theorem sendResponse_offwire (id seq a) (d : Device) : offwire (sendResponse id seq a d) = offwire d := by
  unfold sendResponse
  dsimp only
  split
  · rfl
  · exact releaseFrame_offwire _ _ _ d
theorem nextEpoch_offwire (i) (d : Device) : offwire (nextEpoch i d) = offwire d := by
  unfold nextEpoch
  dsimp only
  split
  · rfl
  · split
    · rfl
    · exact (modPath_offwire _ _ _).trans (pathWrite_offwire _ _ d)
theorem sendReply_offwire (r) (d : Device) : offwire (sendReply r d) = offwire d := by
  unfold sendReply
  dsimp only
  split
  · rfl
  · split
    · rfl
    · rw [ite_kept (nextEpoch_offwire _ _), releaseFrame_offwire]
theorem sendReplies_offwire (d : Device) : offwire (sendReplies d) = offwire d := (doEach_kept sendReply_offwire).trans rfl
theorem closeSessions_offwire (d : Device) : offwire (closeSessions d) = offwire d := by
  refine doEach_kept fun p x => ?_
  split
  · rfl
  · exact (pathWrite_offwire _ _ _).trans (releaseFrame_offwire _ _ _ x)

end Sys2Proof.Machine
end

section
/-! SUPPORT. The release grid (04 R151, R152, R167), and O27. -/

namespace Sys2Proof.Machine

/-! ### What a release keeps -/

/-- Of a job its identifier, when it is releasable, and its origin. -/
def tag (j : Job) : Nat × Option Nat × Origin := (j.id, j.releasable, j.origin)
/-- Of the device the timebase, the fuses and the key store but for its ports, and the jobs' tags. -/
def roster (d : Device) : Device × List (Nat × Option Nat × Origin) :=
  ({ time := d.time, fuses := d.fuses, keys := { d.keys with ports := [] } }, d.gaffer.jobs.map tag)

theorem roster_of_offwire {d e : Device} (h : offwire d = offwire e) : roster d = roster e := (congrArg roster h :)
theorem benches_of_offwire {d e : Device} (h : offwire d = offwire e) : d.benches = e.benches := congrArg (·.benches) h
theorem gaffer_of_offwire {d e : Device} (h : offwire d = offwire e) : d.gaffer = e.gaffer := congrArg (·.gaffer) h

section
variable {d e : Device} (h : (roster d).1 = (roster e).1)
include h
theorem time_of_roster : d.time = e.time := congrArg (·.time) h
theorem fuses_of_roster : d.fuses = e.fuses := congrArg (·.fuses) h
theorem keys_of_roster : d.keys = { e.keys with ports := d.keys.ports } := congrArg (fun x => { x.keys with ports := d.keys.ports }) h
theorem sweeps_of_roster : d.keys.sweeps = e.keys.sweeps := congrArg (·.keys.sweeps) h
end

theorem isReleasable_congr {d e : Device} {j k : Job} (htime : d.time = e.time) (h : tag j = tag k) : isReleasable d j = isReleasable e k := by
  simp only [tag, Prod.mk.injEq] at h
  obtain ⟨-, hreleasable, -⟩ := h
  unfold isReleasable
  rw [htime, hreleasable]

/-! ### A job leaves (04 R151) -/

theorem modUnit_roster (c f) (d : Device) : roster (modUnit c f d) = roster d := by
  unfold modUnit
  split <;> rfl
theorem modJob_roster {id : Nat} {f : Job → Job} (hf : ∀ j, tag (f j) = tag j) (d : Device) : roster (modJob id f d) = roster d := by
  refine congrArg (Prod.mk (roster d).1) ?_
  simp only [modJob, List.map_map]
  refine List.map_congr_left fun j _ => ?_
  simp only [Function.comp]
  split
  · exact hf j
  · rfl
theorem freeJobCore_roster (j) (d : Device) : roster (freeJobCore j d) = roster d := by
  refine doWith_kept fun c x => ?_
  rw [freeCore, doWith_kept fun _ _ => modJob_roster (by exact fun _ => rfl) _, modUnit_roster]

/-- The job is gone and its core is free. -/
def departed (j : Job) (d : Device) : Device :=
  let d := freeJobCore j { d with gaffer := { d.gaffer with jobs := d.gaffer.jobs.filter (fun o => o.id ≠ j.id) } }
  doWith (lehrOf j d) (fun b => modBench b (fun x => { x with lehr := { x.lehr with lastGrid := watch d } })) d

theorem departed_roster (j) (d : Device) : roster (departed j d) = ((roster d).1, (roster d).2.filter (fun t => t.1 ≠ j.id)) := by
  simp only [departed]
  refine (doWith_kept (view := roster) ?_).trans ((freeJobCore_roster j _).trans (congrArg (Prod.mk _) ?_))
  · exact fun _ _ => rfl
  · exact (List.filter_map (f := tag) (p := fun t => decide (t.1 ≠ j.id))).symm

/-- A job of the background leaves behind what its sweeps enter. -/
theorem releaseJob_of_background {j : Job} (d : Device) (h : j.origin = .background) :
    releaseJob j d = doEach ((departed j d).keys.sweeps.filter (fun p => decide (p.2.job = some j.id))) (fun p => enterSweep p.1 1) (departed j d) := by
  simp only [releaseJob, h]
  rfl
/-- Any other job leaves behind what goes off the wire. -/
theorem releaseJob_offwire {j : Job} (d : Device) (h : j.origin ≠ .background) : offwire (releaseJob j d) = offwire (departed j d) := by
  unfold releaseJob
  dsimp only
  split
  · exact sendResponse_offwire _ _ _ _
  · split
    · exact ite_kept rfl
    · exact complete_offwire _ _ _ _ _ _ _
  · next horigin => exact absurd horigin h

/-- No sweep waits for a job of the background. -/
def unswept (j : Job) (d : Device) : Prop := j.origin = .background → ∀ p ∈ d.keys.sweeps, p.2.job ≠ some j.id

theorem releaseJob_roster {j : Job} {d : Device} (h : unswept j d) :
    roster (releaseJob j d) = ((roster d).1, (roster d).2.filter (fun t => t.1 ≠ j.id)) := by
  by_cases horigin : j.origin = .background
  · have hsweeps : (departed j d).keys.sweeps = d.keys.sweeps := sweeps_of_roster (e := d) (congrArg Prod.fst (departed_roster j d) :)
    have hnone : d.keys.sweeps.filter (fun p => decide (p.2.job = some j.id)) = [] :=
      List.filter_eq_nil_iff.mpr fun p hp => by simpa using h horigin p hp
    rw [releaseJob_of_background d horigin, hsweeps, hnone]
    exact departed_roster j d
  · rw [roster_of_offwire (releaseJob_offwire d horigin), departed_roster]

/-! ### The jobs that leave at a grid point (04 R152) -/

theorem mem_of_nextToLeave {used : Tab Nat} {d : Device} {j : Job} (h : nextToLeave used d = some j) :
    j ∈ d.gaffer.jobs ∧ isReleasable d j = true := by
  have hmem := List.mem_filter.mp (mem_of_leastBy h)
  simp only [Bool.and_eq_true] at hmem
  obtain ⟨hj, ⟨⟨hdue, -⟩, -⟩, -⟩ := hmem
  exact ⟨hj, hdue⟩

/-- From the one device to the other only jobs that had become releasable have left. -/
def leftOf (d e : Device) : Prop :=
  (roster e).1 = (roster d).1 ∧ (∀ k ∈ e.gaffer.jobs, ∃ j ∈ d.gaffer.jobs, tag j = tag k) ∧
    ∀ j ∈ d.gaffer.jobs, isReleasable d j = true ∨ ∃ k ∈ e.gaffer.jobs, tag k = tag j

theorem leftOf_refl (d : Device) : leftOf d d := ⟨rfl, fun k hk => ⟨k, hk, rfl⟩, fun j hj => .inr ⟨j, hj, rfl⟩⟩

theorem leftOf_releaseJob {d e : Device} {j : Job} (hids : (d.gaffer.jobs.map (·.id)).Nodup) (h : leftOf d e) (hj : j ∈ e.gaffer.jobs)
    (hdue : isReleasable e j = true) (hswept : unswept j e) : leftOf d (releaseJob j e) := by
  obtain ⟨hrest, hfrom, hgone⟩ := h
  have hroster := releaseJob_roster hswept
  have htags : (releaseJob j e).gaffer.jobs.map tag = (e.gaffer.jobs.map tag).filter (fun t => t.1 ≠ j.id) := congrArg Prod.snd hroster
  have hstays : ∀ t, t ∈ (releaseJob j e).gaffer.jobs.map tag ↔ t ∈ e.gaffer.jobs.map tag ∧ t.1 ≠ j.id := fun t => by
    rw [htags, List.mem_filter, decide_eq_true_eq]
  refine ⟨(congrArg Prod.fst hroster).trans hrest, fun k hk => ?_, fun i hi => ?_⟩
  · obtain ⟨x, hx, hxk⟩ := List.mem_map.mp ((hstays (tag k)).mp (List.mem_map_of_mem hk)).1
    obtain ⟨y, hy, hyx⟩ := hfrom x hx
    exact ⟨y, hy, hyx.trans hxk⟩
  · rcases hgone i hi with hreleasable | ⟨k, hk, hki⟩
    · exact .inl hreleasable
    · by_cases hid : i.id = j.id
      · left
        obtain ⟨y, hy, hyj⟩ := hfrom j hj
        have hyi : y = i := List.inj_on_of_nodup_map hids hy hi ((congrArg Prod.fst hyj).trans hid.symm)
        rw [← isReleasable_congr (time_of_roster hrest) (hyi ▸ hyj).symm]
        exact hdue
      · right
        exact List.mem_map.mp ((hstays (tag i)).mpr ⟨List.mem_map.mpr ⟨k, hk, hki⟩, hid⟩)

theorem unswept_of_leftOf {d e : Device} (h : leftOf d e) (hd : ∀ j ∈ d.gaffer.jobs, isReleasable d j = true → unswept j d) {j : Job}
    (hj : j ∈ e.gaffer.jobs) (hdue : isReleasable e j = true) : unswept j e := by
  obtain ⟨hrest, hfrom, -⟩ := h
  obtain ⟨i, hi, hij⟩ := hfrom j hj
  intro horigin p hp
  have hreleasable : isReleasable d i = true := by rw [← isReleasable_congr (time_of_roster hrest) hij.symm, hdue]
  simp only [tag, Prod.mk.injEq] at hij
  obtain ⟨hid, -, hsame⟩ := hij
  rw [sweeps_of_roster hrest] at hp
  rw [← hid]
  exact hd i hi hreleasable (hsame.trans horigin) p hp

/-- The jobs of a grid point leave one after the other, each of them releasable. -/
theorem leftOf_releaseGo {d : Device} (hids : (d.gaffer.jobs.map (·.id)).Nodup)
    (hd : ∀ j ∈ d.gaffer.jobs, isReleasable d j = true → unswept j d) (fuel : Nat) (used : Tab Nat) {e : Device} (h : leftOf d e) :
    leftOf d (releaseGo fuel used e).1 := by
  induction fuel generalizing used e with
  | zero => exact h
  | succ fuel ih =>
    unfold releaseGo
    split
    · exact h
    · next j hj =>
      obtain ⟨hmem, hdue⟩ := mem_of_nextToLeave hj
      exact ih _ (leftOf_releaseJob hids h hmem hdue (unswept_of_leftOf h hd hmem hdue))

/-! ### After the jobs have left -/

/-- The device without its benches, the host, the network, the events and what has left the part. -/
def inward (d : Device) : Device := { offwire d with benches := [] }
theorem inward_of_offwire {d e : Device} (h : offwire d = offwire e) : inward d = inward e := congrArg (fun x => { x with benches := [] }) h
theorem roster_of_inward {d e : Device} (h : inward d = inward e) : roster d = roster e := (congrArg roster h :)
theorem gaffer_of_inward {d e : Device} (h : inward d = inward e) : d.gaffer = e.gaffer := congrArg (·.gaffer) h
theorem keys_of_inward {d e : Device} (h : inward d = inward e) : d.keys = e.keys := congrArg (·.keys) h

theorem leaveEgress_inward (isB n) (d : Device) : inward (leaveEgress isB n d) = inward d := rfl
theorem countDeferrals_inward (d : Device) : inward (countDeferrals d) = inward d := doEach_kept fun _ _ => rfl

/-- The grid point is served: deferrals are counted, the benches note it, and what waits for the network goes out. -/
def served (d : Device) : Device := closeSessions (sendReplies (markGrid (countDeferrals d)))

theorem served_offwire (d : Device) : offwire (served d) = offwire (markGrid (countDeferrals d)) :=
  (closeSessions_offwire _).trans (sendReplies_offwire _)
theorem served_inward (d : Device) : inward (served d) = inward d :=
  (inward_of_offwire (served_offwire d)).trans (countDeferrals_inward d)
theorem served_gridDone (d : Device) : ∀ p ∈ (served d).benches, p.2.lehr.gridDone = some d.time.ticks := by
  intro p hp
  rw [benches_of_offwire (served_offwire d)] at hp
  obtain ⟨q, -, rfl⟩ := List.mem_map.mp hp
  exact congrArg (fun x => some x.time.ticks) (countDeferrals_inward d)

theorem gridPoint_eq (leftA leftB : Nat) (d : Device) : gridPoint leftA leftB d =
    dispatchAll (offerSweeps (served (releaseGo d.gaffer.jobs.length [] (leaveEgress false leftA (leaveEgress true leftB d))).1)) := rfl

/-- Every sweep that is active waits for its ring or has its job. -/
def sweepsBusy (k : KeyStore) : Prop := ∀ p ∈ k.sweeps, p.2.active = true → p.2.waiting = true ∨ p.2.job.isSome = true
theorem offerSweeps_of_busy {d : Device} (h : sweepsBusy d.keys) : offerSweeps d = d := by
  have hnone : d.keys.sweeps.filter (fun p => p.2.active && !p.2.waiting && p.2.job.isNone) = [] := by
    refine List.filter_eq_nil_iff.mpr fun p hp hoffered => ?_
    simp only [Bool.and_eq_true, Bool.not_eq_true', Option.isNone_iff_eq_none] at hoffered
    obtain ⟨⟨hactive, hwaiting⟩, hjob⟩ := hoffered
    rcases h p hp hactive with hw | hj
    · simp [hw] at hwaiting
    · simp [hjob] at hj
  rw [offerSweeps, hnone]
  rfl

/-! ### A dispatch keeps the key store and the jobs' identifiers -/

/-- No job of the list has that identifier. -/
def absent (id : Nat) (d : Device) : Prop := id ∉ d.gaffer.jobs.map (·.id)

theorem absent_of_aside {id : Nat} {d e : Device} (h : aside id d = aside id e) (he : absent id e) : absent id d := by
  rw [absent, ids_of_aside h]
  exact he
theorem absent.ne_of_ready {id : Nat} {d : Device} (h : absent id d) {j : Job} (hj : j ∈ readyJobs d) : j.id ≠ id := by
  rintro rfl
  exact h (List.mem_map_of_mem (List.mem_of_mem_filter hj))
theorem expireHeads_aside_of_absent {id : Nat} (fuel : Nat) {d : Device} (h : absent id d) : aside id (expireHeads fuel d) = aside id d := by
  induction fuel generalizing d with
  | zero => rfl
  | succ fuel ih =>
    unfold expireHeads
    split
    · rfl
    · next j hj =>
      have hstep := expireJob_aside d (h.ne_of_ready (mem_of_leastBy hj))
      split
      · exact (ih (absent_of_aside hstep h)).trans hstep
      · rfl
theorem dispatchGo_aside_of_absent {id : Nat} (fuel : Nat) {d : Device} (h : absent id d) : aside id (dispatchGo fuel d) = aside id d := by
  induction fuel generalizing d with
  | zero => rfl
  | succ fuel ih =>
    unfold dispatchGo
    split
    · rfl
    · next c j hj =>
      have hstep := dispatchJob_aside c d (h.ne_of_ready (nextGrant_ready hj))
      exact (ih (absent_of_aside hstep h)).trans hstep
theorem dispatchAll_aside_of_absent {id : Nat} {d : Device} (h : absent id d) : aside id (dispatchAll d) = aside id d := by
  unfold dispatchAll
  split
  · have hheads := expireHeads_aside_of_absent d.gaffer.jobs.length h
    exact (dispatchGo_aside_of_absent _ (absent_of_aside hheads h)).trans hheads
  · rfl

/-! ### The grid point (04 R151, R152) -/

theorem exec_gridPoint {leftA leftB : Nat} {s : State} (hreset : outOfReset s.dev = true) (hstarted : started s.dev = true)
    (hcount : s.dev.time.ticks % 8 = 0) (hruns : s.dev.keys.halted = false) :
    exec (.gridPoint leftA leftB) s = .next { s with dev := gridPoint leftA leftB s.dev } :=
  next_doIf (by simp [hreset, hstarted, hcount, hruns])

theorem releaseGrid_keeps {leftA leftB : Nat} {d : Device} (hdistinct : jobsDistinct d) (hbusy : sweepsBusy d.keys)
    (hswept : ∀ j ∈ d.gaffer.jobs, isReleasable d j = true → unswept j d) :
    let e := gridPoint leftA leftB d
    (∀ j ∈ d.gaffer.jobs, (∀ k ∈ e.gaffer.jobs, k.id ≠ j.id) → isReleasable d j = true) ∧
    (∀ k ∈ e.gaffer.jobs, ∃ j ∈ d.gaffer.jobs, j.id = k.id) ∧
    (∀ p ∈ e.benches, p.2.lehr.gridDone = some d.time.ticks) ∧ e.fuses = d.fuses ∧ e.keys = { d.keys with ports := e.keys.ports } := by
  obtain ⟨hids, hbelow⟩ := hdistinct
  have hleft : leftOf d (releaseGo d.gaffer.jobs.length [] (leaveEgress false leftA (leaveEgress true leftB d))).1 :=
    leftOf_releaseGo hids hswept _ _ (leftOf_refl d)
  dsimp only
  rw [gridPoint_eq]
  generalize (releaseGo d.gaffer.jobs.length [] (leaveEgress false leftA (leaveEgress true leftB d))).1 = x at hleft ⊢
  obtain ⟨hrest, hfrom, hgone⟩ := hleft
  have hsame := served_inward x
  have hserved : (roster (served x)).1 = (roster d).1 := (congrArg Prod.fst (roster_of_inward hsame)).trans hrest
  have hjobs : (served x).gaffer.jobs = x.gaffer.jobs := congrArg Gaffer.jobs (gaffer_of_inward hsame)
  have hgrid : ∀ p ∈ (served x).benches, p.2.lehr.gridDone = some d.time.ticks := by
    rw [← time_of_roster hrest]
    exact served_gridDone x
  rw [offerSweeps_of_busy (by rw [sweepsBusy, sweeps_of_roster hserved]; exact hbusy)]
  have habsent : absent d.gaffer.nextJob (served x) := by
    intro hmem
    obtain ⟨k, hk, hid⟩ := List.mem_map.mp hmem
    obtain ⟨j, hj, htag⟩ := hfrom k (hjobs ▸ hk)
    have hlow := hbelow j hj
    have hjk : j.id = k.id := congrArg Prod.fst htag
    omega
  have haside := dispatchAll_aside_of_absent habsent
  have hids' : (dispatchAll (served x)).gaffer.jobs.map (·.id) = x.gaffer.jobs.map (·.id) := (ids_of_aside haside).trans (by rw [hjobs])
  have hcorresponds : ∀ id, id ∈ (dispatchAll (served x)).gaffer.jobs.map (·.id) ↔ id ∈ x.gaffer.jobs.map (·.id) := fun id => by rw [hids']
  refine ⟨fun j hj hnone => ?_, fun k hk => ?_, gridDone_of_outlying (dispatchAll_outlying _) hgrid, ?_, ?_⟩
  · refine (hgone j hj).resolve_right fun ⟨k, hk, htag⟩ => ?_
    obtain ⟨y, hy, hyk⟩ := List.mem_map.mp ((hcorresponds k.id).mpr (List.mem_map_of_mem hk))
    exact hnone y hy (hyk.trans (congrArg Prod.fst htag))
  · obtain ⟨y, hy, hyk⟩ := List.mem_map.mp ((hcorresponds k.id).mp (List.mem_map_of_mem hk))
    obtain ⟨j, hj, htag⟩ := hfrom y hy
    exact ⟨j, hj, (congrArg Prod.fst htag).trans hyk⟩
  · have hfuses : (dispatchAll (served x)).fuses = (served x).fuses := (fuses_of_standing (dispatchAll_standing (served x)) :)
    rw [hfuses, fuses_of_roster hserved]
  · have hkeys := keys_of_aside haside
    rw [keys_of_roster hserved] at hkeys
    exact hkeys

/-! ### A job that is alone leaves -/

theorem nextToLeave_of_alone {d : Device} {j : Job} (hjobs : d.gaffer.jobs = [j]) (hdue : isReleasable d j = true) (hplace : j.place = .answered)
    (horigin : ∀ id seq, j.origin ≠ .htl id seq) : nextToLeave [] d = some j := by
  have hfirst : firstOfStream j d = true := by simp [firstOfStream, hjobs]
  have hroom : lehrRoom [] j d = true := by simp [lehrRoom, lehrOf, hplace]
  have htakes : transportTakes j d = true := by
    unfold transportTakes
    split
    · next id seq h => exact absurd h (horigin id seq)
    · rfl
  simp [nextToLeave, hjobs, hdue, hfirst, hroom, htakes, leastBy]

/-- The grid point of a job that is alone. -/
theorem gridPoint_of_alone {leftA leftB : Nat} {d : Device} {j : Job} (hjobs : d.gaffer.jobs = [j]) (hdue : isReleasable d j = true)
    (hplace : j.place = .answered) (horigin : ∀ id seq, j.origin ≠ .htl id seq) : gridPoint leftA leftB d =
      dispatchAll (offerSweeps (served (releaseJob j (leaveEgress false leftA (leaveEgress true leftB d))))) := by
  have hnext : nextToLeave [] (leaveEgress false leftA (leaveEgress true leftB d)) = some j := nextToLeave_of_alone hjobs hdue hplace horigin
  rw [gridPoint_eq, hjobs]
  show dispatchAll (offerSweeps (served (releaseGo 1 [] _).1)) = _
  rw [releaseGo, hnext]
  rfl

theorem releaseGrid_of_alone {leftA leftB : Nat} {d : Device} {j : Job} (hjobs : d.gaffer.jobs = [j]) (hdue : isReleasable d j = true)
    (hplace : j.place = .answered) (horigin : ∀ id seq, j.origin ≠ .htl id seq) (hbusy : sweepsBusy d.keys) (hswept : unswept j d) :
    (gridPoint leftA leftB d).gaffer.jobs = [] := by
  rw [gridPoint_of_alone hjobs hdue hplace horigin]
  let e := leaveEgress false leftA (leaveEgress true leftB d)
  have hroster : roster (served (releaseJob j e)) = ((roster d).1, (roster d).2.filter (fun t => t.1 ≠ j.id)) :=
    (roster_of_inward (served_inward _)).trans (releaseJob_roster (d := e) hswept)
  have hnone : (served (releaseJob j e)).gaffer.jobs = [] := by
    have htags : (served (releaseJob j e)).gaffer.jobs.map tag = (d.gaffer.jobs.map tag).filter (fun t => t.1 ≠ j.id) := congrArg Prod.snd hroster
    rw [hjobs] at htags
    simpa [tag] using htags
  rw [offerSweeps_of_busy (by rw [sweepsBusy, sweeps_of_roster (e := d) (congrArg Prod.fst hroster :)]; exact hbusy),
    dispatchAll_of_no_ready (by rw [readyJobs, hnone]; rfl), hnone]

/-! ### The next step of a sweep (04 R167; 05 R177) -/

/-- A later step of a sweep, under that identifier. -/
structure SweepStep (n id : Nat) (k : Job) : Prop where
  id : k.id = id
  step : k.step = 1
  stream : k.stream = .background n
  origin : k.origin = .background
  tenant : k.tenant = 0
  inputFault : k.inputFault = 0

theorem SweepStep.granted {n id : Nat} {c : CoreRef} {d : Device} {j k : Job} (hj : SweepStep n id j) (h : GrantedAs c d j k) : SweepStep n id k :=
  ⟨h.id.trans hj.id, h.step.trans hj.step, h.stream.trans hj.stream, h.origin.trans hj.origin, h.tenant.trans hj.tenant,
    h.inputFault.trans hj.inputFault⟩

/-- A step of a sweep that is alone stays alone at a dispatch. -/
theorem dispatchAll_of_sweepStep {n id : Nat} {k : Job} {d : Device} (hjobs : d.gaffer.jobs = [k]) (hk : SweepStep n id k) :
    (∃ x, (dispatchAll d).gaffer.jobs = [x] ∧ SweepStep n id x) ∧ (dispatchAll d).keys = d.keys := by
  have hready : ∀ x ∈ readyJobs d, x = k := fun x hx => by
    have hmem := List.mem_of_mem_filter hx
    rwa [hjobs, List.mem_singleton] at hmem
  have hunexpired : ∀ x ∈ readyJobs d, expired d x = false := fun x hx => by simp [hready x hx, expired, hk.step]
  unfold dispatchAll
  split
  · rw [expireHeads_of_unexpired hunexpired]
    dsimp only
    rw [hjobs]
    show (∃ x, (dispatchGo 1 d).gaffer.jobs = [x] ∧ _) ∧ (dispatchGo 1 d).keys = d.keys
    unfold dispatchGo
    split
    · exact ⟨⟨k, hjobs, hk⟩, rfl⟩
    · next c j hj =>
      obtain rfl := hready j (nextGrant_ready hj)
      have hread : unread (decodeRead j d).1 = false := by simp [decodeRead, hk.origin, unread, hk.inputFault]
      obtain ⟨x, g, hx, hg, -, heq⟩ := dispatchJob_of_read (c := c) hread
      show (∃ x, (dispatchJob c j d).gaffer.jobs = [x] ∧ _) ∧ (dispatchJob c j d).keys = d.keys
      rw [heq, traceJob_frame]
      refine ⟨⟨x, ?_, hk.granted hx⟩, rfl⟩
      rw [traceJob_gaffer]
      show g.jobs.map _ = [x]
      simp [hg, hjobs]
  · exact ⟨⟨k, hjobs, hk⟩, rfl⟩

theorem not_reached_ahead (d : Device) : reached (BitVec.ofNat 48 (d.time.ticks + 32000)) d = false := by
  unfold reached ticksUntil extended
  rw [BitVec.ofNat_add, BitVec.add_comm, BitVec.add_sub_cancel]
  decide

theorem wake_gaffer_keys (cause counter) (d : Device) : (wake cause counter d).gaffer = d.gaffer ∧ (wake cause counter d).keys = d.keys := by
  unfold wake
  split
  · exact ⟨rfl, rfl⟩
  · split <;> exact ⟨rfl, rfl⟩
  · exact ⟨rfl, rfl⟩

/-- The list with the step of a sweep that has just entered. -/
def entered (n : Nat) (k : Job) (d : Device) : Device :=
  { d with gaffer := { d.gaffer with nextJob := d.gaffer.nextJob + 1, arrivals := d.gaffer.arrivals + 1, jobs := d.gaffer.jobs ++ [k]
                                     tickets := assocSet (.background n) (ticketOf (.background n) d + 1) d.gaffer.tickets } }

/-- A background step names no verb, so that it keeps its sweep's stream, and its deadline lies ahead. -/
theorem enterBackground_eq (n : Nat) (d : Device) : ∃ k, SweepStep n d.gaffer.nextJob k ∧
    enterBackground n 1 d = dispatchAll (wake 2 2 (gafCount 0 (entered n k d))) := by
  unfold enterBackground enterJob
  dsimp only [ownStream]
  rw [show ∀ t : Nat, steppedJob d t (0 : BitVec 16).toNat [] [] 0 = false from fun _ => rfl]
  simp only [Bool.false_eq_true, if_false, not_reached_ahead]
  refine ⟨_, ?_, rfl⟩
  exact ⟨rfl, rfl, rfl, rfl, rfl, rfl⟩

/-- A background step that enters an empty list is alone. -/
theorem enterBackground_of_empty {n : Nat} {d : Device} (hjobs : d.gaffer.jobs = []) :
    (∃ k, (enterBackground n 1 d).gaffer.jobs = [k] ∧ SweepStep n d.gaffer.nextJob k) ∧ (enterBackground n 1 d).keys = d.keys := by
  obtain ⟨k, hk, heq⟩ := enterBackground_eq n d
  obtain ⟨hgaffer, hkeys⟩ := wake_gaffer_keys 2 2 (gafCount 0 (entered n k d))
  obtain ⟨hone, hkept⟩ := dispatchAll_of_sweepStep (d := wake 2 2 (gafCount 0 (entered n k d))) (by rw [hgaffer]; simp [entered, hjobs, gafCount]) hk
  rw [heq]
  exact ⟨hone, hkept.trans hkeys⟩

/-- The one sweep enters its next step. -/
theorem enterSweep_of_empty {n : Nat} {w : Sweep} {d : Device} (hjobs : d.gaffer.jobs = []) (hsweeps : d.keys.sweeps = [(n, w)])
    (hactive : w.active = true) (hwaiting : w.waiting = false) (hcap : 0 < (tenantOf 0 d).readyCap) :
    (∃ k, (enterSweep n 1 d).gaffer.jobs = [k] ∧ SweepStep n d.gaffer.nextJob k) ∧
      (enterSweep n 1 d).keys.sweeps = [(n, { w with job := some d.gaffer.nextJob })] := by
  have hw : tabGetD n {} d.keys.sweeps = w := by simp [hsweeps, tabGetD, tabGet]
  have hroom : listFull 0 d = false := by simp [listFull, readyJobs, tenantReady, hjobs]; omega
  unfold enterSweep
  simp only [hw, hactive, hwaiting, hroom, Bool.not_false, Bool.and_self, if_true]
  obtain ⟨hone, hkeys⟩ := enterBackground_of_empty (n := n)
    (d := { d with keys := modSweep n (fun w => { w with job := some d.gaffer.nextJob }) d.keys }) hjobs
  refine ⟨hone, ?_⟩
  rw [hkeys]
  simp [modSweep, hsweeps, tabMod, hactive, hwaiting]

theorem freeJobCore_gaffer_of_empty (j : Job) {d : Device} (h : d.gaffer.jobs = []) : (freeJobCore j d).gaffer = d.gaffer := by
  have hsame : ∀ f : Job → Job, { d.gaffer with jobs := d.gaffer.jobs.map f } = d.gaffer := fun f => by rw [h, List.map_nil, ← h]
  unfold freeJobCore
  cases coreOfJob j with
  | none => rfl
  | some c =>
    show (freeCore c d).gaffer = d.gaffer
    unfold freeCore
    cases (coreOf c d).job with
    | none => exact modUnit_gaffer _ _ d
    | some id => simp only [doWith, modJob, modUnit_gaffer, hsame]

/-- A job that was alone leaves an empty list. -/
theorem departed_gaffer_of_alone {j : Job} {d : Device} (h : d.gaffer.jobs = [j]) : (departed j d).gaffer = { d.gaffer with jobs := [] } := by
  have hempty : d.gaffer.jobs.filter (fun o => o.id ≠ j.id) = [] := by simp [h]
  simp only [departed]
  rw [doWith_kept (view := (·.gaffer)) (f := fun b => modBench b _) fun _ _ => rfl, hempty, freeJobCore_gaffer_of_empty j rfl]

/-- The step of the one sweep is followed by the next. -/
theorem releaseGrid_of_sweep {leftA leftB n : Nat} {w : Sweep} {d : Device} {j : Job} (hjobs : d.gaffer.jobs = [j])
    (hdue : isReleasable d j = true) (hplace : j.place = .answered) (horigin : j.origin = .background) (hsweeps : d.keys.sweeps = [(n, w)])
    (hjob : w.job = some j.id) (hactive : w.active = true) (hwaiting : w.waiting = false) (hcap : 0 < (tenantOf 0 d).readyCap) :
    ∃ k, (gridPoint leftA leftB d).gaffer.jobs = [k] ∧ SweepStep n d.gaffer.nextJob k := by
  rw [gridPoint_of_alone hjobs hdue hplace (by simp [horigin])]
  let e := leaveEgress false leftA (leaveEgress true leftB d)
  have hgaffer : (departed j e).gaffer = { d.gaffer with jobs := [] } := departed_gaffer_of_alone (d := e) hjobs
  have hkept : (departed j e).keys.sweeps = [(n, w)] := by
    rw [sweeps_of_roster (e := d) (congrArg Prod.fst (departed_roster j e) :), hsweeps]
  have hrelease : releaseJob j e = enterSweep n 1 (departed j e) := by
    rw [releaseJob_of_background e horigin, hkept]
    simp [hjob, doEach]
  obtain ⟨⟨k, hk, hstep⟩, hentered⟩ := enterSweep_of_empty (n := n) (d := departed j e) (by rw [hgaffer]) hkept hactive hwaiting
    (by rw [tenantOf, hgaffer]; exact hcap)
  rw [← hrelease] at hk hentered
  have hsame := served_inward (releaseJob j e)
  have hbusy : sweepsBusy (served (releaseJob j e)).keys := by
    rw [keys_of_inward hsame, sweepsBusy, hentered]
    simp
  rw [offerSweeps_of_busy hbusy]
  obtain ⟨hone, -⟩ := dispatchAll_of_sweepStep (d := served (releaseJob j e)) (by rw [gaffer_of_inward hsame, hk]) hstep
  rw [hgaffer] at hone
  exact hone

/-- Settles O27: a grid point lets releasable jobs go and notes that it was served; a job that is alone leaves, and a sweep goes on. -/
theorem theReleaseGridReleases : Obligations.TheReleaseGridReleases := by
  refine ⟨fun leftA leftB s hreset hstarted hcount hruns hdistinct hbusy hswept => ?_,
    fun leftA leftB j s hreset hstarted hcount hruns hjobs hdue hplace => ⟨fun hbusy => ⟨?_, ?_⟩, ?_⟩⟩
  · exact ⟨_, exec_gridPoint hreset hstarted hcount hruns,
      releaseGrid_keeps hdistinct hbusy fun j hj hdue horigin => hswept j hj horigin hdue⟩
  · intro f q cid ia il oa horigin
    exact ⟨_, exec_gridPoint hreset hstarted hcount hruns,
      releaseGrid_of_alone hjobs hdue hplace (by simp [horigin]) hbusy fun h => by simp [horigin] at h⟩
  · intro horigin hswept
    exact ⟨_, exec_gridPoint hreset hstarted hcount hruns,
      releaseGrid_of_alone hjobs hdue hplace (by simp [horigin]) hbusy fun _ => hswept⟩
  · intro n w horigin hsweeps hjob hactive hwaiting hcap
    obtain ⟨k, hk, hstep⟩ :=
      releaseGrid_of_sweep (leftA := leftA) (leftB := leftB) hjobs hdue hplace horigin hsweeps hjob hactive hwaiting hcap
    exact ⟨_, exec_gridPoint hreset hstarted hcount hruns, k, hk, hstep.id, hstep.step, hstep.stream, hstep.origin, hstep.tenant⟩

end Sys2Proof.Machine
end

section
/-! SUPPORT. The credit window boundary (05 R176, R180), and O28. -/

namespace Sys2Proof.Machine

/-! ### Credits by kind and tenant -/

@[simp] theorem creditOf_setCredit_self (kind t : Nat) (c : Credit) (d : Device) : creditOf kind t (setCredit kind t c d) = c :=
  tabGetD_tabSet_self _ _ _ _
theorem creditOf_setCredit_of_ne {kind t k u : Nat} (c : Credit) (d : Device) (h : creditKey kind t ≠ creditKey k u) :
    creditOf k u (setCredit kind t c d) = creditOf k u d :=
  (tabGetD_tabSet _ _ _ _ _).trans (if_neg h)
theorem creditKey_inj {kind t k u : Nat} (ht : t < 256) (hu : u < 256) : creditKey kind t = creditKey k u ↔ kind = k ∧ t = u := by
  simp only [creditKey]
  omega

/-! ### What the boundary of a kind does -/

/-- The device without its credits and the capacities that it shows. -/
def creditless (d : Device) : Device := { d with shares := { d.shares with credits := [], capacity := [] } }

/-- A tenant's share of a kind's capacity, by the weights of the tenants that requested the kind. -/
def creditShare (kind t : Nat) (d : Device) : Nat :=
  let all := (((List.range 256).filter (requestedKind d kind)).map (fun u => weightOf u kind d)).sum
  if all = 0 then 0 else weightOf t kind d * capacityOf kind d / all
/-- A tenant's counter after the boundary. -/
def counterAfter (kind t : Nat) (d : Device) : Int :=
  boundaryCounter (requestedKind d kind t) (creditShare kind t d) (capacityOf kind d) (creditOf kind t d).counter
/-- A tenant's credit after the boundary. -/
def creditAfter (kind t : Nat) (d : Device) : Credit :=
  { creditTo d.time.ticks (counterAfter kind t d) (creditOf kind t d) with
    requested := d.shares.pending.any (fun r => decide (r.kind = kind) && decide (r.tenant = t))
    refill := BitVec.ofNat 16 (if requestedKind d kind t then creditShare kind t d else 0), atBoundary := counterAfter kind t d }

theorem filter_creditTenants (d : Device) (kind : Nat) :
    (creditTenants d kind).filter (requestedKind d kind) = (List.range 256).filter (requestedKind d kind) := by
  rw [creditTenants, List.filter_filter]
  refine List.filter_congr fun t _ => ?_
  cases requestedKind d kind t <;> simp

/-- A tenant that did not request the kind has no share, and needs none. -/
theorem boundaryCounter_of_share (requested : Bool) (share cap : Nat) (v : Int) :
    boundaryCounter requested (if requested then share else 0) cap v = boundaryCounter requested share cap v := by
  cases requested <;> rfl
theorem share_of_requested (kind t : Nat) (d : Device) :
    (let all := (((List.range 256).filter (requestedKind d kind)).map (fun u => weightOf u kind d)).sum
     if requestedKind d kind t && decide (all ≠ 0) then weightOf t kind d * capacityOf kind d / all else 0) =
      if requestedKind d kind t then creditShare kind t d else 0 := by
  cases requestedKind d kind t
  · rfl
  · simp [creditShare]

theorem boundaryKind_eq (kind : Nat) (d : Device) : boundaryKind kind d =
    let e := doEach (creditTenants d kind) (fun t => setCredit kind t (creditAfter kind t d)) d
    { e with shares := { e.shares with capacity := tabSet kind (capacityOf kind d) e.shares.capacity } } := by
  unfold boundaryKind
  dsimp only
  rw [filter_creditTenants]
  simp only [share_of_requested, boundaryCounter_of_share]
  rfl

theorem doEach_setCredit_creditless (kind : Nat) (f : Nat → Credit) (ts : List Nat) (d : Device) :
    creditless (doEach ts (fun t => setCredit kind t (f t)) d) = creditless d := doEach_kept fun _ _ => rfl

theorem creditOf_doEach_setCredit_of_ne {kind k u : Nat} {f : Nat → Credit} {ts : List Nat}
    (h : ∀ t ∈ ts, creditKey kind t ≠ creditKey k u) (d : Device) :
    creditOf k u (doEach ts (fun t => setCredit kind t (f t)) d) = creditOf k u d := by
  induction ts generalizing d with
  | nil => rfl
  | cons t ts ih =>
    exact (ih (fun x hx => h x (List.mem_cons_of_mem _ hx)) _).trans (creditOf_setCredit_of_ne _ _ (h t List.mem_cons_self))
theorem creditOf_doEach_setCredit_of_mem {kind u : Nat} {f : Nat → Credit} {ts : List Nat} (h : u ∈ ts) (d : Device) :
    creditOf kind u (doEach ts (fun t => setCredit kind t (f t)) d) = f u := by
  induction ts generalizing d with
  | nil => cases h
  | cons t ts ih =>
    show creditOf kind u (doEach ts _ (setCredit kind t (f t) d)) = f u
    by_cases hu : u ∈ ts
    · exact ih hu _
    · obtain rfl := (List.mem_cons.mp h).resolve_right hu
      rw [creditOf_doEach_setCredit_of_ne fun x hx => by simp only [creditKey]; intro he; exact hu (by rwa [show u = x by omega])]
      exact creditOf_setCredit_self _ _ _ _

theorem boundaryKind_creditless (kind : Nat) (d : Device) : creditless (boundaryKind kind d) = creditless d := by
  rw [boundaryKind_eq]
  exact doEach_setCredit_creditless kind _ _ d

/-- The boundary of a kind leaves the credits of every other kind alone. -/
theorem creditOf_boundaryKind_of_ne {kind k u : Nat} (d : Device) (hk : kind ≠ k) (hu : u < 256) :
    creditOf k u (boundaryKind kind d) = creditOf k u d := by
  rw [boundaryKind_eq]
  refine creditOf_doEach_setCredit_of_ne (fun t ht => ?_) d
  rw [ne_eq, creditKey_inj (List.mem_range.mp (List.mem_of_mem_filter ht)) hu]
  exact fun h => hk h.1
/-- A tenant without a counter that requested nothing stays at zero. -/
theorem counter_boundaryKind {kind t : Nat} (d : Device) (ht : t < 256) : (creditOf kind t (boundaryKind kind d)).counter = counterAfter kind t d := by
  rw [boundaryKind_eq]
  by_cases hmem : t ∈ creditTenants d kind
  · exact congrArg Credit.counter (creditOf_doEach_setCredit_of_mem hmem d)
  · have hnone : tabGet (creditKey kind t) d.shares.credits = none ∧ requestedKind d kind t = false := by
      simpa [creditTenants, List.mem_filter, ht] using hmem
    obtain ⟨hcounter, hrequested⟩ := hnone
    have hzero : creditOf kind t d = {} := by rw [creditOf, tabGetD, hcounter, Option.getD_none]
    refine (congrArg Credit.counter (creditOf_doEach_setCredit_of_ne (fun u hu => ?_) d)).trans ?_
    · rw [ne_eq, creditKey_inj (List.mem_range.mp (List.mem_of_mem_filter hu)) ht]
      rintro ⟨-, rfl⟩
      exact hmem hu
    · rw [hzero, counterAfter, hrequested]
      rfl

/-! ### The kinds in turn -/

/-- The kind's boundary reads the credits of its own kind alone. -/
theorem counterAfter_congr {kind t : Nat} {d e : Device} (h : creditless d = creditless e) (hcredits : ∀ u < 256, creditOf kind u d = creditOf kind u e)
    (ht : t < 256) : counterAfter kind t d = counterAfter kind t e := by
  have hpending : d.shares.pending = e.shares.pending := congrArg (·.shares.pending) h
  have hrequested : ∀ u < 256, requestedKind d kind u = requestedKind e kind u := fun u hu => by
    rw [requestedKind, requestedKind, hcredits u hu, hpending]
  have hcapacity : capacityOf kind d = capacityOf kind e := (congrArg (capacityOf kind) h :)
  have hweight : ∀ u, weightOf u kind d = weightOf u kind e := fun u => (congrArg (weightOf u kind) h :)
  have hall : (List.range 256).filter (requestedKind d kind) = (List.range 256).filter (requestedKind e kind) :=
    List.filter_congr fun u hu => hrequested u (List.mem_range.mp hu)
  simp only [counterAfter, creditShare, hrequested t ht, hcapacity, hweight, hall, hcredits t ht]

theorem doEach_boundaryKind_creditless (ks : List Nat) (d : Device) : creditless (doEach ks boundaryKind d) = creditless d :=
  doEach_kept boundaryKind_creditless
theorem creditOf_doEach_boundaryKind_of_not_mem {ks : List Nat} {kind t : Nat} (h : kind ∉ ks) (ht : t < 256) (d : Device) :
    creditOf kind t (doEach ks boundaryKind d) = creditOf kind t d := by
  induction ks generalizing d with
  | nil => rfl
  | cons k ks ih =>
    obtain ⟨hk, hks⟩ := List.ne_and_not_mem_of_not_mem_cons h
    exact (ih hks _).trans (creditOf_boundaryKind_of_ne d hk.symm ht)
theorem counter_doEach_boundaryKind {ks : List Nat} {kind t : Nat} (hks : ks.Nodup) (h : kind ∈ ks) (ht : t < 256) (d : Device) :
    (creditOf kind t (doEach ks boundaryKind d)).counter = counterAfter kind t d := by
  induction ks generalizing d with
  | nil => cases h
  | cons k ks ih =>
    obtain ⟨hk, hrest⟩ := List.nodup_cons.mp hks
    show (creditOf kind t (doEach ks boundaryKind (boundaryKind k d))).counter = _
    rcases List.mem_cons.mp h with rfl | hmem
    · rw [creditOf_doEach_boundaryKind_of_not_mem hk ht, counter_boundaryKind d ht]
    · have hne : k ≠ kind := fun he => hk (he ▸ hmem)
      rw [ih hrest hmem]
      exact counterAfter_congr (boundaryKind_creditless k d) (fun u hu => creditOf_boundaryKind_of_ne d hne hu) ht

/-! ### The events of a boundary (19 R630, R632) -/

/-- The device without the event recorder and what has left the part. -/
def unrecorded (d : Device) : Device := { d with events := {}, out := [] }

theorem raiseCauses_unrecorded (b) (d : Device) : unrecorded (raiseCauses b d) = unrecorded d := by
  rw [raiseCauses_frame]
  rfl
theorem storeSummary_unrecorded (code) (d : Device) : unrecorded (storeSummary code d) = unrecorded d :=
  (raiseCauses_unrecorded _ _).trans rfl
theorem refillEvents_unrecorded (d : Device) : unrecorded (refillEvents d) = unrecorded d :=
  (doEach_kept (view := unrecorded) storeSummary_unrecorded).trans rfl

/-! ### O28 -/

/-- The next window begins: it is counted, and the tenants' buckets are refilled. -/
def rollWindow (d : Device) : Device :=
  { d with time := { d.time with window := d.time.window + 1, windowsDone := d.time.windowsDone + 1 }
           gaffer := { d.gaffer with tenants := tabMap (fun _ => refillBucket) d.gaffer.tenants } }

/-- A window boundary: the boundaries of the kinds, and then what writes no credit. -/
theorem windowBoundary_spec {kind t : Nat} (hkind : kind < 6) (ht : t < 256) (d : Device) : ∃ e, creditless e = creditless d ∧
    (creditOf kind t e).counter = counterAfter kind t d ∧ unrecorded (windowBoundary d) = unrecorded (rollWindow e) := by
  have hmem : kind ∈ [0, 1, 2, 3, 4, 5] := by simp; omega
  exact ⟨_, doEach_boundaryKind_creditless [0, 1, 2, 3, 4, 5] d, counter_doEach_boundaryKind (by decide) hmem ht d, refillEvents_unrecorded _⟩

theorem exec_creditWindowBoundary {s : State} (hreset : outOfReset s.dev = true) (hdue : 320 * (s.dev.time.windowsDone + 1) ≤ s.dev.time.ticks) :
    exec .creditWindowBoundary s = .next { s with dev := windowBoundary s.dev } :=
  next_doIf (f := windowBoundary) (by simp [hreset, hdue])

/-- Settles O28: the boundary of each kind writes the credits of that kind alone, and what follows writes none. -/
theorem windowBoundaryRefillsCredits : Obligations.WindowBoundaryRefillsCredits := by
  intro kind t s hreset hdue hkind ht
  obtain ⟨e, hcredits, hcounter, hevents⟩ := windowBoundary_spec hkind ht s.dev
  refine ⟨_, exec_creditWindowBoundary hreset hdue, ?_⟩
  generalize windowBoundary s.dev = w at hevents
  have hw : w = { rollWindow e with events := w.events, out := w.out } := congrArg (fun x => { x with events := w.events, out := w.out }) hevents
  have he : e = { s.dev with shares := e.shares } := congrArg (fun x => { x with shares := e.shares }) hcredits
  have hgrants : e.shares.grants = s.dev.shares.grants := congrArg (·.shares.grants) hcredits
  have hpending : e.shares.pending = s.dev.shares.pending := congrArg (·.shares.pending) hcredits
  rw [hw]
  refine ⟨hcounter, ?_, hgrants, hpending, ?_, ?_⟩
  · rw [he]
    rfl
  · rw [he]
    rfl
  · rw [he]
    rfl

end Sys2Proof.Machine
end

section
/-! SUPPORT. What grants and their ends write (05 R181, R187, R188). -/

namespace Sys2Proof.Machine

/-! ### What an arbitration leaves alone -/

/-- A job without its context record. -/
def contextless (j : Job) : Job := { j with context := [] }
/-- The device without its benches, its requests, its grants and the jobs' context records. -/
def ungranted (d : Device) : Device :=
  { d with gaffer := { d.gaffer with jobs := d.gaffer.jobs.map contextless }, shares := { d.shares with pending := [], grants := [] }, benches := [] }

theorem creditOf_of_ungranted {d e : Device} (h : ungranted d = ungranted e) (kind t : Nat) : creditOf kind t d = creditOf kind t e :=
  (congrArg (creditOf kind t) h :)
/-- Every job is as before but for its context record. -/
theorem jobOf_of_ungranted {d e : Device} (h : ungranted d = ungranted e) (id : Nat) :
    (jobOf id d).map contextless = (jobOf id e).map contextless := by
  have hfind : ∀ x : Device, (jobOf id x).map contextless = (ungranted x).gaffer.jobs.find? (fun j => j.id = id) := fun x =>
    (List.find?_map (f := contextless) (p := fun j : Job => decide (j.id = id))).symm
  rw [hfind, hfind, h]

theorem modBench_ungranted (b f) (d : Device) : ungranted (modBench b f d) = ungranted d := rfl
theorem modEngine_ungranted (b k n f) (d : Device) : ungranted (modEngine b k n f d) = ungranted d := rfl
theorem engineWork_ungranted (b k n c v job) (d : Device) : ungranted (engineWork b k n c v job d) = ungranted d := rfl
theorem modContext_ungranted (id : Nat) (x : Bytes) (d : Device) : ungranted (modJob id (fun j => { j with context := x }) d) = ungranted d := by
  have hjobs : (modJob id (fun j => { j with context := x }) d).gaffer.jobs.map contextless = d.gaffer.jobs.map contextless := by
    simp only [modJob, List.map_map]
    refine List.map_congr_left fun j _ => ?_
    simp only [Function.comp]
    split <;> rfl
  exact congrArg (fun js => { ungranted d with gaffer := { d.gaffer with jobs := js } }) hjobs
theorem setGrants_ungranted (gs) (d : Device) : ungranted { d with shares := { d.shares with grants := gs } } = ungranted d := rfl
theorem saveContext_ungranted (g) (d : Device) : ungranted (saveContext g d) = ungranted d := by
  unfold saveContext
  split
  · rfl
  · dsimp only
    split
    · rfl
    · rw [engineWork_ungranted, modContext_ungranted, modEngine_ungranted]
theorem dropParked_ungranted (p) (d : Device) : ungranted (dropParked p d) = ungranted d := by
  rw [dropParked, setGrants_ungranted, doEach_kept (view := ungranted) saveContext_ungranted]
theorem beginTest_ungranted (b k n cause) (d : Device) : ungranted (beginTest b k n cause d) = ungranted d := by
  rw [beginTest, setGrants_ungranted, modEngine_ungranted, dropParked_ungranted, ite_kept (modBench_ungranted b _ d)]
theorem beginDue_ungranted (b k n) (d : Device) : ungranted (beginDue b k n d) = ungranted d := by
  unfold beginDue
  split
  · rfl
  · rw [beginTest_ungranted, modEngine_ungranted]
theorem loadFromPort_ungranted (b k n j) (d : Device) : ungranted (loadFromPort b k n j d) = ungranted d := by
  unfold loadFromPort
  split
  · exact ite_kept rfl
  · rfl
theorem restoreContext_ungranted (b k n j) (d : Device) : ungranted (restoreContext b k n j d) = ungranted d := by
  unfold restoreContext
  split
  · rfl
  · rw [engineWork_ungranted, modContext_ungranted, modEngine_ungranted]
theorem startEngine_ungranted (b k n job) (d : Device) : ungranted (startEngine b k n job d) = ungranted d := by
  rw [startEngine, doWith_kept (view := ungranted) fun j x => by rw [restoreContext_ungranted, loadFromPort_ungranted, modEngine_ungranted],
    modEngine_ungranted]
theorem giveUnit_ungranted (r unit) (d : Device) : ungranted (giveUnit r unit d) = ungranted d := by
  rw [giveUnit, doWith_kept (view := ungranted) fun _ _ => startEngine_ungranted _ _ _ _ _]
  exact dropParked_ungranted _ d
theorem grantOne_ungranted (bench kind) (d : Device) : ungranted (grantOne bench kind d) = ungranted d := by
  unfold grantOne
  split
  · rfl
  · split
    · rfl
    · exact giveUnit_ungranted _ _ d
theorem arbitrate_ungranted (bench kind) (d : Device) : ungranted (arbitrate bench kind d) = ungranted d :=
  foldl_kept fun x _ => grantOne_ungranted bench kind x
/-- The end of a grant charges it, and frees the port that it held. -/
theorem endGrant_ungranted (g park) (d : Device) :
    ungranted (endGrant g park d) = ungranted (freePort g (charge g.kind g.tenant (grantCharge g d) d)) := by
  rw [endGrant, doWith_kept (view := ungranted) fun k x => by rw [beginDue_ungranted, engineWork_ungranted, modEngine_ungranted], setGrants_ungranted]
  split
  · rfl
  · rw [saveContext_ungranted]

/-! ### Units that are no engines -/

/-- The device without its requests and grants. -/
def unqueued (d : Device) : Device := { d with shares := { d.shares with pending := [], grants := [] } }

theorem ungranted_of_unqueued {d e : Device} (h : unqueued d = unqueued e) : ungranted d = ungranted e := (congrArg ungranted h :)

theorem kindOf_of_le {n : Nat} (h : 3 ≤ n) : kindOf n = none :=
  match n, h with
  | _ + 3, _ => rfl
theorem saveContext_of_unit {g : Grant} (d : Device) (h : 3 ≤ g.kind) : saveContext g d = d := by rw [saveContext, kindOf_of_le h]
theorem dropParked_unqueued {p : Grant → Bool} (d : Device) (h : ∀ g, p g = true → 3 ≤ g.kind) : unqueued (dropParked p d) = unqueued d := by
  have hsave : ∀ (gs : List Grant) x, (∀ g ∈ gs, 3 ≤ g.kind) → doEach gs saveContext x = x := by
    intro gs x hgs
    induction gs with
    | nil => rfl
    | cons g gs ih =>
      show doEach gs saveContext (saveContext g x) = x
      rw [saveContext_of_unit x (hgs g List.mem_cons_self)]
      exact ih fun y hy => hgs y (List.mem_cons_of_mem _ hy)
  have hparked : ∀ g ∈ d.shares.grants.filter (fun g => g.parked && p g), 3 ≤ g.kind := fun g hg => by
    simp only [List.mem_filter, Bool.and_eq_true] at hg
    exact h g hg.2.2
  rw [dropParked, hsave _ d hparked]
  rfl
theorem kind_of_sameUnit {bench kind unit : Nat} {g : Grant} (h : sameUnit bench kind unit g = true) : g.kind = kind := by
  simp only [sameUnit, Bool.and_eq_true, decide_eq_true_eq] at h
  obtain ⟨⟨hkind, -⟩, -⟩ := h
  exact hkind
theorem giveUnit_unqueued {r : ArbRequest} (unit) (d : Device) (h : 3 ≤ r.kind) : unqueued (giveUnit r unit d) = unqueued d := by
  rw [giveUnit, kindOf_of_le h]
  exact dropParked_unqueued d fun g hg => (kind_of_sameUnit hg).symm ▸ h

/-- The requester ranked first is one that is pending. -/
theorem mem_of_takeFirst {d : Device} {rs : List ArbRequest} {r : ArbRequest} (h : takeFirst d rs = some r) : r ∈ rs :=
  List.mem_of_mem_filter (mem_of_leastBy h)
theorem mem_of_rankedFirst {bench kind : Nat} {d : Device} {r : ArbRequest} (h : rankedFirst bench kind d = some r) : r ∈ pendingAt bench kind d := by
  unfold rankedFirst at h
  split at h
  · obtain ⟨b, -, hb⟩ := List.mem_filterMap.mp (mem_of_takeFirst h)
    exact List.mem_of_mem_filter (mem_of_takeFirst hb)
  · exact mem_of_takeFirst h
theorem kind_of_mem_pendingAt {bench kind : Nat} {d : Device} {r : ArbRequest} (h : r ∈ pendingAt bench kind d) : r.kind = kind := by
  have hr := (List.mem_filter.mp h).2
  simp only [Bool.and_eq_true, decide_eq_true_eq] at hr
  exact hr.1

theorem grantOne_unqueued (bench) {kind : Nat} (d : Device) (h : 3 ≤ kind) : unqueued (grantOne bench kind d) = unqueued d := by
  unfold grantOne
  split
  · rfl
  · next r hr =>
    split
    · rfl
    · exact giveUnit_unqueued _ d ((kind_of_mem_pendingAt (mem_of_rankedFirst hr)).symm ▸ h)
theorem arbitrate_unqueued (bench) {kind : Nat} (d : Device) (h : 3 ≤ kind) : unqueued (arbitrate bench kind d) = unqueued d :=
  foldl_kept fun x _ => grantOne_unqueued bench x h
theorem endGrant_unqueued {g : Grant} (park) (d : Device) (h : 3 ≤ g.kind) :
    unqueued (endGrant g park d) = unqueued (freePort g (charge g.kind g.tenant (grantCharge g d) d)) := by
  rw [endGrant, kindOf_of_le h]
  simp only [saveContext_of_unit _ h, ite_self]
  rfl

end Sys2Proof.Machine
end

section
/-! SUPPORT. A request that is alone (05 R183, R186, R188). -/

namespace Sys2Proof.Machine

/-! ### Free units -/

theorem benchOf_modBench (b c : Nat) (f : Bench → Bench) (d : Device) :
    benchOf b (modBench c f d) = benchOf b d ∨ benchOf b (modBench c f d) = f (benchOf b d) := by
  unfold benchOf modBench tabGetD
  rw [tabGet_tabMod]
  split
  · cases tabGet b d.benches
    · exact .inl rfl
    · exact .inr rfl
  · exact .inl rfl
theorem unitsOf_modBench {c : Nat} {f : Bench → Bench} (hin : ∀ x, (f x).inService = x.inService) (hf : ∀ k x, inServiceOf k (f x) = inServiceOf k x)
    (bench kind : Nat) (d : Device) : unitsOf bench kind (modBench c f d) = unitsOf bench kind d := by
  have hgather : (modBench c f d).gather = d.gather := rfl
  unfold unitsOf
  rw [hgather]
  rcases benchOf_modBench bench c f d with h | h <;> rw [h]
  simp only [hin, hf]

/-- A change that leaves the engines' states leaves those in service. -/
theorem inServiceOf_modEngineBlock {k : EngineKind} {n : Nat} {f : Engine → Engine} (hf : ∀ e, (f e).state = e.state) (k' : EngineKind) (b : Bench) :
    inServiceOf k' (modEngineBlock k (fun x => { x with engines := tabMod n f x.engines }) b) = inServiceOf k' b := by
  have hserving : ∀ t : Tab Engine, ((tabMod n f t).filter (fun p => p.2.state == .inService)).map (·.1) =
      (t.filter (fun p => p.2.state == .inService)).map (·.1) := by
    intro t
    induction t with
    | nil => rfl
    | cons p t ih =>
      simp only [tabMod]
      split
      · simp only [List.filter_cons, hf]
        split <;> rfl
      · simp only [List.filter_cons]
        split <;> simp [ih]
  cases k <;> cases k' <;> simp [inServiceOf, modEngineBlock, engineBlock, hserving]
theorem unitsOf_modEngine {b : Nat} {k : EngineKind} {n : Nat} {f : Engine → Engine} (hf : ∀ e, (f e).state = e.state) (bench kind : Nat) (d : Device) :
    unitsOf bench kind (modEngine b k n f d) = unitsOf bench kind d :=
  unitsOf_modBench (f := modEngineBlock k (fun x => { x with engines := tabMod n f x.engines })) (fun _ => rfl)
    (inServiceOf_modEngineBlock hf) bench kind d
theorem unitsOf_engineWork (b k n c v job) (bench kind : Nat) (d : Device) : unitsOf bench kind (engineWork b k n c v job d) = unitsOf bench kind d := by
  refine unitsOf_modBench ?_ ?_ bench kind d
  · exact fun _ => rfl
  · exact fun k' _ => by cases k' <;> rfl
theorem unitsOf_saveContext (bench kind : Nat) (g) (d : Device) : unitsOf bench kind (saveContext g d) = unitsOf bench kind d := by
  unfold saveContext
  split
  · rfl
  · dsimp only
    split
    · rfl
    · rw [unitsOf_engineWork]
      exact unitsOf_modEngine (by exact fun _ => rfl) bench kind d

theorem saveContext_shares (g) (d : Device) : (saveContext g d).shares = d.shares := by
  unfold saveContext
  split
  · rfl
  · exact ite_kept (view := (·.shares)) rfl
theorem dropParked_shares (p) (d : Device) : (dropParked p d).shares = { d.shares with grants := d.shares.grants.filter (fun g => !(g.parked && p g)) } := by
  rw [dropParked, doEach_kept (view := (·.shares)) saveContext_shares]
/-- A parked unit is free, whether or not its parking ends (05 R188). -/
theorem freeUnits_dropParked (bench kind : Nat) (p) (d : Device) : freeUnits bench kind (dropParked p d) = freeUnits bench kind d := by
  have hunits : unitsOf bench kind (dropParked p d) = unitsOf bench kind d :=
    (rfl : unitsOf bench kind (dropParked p d) = unitsOf bench kind (doEach _ saveContext d)).trans
      (doEach_kept (view := unitsOf bench kind) (unitsOf_saveContext bench kind))
  rw [freeUnits, hunits, dropParked_shares]
  refine List.filter_congr fun u _ => congrArg _ ?_
  rw [List.any_filter]
  congr 1
  funext g
  cases g.parked <;> simp

/-! ### One request is pending -/

variable {bench kind : Nat} {d : Device} {r : ArbRequest}

theorem takeFirst_of_alone (d : Device) (r : ArbRequest) : takeFirst d [r] = some r := by
  simp [takeFirst, tenantFirsts, earlier, leastBy]
/-- At the hub the request's own bench puts it forward. -/
theorem forwarded_of_alone (d : Device) {r : ArbRequest} (h : r.core.bench < 8) :
    (List.range 8).filterMap (fun b => takeFirst d ([r].filter (fun q => decide (q.core.bench = b)))) = [r] := by
  have hone : ∀ b, takeFirst d ([r].filter (fun q => decide (q.core.bench = b))) = if r.core.bench = b then some r else none := by
    intro b
    by_cases hb : r.core.bench = b
    · simp [hb, takeFirst_of_alone]
    · rw [List.filter_cons_of_neg (by simpa using hb), if_neg hb]
      rfl
  simp only [hone]
  generalize r.core.bench = n at h
  interval_cases n <;> rfl
theorem rankedFirst_of_alone (h : pendingAt bench kind d = [r]) (hbench : kind = 5 → r.core.bench < 8) : rankedFirst bench kind d = some r := by
  unfold rankedFirst
  rw [h]
  split
  · next hk => rw [forwarded_of_alone d (hbench hk), takeFirst_of_alone]
  · exact takeFirst_of_alone d r
theorem arbitrate_of_alone (h : pendingAt bench kind d = [r]) : arbitrate bench kind d = grantOne bench kind d := by
  rw [arbitrate, h]
  rfl
theorem arbitrate_of_free {u : Nat} {us : List Nat} (h : pendingAt bench kind d = [r]) (hbench : kind = 5 → r.core.bench < 8)
    (hfree : freeUnits r.core.bench kind d = u :: us) : arbitrate bench kind d = giveUnit r u d := by
  rw [arbitrate_of_alone h, grantOne, rankedFirst_of_alone h hbench]
  simp only [hfree]
theorem arbitrate_of_busy (h : pendingAt bench kind d = [r]) (hfree : freeUnits r.core.bench kind d = []) : arbitrate bench kind d = d := by
  rw [arbitrate_of_alone h, grantOne]
  split
  · rfl
  · next q hq =>
    have hqr := mem_of_rankedFirst hq
    rw [h, List.mem_singleton] at hqr
    rw [hqr, hfree]

/-! ### A unit is given -/

/-- The grant of a unit to a request. -/
def grantFor (r : ArbRequest) (unit tick : Nat) : Grant :=
  { bench := r.core.bench, kind := r.kind, unit, core := r.core, tenant := r.tenant, job := r.job, since := tick, moved := hubMoved r }

theorem loadFromPort_shares (b k n j) (d : Device) : (loadFromPort b k n j d).shares = d.shares := by
  unfold loadFromPort
  split
  · exact ite_kept (view := (·.shares)) rfl
  · rfl
theorem restoreContext_shares (b k n j) (d : Device) : (restoreContext b k n j d).shares = d.shares := ite_kept (view := (·.shares)) rfl
theorem startEngine_shares (b k n job) (d : Device) : (startEngine b k n job d).shares = d.shares := by
  rw [startEngine, doWith_kept (view := (·.shares)) fun j x => by rw [restoreContext_shares, loadFromPort_shares, modEngine_shares], modEngine_shares]
theorem giveUnit_shares (r unit) (d : Device) : (giveUnit r unit d).shares = { d.shares with
    pending := d.shares.pending.filter (fun q => q ≠ r)
    grants := (dropParked (sameUnit r.core.bench r.kind unit) d).shares.grants.filter (fun g => !sameUnit r.core.bench r.kind unit g) ++
      [grantFor r unit d.time.ticks] } := by
  have htime : (dropParked (sameUnit r.core.bench r.kind unit) d).time = d.time := congrArg (·.time) (dropParked_ungranted _ d)
  rw [giveUnit, doWith_kept (view := (·.shares)) fun _ _ => startEngine_shares _ _ _ _ _, htime, dropParked_shares]
  rfl

/-! ### The request -/

/-- The request of a core for its job. -/
def newRequest (c : CoreRef) (kind amount : Nat) (j : Job) (d : Device) : ArbRequest :=
  { core := c, tenant := j.tenant, kind, arrival := d.shares.arrivals, tick := d.time.ticks, amount, job := j.id }
/-- The credit window notes the request of the kind. -/
def noted (kind t : Nat) (d : Device) : Device := setCredit kind t { creditOf kind t d with requested := true } d
/-- The request is registered, and the parking of other cores and tenants has ended. -/
def registered (c : CoreRef) (kind amount : Nat) (j : Job) (d : Device) : Device :=
  let e := endParking c kind j.tenant (noted kind j.tenant d)
  { e with shares := { e.shares with pending := e.shares.pending ++ [newRequest c kind amount j d], arrivals := e.shares.arrivals + 1 } }

theorem request_of_alone {c : CoreRef} {kind : Nat} (amount) {j : Job} {d : Device} (halone : pendingAt c.bench kind d = [])
    (hpark : parkedFor c kind j.tenant d = none) : request c kind amount j d = arbitrate c.bench kind (registered c kind amount j d) := by
  have hpending : pendingAt c.bench kind (noted kind j.tenant d) = [] := halone
  have hparked : parkedFor c kind j.tenant (noted kind j.tenant d) = none := hpark
  unfold request
  dsimp only
  rw [← noted, hpending, hparked]
  simp only [List.isEmpty_nil, if_true]
  rfl

section
variable (c : CoreRef) (kind amount : Nat) (j : Job) (d : Device)

theorem registered_pending : (registered c kind amount j d).shares.pending = d.shares.pending ++ [newRequest c kind amount j d] := by
  simp only [registered, endParking, dropParked_shares]
  rfl
theorem registered_ungranted : ungranted (registered c kind amount j d) =
    ungranted { d with shares := { (noted kind j.tenant d).shares with arrivals := d.shares.arrivals + 1 } } := by
  have h := dropParked_ungranted (fun g => decide (g.kind = kind) && decide (g.bench = c.bench) && (decide (g.core ≠ c) || decide (g.tenant ≠ j.tenant)))
    (noted kind j.tenant d)
  exact congrArg (fun x => { x with shares := { x.shares with arrivals := x.shares.arrivals + 1 } }) h
theorem freeUnits_registered (bench k : Nat) : freeUnits bench k (registered c kind amount j d) = freeUnits bench k d :=
  freeUnits_dropParked bench k _ (noted kind j.tenant d)
theorem pendingAt_registered (halone : pendingAt c.bench kind d = []) :
    pendingAt c.bench kind (registered c kind amount j d) = [newRequest c kind amount j d] := by
  unfold pendingAt at halone ⊢
  rw [registered_pending, List.filter_append, halone]
  simp [newRequest]
/-- Where none of the kind was pending, the request is none of those that are. -/
theorem filter_registered_pending (halone : pendingAt c.bench kind d = []) :
    (registered c kind amount j d).shares.pending.filter (fun q => q ≠ newRequest c kind amount j d) = d.shares.pending := by
  have hnew : ∀ q ∈ d.shares.pending, q ≠ newRequest c kind amount j d := by
    rintro q hq rfl
    have hnot := List.filter_eq_nil_iff.mp halone _ hq
    simp [newRequest] at hnot
  rw [registered_pending, List.filter_append, List.filter_eq_self.mpr (by simpa using hnew)]
  simp
end

end Sys2Proof.Machine
end

section
/-! SUPPORT. ARBITER_REQUEST (05 R183, R186). -/

namespace Sys2Proof.Machine

theorem exec_arbiterRequest {c : CoreRef} {kind : Nat} (amount) {j : Job} {s : State} (hj : jobOn c s.dev = some j) (hkind : kind < 6)
    (hservice : kind = 4 → s.dev.gather.service = true) :
    exec (.arbiterRequest c kind amount) s = .next { s with dev := request (lead c s.dev) kind amount j s.dev } := by
  have hserved : ¬(kind = 4 ∧ (!s.dev.gather.service) = true) := fun h => by simp [hservice h.1] at h
  show Host.Outcome.next _ = _
  simp only [hj, if_neg hserved, doIf, hkind, decide_true, if_true]

/-- What a request leaves: the credit notes it, and nothing changes beyond the benches, the grants and the jobs. -/
theorem request_frame {c : CoreRef} {kind amount : Nat} {j : Job} {d e : Device} (h : ungranted e = ungranted (registered c kind amount j d)) :
    creditOf kind j.tenant e = { creditOf kind j.tenant d with requested := true } ∧
      e = { d with gaffer := e.gaffer, shares := e.shares, benches := e.benches } := by
  have hall := h.trans (registered_ungranted c kind amount j d)
  exact ⟨(creditOf_of_ungranted hall kind j.tenant).trans (creditOf_setCredit_self kind j.tenant _ d),
    congrArg (fun x => { x with gaffer := e.gaffer, shares := e.shares, benches := e.benches }) hall⟩

theorem registered_time (c kind amount j) (d : Device) : (registered c kind amount j d).time = d.time :=
  congrArg (·.time) (registered_ungranted c kind amount j d)
theorem grantFor_newRequest (c : CoreRef) (kind amount : Nat) (j : Job) (d : Device) (u : Nat) :
    grantFor (newRequest c kind amount j d) u d.time.ticks = { bench := c.bench, kind, unit := u, core := c, tenant := j.tenant, job := j.id
                                                               since := d.time.ticks, moved := if kind = 5 then min amount (Config.hubMoved j.id) else 0 } :=
  rfl

section
variable {c : CoreRef} {kind amount : Nat} {j : Job} {d : Device} (halone : pendingAt c.bench kind d = [])
  (hpark : parkedFor c kind j.tenant d = none)
include halone hpark

/-- A request that finds a free unit is granted it, and none is left behind. -/
theorem request_granted {u : Nat} {us : List Nat} (hbench : kind = 5 → c.bench < 8) (hfree : freeUnits c.bench kind d = u :: us) :
    grantFor (newRequest c kind amount j d) u d.time.ticks ∈ (request c kind amount j d).shares.grants ∧
      (request c kind amount j d).shares.pending = d.shares.pending ∧
      ungranted (request c kind amount j d) = ungranted (registered c kind amount j d) := by
  have hgiven : request c kind amount j d = giveUnit (newRequest c kind amount j d) u (registered c kind amount j d) := by
    rw [request_of_alone amount halone hpark]
    exact arbitrate_of_free (pendingAt_registered c kind amount j d halone) hbench ((freeUnits_registered c kind amount j d _ _).trans hfree)
  rw [hgiven, giveUnit_ungranted, giveUnit_shares, registered_time]
  exact ⟨List.mem_append_right _ List.mem_cons_self, filter_registered_pending c kind amount j d halone, rfl⟩

/-- A request that finds none is registered, and waits. -/
theorem request_waits (hfree : freeUnits c.bench kind d = []) : request c kind amount j d = registered c kind amount j d := by
  rw [request_of_alone amount halone hpark]
  exact arbitrate_of_busy (pendingAt_registered c kind amount j d halone) ((freeUnits_registered c kind amount j d _ _).trans hfree)
end

section
variable {c : CoreRef} {kind : Nat} (amount : Nat) {j : Job} {s : State} (hj : jobOn c s.dev = some j) (hkind : kind < 6)
  (hservice : kind = 4 → s.dev.gather.service = true) (halone : pendingAt c.bench kind s.dev = [])
  (hpark : parkedFor (lead c s.dev) kind j.tenant s.dev = none)
include hj hkind hservice halone hpark

theorem arbiterRequest_granted {u : Nat} {us : List Nat} (hbench : kind = 5 → c.bench < 8) (hfree : freeUnits c.bench kind s.dev = u :: us) :
    Completes (.arbiterRequest c kind amount) s (fun d =>
      { bench := c.bench, kind := kind, unit := u, core := lead c s.dev, tenant := j.tenant, job := j.id, since := s.dev.time.ticks
        moved := if kind = 5 then min amount (Config.hubMoved j.id) else 0 } ∈ d.shares.grants ∧
      d.shares.pending = s.dev.shares.pending ∧ (creditOf kind j.tenant d).requested = true ∧
      (creditOf kind j.tenant d).counter = (creditOf kind j.tenant s.dev).counter ∧
      d = { s.dev with gaffer := d.gaffer, shares := d.shares, benches := d.benches }) := by
  refine ⟨_, exec_arbiterRequest amount hj hkind hservice, ?_⟩
  rw [← lead_bench c s.dev] at halone hbench hfree
  obtain ⟨hgrant, hpending, hrest⟩ := request_granted (amount := amount) halone hpark hbench hfree
  obtain ⟨hcredit, hframe⟩ := request_frame hrest
  rw [grantFor_newRequest, lead_bench] at hgrant
  exact ⟨hgrant, hpending, by rw [hcredit], by rw [hcredit], hframe⟩

theorem arbiterRequest_waits (hfree : freeUnits c.bench kind s.dev = []) :
    Completes (.arbiterRequest c kind amount) s (fun d => d.shares.pending = s.dev.shares.pending ++
      [{ core := lead c s.dev, tenant := j.tenant, kind := kind, arrival := s.dev.shares.arrivals, tick := s.dev.time.ticks, amount := amount
         job := j.id }] ∧
      d = { s.dev with gaffer := d.gaffer, shares := d.shares, benches := d.benches }) := by
  refine ⟨_, exec_arbiterRequest amount hj hkind hservice, ?_⟩
  rw [← lead_bench c s.dev] at halone hfree
  rw [request_waits halone hpark hfree]
  exact ⟨registered_pending (lead c s.dev) kind amount j s.dev, (request_frame rfl).2⟩
end

end Sys2Proof.Machine
end

section
/-! SUPPORT. GRANT_RELEASE (05 R181; 09 R316, R317). -/

namespace Sys2Proof.Machine

/-! ### Charges (05 R181) -/

theorem counter_charge (kind t n : Nat) (d : Device) : (creditOf kind t (charge kind t n d)).counter = (creditOf kind t d).counter - (n : Int) := by
  rw [charge, creditOf_setCredit_self]
  rfl
theorem creditOf_charge_of_ne {kind t u : Nat} (n : Nat) (d : Device) (h : u ≠ t) (hu : u < 256) (ht : t < 256) :
    creditOf kind u (charge kind t n d) = creditOf kind u d :=
  creditOf_setCredit_of_ne _ d fun he => h ((creditKey_inj ht hu).mp he).2.symm

/-- A grant charged, and the port that it held free. -/
def charged (g : Grant) (n : Nat) (d : Device) : Device := freePort g (charge g.kind g.tenant n d)

theorem charged_frame (g n) (d : Device) :
    charged g n d = { d with shares := (charge g.kind g.tenant n d).shares, keys := { d.keys with ports := (charged g n d).keys.ports } } := by
  unfold charged freePort
  split <;> rfl
theorem charged_ungranted (g n) (d : Device) : ungranted (charged g n d) = charged g n (ungranted d) := by
  unfold charged freePort
  split <;> rfl
theorem charged_unqueued (g n) (d : Device) : unqueued (charged g n d) = charged g n (unqueued d) := by
  unfold charged freePort
  split <;> rfl

/-! ### The units moved under a grant -/

/-- What the generator of the grant's bench delivers to a draw, and the state after it. -/
def drawUnder (g : Grant) (units : Nat) (d : Device) : Bytes × Gather := generate d.time.ticks g.bench units d.gather
/-- The units that a grant has moved at its end. -/
def movedUnder (g : Grant) (units : Nat) (d : Device) : Nat :=
  if g.kind = 4 then (drawUnder g units d).1.length / 16 else if g.kind = 5 then units else g.moved
/-- The job holds what the generator delivered. -/
def drewUnder (g : Grant) (units : Nat) (d : Device) : Device :=
  let p := drawUnder g units d
  modJob g.job (fun j => { j with drawn := j.drawn ++ p.1, drawnBlocks := j.drawnBlocks + p.1.length / 16 })
    { d with gather := p.2, draws := d.draws + p.1.length }

theorem moveUnits_grant (g units) (d : Device) : (moveUnits g units d).1 = { g with moved := movedUnder g units d } := by
  unfold moveUnits movedUnder
  split
  · rfl
  · split <;> rfl
theorem moveUnits_of_draw {g : Grant} (units) (d : Device) (h : g.kind = 4) : unqueued (moveUnits g units d).2 = unqueued (drewUnder g units d) := by
  rw [moveUnits, if_pos h]
  rfl
theorem moveUnits_of_no_draw {g : Grant} (units) (d : Device) (h : g.kind ≠ 4) : unqueued (moveUnits g units d).2 = unqueued d := by
  rw [moveUnits, if_neg h]
  split <;> rfl
theorem moveUnits_time (g units) (d : Device) : (moveUnits g units d).2.time = d.time := by
  by_cases h : g.kind = 4
  · exact congrArg (·.time) (moveUnits_of_draw units d h)
  · exact congrArg (·.time) (moveUnits_of_no_draw units d h)

/-- The charge of a grant that ends now. -/
def chargeUnder (g : Grant) (units : Nat) (d : Device) : Nat := if g.kind < 3 then max 1 (d.time.ticks - g.since) else movedUnder g units d
/-- The grant has ended. -/
def ended (g : Grant) (units : Nat) (park : Bool) (d : Device) : Device := endGrant (moveUnits g units d).1 park (moveUnits g units d).2

theorem grantCharge_moveUnits (g units) (d : Device) : grantCharge (moveUnits g units d).1 (moveUnits g units d).2 = chargeUnder g units d := by
  rw [grantCharge, moveUnits_grant, moveUnits_time]
  rfl
theorem ended_ungranted (g units park) (d : Device) :
    ungranted (ended g units park d) = ungranted (charged g (chargeUnder g units d) (moveUnits g units d).2) := by
  rw [ended, endGrant_ungranted, grantCharge_moveUnits, moveUnits_grant]
  rfl
theorem ended_unqueued {g : Grant} (units park) (d : Device) (h : 3 ≤ g.kind) :
    unqueued (ended g units park d) = unqueued (charged g (chargeUnder g units d) (moveUnits g units d).2) := by
  have hkind : 3 ≤ (moveUnits g units d).1.kind := by rwa [moveUnits_grant]
  rw [ended, endGrant_unqueued park _ hkind, grantCharge_moveUnits, moveUnits_grant]
  rfl

/-! ### Seeds (09 R317, R328) -/

theorem instOf_setInst (n m : Nat) (i : Instance) (g : Gather) : instOf m (setInst n i g) = if n = m then i else instOf m g := tabGetD_tabSet _ _ _ _ _
/-- A generator that is written, as due for its seed as it was, leaves each as due as it was. -/
theorem due_setInst {n : Nat} {i : Instance} {g : Gather} (h : i.due = (instOf n g).due) (m : Nat) : (instOf m (setInst n i g)).due = (instOf m g).due := by
  rw [instOf_setInst]
  split
  · next hm => rw [h, hm]
  · rfl
theorem instOf_gthCount (m b k n : Nat) (g : Gather) : instOf m (gthCount b k n g) = instOf m g := rfl
theorem due_reseedBench (tick b : Nat) (g : Gather) (m : Nat) : (instOf m (reseedBench tick b g)).due = (instOf m g).due := by
  unfold reseedBench
  dsimp only
  rw [instOf_setInst]
  split
  · next hm => rw [hm]
  · split <;> split <;> simp only [instOf_gthCount]
theorem due_callBoundary (tick b : Nat) (g : Gather) (m : Nat) : (instOf m (callBoundary tick b g)).due = (instOf m g).due := by
  unfold callBoundary
  dsimp only
  split
  · exact due_reseedBench tick b g m
  · rfl
theorem due_generateGo (tick b fuel left : Nat) (g : Gather) (m : Nat) : (instOf m (generateGo tick b fuel left g).2).due = (instOf m g).due := by
  induction fuel generalizing left g with
  | zero => rfl
  | succ fuel ih =>
    unfold generateGo
    split
    · rfl
    · dsimp only
      split
      · rw [due_setInst (by exact rfl), due_callBoundary]
      · rw [ih, due_setInst (by exact rfl), due_callBoundary]
/-- A draw leaves no generator without its first seed that had it. -/
theorem instancesReady_generate (tick b blocks : Nat) (g : Gather) : instancesReady (generate tick b blocks g).2 = instancesReady g := by
  unfold instancesReady nextDue generate
  simp only [due_generateGo]

/-- The device without its requests, its grants and Gather. -/
def ungathered (d : Device) : Device := { unqueued d with gather := {} }

theorem setGather_ungathered (x) (d : Device) : ungathered { d with gather := x } = ungathered d := rfl
theorem ungathered_of_unqueued {d e : Device} (h : unqueued d = unqueued e) : ungathered d = ungathered e := (congrArg ungathered h :)
theorem arbitrate_ungathered (b) (d : Device) : ungathered (arbitrate b 4 d) = ungathered d := ungathered_of_unqueued (arbitrate_unqueued b d (by decide))
theorem seedArrived_ungathered (b) (d : Device) : ungathered (seedArrived b d) = ungathered d := by
  unfold seedArrived
  dsimp only
  split
  · rfl
  · split
    · rw [arbitrate_ungathered, setGather_ungathered]
    · split
      · rw [arbitrate_ungathered, setGather_ungathered]
      · rfl
theorem instanceServes_ungathered (before b) (d : Device) : ungathered (instanceServes before b d) = ungathered d := ite_kept (arbitrate_ungathered b d)
/-- The pool serves requests for draws alone, where dispatch need not resume. -/
theorem servePool_ungathered {d : Device} (h : instancesReady d.gather = true) : ungathered (servePool d) = ungathered d := by
  rw [servePool, if_pos h, doEach_kept (view := ungathered) (instanceServes_ungathered d.gather), doEach_kept (view := ungathered) seedArrived_ungathered,
    setGather_ungathered]

/-! ### The release -/

theorem releaseGrant_of_no_draw {g : Grant} (units) (d : Device) (h : g.kind ≠ 4) :
    releaseGrant g units d = arbitrate g.bench g.kind (ended g units true d) := by
  rw [releaseGrant, if_neg h, ended, moveUnits_grant]
theorem releaseGrant_ungranted {g : Grant} (units) (d : Device) (h : g.kind ≠ 4) :
    ungranted (releaseGrant g units d) = ungranted (charged g (chargeUnder g units d) d) := by
  rw [releaseGrant_of_no_draw units d h, arbitrate_ungranted, ended_ungranted, charged_ungranted, charged_ungranted,
    ungranted_of_unqueued (moveUnits_of_no_draw units d h)]
theorem releaseGrant_unqueued {g : Grant} (units) (d : Device) (h : g.kind ≠ 4) (hunit : 3 ≤ g.kind) :
    unqueued (releaseGrant g units d) = unqueued (charged g (chargeUnder g units d) d) := by
  rw [releaseGrant_of_no_draw units d h, arbitrate_unqueued g.bench _ hunit, ended_unqueued units true d hunit, charged_unqueued, charged_unqueued,
    moveUnits_of_no_draw units d h]
/-- The release of a draw: the job holds what the generator delivered, and the pool serves. -/
theorem releaseGrant_ungathered {g : Grant} (units) (d : Device) (h : g.kind = 4) (hready : instancesReady d.gather = true) :
    ungathered (releaseGrant g units d) = ungathered (charged g (chargeUnder g units d) (drewUnder g units d)) := by
  have hended : unqueued (arbitrate g.bench g.kind (ended g units true d)) = unqueued (charged g (chargeUnder g units d) (drewUnder g units d)) := by
    rw [arbitrate_unqueued g.bench _ (by omega), ended_unqueued units true d (by omega), charged_unqueued, charged_unqueued, moveUnits_of_draw units d h]
  have hstill : instancesReady (arbitrate g.bench g.kind (ended g units true d)).gather = true := by
    have hgather : (arbitrate g.bench g.kind (ended g units true d)).gather = (drewUnder g units d).gather :=
      (congrArg (·.gather) hended).trans (congrArg (·.gather) (charged_frame g _ (drewUnder g units d)))
    rw [hgather, ← hready]
    exact instancesReady_generate _ _ _ _
  rw [releaseGrant, if_pos h]
  exact (servePool_ungathered hstill).trans (ungathered_of_unqueued hended)

end Sys2Proof.Machine
end

section
/-! SUPPORT. What a release leaves. -/

namespace Sys2Proof.Machine

theorem kind_of_grantOf {c : CoreRef} {kind unit : Nat} {g : Grant} {d : Device} (h : grantOf c kind unit d = some g) : g.kind = kind := by
  have hg := List.find?_some h
  simp only [Bool.and_eq_true, decide_eq_true_eq] at hg
  obtain ⟨⟨⟨-, hkind⟩, -⟩, -⟩ := hg
  exact hkind
theorem exec_grantRelease {c : CoreRef} {kind unit : Nat} (units) {g : Grant} {s : State} (h : grantOf (lead c s.dev) kind unit s.dev = some g) :
    exec (.grantRelease c kind unit units) s = .next { s with dev := releaseGrant g units s.dev } := by
  show Host.Outcome.next { s with dev := doWith (grantOf (lead c s.dev) kind unit s.dev) (fun g => releaseGrant g units) s.dev } = _
  rw [h]
  rfl

section
variable {g : Grant} (units : Nat) {d : Device} (hready : g.kind = 4 → instancesReady d.gather = true)
include hready

theorem creditOf_releaseGrant (k t : Nat) :
    creditOf k t (releaseGrant g units d) = creditOf k t (charge g.kind g.tenant (chargeUnder g units d) d) := by
  by_cases h : g.kind = 4
  · refine (congrArg (creditOf k t) (releaseGrant_ungathered units d h (hready h)) :).trans ?_
    exact (congrArg (creditOf k t) (charged_frame g _ (drewUnder g units d)) :)
  · refine (creditOf_of_ungranted (releaseGrant_ungranted units d h) k t).trans ?_
    exact (congrArg (creditOf k t) (charged_frame g _ d) :)
theorem counter_releaseGrant : (creditOf g.kind g.tenant (releaseGrant g units d)).counter =
    (creditOf g.kind g.tenant d).counter - (chargeUnder g units d : Int) := by
  rw [creditOf_releaseGrant units hready, counter_charge]
theorem creditOf_releaseGrant_of_ne {t : Nat} (h : t ≠ g.tenant) (ht : t < 256) (hg : g.tenant < 256) :
    creditOf g.kind t (releaseGrant g units d) = creditOf g.kind t d := by
  rw [creditOf_releaseGrant units hready, creditOf_charge_of_ne _ d h ht hg]
theorem releaseGrant_frame : let e := releaseGrant g units d
    e = { d with gaffer := e.gaffer, shares := e.shares, benches := e.benches, gather := e.gather, draws := e.draws
                 keys := { d.keys with ports := e.keys.ports } } := by
  intro e
  let rest : Device → Device := fun x => { x with
    gaffer := e.gaffer, shares := e.shares, benches := e.benches, gather := e.gather, draws := e.draws, keys := { x.keys with ports := e.keys.ports } }
  by_cases h : g.kind = 4
  · refine (congrArg rest (releaseGrant_ungathered units d h (hready h)) :).trans ?_
    exact (congrArg rest (charged_frame g _ (drewUnder g units d)) :)
  · refine (congrArg rest (releaseGrant_ungranted units d h) :).trans ?_
    exact (congrArg rest (charged_frame g _ d) :)
end

/-- A draw's blocks stand in the job's local memory, and the generator's bytes are drawn (09 R316). -/
theorem releaseGrant_draws {g : Grant} (units) {d : Device} (h : g.kind = 4) (hready : instancesReady d.gather = true) {j : Job}
    (hj : jobOf g.job d = some j) : let drawn := (drawUnder g units d).1
    jobOf g.job (releaseGrant g units d) = some { j with drawn := j.drawn ++ drawn, drawnBlocks := j.drawnBlocks + drawn.length / 16 } ∧
      (releaseGrant g units d).draws = d.draws + drawn.length := by
  have hall := (releaseGrant_ungathered units d h hready).trans (congrArg ungathered (charged_frame g _ (drewUnder g units d)))
  refine ⟨(congrArg (jobOf g.job) hall :).trans ?_, congrArg (·.draws) hall⟩
  exact jobOf_modJob_self (d := { d with gather := (drawUnder g units d).2, draws := d.draws + (drawUnder g units d).1.length }) (by exact fun _ _ => rfl) hj
/-- Any other release leaves Gather and the jobs alone, but for the context record of a job whose engine another takes. -/
theorem releaseGrant_of_no_draw_keeps {g : Grant} (units) (d : Device) (h : g.kind ≠ 4) : let e := releaseGrant g units d
    e.gather = d.gather ∧ e.draws = d.draws ∧ (3 ≤ g.kind → e.gaffer = d.gaffer) ∧ e.gaffer = { d.gaffer with jobs := e.gaffer.jobs } ∧
      ∀ id, (jobOf id e).map contextless = (jobOf id d).map contextless := by
  intro e
  have hall : ungranted e = ungranted _ := (releaseGrant_ungranted units d h).trans (congrArg ungranted (charged_frame g _ d))
  refine ⟨congrArg (·.gather) hall, congrArg (·.draws) hall, fun hunit => ?_, congrArg (fun x => { x.gaffer with jobs := e.gaffer.jobs }) hall,
    fun id => (jobOf_of_ungranted (releaseGrant_ungranted units d h) id).trans (congrArg (fun x => (jobOf id x).map contextless) (charged_frame g _ d) :)⟩
  exact (congrArg (·.gaffer) (releaseGrant_unqueued units d h hunit)).trans (congrArg (·.gaffer) (charged_frame g _ d))

/-- A release charges the tenant by the kind of the unit, and what a draw delivered stands in the job's local memory. -/
theorem grantRelease_completes {c : CoreRef} {kind unit : Nat} (units : Nat) {g : Grant} {s : State} (hg : grantOf (lead c s.dev) kind unit s.dev = some g)
    (hready : kind = 4 → instancesReady s.dev.gather = true) :
    Completes (.grantRelease c kind unit units) s (fun d =>
      (creditOf kind g.tenant d).counter = (creditOf kind g.tenant s.dev).counter -
        ((if kind < 3 then max 1 (s.dev.time.ticks - g.since)
          else if kind = 4 then (generate s.dev.time.ticks g.bench units s.dev.gather).1.length / 16
          else if kind = 5 then units else g.moved : Nat) : Int) ∧
      (∀ t, t ≠ g.tenant → t < 256 → g.tenant < 256 → (creditOf kind t d).counter = (creditOf kind t s.dev).counter) ∧
      (∀ j, kind = 4 → jobOf g.job s.dev = some j →
        let drawn := (generate s.dev.time.ticks g.bench units s.dev.gather).1
        jobOf g.job d = some { j with drawn := j.drawn ++ drawn, drawnBlocks := j.drawnBlocks + drawn.length / 16 } ∧
        d.draws = s.dev.draws + drawn.length) ∧
      (kind ≠ 4 → d.gather = s.dev.gather ∧ d.draws = s.dev.draws ∧ (3 ≤ kind → d.gaffer = s.dev.gaffer) ∧
        d.gaffer = { s.dev.gaffer with jobs := d.gaffer.jobs } ∧
        ∀ id, (jobOf id d).map (fun j => { j with context := [] }) = (jobOf id s.dev).map (fun j => { j with context := [] })) ∧
      d = { s.dev with gaffer := d.gaffer, shares := d.shares, benches := d.benches, gather := d.gather, draws := d.draws
                       keys := { s.dev.keys with ports := d.keys.ports } }) := by
  obtain rfl := kind_of_grantOf hg
  refine ⟨_, exec_grantRelease units hg, counter_releaseGrant units hready, fun t hne ht htenant => ?_, fun j hdraw hj => ?_, fun hno => ?_,
    releaseGrant_frame units hready⟩
  · rw [creditOf_releaseGrant_of_ne units hready hne ht htenant]
  · exact releaseGrant_draws units hdraw (hready hdraw) hj
  · exact releaseGrant_of_no_draw_keeps units s.dev hno

end Sys2Proof.Machine
end

section
/-! SUPPORT. OVER_HOLD_CUTOFF (05 R189, R190), and O29. -/

namespace Sys2Proof.Machine

/-! ### What the arbiters report of grants cut off (05 R189) -/

/-- What the arbiters report of grants cut off. -/
def overs (d : Device) : Bool × BitVec 3 × Byte × BitVec 12 := (d.shares.overFlag, d.shares.overKind, d.shares.overTenant, d.shares.overCount)

theorem overs_of_jobless {d e : Device} (h : jobless d = jobless e) : overs d = overs e := (congrArg overs h :)
theorem overs_of_ungranted {d e : Device} (h : ungranted d = ungranted e) : overs d = overs e := (congrArg overs h :)
theorem overs_of_offwire {d e : Device} (h : offwire d = offwire e) : overs d = overs e := (congrArg overs h :)

theorem charged_overs (g n) (d : Device) : overs (charged g n d) = overs d := (congrArg overs (charged_frame g n d) :)
theorem endGrant_overs (g park) (d : Device) : overs (endGrant g park d) = overs d :=
  (overs_of_ungranted (endGrant_ungranted g park d)).trans (charged_overs g _ d)
theorem arbitrate_overs (bench kind) (d : Device) : overs (arbitrate bench kind d) = overs d := overs_of_ungranted (arbitrate_ungranted bench kind d)
theorem setPending_overs (ps) (d : Device) : overs { d with shares := { d.shares with pending := ps } } = overs d := rfl
theorem dropGrants_overs (job park) (d : Device) : overs (dropGrants job park d) = overs d := by
  rw [dropGrants, doEach_kept fun _ _ => arbitrate_overs _ _ _, setPending_overs, doEach_kept fun _ _ => endGrant_overs _ _ _]
  rfl
theorem modJob_overs (id f) (d : Device) : overs (modJob id f d) = overs d := rfl
theorem lehCount_overs (b k) (d : Device) : overs (lehCount b k d) = overs d := rfl
theorem coreCount_overs (c k n) (d : Device) : overs (coreCount c k n d) = overs d := rfl
theorem gafCount_overs (k) (d : Device) : overs (gafCount k d) = overs d := rfl
theorem setGaffer_overs (g) (d : Device) : overs { d with gaffer := g } = overs d := rfl
theorem modUnit_overs (c f) (d : Device) : overs (modUnit c f d) = overs d := (congrArg overs (modUnit_frame c f d) :)
theorem freeJobCore_overs (j) (d : Device) : overs (freeJobCore j d) = overs d := by
  refine doWith_kept fun c x => ?_
  rw [freeCore, doWith_kept fun _ _ => modJob_overs _ _ _, modUnit_overs]
theorem settleWork_overs (retired j) (d : Device) : overs (settleWork retired j d) = overs d := by
  unfold settleWork settleDraws
  split
  · exact ite_kept (view := overs) rfl
  · rfl
theorem traceJob_overs (kind j code) (d : Device) : overs (traceJob kind j code d) = overs d := overs_of_jobless (traceJob_jobless kind j code d)
theorem answerJob_overs (id code) (d : Device) : overs (answerJob id code d) = overs d := overs_of_jobless (answerJob_jobless id code d)
theorem dropJob_overs (id code) (d : Device) : overs (dropJob id code d) = overs d := by
  cases hj : jobOf id d with
  | none => simp only [dropJob, hj]
  | some j =>
    rw [dropJob_eq code hj, answerJob_overs, beforeDrop, doWith_kept fun _ _ => lehCount_overs _ _ _,
      doWith_kept fun _ _ => coreCount_overs _ _ _ _, traceJob_overs, settleWork_overs, freeJobCore_overs, dropGrants_overs]
theorem squashJob_overs (id code) (d : Device) : overs (squashJob id code d) = overs d := by
  unfold squashJob
  split
  · rfl
  · rw [dropJob_overs]
    exact ite_kept (view := overs) rfl
theorem decodeRead_overs (j) (d : Device) : overs (decodeRead j d).2 = overs d := by
  unfold decodeRead
  split
  · split
    · exact overs_of_offwire (denied_offwire _ _ _ _ d)
    · rfl
  · rfl
theorem dispatchJob_overs (c j) (d : Device) : overs (dispatchJob c j d) = overs d := by
  have reset : ∀ (x : Prop) [Decidable x] (code : Code) (k : Job) (e : Device),
      overs (if x then beginReset k e else (code, e)).2 = overs e := by
    intro x _ code k e
    split
    · obtain ⟨ts, heq⟩ := beginReset_frame k e
      rw [heq, setGaffer_overs]
    · rfl
  unfold dispatchJob
  dsimp only
  rw [doIf, ite_kept (dropJob_overs _ _ _), traceJob_overs, gafCount_overs, modJob_overs, setGaffer_overs, modUnit_overs, coreCount_overs, reset,
    decodeRead_overs]
theorem dispatchGo_overs (fuel) (d : Device) : overs (dispatchGo fuel d) = overs d := by
  induction fuel generalizing d with
  | zero => rfl
  | succ fuel ih =>
    unfold dispatchGo
    split
    · rfl
    · exact (ih _).trans (dispatchJob_overs _ _ d)
theorem dispatchAll_overs (d : Device) : overs (dispatchAll d) = overs d := by
  unfold dispatchAll
  split
  · exact (dispatchGo_overs _ _).trans (overs_of_jobless (expireHeads_jobless _ d))
  · rfl

/-! ### A grant is cut off -/

/-- The grant has ended, and its over-hold is reported. -/
def reported (g : Grant) (units : Nat) (d : Device) : Device :=
  let e := ended g units false d
  let e := { e with shares := { e.shares with
    overFlag := true, overKind := BitVec.ofNat 3 g.kind, overTenant := BitVec.ofNat 8 g.tenant, overCount := satInc e.shares.overCount } }
  let unit : Byte := match kindOf g.kind with | some k => engineUnit k g.unit | none => 0xFF
  emitVia (.bench g.bench) .warning 0x0301 (.bench g.bench) unit (some g.tenant) (leBytes 1 g.kind ++ leBytes 4 (d.time.ticks - g.since)) e
/-- The unit is withdrawn from service, or instantiated again. -/
def withdrawn (g : Grant) (units : Nat) (d : Device) : Device := withdrawUnit g (reported g units d)

theorem cutOff_eq (g : Grant) (units : Nat) (d : Device) :
    cutOff g units d = arbitrate g.bench g.kind (dispatchAll (squashJob g.job 0x0505 (withdrawn g units d))) := rfl

theorem withdrawUnit_kept {β : Type} {view : Device → β} (htest : ∀ b k n cause d, view (beginTest b k n cause d) = view d)
    (hgather : ∀ x d, view { d with gather := x } = view d) (g : Grant) (d : Device) : view (withdrawUnit g d) = view d := by
  unfold withdrawUnit
  split
  · exact htest _ _ _ _ _
  · exact ite_kept ((hgather _ _).trans (hgather _ _))
/-- What keeps the parts of the arbiters, of Gather and of the recorder keeps the end of a grant and the withdrawal of its unit. -/
theorem withdrawn_kept {β : Type} {view : Device → β} (hparts : ∀ shares gather events draws d, view { d with shares, gather, events, draws } = view d)
    (hjob : ∀ id x n d, view (modJob id (fun j => { j with drawn := j.drawn ++ x, drawnBlocks := j.drawnBlocks + n }) d) = view d)
    (hend : ∀ g park d, view (endGrant g park d) = view d) (htest : ∀ b k n cause d, view (beginTest b k n cause d) = view d)
    (g : Grant) (units : Nat) (d : Device) : view (withdrawn g units d) = view d := by
  have hmoved : view (moveUnits g units d).2 = view d := by
    unfold moveUnits
    split
    · exact (hparts _ _ _ _ (modJob _ _ _)).trans ((hjob _ _ _ _).trans (hparts _ _ _ _ d))
    · split
      · exact hparts _ _ _ _ d
      · rfl
  calc view (withdrawn g units d) = view (reported g units d) := withdrawUnit_kept htest (fun x d => hparts d.shares x d.events d.draws d) g _
    _ = view (ended g units false d) := hparts _ _ _ _ (ended g units false d)
    _ = view (moveUnits g units d).2 := hend _ _ _
    _ = view d := hmoved

theorem withdrawn_aside {id : Nat} (g units) (d : Device) : aside id (withdrawn g units d) = aside id d :=
  withdrawn_kept (fun _ _ _ _ _ => rfl) (fun _ _ _ _ => modJob_aside_of_kept (by exact fun _ => ⟨rfl, rfl, rfl⟩)) endGrant_aside beginTest_aside g units d
theorem withdrawn_standing (g units) (d : Device) : standing (withdrawn g units d) = standing d :=
  withdrawn_kept (fun _ _ _ _ _ => rfl) (fun _ _ _ _ => rfl) endGrant_standing beginTest_standing g units d
theorem withdrawn_outlying (g units) (d : Device) : outlying (withdrawn g units d) = outlying d :=
  withdrawn_kept (fun _ _ _ _ _ => rfl) (fun _ _ _ _ => rfl) endGrant_outlying beginTest_outlying g units d

theorem ended_overs (g units park) (d : Device) : overs (ended g units park d) = overs d := by
  have hmoved : overs (moveUnits g units d).2 = overs d := by
    unfold moveUnits
    split
    · rfl
    · split <;> rfl
  rw [ended, endGrant_overs, hmoved]
theorem withdrawn_overs (g units) (d : Device) :
    overs (withdrawn g units d) = (true, BitVec.ofNat 3 g.kind, BitVec.ofNat 8 g.tenant, satInc d.shares.overCount) := by
  have hcount : (ended g units false d).shares.overCount = d.shares.overCount := congrArg (·.2.2.2) (ended_overs g units false d)
  rw [withdrawn, withdrawUnit_kept (fun b k n cause d => overs_of_ungranted (beginTest_ungranted b k n cause d)) (fun _ _ => rfl), ← hcount]
  rfl

theorem squashJob_outlying (id code) (d : Device) : outlying (squashJob id code d) = outlying d := by
  unfold squashJob
  split
  · rfl
  · rw [dropJob_outlying, affect_outlying, ite_kept (gafCount_outlying _ _)]
theorem cutOff_outlying (g units) (d : Device) : outlying (cutOff g units d) = outlying d := by
  rw [cutOff_eq, arbitrate_outlying, dispatchAll_outlying, squashJob_outlying, withdrawn_outlying]
theorem cutOff_standing (g units) (d : Device) : standing (cutOff g units d) = standing d := by
  rw [cutOff_eq, arbitrate_standing, dispatchAll_standing, squashJob_standing, withdrawn_standing]
theorem cutOff_overs (g units) (d : Device) :
    overs (cutOff g units d) = (true, BitVec.ofNat 3 g.kind, BitVec.ofNat 8 g.tenant, satInc d.shares.overCount) := by
  rw [cutOff_eq, arbitrate_overs, dispatchAll_overs, squashJob_overs, withdrawn_overs]
/-- The job has its answer, and the key store is as before but for its ports. -/
theorem cutOff_answers {g : Grant} (units) {d : Device} (hids : (d.gaffer.jobs.map (·.id)).Nodup) (hj : (jobOf g.job d).isSome = true) :
    answeredWith g.job 0x0505 (cutOff g units d) ∧ (cutOff g units d).keys = { d.keys with ports := (cutOff g units d).keys.ports } := by
  have hwithdrawn := withdrawn_aside (id := g.job) g units d
  obtain ⟨hanswered, hkeys⟩ := dispatchAll_squashJob (k := g.job) (code := 0x0505) (d := withdrawn g units d)
    (ids_of_aside hwithdrawn ▸ hids) (isSome_of_aside hwithdrawn ▸ hj)
  have hlast := arbitrate_aside (id := g.job) g.bench g.kind (dispatchAll (squashJob g.job 0x0505 (withdrawn g units d)))
  rw [cutOff_eq]
  refine ⟨answeredWith_of_aside hlast hanswered, (keys_of_aside hlast).trans ?_⟩
  rw [hkeys, keys_of_aside hwithdrawn]

theorem exec_overHoldCutoff {c : CoreRef} {kind unit : Nat} (units) {g : Grant} {s : State} (hg : grantOf (lead c s.dev) kind unit s.dev = some g)
    (hheld : 32 * s.dev.shares.limitUs.toNat < s.dev.time.ticks - g.since) :
    exec (.overHoldCutoff c kind unit units) s = .next { s with dev := cutOff g units s.dev } := by
  show Host.Outcome.next { s with dev := doWith (grantOf (lead c s.dev) kind unit s.dev) _ s.dev } = _
  rw [hg]
  exact next_doIf (decide_eq_true hheld)

theorem overHoldCutoff_completes {c : CoreRef} {kind unit : Nat} (units : Nat) {g : Grant} {j : Job} {s : State}
    (hg : grantOf (lead c s.dev) kind unit s.dev = some g) (hheld : 32 * s.dev.shares.limitUs.toNat < s.dev.time.ticks - g.since)
    (hj : jobOf g.job s.dev = some j) (hdistinct : jobsDistinct s.dev) :
    Completes (.overHoldCutoff c kind unit units) s (fun d => d.shares.overFlag = true ∧ d.shares.overKind = BitVec.ofNat 3 kind ∧
      d.shares.overTenant = BitVec.ofNat 8 g.tenant ∧ d.shares.overCount = satInc s.dev.shares.overCount ∧
      (∃ k, jobOf g.job d = some k ∧ k.place = .answered ∧ k.code = 0x0505) ∧ d.fuses = s.dev.fuses ∧
      d.keys = { s.dev.keys with ports := d.keys.ports } ∧ d.net = s.dev.net) := by
  obtain rfl := kind_of_grantOf hg
  have hovers := cutOff_overs g units s.dev
  obtain ⟨⟨-, hanswer⟩, hkeys⟩ := cutOff_answers units hdistinct.1 (Option.isSome_of_eq_some hj)
  exact ⟨_, exec_overHoldCutoff units hg hheld, congrArg (·.1) hovers, congrArg (·.2.1) hovers, congrArg (·.2.2.1) hovers, congrArg (·.2.2.2) hovers,
    hanswer, (fuses_of_standing (cutOff_standing g units s.dev) :), hkeys, net_of_outlying (cutOff_outlying g units s.dev)⟩

/-- Settles O29: a request alone is granted or waits, a release charges its tenant, and an over-hold is cut off. -/
theorem unitsAreGrantedChargedAndCutOff : Obligations.UnitsAreGrantedChargedAndCutOff := by
  refine ⟨?_, ?_, ?_, ?_⟩
  · exact fun c kind amount u us j s hj hkind hbench hservice halone hpark hfree =>
      arbiterRequest_granted amount hj hkind hservice halone hpark hbench hfree
  · exact fun c kind amount j s hj hkind hservice halone hpark hfree => arbiterRequest_waits amount hj hkind hservice halone hpark hfree
  · exact fun c kind unit units g s hg hready => grantRelease_completes units hg hready
  · exact fun c kind unit units g j s hg hheld hj hdistinct => overHoldCutoff_completes units hg hheld hj hdistinct

end Sys2Proof.Machine
end

section
/-! SUPPORT. What the known-answer tests of the engines stand on (06 R232 to R234; 08 R298, R299), and that grants and dispatches leave it
alone. -/

namespace Sys2Proof.Machine

/-! ### Reading engines and benches -/

theorem engineBlock_modEngineBlock (k m : EngineKind) (f : EngineBlock → EngineBlock) (x : Bench) :
    engineBlock k (modEngineBlock m f x) = if k = m then f (engineBlock k x) else engineBlock k x := by
  cases k <;> cases m <;> rfl
theorem benchOf_modBench_of_ne {b c : Nat} (f : Bench → Bench) (d : Device) (h : c ≠ b) : benchOf b (modBench c f d) = benchOf b d := by
  simp [benchOf, modBench, tabGetD, h]
theorem engineOf_modBench {c : Nat} {f : Bench → Bench} (hf : ∀ k x, engineBlock k (f x) = engineBlock k x) (b k n) (d : Device) :
    engineOf b k n (modBench c f d) = engineOf b k n d := by
  unfold engineOf
  rcases benchOf_modBench b c f d with h | h <;> rw [h]
  rw [hf]

/-- An engine that is not absent is listed, and so is its bench. -/
theorem listed_of_state {b : Nat} {k : EngineKind} {n : Nat} {d : Device} (h : (engineOf b k n d).state ≠ .absent) :
    (tabGet b d.benches).isSome = true ∧ tabGet n (engineBlock k (benchOf b d)).engines = some (engineOf b k n d) := by
  unfold engineOf tabGetD at h ⊢
  constructor
  · cases hb : tabGet b d.benches with
    | some x => rfl
    | none => cases k <;> simp [benchOf, tabGetD, hb, engineBlock, tabGet] at h
  · cases hn : tabGet n (engineBlock k (benchOf b d)).engines with
    | some e => rfl
    | none => simp [hn] at h
theorem engineOf_modEngine_self {b : Nat} {k : EngineKind} {n : Nat} (f : Engine → Engine) {d : Device} (h : (engineOf b k n d).state ≠ .absent) :
    engineOf b k n (modEngine b k n f d) = f (engineOf b k n d) := by
  obtain ⟨hb, hn⟩ := listed_of_state h
  rw [modEngine, engineOf, benchOf_modBench_self _ hb, engineBlock_modEngineBlock, if_pos rfl, tabGetD, tabGet_tabMod, if_pos rfl, hn]
  rfl
theorem engineOf_modEngine_of_ne {b c : Nat} {k m : EngineKind} {n i : Nat} (f : Engine → Engine) (d : Device) (h : (b, k, n) ≠ (c, m, i)) :
    engineOf b k n (modEngine c m i f d) = engineOf b k n d := by
  unfold modEngine engineOf
  rcases benchOf_modBench b c (modEngineBlock m (fun x => { x with engines := tabMod i f x.engines })) d with hb | hb
  · rw [hb]
  · by_cases hc : c = b
    · subst hc
      rw [hb, engineBlock_modEngineBlock]
      split
      · next hk =>
        have hni : i ≠ n := fun hi => h (by rw [hk, hi])
        rw [tabGetD, tabGet_tabMod, if_neg hni]
        rfl
      · rfl
    · rw [benchOf_modBench_of_ne _ d hc]

theorem tabMod_tabMod {α : Type} (k : Nat) (f g : α → α) (t : Tab α) : tabMod k g (tabMod k f t) = tabMod k (g ∘ f) t := by
  induction t with
  | nil => rfl
  | cons p t ih =>
    obtain ⟨i, x⟩ := p
    by_cases hi : i = k
    · simp [tabMod, hi]
    · simp [tabMod, hi, ih]
theorem modEngine_modEngine (b k n) (f g : Engine → Engine) (d : Device) :
    modEngine b k n g (modEngine b k n f d) = modEngine b k n (g ∘ f) d := by
  simp only [modEngine, modBench, tabMod_tabMod]
  congr 2
  funext x
  cases k <;> simp [modEngineBlock, tabMod_tabMod]

/-! ### What tests read and write -/

/-- Of an engine: its state, its latest test, the causes of those that wait, and its scratch. -/
def testPart (e : Engine) : Engine :=
  { state := e.state, lastKat := e.lastKat, katCause := e.katCause, katCount := e.katCount, causes := e.causes, scratch := e.scratch }
/-- Of a block: its engines' tests and its campaign. -/
def testBlock (x : EngineBlock) : EngineBlock :=
  { engines := tabMap (fun _ => testPart) x.engines, testBusy := x.testBusy, testEngines := x.testEngines, testLeft := x.testLeft }
/-- Of a bench: its blocks' tests and the rotation. -/
def testBench (x : Bench) : Bench :=
  { marver := testBlock x.marver, cipher := testBlock x.cipher, punty := testBlock x.punty, katNext := x.katNext, katLast := x.katLast }
/-- Of the device: its benches' tests. -/
def testing (d : Device) : Device := { benches := tabMap (fun _ => testBench) d.benches }

theorem benchOf_testing (b : Nat) (d : Device) : benchOf b (testing d) = testBench (benchOf b d) := by
  simp only [benchOf, testing, tabGetD, tabGet_tabMap]
  cases tabGet b d.benches <;> rfl
theorem engineBlock_testBench (k : EngineKind) (x : Bench) : engineBlock k (testBench x) = testBlock (engineBlock k x) := by cases k <;> rfl
theorem engineOf_testing (b k n) (d : Device) : engineOf b k n (testing d) = testPart (engineOf b k n d) := by
  rw [engineOf, benchOf_testing, engineBlock_testBench, testBlock, tabGetD, tabGet_tabMap, engineOf, tabGetD]
  cases tabGet n (engineBlock k (benchOf b d)).engines <;> rfl

theorem testPart_of_testing {d e : Device} (h : testing d = testing e) (b k n) : testPart (engineOf b k n d) = testPart (engineOf b k n e) := by
  rw [← engineOf_testing, h, engineOf_testing]

/-! ### Updates that leave it alone -/

theorem testing_of_benches {d e : Device} (h : d.benches = e.benches) : testing d = testing e := by rw [testing, testing, h]
theorem testing_of_jobless {d e : Device} (h : jobless d = jobless e) : testing d = testing e := by
  have hrows : ∀ x : Device, testing (jobless x) = testing x := fun x =>
    congrArg (fun t => ({ benches := t } : Device)) (tabMap_tabMap_of_eq (g := testBench) (f := fun _ => rowless) (t := x.benches) fun _ _ => rfl)
  rw [← hrows d, h, hrows]
/-- A change of a bench shows among its tests as it acts on them. -/
theorem testing_modBench {b : Nat} {f g : Bench → Bench} {d : Device} (hf : ∀ x, testBench (f x) = g (testBench x)) :
    testing (modBench b f d) = modBench b g (testing d) := by
  unfold testing modBench
  rw [tabMap_tabMod_comm hf]
theorem modBench_testing {b : Nat} {f : Bench → Bench} {d : Device} (hf : ∀ x, testBench (f x) = testBench x) :
    testing (modBench b f d) = testing d :=
  congrArg (fun t => ({ benches := t } : Device)) (tabMap_tabMod_of_eq hf b d.benches)
theorem mapBenches_testing {f : Nat → Bench → Bench} {d : Device} (hf : ∀ n x, testBench (f n x) = testBench x) :
    testing { d with benches := tabMap f d.benches } = testing d :=
  congrArg (fun t => ({ benches := t } : Device)) (tabMap_tabMap_of_eq hf)
theorem testBench_modEngineBlock {k : EngineKind} {f g : EngineBlock → EngineBlock} (hf : ∀ x, testBlock (f x) = g (testBlock x)) (x : Bench) :
    testBench (modEngineBlock k f x) = modEngineBlock k g (testBench x) := by
  cases k <;> simp [testBench, modEngineBlock, hf]
theorem testBench_modEngineBlock_of_kept {k : EngineKind} {f : EngineBlock → EngineBlock} (hf : ∀ x, testBlock (f x) = testBlock x) (x : Bench) :
    testBench (modEngineBlock k f x) = testBench x := by
  cases k <;> simp [testBench, modEngineBlock, hf]
theorem testBench_modEngines {n : Nat} {f g : Engine → Engine} (hf : ∀ e, testPart (f e) = g (testPart e)) (k : EngineKind) (x : Bench) :
    testBench (modEngineBlock k (fun y => { y with engines := tabMod n f y.engines }) x) =
      modEngineBlock k (fun y => { y with engines := tabMod n g y.engines }) (testBench x) :=
  testBench_modEngineBlock (fun y => by simp only [testBlock, tabMap_tabMod_comm hf]) x
theorem testing_modEngine {b : Nat} {k : EngineKind} {n : Nat} {f g : Engine → Engine} {d : Device} (hf : ∀ e, testPart (f e) = g (testPart e)) :
    testing (modEngine b k n f d) = modEngine b k n g (testing d) :=
  testing_modBench (testBench_modEngines hf k)
theorem modEngine_testing {b : Nat} {k : EngineKind} {n : Nat} {f : Engine → Engine} {d : Device} (hf : ∀ e, testPart (f e) = testPart e) :
    testing (modEngine b k n f d) = testing d :=
  modBench_testing (testBench_modEngineBlock_of_kept fun x => by simp only [testBlock, tabMap_tabMod_of_eq hf])
theorem engineAdd_testing (b k n c v) (d : Device) : testing (engineAdd b k n c v d) = testing d :=
  modBench_testing (testBench_modEngineBlock_of_kept fun _ => rfl)
theorem engineWork_testing (b k n c v job) (d : Device) : testing (engineWork b k n c v job d) = testing d := modBench_testing fun _ => rfl

/-! ### Grants (05) -/

theorem freePort_testing (g) (d : Device) : testing (freePort g d) = testing d := ite_kept rfl
theorem saveContext_testing (g) (d : Device) : testing (saveContext g d) = testing d := by
  unfold saveContext
  split
  · rfl
  · dsimp only
    split
    · rfl
    · exact (engineWork_testing _ _ _ _ _ _ _).trans (modEngine_testing fun _ => rfl)
theorem dropParked_testing (p) (d : Device) : testing (dropParked p d) = testing d := doEach_kept (view := testing) saveContext_testing
theorem loadFromPort_testing (b k n j) (d : Device) : testing (loadFromPort b k n j d) = testing d := by
  unfold loadFromPort
  split
  · rw [ite_kept (engineWork_testing _ _ _ _ _ _ _)]
    exact modEngine_testing fun _ => rfl
  · rfl
theorem restoreContext_testing (b k n j) (d : Device) : testing (restoreContext b k n j d) = testing d := by
  refine both_kept rfl ((engineWork_testing _ _ _ _ _ _ _).trans (modEngine_testing ?_))
  exact fun _ => rfl
theorem startEngine_testing (b k n job) (d : Device) : testing (startEngine b k n job d) = testing d := by
  rw [startEngine, doWith_kept (view := testing) fun j x => by
    rw [restoreContext_testing, loadFromPort_testing]; exact modEngine_testing fun _ => rfl]
  exact modEngine_testing fun _ => rfl
theorem giveUnit_testing (r unit) (d : Device) : testing (giveUnit r unit d) = testing d := by
  rw [giveUnit, doWith_kept fun _ _ => startEngine_testing _ _ _ _ _]
  exact dropParked_testing _ d
theorem grantOne_testing (bench kind) (d : Device) : testing (grantOne bench kind d) = testing d := by
  unfold grantOne
  split
  · rfl
  · split
    · rfl
    · exact giveUnit_testing _ _ d
theorem arbitrate_testing (bench kind) (d : Device) : testing (arbitrate bench kind d) = testing d :=
  foldl_kept fun x _ => grantOne_testing bench kind x
theorem forgetChain_testing (job) (d : Device) : testing (forgetChain job d) = testing d := by
  refine mapBenches_testing fun _ x => ?_
  have hchain : ∀ x : EngineBlock, testBlock { x with engines := tabMap (fun _ e =>
      if e.chainJob = some job then { e with chain := [], shadow := [], chainJob := none } else e) x.engines } = testBlock x := fun x => by
    simp only [testBlock]
    rw [tabMap_tabMap_of_eq fun _ e => by split <;> rfl]
  rw [testBench_modEngineBlock_of_kept hchain, testBench_modEngineBlock_of_kept hchain]

/-! ### Jobs (04) -/

theorem setGaffer_testing (g) (d : Device) : testing { d with gaffer := g } = testing d := rfl
theorem modCore_testing (c f) (d : Device) : testing (modCore c f d) = testing d := modBench_testing fun _ => rfl
theorem modUnit_testing (c f) (d : Device) : testing (modUnit c f d) = testing d := by
  unfold modUnit
  split <;> simp only [modCore_testing]
theorem lehCount_testing (b k) (d : Device) : testing (lehCount b k d) = testing d := modBench_testing fun _ => rfl
theorem coreCount_testing (c k n) (d : Device) : testing (coreCount c k n d) = testing d := rfl
theorem modJob_testing (id f) (d : Device) : testing (modJob id f d) = testing d := rfl
theorem freeJobCore_testing (j) (d : Device) : testing (freeJobCore j d) = testing d := by
  refine doWith_kept fun c x => ?_
  rw [freeCore, doWith_kept fun _ _ => modJob_testing _ _ _, modUnit_testing]
theorem settleBench_testBench (retired id) (x : Bench) : testBench (settleBench retired id x) = testBench x := by
  have counted : ∀ (ws : List WorkCount) (x : Bench), testBench (ws.foldl (fun b w =>
      modEngineBlock w.kind (fun x => { x with ctr := ctrAdd w.counter w.amount x.ctr }) b) x) = testBench x := by
    intro ws
    induction ws with
    | nil => exact fun _ => rfl
    | cons w ws ih => exact fun x => (ih _).trans (testBench_modEngineBlock_of_kept (by exact fun _ => rfl) x)
  unfold settleBench
  dsimp only
  split
  · exact counted _ _
  · rfl
theorem settleWork_testing (retired j) (d : Device) : testing (settleWork retired j d) = testing d := by
  have hdraws : ∀ x : Device, testing (settleDraws retired j x) = testing x := fun x => by
    unfold settleDraws
    split
    · exact both_kept rfl rfl
    · rfl
  exact (hdraws _).trans (mapBenches_testing fun _ _ => settleBench_testBench _ _ _)
theorem decodeRead_testing (j) (d : Device) : testing (decodeRead j d).2 = testing d := by
  unfold decodeRead
  split
  · split
    · exact testing_of_benches (benches_of_offwire (denied_offwire _ _ _ _ d))
    · rfl
  · rfl

/-! ### An engine for which no test waits -/

/-- An engine stands so with its tests, and none waits for a grant to end. -/
def settledAs (b : Nat) (k : EngineKind) (n : Nat) (e : Engine) (d : Device) : Prop := testPart (engineOf b k n d) = e ∧ e.causes = []

section
variable {b : Nat} {k : EngineKind} {n : Nat} {e : Engine} {d x : Device}

theorem settledAs_of_testing (h : testing x = testing d) (hd : settledAs b k n e d) : settledAs b k n e x :=
  ⟨(testPart_of_testing h b k n).trans hd.1, hd.2⟩
theorem doWith_settledAs {α : Type} {o : Option α} {f : α → Device → Device} (hf : ∀ v x, settledAs b k n e x → settledAs b k n e (f v x))
    (hd : settledAs b k n e d) : settledAs b k n e (doWith o f d) := by
  cases o with
  | none => exact hd
  | some v => exact hf v d hd
theorem doEach_settledAs {α : Type} {xs : List α} {f : α → Device → Device} (hf : ∀ v x, settledAs b k n e x → settledAs b k n e (f v x))
    (hd : settledAs b k n e d) : settledAs b k n e (doEach xs f d) := by
  induction xs generalizing d with
  | nil => exact hd
  | cons v xs ih => exact ih (hf v d hd)

theorem clearScratch_testing (b n) (d : Device) :
    testing (modBench b (clearScratch n) d) = modEngine b .marver n (fun e => { e with scratch := [] }) (testing d) := by
  have hwindow := testBench_modEngines (n := n) (f := fun e => { e with scratch := [] }) (g := fun e => { e with scratch := [] }) (fun _ => rfl)
  exact testing_modBench (hwindow .marver)
/-- A test that begins writes its engine's state and the cause, and leaves an engine of Marver without scratch contents (06 R231). -/
theorem beginTest_testing (b k n cause) (d : Device) : testing (beginTest b k n cause d) =
    modEngine b k n (fun e => { e with state := .inTest, katCause := cause, scratch := if k = .marver then [] else e.scratch }) (testing d) := by
  have hstart : testing (beginTest b k n cause d) = modEngine b k n (fun e => { e with state := .inTest, katCause := cause })
      (testing (if k = .marver then modBench b (clearScratch n) d else d)) := by
    refine Eq.trans ?_ (congrArg _ (dropParked_testing (sameUnit b (kindCode k) n) _))
    refine (testing_of_benches rfl).trans (testing_modEngine ?_)
    exact fun _ => rfl
  rw [hstart]
  split
  · next hk => rw [hk, clearScratch_testing, modEngine_modEngine]; rfl
  · rfl
theorem beginDue_settledAs (c m i) (hd : settledAs b k n e d) : settledAs b k n e (beginDue c m i d) := by
  obtain ⟨hpart, hnone⟩ := hd
  have hcauses : (engineOf b k n d).causes = [] := (congrArg Engine.causes hpart).trans hnone
  unfold beginDue
  split
  · exact ⟨hpart, hnone⟩
  · next cause t hdue =>
    have hne : (b, k, n) ≠ (c, m, i) := by
      rintro ⟨⟩
      rw [hcauses] at hdue
      cases hdue
    refine ⟨?_, hnone⟩
    rw [← engineOf_testing, beginTest_testing, testing_modEngine (g := fun e => { e with causes := t }) fun _ => rfl,
      engineOf_modEngine_of_ne _ _ hne, engineOf_modEngine_of_ne _ _ hne, engineOf_testing, hpart]
theorem endGrant_settledAs (g park) (hd : settledAs b k n e d) : settledAs b k n e (endGrant g park d) := by
  refine doWith_settledAs (fun m x hx => beginDue_settledAs _ _ _ (settledAs_of_testing ?_ hx)) (settledAs_of_testing ?_ hd)
  · exact (engineWork_testing _ _ _ _ _ _ _).trans (modEngine_testing (by exact fun _ => rfl))
  · exact (both_kept (view := testing) rfl (saveContext_testing g _)).trans (freePort_testing g _)
theorem dropGrants_settledAs (job park) (hd : settledAs b k n e d) : settledAs b k n e (dropGrants job park d) := by
  have hended := doEach_settledAs (xs := (forgetChain job d).shares.grants.filter (fun g => decide (g.job = job) && !g.parked))
    (fun g _ => endGrant_settledAs g park) (settledAs_of_testing (forgetChain_testing job d) hd)
  exact settledAs_of_testing (doEach_kept (view := testing) fun g x => arbitrate_testing _ _ x) hended
theorem dropJob_settledAs (id code) (hd : settledAs b k n e d) : settledAs b k n e (dropJob id code d) := by
  cases hj : jobOf id d with
  | none => simpa only [dropJob, hj] using hd
  | some j =>
    refine settledAs_of_testing ?_ (dropGrants_settledAs id true hd)
    rw [dropJob_eq code hj, testing_of_jobless (answerJob_jobless _ _ _), beforeDrop, doWith_kept fun _ _ => lehCount_testing _ _ _,
      doWith_kept fun _ _ => coreCount_testing _ _ _ _, testing_of_jobless (traceJob_jobless _ _ _ _), settleWork_testing, freeJobCore_testing]
theorem dispatchJob_settledAs (c j) (hd : settledAs b k n e d) : settledAs b k n e (dispatchJob c j d) := by
  have reset : ∀ (x : Prop) [Decidable x] (code : Code) (k : Job) (e : Device),
      testing (if x then beginReset k e else (code, e)).2 = testing e := by
    intro x _ code k e
    split
    · obtain ⟨ts, heq⟩ := beginReset_frame k e
      rw [heq]
      rfl
    · rfl
  have unread : ∀ (c : Bool) (id : Nat) (code : Code) (x : Device), settledAs b k n e x → settledAs b k n e (doIf c (dropJob id code) x) := by
    intro c id code x hx
    unfold doIf
    split
    · exact dropJob_settledAs _ _ hx
    · exact hx
  unfold dispatchJob
  dsimp only
  refine unread _ _ _ _ (settledAs_of_testing ?_ hd)
  rw [testing_of_jobless ((traceJob_jobless _ _ _ _).trans (gafCount_jobless _ _)), modJob_testing, setGaffer_testing,
    modUnit_testing, coreCount_testing, reset, decodeRead_testing]
theorem dispatchGo_settledAs (fuel) (hd : settledAs b k n e d) : settledAs b k n e (dispatchGo fuel d) := by
  induction fuel generalizing d with
  | zero => exact hd
  | succ fuel ih =>
    unfold dispatchGo
    split
    · exact hd
    · exact ih (dispatchJob_settledAs _ _ hd)
theorem dispatchAll_settledAs (hd : settledAs b k n e d) : settledAs b k n e (dispatchAll d) := by
  unfold dispatchAll
  split
  · exact dispatchGo_settledAs _ (settledAs_of_testing (testing_of_jobless (expireHeads_jobless _ d)) hd)
  · exact hd
end

end Sys2Proof.Machine
end

section
/-! SUPPORT. Known-answer tests begin and end (06 R232 to R234, R241; 08 R298, R299, R301, R302), and O31. -/

namespace Sys2Proof.Machine

/-! ### A test begins -/

/-- Of a bench its rotation: the position that comes next, and when the latest test began. -/
def rotationOf (b : Nat) (d : Device) : Nat × Nat := ((benchOf b d).katNext, (benchOf b d).katLast)

theorem rotationOf_testing (b) (d : Device) : rotationOf b (testing d) = rotationOf b d := by
  rw [rotationOf, benchOf_testing]
  rfl
theorem rotationOf_modEngine (b c m i f) (d : Device) : rotationOf b (modEngine c m i f d) = rotationOf b d := by
  unfold rotationOf modEngine
  rcases benchOf_modBench b c (modEngineBlock m (fun x => { x with engines := tabMod i f x.engines })) d with h | h <;> rw [h]
  rfl
theorem rotationOf_beginTest (b c m i cause) (d : Device) : rotationOf b (beginTest c m i cause d) = rotationOf b d := by
  rw [← rotationOf_testing, beginTest_testing, rotationOf_modEngine, rotationOf_testing]

/-- Of a block its campaign: whether one runs, on which engines, and those still to be withdrawn. -/
def campaignOf (b : Nat) (k : EngineKind) (d : Device) : Bool × BitVec 8 × List Nat :=
  let x := engineBlock k (benchOf b d)
  (x.testBusy, x.testEngines, x.testLeft)

theorem campaignOf_testing (b k) (d : Device) : campaignOf b k (testing d) = campaignOf b k d := by
  rw [campaignOf, benchOf_testing, engineBlock_testBench]
  rfl
theorem campaignOf_modEngine (b k c m i f) (d : Device) : campaignOf b k (modEngine c m i f d) = campaignOf b k d := by
  unfold campaignOf modEngine
  rcases benchOf_modBench b c (modEngineBlock m (fun x => { x with engines := tabMod i f x.engines })) d with h | h <;> rw [h]
  rw [engineBlock_modEngineBlock]
  split <;> rfl
theorem campaignOf_beginTest (b k c m i cause) (d : Device) : campaignOf b k (beginTest c m i cause d) = campaignOf b k d := by
  rw [← campaignOf_testing, beginTest_testing, campaignOf_modEngine, campaignOf_testing]

section
variable {b : Nat} {k : EngineKind} {n : Nat} {d : Device}

/-- An engine in service that no grant holds is withdrawn at once (06 R233). -/
theorem withdrawEngine_of_free (cause : BitVec 2) (hserves : (engineOf b k n d).state = .inService) (hfree : engineHeld b k n d = false) :
    withdrawEngine b k n cause d = beginTest b k n cause d := by
  simp [withdrawEngine, hserves, hfree]
theorem withdrawEngine_of_inTest (cause : BitVec 2) (htest : (engineOf b k n d).state = .inTest) : withdrawEngine b k n cause d = d := by
  simp [withdrawEngine, htest]
/-- The engine is under test; of the scratch that engines have, Marver's is empty. -/
theorem testPart_beginTest (cause : BitVec 2) (h : (engineOf b k n d).state ≠ .absent) :
    testPart (engineOf b k n (beginTest b k n cause d)) = { testPart (engineOf b k n d) with
      state := .inTest, katCause := cause, scratch := if k = .marver then [] else (engineOf b k n d).scratch } := by
  rw [← engineOf_testing, beginTest_testing, engineOf_modEngine_self _ (by rw [engineOf_testing]; exact h), engineOf_testing]
  rfl

/-! ### The periodic test (06 R233; 08 R299) -/

/-- The rotation has passed a position. -/
def rotated (b p : Nat) (d : Device) : Device := modBench b (fun x => { x with katNext := (p + 1) % 14, katLast := d.time.ticks }) d

theorem state_of_katPosition {p : Nat} (h : katPosition b d = some p) : (engineOf b (katUnit p).1 (katUnit p).2 d).state = .inService := by
  have hserves := List.find?_some h
  simpa [katServes] using hserves
theorem engineOf_rotated (c k n) (p : Nat) : engineOf c k n (rotated b p d) = engineOf c k n d :=
  engineOf_modBench (fun k _ => by cases k <;> rfl) c k n d
theorem katWithdraw_eq {p : Nat} (hp : katPosition b d = some p) (hfree : engineHeld b (katUnit p).1 (katUnit p).2 d = false) :
    katWithdraw b d = beginTest b (katUnit p).1 (katUnit p).2 1 (rotated b p d) := by
  unfold katWithdraw
  rw [hp]
  exact withdrawEngine_of_free 1 ((congrArg Engine.state (engineOf_rotated _ _ _ p)).trans (state_of_katPosition hp)) hfree
theorem beginTest_frame (b k n cause) (d : Device) : beginTest b k n cause d =
    { d with gaffer := (beginTest b k n cause d).gaffer, shares := (beginTest b k n cause d).shares, benches := (beginTest b k n cause d).benches } :=
  congrArg (fun x => { x with gaffer := (beginTest b k n cause d).gaffer, shares := (beginTest b k n cause d).shares
                              benches := (beginTest b k n cause d).benches }) (beginTest_ungranted b k n cause d)
end

theorem isSome_of_benchRuns {b : Nat} {d : Device} (h : benchRuns b d = true) : (tabGet b d.benches).isSome = true := by
  simp only [benchRuns, Bool.and_eq_true] at h
  obtain ⟨⟨⟨⟨hlisted, -⟩, -⟩, -⟩, -⟩ := h
  exact hlisted

/-- The first clause of O31 with the scratch as it is: a Marver engine's is empty, and that of any other engine is as before. -/
theorem periodicKatWithdrawal_completes {b p : Nat} {s : State} (hruns : benchRuns b s.dev = true) (hdue : katDue b s.dev = true)
    (hp : katPosition b s.dev = some p) (hfree : engineHeld b (katUnit p).1 (katUnit p).2 s.dev = false) :
    Completes (.periodicKatWithdrawal b) s (fun d => (engineOf b (katUnit p).1 (katUnit p).2 d).state = .inTest ∧
      (engineOf b (katUnit p).1 (katUnit p).2 d).katCause = 1 ∧
      (engineOf b (katUnit p).1 (katUnit p).2 d).scratch =
        (if (katUnit p).1 = .marver then [] else (engineOf b (katUnit p).1 (katUnit p).2 s.dev).scratch) ∧
      (benchOf b d).katNext = (p + 1) % 14 ∧ (benchOf b d).katLast = s.dev.time.ticks ∧
      d = { s.dev with gaffer := d.gaffer, shares := d.shares, benches := d.benches }) := by
  have hexec : exec (.periodicKatWithdrawal b) s = .next { s with dev := katWithdraw b s.dev } := next_doIf (by simp [hruns, hdue])
  have hstate := state_of_katPosition hp
  rw [katWithdraw_eq hp hfree] at hexec
  have hbegun := testPart_beginTest (b := b) (k := (katUnit p).1) (n := (katUnit p).2) (d := rotated b p s.dev) 1
    (by rw [engineOf_rotated, hstate]; simp)
  rw [engineOf_rotated] at hbegun
  have hrotation : rotationOf b (beginTest b (katUnit p).1 (katUnit p).2 1 (rotated b p s.dev)) = ((p + 1) % 14, s.dev.time.ticks) := by
    rw [rotationOf_beginTest, rotationOf, rotated, benchOf_modBench_self _ (isSome_of_benchRuns hruns)]
  exact ⟨_, hexec, congrArg Engine.state hbegun, congrArg Engine.katCause hbegun, congrArg Engine.scratch hbegun, congrArg Prod.fst hrotation,
    congrArg Prod.snd hrotation, beginTest_frame _ _ _ _ (rotated b p s.dev)⟩

/-! ### A test ends (06 R232, R234; 08 R298, R299) -/

section
variable {b : Nat} {k : EngineKind} {n : Nat} {e : Engine} {d : Device}

/-- The test is counted. -/
def tallied (b : Nat) (k : EngineKind) (n : Nat) (d : Device) : Device :=
  engineCount b k n (testRunNo k) (modEngine b k n (fun e => { e with katCount := satInc e.katCount }) d)
/-- The engine is back in service. -/
def returned (b : Nat) (k : EngineKind) (n : Nat) (d : Device) : Device :=
  modEngine b k n (fun e => { e with state := .inService, lastKat := 1, mode := 0 }) (tallied b k n d)
/-- The engine is retired. -/
def failed (b : Nat) (k : EngineKind) (n : Nat) (f : KatFindings) (d : Device) : Device :=
  retireEngine b k n (failingVector k f.outputs) (engineCount b k n (testFailNo k) (tallied b k n d))
/-- The campaign goes on, and what is free is granted and dispatched. -/
def resumed (b : Nat) (k : EngineKind) (d : Device) : Device := dispatchAll (arbitrate b (kindCode k) (campaignOn b k d))

theorem tallied_testing (b k n) (d : Device) :
    testing (tallied b k n d) = modEngine b k n (fun e => { e with katCount := satInc e.katCount }) (testing d) := by
  refine (engineAdd_testing _ _ _ _ _ _).trans (testing_modEngine ?_)
  exact fun _ => rfl
theorem returned_testing (b k n) (d : Device) : testing (returned b k n d) =
    modEngine b k n (fun e => { e with state := .inService, lastKat := 1, katCount := satInc e.katCount }) (testing d) := by
  have hmode := testing_modEngine (b := b) (k := k) (n := n) (d := tallied b k n d) (f := fun e => { e with state := .inService, lastKat := 1, mode := 0 })
    (g := fun e => { e with state := .inService, lastKat := 1 }) fun _ => rfl
  rw [returned, hmode, tallied_testing, modEngine_modEngine]
  rfl
theorem failed_testing (b k n f) (d : Device) : testing (failed b k n f d) =
    modEngine b k n (fun e => { e with state := .retired, lastKat := 2, causes := [], katCount := satInc e.katCount }) (testing d) := by
  have hmode := testing_modEngine (b := b) (k := k) (n := n) (d := faultKind 2 (openWindow .recovery (engineCount b k n (testFailNo k) (tallied b k n d))))
    (f := fun e => { e with state := .retired, lastKat := 2, mode := 0, causes := [] })
    (g := fun e => { e with state := .retired, lastKat := 2, causes := [] }) fun _ => rfl
  have hcount : testing (faultKind 2 (openWindow .recovery (engineCount b k n (testFailNo k) (tallied b k n d)))) = testing (tallied b k n d) :=
    engineAdd_testing _ _ _ _ _ _
  refine Eq.trans hmode ?_
  rw [hcount, tallied_testing, modEngine_modEngine]
  rfl

theorem testPart_returned (h : (engineOf b k n d).state ≠ .absent) : testPart (engineOf b k n (returned b k n d)) =
    { testPart (engineOf b k n d) with state := .inService, lastKat := 1, katCount := satInc (engineOf b k n d).katCount } := by
  rw [← engineOf_testing, returned_testing, engineOf_modEngine_self _ (by rwa [engineOf_testing]), engineOf_testing]
  rfl
theorem testPart_failed (f : KatFindings) (h : (engineOf b k n d).state ≠ .absent) : testPart (engineOf b k n (failed b k n f d)) =
    { testPart (engineOf b k n d) with state := .retired, lastKat := 2, causes := [], katCount := satInc (engineOf b k n d).katCount } := by
  rw [← engineOf_testing, failed_testing, engineOf_modEngine_self _ (by rwa [engineOf_testing]), engineOf_testing]
  rfl

theorem retireEngine_fuses (vector) (d : Device) : (retireEngine b k n vector d).fuses = d.fuses := by unfold retireEngine emitVia; rfl
theorem retireEngine_keys (vector) (d : Device) : (retireEngine b k n vector d).keys = d.keys := by unfold retireEngine emitVia; rfl
theorem failed_fuses (f) (d : Device) : (failed b k n f d).fuses = d.fuses := (retireEngine_fuses _ _).trans rfl
theorem failed_keys (f) (d : Device) : (failed b k n f d).keys = d.keys := (retireEngine_keys _ _).trans rfl

theorem katEnd_of_passed {f : KatFindings} (hpass : katPasses k f = true) (hcauses : (engineOf b k n (returned b k n d)).causes = []) :
    katEnd b k n f d = resumed b k (returned b k n d) := by
  have hdue : beginDue b k n (returned b k n d) = returned b k n d := by simp [beginDue, hcauses]
  simp only [katEnd, hpass, if_true]
  exact congrArg (resumed b k) hdue
theorem katEnd_of_failed {f : KatFindings} (hfail : katPasses k f = false) : katEnd b k n f d = resumed b k (failed b k n f d) := by
  simp only [katEnd, hfail, Bool.false_eq_true, if_false]
  rfl

theorem campaignOn_of_idle (h : (campaignOf b k d).1 = false) : campaignOn b k d = d := by
  have hbusy : (engineBlock k (benchOf b d)).testBusy = false := h
  simp [campaignOn, hbusy]
/-- A dispatch keeps the key store but for its ports. -/
theorem dispatchAll_keys (d : Device) : (dispatchAll d).keys = { d.keys with ports := (dispatchAll d).keys.ports } := by
  obtain ⟨id, hid⟩ := Infinite.exists_notMem_finset (d.gaffer.jobs.map (·.id)).toFinset
  exact keys_of_aside (dispatchAll_aside_of_absent (id := id) (by simpa [absent] using hid))
theorem resumed_keys (h : (campaignOf b k d).1 = false) : (resumed b k d).keys = { d.keys with ports := (resumed b k d).keys.ports } := by
  rw [resumed, campaignOn_of_idle h]
  refine (dispatchAll_keys _).trans ?_
  rw [keys_of_aside (arbitrate_aside (id := 0) b (kindCode k) d)]
theorem resumed_fuses (h : (campaignOf b k d).1 = false) : (resumed b k d).fuses = d.fuses := by
  have hstanding : standing (resumed b k d) = standing d := by
    rw [resumed, campaignOn_of_idle h, dispatchAll_standing, arbitrate_standing]
  exact (fuses_of_standing hstanding :)
theorem resumed_settledAs (h : (campaignOf b k d).1 = false) (hd : settledAs b k n e d) : settledAs b k n e (resumed b k d) := by
  rw [resumed, campaignOn_of_idle h]
  exact dispatchAll_settledAs (settledAs_of_testing (arbitrate_testing _ _ d) hd)
end

/-- A test that has taken its time ends. -/
theorem exec_engineKatEnd {b : Nat} {k : EngineKind} {n : Nat} (f : KatFindings) {s : State} (hruns : benchRuns b s.dev = true)
    (htest : (engineOf b k n s.dev).state = .inTest) (hover : katOver b k n s.dev = true) :
    exec (.engineKatEnd b k n f) s = .next { s with dev := katEnd b k n f s.dev } := next_doIf (by simp [hruns, htest, hover])

section
variable {b : Nat} {k : EngineKind} {n : Nat} {f : KatFindings} {s : State} (hruns : benchRuns b s.dev = true)
  (htest : (engineOf b k n s.dev).state = .inTest) (hidle : (engineBlock k (benchOf b s.dev)).testBusy = false) (hover : katOver b k n s.dev = true)
include hruns htest hidle hover

/-- An engine that passes and for which no further test waits returns to service. -/
theorem engineKatEnd_returns (hcauses : (engineOf b k n s.dev).causes = []) (hpass : katPasses k f = true) :
    Completes (.engineKatEnd b k n f) s (fun d => (engineOf b k n d).state = .inService ∧ (engineOf b k n d).lastKat = 1 ∧
      (engineOf b k n d).katCount = satInc (engineOf b k n s.dev).katCount ∧ d.fuses = s.dev.fuses ∧
      d.keys = { s.dev.keys with ports := d.keys.ports }) := by
  have hpart := testPart_returned (b := b) (k := k) (n := n) (d := s.dev) (by simp [htest])
  have hnone : (engineOf b k n (returned b k n s.dev)).causes = [] := (congrArg Engine.causes hpart).trans hcauses
  have hstill : (campaignOf b k (returned b k n s.dev)).1 = false := by
    rw [← campaignOf_testing, returned_testing, campaignOf_modEngine, campaignOf_testing]
    exact hidle
  obtain ⟨hend, -⟩ := resumed_settledAs hstill ⟨hpart, hcauses⟩
  refine ⟨_, (exec_engineKatEnd f hruns htest hover).trans (by rw [katEnd_of_passed hpass hnone]), ?_⟩
  exact ⟨congrArg Engine.state hend, congrArg Engine.lastKat hend, congrArg Engine.katCount hend, resumed_fuses hstill, resumed_keys hstill⟩
/-- An engine that fails is retired, whatever test waits for it. -/
theorem engineKatEnd_retires (hfail : katPasses k f = false) :
    Completes (.engineKatEnd b k n f) s (fun d => (engineOf b k n d).state = .retired ∧ (engineOf b k n d).lastKat = 2 ∧
      d.fuses = s.dev.fuses ∧ d.keys = { s.dev.keys with ports := d.keys.ports }) := by
  have hpart := testPart_failed (b := b) (k := k) (n := n) (d := s.dev) f (by simp [htest])
  have hstill : (campaignOf b k (failed b k n f s.dev)).1 = false := by
    rw [← campaignOf_testing, failed_testing, campaignOf_modEngine, campaignOf_testing]
    exact hidle
  obtain ⟨hend, -⟩ := resumed_settledAs hstill ⟨hpart, rfl⟩
  have hkeys := resumed_keys hstill
  rw [failed_keys] at hkeys
  refine ⟨_, (exec_engineKatEnd f hruns htest hover).trans (by rw [katEnd_of_failed hfail]), ?_⟩
  exact ⟨congrArg Engine.state hend, congrArg Engine.lastKat hend, (resumed_fuses hstill).trans (failed_fuses f _), hkeys⟩
end

/-! ### The campaigns of the manager (06 R241; 08 R301, R302) -/

section
variable {b : Nat} {k : EngineKind} {n : Nat} {m : BitVec 8} {d : Device}

/-- A campaign runs on one engine, which is under test for it, and no other engine is still to be withdrawn. -/
def campaigning (b : Nat) (k : EngineKind) (n : Nat) (m : BitVec 8) (d : Device) : Prop :=
  (∃ left, campaignOf b k d = (true, m, left) ∧ ∀ i ∈ left, i = n) ∧ (engineOf b k n d).state = .inTest ∧ (engineOf b k n d).katCause = 3

theorem engineBlock_setSticky (f) (h : (tabGet b d.benches).isSome = true) :
    engineBlock k (benchOf b (setSticky b k f d)) = f (engineBlock k (benchOf b d)) := by
  rw [setSticky, benchOf_modBench_self _ h, engineBlock_modEngineBlock, if_pos rfl]
/-- The sticky bits of a block and its campaign are none of its engines. -/
theorem engineOf_setSticky {f : EngineBlock → EngineBlock} (hf : ∀ x, (f x).engines = x.engines) (n) (d : Device) :
    engineOf b k n (setSticky b k f d) = engineOf b k n d := by
  unfold setSticky engineOf
  rcases benchOf_modBench b b (modEngineBlock k f) d with h | h <;> rw [h]
  rw [engineBlock_modEngineBlock, if_pos rfl, hf]

theorem mem_of_tabGet {α : Type} {j : Nat} {x : α} {t : Tab α} (h : tabGet j t = some x) : (j, x) ∈ t := by
  induction t with
  | nil => cases h
  | cons p t ih =>
    obtain ⟨i, y⟩ := p
    simp only [tabGet] at h
    split at h
    · next hi => cases h; rw [hi]; exact List.mem_cons_self
    · exact List.mem_cons_of_mem _ (ih h)
/-- An engine under test for a campaign counts as one that it has withdrawn. -/
theorem campaignRunning_pos (htest : (engineOf b k n d).state = .inTest) (hcause : (engineOf b k n d).katCause = 3) : 0 < campaignRunning b k d := by
  obtain ⟨-, hlisted⟩ := listed_of_state (b := b) (k := k) (n := n) (d := d) (by simp [htest])
  refine List.length_pos_of_mem (List.mem_filter.mpr ⟨mem_of_tabGet hlisted, ?_⟩)
  simp [htest, hcause]
theorem campaigning_setSticky {left : List Nat} (h : campaigning b k n m d) (hleft : ∀ i ∈ left, i = n) :
    campaigning b k n m (setSticky b k (fun x => { x with testLeft := left }) d) := by
  obtain ⟨⟨rest, hcampaign, -⟩, htest, hcause⟩ := h
  obtain ⟨hb, -⟩ := listed_of_state (b := b) (k := k) (n := n) (d := d) (by simp [htest])
  simp only [campaignOf, Prod.mk.injEq] at hcampaign
  obtain ⟨hbusy, hengines, -⟩ := hcampaign
  have hengine := engineOf_setSticky (b := b) (k := k) (f := fun x => { x with testLeft := left }) (fun _ => rfl) n d
  refine ⟨⟨left, ?_, hleft⟩, by rw [hengine, htest], by rw [hengine, hcause]⟩
  rw [campaignOf, engineBlock_setSticky _ hb, hbusy, hengines]
/-- The one engine of a campaign is withdrawn. -/
theorem withdrawEngine_campaigning {left : List Nat} (hcampaign : campaignOf b k d = (true, m, left)) (hleft : ∀ i ∈ left, i = n)
    (hserves : (engineOf b k n d).state = .inService) (hfree : engineHeld b k n d = false) :
    campaigning b k n m (withdrawEngine b k n 3 d) := by
  have hpart := testPart_beginTest (b := b) (k := k) (n := n) (d := d) 3 (by simp [hserves])
  rw [withdrawEngine_of_free 3 hserves hfree]
  exact ⟨⟨left, (campaignOf_beginTest _ _ _ _ _ _ d).trans hcampaign, hleft⟩, congrArg Engine.state hpart, congrArg Engine.katCause hpart⟩
/-- Where the campaign goes on, what is left of it is the engine under test. -/
theorem campaignGo_campaigning (fuel) (h : campaigning b k n m d) : campaigning b k n m (campaignGo b k fuel d) := by
  induction fuel generalizing d with
  | zero => exact h
  | succ fuel ih =>
    obtain ⟨⟨left, hcampaign, hleft⟩, -, -⟩ := id h
    have htestLeft : (engineBlock k (benchOf b d)).testLeft = left := congrArg (·.2.2) hcampaign
    unfold campaignGo
    rw [htestLeft]
    split
    · exact h
    · next i rest =>
      split
      · exact h
      · obtain rfl := hleft i List.mem_cons_self
        have hrest := campaigning_setSticky h fun j hj => hleft j (List.mem_cons_of_mem _ hj)
        obtain ⟨-, htest, -⟩ := id hrest
        rw [withdrawEngine_of_inTest 3 htest]
        exact ih hrest
/-- With an engine under test the campaign does not end. -/
theorem campaignOn_of_running (hbusy : (campaignOf b k d).1 = true) (h : campaigning b k n m (campaignGo b k 8 d)) :
    campaigning b k n m (campaignOn b k d) := by
  obtain ⟨-, htest, hcause⟩ := id h
  have hpos := campaignRunning_pos htest hcause
  have hbusy : (engineBlock k (benchOf b d)).testBusy = true := hbusy
  have hon : campaignOn b k d = campaignGo b k 8 d := by
    simp only [campaignOn, hbusy, Bool.not_true, Bool.false_eq_true, if_false]
    rw [if_neg (by simp; omega)]
  rwa [hon]

/-- The engines in service that a campaign of one engine selects. -/
theorem selected_of_one {t : Tab Engine} {e : Engine} (hn : tabGet n t = some e) (hserves : e.state = .inService) :
    ∃ rest, (t.filter (fun p => (2 ^ n).testBit p.1 && p.2.state == .inService)).map (·.1) = n :: rest ∧ ∀ i ∈ rest, i = n := by
  have hall : ∀ i ∈ (t.filter (fun p => (2 ^ n).testBit p.1 && p.2.state == .inService)).map (·.1), i = n := by
    intro i hi
    obtain ⟨p, hp, rfl⟩ := List.mem_map.mp hi
    have hbit := (List.mem_filter.mp hp).2
    simp only [Nat.testBit_two_pow, Bool.and_eq_true, decide_eq_true_eq] at hbit
    obtain ⟨rfl, -⟩ := hbit
    rfl
  have hmem : n ∈ (t.filter (fun p => (2 ^ n).testBit p.1 && p.2.state == .inService)).map (·.1) :=
    List.mem_map.mpr ⟨(n, e), List.mem_filter.mpr ⟨mem_of_tabGet hn, by simp [hserves]⟩, rfl⟩
  generalize (t.filter (fun p => (2 ^ n).testBit p.1 && p.2.state == .inService)).map (·.1) = selected at hall hmem
  cases selected with
  | nil => cases hmem
  | cons i rest =>
    obtain rfl := hall i List.mem_cons_self
    exact ⟨rest, rfl, fun j hj => hall j (List.mem_cons_of_mem _ hj)⟩
/-- A campaign of one engine is declared: the engine is still to be withdrawn. -/
def declared (b : Nat) (k : EngineKind) (n : Nat) (rest : List Nat) (d : Device) : Device :=
  openWindow .test (setSticky b k (fun x => { x with testBusy := true, testEngines := BitVec.ofNat 8 (2 ^ n), testLeft := n :: rest }) d)
theorem startCampaign_campaigning (hserves : (engineOf b k n d).state = .inService) (hnone : campaignRunning b k d = 0)
    (hfree : engineHeld b k n d = false) : campaigning b k n (BitVec.ofNat 8 (2 ^ n)) (startCampaign b k (2 ^ n) d) := by
  obtain ⟨hb, hlisted⟩ := listed_of_state (b := b) (k := k) (n := n) (d := d) (by simp [hserves])
  obtain ⟨rest, hselected, hrest⟩ := selected_of_one hlisted hserves
  have hstart : startCampaign b k (2 ^ n) d = campaignOn b k (declared b k n rest d) := by
    rw [startCampaign, hselected]
    rfl
  have hblock : engineBlock k (benchOf b (declared b k n rest d)) =
      { engineBlock k (benchOf b d) with testBusy := true, testEngines := BitVec.ofNat 8 (2 ^ n), testLeft := n :: rest } := engineBlock_setSticky _ hb
  have hrunning : campaignRunning b k (declared b k n rest d) = 0 := by rw [campaignRunning, hblock]; exact hnone
  have hstate : (engineOf b k n (declared b k n rest d)).state = .inService :=
    (congrArg Engine.state (engineOf_setSticky (by exact fun _ => rfl) n d)).trans hserves
  obtain ⟨hdeclared, -⟩ := listed_of_state (b := b) (k := k) (n := n) (d := declared b k n rest d) (by simp [hstate])
  rw [hstart]
  refine campaignOn_of_running (by rw [campaignOf, hblock]) ?_
  have hgo : campaignGo b k 8 (declared b k n rest d) = campaignGo b k 7
      (withdrawEngine b k n 3 (setSticky b k (fun x => { x with testLeft := rest }) (declared b k n rest d))) := by
    rw [campaignGo, hblock, hrunning]
    exact if_neg (by cases k <;> simp [campaignWidth])
  rw [hgo]
  refine campaignGo_campaigning 7 (withdrawEngine_campaigning ?_ hrest ?_ hfree)
  · rw [campaignOf, engineBlock_setSticky _ hdeclared, hblock]
  · rw [engineOf_setSticky (by exact fun _ => rfl), hstate]
/-- What MRV_, CIP_ and DIG_SELFTEST_START come to where they select one engine. -/
theorem completes_startCampaign {c : Instr} {s : State} {engines : Nat}
    (hexec : exec c s = .next { s with dev := doIf (campaignMay b k s.dev) (startCampaign b k engines) s.dev }) (hone : engines = 2 ^ n)
    (hmay : campaignMay b k s.dev = true) (hserves : (engineOf b k n s.dev).state = .inService) (hnone : campaignRunning b k s.dev = 0)
    (hfree : engineHeld b k n s.dev = false) : Completes c s (fun d => (engineBlock k (benchOf b d)).testBusy = true ∧
      (engineBlock k (benchOf b d)).testEngines = BitVec.ofNat 8 (2 ^ n) ∧ (engineOf b k n d).state = .inTest ∧ (engineOf b k n d).katCause = 3) := by
  obtain ⟨⟨_, hcampaign, -⟩, htest, hcause⟩ := startCampaign_campaigning hserves hnone hfree
  rw [hone] at hexec
  exact ⟨_, hexec.trans (next_doIf hmay), congrArg (·.1) hcampaign, congrArg (·.2.1) hcampaign, htest, hcause⟩
end

section
variable {b n : Nat} {s : State}

theorem toNat_of_one_engine {w n : Nat} {m : BitVec w} (hm : m = BitVec.ofNat w (2 ^ n)) (hn : n < w) : m.toNat = 2 ^ n := by
  rw [hm, BitVec.toNat_ofNat, Nat.mod_eq_of_lt (Nat.pow_lt_pow_right (by decide) hn)]
theorem mrvSelftestStart_completes {m : BitVec 8} (hmay : campaignMay b .marver s.dev = true) (hm : m = BitVec.ofNat 8 (2 ^ n)) (hn : n < 8)
    (hserves : (engineOf b .marver n s.dev).state = .inService) (hnone : campaignRunning b .marver s.dev = 0)
    (hfree : engineHeld b .marver n s.dev = false) :
    Completes (.mrvSelftestStart b m) s (fun d => (benchOf b d).marver.testBusy = true ∧ (benchOf b d).marver.testEngines = m ∧
      (engineOf b .marver n d).state = .inTest ∧ (engineOf b .marver n d).katCause = 3) := by
  obtain ⟨d, hexec, hbusy, hengines, htest⟩ := completes_startCampaign (k := .marver) (c := .mrvSelftestStart b m) rfl (toNat_of_one_engine hm hn)
    hmay hserves hnone hfree
  exact ⟨d, hexec, hbusy, hengines.trans hm.symm, htest⟩
theorem cipSelftestStart_completes {m : BitVec 4} (hmay : campaignMay b .cipher s.dev = true) (hm : m = BitVec.ofNat 4 (2 ^ n)) (hn : n < 4)
    (hserves : (engineOf b .cipher n s.dev).state = .inService) (hnone : campaignRunning b .cipher s.dev = 0)
    (hfree : engineHeld b .cipher n s.dev = false) :
    Completes (.cipSelftestStart b m) s (fun d => (benchOf b d).cipher.testBusy = true ∧
      (engineOf b .cipher n d).state = .inTest ∧ (engineOf b .cipher n d).katCause = 3) := by
  obtain ⟨d, hexec, hbusy, -, htest⟩ := completes_startCampaign (k := .cipher) (c := .cipSelftestStart b m) rfl (toNat_of_one_engine hm hn)
    hmay hserves hnone hfree
  exact ⟨d, hexec, hbusy, htest⟩
theorem digSelftestStart_completes {m : BitVec 2} (hmay : campaignMay b .punty s.dev = true) (hm : m = BitVec.ofNat 2 (2 ^ n)) (hn : n < 2)
    (hserves : (engineOf b .punty n s.dev).state = .inService) (hnone : campaignRunning b .punty s.dev = 0)
    (hfree : engineHeld b .punty n s.dev = false) :
    Completes (.digSelftestStart b m) s (fun d => (benchOf b d).punty.testBusy = true ∧
      (engineOf b .punty n d).state = .inTest ∧ (engineOf b .punty n d).katCause = 3) := by
  obtain ⟨d, hexec, hbusy, -, htest⟩ := completes_startCampaign (k := .punty) (c := .digSelftestStart b m) rfl (toNat_of_one_engine hm hn)
    hmay hserves hnone hfree
  exact ⟨d, hexec, hbusy, htest⟩

/-! ### The digest cache (08 R295) -/

theorem digCacheFlush_completes (hstarted : started s.dev = true) (hreset : outOfReset s.dev = true) (hin : (benchOf b s.dev).inService = true) :
    Completes (.digCacheFlush b) s (fun d => (benchOf b d).cache = [] ∧ (∀ c, c ≠ b → benchOf c d = benchOf c s.dev) ∧
      d = { s.dev with benches := d.benches }) := by
  refine ⟨modBench b flushCache s.dev, next_doIf (by simp [hstarted, hreset, hin]), ?_, fun c hc => benchOf_modBench_of_ne _ _ hc.symm, rfl⟩
  rw [benchOf_modBench_self _ (tabGet_isSome_of_inService hin)]
  rfl
end

/-! ### O31 -/

/-- A device whose bench 0 is due for the periodic test of cipher engine 0, an engine that lists a scratch line. -/
def scratchedDevice : Device :=
  { time := { ticks := 600 * secTicks }, pins := { pwrOk := true, rstN := true, mainOn := true }
    benches := [(0, { inService := true, cipher := { engines := [(0, { state := .inService, scratch := [(0, 1)] })] } })] }

/-- Refutes O31 by its clause about PERIODIC_KAT_WITHDRAWAL, which quantifies over every state and says of an engine of any kind that it has no
scratch contents under test: scratch is Marver's (06 R227), and a test clears it for a Marver engine only (06 R231), so that of the cipher engine of
`scratchedDevice` stays listed (`periodicKatWithdrawal_completes`). No command lists scratch for an engine of another kind. The other clauses hold
(`engineKatEnd_returns`, `engineKatEnd_retires`, `mrvSelftestStart_completes`, `cipSelftestStart_completes`, `digSelftestStart_completes`,
`digCacheFlush_completes`), and so does this one for a Marver engine and for one that lists no scratch. -/
theorem not_knownAnswerTestsRun : ¬ Obligations.KnownAnswerTestsRun := by
  rintro ⟨hperiodic, -⟩
  have hruns : benchRuns 0 scratchedDevice = true := by decide
  have hdue : katDue 0 scratchedDevice = true := by decide
  have hposition : katPosition 0 scratchedDevice = some 8 := by decide
  obtain ⟨d, hexec, -, -, hempty, -⟩ := hperiodic 0 { dev := scratchedDevice } 8 hruns hdue hposition (by decide) (by decide)
  obtain ⟨e, hexec', -, -, hkept, -⟩ := periodicKatWithdrawal_completes (s := { dev := scratchedDevice }) hruns hdue hposition (by decide)
  have hsame : d = e := by
    have hnext := hexec.symm.trans hexec'
    injection hnext with hstate
    injection hstate
  rw [← hsame, hempty] at hkept
  exact absurd hkept (by decide)

end Sys2Proof.Machine
end

section
/-! SUPPORT. Offsets digit by digit, the parts of GCM, and sealed context records read back. -/

namespace Sys2Proof.Machine

/-! ### PIN offsets (10 R361) -/

theorem offsetMatches_iff {pin natural offset : List Nat} (h : pin.length = natural.length) :
    offsetMatches pin natural offset = true ↔ List.zipWith (fun n o => (n + o) % 10) natural offset = pin := by
  simp [offsetMatches, h]

theorem offsetOf_length {pin natural : List Nat} (h : pin.length = natural.length) : (offsetOf pin natural).length = pin.length := by
  simp [offsetOf, h]

theorem offsetOf_digits (pin natural : List Nat) : ∀ o ∈ offsetOf pin natural, o < 10 := by
  intro o ho
  obtain ⟨i, hi, rfl⟩ := List.getElem_of_mem ho
  simp only [offsetOf, List.getElem_zipWith]
  exact Nat.mod_lt _ (by decide)

/-- Adding a digit modulo 10 undoes its subtraction. -/
theorem offsetMatches_offsetOf {pin natural : List Nat} (h : pin.length = natural.length) (hp : ∀ p ∈ pin, p < 10)
    (hn : ∀ n ∈ natural, n < 10) : offsetMatches pin natural (offsetOf pin natural) = true := by
  refine (offsetMatches_iff h).mpr (List.ext_getElem (by simp [offsetOf, h]) fun i hi hi' => ?_)
  have hpi := hp pin[i] (List.getElem_mem hi')
  have hni := hn (natural[i]'(h ▸ hi')) (List.getElem_mem _)
  simp only [offsetOf, List.getElem_zipWith]
  omega

/-- A matching offset is the subtraction: modulo 10, each digit of the PIN leaves one choice. -/
theorem eq_offsetOf_of_offsetMatches {pin natural offset : List Nat} (h : pin.length = natural.length) (hl : offset.length = pin.length)
    (hn : ∀ n ∈ natural, n < 10) (ho : ∀ o ∈ offset, o < 10) (hm : offsetMatches pin natural offset = true) :
    offset = offsetOf pin natural := by
  refine List.ext_getElem (hl.trans (offsetOf_length h).symm) fun i hi hi' => ?_
  have hpin := (offsetMatches_iff h).mp hm
  have hni := hn (natural[i]'(h ▸ hl ▸ hi)) (List.getElem_mem _)
  have hoi := ho offset[i] (List.getElem_mem hi)
  have hpi : pin[i]'(hl ▸ hi) = (natural[i]'(h ▸ hl ▸ hi) + offset[i]) % 10 := by
    simp only [← hpin, List.getElem_zipWith]
  simp only [offsetOf, List.getElem_zipWith, hpi]
  omega

/-! ### The parts of GCM (08 R270) -/

/-- The counter block after a stream depends on the first and on the number of blocks, not on what they hold. -/
theorem gcmStream_snd (key : Bytes) (blocks : List Bytes) : ∀ ctr, (gcmStream key ctr blocks).2 = gcmNext^[blocks.length] ctr := by
  induction blocks with
  | nil => intro ctr; rfl
  | cons b t ih => intro ctr; simp only [gcmStream, ih, List.length_cons, Function.iterate_succ_apply]

theorem isEmpty_eq_of_length_eq {a b : Bytes} (h : a.length = b.length) : a.isEmpty = b.isEmpty := by
  rw [Bool.eq_iff_iff, List.isEmpty_iff_length_eq_zero, List.isEmpty_iff_length_eq_zero, h]

theorem chunksGo_length_congr (n : Nat) {fuel : Nat} : ∀ {a b : Bytes}, a.length = b.length →
    (chunksGo n fuel a).length = (chunksGo n fuel b).length := by
  induction fuel with
  | zero => intro a b h; rfl
  | succ fuel ih =>
    intro a b h
    simp only [chunksGo, isEmpty_eq_of_length_eq h]
    split
    · rfl
    · simp only [List.length_cons, ih (a := a.drop n) (b := b.drop n) (by simp [h])]

/-- Strings of one length fall into the same number of pieces. -/
theorem chunks_length_congr (n : Nat) {a b : Bytes} (h : a.length = b.length) : (chunks n a).length = (chunks n b).length := by
  rw [chunks, chunks, h]
  exact chunksGo_length_congr n h

theorem gcmPart_length (key aad data : Bytes) (c : Context) : (gcmPart key aad data c).1.length = data.length :=
  gcmStream_length key _ _ _ (Nat.le_refl _)

/-- The output of a part does not depend on its direction, and a second part over it from the same state gives the data back. -/
theorem gcmPart_twice (key aad data : Bytes) (c : Context) (reverse : Bool) :
    (gcmPart key aad (gcmPart key aad data c).1 { c with reverse := reverse }).1 = data := by
  have hl := gcmPart_length key aad data c
  have ht := gcmStream_twice key data.length (field c.state 0 16) data (Nat.le_refl _)
  simp only [gcmPart, chunks] at hl ⊢
  rwa [hl]

/-- The part that decrypts ends in the state of the part that encrypted: both run the accumulator over the ciphertext (08 R270). -/
theorem gcmPart_reverse (key aad data : Bytes) {c : Context} (hc : c.reverse = false) :
    (gcmPart key aad (gcmPart key aad data c).1 { c with reverse := true }).2 = { (gcmPart key aad data c).2 with reverse := true } := by
  have hl := gcmPart_length key aad data c
  have he := isEmpty_eq_of_length_eq hl
  have hs : (gcmStream key (field c.state 0 16) (chunks 16 (gcmPart key aad data c).1)).2 =
      (gcmStream key (field c.state 0 16) (chunks 16 data)).2 := by
    rw [gcmStream_snd, gcmStream_snd, chunks_length_congr 16 hl]
  have hcipher : (gcmPart key aad data c).1 = (gcmStream key (field c.state 0 16) (chunks 16 data)).1 := rfl
  rw [hcipher] at hl he hs
  simp only [gcmPart, hc, hl, he, hs, if_true, Bool.false_eq_true, if_false]

/-- The tag is of the state alone, not of the direction. -/
theorem gcmFinish_reverse (key : Bytes) (c : Context) (reverse : Bool) (n : Nat) :
    gcmFinish key { c with reverse := reverse } n = gcmFinish key c n := rfl

/-! ### Sealed context records (08 R287 to R290) -/

theorem field_append_middle (a b c : Bytes) : field (a ++ b ++ c) a.length b.length = b := by
  rw [field_within _ _ _ (by simp), List.append_assoc, List.drop_left, List.take_left]

theorem leNat_leBytes (n v : Nat) : leNat (leBytes n v) = v % 256 ^ n := by
  induction n generalizing v with
  | zero => simp [leBytes, leNat, Nat.mod_one]
  | succ n ih => simp [leBytes, leNat, ih, Nat.pow_succ', Nat.mod_mul]

theorem contextBytes_length (c : Context) : (contextBytes c).length = 256 := by
  simp [contextBytes, leBytes_length, fit, field_length]

theorem sealHeader_length (kind : Byte) (t bench : Nat) (count : BitVec 56) (cycle : BitVec 32) :
    (sealHeader kind t bench count cycle).length = 16 := by
  simp [sealHeader, leBytes_length]

/-- The format and the tenant that a record states are those of its header. -/
theorem sealHeader_states (kind : Byte) {t : Nat} (bench : Nat) (count : BitVec 56) (cycle : BitVec 32) (rest : Bytes) (ht : t < 256) :
    num (sealHeader kind t bench count cycle ++ rest) 0 2 = 1 ∧ num (sealHeader kind t bench count cycle ++ rest) 3 1 = t := by
  refine ⟨rfl, ?_⟩
  have hnum : num (sealHeader kind t bench count cycle ++ rest) 3 1 = leNat (leBytes 1 t) := rfl
  rw [hnum, leNat_leBytes, Nat.pow_one, Nat.mod_eq_of_lt ht]

/-- A record's parts, read back from it: the header, the encrypted body, and the tag over both. -/
theorem field_sealContext (key : Bytes) {header : Bytes} (hh : header.length = 16) (c : Context) :
    field (sealContext key header c) 0 16 = header ∧
    field (sealContext key header c) 16 256 = gcmXor key (field header 4 12) (contextBytes c) ∧
    field (sealContext key header c) 272 16 = gcmTagOf key (field header 4 12) header (gcmXor key (field header 4 12) (contextBytes c)) := by
  have hb : (gcmXor key (field header 4 12) (contextBytes c)).length = 256 := (gcmXor_length _ _ _).trans (contextBytes_length c)
  simp only [sealContext]
  generalize gcmXor key (field header 4 12) (contextBytes c) = body at hb ⊢
  have ht := gcmTagOf_length key (field header 4 12) header body
  generalize gcmTagOf key (field header 4 12) header body = tag at ht ⊢
  have hfirst := field_append_middle [] header (body ++ tag)
  have hmiddle := field_append_middle header body tag
  have hlast := field_append_middle (header ++ body) tag []
  simp only [List.nil_append, List.append_nil, List.length_append, List.length_nil, ← List.append_assoc, hh, hb, ht] at hfirst hmiddle hlast
  exact ⟨hfirst, hmiddle, hlast⟩

/-- A record opens exactly as its header states: its tag stands, and what remains are the format and the tenant. -/
theorem unsealContext_sealContext (key : Bytes) {header : Bytes} (hh : header.length = 16) (u : Nat) (c : Context) :
    unsealContext key u (sealContext key header c) =
      if num (sealContext key header c) 0 2 ≠ 1 ∨ num (sealContext key header c) 3 1 ≠ u then .error 0x0108
      else .ok (contextOf (contextBytes c)) := by
  obtain ⟨hheader, hbody, htag⟩ := field_sealContext key hh c
  simp only [unsealContext, hheader, hbody, htag, gcmXor_twice, ne_eq, not_true_eq_false, false_or]

/-- Under the seal key that sealed it, a record opens for the tenant that its header names and for no other (08 R290). -/
theorem unsealContext_of_sealHeader (key : Bytes) (kind : Byte) {t : Nat} (u bench : Nat) (count : BitVec 56) (cycle : BitVec 32) (c : Context)
    (ht : t < 256) :
    unsealContext key u (sealContext key (sealHeader kind t bench count cycle) c) =
      if t = u then .ok (contextOf (contextBytes c)) else .error 0x0108 := by
  obtain ⟨hformat, htenant⟩ : num (sealContext key (sealHeader kind t bench count cycle) c) 0 2 = 1 ∧
      num (sealContext key (sealHeader kind t bench count cycle) c) 3 1 = t := by
    simpa only [sealContext, List.append_assoc] using sealHeader_states kind bench count cycle _ ht
  rw [unsealContext_sealContext key (sealHeader_length ..), hformat, htenant]
  by_cases h : t = u <;> simp [h]

/-! ### O57 -/

/-- Settles O57: offsets digit by digit, the two directions of a GCM part over one ciphertext, and the fields of a record read back. -/
theorem outputsAnswerTheirInputs : Obligations.OutputsAnswerTheirInputs := by
  refine ⟨fun pin natural h hp hn => ?_, fun key aad data c hc => ?_, fun key kind t u bench count cycle c ht _ hne => ?_⟩
  · exact ⟨offsetMatches_offsetOf h hp hn, offsetOf_digits pin natural, fun offset hl ho hm => eq_offsetOf_of_offsetMatches h hl hn ho hm⟩
  · refine ⟨gcmPart_length key aad data c, gcmPart_twice key aad data c true, fun n => ?_⟩
    rw [gcmPart_reverse key aad data hc, gcmFinish_reverse]
  · exact ⟨(unsealContext_of_sealHeader key kind t bench count cycle c ht).trans (if_pos rfl),
      (unsealContext_of_sealHeader key kind u bench count cycle c ht).trans (if_neg hne.symm)⟩

end Sys2Proof.Machine
end

section
/-! SUPPORT. Seeds of the pool (09 R313, R314), and O39. -/

namespace Sys2Proof.Machine

/-! ### The two blocks of a seed (09 R313) -/

theorem find?_source {a b : PoolBlock} {l : List PoolBlock} (r : List PoolBlock) (hl : ∀ x ∈ l, x.source = a.source) (hb : b.source ≠ a.source) :
    (l ++ b :: r).find? (fun x => decide (x.source ≠ a.source)) = some b := by
  have hnone : l.find? (fun x => decide (x.source ≠ a.source)) = none := List.find?_eq_none.mpr fun x hx => by simp [hl x hx]
  rw [List.find?_append, hnone, Option.none_or, List.find?_cons_of_pos (by simpa using hb)]
theorem takeSeed_of_second {a b : PoolBlock} {l : List PoolBlock} (r : List PoolBlock) (hl : ∀ x ∈ l, x.source = a.source)
    (hb : b.source ≠ a.source) : takeSeed (a :: l ++ b :: r) = some (bvBytes 24 a.bits ++ bvBytes 24 b.bits, l ++ r) := by
  have hbl : b ∉ l := fun h => hb (hl b h)
  rw [List.cons_append, takeSeed, find?_source r hl hb]
  dsimp only
  rw [List.erase_append_right _ hbl, List.erase_cons_head]
/-- No seed forms where no other block is of another source than the oldest. -/
theorem takeSeed_cons_eq_none_iff (a : PoolBlock) (t : List PoolBlock) : takeSeed (a :: t) = none ↔ ∀ x ∈ t, x.source = a.source := by
  rw [takeSeed]
  split
  · next x hx =>
    have hdiffers : x.source ≠ a.source := by simpa using List.find?_some hx
    exact ⟨nofun, fun h => absurd (h x (List.mem_of_find?_eq_some hx)) hdiffers⟩
  · next hnone => exact ⟨fun _ x hx => by simpa using List.find?_eq_none.mp hnone x hx, fun _ => rfl⟩
theorem takeSeed_eq_none_iff (pool : List PoolBlock) : takeSeed pool = none ↔ ∀ a ∈ pool, ∀ b ∈ pool, a.source = b.source := by
  cases pool with
  | nil => exact ⟨fun _ _ h => absurd h List.not_mem_nil, fun _ => rfl⟩
  | cons a t =>
    rw [takeSeed_cons_eq_none_iff]
    constructor
    · intro h
      have hall : ∀ x ∈ a :: t, x.source = a.source := List.forall_mem_cons.mpr ⟨rfl, h⟩
      exact fun x hx y hy => (hall x hx).trans (hall y hy).symm
    · exact fun h x hx => h x (List.mem_cons_of_mem _ hx) a List.mem_cons_self

/-- Settles O39: the second block is the first of another source behind the oldest; where there is none, all sources are one. -/
theorem seedsComeFromTwoSources : Obligations.SeedsComeFromTwoSources :=
  ⟨fun _ _ _ r hl hb => takeSeed_of_second r hl hb, takeSeed_eq_none_iff⟩

/-! ### The pool serves (09 R314) -/

theorem takeSeed_sublist {pool : List PoolBlock} {p : Bytes × List PoolBlock} (h : takeSeed pool = some p) : p.2.Sublist pool := by
  cases pool with
  | nil => cases h
  | cons a t =>
    rw [takeSeed] at h
    split at h <;> cases h
    exact List.erase_sublist.trans (List.sublist_cons_self a t)

theorem giveSeed_frame (tick n : Nat) (cycles seed) (g : Gather) :
    giveSeed tick n cycles seed g = { g with instances := (giveSeed tick n cycles seed g).instances } := by
  unfold giveSeed
  dsimp only
  split
  · rfl
  · split <;> rfl

/-- What the pool serves leaves it, and nothing else of it or of the sources changes. -/
theorem serveGo_keeps (tick window : Nat) (cycles) (fuel : Nat) (g : Gather) :
    (serveGo tick window cycles fuel g).sources = g.sources ∧ (serveGo tick window cycles fuel g).pool.Sublist g.pool := by
  induction fuel generalizing g with
  | zero => exact ⟨rfl, List.Sublist.refl _⟩
  | succ fuel ih =>
    unfold serveGo
    split
    · exact ⟨rfl, List.Sublist.refl _⟩
    · next p hp =>
      have hrest := takeSeed_sublist hp
      split
      · obtain ⟨hsources, hpool⟩ := ih { g with pool := p.2, owed := g.owed - 1 }
        exact ⟨hsources, hpool.trans hrest⟩
      · split
        · next n _ =>
          obtain ⟨hsources, hpool⟩ := ih (giveSeed tick n cycles p.1 { g with pool := p.2 })
          have hgiven := giveSeed_frame tick n cycles p.1 { g with pool := p.2 }
          rw [(congrArg Gather.pool hgiven :)] at hpool
          exact ⟨hsources.trans (congrArg Gather.sources hgiven :), hpool.trans hrest⟩
        · exact ⟨rfl, List.Sublist.refl _⟩
theorem serveSeeds_sources (d : Device) : (serveSeeds d).sources = d.gather.sources := (serveGo_keeps _ _ _ _ _).1
theorem serveSeeds_pool_sublist (d : Device) : (serveSeeds d).pool.Sublist d.gather.pool := (serveGo_keeps _ _ _ _ _).2
/-- One block forms no seed. -/
theorem serveSeeds_of_single {d : Device} {b : PoolBlock} (h : d.gather.pool = [b]) : serveSeeds d = d.gather := by
  simp [serveSeeds, h, serveGo]

end Sys2Proof.Machine
end

section
/-! SUPPORT. The sources and the pool stay as they are while jobs end, draws are granted and jobs are dispatched. -/

namespace Sys2Proof.Machine

/-! ### What seeds come from -/

/-- Of the device the sources and the pool, the fuses, the key store but for its ports, and the count of bytes drawn. -/
def seedbed (d : Device) : Device :=
  { fuses := d.fuses, draws := d.draws, keys := { d.keys with ports := [] }, gather := { sources := d.gather.sources, pool := d.gather.pool } }

section
variable {d e : Device} (h : seedbed d = seedbed e)
include h
theorem sources_of_seedbed : d.gather.sources = e.gather.sources := congrArg (·.gather.sources) h
theorem pool_of_seedbed : d.gather.pool = e.gather.pool := congrArg (·.gather.pool) h
theorem fuses_of_seedbed : d.fuses = e.fuses := congrArg (·.fuses) h
theorem keys_of_seedbed : d.keys = { e.keys with ports := d.keys.ports } := congrArg (fun x => { x.keys with ports := d.keys.ports }) h
end

theorem seedbed_of_jobless {d e : Device} (h : jobless d = jobless e) : seedbed d = seedbed e := (congrArg seedbed h :)
theorem seedbed_of_ungranted {d e : Device} (h : ungranted d = ungranted e) : seedbed d = seedbed e := (congrArg seedbed h :)
theorem seedbed_of_offwire {d e : Device} (h : offwire d = offwire e) : seedbed d = seedbed e := (congrArg seedbed h :)

/-! ### Grants and jobs end (04, 05) -/

theorem charged_seedbed (g n) (d : Device) : seedbed (charged g n d) = seedbed d := (congrArg seedbed (charged_frame g n d) :)
theorem endGrant_seedbed (g park) (d : Device) : seedbed (endGrant g park d) = seedbed d :=
  (seedbed_of_ungranted (endGrant_ungranted g park d)).trans (charged_seedbed g _ d)
theorem arbitrate_seedbed (bench kind) (d : Device) : seedbed (arbitrate bench kind d) = seedbed d :=
  seedbed_of_ungranted (arbitrate_ungranted bench kind d)
theorem seedbed_mk {time pins start battery custody tamper gaffer shares benches host net events power flash out : _} (d : Device) :
    seedbed { d with time, pins, start, battery, custody, tamper, gaffer, shares, benches, host, net, events, power, flash, out } = seedbed d := rfl
theorem dropGrants_seedbed (job park) (d : Device) : seedbed (dropGrants job park d) = seedbed d := by
  rw [dropGrants, doEach_kept fun _ _ => arbitrate_seedbed _ _ _, seedbed_mk, doEach_kept fun _ _ => endGrant_seedbed _ _ _]
  rfl
theorem modJob_seedbed (id f) (d : Device) : seedbed (modJob id f d) = seedbed d := rfl
theorem lehCount_seedbed (b k) (d : Device) : seedbed (lehCount b k d) = seedbed d := rfl
theorem coreCount_seedbed (c k n) (d : Device) : seedbed (coreCount c k n d) = seedbed d := rfl
theorem gafCount_seedbed (k) (d : Device) : seedbed (gafCount k d) = seedbed d := rfl
theorem modUnit_seedbed (c f) (d : Device) : seedbed (modUnit c f d) = seedbed d := (congrArg seedbed (modUnit_frame c f d) :)
theorem freeJobCore_seedbed (j) (d : Device) : seedbed (freeJobCore j d) = seedbed d := by
  refine doWith_kept fun c x => ?_
  rw [freeCore, doWith_kept fun _ _ => modJob_seedbed _ _ _, modUnit_seedbed]
/-- A job's end counts its draws in its bench's block. -/
theorem settleWork_seedbed (retired j) (d : Device) : seedbed (settleWork retired j d) = seedbed d := by
  unfold settleWork settleDraws
  split
  · exact both_kept (view := seedbed) rfl rfl
  · rfl
theorem beforeDrop_seedbed (id j code) (d : Device) : seedbed (beforeDrop id j code d) = seedbed d := by
  rw [beforeDrop, doWith_kept fun _ _ => lehCount_seedbed _ _ _, doWith_kept fun _ _ => coreCount_seedbed _ _ _ _,
    seedbed_of_jobless (traceJob_jobless _ _ _ _), settleWork_seedbed, freeJobCore_seedbed, dropGrants_seedbed]
theorem dropJob_seedbed (id code) (d : Device) : seedbed (dropJob id code d) = seedbed d := by
  cases hj : jobOf id d with
  | none => simp only [dropJob, hj]
  | some j => rw [dropJob_eq code hj, seedbed_of_jobless (answerJob_jobless _ _ _), beforeDrop_seedbed]
theorem squashJob_seedbed (id code) (d : Device) : seedbed (squashJob id code d) = seedbed d := by
  unfold squashJob
  split
  · rfl
  · rw [dropJob_seedbed]
    exact ite_kept (view := seedbed) rfl

/-! ### Jobs are dispatched (04 R135 to R139) -/

theorem decodeRead_seedbed (j) (d : Device) : seedbed (decodeRead j d).2 = seedbed d := by
  unfold decodeRead
  split
  · split
    · exact seedbed_of_offwire (denied_offwire _ _ _ _ d)
    · rfl
  · rfl
theorem dispatchJob_seedbed (c j) (d : Device) : seedbed (dispatchJob c j d) = seedbed d := by
  have reset : ∀ (x : Prop) [Decidable x] (code : Code) (k : Job) (e : Device),
      seedbed (if x then beginReset k e else (code, e)).2 = seedbed e := by
    intro x _ code k e
    split
    · obtain ⟨ts, heq⟩ := beginReset_frame k e
      rw [heq, seedbed_mk]
    · rfl
  unfold dispatchJob
  dsimp only
  rw [doIf, ite_kept (dropJob_seedbed _ _ _), seedbed_of_jobless (traceJob_jobless _ _ _ _), gafCount_seedbed, modJob_seedbed, seedbed_mk,
    modUnit_seedbed, coreCount_seedbed, reset, decodeRead_seedbed]
theorem dispatchGo_seedbed (fuel) (d : Device) : seedbed (dispatchGo fuel d) = seedbed d := by
  induction fuel generalizing d with
  | zero => rfl
  | succ fuel ih =>
    unfold dispatchGo
    split
    · rfl
    · exact (ih _).trans (dispatchJob_seedbed _ _ d)
theorem dispatchAll_seedbed (d : Device) : seedbed (dispatchAll d) = seedbed d := by
  unfold dispatchAll
  split
  · exact (dispatchGo_seedbed _ _).trans (seedbed_of_jobless (expireHeads_jobless _ d))
  · rfl

/-! ### The pool serves (09 R314, R317, R328) -/

theorem setInst_seedbed (n i) (d : Device) : seedbed { d with gather := setInst n i d.gather } = seedbed d := rfl
theorem reseedBench_frame (tick b) (g : Gather) :
    reseedBench tick b g = { g with instances := (reseedBench tick b g).instances, ctrs := (reseedBench tick b g).ctrs } := by
  unfold reseedBench
  dsimp only
  split <;> split <;> rfl
theorem seedArrived_seedbed (b) (d : Device) : seedbed (seedArrived b d) = seedbed d := by
  unfold seedArrived
  dsimp only
  split
  · rfl
  · split
    · rw [arbitrate_seedbed, reseedBench_frame]
      rfl
    · split
      · rw [arbitrate_seedbed, setInst_seedbed]
      · rfl
theorem instanceServes_seedbed (before b) (d : Device) : seedbed (instanceServes before b d) = seedbed d := ite_kept (arbitrate_seedbed b 4 d)
theorem servePool_seedbed (d : Device) : seedbed (servePool d) = seedbed { d with gather := serveSeeds d } := by
  have hserved : seedbed (doEach (List.range 8) (instanceServes d.gather) (doEach (List.range 8) seedArrived { d with gather := serveSeeds d })) =
      seedbed { d with gather := serveSeeds d } := by
    rw [doEach_kept (view := seedbed) (instanceServes_seedbed d.gather), doEach_kept (view := seedbed) seedArrived_seedbed]
  unfold servePool
  exact both_kept hserved ((dispatchAll_seedbed _).trans hserved)

/-! ### A source fails (09 R323, R326) -/

/-- Service may stop: the pool is erased, and jobs that wait for a draw are squashed. -/
theorem checkService_seedbed (d : Device) : seedbed (checkService d) = seedbed d ∨
    seedbed (checkService d) = { seedbed d with gather := { sources := d.gather.sources } } := by
  unfold checkService
  split
  · exact .inr (doEach_kept (view := seedbed) fun _ _ => squashJob_seedbed _ _ _)
  · exact .inl rfl

end Sys2Proof.Machine
end

section
/-! SUPPORT. The commands of Gather (09 R305 to R312, R317, R330; 22 R697), and O38. -/

namespace Sys2Proof.Machine

/-! ### A source fails (09 R323) -/

/-- The device with a source failed. -/
def sourceFailed (n : Nat) (cause : BitVec 3) (d : Device) : Device :=
  { d with gather := { d.gather with sources := tabSet n { sourceState n d.gather with state := .failed, cause := cause } d.gather.sources } }

theorem failSource_keeps (n cause) (d : Device) : (failSource n cause d).gather.sources = (sourceFailed n cause d).gather.sources ∧
    (failSource n cause d).fuses = d.fuses ∧ (failSource n cause d).keys = { d.keys with ports := (failSource n cause d).keys.ports } := by
  have hservice : seedbed (failSource n cause d) = seedbed (sourceFailed n cause d) ∨ seedbed (failSource n cause d) =
      { seedbed (sourceFailed n cause d) with gather := { sources := (sourceFailed n cause d).gather.sources } } := checkService_seedbed _
  rcases hservice with h | h
  · exact ⟨sources_of_seedbed h, (fuses_of_seedbed h :), (keys_of_seedbed h :)⟩
  · exact ⟨congrArg (·.gather.sources) h, congrArg (·.fuses) h, congrArg (fun x => { x.keys with ports := (failSource n cause d).keys.ports }) h⟩
theorem sourceState_failSource (n cause) (d : Device) :
    sourceState n (failSource n cause d).gather = { sourceState n d.gather with state := .failed, cause := cause } := by
  rw [sourceState, (failSource_keeps n cause d).1]
  exact tabGetD_tabSet_self _ _ _ _

/-! ### A window ends (09 R305 to R310) -/

/-- The longest run of equal bits up to the end of a window, from what the source holds of the one before. -/
def longestRun (x : Source) (bits : List Bool) : Nat := (bits.foldl runBit (x.run, x.lastBit, 0)).2.2
/-- A source whose window has been measured. -/
def windowMeasured (bits : List Bool) (x : Source) : Source :=
  let r := bits.foldl runBit (x.run, x.lastBit, 0)
  { x with run := r.1, lastBit := r.2.1, longestRun := max x.longestRun r.2.2, lastOnes := onesOf bits }
/-- Gather with the window counted and its source measured. -/
def windowCounted (n : Nat) (bits : List Bool) (x : Source) (g : Gather) : Gather :=
  gthCount (n / 2) 6 1 { g with sources := tabSet n (windowMeasured bits x) g.sources }
/-- A serving source whose window has passed, its trim code not at an end. -/
def windowPassed (bits : List Bool) (x : Source) : Source :=
  { windowMeasured bits x with
    windows := x.windows + 1, trim := nextTrim (onesOf bits) x.trim, pinned := 0, passed := x.passed ++ [windowBytes bits] }

/-- The cause of which a serving source fails in a window, 0 if it passes (09 R307, R308). -/
def servingCause (longest like : Nat) : BitVec 3 := if longest < 81 ∧ like < 840 then 0 else if 81 ≤ longest then 1 else 2

theorem servingCause_of_passed {longest like : Nat} (hrun : longest < 81) (hlike : like < 840) : servingCause longest like = 0 :=
  if_pos ⟨hrun, hlike⟩
theorem servingCause_of_run {longest : Nat} (like : Nat) (hrun : 81 ≤ longest) : servingCause longest like = 1 :=
  (if_neg fun h => Nat.not_lt.mpr hrun h.1).trans (if_pos hrun)
theorem servingCause_of_proportion {longest like : Nat} (hrun : longest < 81) (hlike : 840 ≤ like) : servingCause longest like = 2 :=
  (if_neg fun h => Nat.not_lt.mpr hlike h.2).trans (if_neg (Nat.not_le.mpr hrun))

theorem exec_gatherWindowEnd {n : Nat} {bits : List Bool} {s : State} (hruns : sourceRuns n s.dev = true)
    (hstate : (sourceState n s.dev.gather).state = .healthy) (hlength : bits.length = 1024) :
    exec (.gatherWindowEnd n bits) s = .next { s with dev := takeWindow n bits (sourceState n s.dev.gather) s.dev } :=
  next_doIf (by simp [hruns, hstate, hlength])

theorem failCause_windowMeasured {bits : List Bool} {x : Source} (hstate : x.state = .healthy) (hawake : x.waking = false) (longest like : Nat) :
    failCause (windowMeasured bits x) longest like = servingCause longest like := by
  simp [failCause, servingCause, windowMeasured, hstate, hawake]

/-- A window that passes at a serving source whose trim code is not at an end. -/
theorem windowPasses_of_serving (n n1 : Nat) (bytes : Bytes) {y : Source} (d : Device) (hstate : y.state = .healthy) (hawake : y.waking = false)
    (hlow : y.trim ≠ 0) (hhigh : y.trim ≠ 0x3F) :
    ∃ g, windowPasses n n1 bytes y d = { d with gather := g } ∧ ∀ m, sourceState m g = if n = m then
      { y with windows := y.windows + 1, trim := nextTrim n1 y.trim, pinned := 0, lastOnes := n1, passed := y.passed ++ [bytes] }
      else sourceState m d.gather := by
  have hpinned : ¬(y.trim = 0 ∨ y.trim = 0x3F) := not_or.mpr ⟨hlow, hhigh⟩
  unfold windowPasses
  simp only [hstate, hawake, if_neg hpinned, Nat.reduceLeDiff, if_false, Bool.false_eq_true]
  refine ⟨_, rfl, fun m => ?_⟩
  split <;> exact tabGetD_tabSet _ _ _ _ _

section
variable (n : Nat) {bits : List Bool} {x : Source} (d : Device)

theorem takeWindow_of_failed {cause : BitVec 3} (hcause : failCause (windowMeasured bits x) (longestRun x bits) (likeFirst bits) = cause)
    (hne : cause ≠ 0) : ∃ g, takeWindow n bits x d = failSource n cause { d with gather := g } := by
  subst hcause
  exact ⟨_, if_pos hne⟩
theorem takeWindow_of_passed (hstate : x.state = .healthy) (hawake : x.waking = false)
    (hcause : failCause (windowMeasured bits x) (longestRun x bits) (likeFirst bits) = 0) (hlow : x.trim ≠ 0) (hhigh : x.trim ≠ 0x3F) :
    ∃ g, takeWindow n bits x d = { d with gather := g } ∧
      ∀ m, sourceState m g = if n = m then windowPassed bits x else sourceState m d.gather := by
  have hpasses : takeWindow n bits x d = windowPasses n (onesOf bits) (windowBytes bits) (windowMeasured bits x)
      { d with gather := windowCounted n bits x d.gather } := if_neg (not_not.mpr hcause)
  obtain ⟨g, hg, hsources⟩ := windowPasses_of_serving n (onesOf bits) (windowBytes bits) (y := windowMeasured bits x)
    { d with gather := windowCounted n bits x d.gather } hstate hawake hlow hhigh
  refine ⟨g, hpasses.trans hg, fun m => (hsources m).trans ?_⟩
  by_cases hm : n = m
  · simp only [if_pos hm]
    rfl
  · simp only [if_neg hm]
    exact (tabGetD_tabSet _ _ _ _ _).trans (if_neg hm)
end

section
variable {n : Nat} {bits : List Bool} {s : State} (hruns : sourceRuns n s.dev = true) (hstate : (sourceState n s.dev.gather).state = .healthy)
  (hawake : (sourceState n s.dev.gather).waking = false) (hlength : bits.length = 1024)
include hruns hstate hawake hlength

theorem gatherWindowEnd_passes (hrun : longestRun (sourceState n s.dev.gather) bits < 81) (hlike : likeFirst bits < 840)
    (hlow : (sourceState n s.dev.gather).trim ≠ 0) (hhigh : (sourceState n s.dev.gather).trim ≠ 0x3F) :
    Completes (.gatherWindowEnd n bits) s (fun d => sourceState n d.gather = windowPassed bits (sourceState n s.dev.gather) ∧
      (∀ m, m ≠ n → sourceState m d.gather = sourceState m s.dev.gather) ∧ d = { s.dev with gather := d.gather }) := by
  obtain ⟨g, hg, hsources⟩ := takeWindow_of_passed n s.dev hstate hawake
    ((failCause_windowMeasured hstate hawake _ _).trans (servingCause_of_passed hrun hlike)) hlow hhigh
  refine ⟨_, (exec_gatherWindowEnd hruns hstate hlength).trans (by rw [hg]), (hsources n).trans (if_pos rfl), fun m hm => ?_, rfl⟩
  exact (hsources m).trans (if_neg hm.symm)

theorem gatherWindowEnd_fails {cause : BitVec 3} (hne : cause ≠ 0)
    (hcause : servingCause (longestRun (sourceState n s.dev.gather) bits) (likeFirst bits) = cause) :
    Completes (.gatherWindowEnd n bits) s (fun d => (sourceState n d.gather).state = .failed ∧ (sourceState n d.gather).cause = cause ∧
      d.fuses = s.dev.fuses ∧ d.keys = { s.dev.keys with ports := d.keys.ports }) := by
  obtain ⟨g, hg⟩ := takeWindow_of_failed n s.dev ((failCause_windowMeasured hstate hawake _ _).trans hcause) hne
  have hsource := sourceState_failSource n cause { s.dev with gather := g }
  obtain ⟨-, hfuses, hkeys⟩ := failSource_keeps n cause { s.dev with gather := g }
  exact ⟨_, (exec_gatherWindowEnd hruns hstate hlength).trans (by rw [hg]), congrArg Source.state hsource,
    congrArg Source.cause hsource, hfuses, hkeys⟩
end

/-! ### A block arrives (09 R311, R312, R330) -/

/-- Gather when the oldest window of a source has gone to the conditioner. -/
def windowTaken (n : Nat) (g : Gather) : Gather :=
  let x := sourceState n g
  { g with sources := tabSet n { x with passed := x.passed.drop 1, windowNo := x.windowNo + 1 } g.sources }
/-- Its block is in the pool, or discarded at a full one. -/
def blockOffered (n : Nat) (w : Bytes) (g : Gather) : Gather :=
  let h := windowTaken n g
  if g.pool.length < 512 then { h with pool := g.pool ++ [{ source := n, bits := conditionBlock n (sourceState n g).windowNo w }] }
  else gthCount 15 9 1 h

theorem blockArrives_eq (n : Nat) (w : Bytes) (d : Device) : blockArrives n (sourceState n d.gather) w d =
    if !d.gather.service && decide (4 ≤ d.start.phase) then { d with gather := windowTaken n d.gather }
    else servePool { d with gather := blockOffered n w d.gather } := by
  unfold blockArrives blockOffered
  dsimp only
  refine if_congr Iff.rfl rfl ?_
  exact (apply_ite (fun g => servePool { d with gather := g }) (d.gather.pool.length < 512) _ _).symm

theorem blockOffered_sources (n w) (g : Gather) : (blockOffered n w g).sources = (windowTaken n g).sources := by
  unfold blockOffered
  dsimp only
  split <;> rfl
theorem blockOffered_instances (n w) (g : Gather) : (blockOffered n w g).instances = g.instances := by
  unfold blockOffered
  dsimp only
  split <;> rfl
theorem blockOffered_pool_of_room (n w) {g : Gather} (h : g.pool.length < 512) :
    (blockOffered n w g).pool = g.pool ++ [{ source := n, bits := conditionBlock n (sourceState n g).windowNo w }] :=
  (congrArg Gather.pool (if_pos h) :)
theorem blockOffered_pool_of_full (n w) {g : Gather} (h : 512 ≤ g.pool.length) : (blockOffered n w g).pool = g.pool :=
  (congrArg Gather.pool (if_neg (Nat.not_lt.mpr h)) :)
theorem pool_sublist_blockOffered (n w) (g : Gather) : g.pool.Sublist (blockOffered n w g).pool := by
  by_cases h : g.pool.length < 512
  · rw [blockOffered_pool_of_room n w h]
    exact List.sublist_append_left _ _
  · rw [blockOffered_pool_of_full n w (Nat.not_lt.mp h)]
theorem blockOffered_pool_length (n w) (g : Gather) : (blockOffered n w g).pool.length ≤ g.pool.length + 1 := by
  by_cases h : g.pool.length < 512
  · rw [blockOffered_pool_of_room n w h, List.length_append, List.length_singleton]
  · rw [blockOffered_pool_of_full n w (Nat.not_lt.mp h)]
    exact Nat.le_succ _

section
variable (n : Nat) (w : Bytes) (d : Device)

/-- The window has left its source; of the pool and the block offered to it there is left what was not served. -/
theorem blockArrives_seedbed : ∃ pool, pool.Sublist (blockOffered n w d.gather).pool ∧
    seedbed (blockArrives n (sourceState n d.gather) w d) =
      { seedbed d with gather := { sources := (windowTaken n d.gather).sources, pool := pool } } := by
  rw [blockArrives_eq]
  split
  · exact ⟨d.gather.pool, pool_sublist_blockOffered n w d.gather, rfl⟩
  · refine ⟨_, serveSeeds_pool_sublist { d with gather := blockOffered n w d.gather }, (servePool_seedbed _).trans ?_⟩
    rw [← blockOffered_sources n w, ← serveSeeds_sources { d with gather := blockOffered n w d.gather }]
    rfl
theorem blockArrives_frame (h : instancesReady d.gather = true) : let e := blockArrives n (sourceState n d.gather) w d
    e = { d with gather := e.gather, shares := e.shares, benches := e.benches } := by
  intro e
  have hready : instancesReady (blockOffered n w d.gather) = true := by
    unfold instancesReady nextDue instOf at h ⊢
    rwa [blockOffered_instances]
  have hall : ungathered e = ungathered d := by
    show ungathered (blockArrives n (sourceState n d.gather) w d) = _
    rw [blockArrives_eq]
    exact both_kept (setGather_ungathered _ d) ((servePool_ungathered hready).trans (setGather_ungathered _ d))
  exact (congrArg (fun x => { x with gather := e.gather, shares := e.shares, benches := e.benches }) hall :)
theorem blockArrives_pool_of_empty (hservice : d.gather.service = true) (hempty : d.gather.pool = []) :
    (blockArrives n (sourceState n d.gather) w d).gather.pool = [{ source := n, bits := conditionBlock n (sourceState n d.gather).windowNo w }] := by
  have hpool := blockOffered_pool_of_room n w (g := d.gather) (by simp [hempty])
  rw [hempty, List.nil_append] at hpool
  rw [blockArrives_eq, hservice]
  refine (pool_of_seedbed (servePool_seedbed _)).trans ?_
  exact (congrArg Gather.pool (serveSeeds_of_single (d := { d with gather := blockOffered n w d.gather }) hpool)).trans hpool
end

theorem exec_conditionedBlock {n : Nat} {w : Bytes} {rest : List Bytes} {s : State} (hruns : sourceRuns n s.dev = true)
    (hpassed : (sourceState n s.dev.gather).passed = w :: rest) :
    exec (.conditionedBlock n) s = .next { s with dev := blockArrives n (sourceState n s.dev.gather) w s.dev } := by
  refine (next_doIf hruns).trans ?_
  rw [hpassed]
  rfl

theorem conditionedBlock_completes {n : Nat} {s : State} (hruns : sourceRuns n s.dev = true) (hne : (sourceState n s.dev.gather).passed ≠ []) :
    Completes (.conditionedBlock n) s (fun d =>
      (sourceState n d.gather).passed = (sourceState n s.dev.gather).passed.drop 1 ∧
      (sourceState n d.gather).windowNo = (sourceState n s.dev.gather).windowNo + 1 ∧
      d.gather.pool.length ≤ s.dev.gather.pool.length + 1 ∧
      (s.dev.gather.service = true → 512 ≤ s.dev.gather.pool.length → ∀ x ∈ d.gather.pool, x ∈ s.dev.gather.pool) ∧
      (∀ w rest, (sourceState n s.dev.gather).passed = w :: rest → s.dev.gather.service = true → s.dev.gather.pool = [] →
        d.gather.pool = [{ source := n, bits := conditionBlock n (sourceState n s.dev.gather).windowNo w }]) ∧
      (instancesReady s.dev.gather = true → d = { s.dev with gather := d.gather, shares := d.shares, benches := d.benches }) ∧
      d.fuses = s.dev.fuses ∧ d.keys = { s.dev.keys with ports := d.keys.ports } ∧ d.draws = s.dev.draws) := by
  obtain ⟨w, rest, hpassed⟩ := List.exists_cons_of_ne_nil hne
  obtain ⟨pool, hsublist, hkept⟩ := blockArrives_seedbed n w s.dev
  refine ⟨_, exec_conditionedBlock hruns hpassed, ?_⟩
  generalize hd : blockArrives n (sourceState n s.dev.gather) w s.dev = d at hkept
  have hsources : d.gather.sources = (windowTaken n s.dev.gather).sources := congrArg (·.gather.sources) hkept
  have hsource : sourceState n d.gather = { sourceState n s.dev.gather with
      passed := (sourceState n s.dev.gather).passed.drop 1, windowNo := (sourceState n s.dev.gather).windowNo + 1 } := by
    rw [sourceState, hsources]
    exact tabGetD_tabSet_self _ _ _ _
  have hpool : d.gather.pool.Sublist (blockOffered n w s.dev.gather).pool := by
    rwa [show d.gather.pool = pool from congrArg (·.gather.pool) hkept]
  refine ⟨congrArg Source.passed hsource, congrArg Source.windowNo hsource, hpool.length_le.trans (blockOffered_pool_length n w _),
    fun _ hfull x hx => ?_, fun w' rest' hpassed' hservice hempty => ?_, fun hready => ?_,
    congrArg (·.fuses) hkept, congrArg (fun x => { x.keys with ports := d.keys.ports }) hkept, congrArg (·.draws) hkept⟩
  · exact blockOffered_pool_of_full n w hfull ▸ hpool.subset hx
  · cases hpassed.symm.trans hpassed'
    exact hd ▸ blockArrives_pool_of_empty n w s.dev hservice hempty
  · exact hd ▸ blockArrives_frame n w s.dev hready

/-! ### Reseeds and wakes (09 R317; 22 R697) -/

theorem exec_reseedTimerExpiry {b : Nat} {s : State} (hreset : outOfReset s.dev = true) (hb : b < 8) (hready : (instOf b s.dev.gather).ready = true)
    (hlast : (instOf b s.dev.gather).lastReseed + 1000 * msTicks ≤ s.dev.time.ticks) :
    exec (.reseedTimerExpiry b) s = .next { s with dev := { s.dev with
      gather := setInst b { instOf b s.dev.gather with reseedDue := true } s.dev.gather } } :=
  next_doIf (by simp [hreset, hb, hready, hlast])

/-- The device with a source whose wake is over. -/
def sourceAwake (n : Nat) (d : Device) : Device :=
  { d with gather := { d.gather with sources := tabSet n { sourceState n d.gather with waking := false } d.gather.sources } }

theorem exec_sourceWakeTestEnd {n : Nat} (passed : Bool) {s : State} (hruns : sourceRuns n s.dev = true)
    (hstate : (sourceState n s.dev.gather).state = .healthy) (hwaking : (sourceState n s.dev.gather).waking = true) :
    exec (.sourceWakeTestEnd n passed) s = .next { s with dev := if passed then sourceAwake n s.dev else failSource n 5 (sourceAwake n s.dev) } :=
  next_doIf (by simp [hruns, hstate, hwaking])

/-- Settles O38: a window passes or fails its source, a block is conditioned and offered, a generator is marked, and a wake ends. -/
theorem windowsBlocksAndReseeds : Obligations.WindowsBlocksAndReseeds := by
  refine ⟨fun n bits s => ?_, fun n s => conditionedBlock_completes, fun b s => exec_reseedTimerExpiry, fun n s hruns hstate hwaking => ⟨?_, ?_⟩⟩
  · intro x longest hruns hstate hawake hlength
    refine ⟨fun hrun hlike hlow hhigh => ?_, fun hrun => ?_, fun hrun hlike => ?_⟩
    · obtain ⟨d, hexec, hsource, hothers, hframe⟩ := gatherWindowEnd_passes hruns hstate hawake hlength hrun hlike hlow hhigh
      refine ⟨d, hexec, ?_⟩
      dsimp only
      rw [hsource]
      exact ⟨hstate, rfl, rfl, rfl, rfl, rfl, rfl, hothers, hframe⟩
    · exact gatherWindowEnd_fails hruns hstate hawake hlength (by decide) (servingCause_of_run _ hrun)
    · obtain ⟨d, hexec, hfailed, hcause, -, -⟩ := gatherWindowEnd_fails hruns hstate hawake hlength (by decide)
        (servingCause_of_proportion hrun hlike)
      exact ⟨d, hexec, hfailed, hcause⟩
  · exact exec_sourceWakeTestEnd true hruns hstate hwaking
  · have hfailed := sourceState_failSource n 5 (sourceAwake n s.dev)
    exact ⟨_, exec_sourceWakeTestEnd false hruns hstate hwaking, congrArg Source.state hfailed, congrArg Source.cause hfailed⟩

end Sys2Proof.Machine
end

section
/-! SUPPORT. A verb's row, stage by stage: what it stages for a check that fails, for a half or an earlier step, and on the bytes of a grant. -/

namespace Sys2Proof.Machine

variable {op : BitVec 16} {v : Verb} {c : CoreRef} {j k : Job} {d e : Device}

/-! ### What a bench notes -/

/-- The device without its benches. -/
def benchless (d : Device) : Device := { d with benches := [] }
theorem eq_of_benchless (h : benchless e = benchless d) : e = { d with benches := e.benches } :=
  congrArg (fun x => { x with benches := e.benches }) h

theorem countEvent_benchless (kind : EngineKind) (counter b id : Nat) (d : Device) : benchless (countEvent kind counter b id d) = benchless d := by
  unfold countEvent
  split <;> rfl
theorem countSeal_benchless (b : Nat) (d : Device) : benchless (countSeal b d) = benchless d := rfl
theorem loadDerived_benchless (b n id : Nat) (keys : List Bytes) (d : Device) : benchless (loadDerived b n id keys d) = benchless d :=
  doEach_kept (view := benchless) fun _ _ => rfl
theorem noteDerived_benchless (v : Verb) (b : Nat) (j : Job) (d : Device) : benchless (noteDerived v b j d) = benchless d :=
  doWith_kept (view := benchless) fun _ _ => loadDerived_benchless _ _ _ _ _
theorem noteStaged_benchless (b id : Nat) (st : Staged) (d : Device) : benchless (noteStaged b id st d) = benchless d :=
  ite_kept (view := benchless) (countEvent_benchless _ _ _ _ d)

/-- Of what a bench notes before it stages a result, nothing shows beside the result but the benches. -/
theorem stagedOnly_stage (b : Nat) (st : Staged) (hnoted : benchless e = benchless d) (hj : jobOf j.id d = some j) :
    stagedOnly j st d (stage b j.id st e) := by
  have hkept := eq_of_benchless ((noteStaged_benchless b j.id st e).trans hnoted)
  rw [stage]
  generalize noteStaged b j.id st e = x at hkept
  rw [hkept]
  obtain ⟨hself, hothers, -⟩ := stagedOnly_stageResult (d := { d with benches := x.benches }) st hj
  exact ⟨hself, hothers, rfl⟩

/-! ### The stages of a run that neither wait nor end it (04 R736) -/

theorem jobOf_of_verbJob (hjob : verbJob op c d = some j) : jobOf j.id d = some j := (jobOn_eq_some (verbJob_eq_some_iff.mp hjob).1).1
theorem verbJob_recipe_lead (hjob : verbJob op c d = some j) : verbJob j.recipe (lead c d) d = some j := by
  rw [verbJob_lead, (verbJob_eq_some_iff.mp hjob).2.1]
  exact hjob

theorem runVerb_of_fetched (hjob : verbJob op c d = some j) (hdecode : decodeCode v d j = 0) (hhere : stateHere (lead c d) j = true)
    (hkeys : keysMissing v d j = []) : runVerb v (lead c d) j d = runChecked v (lead c d) j d := by
  rw [runVerb, if_neg (not_not.mpr hdecode), bringState_of_here hhere]
  simp [verbJob_recipe_lead hjob, doWith, doIf, hhere, fetchKeys_of_fetched hkeys, hkeys]

theorem runChecked_of_refused (hsound : unsound v d j = none) (hgated : gatedCode v d j ≠ 0) :
    runChecked v c j d = stage c.bench j.id { code := gatedCode v d j, checked := true } d := by
  simp only [runChecked, hsound]
  exact if_pos hgated
theorem runChecked_of_sound (hsound : unsound v d j = none) (hgated : gatedCode v d j = 0)
    (hdrawn : checkDraw v d j = 0 ∨ drawnEnough v (checkDraw v d j) j = true) : runChecked v c j d = checkDrawn v c j d := by
  simp only [runChecked, hsound]
  exact (if_neg (not_not.mpr hgated)).trans (withDrawn_of_drawn hdrawn)

theorem checkDrawn_of_refused (hearly : v.early d j ≠ 0) (hstep : j.step = 0) (hlate : v.late d j (j.drawn.take (v.early d j)) ≠ 0) :
    checkDrawn v c j d = stage c.bench j.id { code := v.late d j (j.drawn.take (v.early d j)), checked := true } d := by
  simp only [checkDrawn, hearly, hstep, decide_false, ne_eq, not_true_eq_false, Bool.or_self, Bool.false_eq_true, if_false]
  exact if_pos hlate
theorem checkDrawn_of_passed (hlate : v.early d j = 0 ∨ j.step ≠ 0 ∨ v.late d j (j.drawn.take (v.early d j)) = 0) :
    checkDrawn v c j d = runOnEngines v c j d := by
  refine if_neg (not_not.mpr ?_)
  split
  · rfl
  · next hnow =>
    simp only [Bool.or_eq_true, decide_eq_true_eq, not_or, not_not] at hnow
    simpa [hnow] using hlate

theorem runStep_of_half (hsafe : j.safeMode = true) (hhalf : j.half = false) : runStep v c j d = stage c.bench j.id { half := true } d :=
  if_pos (by simp [hsafe, hhalf])
theorem runStep_of_more (hhalf : j.safeMode = true → j.half = true) (hlast : lastOf v d j = false) :
    runStep v c j d = stage c.bench j.id { more := true, state := earlyBytes v d j } d :=
  (if_neg (by simpa using hhalf)).trans (if_pos (by simp [hlast]))
theorem runStep_of_last (hhalf : j.safeMode = true → j.half = true) (hlast : lastOf v d j = true) : runStep v c j d = lastStep v c j d :=
  (if_neg (by simpa using hhalf)).trans (if_neg (by simp [hlast]))

/-! ### A draw under the grant that the core holds (05 R181; 09 R316) -/

theorem kept_of_early_eq_zero (h : v.early d j = 0) : kept v d j = [] := by simp [kept, h]
theorem stepDraw_of_early_eq_zero (h : v.early d j = 0) : stepDraw v j d = v.draws d j := by simp [stepDraw, kept_of_early_eq_zero h]
theorem stepBytes_of_early_eq_zero (h : v.early d j = 0) : stepBytes v j d = j.drawn.take (v.draws d j) := by
  rw [stepBytes, stepDraw_of_early_eq_zero h, kept_of_early_eq_zero h, List.nil_append]

theorem drawnSo_le (v : Verb) (j : Job) : drawnSo v j ≤ j.drawn.length := by
  unfold drawnSo
  split <;> simp
theorem drawnEnough_of_not_fresh {n : Nat} (hfresh : v.fresh j = false) : drawnEnough v n j = decide (n ≤ j.drawn.length) := by
  simp [drawnEnough, drawnSo, hfresh]

/-- One call under the grant, which ends with it. -/
theorem drawFor_of_granted {n : Nat} {g : Grant} (hfresh : v.fresh j = false) (hgrant : heldGrant c 4 (fun _ => true) d = some g) :
    drawFor v c n j d = releaseGrant g (blocksOf (n - j.drawn.length)) d := by
  simp [drawFor, drawnSo, hfresh, hgrant, doWith]

theorem callsGo_of_drawn {n id : Nat} (hk : jobOf id d = some k) (hdrawn : drawnEnough v n k = true) (fuel : Nat) : callsGo v c n id fuel d = d := by
  cases fuel with
  | zero => rfl
  | succ fuel => simp [callsGo, hk, doWith, hdrawn]

theorem callBound_pos {n : Nat} (h : n ≠ 0) : 0 < 2 * ceilDiv (blocksOf n) 256 := by
  simp only [blocksOf, ceilDiv]
  omega

/-- Where one call delivers the bytes, what waits for them goes on with the job that holds them. -/
theorem withDrawn_of_granted {n : Nat} {g : Grant} {f : Job → Device → Device} (hj : jobOf j.id d = some j) (hn : n ≠ 0) (hempty : j.drawn = [])
    (hfresh : v.fresh j = false) (hservice : d.gather.service = true) (hgrant : heldGrant c 4 (fun _ => true) d = some g)
    (hk : jobOf j.id (releaseGrant g (blocksOf n) d) = some k) (hdrawn : drawnEnough v n k = true) :
    withDrawn v c n j f d = f k (releaseGrant g (blocksOf n) d) := by
  have hlacks : drawnEnough v n j = false := by simp [drawnEnough_of_not_fresh hfresh, hempty, hn]
  have hcalls : drawCalls v c n j d = releaseGrant g (blocksOf n) d := by
    obtain ⟨fuel, hfuel⟩ := Nat.exists_eq_add_one.mpr (callBound_pos hn)
    simp only [drawCalls, hfuel, callsGo, hj, doWith, hlacks, Bool.false_eq_true, if_false]
    rw [drawFor_of_granted hfresh hgrant, hempty]
    exact callsGo_of_drawn hk hdrawn fuel
  rw [withDrawn, if_neg (by simp [hn, hlacks]), if_neg (by simp [hservice]), hcalls]
  simp only [hk, doWith, doIf, hdrawn, if_true]

/-! ### The row of a verb -/

/-- `mk` is the row of the verb `v`, and what the verb notes of a completed run changes the benches alone. -/
structure VerbRow (op : BitVec 16) (v : Verb) (mk : CoreRef → Instr) : Prop where
  exec_eq : ∀ c s, exec (mk c) s = .next { s with dev := execVerb op v c s.dev }
  note_benchless : ∀ b j d, benchless (v.note b j d) = benchless d

variable {mk : CoreRef → Instr} {s : State}

theorem VerbRow.exec_of_verbJob (row : VerbRow op v mk) (hjob : verbJob op c s.dev = some j) :
    exec (mk c) s = .next { s with dev := runVerb v (lead c s.dev) j s.dev } := by
  rw [row.exec_eq, execVerb, hjob]
  rfl

/-- A row that ends in staging completes with what it stages. -/
theorem VerbRow.completes_of_stage (row : VerbRow op v mk) {st : Staged} {b : Nat} (hjob : verbJob op c s.dev = some j)
    (hrun : runVerb v (lead c s.dev) j s.dev = stage b k.id st e) (hnoted : benchless e = benchless d) (hk : jobOf k.id d = some k) :
    Completes (mk c) s (stagedOnly k st d) :=
  ⟨_, row.exec_of_verbJob hjob, hrun ▸ stagedOnly_stage b st hnoted hk⟩

theorem VerbRow.noted (row : VerbRow op v mk) (b : Nat) (j : Job) (d : Device) : benchless (v.note b j (noteDerived v b j d)) = benchless d :=
  (row.note_benchless b j _).trans (noteDerived_benchless v b j d)

theorem VerbRow.completes (row : VerbRow op v mk) (c : CoreRef) (j : Job) (s : State) (hready : verbReady op v c j s.dev) :
    Completes (mk c) s (resultStaged v j s.dev) := by
  have hjob : verbJob op c s.dev = some j := hready.1.1.1
  exact row.completes_of_stage hjob (runVerb_of_ready hready) (row.noted _ j s.dev) (jobOf_of_verbJob hjob)

/-- A verb that has drawn nothing yet stages its result on what the generator delivered under the grant. -/
theorem VerbRow.draws (row : VerbRow op v mk) (part : Device → Prop) : VerbDraws op v mk part := by
  intro c j k g s _ hdue hdraws hearly hfresh hempty hservice hgrant _ n e hk hn hkfresh hredo
  obtain ⟨⟨hjob, hhere, hkeys, hsound, hcode⟩, hlast, hengines, hblocks, hhalf⟩ := hdue
  obtain ⟨hdecode, hgated⟩ := firstCode_pair_eq_zero.mp hcode
  have hcheck : checkDraw v s.dev j = 0 := by simp [checkDraw, hearly]
  have henough : drawnEnough v n k = true := by simpa [drawnEnough_of_not_fresh hkfresh] using hn
  have hrun : runVerb v (lead c s.dev) j s.dev = stage (lead c s.dev).bench k.id (v.run e k (k.drawn.take n))
      (v.note (lead c s.dev).bench k (noteDerived v (lead c s.dev).bench k e)) := calc
    _ = runChecked v (lead c s.dev) j s.dev := runVerb_of_fetched hjob hdecode hhere hkeys
    _ = checkDrawn v (lead c s.dev) j s.dev := runChecked_of_sound hsound hgated (.inl hcheck)
    _ = runOnEngines v (lead c s.dev) j s.dev := checkDrawn_of_passed (.inl hearly)
    _ = runStep v (lead c s.dev) j s.dev := runOnEngines_of_held (verbJob_recipe_lead hjob) hengines hblocks
    _ = lastStep v (lead c s.dev) j s.dev := runStep_of_last hhalf hlast
    _ = finishRun v (lead c s.dev) k (k.drawn.take n) e := by
      simp only [lastStep, kept_of_early_eq_zero hearly, List.length_nil, Nat.sub_zero, List.nil_append]
      exact withDrawn_of_granted (jobOf_of_verbJob hjob) hdraws hempty hfresh hservice hgrant hk henough
    _ = _ := if_neg (by simp [hredo])
  exact row.completes_of_stage hjob hrun (row.noted _ k e) (jobOf_id hk ▸ hk)

theorem VerbRow.refuses (row : VerbRow op v mk) (part : Device → Prop) : VerbRefuses op v mk part := by
  intro c j s _ hjob stages
  have hstages : ∀ (st : Staged), runVerb v (lead c s.dev) j s.dev = stage (lead c s.dev).bench j.id st s.dev → stages st :=
    fun st hrun => row.completes_of_stage hjob hrun rfl (jobOf_of_verbJob hjob)
  refine ⟨fun hdecode => hstages _ (if_pos hdecode), fun hdecode hhere hkeys hsound => ?_⟩
  have hfetched := runVerb_of_fetched hjob hdecode hhere hkeys
  refine ⟨fun hgated => hstages _ (hfetched.trans (runChecked_of_refused hsound hgated)), fun hgated hdrawn => ?_⟩
  have hchecked := hfetched.trans (runChecked_of_sound hsound hgated hdrawn)
  refine ⟨fun hearly hstep hlate => hstages _ (hchecked.trans (checkDrawn_of_refused hearly hstep hlate)), fun hlate hengines hblocks => ?_⟩
  have hstep := hchecked.trans ((checkDrawn_of_passed hlate).trans (runOnEngines_of_held (verbJob_recipe_lead hjob) hengines hblocks))
  exact ⟨fun hsafe hhalf => hstages _ (hstep.trans (runStep_of_half hsafe hhalf)),
    fun hhalf hlast => hstages _ (hstep.trans (runStep_of_more hhalf hlast))⟩

theorem VerbRow.waits (row : VerbRow op v mk) (part : Device → Prop := fun _ => True) : VerbWaits op v mk part :=
  ⟨row.draws part, row.refuses part⟩

end Sys2Proof.Machine
end

section
/-! SUPPORT. The rows of the PIN and card verbs, and O52. -/

namespace Sys2Proof.Machine

theorem zoneVerb_row : VerbRow 0x0201 zoneVerb .pinTranslateZoneToZone := ⟨fun _ _ => rfl, fun _ _ _ => rfl⟩
theorem dukptVerb_row : VerbRow 0x0202 dukptVerb .pinTranslateDukptToZone := ⟨fun _ _ => rfl, fun _ _ _ => rfl⟩
theorem offsetVerifyVerb_row : VerbRow 0x0203 offsetVerifyVerb .pinVerifyOffset := ⟨fun _ _ => rfl, fun _ _ _ => rfl⟩
theorem offsetGenerateVerb_row : VerbRow 0x0204 offsetGenerateVerb .pinOffsetGenerate := ⟨fun _ _ => rfl, fun _ _ _ => rfl⟩
theorem valueVerifyVerb_row : VerbRow 0x0205 valueVerifyVerb .pinVerifyVerificationValue := ⟨fun _ _ => rfl, fun _ _ _ => rfl⟩
theorem valueGenerateVerb_row : VerbRow 0x0206 valueGenerateVerb .pinVerificationValueGenerate := ⟨fun _ _ => rfl, fun _ _ _ => rfl⟩
theorem originatorVerb_row : VerbRow 0x0207 originatorVerb .pinTranslateZoneToDukpt := ⟨fun _ _ => rfl, fun _ _ _ => rfl⟩
theorem cvvGenerateVerb_row : VerbRow 0x0301 cvvGenerateVerb .cardVerificationValueGenerate := ⟨fun _ _ => rfl, fun _ _ _ => rfl⟩
theorem cvvVerifyVerb_row : VerbRow 0x0302 cvvVerifyVerb .cardVerificationValueVerify := ⟨fun _ _ => rfl, fun _ _ _ => rfl⟩
/-- The comparison of the cryptogram is counted (08 R301 counter 9). -/
theorem arqcVerb_row : VerbRow 0x0401 arqcVerb .arqcVerify := ⟨fun _ _ => rfl, fun _ _ => countEvent_benchless _ _ _ _⟩
theorem arpcVerb_row : VerbRow 0x0402 arpcVerb .arqcVerifyAndArpcGenerate := ⟨fun _ _ => rfl, fun _ _ => countEvent_benchless _ _ _ _⟩

/-- A verification gives the flags of its comparison and releases nothing (08 R280). -/
theorem verification_run {v : Verb} (hv : v ∈ [offsetVerifyVerb, valueVerifyVerb, cvvVerifyVerb, arqcVerb]) (d : Device) (j : Job) (r : Bytes) :
    (v.run d j r).output = [] ∧ (v.run d j r).code = 0 ∧ (v.run d j r).pair.isSome = true := by
  simp only [List.mem_cons, List.not_mem_nil, or_false] at hv
  obtain rfl | rfl | rfl | rfl := hv <;> exact ⟨rfl, rfl, rfl⟩

/-- Settles O52: each verb by its row, and the verifications by their runs. -/
theorem pinAndCardVerbsStageTheirResults : Obligations.PinAndCardVerbsStageTheirResults :=
  ⟨fun c j s => ⟨zoneVerb_row.completes c j s, dukptVerb_row.completes c j s, offsetVerifyVerb_row.completes c j s,
      offsetGenerateVerb_row.completes c j s, valueVerifyVerb_row.completes c j s, valueGenerateVerb_row.completes c j s,
      originatorVerb_row.completes c j s, cvvGenerateVerb_row.completes c j s, cvvVerifyVerb_row.completes c j s,
      arqcVerb_row.completes c j s, arpcVerb_row.completes c j s⟩,
    zoneVerb_row.waits, dukptVerb_row.waits, offsetVerifyVerb_row.waits, offsetGenerateVerb_row.waits, valueVerifyVerb_row.waits,
    valueGenerateVerb_row.waits, originatorVerb_row.waits, cvvGenerateVerb_row.waits, cvvVerifyVerb_row.waits, arqcVerb_row.waits,
    arpcVerb_row.waits, fun d j r _ hv => verification_run hv d j r⟩

end Sys2Proof.Machine
end

section
/-! SUPPORT. The rows of the data, MAC, digest and random verbs, and O53. -/

namespace Sys2Proof.Machine

/-! ### What they note: contexts restored and saved, comparisons (08 R289, R301, R302) -/

theorem restored_benchless (kind : EngineKind) (counter b : Nat) (j : Job) (d : Device) :
    benchless (if isStart j then d else countEvent kind counter b j.id d) = benchless d := both_kept rfl (countEvent_benchless _ _ _ _ d)
theorem saved_benchless (kind : EngineKind) (counter b : Nat) (j : Job) (d : Device) :
    benchless (if isEnd j then d else countSeal b (countEvent kind counter b j.id d)) = benchless d :=
  both_kept rfl ((countSeal_benchless b _).trans (countEvent_benchless _ _ _ _ d))
theorem noteData_benchless (reverse : Bool) (b : Nat) (j : Job) (d : Device) : benchless (noteData reverse b j d) = benchless d :=
  (ite_kept (countEvent_benchless _ _ _ _ _)).trans ((saved_benchless _ _ b j _).trans (restored_benchless _ _ b j d))
theorem noteMac_benchless (verify : Bool) (b : Nat) (j : Job) (d : Device) : benchless (noteMac verify b j d) = benchless d :=
  (ite_kept (countEvent_benchless _ _ _ _ _)).trans ((saved_benchless _ _ b j _).trans (restored_benchless _ _ b j d))
theorem noteDigest_benchless (b : Nat) (j : Job) (d : Device) : benchless (noteDigest b j d) = benchless d :=
  (saved_benchless _ _ b j _).trans (restored_benchless _ _ b j d)

/-! ### The rows -/

theorem encryptVerb_row : VerbRow 0x0501 encryptVerb .encryptData := ⟨fun _ _ => rfl, noteData_benchless false⟩
theorem decryptVerb_row : VerbRow 0x0502 decryptVerb .decryptData := ⟨fun _ _ => rfl, noteData_benchless true⟩
theorem macGenerateVerb_row : VerbRow 0x0503 macGenerateVerb .macGenerate := ⟨fun _ _ => rfl, noteMac_benchless false⟩
theorem macVerifyVerb_row : VerbRow 0x0504 macVerifyVerb .macVerify := ⟨fun _ _ => rfl, noteMac_benchless true⟩
theorem digestVerb_row : VerbRow 0x0801 digestVerb .digest := ⟨fun _ _ => rfl, noteDigest_benchless⟩
theorem randomVerb_row : VerbRow 0x0901 randomVerb .random := ⟨fun _ _ => rfl, fun _ _ _ => rfl⟩

/-- What RANDOM stages are the bytes that it drew, and it has drawn as many as the output area holds. -/
theorem random_completes (c : CoreRef) (j : Job) (s : State) (hready : verbReady 0x0901 randomVerb c j s.dev) :
    Completes (.random c) s (fun d => j.outCap ≤ j.drawn.length ∧
      jobOf j.id d = some { j with staged := some { output := j.drawn.take j.outCap } }) := by
  have hbytes : stepBytes randomVerb j s.dev = j.drawn.take j.outCap := stepBytes_of_early_eq_zero (v := randomVerb) rfl
  have hdraw : stepDraw randomVerb j s.dev = j.outCap := stepDraw_of_early_eq_zero (v := randomVerb) rfl
  have hdrawn : j.outCap ≤ j.drawn.length := by
    rcases hdraw ▸ hready.2.1 with hzero | henough
    · omega
    · exact (of_decide_eq_true henough).trans (drawnSo_le randomVerb j)
  obtain ⟨d, hexec, hstaged, -⟩ := randomVerb_row.completes c j s hready
  rw [hbytes] at hstaged
  exact ⟨d, hexec, hdrawn, hstaged⟩

/-- Settles O53: each verb by its row, and RANDOM by the bytes that its step uses. -/
theorem dataVerbsStageTheirResults : Obligations.DataVerbsStageTheirResults :=
  ⟨fun c j s => ⟨encryptVerb_row.completes c j s, decryptVerb_row.completes c j s, macGenerateVerb_row.completes c j s,
      macVerifyVerb_row.completes c j s, digestVerb_row.completes c j s, randomVerb_row.completes c j s⟩,
    encryptVerb_row.waits, decryptVerb_row.waits, macGenerateVerb_row.waits, macVerifyVerb_row.waits, digestVerb_row.waits,
    randomVerb_row.waits, random_completes⟩

end Sys2Proof.Machine
end

section
/-! SUPPORT. The rows of the key management verbs, and O51. -/

namespace Sys2Proof.Machine

theorem generateVerb_row : VerbRow 0x0101 generateVerb .generateSymmetricKey := ⟨fun _ _ => rfl, fun _ _ _ => rfl⟩
theorem importVerb_row : VerbRow 0x0102 importVerb .importKeyBlock := ⟨fun _ _ => rfl, fun _ _ _ => rfl⟩
theorem exportVerb_row : VerbRow 0x0103 exportVerb .exportKeyBlock := ⟨fun _ _ => rfl, fun _ _ _ => rfl⟩
theorem restoreVerb_row : VerbRow 0x0104 restoreVerb .restorePersistenceBlock := ⟨fun _ _ => rfl, fun _ _ _ => rfl⟩
theorem deleteVerb_row : VerbRow 0x0105 deleteVerb .deleteKey := ⟨fun _ _ => rfl, fun _ _ _ => rfl⟩
theorem completeVerb_row : VerbRow 0x0108 completeVerb .componentComplete := ⟨fun _ _ => rfl, fun _ _ _ => rfl⟩
theorem deriveVerb_row : VerbRow 0x0109 deriveVerb .deriveKey := ⟨fun _ _ => rfl, fun _ _ _ => rfl⟩
theorem wrapVerb_row : VerbRow 0x010A wrapVerb .exportUnderPublicKey := ⟨fun _ _ => rfl, fun _ _ _ => rfl⟩
theorem unwrapVerb_row : VerbRow 0x010B unwrapVerb .importUnderPrivateKey := ⟨fun _ _ => rfl, fun _ _ _ => rfl⟩
theorem rotateVerb_row : VerbRow 0x010C rotateVerb .openRootRotation := ⟨fun _ _ => rfl, fun _ _ _ => rfl⟩
theorem closeVerb_row : VerbRow 0x010D closeVerb .closeRootRotation := ⟨fun _ _ => rfl, fun _ _ _ => rfl⟩
theorem rewrapVerb_row : VerbRow 0x010E rewrapVerb .massRewrap := ⟨fun _ _ => rfl, fun _ _ _ => rfl⟩
theorem suspendVerb_row : VerbRow 0x010F suspendVerb .suspendOrResumeKey := ⟨fun _ _ => rfl, fun _ _ _ => rfl⟩
theorem purgeVerb_row : VerbRow 0x0110 purgeVerb .purgeTenant := ⟨fun _ _ => rfl, fun _ _ _ => rfl⟩
theorem infoVerb_row : VerbRow 0x0111 infoVerb .keyInformation := ⟨fun _ _ => rfl, fun _ _ _ => rfl⟩

/-- Settles O51: each verb by its row. -/
theorem keyVerbsStageTheirResults : Obligations.KeyVerbsStageTheirResults :=
  ⟨fun c j s => ⟨generateVerb_row.completes c j s, importVerb_row.completes c j s, exportVerb_row.completes c j s,
      restoreVerb_row.completes c j s, deleteVerb_row.completes c j s, completeVerb_row.completes c j s, deriveVerb_row.completes c j s,
      wrapVerb_row.completes c j s, unwrapVerb_row.completes c j s, rotateVerb_row.completes c j s, closeVerb_row.completes c j s,
      rewrapVerb_row.completes c j s, suspendVerb_row.completes c j s, purgeVerb_row.completes c j s, infoVerb_row.completes c j s⟩,
    generateVerb_row.waits, importVerb_row.waits, exportVerb_row.waits, restoreVerb_row.waits, deleteVerb_row.waits,
    completeVerb_row.waits, deriveVerb_row.waits, wrapVerb_row.waits, unwrapVerb_row.waits, rotateVerb_row.waits, closeVerb_row.waits,
    rewrapVerb_row.waits, suspendVerb_row.waits, purgeVerb_row.waits, infoVerb_row.waits⟩

end Sys2Proof.Machine
end

section
/-! SUPPORT. The rows of the public-key verbs, the limit of rejected attempts of an Izvi part (07 R260, R262; 21 R671), and O54. -/

namespace Sys2Proof.Machine

theorem rsaGenerateVerb_row : VerbRow 0x0601 rsaGenerateVerb .rsaKeyGeneration := ⟨fun _ _ => rfl, fun _ _ _ => rfl⟩
theorem rsaSignVerb_row : VerbRow 0x0602 rsaSignVerb .rsaSign := ⟨fun _ _ => rfl, fun _ _ _ => rfl⟩
theorem rsaVerifyVerb_row : VerbRow 0x0603 rsaVerifyVerb .rsaVerify := ⟨fun _ _ => rfl, fun _ _ _ => rfl⟩
theorem rsaDecryptVerb_row : VerbRow 0x0604 rsaDecryptVerb .rsaDecrypt := ⟨fun _ _ => rfl, fun _ _ _ => rfl⟩
theorem rsaEncryptVerb_row : VerbRow 0x0605 rsaEncryptVerb .rsaEncrypt := ⟨fun _ _ => rfl, fun _ _ _ => rfl⟩
theorem ecPairVerb_row : VerbRow 0x0606 ecPairVerb .ecKeyGeneration := ⟨fun _ _ => rfl, fun _ _ _ => rfl⟩
theorem ecdsaSignVerb_row : VerbRow 0x0607 ecdsaSignVerb .ecdsaSign := ⟨fun _ _ => rfl, fun _ _ _ => rfl⟩
theorem ecdsaVerifyVerb_row : VerbRow 0x0608 ecdsaVerifyVerb .ecdsaVerify := ⟨fun _ _ => rfl, fun _ _ _ => rfl⟩
theorem ecdhVerb_row : VerbRow 0x0609 ecdhVerb .ecdhToNewSlot := ⟨fun _ _ => rfl, fun _ _ _ => rfl⟩
theorem edPairVerb_row : VerbRow 0x060A edPairVerb .eddsaKeyGeneration := ⟨fun _ _ => rfl, fun _ _ _ => rfl⟩
theorem eddsaSignVerb_row : VerbRow 0x060B eddsaSignVerb .eddsaSign := ⟨fun _ _ => rfl, fun _ _ _ => rfl⟩
theorem eddsaVerifyVerb_row : VerbRow 0x060C eddsaVerifyVerb .eddsaVerify := ⟨fun _ _ => rfl, fun _ _ _ => rfl⟩
theorem publicImportVerb_row : VerbRow 0x060D publicImportVerb .publicKeyImport := ⟨fun _ _ => rfl, fun _ _ _ => rfl⟩
theorem kemPairVerb_row : VerbRow 0x0701 kemPairVerb .mlKemKeyGeneration := ⟨fun _ _ => rfl, fun _ _ _ => rfl⟩
theorem encapsulateVerb_row : VerbRow 0x0702 encapsulateVerb .mlKemEncapsulate := ⟨fun _ _ => rfl, fun _ _ _ => rfl⟩
theorem decapsulateVerb_row : VerbRow 0x0703 decapsulateVerb .mlKemDecapsulate := ⟨fun _ _ => rfl, fun _ _ _ => rfl⟩
theorem dsaPairVerb_row : VerbRow 0x0704 dsaPairVerb .mlDsaKeyGeneration := ⟨fun _ _ => rfl, fun _ _ _ => rfl⟩
theorem dsaVerifyVerb_row : VerbRow 0x0706 dsaVerifyVerb .mlDsaVerify := ⟨fun _ _ => rfl, fun _ _ _ => rfl⟩
theorem retentionVerb_row : VerbRow 0x0802 retentionVerb .retentionSign := ⟨fun _ _ => rfl, fun _ _ _ => rfl⟩
theorem lmsGenerateVerb_row : VerbRow 0x0803 lmsGenerateVerb .lmsHssKeyGeneration := ⟨fun _ _ => rfl, fun _ _ _ => rfl⟩
theorem lmsVerifyVerb_row : VerbRow 0x0804 lmsVerifyVerb .lmsHssVerify := ⟨fun _ _ => rfl, fun _ _ _ => rfl⟩

/-! ### The row of ML_DSA_SIGN -/

variable {c : CoreRef} {j k : Job} {d e : Device} {s : State} {st : Staged}

theorem verbJob_of_ready {op : BitVec 16} {v : Verb} (hready : verbReady op v c j d) : verbJob op c d = some j := by
  obtain ⟨⟨⟨hjob, -⟩, -⟩, -⟩ := hready
  exact hjob

theorem exec_mlDsaSign (hjob : verbJob 0x0705 c s.dev = some j) :
    let e := runVerb dsaSignVerb (lead c s.dev) j s.dev
    exec (.mlDsaSign c) s = .next { s with dev := if izvi s.dev then giveUp c e else e } := by
  have hrow : execVerb 0x0705 dsaSignVerb c s.dev = runVerb dsaSignVerb (lead c s.dev) j s.dev := by simp only [execVerb, hjob, doWith]
  exact hrow ▸ rfl

/-- ML_DSA_SIGN takes one step at a time and draws nothing in Check. -/
theorem lastOf_dsaSignVerb (d : Device) (j : Job) : lastOf dsaSignVerb d j = true := decide_eq_true (Nat.le_add_left 1 j.step)
theorem checkDraw_dsaSignVerb (d : Device) (j : Job) : checkDraw dsaSignVerb d j = 0 := rfl

theorem runVerb_dsaSignVerb (hjob : verbJob 0x0705 c d = some j) (hdecode : decodeCode dsaSignVerb d j = 0) (hhere : stateHere (lead c d) j = true)
    (hkeys : keysMissing dsaSignVerb d j = []) (hsound : unsound dsaSignVerb d j = none) (hgated : gatedCode dsaSignVerb d j = 0)
    (hengines : enginesMissing (lead c d) j d = []) (hblocks : blocksDone dsaSignVerb d j = true) :
    runVerb dsaSignVerb (lead c d) j d = runStep dsaSignVerb (lead c d) j d := calc
  _ = runChecked dsaSignVerb (lead c d) j d := runVerb_of_fetched hjob hdecode hhere hkeys
  _ = checkDrawn dsaSignVerb (lead c d) j d := runChecked_of_sound hsound hgated (.inl (checkDraw_dsaSignVerb d j))
  _ = runOnEngines dsaSignVerb (lead c d) j d := checkDrawn_of_passed (.inl rfl)
  _ = runStep dsaSignVerb (lead c d) j d := runOnEngines_of_held (verbJob_recipe_lead hjob) hengines hblocks

/-! ### Where the cores do not compare for themselves -/

theorem mlDsaSign_completes_of_stage {b : Nat} (hpart : izvi s.dev = false) (hjob : verbJob 0x0705 c s.dev = some j)
    (hrun : runVerb dsaSignVerb (lead c s.dev) j s.dev = stage b k.id st e) (hnoted : benchless e = benchless d) (hk : jobOf k.id d = some k) :
    Completes (.mlDsaSign c) s (stagedOnly k st d) :=
  ⟨_, (exec_mlDsaSign hjob).trans (by rw [hpart, hrun]; rfl), stagedOnly_stage b st hnoted hk⟩

theorem mlDsaSign_draws : VerbDraws 0x0705 dsaSignVerb .mlDsaSign (fun d => izvi d = false) := by
  intro c j k g s hpart hdue hdraws hearly hfresh hempty hservice hgrant _ n e hk hn hkfresh hredo
  obtain ⟨⟨hjob, hhere, hkeys, hsound, hcode⟩, hlast, hengines, hblocks, hhalf⟩ := hdue
  obtain ⟨hdecode, hgated⟩ := firstCode_pair_eq_zero.mp hcode
  have henough : drawnEnough dsaSignVerb n k = true := by simpa [drawnEnough_of_not_fresh hkfresh] using hn
  have hrun : runVerb dsaSignVerb (lead c s.dev) j s.dev = stage (lead c s.dev).bench k.id (dsaSignVerb.run e k (k.drawn.take n))
      (noteDerived dsaSignVerb (lead c s.dev).bench k e) := calc
    _ = runStep dsaSignVerb (lead c s.dev) j s.dev := runVerb_dsaSignVerb hjob hdecode hhere hkeys hsound hgated hengines hblocks
    _ = lastStep dsaSignVerb (lead c s.dev) j s.dev := runStep_of_last hhalf hlast
    _ = finishRun dsaSignVerb (lead c s.dev) k (k.drawn.take n) e := by
      simp only [lastStep, kept_of_early_eq_zero hearly, List.length_nil, Nat.sub_zero, List.nil_append]
      exact withDrawn_of_granted (jobOf_of_verbJob hjob) hdraws hempty hfresh hservice hgrant hk henough
    _ = _ := if_neg (by simp [hredo])
  exact mlDsaSign_completes_of_stage hpart hjob hrun (noteDerived_benchless _ _ k e) (jobOf_id hk ▸ hk)

theorem mlDsaSign_refuses : VerbRefuses 0x0705 dsaSignVerb .mlDsaSign (fun d => izvi d = false) := by
  intro c j s hpart hjob stages
  have hstages : ∀ (st : Staged), runVerb dsaSignVerb (lead c s.dev) j s.dev = stage (lead c s.dev).bench j.id st s.dev → stages st :=
    fun st hrun => mlDsaSign_completes_of_stage hpart hjob hrun rfl (jobOf_of_verbJob hjob)
  refine ⟨fun hdecode => hstages _ (if_pos hdecode), fun hdecode hhere hkeys hsound => ⟨fun hgated => ?_, fun hgated _ => ⟨?_, ?_⟩⟩⟩
  · exact hstages _ ((runVerb_of_fetched hjob hdecode hhere hkeys).trans (runChecked_of_refused hsound hgated))
  · exact fun hearly => absurd rfl hearly
  · intro _ hengines hblocks
    have hstep := runVerb_dsaSignVerb hjob hdecode hhere hkeys hsound hgated hengines hblocks
    exact ⟨fun hsafe hhalf => hstages _ (hstep.trans (runStep_of_half hsafe hhalf)),
      fun _ hmore => absurd (lastOf_dsaSignVerb s.dev j) (by simp [hmore])⟩

theorem mlDsaSign_waits : VerbWaits 0x0705 dsaSignVerb .mlDsaSign (fun d => izvi d = false) := ⟨mlDsaSign_draws, mlDsaSign_refuses⟩

/-! ### In an Izvi part -/

theorem jobOn_core (hj : jobOn c d = some j) :
    (benchRuns (lead c d).bench d && (coreOf (lead c d) d).state == .running) = true ∧ (coreOf (lead c d) d).job = some j.id := by
  simp only [jobOn] at hj
  split at hj
  · next hruns =>
    refine ⟨hruns, ?_⟩
    split at hj
    · next hid =>
      split at hj
      · next hx => split at hj <;> cases hj; rw [hid, jobOf_id hx]
      · cases hj
    · cases hj
  · cases hj
theorem jobOn_stageResult (st : Staged) (hj : jobOn c d = some j) : jobOn c (stageResult j.id st d) = some { j with staged := some st } := by
  have hstaged := (stagedOnly_stageResult st (jobOn_eq_some hj).1).1
  have hplace := (jobOn_eq_some hj).2
  have hlead : lead c (stageResult j.id st d) = lead c d := rfl
  have hruns : benchRuns (lead c d).bench (stageResult j.id st d) = benchRuns (lead c d).bench d := rfl
  have hcore : coreOf (lead c d) (stageResult j.id st d) = coreOf (lead c d) d := rfl
  obtain ⟨hrunning, hid⟩ := jobOn_core hj
  simp only [jobOn, hlead, hruns, hcore, hrunning, hid, hstaged, hplace, if_true]

theorem dsaHalf_intents {set : DsaSet} {x : DsaKey} {sch : Schedule} {size : Nat} {uses : List Intent} {a : DsaWork} {i : Intent}
    (hi : i ∈ (dsaHalf set x sch size uses a).intents) : i ∈ uses := by
  unfold dsaHalf at hi
  split at hi
  · split at hi
    · exact hi
    · split at hi <;> cases hi
  · cases hi
/-- A half of an attempt uses its key or nothing, so the digest cache notes nothing of it. -/
theorem noteStaged_dsaSignVerb (b id : Nat) (d e : Device) (j : Job) (r : Bytes) : noteStaged b id (dsaSignVerb.run d j r) e = e := by
  refine if_neg (mt List.any_eq_true.mp ?_)
  rintro ⟨i, hi, hhit⟩
  obtain ⟨h, -, rfl⟩ := List.mem_map.mp (dsaHalf_intents hi)
  cases hhit

theorem runStaged_dsaSignVerb (c : CoreRef) (j : Job) (d : Device) : runStaged dsaSignVerb c j d =
    stageResult j.id (dsaSignVerb.run d j (stepBytes dsaSignVerb j d)) d := by
  have hderived : noteDerived dsaSignVerb c.bench j d = d := by
    unfold noteDerived
    cases jobEngine .cipher j.id d <;> rfl
  rw [runStaged, hderived, stage]
  exact congrArg _ (noteStaged_dsaSignVerb _ _ _ _ _ _)

theorem giveUp_of_staged (hj : jobOn c d = some k) (hst : k.staged = some st) (hcode : st.code ≠ 0x0507) : giveUp c d = d := by
  simp only [giveUp, hj, hst, if_neg hcode]

theorem giveUp_at_limit (hj : jobOn c d = some k) (hst : k.staged = some st) (hcode : st.code = 0x0507)
    (hids : (d.gaffer.jobs.map (·.id)).Nodup) : answeredWith k.id 0x0507 (giveUp c d) := by
  simp only [giveUp, hj, hst, if_pos hcode]
  refine (dispatchAll_squashJob ?_ ?_).1
  · exact hids
  · exact Option.isSome_iff_exists.mpr ⟨k, (jobOn_eq_some hj).1⟩

theorem jobsDistinct_stageResult (id : Nat) (st : Staged) (h : jobsDistinct d) : jobsDistinct (stageResult id st d) := by
  obtain ⟨-, -, -, hkept⟩ := stageResult_rises id st (rises_refl d)
  exact hkept h

theorem exec_mlDsaSign_of_izvi (hready : verbReady 0x0705 dsaSignVerb c j s.dev) (hizvi : izvi s.dev = true) : exec (.mlDsaSign c) s =
    .next { s with dev := giveUp c (stageResult j.id (dsaSignVerb.run s.dev j (stepBytes dsaSignVerb j s.dev)) s.dev) } := by
  refine (exec_mlDsaSign (verbJob_of_ready hready)).trans ?_
  rw [if_pos hizvi, runVerb_of_ready hready, runStaged_dsaSignVerb]

theorem mlDsaSign_completes (c : CoreRef) (j : Job) (s : State) (hready : verbReady 0x0705 dsaSignVerb c j s.dev)
    (hpart : izvi s.dev = false ∨ (dsaSignVerb.run s.dev j (stepBytes dsaSignVerb j s.dev)).code ≠ 0x0507) :
    Completes (.mlDsaSign c) s (resultStaged dsaSignVerb j s.dev) := by
  have hjob := verbJob_of_ready hready
  rcases Bool.eq_false_or_eq_true (izvi s.dev) with hizvi | hizvi
  · have hcode := hpart.resolve_left (by simp [hizvi])
    have hexec := exec_mlDsaSign_of_izvi hready hizvi
    rw [giveUp_of_staged (jobOn_stageResult _ (verbJob_eq_some_iff.mp hjob).1) rfl hcode] at hexec
    exact ⟨_, hexec, stagedOnly_stageResult _ (jobOf_of_verbJob hjob)⟩
  · exact mlDsaSign_completes_of_stage hizvi hjob (runVerb_of_ready hready) (noteDerived_benchless _ _ j s.dev) (jobOf_of_verbJob hjob)

/-- The last of the 814 attempts ends the job at once (07 R262). -/
theorem mlDsaSign_gives_up (c : CoreRef) (j : Job) (s : State) (hready : verbReady 0x0705 dsaSignVerb c j s.dev) (hdistinct : jobsDistinct s.dev)
    (hizvi : izvi s.dev = true) (hcode : (dsaSignVerb.run s.dev j (stepBytes dsaSignVerb j s.dev)).code = 0x0507) :
    Completes (.mlDsaSign c) s (fun d => ∃ k, jobOf j.id d = some k ∧ k.place = .answered ∧ k.code = 0x0507) := by
  have hjob := (verbJob_eq_some_iff.mp (verbJob_of_ready hready)).1
  exact ⟨_, exec_mlDsaSign_of_izvi hready hizvi, (giveUp_at_limit (jobOn_stageResult _ hjob) rfl hcode (jobsDistinct_stageResult j.id _ hdistinct).1).2⟩

/-- Settles O54: each verb by its row, and ML_DSA_SIGN by what its part does at the limit of attempts. -/
theorem publicKeyVerbsStageTheirResults : Obligations.PublicKeyVerbsStageTheirResults :=
  ⟨fun c j s => ⟨rsaGenerateVerb_row.completes c j s, rsaSignVerb_row.completes c j s, rsaVerifyVerb_row.completes c j s,
      rsaDecryptVerb_row.completes c j s, rsaEncryptVerb_row.completes c j s, ecPairVerb_row.completes c j s,
      ecdsaSignVerb_row.completes c j s, ecdsaVerifyVerb_row.completes c j s, ecdhVerb_row.completes c j s,
      edPairVerb_row.completes c j s, eddsaSignVerb_row.completes c j s, eddsaVerifyVerb_row.completes c j s,
      publicImportVerb_row.completes c j s, kemPairVerb_row.completes c j s, encapsulateVerb_row.completes c j s,
      decapsulateVerb_row.completes c j s, dsaPairVerb_row.completes c j s, mlDsaSign_completes c j s,
      dsaVerifyVerb_row.completes c j s, retentionVerb_row.completes c j s, lmsGenerateVerb_row.completes c j s,
      lmsVerifyVerb_row.completes c j s⟩,
    rsaGenerateVerb_row.waits, rsaSignVerb_row.waits, rsaVerifyVerb_row.waits, rsaDecryptVerb_row.waits, rsaEncryptVerb_row.waits,
    ecPairVerb_row.waits, ecdsaSignVerb_row.waits, ecdsaVerifyVerb_row.waits, ecdhVerb_row.waits, edPairVerb_row.waits,
    eddsaSignVerb_row.waits, eddsaVerifyVerb_row.waits, publicImportVerb_row.waits, kemPairVerb_row.waits, encapsulateVerb_row.waits,
    decapsulateVerb_row.waits, dsaPairVerb_row.waits, mlDsaSign_waits, dsaVerifyVerb_row.waits, retentionVerb_row.waits,
    lmsGenerateVerb_row.waits, lmsVerifyVerb_row.waits, mlDsaSign_gives_up⟩

end Sys2Proof.Machine
end

section
/-! SUPPORT. Verbs that ask the custody partition: component sessions and attestation (11 R396 to R398; 18 R611, R614). -/

namespace Sys2Proof.Machine

variable {c : CoreRef} {j : Job} {st : Staged} {d e : Device} {s : State}

/-! ### A row of the partition whose checks pass -/

theorem need_of_true {ok : Bool} (h : ok = true) (code : Code) : need ok code = 0 := if_pos h
theorem reserved_of_zeros {off len : Nat} (h : zeros j.params off len = true) : reserved j off len = 0 := need_of_true h _

theorem componentRow_of_passed {op : BitVec 16} {decode : Job → Code} {maxOut : Device → Job → Nat} {checks : Device → Job → Code}
    {act : Nat → Job → Device → Device} (hjob : verbJob op c d = some j) (hdecode : decode j = 0) (hroom : maxOut d j ≤ outRoom d j)
    (hgate : gateCode d j = 0) (hchecks : checks d j = 0) : componentRow op decode maxOut checks act c d = act (lead c d).bench j d := by
  simp [componentRow, hjob, doWith, firstCode, hdecode, need_of_true (decide_eq_true hroom), hgate, hchecks]

theorem exec_of_row {i : Instr} {f : Device → Device} (hexec : exec i s = runDev f s) (hf : f s.dev = e) : exec i s = .next { s with dev := e } := by
  rw [hexec, runDev, hf]

/-- Staging leaves all but the scheduler and the benches. -/
theorem frame_of_stagedOnly (h : stagedOnly j st d e) : e = { d with gaffer := e.gaffer, benches := e.benches } := by
  obtain ⟨-, -, hframe⟩ := h
  exact congrArg (fun x => { x with gaffer := e.gaffer, benches := e.benches }) hframe

/-! ### Draws of the generators of the device (09 R315) -/

theorem forDraw_frame (k n : Nat) (d : Device) : forDraw k n d = { d with gather := (forDraw k n d).gather } := by
  simp only [forDraw]
  split <;> rfl
/-- A draw comes of the generators, the time and what was drawn before: it may be made before an update of anything else. -/
theorem forDraw_comm {k n : Nat} {f : Device → Device} (hgather : (f d).gather = d.gather) (hreseed : deviceReseed k (f d) = f (deviceReseed k d)) :
    forDraw k n (f d) = f (forDraw k n d) := by
  simp only [forDraw, hgather, hreseed]
  split <;> rfl
theorem forDraw_sendCard (k n : Nat) (portB : Bool) (ins : Byte) (data : Bytes) (d : Device) :
    forDraw k n (sendCard portB ins data d) = sendCard portB ins data (forDraw k n d) := forDraw_comm rfl rfl
theorem drawn_sendCard (k n : Nat) (portB : Bool) (ins : Byte) (data : Bytes) (d : Device) : drawn k n (sendCard portB ins data d) = drawn k n d := rfl
theorem sendCard_keys (portB : Bool) (ins : Byte) (data : Bytes) (d : Device) : (sendCard portB ins data d).keys = d.keys := rfl
theorem spend_readIdentity (k n : Nat) (portB : Bool) (reply : CardReply) (d : Device) :
    spend k n (readIdentity portB reply d) = readIdentity portB reply (spend k n d) := rfl
theorem drawn_readIdentity (k n : Nat) (portB : Bool) (reply : CardReply) (d : Device) : drawn k n (readIdentity portB reply d) = drawn k n d := rfl
theorem forDraw_readIdentity (k n : Nat) (portB : Bool) (reply : CardReply) (d : Device) :
    forDraw k n (readIdentity portB reply d) = readIdentity portB reply (forDraw k n d) := forDraw_comm rfl rfl

/-! ### COMPONENT_SESSION_BEGIN (11 R396, R397) -/

theorem componentSessionBegin_completes (hjob : verbJob 0x0106 c s.dev = some j) (hgate : gateCode s.dev j = 0) (hchecks : beginChecks s.dev j = 0)
    (hhead : zeros j.params 0 8 = true) (hmiddle : zeros j.params 20 3 = true) (htail : zeros j.params 24 24 = true)
    (htemplate : templateRsv j 8 = 0) (hcount : parByte j 23 = 2 ∨ parByte j 23 = 3) : Completes (.componentSessionBegin c) s
      (stagedOnly j { intents := [.beginSession (field j.params 8 12) (par j 23 1)] } s.dev) := by
  have hways : (parByte j 23 == 2 || parByte j 23 == 3) = true := by simpa using hcount
  have hdecode : firstCode [reserved j 0 8, reserved j 20 3, reserved j 24 24, templateRsv j 8,
      need (parByte j 23 == 2 || parByte j 23 == 3) 0x0110] = 0 := by
    simp only [reserved_of_zeros hhead, reserved_of_zeros hmiddle, reserved_of_zeros htail, htemplate, need_of_true hways, firstCode, if_true]
  exact ⟨_, exec_of_row (f := componentRow 0x0106 _ _ _ _ c) rfl (componentRow_of_passed hjob hdecode (Nat.zero_le _) hgate hchecks),
    stagedOnly_stage _ _ rfl (jobOf_of_verbJob hjob)⟩

/-! ### COMPONENT_ADD (11 R398; 16 R567 to R569) -/

/-- What is staged of a component: its check value, and the component for the session. -/
def componentStaged (x : CompSession) (reply : CardReply) (m : Bytes) : Staged :=
  { output := storedCheck (templateAt x.template 0).cls (templateAt x.template 0).param m
    intents := [.addComponent x.number (fit 65 reply.publicKey) m] }
/-- The component that a card's reply carries, under a scalar of the part. -/
def componentOf (scalar : Nat) (x : CompSession) (reply : CardReply) (t : Nat) (k : KeyStore) : Option Bytes :=
  openComponent scalar reply (cardContext x.number t (slotOf t k).suite (slotOf t k).rootVersion (templateAt x.template 0).cls)
    (keyLen (templateAt x.template 0).cls (templateAt x.template 0).param)
/-- A card has been sent commands, and two draws of 32 bytes have been made for it. -/
def exchanged (gather : Gather) (out : List Output) (d : Device) : Device := { d with gather := gather, out := out, draws := d.draws + 64 }

theorem cardDigest_drawn (number : BitVec 32) (procedure : Byte) (params challenge : Bytes) (d : Device) :
    cardDigest (spend 8 32 (forDraw 8 32 d)) number procedure params challenge = cardDigest d number procedure params challenge := by
  rw [forDraw_frame]
  rfl
/-- The scalar is drawn after the challenge. -/
def scalarDrawn (d : Device) : Device := forDraw 8 32 (spend 8 32 (forDraw 8 32 d))
theorem scalarDrawn_frame (d : Device) : ∃ gather, scalarDrawn d = { d with gather := gather, draws := d.draws + 32 } := by
  rw [scalarDrawn, forDraw_frame 8 32 (spend 8 32 (forDraw 8 32 d)), forDraw_frame 8 32 d]
  exact ⟨_, rfl⟩
theorem scalarDrawn_readIdentity (portB : Bool) (reply : CardReply) (d : Device) :
    scalarDrawn (readIdentity portB reply d) = readIdentity portB reply (scalarDrawn d) := by
  rw [scalarDrawn, forDraw_readIdentity, spend_readIdentity, forDraw_readIdentity, scalarDrawn]
theorem scalarDrawn_sent (portB : Bool) (digest context : Bytes) (d : Device) : ∃ gather out,
    sendCard portB 0x30 context (spend 8 32 (sendCard portB 0x20 digest (scalarDrawn d))) = exchanged gather out d := by
  obtain ⟨gather, hframe⟩ := scalarDrawn_frame d
  rw [hframe]
  exact ⟨_, _, rfl⟩

theorem addComponent_of_signed {b : Nat} {portB : Bool} {x : CompSession} {reply : CardReply} {m : Bytes}
    (henrolled : enrolled d (fit 65 reply.publicKey) = true) (hnew : x.custodians.contains (fit 65 reply.publicKey) = false)
    (hsigned : cardSigned reply (cardDigest d x.number 0x80 x.template (drawn 8 32 (forDraw 8 32 d))) = true)
    (hopens : componentOf (beNat (drawn 8 32 (scalarDrawn d))) x reply j.tenant d.keys = some m) :
    ∃ gather out, addComponent b j portB x reply d = stage b j.id (componentStaged x reply m) (exchanged gather out d) := by
  have hkeys : (scalarDrawn d).keys = d.keys := by
    obtain ⟨gather, hframe⟩ := scalarDrawn_frame d
    rw [hframe]
  rw [componentOf, ← hkeys, scalarDrawn] at hopens
  simp only [addComponent, henrolled, hnew, cardDigest_drawn, hsigned, forDraw_sendCard, drawn_sendCard, sendCard_keys, hopens,
    Bool.not_true, Bool.false_eq_true, if_false]
  exact (scalarDrawn_sent portB _ _ d).imp fun _ => Exists.imp fun _ hsent => congrArg (stage b j.id (componentStaged x reply m)) hsent

theorem exchangeAdd_of_served {b : Nat} {x : CompSession} {reply : CardReply} (hsession : sessionNamed d j = some x)
    (hport : portServes (decide (par j 28 1 = 1)) j d = true) (hstatus : reply.status = 0x9000) (hservice : d.gather.service = true) :
    exchangeAdd reply b j d = addComponent b j (decide (par j 28 1 = 1)) x reply (readIdentity (decide (par j 28 1 = 1)) reply d) := by
  have hserves : (readIdentity (decide (par j 28 1 = 1)) reply d).gather.service = true := hservice
  simp only [exchangeAdd, hsession, hport, hstatus, hserves, ne_eq, not_true_eq_false, Bool.not_true, Bool.false_eq_true, if_false]

/-- Of a served exchange that signs and opens, the identity read before it leaves the bytes drawn and the component as they are. -/
theorem exchangeAdd_of_signed {b : Nat} {x : CompSession} {reply : CardReply} {m : Bytes} (hsession : sessionNamed d j = some x)
    (hport : portServes (decide (par j 28 1 = 1)) j d = true) (hstatus : reply.status = 0x9000) (hservice : d.gather.service = true)
    (henrolled : enrolled d (fit 65 reply.publicKey) = true) (hnew : x.custodians.contains (fit 65 reply.publicKey) = false)
    (hsigned : cardSigned reply (cardDigest d x.number 0x80 x.template (drawn 8 32 (forDraw 8 32 d))) = true)
    (hopens : componentOf (beNat (drawn 8 32 (scalarDrawn d))) x reply j.tenant d.keys = some m) :
    ∃ gather out, exchangeAdd reply b j d = stage b j.id (componentStaged x reply m)
      (exchanged gather out (readIdentity (decide (par j 28 1 = 1)) reply d)) := by
  rw [exchangeAdd_of_served hsession hport hstatus hservice]
  refine addComponent_of_signed henrolled hnew ?_ ?_
  · rw [forDraw_readIdentity, drawn_readIdentity]
    exact hsigned
  · rw [scalarDrawn_readIdentity, drawn_readIdentity]
    exact hopens

theorem componentAdd_completes {reply : CardReply} {st : Staged} {portB : Bool} {gather : Gather} {out : List Output}
    (hjob : verbJob 0x0107 c s.dev = some j) (hgate : gateCode s.dev j = 0)
    (hhead : zeros j.params 0 24 = true) (htail : zeros j.params 29 19 = true) (hport : par j 28 1 < 2) (hroom : 8 ≤ outRoom s.dev j)
    (hexchange : exchangeAdd reply (lead c s.dev).bench j s.dev = stage (lead c s.dev).bench j.id st (exchanged gather out (readIdentity portB reply s.dev))) :
    Completes (.componentAdd c reply) s (stagedOnly j st (exchanged gather out (readIdentity portB reply s.dev))) := by
  have hdecode : firstCode [reserved j 0 24, reserved j 29 19, need (decide (par j 28 1 < 2)) 0x0110] = 0 := by
    simp only [reserved_of_zeros hhead, reserved_of_zeros htail, need_of_true (decide_eq_true hport), firstCode, if_true]
  exact ⟨_, exec_of_row (f := componentRow 0x0107 _ _ _ _ c) rfl ((componentRow_of_passed hjob hdecode hroom hgate rfl).trans hexchange),
    stagedOnly_stage _ _ rfl (jobOf_of_verbJob hjob :)⟩

/-! ### ATTEST (18 R609 to R614) -/

/-- What a statement tells of the part shows neither draws nor who asks for a statement. -/
theorem statementOf_of_draws (gather : Gather) (draws : Nat) (attesting : List Nat) (d : Device) (payload r : Bytes) :
    statementOf { d with gather := gather, draws := draws, custody := { d.custody with attesting := attesting } } payload r =
      statementOf d payload r := rfl
theorem claims_of_draws (gather : Gather) (draws : Nat) (attesting : List Nat) (d : Device) (all : Bool) (t : Nat) (nonce : Bytes) :
    claims all t nonce { d with gather := gather, draws := draws, custody := { d.custody with attesting := attesting } } =
      claims all t nonce d := rfl

/-- The requests that wait, as the partition notes them. -/
def queued (ids : List Nat) (d : Device) : Device := { d with custody := { d.custody with attesting := ids } }
/-- A statement about the part for a job, on 144 drawn bytes. -/
def attestation (j : Job) (d : Device) : Staged :=
  { output := statementOf d (claims (allTenants j) j.tenant j.input d) (drawn 8 144 (forDraw 8 144 d)) }
/-- Those bytes have been drawn, and the queue has moved on. -/
def attested (gather : Gather) (ids : List Nat) (d : Device) : Device :=
  { d with gather := gather, draws := d.draws + 144, custody := { d.custody with attesting := ids } }

theorem forDraw_queued (k n : Nat) (ids : List Nat) (d : Device) : forDraw k n (queued ids d) = queued ids (forDraw k n d) := forDraw_comm rfl rfl

theorem signStatement_of_service {b : Nat} (ids : List Nat) (hservice : d.gather.service = true) :
    ∃ gather rest, signStatement b j (queued ids d) = stage b j.id (attestation j d) (attested gather rest d) := by
  have hserves : (queued ids d).gather.service = true := hservice
  simp only [signStatement, hserves, Bool.not_true, Bool.false_eq_true, if_false, withDraw, forDraw_queued, attestation]
  rw [forDraw_frame]
  exact ⟨_, _, rfl⟩

/-- A request that is alone is signed at once; one behind another takes its place. -/
theorem attestStep_of_alone {b : Nat} (hlive : liveRequests d = []) (hservice : d.gather.service = true) :
    ∃ gather rest, attestStep b j d = stage b j.id (attestation j d) (attested gather rest d) := by
  have hstep : attestStep b j d = signStatement b j (queued [j.id] d) := by
    simp [attestStep, hlive, queued]
  exact hstep ▸ signStatement_of_service [j.id] hservice
theorem attestStep_of_behind {b k : Nat} {rest : List Nat} (hlive : liveRequests d = k :: rest) (hk : k ≠ j.id) (hrest : j.id ∉ rest) :
    attestStep b j d = queued (k :: rest ++ [j.id]) d := by
  simp [attestStep, hlive, queued, hk, hk.symm, hrest]

theorem queueCode_eq_zero (h : (liveRequests d).length < 17) : queueCode d j = 0 := need_of_true (by simp [h]) _

theorem exec_attest (hjob : verbJob 0x0A20 c s.dev = some j) (hdecode : attestDecode j = 0) (hgate : gateCode s.dev j = 0)
    (hroom : (if allTenants j then 16384 else 8192) ≤ outRoom s.dev j) (hlive : (liveRequests s.dev).length < 17) :
    exec (.attest c) s = .next { s with dev := attestStep (lead c s.dev).bench j s.dev } :=
  exec_of_row (f := componentRow 0x0A20 _ _ _ _ c) rfl (componentRow_of_passed hjob hdecode hroom hgate (queueCode_eq_zero hlive))

end Sys2Proof.Machine
end

section
/-! SUPPORT. RESET_TENANT (20 R666), and O56. -/

namespace Sys2Proof.Machine

variable {c : CoreRef} {j : Job} {d e : Device} {s : State} {id t : Nat}

/-! ### What stands while a tenant's jobs are cancelled and its function is drained -/

/-- The fuses, the keys and the time. -/
def durable (d : Device) : Fuses × KeyStore × TimeBase := (d.fuses, d.keys, d.time)
theorem durable_of_jobless (h : jobless e = jobless d) : durable e = durable d := congrArg (fun x => (x.fuses, x.keys, x.time)) h

/-- The job of that identifier stands on a core. -/
def onCore (id : Nat) (d : Device) : Prop := ∃ k b c, jobOf id d = some k ∧ k.place = .core b c
theorem onCore_of_aside (h : aside id e = aside id d) (hd : onCore id d) : onCore id e := by
  obtain ⟨k, b, c, hk, hplace⟩ := hd
  have hanswer := answer_of_aside h
  rw [hk, Option.map_some] at hanswer
  obtain ⟨x, hx, heq⟩ := Option.map_eq_some_iff.mp hanswer
  exact ⟨x, b, c, hx, (congrArg Prod.fst heq).trans hplace⟩
theorem doEach_onCore {α : Type} (xs : List α) {f : α → Device → Device} (hf : ∀ v x, onCore id x → onCore id (f v x)) (hd : onCore id d) :
    onCore id (doEach xs f d) := List.foldlRecOn xs _ hd fun x hx v _ => hf v x hx

/-! ### Cancels (04 R160) -/

theorem cancelJob_jobless (i : Nat) (d : Device) : jobless (cancelJob i d).1 = jobless d := by
  unfold cancelJob
  split
  · rfl
  · split
    · dsimp only
      rw [answerJob_jobless, traceJob_jobless]
      exact ite_kept rfl
    · exact (traceJob_jobless _ _ _ _).trans (modJob_jobless _ _ _)
    · exact (traceJob_jobless _ _ _ _).trans (modJob_jobless _ _ _)
    · exact (traceJob_jobless _ _ _ _).trans (modJob_jobless _ _ _)
    · rfl
theorem cancelJob_aside_of_ne {i : Nat} (d : Device) (h : i ≠ id) : aside id (cancelJob i d).1 = aside id d := by
  unfold cancelJob
  split
  · rfl
  · split
    · dsimp only
      rw [answerJob_aside _ _ h, traceJob_aside]
      exact ite_aside rfl
    · exact (traceJob_aside _ _ _ _).trans (modJob_aside_of_ne (fun _ _ => rfl) h)
    · exact (traceJob_aside _ _ _ _).trans (modJob_aside_of_ne (fun _ _ => rfl) h)
    · exact (traceJob_aside _ _ _ _).trans (modJob_aside_of_ne (fun _ _ => rfl) h)
    · rfl
/-- A job on a core is only marked. -/
theorem cancelJob_aside_of_onCore (h : onCore id d) : aside id (cancelJob id d).1 = aside id d := by
  obtain ⟨k, b, c, hk, hplace⟩ := h
  simp only [cancelJob, hk, hplace]
  refine (traceJob_aside _ _ _ _).trans (modJob_aside_of_kept ?_)
  exact fun _ => ⟨rfl, rfl, rfl⟩
theorem cancelJob_onCore (i : Nat) (d : Device) (h : onCore id d) : onCore id (cancelJob i d).1 := by
  by_cases hi : i = id
  · subst hi
    exact onCore_of_aside (cancelJob_aside_of_onCore h) h
  · exact onCore_of_aside (cancelJob_aside_of_ne d hi) h

theorem cancelTenant_durable (t : Nat) (d : Device) : durable (cancelTenant t d) = durable d :=
  durable_of_jobless (doEach_kept fun i x => cancelJob_jobless i x)
theorem cancelTenant_onCore (t : Nat) (h : onCore id d) : onCore id (cancelTenant t d) := doEach_onCore _ cancelJob_onCore h

/-! ### The drain of a function (12 R445) -/

theorem find?_filter_of_find? {α : Type} {p q : α → Bool} {xs : List α} {x : α} (hx : xs.find? q = some x) (hp : p x = true) :
    (xs.filter p).find? q = some x := by
  obtain ⟨hq, as, bs, rfl, has⟩ := List.find?_eq_some_iff_append.mp hx
  refine List.find?_eq_some_iff_append.mpr ⟨hq, as.filter p, bs.filter p, by simp [hp], fun a ha => has a (List.mem_of_mem_filter ha)⟩

theorem drainJob_id (d : Device) (j : Job) : (drainJob d j).id = j.id := by
  unfold drainJob
  dsimp only
  split <;> [rfl; (split <;> rfl); rfl; rfl; rfl]
theorem drainJob_place (d : Device) (j : Job) : (drainJob d j).place = j.place := by
  unfold drainJob
  dsimp only
  split <;> [rfl; (split <;> rfl); rfl; rfl; rfl]

/-- A drain removes the ready jobs of the function and marks its others. -/
theorem onCore_of_drained (f : Nat) (h : onCore id d) : onCore id { d with gaffer := { d.gaffer with
    jobs := (d.gaffer.jobs.filter (fun j => !(jobOfFn f j && j.place == .ready))).map (fun j => if jobOfFn f j then drainJob d j else j) } } := by
  obtain ⟨k, b, c, hk, hplace⟩ := h
  have hid : ∀ x : Job, (if jobOfFn f x then drainJob d x else x).id = x.id := fun x => by split <;> [exact drainJob_id d x; rfl]
  refine ⟨if jobOfFn f k then drainJob d k else k, b, c, ?_, ?_⟩
  · rw [jobOf, List.find?_map]
    simp only [Function.comp_def, hid]
    rw [find?_filter_of_find? hk (by simp [hplace]), Option.map_some]
  · split
    · exact (drainJob_place d k).trans hplace
    · exact hplace

theorem startDrain_durable (reset : Bool) (f : Nat) (d : Device) : durable (startDrain reset f d) = durable d := by
  unfold startDrain
  dsimp only
  have hdropped : ∀ (j : Job) (x : Device), jobless (if j.place = .ready then dropState j.id x else x) = jobless x := fun _ x =>
    ite_kept (dropState_jobless _ x)
  have htraced : ∀ (j : Job) (x : Device), jobless (advancePtr j.stream (if cancelled j then traceJob 0x03 j 0x0602 x else x)) = jobless x :=
    fun _ x => (advancePtr_jobless _ _).trans (ite_kept (traceJob_jobless _ _ _ x))
  exact (durable_of_jobless (doEach_kept htraced)).trans (durable_of_jobless (doEach_kept hdropped) :)
theorem startDrain_onCore (reset : Bool) (f : Nat) (h : onCore id d) : onCore id (startDrain reset f d) := by
  unfold startDrain
  refine doEach_onCore _ (fun j x hx => onCore_of_aside ?_ hx) (onCore_of_drained f (doEach_onCore _ (fun j x hx => onCore_of_aside ?_ hx) h))
  · rw [advancePtr_aside]
    exact ite_aside (traceJob_aside _ _ _ x)
  · exact ite_aside (dropState_aside _ x)

/-! ### The steps of the reset (20 R666) -/

theorem drainFunction_durable (t : Nat) (d : Device) : durable (drainFunction t d) = durable d := ite_kept (startDrain_durable false t d)
theorem drainFunction_onCore (t : Nat) (h : onCore id d) : onCore id (drainFunction t d) := by
  unfold drainFunction
  split
  · exact startDrain_onCore false t h
  · exact h

/-- A session of the tenant that was in use or in its handshake is so no more. -/
theorem closeTenantSession_state {x : Session} (h : (closeTenantSession t x).tenant = t) : (closeTenantSession t x).state ≠ .established ∧
    (closeTenantSession t x).state ≠ .rekeying ∧ (closeTenantSession t x).state ≠ .handshake := by
  unfold closeTenantSession at h ⊢
  split
  · next hother => exact absurd (by rwa [if_pos hother] at h) hother
  · split
    all_goals simp_all

/-- The device once the tenant's jobs are cancelled and, as the job asks, its function is drained and its sessions are closed. -/
def tenantEnded (t : Nat) (how : Byte) (d : Device) : Device :=
  let d := cancelTenant t d
  let d := if how.getLsbD 1 then drainFunction t d else d
  if how.getLsbD 0 then closeTenant t d else d

theorem tenantEnded_durable (t : Nat) (how : Byte) (d : Device) : durable (tenantEnded t how d) = durable d := by
  have hclosed : ∀ x, durable (closeTenant t x) = durable x := fun _ => rfl
  exact (ite_kept (hclosed _)).trans ((ite_kept (drainFunction_durable t _)).trans (cancelTenant_durable t d))
theorem tenantEnded_onCore (t : Nat) (how : Byte) (h : onCore id d) : onCore id (tenantEnded t how d) := by
  have hdrained : onCore id (if how.getLsbD 1 then drainFunction t (cancelTenant t d) else cancelTenant t d) := by
    split
    · exact drainFunction_onCore t (cancelTenant_onCore t h)
    · exact cancelTenant_onCore t h
  unfold tenantEnded
  dsimp only
  split <;> exact hdrained
theorem tenantEnded_sessions (t : Nat) {how : Byte} (d : Device) (h : how.getLsbD 0 = true) : ∀ p ∈ (tenantEnded t how d).net.sessions,
    p.2.tenant = t → p.2.state ≠ .established ∧ p.2.state ≠ .rekeying ∧ p.2.state ≠ .handshake := by
  simp only [tenantEnded, h, if_true]
  intro p hp htenant
  obtain ⟨q, -, rfl⟩ := List.mem_map.mp hp
  exact closeTenantSession_state htenant

theorem resetSteps_eq (b : Nat) (j : Job) (d : Device) : resetSteps b j d = stageResult j.id {} (clearTenantFault (num j.params 0 1)
    (forgetTenant (num j.params 0 1) (tenantEnded (num j.params 0 1) (parByte j 1) d))) := rfl

theorem tenantOf_clearTenantFault (t : Nat) (d : Device) : tenantOf t (clearTenantFault t d) =
    { tenantOf t d with faultState := 0, reenteredCount := 0, lastCode := 0 } := tabGetD_tabSet_self _ _ _ _

theorem exec_resetTenant (hjob : verbJob 0x0A40 c s.dev = some j) (hcode : verbCode { plainVerb with decode := resetDecode } s.dev j = 0) :
    exec (.resetTenant c) s = .next { s with dev := resetSteps (lead c s.dev).bench j s.dev } := by
  refine exec_of_row (f := fun d => doWith (verbJob 0x0A40 c d) (runReset (lead c d)) d) rfl ?_
  simp only [hjob, doWith, runReset, hcode, ne_eq, not_true_eq_false, if_false]

theorem resetTenant_completes (hjob : verbJob 0x0A40 c s.dev = some j) (hcode : verbCode { plainVerb with decode := resetDecode } s.dev j = 0) :
    let t := num j.params 0 1
    Completes (.resetTenant c) s (fun d => (∃ k, jobOf j.id d = some k ∧ k.staged = some {}) ∧
      (∀ x ∈ d.custody.sessions, x.tenant ≠ t) ∧ (tenantOf t d).faultState = 0 ∧ (tenantOf t d).lastCode = 0 ∧
      ((parByte j 1).getLsbD 0 = true → ∀ p ∈ d.net.sessions, p.2.tenant = t → p.2.state ≠ .established ∧ p.2.state ≠ .rekeying ∧
        p.2.state ≠ .handshake) ∧
      d.fuses = s.dev.fuses ∧ d.keys = { s.dev.keys with ports := d.keys.ports } ∧ d.time = s.dev.time) := by
  intro t
  have hexec := exec_resetTenant hjob hcode
  rw [resetSteps_eq] at hexec
  obtain ⟨hfound, hplace⟩ := jobOn_eq_some (verbJob_eq_some_iff.mp hjob).1
  obtain ⟨k, -, -, hk, -⟩ := tenantEnded_onCore t (parByte j 1) ⟨j, _, _, hfound, hplace⟩
  have hfaults := tenantOf_clearTenantFault t (forgetTenant t (tenantEnded t (parByte j 1) s.dev))
  have hlasting := tenantEnded_durable t (parByte j 1) s.dev
  simp only [durable, Prod.mk.injEq] at hlasting
  obtain ⟨hfuses, hkeys, htime⟩ := hlasting
  refine ⟨_, hexec, ⟨_, jobOf_modJob_self (f := fun k => { k with staged := some {} }) ?_ hk, rfl⟩, fun x hx => ?_,
    congrArg Tenant.faultState hfaults, congrArg Tenant.lastCode hfaults, tenantEnded_sessions t s.dev,
    hfuses, congrArg (fun k => { k with ports := (tenantEnded t (parByte j 1) s.dev).keys.ports }) hkeys, htime⟩
  · exact fun _ _ => rfl
  · exact of_decide_eq_true (List.mem_filter.mp hx).2

/-- Settles O56: each verb by what its row stages under its conditions. -/
theorem partitionVerbsTakeEffect : Obligations.PartitionVerbsTakeEffect := by
  refine ⟨?_, fun j template count d => rfl, ?_, ?_, fun c j s => resetTenant_completes⟩
  · intro c j s hjob hgate hchecks hhead hmiddle htail htemplate hcount
    obtain ⟨d, hexec, hstaged⟩ := componentSessionBegin_completes hjob hgate hchecks hhead hmiddle htail htemplate hcount
    exact ⟨d, hexec, hstaged.1, frame_of_stagedOnly hstaged⟩
  · intro c reply j x m s hjob hgate hhead htail hside hroom hsession hport hstatus hservice henrolled hnew first second hsigned hopens
    obtain ⟨gather, out, hexchange⟩ := exchangeAdd_of_signed (b := (lead c s.dev).bench) hsession hport hstatus hservice henrolled hnew hsigned hopens
    obtain ⟨d, hexec, hstaged, -, hframe⟩ := componentAdd_completes hjob hgate hhead htail hside hroom hexchange
    exact ⟨d, hexec, congrArg (·.draws) hframe, hstaged, congrArg (·.custody.sessions) hframe, congrArg (·.keys) hframe, congrArg (·.fuses) hframe⟩
  · intro c j s hjob hdecode hgate hroom hservice
    refine ⟨fun hlive => ?_, fun k rest hlive hk hrest hlength => ?_⟩
    · obtain ⟨gather, rest, hstep⟩ := attestStep_of_alone (b := (lead c s.dev).bench) (j := j) hlive hservice
      have hexec := exec_attest hjob hdecode hgate hroom (by simp [hlive])
      rw [hstep] at hexec
      have hstaged := stagedOnly_stage (d := attested gather rest s.dev) (lead c s.dev).bench (attestation j s.dev) rfl (jobOf_of_verbJob hjob :)
      refine ⟨_, hexec, ?_⟩
      generalize stage (lead c s.dev).bench j.id (attestation j s.dev) (attested gather rest s.dev) = d at hstaged
      have hframe := frame_of_stagedOnly hstaged
      refine ⟨congrArg (·.draws) hframe, ⟨_, hstaged.1, rfl, rfl⟩, ?_⟩
      rw [hframe]
      rfl
    · rw [exec_attest hjob hdecode hgate hroom (by simp [hlive]; omega), attestStep_of_behind hlive hk hrest]
      rfl

end Sys2Proof.Machine
end

section
/-! SUPPORT. The entry of a function and its queues under the updates of the host region (12). -/

namespace Sys2Proof.Machine

/-! ### Tables -/

theorem tabMod_congr {α : Type} {k : Nat} {m n : α → α} {t : Tab α} (h : ∀ v, tabGet k t = some v → m v = n v) : tabMod k m t = tabMod k n t := by
  induction t with
  | nil => rfl
  | cons p t ih =>
    obtain ⟨i, v⟩ := p
    simp only [tabMod]
    split
    · next hi => rw [h v (by rw [tabGet, if_pos hi])]
    · next hi => rw [ih fun w hw => h w (by rw [tabGet, if_neg hi, hw])]

/-! ### A function's entry -/

variable {f g q : Nat} {m n : Fn → Fn} {d e : Device}

theorem modFn_modFn (f : Nat) (m n : Fn → Fn) (d : Device) : modFn f m (modFn f n d) = modFn f (fun x => m (n x)) d :=
  congrArg (fun t => { d with host := { d.host with fns := t } }) (tabMod_tabMod f n m d.host.fns)
/-- Two updates of a function are one where they agree on its entry. -/
theorem modFn_congr (h : m (fnOf f d) = n (fnOf f d)) : modFn f m d = modFn f n d := by
  refine congrArg (fun t => { d with host := { d.host with fns := t } }) (tabMod_congr fun v hv => ?_)
  rwa [fnOf, tabGetD, hv] at h
theorem fnExists_modFn (f g : Nat) (m : Fn → Fn) (d : Device) : fnExists g (modFn f m d).host = fnExists g d.host := by
  have hlisted : (tabGet g (tabMod f m d.host.fns)).isSome = (tabGet g d.host.fns).isSome := by
    rw [tabGet_tabMod]
    split <;> simp
  exact congrArg (· && (g == 0 || decide (g ≤ d.host.numVfs))) hlisted
theorem fnExists_of_fnUp (up : fnUp f d = true) : fnExists f d.host = true := ((fnUp_iff f d).mp up).2
/-- What an update keeps of an entry is kept of every entry. -/
theorem fnOf_modFn_kept {β : Type} {view : Fn → β} (hm : ∀ x, view (m x) = view x) (f g : Nat) (d : Device) :
    view (fnOf g (modFn f m d)) = view (fnOf g d) := by
  by_cases h : g = f
  · subst h
    simp only [fnOf, modFn, tabGetD, tabGet_tabMod, if_true]
    cases tabGet g d.host.fns with
    | none => rfl
    | some x => exact hm x
  · rw [fnOf_modFn_of_ne m d h]

/-! ### A queue -/

theorem queueOf_modQueue_self (h : fnExists f d.host = true) (q : Nat) (m : Queue → Queue) :
    queueOf f q (modQueue f q m d) = m (queueOf f q d) := by
  rw [queueOf, modQueue, fnOf_modFn_self _ h]
  exact tabGetD_tabSet_self _ _ _ _
theorem queueOf_modFn {m : Fn → Fn} (hm : ∀ x, (m x).queues = x.queues) (f g q : Nat) (d : Device) :
    queueOf g q (modFn f m d) = queueOf g q d :=
  congrArg (tabGetD q ({} : Queue)) (fnOf_modFn_kept (view := Fn.queues) hm f g d)
/-- What an update of a queue keeps is kept of every queue. -/
theorem queueOf_modQueue_kept {β : Type} {view : Queue → β} {m : Queue → Queue} (hm : ∀ x, view (m x) = view x) (f q g p : Nat) (d : Device) :
    view (queueOf g p (modQueue f q m d)) = view (queueOf g p d) := by
  refine fnOf_modFn_kept (view := fun x => view (tabGetD p ({} : Queue) x.queues)) (fun x => ?_) f g d
  dsimp only
  rw [tabGetD_tabSet]
  split
  · next hp => subst hp; exact hm _
  · rfl
/-- A queue's update by the value that it gives. -/
theorem modQueue_congr {m n : Queue → Queue} (h : m (queueOf f q d) = n (queueOf f q d)) : modQueue f q m d = modQueue f q n d :=
  modFn_congr (congrArg (fun x => { fnOf f d with queues := tabSet q x (fnOf f d).queues }) h)

/-! ### What a vector and a fault leave alone -/

/-- The device without the host region, the events and what has left the part. -/
def hostless (d : Device) : Device := { d with host := {}, events := {}, out := [] }
theorem frame_of_hostless (h : hostless e = hostless d) : e = { d with host := e.host, events := e.events, out := e.out } :=
  congrArg (fun x => { x with host := e.host, events := e.events, out := e.out }) h

theorem fireVector_host (f v : Nat) (d : Device) : fireVector f v d = { d with host := (fireVector f v d).host, out := (fireVector f v d).out } := by
  unfold fireVector
  split <;> rfl
theorem fireVector_of_unmasked {v : Nat} (h : msixMasked f v d = false) : fireVector f v d = { d with out := d.out ++ [.msix f v] } := by
  rw [fireVector, h]
  rfl
/-- A vector changes at most a pending bit of an entry. -/
theorem fnOf_fireVector_kept {β : Type} {view : Fn → β} (hview : ∀ (x : Fn) b, view { x with msixPending := b } = view x) (f v g : Nat) (d : Device) :
    view (fnOf g (fireVector f v d)) = view (fnOf g d) := by
  unfold fireVector
  split
  · exact fnOf_modFn_kept (fun x => hview x _) f g d
  · rfl
theorem queueOf_fireVector (f v g q : Nat) (d : Device) : queueOf g q (fireVector f v d) = queueOf g q d :=
  congrArg (tabGetD q ({} : Queue)) (fnOf_fireVector_kept (view := Fn.queues) (fun _ _ => rfl) f v g d)
theorem fireVector_hostless (f v : Nat) (d : Device) : hostless (fireVector f v d) = hostless d := by
  unfold fireVector
  split <;> rfl
theorem denied_hostless (f purpose write addr) (d : Device) : hostless (denied f purpose write addr d) = hostless d :=
  (fireVector_hostless _ _ _).trans rfl
theorem queueFault_hostless (f q cause) (d : Device) : hostless (queueFault f q cause d) = hostless d := (fireVector_hostless _ _ _).trans rfl

/-- A faulted queue carries its cause, and its function the flag of a queue error (12 R427, R457). -/
theorem queueOf_queueFault (h : fnExists f d.host = true) (q cause : Nat) :
    queueOf f q (queueFault f q cause d) = { queueOf f q d with error := true, cause := BitVec.ofNat 3 cause } := by
  rw [queueFault, queueOf_fireVector]
  exact (queueOf_modFn (m := fun x => { x with queueError := true }) (fun _ => rfl) f f q _).trans (queueOf_modQueue_self h q _)
theorem queueFault_queueError (h : fnExists f d.host = true) (q cause : Nat) : (fnOf f (queueFault f q cause d)).queueError = true := by
  rw [queueFault, fnOf_fireVector_kept (view := Fn.queueError) fun _ _ => rfl]
  exact congrArg Fn.queueError (fnOf_modFn_self (fun x => { x with queueError := true }) (d := modQueue f q _ d) (by rwa [modQueue, fnExists_modFn]))

end Sys2Proof.Machine
end

section
/-! SUPPORT. The access control unit: who may reach what, and how it is written (12 R443, R449, R450, R452), and O21, O22. -/

namespace Sys2Proof.Machine

variable {f r : Nat} {v : Word} {s : State} {d : Device}

/-! ### Who may reach what (12 R450, R452) -/

/-- Outside the PF's default map, a request is allowed when some region contains its first byte and each that does grants it. -/
theorem acuAllows_iff {addr : Nat} {write : Bool} {h : HostRegion} (hmap : ¬ (f = 0 ∧ h.pfDefault = true)) :
    acuAllows f addr write h = true ↔ (∃ p ∈ (tabGetD f ({} : Fn) h.fns).regions, inRegion addr p.2 = true) ∧
      ∀ p ∈ (tabGetD f ({} : Fn) h.fns).regions, inRegion addr p.2 = true → (if write then p.2.write else p.2.read) = true := by
  have hdefault : (decide (f = 0) && h.pfDefault) = false := by simpa using hmap
  have hnonempty : ∀ xs : List (Nat × AcuRegion), (!xs.isEmpty) = true ↔ ∃ p, p ∈ xs := fun xs => by
    simp [List.eq_nil_iff_forall_not_mem]
  simp only [acuAllows, hdefault, Bool.false_eq_true, if_false, Bool.and_eq_true, List.isEmpty_map, List.all_map, hnonempty, List.all_eq_true,
    List.mem_filter, and_imp, Function.comp]

/-- Settles O22: the unit's verdict is the two halves of R450. -/
theorem accessNeedsEveryRegion : Obligations.AccessNeedsEveryRegion := fun _ _ _ _ => acuAllows_iff

/-! ### Region words (12 R449, R458) -/

theorem fnOf_setFn_self (f : Nat) (m : Fn → Fn) (d : Device) : fnOf f (setFn f m d) = m (fnOf f d) := tabGetD_tabSet_self _ _ _ _
theorem fnOf_setFn_of_ne {g : Nat} (m : Fn → Fn) (d : Device) (h : g ≠ f) : fnOf g (setFn f m d) = fnOf g d :=
  (tabGetD_tabSet _ _ _ _ _).trans (if_neg h.symm)

/-- The base that words 0 and 1 of a region write: 0 its bits 31 to 12, 1 its upper half. -/
theorem setRegionWord_base (x : AcuRegion) (v : Word) :
    (setRegionWord 0 v x).base.extractLsb' 32 32 = x.base.extractLsb' 32 32 ∧ (setRegionWord 0 v x).base.extractLsb' 12 20 = v.extractLsb' 12 20 ∧
    (setRegionWord 0 v x).base.extractLsb' 0 12 = 0 ∧ (setRegionWord 1 v x).base.extractLsb' 32 32 = v ∧
    (setRegionWord 1 v x).base.extractLsb' 0 32 = x.base.extractLsb' 0 32 := by
  refine ⟨?_, ?_, ?_, ?_, ?_⟩ <;>
  · ext i hi
    simp [setRegionWord, BitVec.getElem_extractLsb']
    grind

/-- One word of one region of one function is written, whichever they are. -/
theorem acuRegionWrite_completes (word : Nat) (up : fnUp 0 s.dev = true) : Completes (.acuRegionWrite f r word v) s (fun d =>
    (∀ k, tabGetD k ({} : AcuRegion) (fnOf f d).regions = if r = k then setRegionWord word v (tabGetD r {} (fnOf f s.dev).regions)
      else tabGetD k {} (fnOf f s.dev).regions) ∧
    (∀ g, g ≠ f → fnOf g d = fnOf g s.dev) ∧ d = { s.dev with host := d.host }) := by
  refine ⟨_, next_doIf up, fun k => ?_, fun g hg => fnOf_setFn_of_ne _ _ hg, rfl⟩
  rw [writeRegion, fnOf_setFn_self]
  exact tabGetD_tabSet _ _ _ _ _

theorem exec_pfDefaultClear (up : fnUp 0 s.dev = true) :
    exec .pfDefaultClear s = .next { s with dev := { s.dev with host := { s.dev.host with pfDefault := false } } } := next_doIf up

/-! ### The ring consumer (12 R443) -/

theorem exec_pringConsWrite (c : BitVec 12) (up : fnUp f s.dev = true) : exec (.pringConsWrite f c) s =
    .next { s with dev := resumeSweeps (modFn f (fun x => { x with pringCons := c.toNat }) s.dev) } := next_doIf up
/-- Where no sweep waits, the consumer index alone moves. -/
theorem exec_pringConsWrite_of_none (c : BitVec 12) (up : fnUp f s.dev = true) (h : ∀ p ∈ s.dev.keys.sweeps, p.2.waiting = false) :
    exec (.pringConsWrite f c) s = .next { s with dev := modFn f (fun x => { x with pringCons := c.toNat }) s.dev } := by
  rw [exec_pringConsWrite c up, resumeSweeps, List.filter_eq_nil_iff.mpr]
  · rfl
  · exact fun p hp => by simp [h p hp]

/-- What a row that completes says holds of the device that it leaves. -/
theorem Completes.of_exec {c : Instr} {P : Device → Prop} (h : Completes c s P) (hexec : exec c s = .next { s with dev := d }) : P d := by
  obtain ⟨e, he, hP⟩ := h
  injection he.symm.trans hexec with hstate
  injection hstate with _ hdev
  exact hdev ▸ hP

/-- A part that serves its host, with those functions. -/
def serving (fns : Tab Fn) : Device :=
  { pins := { pwrOk := true, rstN := true, mainOn := true, perstN := true, pfAnswer := .normal }, start := { done := true }
    host := { fns, numVfs := 1 } }
/-- The rings of functions 0 and 1 are full, and a sweep of tenant 1 waits for the ring of function 1. -/
def ringsFull : Device :=
  let full : Fn := { mode := .enabled, pringEnable := true, pringLog2 := 4, pringProd := 15 }
  { serving [(0, full), (1, full)] with keys := { sweeps := [(0, { active := true, waiting := true, tenant := 1 })] } }

/-- Refutes O21 by its clause about PRING_CONS_WRITE, which says that no sweep waits afterwards, whichever function's index moved: in `ringsFull`
the driver of function 0 has read its ring, and the sweep of tenant 1 goes on waiting for function 1's, which is still full (12 R442, R443;
`exec_pringConsWrite`). The other clauses hold (`acuRegionWrite_completes` with `setRegionWord_base`, `exec_pfDefaultClear`), and so does this
one where no sweep waits (`exec_pringConsWrite_of_none`). -/
theorem not_accessControlIsWritten : ¬ Obligations.AccessControlIsWritten := by
  rintro ⟨-, -, hring⟩
  have up : fnUp 0 ringsFull = true := by decide
  obtain ⟨-, hnone, -, -⟩ := (hring 0 5 { dev := ringsFull } up).of_exec (exec_pringConsWrite 5 up)
  exact absurd (hnone (0, { active := true, waiting := true, tenant := 1 }) (by decide)) (by decide)

end Sys2Proof.Machine
end

section
/-! SUPPORT. The mailbox (12 R439 to R441), and O19. -/

namespace Sys2Proof.Machine

variable {f g : Nat} {m : Bytes} {s : State} {d : Device}

/-! ### A message is placed (12 R439) -/

theorem mbxSend_frame (f : Nat) (m : Bytes) (d : Device) : mbxSend f m d = { d with host := (mbxSend f m d).host, out := (mbxSend f m d).out } := by
  unfold mbxSend
  dsimp only
  split
  · rw [fireVector_host]
    rfl
  · split <;> rfl

/-- A function's entry with a message in its outbox. -/
def posted (m : Bytes) (x : Fn) : Fn := { x with mbxOut := fit 256 m, outValid := true, ctr := ctrInc 6 x.ctr }
/-- An update that keeps the MSI-X tables keeps the masks. -/
theorem msixMasked_modFn {n : Fn → Fn} (hn : ∀ x, (n x).msixTable = x.msixTable) (f g v : Nat) (d : Device) :
    msixMasked g v (modFn f n d) = msixMasked g v d :=
  congrArg (fun t => (tabGetD (4 * v + 3) (0 : Word) t).getLsbD 0) (fnOf_modFn_kept (view := Fn.msixTable) hn f g d)
/-- An empty outbox takes the message, and vector 16 fires. -/
theorem mbxSend_of_empty (hempty : (fnOf f d).outValid = false) (hmask : msixMasked f 16 d = false) :
    mbxSend f m d = { modFn f (posted m) d with out := d.out ++ [.msix f 16] } := by
  simp only [mbxSend, hempty, Bool.not_false, if_true, fnCount, modFn_modFn]
  exact fireVector_of_unmasked ((msixMasked_modFn (n := posted m) (fun _ => rfl) f f 16 d).trans hmask)

/-- A row that sends a message to the empty outbox of a function, after other updates of the entries. -/
theorem completes_mbxSend {c : Instr} (hexec : exec c s = .next { s with dev := mbxSend f m d }) (hexists : fnExists f d.host = true)
    (hempty : (fnOf f d).outValid = false) (hmask : msixMasked f 16 d = false) (hframe : d = { s.dev with host := d.host }) :
    Completes c s (fun e => fnOf f e = posted m (fnOf f d) ∧ e.out = s.dev.out ++ [.msix f 16] ∧
      e = { s.dev with host := e.host, out := e.out }) := by
  rw [mbxSend_of_empty hempty hmask] at hexec
  have hout : d.out = s.dev.out := congrArg (·.out) hframe
  exact ⟨_, hexec, fnOf_modFn_self _ hexists, congrArg (· ++ [Output.msix f 16]) hout,
    congrArg (fun x => { x with host := (modFn f (posted m) d).host, out := d.out ++ [Output.msix f 16] }) hframe⟩

/-! ### A message is taken (12 R439, R440) -/

/-- A function's entry once its post is taken. -/
def postTaken (m : Bytes) (x : Fn) : Fn := { x with mbxIn := fit 256 m, inPost := false, ctr := ctrInc 5 x.ctr }
theorem takePost_eq (f : Nat) (m : Bytes) (d : Device) : takePost f m d = modFn f (postTaken m) d := modFn_modFn _ _ _ _

theorem exec_mbxFunctionInfo (up : fnUp f s.dev = true) (htype : num m 0 1 = 0x01) :
    exec (.mbxFunctionInfo f m) s = .next { s with dev := functionInfo f m (modFn f (postTaken m) s.dev) } :=
  (next_doIf (by simp [up, htype])).trans (by rw [takePost_eq])
theorem exec_mbxRelayToManager (up : fnUp f s.dev = true) (htype : num m 0 1 = 0x02) (hf : f ≠ 0) :
    exec (.mbxRelayToManager f m) s = .next { s with dev := relayToManager f m (modFn f (postTaken m) s.dev) } :=
  (next_doIf (by simp [up, htype, hf])).trans (by rw [takePost_eq])
/-- A relay of the manager to a VF that exists and is Enabled. -/
theorem exec_mbxRelayToVf (up : fnUp 0 s.dev = true) (htype : num m 0 1 = 0x03) (hf : f ≠ 0) (hpeer : num m 6 2 = f)
    (hexists : fnExists f s.dev.host = true) (hmode : (fnOf f s.dev).mode = .enabled) : exec (.mbxRelayToVf m) s =
      .next { s with dev := mbxSend f (message 0x83 (field m 2 2) f (payloadOf m)) (modFn 0 (postTaken m) s.dev) } := by
  refine (next_doIf (by simp [up, htype])).trans ?_
  rw [takePost_eq, relayToVf, hpeer, fnOf_modFn_of_ne _ _ hf, fnExists_modFn, if_pos ⟨hf, hexists, hmode⟩]

/-! ### The outbox is cleared (12 R439) -/

theorem exec_mbxOutValidClear (up : fnUp f s.dev = true) (hvalid : (fnOf f s.dev).outValid = true) :
    exec (.mbxOutValidClear f) s = .next { s with dev := clearOutValid f s.dev } := next_doIf (by simp [up, hvalid])
theorem clearOutValid_of_none (hexists : fnExists f d.host = true) (hheld : (fnOf f d).mbxHeld = []) :
    clearOutValid f d = modFn f (fun x => { x with outValid := false }) d := by
  simp only [clearOutValid, fnOf_modFn_self _ hexists, hheld]
/-- The next message held takes the place of the one that was read. -/
theorem clearOutValid_of_held {t : List Bytes} (hexists : fnExists f d.host = true) (hheld : (fnOf f d).mbxHeld = m :: t) :
    clearOutValid f d = mbxSend f m (modFn f (fun x => { x with outValid := false, mbxHeld := t }) d) := by
  simp only [clearOutValid, fnOf_modFn_self _ hexists, hheld, modFn_modFn]
/-- Whether or not its vector is masked, an empty outbox takes the message. -/
theorem fnOf_mbxSend_of_empty {β : Type} {view : Fn → β} (hview : ∀ (x : Fn) b, view { x with msixPending := b } = view x)
    (hexists : fnExists f d.host = true) (hempty : (fnOf f d).outValid = false) : view (fnOf f (mbxSend f m d)) = view (posted m (fnOf f d)) := by
  simp only [mbxSend, hempty, Bool.not_false, if_true, fnCount, modFn_modFn]
  rw [fnOf_fireVector_kept hview, fnOf_modFn_self _ hexists]
  rfl

/-- Settles O19, type by type, and by whether a message is held when the outbox is cleared (log entry 23). -/
theorem mailboxMessagesAreAnswered : Obligations.MailboxMessagesAreAnswered := by
  refine ⟨fun f m s up htype hempty hmask => ?_, fun f m s up htype hf hmanager hempty hmask => ?_,
    fun m s up htype hf hexists hmode hempty hmask => ?_, fun f m s up htype => ?_, fun f s up hvalid hheld => ?_, fun f m t s up hvalid hheld => ?_⟩
  · have hentry := fnOf_modFn_self (postTaken m) (fnExists_of_fnUp up)
    obtain ⟨d, hexec, hfn, hout, hframe⟩ := completes_mbxSend (exec_mbxFunctionInfo up htype) ((fnExists_modFn _ _ _ _).trans (fnExists_of_fnUp up))
      ((congrArg Fn.outValid hentry).trans hempty) ((msixMasked_modFn (by exact fun _ => rfl) _ _ _ _).trans hmask) rfl
    rw [hentry] at hfn
    exact ⟨d, hexec, congrArg Fn.outValid hfn, congrArg Fn.mbxIn hfn, congrArg Fn.inPost hfn, congrArg Fn.mbxOut hfn, hout, hframe⟩
  · have hentry := fnOf_modFn_of_ne (postTaken m) s.dev hf.symm
    obtain ⟨d, hexec, hfn, hout, hframe⟩ := completes_mbxSend (exec_mbxRelayToManager up htype hf)
      ((fnExists_modFn _ _ _ _).trans (by simp [fnExists, hmanager])) ((congrArg Fn.outValid hentry).trans hempty)
      ((msixMasked_modFn (by exact fun _ => rfl) _ _ _ _).trans hmask) rfl
    exact ⟨d, hexec, congrArg Fn.outValid hfn, congrArg Fn.mbxOut hfn, hout, hframe⟩
  · have hentry := fnOf_modFn_of_ne (postTaken m) s.dev hf
    obtain ⟨d, hexec, hfn, hout, hframe⟩ := completes_mbxSend (exec_mbxRelayToVf up htype hf rfl hexists hmode)
      ((fnExists_modFn _ _ _ _).trans hexists) ((congrArg Fn.outValid hentry).trans hempty)
      ((msixMasked_modFn (by exact fun _ => rfl) _ _ _ _).trans hmask) rfl
    exact ⟨d, hexec, congrArg Fn.outValid hfn, congrArg Fn.mbxOut hfn, hout, hframe⟩
  · exact next_doIf (by simp [up, htype])
  · rw [exec_mbxOutValidClear up hvalid, clearOutValid_of_none (fnExists_of_fnUp up) hheld]
  · have hexists := fnExists_of_fnUp up
    refine ⟨_, exec_mbxOutValidClear up hvalid, ?_⟩
    rw [clearOutValid_of_held hexists hheld]
    have hentry := fnOf_modFn_self (fun x => { x with outValid := false, mbxHeld := t }) hexists
    have hsent := fun {β : Type} (view : Fn → β) hview => fnOf_mbxSend_of_empty (m := m) (view := view) hview
      ((fnExists_modFn _ _ _ _).trans hexists) (congrArg Fn.outValid hentry)
    exact ⟨hsent Fn.outValid fun _ _ => rfl, hsent Fn.mbxOut fun _ _ => rfl, (hsent Fn.mbxHeld fun _ _ => rfl).trans (congrArg Fn.mbxHeld hentry),
      mbxSend_frame _ _ _⟩

end Sys2Proof.Machine
end

section
/-! SUPPORT. Doorbells, interrupts and the configuration of a queue (12 R426, R427, R431, R437, R438, R457), and O17. -/

namespace Sys2Proof.Machine

variable {f q : Nat} {s : State} {d : Device}

/-! ### Doorbells (12 R427, R431) -/

theorem doorbell_of_dropped {value : Nat} (act : Queue → Queue) (h : takesDoorbells (fnOf f d) = false ∨ (queueOf f q d).enable = false) :
    doorbell f q value act d = fnCount f 2 d := by
  refine if_pos ?_
  rcases h with h | h <;> simp [h]

section
variable (htakes : takesDoorbells (fnOf f d) = true) (henable : (queueOf f q d).enable = true) (hserves : (queueOf f q d).error = false)
include htakes henable hserves
theorem doorbell_of_lt {value : Nat} (act : Queue → Queue) (hvalue : value < 2 ^ (queueOf f q d).log2Depth) :
    doorbell f q value act d = modQueue f q act d := by
  simp [doorbell, htakes, henable, hserves, depthOf, Nat.not_le.mpr hvalue]
theorem doorbell_of_ge {value : Nat} (act : Queue → Queue) (hvalue : 2 ^ (queueOf f q d).log2Depth ≤ value) :
    doorbell f q value act d = queueFault f q 1 d := by
  simp [doorbell, htakes, henable, hserves, depthOf, hvalue]
end

theorem exec_sqTailDoorbell (v : BitVec 12) (up : fnUp f s.dev = true) : exec (.sqTailDoorbell f q v) s =
    .next { s with dev := doorbell f q v.toNat (ringTail v.toNat s.dev.time.ticks) s.dev } := next_doIf up
theorem exec_cqHeadDoorbell (v : BitVec 12) (up : fnUp f s.dev = true) : exec (.cqHeadDoorbell f q v) s =
    .next { s with dev := doorbell f q v.toNat (ringHead v.toNat) s.dev } := next_doIf up

/-! ### Interrupts (12 R437, R438) -/

/-- A queue from which a firing has gone: the count and the timer restart. -/
def signalled (x : Queue) : Queue := { x with unsignalled := 0, firstUnsignalled := none }
theorem msixMasked_modQueue (m : Queue → Queue) (f q g v : Nat) (d : Device) : msixMasked g v (modQueue f q m d) = msixMasked g v d :=
  msixMasked_modFn (by exact fun _ => rfl) f g v d

theorem exec_coalesceTimerExpiry (up : fnUp f s.dev = true) (hdue : coalesceDue f q s.dev = true) :
    exec (.coalesceTimerExpiry f q) s = .next { s with dev := fireDue f q s.dev } := next_doIf (by simp [up, hdue])
theorem fireDue_of_enabled (hon : (queueOf f q d).intEnable = true) (hmask : msixMasked f q d = false) :
    fireDue f q d = { modQueue f q signalled d with out := d.out ++ [.msix f q] } := by
  simp only [fireDue, hon, if_true]
  exact fireVector_of_unmasked ((msixMasked_modQueue signalled f q f q d).trans hmask)
theorem fireDue_of_disabled (hoff : (queueOf f q d).intEnable = false) :
    fireDue f q d = modQueue f q (fun x => { signalled x with heldFiring := true }) d := by
  simp only [fireDue, hoff, Bool.false_eq_true, if_false]
  rfl

/-- int_enable is bit 0 of HST_Q_CFG, so its setting is in what the register reads back (00 R8). -/
def interruptsOn (x : Queue) : Queue := { x with cfg := x.cfg ||| 1, intEnable := true, heldFiring := false }
theorem exec_intEnableSet (up : fnUp f s.dev = true) : exec (.intEnableSet f q) s = .next { s with dev := setIntEnable f q s.dev } := next_doIf up
theorem setIntEnable_of_held (hheld : (queueOf f q d).heldFiring = true) (hmask : msixMasked f q d = false) :
    setIntEnable f q d = { modQueue f q (fun x => signalled (interruptsOn x)) d with out := d.out ++ [.msix f q] } := by
  simp only [setIntEnable, hheld, if_true]
  rw [modQueue_congr (n := fun x => signalled (interruptsOn x)) (by simp [hheld, signalled, interruptsOn])]
  exact fireVector_of_unmasked ((msixMasked_modQueue _ f q f q d).trans hmask)
theorem setIntEnable_of_none (hheld : (queueOf f q d).heldFiring = false) : setIntEnable f q d = modQueue f q interruptsOn d := by
  simp only [setIntEnable, hheld, Bool.false_eq_true, if_false]
  exact modQueue_congr (by simp [hheld, interruptsOn])

/-! ### Configuration (12 R426, R457) -/

/-- A queue as a write of HST_Q_CFG without int_enable leaves it before it settles. -/
def configured (v : Word) (x : Queue) : Queue :=
  { x with cfg := v &&& 0x8FFFFF01, enable := v.getLsbD 31 && !x.stopping
           log2Depth := if x.enable || x.stopping then x.log2Depth else (v.extractLsb' 24 4).toNat
           coalesceCount := (v.extractLsb' 16 8).toNat, coalesceUs := (v.extractLsb' 8 8).toNat
           intEnable := false, stopping := x.stopping || (x.enable && !v.getLsbD 31) }
theorem exec_queueEnableWrite (v : Word) (up : fnUp f s.dev = true) :
    exec (.queueEnableWrite f q v) s = .next { s with dev := writeQueueCfg f q v s.dev } := next_doIf up

section
variable {v : Word} (hexists : fnExists f d.host = true) (hint : v.getLsbD 0 = false)
include hint
/-- A write that keeps the depth in its range: the fields are taken, and a queue that stops and is empty returns to reset. -/
theorem writeQueueCfg_of_depth (h : v.getLsbD 31 = false ∨ 4 ≤ (v.extractLsb' 24 4).toNat ∧ (v.extractLsb' 24 4).toNat ≤ 12) :
    writeQueueCfg f q v d = settleQueue f q (modQueue f q (configured v) d) := by
  have hvalid : (v.getLsbD 31 && !(queueOf f q d).enable && !(queueOf f q d).stopping &&
      (decide ((v.extractLsb' 24 4).toNat < 4) || decide (12 < (v.extractLsb' 24 4).toNat))) = false := by
    rcases h with h | ⟨hlow, hhigh⟩
    · rw [h, Bool.false_and, Bool.false_and, Bool.false_and]
    · rw [decide_eq_false (Nat.not_lt.mpr hlow), decide_eq_false (Nat.not_lt.mpr hhigh), Bool.or_false, Bool.and_false]
  simp only [writeQueueCfg, hint, Bool.false_and, hvalid, Bool.false_eq_true, if_false]
  exact congrArg (settleQueue f q) (modQueue_congr (by simp [configured]))
include hexists
/-- An enabling write within the range. -/
theorem queueOf_writeQueueCfg_of_enabled (hstopping : (queueOf f q d).stopping = false) (hoff : (queueOf f q d).enable = false)
    (hon : v.getLsbD 31 = true) (hlow : 4 ≤ (v.extractLsb' 24 4).toNat) (hhigh : (v.extractLsb' 24 4).toNat ≤ 12) :
    queueOf f q (writeQueueCfg f q v d) = { queueOf f q d with
      cfg := v &&& 0x8FFFFF01, enable := true, log2Depth := (v.extractLsb' 24 4).toNat, coalesceCount := (v.extractLsb' 16 8).toNat
      coalesceUs := (v.extractLsb' 8 8).toNat, intEnable := false } := by
  rw [writeQueueCfg_of_depth hint (.inr ⟨hlow, hhigh⟩), settleQueue, queueOf_modQueue_self (by rwa [modQueue, fnExists_modFn]),
    queueOf_modQueue_self hexists]
  simp [configured, hstopping, hoff, hon]
/-- A write that disables an empty queue returns it to reset. -/
theorem queueOf_writeQueueCfg_of_disabled (hon : (queueOf f q d).enable = true) (hoff : v.getLsbD 31 = false)
    (hempty : (queueOf f q d).outstanding = []) : queueOf f q (writeQueueCfg f q v d) = {} := by
  rw [writeQueueCfg_of_depth hint (.inl hoff), settleQueue, queueOf_modQueue_self (by rwa [modQueue, fnExists_modFn]),
    queueOf_modQueue_self hexists]
  simp only [configured, hon, hoff, hempty, Bool.not_false, Bool.and_self, Bool.or_true, List.isEmpty_nil, if_true]
end

/-- A part whose function 0 has enabled its queue 0. -/
def queueServes : Device := serving [(0, { mode := .enabled, queues := [(0, { enable := true, log2Depth := 4 })] })]

/-- Refutes O17 by its clauses about INT_ENABLE_SET and QUEUE_ENABLE_WRITE, whose equations for the queue keep HST_Q_CFG as it was. The register
reads back as written (00 R8): int_enable is its bit 0 (`interruptsOn`), and a write of it is kept in it (`configured`). Here INT_ENABLE_SET sets
bit 0 of the register of `queueServes`. Of these rows the queue is otherwise as stated (`setIntEnable_of_held`, `setIntEnable_of_none`,
`queueOf_writeQueueCfg_of_enabled`), and the other clauses hold (`doorbell_of_lt`, `doorbell_of_ge`, `doorbell_of_dropped`, `fireDue_of_enabled`,
`fireDue_of_disabled`, `queueOf_writeQueueCfg_of_disabled`, and `queueOf_queueFault` for the causes 1 and 4). -/
theorem not_queuesRingAndSignal : ¬ Obligations.QueuesRingAndSignal := by
  rintro ⟨-, hinterrupts⟩
  have up : fnUp 0 queueServes = true := by decide
  obtain ⟨-, -, -, hset, -⟩ := hinterrupts 0 0 { dev := queueServes } up
  obtain ⟨hqueue, -⟩ := (hset (by decide) (by decide)).of_exec (exec_intEnableSet up)
  exact absurd (congrArg Queue.cfg hqueue) (by decide)

end Sys2Proof.Machine
end

section
/-! SUPPORT. The states of a function and its drain (12 R420, R421, R444 to R447), and O20. -/

namespace Sys2Proof.Machine

variable {f g n : Nat} {s : State} {d e : Device}

/-! ### What a message leaves of an entry -/

/-- A function's entry without its mailbox, its counters and its pending bits. -/
def unposted (x : Fn) : Fn := { x with ctr := {}, mbxIn := [], inPost := false, mbxOut := [], outValid := false, mbxHeld := [], msixPending := 0 }
theorem mbxSend_unposted (f : Nat) (m : Bytes) (g : Nat) (d : Device) : unposted (fnOf g (mbxSend f m d)) = unposted (fnOf g d) := by
  have kept : ∀ {n : Fn → Fn} (_ : ∀ x, unposted (n x) = unposted x) (e : Device), unposted (fnOf g (modFn f n e)) = unposted (fnOf g e) :=
    fun hn e => fnOf_modFn_kept hn f g e
  unfold mbxSend
  dsimp only
  split
  · rw [fnOf_fireVector_kept (view := unposted) fun _ _ => rfl, fnCount, kept, kept] <;> exact fun _ => rfl
  · split
    · exact kept (by exact fun _ => rfl) d
    · rw [fnCount, kept, kept] <;> exact fun _ => rfl

/-! ### Enabling (12 R444, R447) -/

/-- An update that does not change an entry leaves it. -/
theorem fnOf_modFn_of_fixed {m : Fn → Fn} (h : m (fnOf f d) = fnOf f d) : fnOf f (modFn f m d) = fnOf f d := by
  simp only [fnOf, modFn, tabGetD, tabGet_tabMod, if_true] at h ⊢
  cases hx : tabGet f d.host.fns with
  | none => rfl
  | some x =>
    rw [hx] at h
    exact h

theorem startNotice_unposted (hexists : fnExists f d.host = true) :
    unposted (fnOf f (startNotice f d)) = unposted { fnOf f d with noticed := true } := by
  unfold startNotice
  split
  · next h => rw [← h]
  · rw [mbxSend_unposted, fnOf_modFn_self _ hexists]
theorem startNotice_frame (f : Nat) (d : Device) : startNotice f d = { d with host := (startNotice f d).host, out := (startNotice f d).out } := by
  unfold startNotice
  split
  · rfl
  · exact mbxSend_frame _ _ _

/-- A function that becomes Enabled and is not to be quiesced is so, with its start notice sent. -/
theorem becomeEnabled_unposted (hexists : fnExists f d.host = true) (hquiesce : (fnOf f d).quiesce = false) :
    unposted (fnOf f (becomeEnabled f d)) = unposted { fnOf f d with mode := .enabled, noticed := true } := by
  have hnotice := startNotice_unposted ((fnExists_modFn f f (fun x => { x with mode := .enabled }) d).trans hexists)
  rw [fnOf_modFn_self _ hexists] at hnotice
  rw [becomeEnabled, modFn_congr (n := fun x => { x with mode := .enabled }) (by simp [hquiesce]), settleQuiesce, fnOf_modFn_of_fixed]
  · exact hnotice
  · have hmode : (fnOf f (startNotice f (modFn f (fun x => { x with mode := .enabled }) d))).mode = .enabled := (congrArg Fn.mode hnotice :)
    rw [hmode]
    rfl
theorem becomeEnabled_frame (f : Nat) (d : Device) : becomeEnabled f d = { d with host := (becomeEnabled f d).host, out := (becomeEnabled f d).out } :=
  congrArg (fun x => { x with host := (becomeEnabled f d).host, out := (becomeEnabled f d).out })
    (startNotice_frame f (modFn f (fun x => { x with mode := if x.quiesce then .quiescing else .enabled }) d))

theorem exec_functionEnable (up : fnUp f s.dev = true) : exec (.functionEnable f) s = .next { s with dev := setEnable f s.dev } := next_doIf up
theorem setEnable_of_disabled (h : (fnOf f d).mode = .disabled) : setEnable f d = becomeEnabled f (modFn f (fun x => { x with enable := true }) d) := by
  simp only [setEnable, h]
theorem setEnable_of_draining (h : (fnOf f d).mode = .draining) : setEnable f d = modFn f (fun x => { x with enable := true, enableHeld := true }) d := by
  simp only [setEnable, h]

/-! ### Quiescing (12 R444) -/

theorem exec_quiesceSet (up : fnUp f s.dev = true) : exec (.quiesceSet f) s = .next { s with dev := setQuiesce f s.dev } := next_doIf up
theorem fnOf_setQuiesce_of_enabled (hexists : fnExists f d.host = true) (h : (fnOf f d).mode = .enabled) : fnOf f (setQuiesce f d) =
    { fnOf f d with quiesce := true, mode := if outstandingOf (fnOf f d) = 0 then .quiesced else .quiescing } := by
  rw [setQuiesce, settleQuiesce, modFn_modFn, fnOf_modFn_self _ hexists]
  have hcount : ∀ mode, outstandingOf { fnOf f d with quiesce := true, mode } = outstandingOf (fnOf f d) := fun _ => rfl
  by_cases hnone : outstandingOf (fnOf f d) = 0 <;> simp [h, hcount, hnone]
theorem exec_quiesceClear (up : fnUp f s.dev = true) : exec (.quiesceClear f) s = .next { s with dev := clearQuiesce f s.dev } := next_doIf up
theorem clearQuiesce_of_quiescing (h : (fnOf f d).mode = .quiescing ∨ (fnOf f d).mode = .quiesced) :
    clearQuiesce f d = modFn f (fun x => { x with quiesce := false, mode := .enabled }) d := modFn_congr (by rw [if_pos h])

/-! ### The start of a drain (12 R445) -/

/-- A function's entry at the start of a drain: its queues and its ring return to reset. -/
def draining (reset : Bool) (x : Fn) : Fn :=
  { x with mode := .draining, queues := [], pringBase := 0, pringEnable := false, pringLog2 := 0, pringProd := 0, pringCons := 0
           enable := x.enable && !reset, quiesce := x.quiesce && !reset, enableHeld := false }
/-- The jobs that a drain leaves: those of the function that wait are removed, its others are marked. -/
def drainedJobs (f : Nat) (d : Device) : List Job :=
  (d.gaffer.jobs.filter (fun j => !(jobOfFn f j && j.place == .ready))).map (fun j => if jobOfFn f j then drainJob d j else j)
/-- The jobs that wait lose their saved states. -/
def waitingDropped (f : Nat) (d : Device) : Device :=
  doEach (d.gaffer.jobs.filter (jobOfFn f)) (fun j d => if j.place = .ready then dropState j.id d else d) d
theorem startDrain_eq (reset : Bool) (f : Nat) (d : Device) : ∃ x, waitingDropped f (modFn f (draining reset) d) = x ∧ startDrain reset f d =
    doEach (d.gaffer.jobs.filter (jobOfFn f)) (fun j d => advancePtr j.stream (if cancelled j then traceJob 0x03 j 0x0602 d else d))
      { x with gaffer := { x.gaffer with jobs := drainedJobs f x } } := ⟨_, rfl, rfl⟩

/-- Each step of a drain on a job keeps a view that a saved state, a trace entry and a retire pointer are not part of. -/
theorem startDrain_kept {β : Type} {view : Device → β} (hdrop : ∀ i x, view (dropState i x) = view x)
    (hjobs : ∀ (x : Device) js, view { x with gaffer := { x.gaffer with jobs := js } } = view x) (htrace : ∀ j x, view (traceJob 0x03 j 0x0602 x) = view x)
    (hptr : ∀ st x, view (advancePtr st x) = view x) (reset : Bool) (f : Nat) (d : Device) :
    view (startDrain reset f d) = view (modFn f (draining reset) d) := by
  obtain ⟨x, hx, heq⟩ := startDrain_eq reset f d
  rw [heq, doEach_kept fun j x => (hptr _ _).trans (ite_kept (htrace j x)), hjobs, ← hx]
  exact doEach_kept fun _ x => ite_kept (hdrop _ x)

theorem dropState_flash (i : Nat) (d : Device) : (dropState i d).flash = d.flash := by
  unfold dropState
  split
  · rfl
  · exact doWith_kept (view := Device.flash) fun _ _ => rfl
theorem advancePtr_flash (st : Stream) (d : Device) : (advancePtr st d).flash = d.flash := by
  unfold advancePtr
  generalize (ticketOf st d - ptrOf st d).toNat = fuel
  induction fuel generalizing d with
  | zero => rfl
  | succ fuel ih => exact ite_kept (ih _)
theorem startDrain_jobless (reset : Bool) (f : Nat) (d : Device) : jobless (startDrain reset f d) = jobless (modFn f (draining reset) d) :=
  startDrain_kept dropState_jobless (fun _ _ => rfl) (fun _ _ => traceJob_jobless _ _ _ _) advancePtr_jobless reset f d
theorem startDrain_host (reset : Bool) (f : Nat) (d : Device) : (startDrain reset f d).host = (modFn f (draining reset) d).host :=
  (congrArg Device.host (startDrain_jobless reset f d) :)
theorem startDrain_frame (reset : Bool) (f : Nat) (d : Device) : startDrain reset f d = { d with
    host := (startDrain reset f d).host, gaffer := (startDrain reset f d).gaffer, benches := (startDrain reset f d).benches } := by
  have hflash : (startDrain reset f d).flash = d.flash :=
    startDrain_kept (view := Device.flash) dropState_flash (fun _ _ => rfl) (fun _ _ => rfl) advancePtr_flash reset f d
  rw [← hflash]
  exact congrArg (fun x => { x with host := (startDrain reset f d).host }) (frame_of_jobless (startDrain_jobless reset f d))

/-! ### The jobs of a drain (12 R445 steps 3 to 5) -/

/-- A job without its saved state. -/
def unsaved (j : Job) : Job := { j with savedBench := none, savedRows := [], savedLen := 0 }
theorem dropState_jobs_of_some {i : Nat} {j : Job} (h : jobOf i d = some j) :
    (dropState i d).gaffer.jobs = d.gaffer.jobs.map (fun x => if x.id = i then unsaved x else x) := by
  simp only [dropState, h]
  exact congrArg (List.map _) (doWith_kept (view := fun x => x.gaffer.jobs) (by exact fun _ _ => rfl))
/-- A saved state that is dropped changes no job of another identifier. -/
theorem dropState_filter {p : Job → Bool} {i : Nat} (hp : ∀ x, p (unsaved x) = p x) (h : ∀ x ∈ d.gaffer.jobs.filter p, x.id ≠ i) :
    (dropState i d).gaffer.jobs.filter p = d.gaffer.jobs.filter p := by
  cases hj : jobOf i d with
  | none => simp only [dropState, hj]
  | some j =>
    have hcomp : (p ∘ fun x => if x.id = i then unsaved x else x) = p := funext fun x => by
      simp only [Function.comp]
      split <;> simp [hp]
    rw [dropState_jobs_of_some hj, List.filter_map, hcomp]
    exact (List.map_congr_left fun x hx => if_neg (h x hx)).trans (List.map_id' _)
theorem waitingDropped_filter {p : Job → Bool} (hp : ∀ x, p (unsaved x) = p x)
    (h : ∀ x ∈ d.gaffer.jobs.filter p, ∀ j ∈ d.gaffer.jobs.filter (jobOfFn f), j.place = .ready → x.id ≠ j.id) :
    (waitingDropped f d).gaffer.jobs.filter p = d.gaffer.jobs.filter p := by
  unfold waitingDropped
  generalize d.gaffer.jobs.filter (jobOfFn f) = js at h
  induction js generalizing d with
  | nil => rfl
  | cons j js ih =>
    have hstep : (if j.place = .ready then dropState j.id d else d).gaffer.jobs.filter p = d.gaffer.jobs.filter p := by
      split
      · next hready => exact dropState_filter hp fun x hx => h x hx j List.mem_cons_self hready
      · rfl
    exact (ih fun x hx k hk => h x (hstep ▸ hx) k (List.mem_cons_of_mem _ hk)).trans hstep

theorem drainJob_congr (h : e.time = d.time) (j : Job) : drainJob e j = drainJob d j := by
  unfold drainJob
  rw [h]
/-- Where no two jobs carry one identifier, a drain removes the waiting jobs of its function and marks its others; no other job changes. -/
theorem startDrain_jobs (reset : Bool) (f : Nat) (hids : (d.gaffer.jobs.map (·.id)).Nodup) :
    (startDrain reset f d).gaffer.jobs = drainedJobs f d := by
  obtain ⟨x, hx, heq⟩ := startDrain_eq reset f d
  have hlast : (startDrain reset f d).gaffer.jobs = drainedJobs f x := by
    rw [heq]
    refine doEach_kept (view := fun x => x.gaffer.jobs) fun j y => (advanceGo_jobs _ _ _).trans ?_
    exact ite_kept (view := fun x => x.gaffer.jobs) (congrArg Gaffer.jobs (traceJob_gaffer 0x03 j 0x0602 y) :)
  have htime : x.time = d.time := by
    have hjobless : jobless (waitingDropped f (modFn f (draining reset) d)) = jobless (modFn f (draining reset) d) :=
      doEach_kept fun _ _ => ite_kept (dropState_jobless _ _)
    rw [← hx]
    exact (congrArg Device.time hjobless :)
  have hkept := waitingDropped_filter (f := f) (d := modFn f (draining reset) d) (p := fun j => !(jobOfFn f j && j.place == .ready))
    (by exact fun _ => rfl) fun x hx j hj hready hid => by
      obtain ⟨hj, hmine⟩ := List.mem_filter.mp hj
      obtain ⟨hx, hstays⟩ := List.mem_filter.mp hx
      rw [List.inj_on_of_nodup_map hids hx hj hid] at hstays
      simp [hmine, hready] at hstays
  rw [hlast, drainedJobs, ← hx, hkept, drainedJobs, hx, funext (drainJob_congr htime)]
  rfl

/-! ### Disabling, resets and the end of a drain (12 R421, R445, R446) -/

theorem exec_functionDisable (up : fnUp f s.dev = true) : exec (.functionDisable f) s = .next { s with dev := clearEnable f s.dev } := next_doIf up
theorem clearEnable_of_enabled (h : (fnOf f d).mode = .enabled) : clearEnable f d = startDrain false f (modFn f (fun x => { x with enable := false }) d) := by
  simp only [clearEnable, h]
theorem exec_functionLevelReset (up : fnUp f s.dev = true) (hf : f ≠ 0) :
    exec (.functionLevelReset f) s = .next { s with dev := startDrain true f s.dev } := (next_doIf up).trans (by rw [resetFunction, if_neg hf])
theorem fnOf_startDrain_self (reset : Bool) (hexists : fnExists f d.host = true) : fnOf f (startDrain reset f d) = draining reset (fnOf f d) :=
  (congrArg (fun h : HostRegion => tabGetD f ({} : Fn) h.fns) (startDrain_host reset f d)).trans (fnOf_modFn_self _ hexists)
theorem fnOf_startDrain_of_ne (reset : Bool) (d : Device) (h : g ≠ f) : fnOf g (startDrain reset f d) = fnOf g d :=
  (congrArg (fun h : HostRegion => tabGetD g ({} : Fn) h.fns) (startDrain_host reset f d)).trans (fnOf_modFn_of_ne _ _ h)

theorem exec_drainEnd (up : fnUp f s.dev = true) (hmode : (fnOf f s.dev).mode = .draining) (hdrained : drained f s.dev = true) :
    exec (.drainEnd f) s = .next { s with dev := endDrain f s.dev } := by
  have hup := ((fnUp_iff f s.dev).mp up).1
  simp only [hostUp, Bool.and_eq_true] at hup
  obtain ⟨⟨⟨⟨⟨hstarted, hreset⟩, -⟩, -⟩, -⟩, -⟩ := hup
  exact next_doIf (by simp [hstarted, hreset, hmode, hdrained])
/-- A function's entry once its drain has ended. -/
def drainOver (x : Fn) : Fn := { x with mode := .disabled, incarnation := nextIncarnation x.incarnation, enableHeld := false }
theorem endDrain_of_unheld (h : (fnOf f d).enableHeld = false) : endDrain f d = modFn f drainOver d := by
  simp only [endDrain, h, Bool.false_eq_true, if_false]
  rfl
/-- Where enable was set during the drain, the function is Enabled again and sends its notice. -/
theorem endDrain_of_held (h : (fnOf f d).enableHeld = true) : ∃ m, endDrain f d = mbxSend f m (becomeEnabled f (modFn f drainOver d)) := by
  simp only [endDrain, h, if_true]
  exact ⟨_, rfl⟩

/-! ### VF Enable (12 R420, R421) -/

/-- A VF is listed where it was not. -/
def enlist (f : Nat) (d : Device) : Device := if (tabGet f d.host.fns).isSome then d else setFn f (fun x => x) d
theorem enableVfs_eq (n : Nat) (d : Device) :
    enableVfs n d = doEach ((List.range n).map (· + 1)) enlist { d with host := { d.host with numVfs := n } } := rfl
theorem enlist_isSome (f g : Nat) (d : Device) : (tabGet g (enlist f d).host.fns).isSome = (decide (f = g) || (tabGet g d.host.fns).isSome) := by
  unfold enlist
  split
  · next h =>
    by_cases hfg : f = g
    · simp [← hfg, h]
    · simp [hfg]
  · rw [show (setFn f (fun x => x) d).host.fns = tabSet f (fnOf f d) d.host.fns from rfl, tabGet_tabSet]
    split <;> simp_all
theorem doEach_enlist_isSome {xs : List Nat} (h : g ∈ xs ∨ (tabGet g d.host.fns).isSome = true) :
    (tabGet g (doEach xs enlist d).host.fns).isSome = true := by
  induction xs generalizing d with
  | nil => exact h.resolve_left List.not_mem_nil
  | cons x xs ih =>
    refine ih (d := enlist x d) ?_
    rw [enlist_isSome]
    rcases h with h | h
    · rcases List.mem_cons.mp h with rfl | h
      · exact .inr (by simp)
      · exact .inl h
    · exact .inr (by simp [h])
/-- Of the device only the list of functions changes. -/
theorem doEach_enlist_frame (xs : List Nat) (d : Device) :
    doEach xs enlist d = { d with host := { d.host with fns := (doEach xs enlist d).host.fns } } := by
  have hkept : ∀ f x, (fun y : Device => { y with host := { y.host with fns := [] } }) (enlist f x) = { x with host := { x.host with fns := [] } } := by
    intro f x
    unfold enlist
    split <;> rfl
  exact congrArg (fun x : Device => { x with host := { x.host with fns := (doEach xs enlist d).host.fns } })
    (doEach_kept (view := fun y : Device => { y with host := { y.host with fns := [] } }) (xs := xs) (d := d) hkept)

theorem exec_vfEnableSet (up : fnUp 0 s.dev = true) (hnone : s.dev.host.numVfs = 0) (hlow : 1 ≤ n) (hhigh : n ≤ totalVfs s.dev) :
    exec (.vfEnableSet n) s = .next { s with dev := enableVfs n s.dev } := next_doIf (by simp [up, hnone, hlow, hhigh])
/-- VFs 1 to NumVFs exist. -/
theorem fnExists_enableVfs (hf : 1 ≤ f) (n : Nat) (d : Device) : fnExists f (enableVfs n d).host = true ↔ f ≤ n := by
  have hnum : (enableVfs n d).host.numVfs = n := by
    rw [enableVfs_eq, doEach_enlist_frame]
  simp only [fnExists, hnum, Bool.and_eq_true, Bool.or_eq_true, beq_iff_eq, decide_eq_true_eq]
  refine ⟨fun h => h.2.resolve_left (by omega), fun h => ⟨?_, .inr h⟩⟩
  rw [enableVfs_eq]
  exact doEach_enlist_isSome (.inl (List.mem_map.mpr ⟨f - 1, List.mem_range.mpr (by omega), by omega⟩))

theorem exec_vfEnableClear (up : fnUp 0 s.dev = true) : exec .vfEnableClear s =
    .next { s with dev := { drainVfs s.dev with host := { (drainVfs s.dev).host with numVfs := 0 } } } := next_doIf up
theorem drainVfs_frame (d : Device) : drainVfs d = { d with host := (drainVfs d).host, gaffer := (drainVfs d).gaffer, benches := (drainVfs d).benches } := by
  have hkept : ∀ f x, (fun y : Device => { y with host := {}, gaffer := {}, benches := [] }) (startDrain true f x) =
      { x with host := {}, gaffer := {}, benches := [] } := by
    intro f x
    dsimp only
    rw [startDrain_frame]
  exact congrArg (fun x => { x with host := (drainVfs d).host, gaffer := (drainVfs d).gaffer, benches := (drainVfs d).benches })
    (doEach_kept (view := fun y : Device => { y with host := {}, gaffer := {}, benches := [] }) (d := d) hkept)
/-- The PF is not among the functions drained. -/
theorem fnOf_drainVfs (d : Device) : fnOf 0 (drainVfs d) = fnOf 0 d := by
  refine List.foldlRecOn (motive := fun x => fnOf 0 x = fnOf 0 d) _ _ rfl fun x hx f hf => ?_
  obtain ⟨p, hp, rfl⟩ := List.mem_map.mp hf
  have hvf := (List.mem_filter.mp hp).2
  simp only [Bool.and_eq_true, decide_eq_true_eq] at hvf
  exact (fnOf_startDrain_of_ne true x (by omega)).trans hx

/-- Settles O20, state by state; the drain of a Disabled function by its level reset is log entry 22. -/
theorem functionsComeAndGo : Obligations.FunctionsComeAndGo := by
  refine ⟨fun f s up => ?_, fun n s up hnone hlow hhigh => ?_, fun s up => ?_⟩
  · intro x
    have hexists := fnExists_of_fnUp up
    refine ⟨fun hmode hquiesce => ?_, fun hmode => ?_, fun hmode hjobs => ?_, fun hmode => ?_, fun hmode => ?_, fun hf => ?_, fun hmode hdrained hheld => ?_,
      fun hmode hdrained hheld hquiesce => ?_⟩
    · have hentry := fnOf_modFn_self (fun x => { x with enable := true }) hexists
      have hfn := becomeEnabled_unposted ((fnExists_modFn f f (fun x => { x with enable := true }) s.dev).trans hexists)
        ((congrArg Fn.quiesce hentry).trans hquiesce)
      rw [hentry] at hfn
      refine ⟨_, (exec_functionEnable up).trans (by rw [setEnable_of_disabled hmode]), (congrArg Fn.mode hfn :), (congrArg Fn.enable hfn :),
        (congrArg Fn.noticed hfn :), becomeEnabled_frame _ _⟩
    · rw [exec_functionEnable up, setEnable_of_draining hmode]
    · refine ⟨_, (exec_functionDisable up).trans (by rw [clearEnable_of_enabled hmode]), ?_⟩
      have hfn := fnOf_startDrain_self false ((fnExists_modFn f f (fun x => { x with enable := false }) s.dev).trans hexists)
      rw [fnOf_modFn_self _ hexists] at hfn
      exact ⟨congrArg Fn.mode hfn, congrArg Fn.enable hfn, congrArg Fn.queues hfn, (congrArg Fn.incarnation hfn :),
        startDrain_jobs false f (d := modFn f _ s.dev) hjobs.1, startDrain_frame _ _ _⟩
    · have hfn := fnOf_setQuiesce_of_enabled hexists hmode
      exact ⟨_, exec_quiesceSet up, congrArg Fn.quiesce hfn, congrArg Fn.mode hfn, rfl⟩
    · rw [exec_quiesceClear up, clearQuiesce_of_quiescing hmode]
    · have hfn := fnOf_startDrain_self true hexists
      exact ⟨_, exec_functionLevelReset up hf, congrArg Fn.mode hfn, congrArg Fn.queues hfn, (congrArg Fn.enable hfn).trans (Bool.and_false _),
        (congrArg Fn.quiesce hfn).trans (Bool.and_false _), fun g hg => fnOf_startDrain_of_ne true s.dev hg, startDrain_frame _ _ _⟩
    · rw [exec_drainEnd up hmode hdrained, endDrain_of_unheld hheld]
      rfl
    · obtain ⟨m, hend⟩ := endDrain_of_held hheld
      have hentry := fnOf_modFn_self drainOver hexists
      have hfn := becomeEnabled_unposted ((fnExists_modFn f f drainOver s.dev).trans hexists) ((congrArg Fn.quiesce hentry).trans hquiesce)
      rw [hentry, ← mbxSend_unposted f m, ← hend] at hfn
      refine ⟨_, exec_drainEnd up hmode hdrained, (congrArg Fn.mode hfn :), (congrArg Fn.incarnation hfn :), ?_⟩
      rw [hend]
      let e := mbxSend f m (becomeEnabled f (modFn f drainOver s.dev))
      exact (mbxSend_frame _ _ _).trans (congrArg (fun x => { x with host := e.host, out := e.out }) (becomeEnabled_frame f (modFn f drainOver s.dev)))
  · refine ⟨_, exec_vfEnableSet up hnone hlow hhigh, ?_, fun f hf => fnExists_enableVfs hf n s.dev, ?_⟩
    · rw [enableVfs_eq, doEach_enlist_frame]
    · rw [enableVfs_eq, doEach_enlist_frame]
  · refine ⟨_, exec_vfEnableClear up, rfl, fun f hf => ?_, fnOf_drainVfs s.dev, ?_⟩
    · simp [fnExists, show f ≠ 0 by omega]
    · exact congrArg (fun x => { x with host := { (drainVfs s.dev).host with numVfs := 0 } }) (drainVfs_frame s.dev)

end Sys2Proof.Machine
end

section
/-! SUPPORT. The queues and the identifiers of jobs stay as they are while jobs end and are dispatched. -/

namespace Sys2Proof.Machine

variable {id : Nat} {d e : Device}

/-! ### What a dispatch leaves of the host's side -/

/-- The places and codes of the jobs of an identifier. -/
def answersOf (id : Nat) (js : List Job) : List (Place × Code) := (js.filter (fun j => j.id = id)).map (fun j => (j.place, j.code))
/-- Of the device the next identifier, the number of jobs, the queues, and the answers of an identifier. -/
def desk (id : Nat) (d : Device) : Nat × Nat × (Nat → Nat → Queue) × List (Place × Code) :=
  (d.gaffer.nextJob, d.gaffer.jobs.length, fun f q => queueOf f q d, answersOf id d.gaffer.jobs)

theorem nextJob_of_desk (h : desk id e = desk id d) : e.gaffer.nextJob = d.gaffer.nextJob := congrArg (·.1) h
theorem length_of_desk (h : desk id e = desk id d) : e.gaffer.jobs.length = d.gaffer.jobs.length := congrArg (·.2.1) h
theorem queueOf_of_desk (h : desk id e = desk id d) (f q : Nat) : queueOf f q e = queueOf f q d := congrArg (fun x => x.2.2.1 f q) h
theorem answersOf_of_desk (h : desk id e = desk id d) : answersOf id e.gaffer.jobs = answersOf id d.gaffer.jobs := congrArg (·.2.2.2) h

/-- The jobs are as many as before, and those of the identifier have the answers that they had. -/
theorem desk_congr (hnext : e.gaffer.nextJob = d.gaffer.nextJob) (hlength : e.gaffer.jobs.length = d.gaffer.jobs.length)
    (hhost : ∀ f q, queueOf f q e = queueOf f q d) (hanswers : answersOf id e.gaffer.jobs = answersOf id d.gaffer.jobs) : desk id e = desk id d := by
  simp only [desk, hnext, hlength, hhost, hanswers]
theorem desk_of_jobs (hnext : e.gaffer.nextJob = d.gaffer.nextJob) (hhost : e.host = d.host) (hjobs : e.gaffer.jobs = d.gaffer.jobs) :
    desk id e = desk id d :=
  desk_congr hnext (by rw [hjobs]) (fun f q => congrArg (fun h : HostRegion => tabGetD q ({} : Queue) (tabGetD f ({} : Fn) h.fns).queues) hhost) (by rw [hjobs])

/-- A job is changed that is another one, or keeps its place and its code. -/
theorem answersOf_map {k : Nat} {f : Job → Job} (js : List Job) (hid : ∀ j, j.id = k → (f j).id = k)
    (hkept : k = id → ∀ j, ((f j).place, (f j).code) = (j.place, j.code)) :
    answersOf id (js.map (fun j => if j.id = k then f j else j)) = answersOf id js := by
  induction js with
  | nil => rfl
  | cons j js ih =>
    unfold answersOf at ih ⊢
    by_cases hj : j.id = k
    · by_cases hk : k = id
      · have hone := hkept hk j
        subst hk
        simp [hj, hid j hj, hone, ih]
      · simp [hj, hid j hj, hk, ih]
    · rw [List.map_cons, if_neg hj]
      by_cases hjid : j.id = id <;> simp [hjid, ih]

theorem modJob_desk {k : Nat} {f : Job → Job} (hid : ∀ j, j.id = k → (f j).id = k)
    (hkept : k = id → ∀ j, ((f j).place, (f j).code) = (j.place, j.code)) (d : Device) : desk id (modJob k f d) = desk id d :=
  desk_congr rfl (List.length_map _) (fun _ _ => rfl) (answersOf_map d.gaffer.jobs hid hkept)
theorem desk_of_ungranted (h : ungranted e = ungranted d) : desk id e = desk id d := by
  have hanswers : ∀ x : Device, answersOf id (ungranted x).gaffer.jobs = answersOf id x.gaffer.jobs := fun x => by
    simp only [answersOf, ungranted, List.filter_map, List.map_map]
    rfl
  have hlength := congrArg (fun x => x.gaffer.jobs.length) h
  simp only [ungranted, List.length_map] at hlength
  refine desk_congr (congrArg (·.gaffer.nextJob) h :) hlength (fun f q => (congrArg (queueOf f q) h :)) ?_
  rw [← hanswers e, h, hanswers d]

/-! ### Grants and jobs end (04, 05) -/

theorem endGrant_desk (g park) (d : Device) : desk id (endGrant g park d) = desk id d := by
  refine (desk_of_ungranted (endGrant_ungranted g park d)).trans ?_
  rw [show freePort g (charge g.kind g.tenant (grantCharge g d) d) = charged g (grantCharge g d) d from rfl, charged_frame]
  rfl
theorem dropGrants_desk (job park) (d : Device) : desk id (dropGrants job park d) = desk id d := by
  have hpending : ∀ (x : Device) ps, desk id { x with shares := { x.shares with pending := ps } } = desk id x := fun _ _ => rfl
  rw [dropGrants, doEach_kept fun _ _ => desk_of_ungranted (arbitrate_ungranted _ _ _), hpending, doEach_kept fun _ _ => endGrant_desk _ _ _]
  rfl
theorem modUnit_desk (c f) (d : Device) : desk id (modUnit c f d) = desk id d := by
  rw [modUnit_frame]
  rfl
theorem freeJobCore_desk (j) (d : Device) : desk id (freeJobCore j d) = desk id d := by
  refine doWith_kept fun c x => ?_
  rw [freeCore, doWith_kept fun k y => modJob_desk (by exact fun _ h => h) (by exact fun _ _ => rfl) y, modUnit_desk]
theorem settleWork_desk (retired j) (d : Device) : desk id (settleWork retired j d) = desk id d := by
  unfold settleWork settleDraws
  split
  · exact ite_kept rfl
  · rfl
theorem traceJob_desk (kind j code) (d : Device) : desk id (traceJob kind j code d) = desk id d := by
  rw [traceJob_frame, traceJob_gaffer]
  rfl
theorem beforeDrop_desk (k j code) (d : Device) : desk id (beforeDrop k j code d) = desk id d := by
  have hlehr : ∀ b x, desk id (lehCount b 3 x) = desk id x := fun _ _ => rfl
  have hcore : ∀ c x, desk id (coreCount c 1 1 x) = desk id x := fun _ _ => rfl
  rw [beforeDrop, doWith_kept hlehr, doWith_kept hcore, traceJob_desk, settleWork_desk, freeJobCore_desk, dropGrants_desk]
theorem answerJob_desk {k : Nat} (code) (d : Device) (h : k ≠ id) : desk id (answerJob k code d) = desk id d := by
  cases hk : jobOf k d with
  | none => simp only [answerJob, hk]
  | some j =>
    have hjobless := answerJob_jobless k code d
    obtain ⟨f, hf, hjobs⟩ := answerJob_jobs (code := code) (Option.isSome_of_eq_some hk)
    refine desk_congr (congrArg (·.gaffer.nextJob) hjobless :) (by rw [hjobs, List.length_map]) (fun f q => (congrArg (queueOf f q) hjobless :)) ?_
    rw [hjobs]
    exact answersOf_map _ (fun j hj => (hf j).1.trans hj) fun hk => absurd hk h
theorem dropJob_desk {k : Nat} (code) (d : Device) (h : k ≠ id) : desk id (dropJob k code d) = desk id d := by
  cases hk : jobOf k d with
  | none => simp only [dropJob, hk]
  | some j => rw [dropJob_eq code hk, answerJob_desk code _ h, beforeDrop_desk]

/-! ### Dispatch (04 R135 to R139) -/

theorem expireJob_desk {k : Nat} (d : Device) (h : k ≠ id) : desk id (expireJob k d) = desk id d := by
  unfold expireJob
  split
  · rfl
  · rw [answerJob_desk _ _ h]
    exact traceJob_desk _ _ _ d
/-- A denied request is noted of its function, not of its queues. -/
theorem queueOf_denied (g purpose write addr f q) (d : Device) : queueOf f q (denied g purpose write addr d) = queueOf f q d := by
  rw [denied, queueOf_fireVector]
  refine (queueOf_modFn (m := fun x => { x with ctr := ctrInc 4 x.ctr }) (fun _ => rfl) _ _ _ _).trans
    ((queueOf_modFn (m := fun x => { x with acuFault := true }) (fun _ => rfl) _ _ _ _).trans ?_)
  dsimp only
  split <;> rfl
theorem denied_desk (g purpose write addr) (d : Device) : desk id (denied g purpose write addr d) = desk id d := by
  have hgaffer := gaffer_of_offwire (denied_offwire g purpose write addr d)
  exact desk_congr (by rw [hgaffer]) (by rw [hgaffer]) (fun f q => queueOf_denied g purpose write addr f q d) (by rw [hgaffer])
theorem decodeRead_desk (j) (d : Device) : desk id (decodeRead j d).2 = desk id d := by
  unfold decodeRead
  split
  · split
    · exact denied_desk _ _ _ _ d
    · rfl
  · rfl
/-- A dispatch writes the job that it grants over those of its identifier, and drops it when its input could not be read. -/
theorem dispatchJob_eq_of_desk (id : Nat) (c : CoreRef) (j : Job) (d : Device) : ∃ k e, k.id = j.id ∧ desk id e = desk id d ∧
    dispatchJob c j d = doIf (unread k) (dropJob k.id k.inputFault) (traceJob 0x01 k 0 (gafCount 1 (modJob k.id (fun _ => k) e))) := by
  have reset : ∀ (x : Prop) [Decidable x] (code : Code) (k : Job) (e : Device), desk id (if x then beginReset k e else (code, e)).2 = desk id e := by
    intro x _ code k e
    split
    · obtain ⟨ts, heq⟩ := beginReset_frame k e
      rw [heq]
      rfl
    · rfl
  unfold dispatchJob
  dsimp only
  refine ⟨_, _, ?_, ?_, rfl⟩
  · exact (apply_ite Job.id _ _ _).trans ((ite_self _).trans (decodeRead_id j d))
  · have counted : ∀ k n (x : Device), desk id (coreCount c k n x) = desk id x := fun _ _ _ => rfl
    refine (desk_of_jobs rfl rfl rfl).trans ((modUnit_desk _ _ _).trans ?_)
    rw [counted, reset, decodeRead_desk]
theorem dispatchJob_desk (c) {j : Job} (d : Device) (h : j.id ≠ id) : desk id (dispatchJob c j d) = desk id d := by
  have noted : ∀ x : Device, desk id (gafCount 1 x) = desk id x := fun _ => rfl
  obtain ⟨k, e, hk, he, heq⟩ := dispatchJob_eq_of_desk id c j d
  rw [← hk] at h
  rw [heq, doIf, ite_kept (dropJob_desk _ _ h), traceJob_desk, noted, modJob_desk (fun _ _ => rfl) (fun hid => absurd hid h), he]

/-- No job of the identifier is on the ready list. -/
def unready (id : Nat) (d : Device) : Prop := ∀ a ∈ answersOf id d.gaffer.jobs, a.1 ≠ .ready
theorem unready_of_desk (h : desk id e = desk id d) (hd : unready id d) : unready id e := by
  unfold unready
  rwa [answersOf_of_desk h]
theorem unready.ne_of_ready {j : Job} (h : unready id d) (hj : j ∈ readyJobs d) : j.id ≠ id := by
  obtain ⟨hmem, hready⟩ := List.mem_filter.mp hj
  intro hid
  exact h _ (List.mem_map_of_mem (List.mem_filter.mpr ⟨hmem, by simpa using hid⟩)) (of_decide_eq_true hready)

theorem expireHeads_desk (fuel) (h : unready id d) : desk id (expireHeads fuel d) = desk id d := by
  induction fuel generalizing d with
  | zero => rfl
  | succ fuel ih =>
    unfold expireHeads
    split
    · rfl
    · next j hj =>
      have hstep := expireJob_desk d (h.ne_of_ready (mem_of_leastBy hj))
      split
      · exact (ih (unready_of_desk hstep h)).trans hstep
      · rfl
theorem dispatchGo_desk (fuel) (h : unready id d) : desk id (dispatchGo fuel d) = desk id d := by
  induction fuel generalizing d with
  | zero => rfl
  | succ fuel ih =>
    unfold dispatchGo
    split
    · rfl
    · next c j hj =>
      have hstep := dispatchJob_desk c d (h.ne_of_ready (nextGrant_ready hj))
      exact (ih (unready_of_desk hstep h)).trans hstep
theorem dispatchAll_desk (h : unready id d) : desk id (dispatchAll d) = desk id d := by
  unfold dispatchAll
  split
  · have hheads := expireHeads_desk d.gaffer.jobs.length h
    exact (dispatchGo_desk _ (unready_of_desk hheads h)).trans hheads
  · rfl

/-! ### A job is squashed, and others are dispatched (12 R453, R454) -/

/-- An identifier that some job carries is found with an answer of the list. -/
theorem jobOf_of_answers {a : Place × Code} (hne : answersOf id d.gaffer.jobs ≠ []) (h : ∀ b ∈ answersOf id d.gaffer.jobs, b = a) :
    ∃ k, jobOf id d = some k ∧ (k.place, k.code) = a := by
  obtain ⟨j, hj⟩ := List.exists_mem_of_ne_nil _ (fun hnil => hne (by rw [answersOf, hnil]; rfl) : d.gaffer.jobs.filter (fun j => j.id = id) ≠ [])
  obtain ⟨hmem, hid⟩ := List.mem_filter.mp hj
  obtain ⟨k, hk⟩ := Option.isSome_iff_exists.mp ((List.find?_isSome (p := fun j : Job => decide (j.id = id))).mpr ⟨j, hmem, hid⟩)
  refine ⟨k, hk, h _ (List.mem_map_of_mem (f := fun j : Job => (j.place, j.code)) (List.mem_filter.mpr ⟨List.mem_of_find?_eq_some hk, ?_⟩))⟩
  exact List.find?_some (p := fun j : Job => decide (j.id = id)) hk
/-- Every job of the identifier has the answer. -/
theorem answersOf_dropJob {k : Nat} (code : Code) (hk : (jobOf k d).isSome = true) :
    answersOf k (dropJob k code d).gaffer.jobs ≠ [] ∧ ∀ a ∈ answersOf k (dropJob k code d).gaffer.jobs, a = (.answered, code) := by
  obtain ⟨j, hj⟩ := Option.isSome_iff_exists.mp hk
  obtain ⟨x, hx⟩ := Option.isSome_iff_exists.mp ((isSome_of_aside (beforeDrop_aside (id := k) k j code d)).trans hk)
  rw [dropJob_eq code hj]
  obtain ⟨f, hf, hjobs⟩ := answerJob_jobs (code := code) (Option.isSome_of_eq_some hx)
  rw [hjobs]
  refine ⟨?_, fun a ha => ?_⟩
  · have hmem : f x ∈ ((beforeDrop k j code d).gaffer.jobs.map fun y => if y.id = k then f y else y).filter (fun y => y.id = k) :=
      List.mem_filter.mpr ⟨List.mem_map.mpr ⟨x, List.mem_of_find?_eq_some hx, if_pos (jobOf_id hx)⟩, by simp [(hf x).1, jobOf_id hx]⟩
    exact List.ne_nil_of_mem (List.mem_map_of_mem hmem)
  · obtain ⟨y, hy, rfl⟩ := List.mem_map.mp ha
    obtain ⟨hmem, hid⟩ := List.mem_filter.mp hy
    obtain ⟨z, -, rfl⟩ := List.mem_map.mp hmem
    by_cases hz : z.id = k
    · rw [if_pos hz, (hf z).2.1, (hf z).2.2]
    · rw [if_neg hz] at hid
      exact absurd (of_decide_eq_true hid) hz
/-- A squashed job keeps its answer while others are dispatched. -/
theorem dispatchAll_dropJob {k : Nat} (code : Code) (hk : (jobOf k d).isSome = true) :
    ∃ j, jobOf k (dispatchAll (dropJob k code d)) = some j ∧ j.place = .answered ∧ j.code = code := by
  obtain ⟨hne, hanswers⟩ := answersOf_dropJob code hk
  have hdesk : desk k (dispatchAll (dropJob k code d)) = desk k (dropJob k code d) :=
    dispatchAll_desk fun a ha => by simp [hanswers a ha]
  rw [← answersOf_of_desk hdesk] at hne hanswers
  obtain ⟨j, hj, heq⟩ := jobOf_of_answers hne hanswers
  simp only [Prod.mk.injEq] at heq
  exact ⟨j, hj, heq⟩

/-! ### A job enters (04 R129 to R134) -/

/-- A job as it stands on the ready list. -/
def numbered (j : Job) (d : Device) : Job :=
  { j with id := d.gaffer.nextJob, ticket := ticketOf j.stream d, arrival := d.gaffer.arrivals, place := .ready, opDeadline := j.deadline }
/-- The device with a job on its ready list. -/
def enlisted (j : Job) (d : Device) : Device := { d with gaffer := { d.gaffer with
  nextJob := d.gaffer.nextJob + 1, arrivals := d.gaffer.arrivals + 1, jobs := d.gaffer.jobs ++ [numbered j d]
  tickets := assocSet j.stream (ticketOf j.stream d + 1) d.gaffer.tickets } }
/-- An entered job expires at once or is offered to the cores. -/
theorem enterJob_eq (j : Job) (token : Bool) (cause : BitVec 3) (d : Device) : enterJob j token cause d =
    let (k, d) := ownStream j d
    if reached k.deadline d then expireJob d.gaffer.nextJob (enlisted k d)
    else dispatchAll (wake cause 2 (gafCount 0 (if token then takeToken k.tenant (enlisted k d) else enlisted k d))) := rfl
theorem ownStream_desk (j : Job) (d : Device) : desk id (ownStream j d).2 = desk id d := by
  unfold ownStream
  split <;> rfl

theorem wake_desk (cause counter) (d : Device) : desk id (wake cause counter d) = desk id d := by
  unfold wake
  split
  · rfl
  · split <;> rfl
  · rfl
theorem takeToken_desk (t) (d : Device) : desk id (takeToken t d) = desk id d := by
  unfold takeToken
  split <;> rfl
/-- An entry takes one identifier and adds one job, and the dispatch that follows changes neither, nor any queue. -/
theorem enterJob_desk (j : Job) (token : Bool) (cause : BitVec 3) (d : Device) :
    (enterJob j token cause d).gaffer.nextJob = d.gaffer.nextJob + 1 ∧
    (enterJob j token cause d).gaffer.jobs.length = d.gaffer.jobs.length + 1 ∧
    ∀ f q, queueOf f q (enterJob j token cause d) = queueOf f q d := by
  have hstream := fun i => ownStream_desk (id := i) j d
  rw [enterJob_eq]
  generalize ownStream j d = o at hstream
  obtain ⟨k, x⟩ := o
  dsimp only at hstream ⊢
  obtain ⟨id, hfresh⟩ := Infinite.exists_notMem_finset ((enlisted k x).gaffer.jobs.map (·.id)).toFinset
  have habsent : ∀ y ∈ (enlisted k x).gaffer.jobs, y.id ≠ id := fun y hy hid =>
    hfresh (List.mem_toFinset.mpr (hid ▸ List.mem_map_of_mem hy))
  have hunready : unready id (enlisted k x) := by
    have hnone : (enlisted k x).gaffer.jobs.filter (fun y => y.id = id) = [] :=
      List.filter_eq_nil_iff.mpr fun y hy => by simpa using habsent y hy
    simp [unready, answersOf, hnone]
  have hdesk : desk id (if reached k.deadline x then expireJob x.gaffer.nextJob (enlisted k x)
      else dispatchAll (wake cause 2 (gafCount 0 (if token then takeToken k.tenant (enlisted k x) else enlisted k x)))) = desk id (enlisted k x) := by
    split
    · exact expireJob_desk _ (habsent (numbered k x) (by simp [enlisted]))
    · have hbefore : desk id (wake cause 2 (gafCount 0 (if token then takeToken k.tenant (enlisted k x) else enlisted k x))) = desk id (enlisted k x) :=
        (wake_desk _ _ _).trans (ite_kept (view := desk id) (takeToken_desk k.tenant (enlisted k x)))
      rw [dispatchAll_desk (unready_of_desk hbefore hunready), hbefore]
  refine ⟨(nextJob_of_desk hdesk).trans ?_, (length_of_desk hdesk).trans ?_, fun f q => (queueOf_of_desk hdesk f q).trans ?_⟩
  · exact congrArg (· + 1) (nextJob_of_desk (hstream id))
  · exact (List.length_append ..).trans (congrArg (· + 1) (length_of_desk (hstream id)))
  · exact queueOf_of_desk (hstream id) f q

end Sys2Proof.Machine
end

section
/-! SUPPORT. Descriptors are fetched and commands cancelled (12 R427, R431 to R436, R454; 04 R160), and O18. -/

namespace Sys2Proof.Machine

variable {f q g id : Nat} {s : State} {d e : Device} {desc list input : Bytes} {cid : BitVec 16}

/-! ### A completion is the host region's affair (12 R432, R433) -/

theorem gaffer_of_hostless (h : hostless e = hostless d) : e.gaffer = d.gaffer := congrArg (·.gaffer) h
theorem fireDue_hostless (f q) (d : Device) : hostless (fireDue f q d) = hostless d := by
  unfold fireDue
  dsimp only
  split
  · exact (fireVector_hostless _ _ _).trans rfl
  · rfl
theorem settle_hostless (f q) (d : Device) : hostless (settleQuiesce f (settleQueue f q d)) = hostless d := rfl
theorem complete_hostless (f q cid inc a outAddr) (d : Device) : hostless (complete f q cid inc a outAddr d) = hostless d := by
  have lost : ∀ (c : Bool) (m : Queue → Queue) (x : Device),
      hostless (if c then fnCount f 9 (modQueue f q m x) else modQueue f q m x) = hostless x := by
    intro c m x
    split <;> rfl
  have written : ∀ (bad : Option Nat) (xs : List Output),
      hostless { doWith bad (fun addr => denied f 3 true addr) d with out := xs } = hostless d :=
    fun bad _ => doWith_kept (view := hostless) fun _ _ => denied_hostless _ _ _ _ _
  unfold complete
  dsimp only
  refine both_kept ((settle_hostless f q _).trans (lost _ _ d)) (both_kept ?_ (both_kept ?_ ?_))
  · rw [settle_hostless, lost, written]
  · rw [settle_hostless, ite_kept (fireDue_hostless _ _ _)]
    exact written _ []
  · rw [settle_hostless, lost, queueFault_hostless, denied_hostless, written]
theorem completeAtFetch_hostless (f q cid code) (d : Device) : hostless (completeAtFetch f q cid code d) = hostless d := complete_hostless _ _ _ _ _ _ d
theorem refuseAtFetch_hostless (f q cid code) (d : Device) : hostless (refuseAtFetch f q cid code d) = hostless d := completeAtFetch_hostless _ _ _ _ _
theorem noteList_hostless (f q desc) (d : Device) : hostless (noteList f q desc d) = hostless d := ite_kept (denied_hostless _ _ _ _ d)

/-! ### A descriptor is taken (12 R427, R431, R436) -/

/-- The device once the descriptor at the head of a queue is taken. -/
def headPassed (f q : Nat) (d : Device) : Device := fnCount f 0 (modQueue f q passHead (noteTurn f q d))
/-- The address of that descriptor. -/
def headAddr (f q : Nat) (d : Device) : Nat := (queueOf f q d).sqBase.toNat + descriptorSize d * (queueOf f q d).sqHead
theorem takeDescriptor_of_open {k : Nat → Device → Device} (h : acuAllows f (headAddr f q d) false d.host = true) :
    takeDescriptor f q k d = k (doorbellTick (queueOf f q d) d.time.ticks) (headPassed f q d) := if_pos h

theorem queueOf_noteTurn (f q g p : Nat) (d : Device) : queueOf g p (noteTurn f q d) = queueOf g p d :=
  queueOf_modFn (m := fun x => { x with nextQueue := (q + 1) % 16 }) (fun _ => rfl) f g p _
theorem queueOf_headPassed (hexists : fnExists f d.host = true) (q : Nat) : queueOf f q (headPassed f q d) = passHead (queueOf f q d) := by
  have hturned : fnExists f (noteTurn f q d).host = true := (fnExists_modFn f f _ _).trans hexists
  rw [headPassed, fnCount, queueOf_modFn (by exact fun _ => rfl), queueOf_modQueue_self hturned, queueOf_noteTurn]
theorem outstanding_headPassed (f q g p : Nat) (d : Device) : (queueOf g p (headPassed f q d)).outstanding = (queueOf g p d).outstanding := by
  rw [headPassed, fnCount, queueOf_modFn (by exact fun _ => rfl),
    queueOf_modQueue_kept (view := Queue.outstanding) (m := passHead) fun _ => rfl, queueOf_noteTurn]
/-- A fetch uses one descriptor of its function's turn, or the first of a new one. -/
theorem turnLeft_headPassed_of_turn (q : Nat) (hturn : d.host.turn = f) (hleft : d.host.turnLeft ≠ 0) :
    (headPassed f q d).host.turnLeft + 1 = d.host.turnLeft := by
  have hused : (headPassed f q d).host.turnLeft = (if f = d.host.turn ∧ d.host.turnLeft ≠ 0 then d.host.turnLeft else 8) - 1 := rfl
  rw [hused, if_pos ⟨hturn.symm, hleft⟩, Nat.sub_one_add_one hleft]
theorem turnLeft_headPassed_of_other (q : Nat) (h : d.host.turn ≠ f ∨ d.host.turnLeft = 0) : (headPassed f q d).host.turnLeft = 7 := by
  have hused : (headPassed f q d).host.turnLeft = (if f = d.host.turn ∧ d.host.turnLeft ≠ 0 then d.host.turnLeft else 8) - 1 := rfl
  rw [hused, if_neg fun hturn => h.elim (fun hne => hne hturn.1.symm) hturn.2]

/-- What the unit allows rests on the regions and the default map. -/
theorem acuAllows_congr {h k : HostRegion} (hregions : (tabGetD f ({} : Fn) h.fns).regions = (tabGetD f ({} : Fn) k.fns).regions)
    (hdefault : h.pfDefault = k.pfDefault) (addr : Nat) (write : Bool) : acuAllows f addr write h = acuAllows f addr write k := by
  simp only [acuAllows, hregions, hdefault]
theorem regions_headPassed (f q g : Nat) (d : Device) : (fnOf g (headPassed f q d)).regions = (fnOf g d).regions := by
  have kept : ∀ {m : Fn → Fn} (_ : ∀ x, (m x).regions = x.regions) (e : Device), (fnOf g (modFn f m e)).regions = (fnOf g e).regions :=
    fun hm e => fnOf_modFn_kept hm f g e
  rw [headPassed, fnCount, modQueue, kept, kept]
  · exact kept (m := fun x => { x with nextQueue := (q + 1) % 16 }) (fun _ => rfl) _
  · exact fun _ => rfl
  · exact fun _ => rfl
theorem acuAllows_headPassed (f q g addr : Nat) (write : Bool) (d : Device) :
    acuAllows g addr write (headPassed f q d).host = acuAllows g addr write d.host := acuAllows_congr (regions_headPassed f q g d) rfl _ _
theorem fetchCheck_headPassed (f q : Nat) (desc list : Bytes) (d : Device) : fetchCheck f q desc list (headPassed f q d) = fetchCheck f q desc list d := by
  have hizvi : izvi (headPassed f q d) = izvi d := rfl
  simp only [fetchCheck, areaAllowed, outstanding_headPassed, acuAllows_headPassed, hizvi]
  rfl

/-! ### DESCRIPTOR_FETCH (12 R428 to R433) -/

theorem fetchTurn_of_next (hfetch : fetchable f q d = true) (hnext : nextFetch d = some (f, q)) : fetchTurn f q d = true := by
  simp [fetchTurn, hfetch, hnext]
theorem fnExists_of_fetchable (h : fetchable f q d = true) : fnExists f d.host = true := by
  simp only [fetchable, Bool.and_eq_true] at h
  tauto
theorem fnUp_of_fetchable (h : fetchable f q d = true) : fnUp f d = true := by
  refine (fnUp_iff f d).mpr ⟨?_, fnExists_of_fetchable h⟩
  simp only [fetchable, Bool.and_eq_true] at h
  tauto

theorem exec_descriptorFetch (hturn : fetchTurn f q s.dev = true) (hlength : desc.length = descriptorSize s.dev) (hcancel : isCancel (izvi s.dev) desc = false)
    (hnow : fetchedNow f (requestOf (izvi s.dev) desc list input).1 s.dev = true) (hopen : acuAllows f (headAddr f q s.dev) false s.dev.host = true) :
    exec (.descriptorFetch f q desc list input) s =
      .next { s with dev := admitDescriptor f q desc list input (doorbellTick (queueOf f q s.dev) s.dev.time.ticks) (headPassed f q s.dev) } :=
  (next_doIf (by simp [hturn, hlength, hcancel, hnow])).trans (by rw [takeDescriptor_of_open hopen])

theorem admitDescriptor_of_refused {tick : Nat} (h : fetchCheck f q desc list d ≠ 0) :
    admitDescriptor f q desc list input tick d = refuseAtFetch f q (cidOf desc) (fetchCheck f q desc list d) (noteList f q desc d) := if_pos h
theorem admitDescriptor_of_passed {tick : Nat} (h : fetchCheck f q desc list d = 0) (hmap : (requestOf (izvi d) desc list input).2 = 0) :
    admitDescriptor f q desc list input tick d = enterRequest f q tick (requestOf (izvi d) desc list input).1 d := by
  simp [admitDescriptor, h, hmap]
theorem requestOf_cid (iz : Bool) (desc list input : Bytes) : (requestOf iz desc list input).1.cid = cidOf desc := by
  unfold requestOf
  dsimp only
  generalize (if listAddr iz desc = 0 then [] else list) = l
  split
  · rfl
  · split
    · split
      · rfl
      · split <;> rfl
    · split
      · rfl
      · split <;> rfl

/-- An entered request is one more job, and outstanding on its queue. -/
theorem enterRequest_takes (tick : Nat) (r : Request) (hexists : fnExists f d.host = true) :
    (enterRequest f q tick r d).gaffer.nextJob = d.gaffer.nextJob + 1 ∧
    (enterRequest f q tick r d).gaffer.jobs.length = d.gaffer.jobs.length + 1 ∧
    queueOf f q (enterRequest f q tick r d) =
      { queueOf f q d with outstanding := (queueOf f q d).outstanding ++ [{ cid := r.cid, job := d.gaffer.nextJob }] } := by
  obtain ⟨hnext, hlength, hqueues⟩ := enterJob_desk (hostJob f q tick r d) true 1
    (modQueue f q (fun x => { x with outstanding := x.outstanding ++ [{ cid := r.cid, job := d.gaffer.nextJob }] }) d)
  exact ⟨hnext, hlength, (hqueues f q).trans (queueOf_modQueue_self hexists q _)⟩

/-! ### HOST_READ_FAILURE (12 R454) -/

theorem exec_hostReadFailure_descriptor (cid : BitVec 16) (hturn : fetchTurn f q s.dev = true) : exec (.hostReadFailure .descriptor f q cid) s =
    .next { s with dev := queueFault f q 2 (countAer (noteTurn f q s.dev)) } := next_doIf hturn
theorem queueFault_aer (f q cause : Nat) (d : Device) : (queueFault f q cause d).host.aer = d.host.aer := by
  unfold queueFault fireVector
  split <;> rfl
theorem exec_hostReadFailure_bufferList (hturn : fetchTurn f q s.dev = true) (hheld : fetchHeld s.dev = false)
    (hcid : ∀ o ∈ (queueOf f q s.dev).outstanding, o.cid ≠ cid) (hopen : acuAllows f (headAddr f q s.dev) false s.dev.host = true) :
    exec (.hostReadFailure .bufferList f q cid) s = .next { s with dev := refuseAtFetch f q cid 0x0119 (countAer (headPassed f q s.dev)) } := by
  have hfree : (queueOf f q s.dev).outstanding.any (fun o => o.cid == cid) = false := by simpa using hcid
  exact (next_doIf (by simp [hturn, hheld, hfree])).trans (by rw [failList, takeDescriptor_of_open hopen])
theorem exec_hostReadFailure_input {j : Job} (up : fnUp f s.dev = true) (hj : s.dev.gaffer.jobs.find? (inDecode f q cid) = some j) :
    exec (.hostReadFailure .input f q cid) s = .next { s with dev := dispatchAll (dropJob j.id 0x0119 (countAer s.dev)) } :=
  (next_doIf up).trans (by rw [failInput, hj])

/-! ### CANCEL (12 R434, R435; 04 R160) -/

theorem exec_cancel (hturn : fetchTurn f q s.dev = true) (hlength : desc.length = descriptorSize s.dev) (hcancel : isCancel (izvi s.dev) desc = true)
    (hheld : fetchHeld s.dev = false) (hopen : acuAllows f (headAddr f q s.dev) false s.dev.host = true) :
    exec (.cancel f q desc) s = .next { s with dev := admitCancel f q desc (headPassed f q s.dev) } :=
  (next_doIf (by simp [hturn, hlength, hcancel, hheld])).trans (by rw [takeDescriptor_of_open hopen])

/-- Out of its turn nothing is fetched (12 R436). -/
theorem fetchTurn_eq_false (h : nextFetch d ≠ some (f, q)) : fetchTurn f q d = false := by simp [fetchTurn, h]

/-- A cancel of a command that is outstanding ends with the code of its job's cancel. -/
theorem admitCancel_of_found {o : Outstanding} (hcid : ∀ o ∈ (queueOf f q d).outstanding, o.cid ≠ cidOf desc) (hzeros : (cancelFields (izvi d) desc).2.2 = true)
    (hfound : (queueOf f (cancelFields (izvi d) desc).2.1 d).outstanding.find? (fun o => o.cid == (cancelFields (izvi d) desc).1) = some o) :
    admitCancel f q desc d = completeAtFetch f q (cidOf desc) (cancelJob o.job d).2 (cancelJob o.job d).1 := by
  have hfree : (queueOf f q d).outstanding.any (fun o => o.cid == cidOf desc) = false := by simpa using hcid
  simp [admitCancel, cancelTarget, hfree, hzeros, hfound]

/-- An answer writes the job, and no other; the job is releasable at once. -/
theorem answerJob_jobs_at (code : Code) {j : Job} (hj : jobOf id d = some j) : ∃ m : Job → Job,
    (∀ x, (m x).id = x.id ∧ (m x).place = .answered ∧ (m x).code = code ∧ (m x).releasable = some d.time.ticks) ∧
    (answerJob id code d).gaffer.jobs = d.gaffer.jobs.map (fun x => if x.id = id then m x else x) := by
  have hjobs : (noteImage j code (dropWrites id (dropState id d))).gaffer.jobs = _ := (noteImage_jobs _ _ _).trans (dropState_jobs_of_some hj)
  rw [answerJob, hj]
  refine ⟨_, ?_, (advanceGo_jobs _ _ _).trans ((congrArg (List.map _) hjobs).trans (map_of_id_map_of_id (f := unsaved) (fun _ => rfl) _ _))⟩
  exact fun x => ⟨rfl, rfl, rfl, rfl⟩

/-- A job on the ready list is answered with 0x0601; no other job changes. -/
theorem cancelJob_of_ready {j : Job} {p : Nat} (hj : jobOf id d = some j) (hplace : j.place = .ready) (hstream : j.stream = .host g p) :
    (∃ k, jobOf id (cancelJob id d).1 = some k ∧ k.place = .answered ∧ k.code = 0x0601 ∧ k.releasable = some d.time.ticks) ∧
    ∀ i, i ≠ id → jobOf i (cancelJob id d).1 = jobOf i d := by
  let e := traceJob 0x03 j 0x0601 (gafCount 3 d)
  have hcancel : (cancelJob id d).1 = answerJob id 0x0601 e := by
    simp only [cancelJob, hj, hplace, hstream]
    rfl
  have hjobs : e.gaffer.jobs = d.gaffer.jobs := (congrArg Gaffer.jobs (traceJob_gaffer 0x03 j 0x0601 (gafCount 3 d)) :)
  have hfind : ∀ i, jobOf i e = jobOf i d := fun i => congrArg (List.find? _) hjobs
  obtain ⟨m, hm, hanswer⟩ := answerJob_jobs_at 0x0601 ((hfind id).trans hj)
  have hmod : ∀ i, jobOf i (answerJob id 0x0601 e) = jobOf i (modJob id m e) := fun i => congrArg (List.find? _) hanswer
  rw [hcancel]
  refine ⟨⟨m j, ?_, (hm j).2.1, (hm j).2.2.1, (hm j).2.2.2⟩, fun i hi => ?_⟩
  · rw [hmod, jobOf_modJob_self (fun x _ => (hm x).1) ((hfind id).trans hj)]
  · rw [hmod, jobOf_modJob_of_ne (fun x _ => (hm x).1) e hi, hfind]

/-! ### The rows by their effect, and O18 -/

theorem headPassed_hostless (f q : Nat) (d : Device) : hostless (headPassed f q d) = hostless d := rfl
theorem countAer_hostless (d : Device) : hostless (countAer d) = hostless d := rfl
theorem fnExists_headPassed (hexists : fnExists f d.host = true) (q : Nat) : fnExists f (headPassed f q d).host = true := by
  rw [headPassed, fnCount, fnExists_modFn, modQueue, fnExists_modFn, noteTurn, fnExists_modFn]
  exact hexists

section
variable (hfetch : fetchable f q s.dev = true) (hnext : nextFetch s.dev = some (f, q))
include hfetch hnext

section
variable (hlength : desc.length = descriptorSize s.dev) (hcancel : isCancel (izvi s.dev) desc = false)
  (hnow : fetchedNow f (requestOf (izvi s.dev) desc list input).1 s.dev = true) (hopen : acuAllows f (headAddr f q s.dev) false s.dev.host = true)
include hlength hcancel hnow hopen
theorem descriptorFetch_enters (hcheck : fetchCheck f q desc list s.dev = 0) (hmap : (requestOf (izvi s.dev) desc list input).2 = 0) :
    Completes (.descriptorFetch f q desc list input) s (fun d =>
      d = enterRequest f q (doorbellTick (queueOf f q s.dev) s.dev.time.ticks) (requestOf (izvi s.dev) desc list input).1 (headPassed f q s.dev) ∧
      d.gaffer.nextJob = s.dev.gaffer.nextJob + 1 ∧ d.gaffer.jobs.length = s.dev.gaffer.jobs.length + 1 ∧
      queueOf f q d = { passHead (queueOf f q s.dev) with
        outstanding := (queueOf f q s.dev).outstanding ++ [{ cid := cidOf desc, job := s.dev.gaffer.nextJob }] }) := by
  have hexec := exec_descriptorFetch (fetchTurn_of_next hfetch hnext) hlength hcancel hnow hopen
  rw [admitDescriptor_of_passed ((fetchCheck_headPassed f q desc list s.dev).trans hcheck) hmap] at hexec
  have hexists := fnExists_of_fetchable hfetch
  obtain ⟨hnextJob, hjobs, hqueue⟩ := enterRequest_takes (q := q) (doorbellTick (queueOf f q s.dev) s.dev.time.ticks)
    (requestOf (izvi s.dev) desc list input).1 (fnExists_headPassed hexists q)
  rw [queueOf_headPassed hexists q, requestOf_cid] at hqueue
  exact ⟨_, hexec, rfl, hnextJob, hjobs, hqueue⟩
theorem descriptorFetch_refuses (hcheck : fetchCheck f q desc list s.dev ≠ 0) : Completes (.descriptorFetch f q desc list input) s (fun d =>
    d = refuseAtFetch f q (cidOf desc) (fetchCheck f q desc list s.dev) (noteList f q desc (headPassed f q s.dev)) ∧ hostless d = hostless s.dev) := by
  have hsame := fetchCheck_headPassed f q desc list s.dev
  have hexec := exec_descriptorFetch (fetchTurn_of_next hfetch hnext) hlength hcancel hnow hopen
  rw [admitDescriptor_of_refused (hsame ▸ hcheck), hsame] at hexec
  exact ⟨_, hexec, rfl, by rw [refuseAtFetch_hostless, noteList_hostless, headPassed_hostless]⟩
end

theorem hostReadFailure_descriptor_completes (cid : BitVec 16) : Completes (.hostReadFailure .descriptor f q cid) s (fun d =>
    queueOf f q d = { queueOf f q s.dev with error := true, cause := 2 } ∧ d.host.aer = s.dev.host.aer + 1 ∧ d.gaffer = s.dev.gaffer) := by
  have hexists : fnExists f (countAer (noteTurn f q s.dev)).host = true := (fnExists_modFn f f _ _).trans (fnExists_of_fetchable hfetch)
  have hqueue := queueOf_queueFault hexists q 2
  rw [show queueOf f q (countAer (noteTurn f q s.dev)) = queueOf f q s.dev from queueOf_noteTurn f q f q s.dev] at hqueue
  refine ⟨_, exec_hostReadFailure_descriptor cid (fetchTurn_of_next hfetch hnext), hqueue, queueFault_aer f q 2 (countAer (noteTurn f q s.dev)), ?_⟩
  exact gaffer_of_hostless ((queueFault_hostless f q 2 _).trans rfl)
theorem hostReadFailure_bufferList_completes (hopen : acuAllows f (headAddr f q s.dev) false s.dev.host = true) (hheld : fetchHeld s.dev = false)
    (hcid : ∀ o ∈ (queueOf f q s.dev).outstanding, o.cid ≠ cid) : Completes (.hostReadFailure .bufferList f q cid) s (fun d =>
      d = refuseAtFetch f q cid 0x0119 (countAer (headPassed f q s.dev)) ∧ d.gaffer = s.dev.gaffer) := by
  refine ⟨_, exec_hostReadFailure_bufferList (fetchTurn_of_next hfetch hnext) hheld hcid hopen, rfl, gaffer_of_hostless ?_⟩
  rw [refuseAtFetch_hostless, countAer_hostless, headPassed_hostless]

theorem cancel_answers {o : Outstanding} {j : Job} {g p : Nat} (hlength : desc.length = descriptorSize s.dev) (hcancel : isCancel (izvi s.dev) desc = true)
    (hheld : fetchHeld s.dev = false) (hopen : acuAllows f (headAddr f q s.dev) false s.dev.host = true)
    (hcid : ∀ o ∈ (queueOf f q s.dev).outstanding, o.cid ≠ cidOf desc) (hzeros : (cancelFields (izvi s.dev) desc).2.2 = true)
    (hfound : (queueOf f (cancelFields (izvi s.dev) desc).2.1 s.dev).outstanding.find?
      (fun o => o.cid == (cancelFields (izvi s.dev) desc).1) = some o)
    (hj : jobOf o.job s.dev = some j) (hplace : j.place = .ready) (hstream : j.stream = .host g p) :
    Completes (.cancel f q desc) s (fun d => (∃ k, jobOf o.job d = some k ∧ k.place = .answered ∧ k.code = 0x0601 ∧
        k.releasable = some s.dev.time.ticks) ∧
      (∀ i, i ≠ o.job → jobOf i d = jobOf i s.dev) ∧ d.keys = s.dev.keys ∧ d.fuses = s.dev.fuses ∧ d.net = s.dev.net) := by
  have hexec := exec_cancel (fetchTurn_of_next hfetch hnext) hlength hcancel hheld hopen
  have hout := fun p => outstanding_headPassed f q f p s.dev
  rw [admitCancel_of_found (d := headPassed f q s.dev) (by rwa [hout]) hzeros ((congrArg (List.find? _) (hout _)).trans hfound)] at hexec
  obtain ⟨hanswered, hothers⟩ := cancelJob_of_ready (d := headPassed f q s.dev) hj hplace hstream
  have hcancelled := cancelJob_jobless o.job (headPassed f q s.dev)
  have hdone := completeAtFetch_hostless f q (cidOf desc) (cancelJob o.job (headPassed f q s.dev)).2 (cancelJob o.job (headPassed f q s.dev)).1
  refine ⟨_, hexec, ?_⟩
  generalize completeAtFetch f q (cidOf desc) _ _ = d at hdone
  have hfind : ∀ i, jobOf i d = jobOf i (cancelJob o.job (headPassed f q s.dev)).1 := fun i => (congrArg (jobOf i) hdone :)
  refine ⟨hfind o.job ▸ hanswered, fun i hi => (hfind i).trans (hothers i hi), ?_, ?_, ?_⟩
  · exact (congrArg (·.keys) hdone :).trans (congrArg (·.keys) hcancelled :)
  · exact (congrArg (·.fuses) hdone :).trans (congrArg (·.fuses) hcancelled :)
  · exact (congrArg (·.net) hdone :).trans (congrArg (·.net) hcancelled :)
end

theorem hostReadFailure_input_completes {j : Job} (up : fnUp f s.dev = true) (hfound : s.dev.gaffer.jobs.find? (inDecode f q cid) = some j)
    (hj : jobOf j.id s.dev = some j) : Completes (.hostReadFailure .input f q cid) s (fun d =>
      d = dispatchAll (dropJob j.id 0x0119 (countAer s.dev)) ∧ ∃ k, jobOf j.id d = some k ∧ k.place = .answered ∧ k.code = 0x0119) :=
  ⟨_, exec_hostReadFailure_input up hfound, rfl, dispatchAll_dropJob (d := countAer s.dev) 0x0119 (Option.isSome_of_eq_some hj)⟩

/-- A row without its occasion leaves the state as it is (log entry 1). -/
theorem next_doIf_of_false {due : Bool} {m : Device → Device} (h : due = false) :
    (.next { s with dev := doIf due m s.dev } : Host.Outcome State Fault Refusal) = .next s := by
  rw [h]
  rfl

/-- Settles O18: a descriptor is entered or refused, a failed read ends its command or its job, and a cancel answers its target; what `headPassed`
uses of the turn is log entry 24, and a job answered without a Retire is log entry 90. -/
theorem commandsAreFetchedAndCancelled : Obligations.CommandsAreFetchedAndCancelled := by
  refine ⟨fun f q s hfetch hnext => ⟨fun desc list input hlength hcancel hnow hopen hcheck hmap => ?_,
      fun desc list input hlength hcancel hnow hopen hcheck => ?_, fun cid => hostReadFailure_descriptor_completes hfetch hnext cid,
      fun cid hopen hheld hcid => hostReadFailure_bufferList_completes hfetch hnext hopen hheld hcid,
      fun cid j hfound hj => hostReadFailure_input_completes (fnUp_of_fetchable hfetch) hfound hj, rfl,
      fun hturn hleft => turnLeft_headPassed_of_turn q hturn hleft, fun hother => turnLeft_headPassed_of_other q hother⟩,
    fun f q desc list input cid s hnext => ?_, fun f q desc s o j g p hfetch hnext hlength hcancel hheld hopen hcid hzeros hfound hj hplace hstream =>
      cancel_answers hfetch hnext hlength hcancel hheld hopen hcid hzeros hfound hj hplace hstream⟩
  · obtain ⟨d, hexec, heq, hnextJob, hjobs, hqueue⟩ := descriptorFetch_enters hfetch hnext hlength hcancel hnow hopen hcheck hmap
    exact ⟨d, hexec, heq, hnextJob, hjobs, congrArg Queue.sqHead hqueue, congrArg Queue.outstanding hqueue⟩
  · obtain ⟨d, hexec, heq, hkept⟩ := descriptorFetch_refuses hfetch hnext hlength hcancel hnow hopen hcheck
    exact ⟨d, hexec, heq, gaffer_of_hostless hkept, frame_of_hostless hkept⟩
  · have hturn := fetchTurn_eq_false hnext
    exact ⟨next_doIf_of_false (by simp [hturn]), next_doIf_of_false (by simp [hturn]), next_doIf_of_false hturn, next_doIf_of_false (by simp [hturn])⟩

end Sys2Proof.Machine
end

section
/-! SUPPORT. The whole machine: what no step takes back, that every command completes, and what reset holds: O58, O2 and O60. -/

namespace Sys2Proof.Machine

/-- The part is Retired exactly when the retired fuse is blown (16 R557). -/
theorem state_eq_retired_iff (d : Device) : state d = .retired ↔ d.fuses.retired = true := by
  unfold state lifecycle
  cases d.fuses.retired <;> grind

/-- Settles O58: it is what `rises` says of fuses, draws (the count of log entry 7) and transfers (the list of log entry 2); a Retired part is one
with its fuse blown. -/
theorem nothingIsTakenBack : Obligations.NothingIsTakenBack := by
  unfold Obligations.NothingIsTakenBack
  intro s t hstep
  obtain ⟨hfuses, hdraws, hout, -⟩ := step_rises hstep
  obtain ⟨-, -, hretired, -⟩ := id hfuses
  exact ⟨hfuses, hdraws, hout, fun h => (state_eq_retired_iff _).mpr (hretired ((state_eq_retired_iff _).mp h))⟩

/-- Settles O2: `exec_completes_rises` names the next device of every command, and a step on an empty queue is the state itself (log entry 1). -/
theorem everyStepAnswersANextState : Obligations.EveryStepAnswersANextState := by
  unfold Obligations.EveryStepAnswersANextState
  refine ⟨fun c s => ?_, fun _ => rfl⟩
  obtain ⟨d, hexec, -⟩ := exec_completes_rises c s
  exact ⟨d, hexec, trivial⟩

theorem fuseVal_reset (f : FuseField) : fuseVal f State.reset.dev = 0 := by cases f <;> rfl

/-- Settles O60: reset is a Blank part (log entry 4) that has no job, has drawn nothing (log entry 7) and has sent nothing (log entry 2). -/
theorem resetMeetsTheInvariants : Obligations.ResetMeetsTheInvariants := by
  unfold Obligations.ResetMeetsTheInvariants
  have hjobs : State.reset.dev.gaffer.jobs = [] := rfl
  refine ⟨?_, rfl, rfl, rfl, fuseVal_reset⟩
  unfold jobsDistinct
  simp [hjobs]

end Sys2Proof.Machine
end

section
/-! SUPPORT. What a trip leaves of the part (17 R580 to R590; 16 R559): its response as one update of the device. -/

namespace Sys2Proof.Machine

variable {d e : Device}

/-! ### Jobs are discarded (04 R149) -/

/-- The device without its jobs and grants, its benches and the lookup ports. -/
def workless (d : Device) : Device := { d with keys := { d.keys with ports := [] }, gaffer := {}, shares := {}, benches := [] }
theorem frame_of_workless (h : workless e = workless d) : e = { d with
    keys := { d.keys with ports := e.keys.ports }, gaffer := e.gaffer, shares := e.shares, benches := e.benches } :=
  congrArg (fun x => { x with keys := { x.keys with ports := e.keys.ports }, gaffer := e.gaffer, shares := e.shares, benches := e.benches }) h

theorem modJob_workless (id f) (d : Device) : workless (modJob id f d) = workless d := rfl
theorem modBench_workless (b f) (d : Device) : workless (modBench b f d) = workless d := rfl
theorem endGrant_workless (g park) (d : Device) : workless (endGrant g park d) = workless d := by
  have h : workless (endGrant g park d) = workless (freePort g (charge g.kind g.tenant (grantCharge g d) d)) :=
    (congrArg workless (endGrant_ungranted g park d) :)
  rw [h]
  exact ite_kept (x := { charge _ _ _ d with keys := _ }) rfl
theorem freeJobCore_workless (j) (d : Device) : workless (freeJobCore j d) = workless d := by
  refine doWith_kept fun c x => ?_
  rw [freeCore, doWith_kept (view := workless) fun _ _ => modJob_workless _ _ _]
  exact (congrArg workless (modUnit_frame c _ x) :)
theorem dropState_workless (id) (d : Device) : workless (dropState id d) = workless d := by
  unfold dropState
  split
  · rfl
  · rw [modJob_workless, doWith_kept (view := workless) fun _ _ => modBench_workless _ _ _]

/-- What is discarded of jobs: their grants, their writes to the journals and the statements queued for them. -/
theorem discardAll_frame (d : Device) : discardAll d = { d with
    keys := { d.keys with ports := (discardAll d).keys.ports }, gaffer := (discardAll d).gaffer, shares := (discardAll d).shares
    benches := (discardAll d).benches, flash := { d.flash with writes := d.flash.writes.filter (fun w => w.job.isNone) }
    custody := { d.custody with attesting := [] } } := by
  have h : workless (discardAll d) = workless { d with
      flash := { d.flash with writes := d.flash.writes.filter (fun w => w.job.isNone) }, custody := { d.custody with attesting := [] } } := by
    unfold discardAll
    dsimp only
    generalize hx : doEach d.gaffer.jobs (fun j => freeJobCore j) { d with shares := { d.shares with pending := [] } } = x
    generalize hy : doEach (x.shares.grants.filter (fun g => !g.parked)) (fun g => endGrant g false) x = y
    generalize hz : doEach (y.gaffer.jobs.map (·.id)) dropState y = z
    have hzd : workless z = workless d := by
      rw [← hz, doEach_kept (view := workless) dropState_workless, ← hy, doEach_kept (view := workless) fun g w => endGrant_workless g false w, ← hx,
        doEach_kept (view := workless) freeJobCore_workless]
      rfl
    rw [frame_of_workless hzd]
    rfl
  exact frame_of_workless h

/-! ### The work of the part stops (17 R583; 16 R572) -/

theorem tearImage_imageWrite (f : Flash) : (tearImage f).imageWrite = none := by
  unfold tearImage
  split
  · assumption
  · dsimp only
    split
    · unfold setImage; split <;> rfl
    · unfold setCopy; split <;> rfl
theorem stopWork_frame (d : Device) : stopWork d = { d with
    keys := endSweeps { d.keys with ports := [], refusing := true }, gaffer := (discardAll d).gaffer, shares := (discardAll d).shares
    benches := (stopWork d).benches, flash := (stopWork d).flash, gather := eraseGather d.time.ticks d.gather
    custody := { d.custody with attesting := [], sealKey := 0, quorum := none, sessions := [] } } := by
  unfold stopWork clearUse
  rw [discardAll_frame]
theorem stopWork_imageWrite (d : Device) : (stopWork d).flash.imageWrite = none := tearImage_imageWrite _
theorem fireCullet_frame (d : Device) : fireCullet d = { d with
    custody := { d.custody with root0 := 0, root1 := 0, scrambleKey := 0, sealKey := 0, sessions := [] }, keys := (fireCullet d).keys
    tamper := { d.tamper with culletFired := true, overwriteActive := true, overwriteDone := false, firings := satInc d.tamper.firings, cursor := 0
                              culletTick := watch d }
    benches := (fireCullet d).benches, gather := (fireCullet d).gather, net := (fireCullet d).net, events := (fireCullet d).events } := rfl
theorem freeAllSessions_free (d : Device) : ∀ p ∈ (freeAllSessions d).net.sessions, p.2.state = .free := by
  intro p hp
  obtain ⟨q, -, rfl⟩ := List.mem_map.mp hp
  dsimp only
  split
  · assumption
  · rfl
theorem endSweeps_inactive (k : KeyStore) : ∀ p ∈ (endSweeps k).sweeps, p.2.active = false := by
  intro p hp
  obtain ⟨q, -, rfl⟩ := List.mem_map.mp hp
  rfl

/-! ### What is recorded of a response: events, wakes and the debug level -/

theorem wake_frame (cause counter) (d : Device) : wake cause counter d = { d with power := (wake cause counter d).power } := by
  unfold wake
  split
  · rfl
  · split <;> rfl
  · rfl
theorem wake_level (cause counter) (d : Device) : (wake cause counter d).power.level = d.power.level := by
  unfold wake
  split
  · rfl
  · split <;> rfl
  · rfl
theorem noteTransition_frame (l) (d : Device) : noteTransition l d = { d with events := (noteTransition l d).events } := by
  unfold noteTransition doIf
  split <;> rfl
theorem setLevel_frame (l hours) (d : Device) : setLevel l hours d = { d with
    events := (setLevel l hours d).events, power := (setLevel l hours d).power } := by
  unfold setLevel
  split <;> rfl
theorem setLevel_level (l hours) (d : Device) : (setLevel l hours d).power.level = l := by
  unfold setLevel
  split
  · assumption
  · rfl

/-! ### The response to a trip (17 R583 to R587) -/

/-- Whether the part is to be locked by a trip (17 R583). -/
def lockable (d : Device) : Bool := state d == .owned || state d == .operational
/-- Whether a trip of the source calls for its evidence to be burned (17 R585). -/
def evidenceDue (n : Nat) (d : Device) : Bool :=
  state d != .blank && !(sourceOf n d).counted && !saturated (fuseGet (.evidence n) d.fuses)
/-- The work has stopped, after the Cullet line has fired for a Breach, and no session is left. -/
def tripStopped (n : Nat) (d : Device) : Device :=
  let e := setSource n (counting d (sourceOf n d)) d
  freeAllSessions (stopWork (if isBreach n then fireCullet e else e))
/-- The lock cause that a trip leaves (17 R584). -/
def causeAfterTrip (n : Nat) (d : Device) (c : LockCause) : LockCause :=
  if lockable d || state d == .locked then tripCause (isBreach n) c else c
/-- The latches of the battery domain after a trip: one more where it calls for a burn (17 R583, R587). -/
def latchesAfterTrip (n : Nat) (night : Bool) (seconds : BitVec 40) (d : Device) (ls : List TripLatch) : List TripLatch :=
  if lockable d || evidenceDue n d then ls ++ [{ source := n, seconds, night, lockDue := lockable d, evidenceDue := evidenceDue n d }] else ls
/-- What a start notes of a trip (17 R598). -/
def startAfterTrip (n : Nat) (s : StartState) : StartState :=
  if s.done then s else { s with excursion := s.excursion || !isBreach n, breached := s.breached || isBreach n }
/-- The response to a trip, before what is recorded of it. -/
def responded (n : Nat) (night : Bool) (seconds : BitVec 40) (d : Device) : Device :=
  let e := tripStopped n d
  { e with
    custody := { e.custody with lockCause := causeAfterTrip n d e.custody.lockCause }
    battery := { e.battery with latches := latchesAfterTrip n night seconds d e.battery.latches }
    start := startAfterTrip n e.start }

/-- Beside its effect a response records events, wakes the part and closes the debug level. -/
theorem respond_frame (n night seconds) (d : Device) : respond n night seconds d = { responded n night seconds d with
    events := (respond n night seconds d).events, power := (respond n night seconds d).power } := by
  have h : ∃ detail, respond n night seconds d =
      wake 3 3 (setLevel .closed 0 (emitC .tamper 0x0A01 detail (noteTransition (state d) (responded n night seconds d)))) := by
    unfold respond
    exact ⟨_, rfl⟩
  obtain ⟨detail, h⟩ := h
  rw [h]
  generalize responded n night seconds d = e
  rw [wake_frame, setLevel_frame, noteTransition_frame]
  rfl
theorem respond_level (n night seconds) (d : Device) : (respond n night seconds d).power.level = .closed := by
  unfold respond
  dsimp only
  rw [wake_level, setLevel_level]

/-! ### What a response leaves (17 R583, R584, R588) -/

/-- The device of which the work is stopped: the source has counted its trip, and the Cullet line has fired for a Breach. -/
def alarmed (n : Nat) (d : Device) : Device :=
  let e := setSource n (counting d (sourceOf n d)) d
  if isBreach n then fireCullet e else e
theorem tripStopped_eq (n : Nat) (d : Device) : tripStopped n d = freeAllSessions (stopWork (alarmed n d)) := rfl
theorem alarmed_of_breach {n : Nat} (h : n < 6) (d : Device) : alarmed n d = fireCullet (setSource n (counting d (sourceOf n d)) d) :=
  if_pos (decide_eq_true h)
theorem alarmed_of_excursion {n : Nat} (h : 6 ≤ n) (d : Device) : alarmed n d = setSource n (counting d (sourceOf n d)) d :=
  if_neg (by simpa [isBreach] using h)
theorem alarmed_frame (n : Nat) (d : Device) : alarmed n d = { d with
    custody := (alarmed n d).custody, keys := (alarmed n d).keys, tamper := (alarmed n d).tamper, benches := (alarmed n d).benches
    gather := (alarmed n d).gather, net := (alarmed n d).net, events := (alarmed n d).events } := by
  unfold alarmed
  dsimp only
  split
  · rw [fireCullet_frame]
    rfl
  · rfl
theorem tripStopped_frame (n : Nat) (d : Device) : tripStopped n d = { d with
    custody := { (alarmed n d).custody with attesting := [], sealKey := 0, quorum := none, sessions := [] }
    keys := endSweeps { (alarmed n d).keys with ports := [], refusing := true }, tamper := (alarmed n d).tamper
    gaffer := (discardAll (alarmed n d)).gaffer, shares := (discardAll (alarmed n d)).shares
    benches := (stopWork (alarmed n d)).benches, flash := (stopWork (alarmed n d)).flash
    gather := eraseGather d.time.ticks (alarmed n d).gather, net := (freeAllSessions (alarmed n d)).net, events := (alarmed n d).events } := by
  rw [tripStopped_eq, stopWork_frame]
  have h := alarmed_frame n d
  generalize alarmed n d = e at h ⊢
  rw [h]
  rfl
theorem responded_frame (n night seconds) (d : Device) : responded n night seconds d = { tripStopped n d with
    custody := (responded n night seconds d).custody, battery := (responded n night seconds d).battery
    start := (responded n night seconds d).start } := rfl
theorem discardAll_gaffer (d : Device) : (discardAll d).gaffer.jobs = [] ∧ (discardAll d).gaffer.stopped = true := ⟨rfl, rfl⟩

section
variable (n : Nat) (night : Bool) (seconds : BitVec 40) (d : Device)

/-- No job, quorum, component session, sweep or image write survives a response, and lookups are refused (17 R583). -/
theorem respond_stops : let e := respond n night seconds d
    e.gaffer.jobs = [] ∧ e.gaffer.stopped = true ∧ e.custody.quorum = none ∧ e.custody.sessions = [] ∧ e.keys.refusing = true ∧
    e.keys.ports = [] ∧ e.custody.sealKey = 0 ∧ (∀ p ∈ e.net.sessions, p.2.state = .free) ∧ (∀ p ∈ e.keys.sweeps, p.2.active = false) ∧
    e.flash.imageWrite = none ∧ e.gather.pool = [] := by
  rw [respond_frame, responded_frame, tripStopped_frame]
  exact ⟨rfl, rfl, rfl, rfl, rfl, rfl, rfl, freeAllSessions_free _, endSweeps_inactive _, stopWork_imageWrite _, rfl⟩
theorem respond_lockCause : (respond n night seconds d).custody.lockCause = causeAfterTrip n d (alarmed n d).custody.lockCause := by
  rw [respond_frame]
  dsimp only [responded]
  rw [tripStopped_frame]
theorem respond_battery : (respond n night seconds d).battery = { d.battery with
    latches := latchesAfterTrip n night seconds d d.battery.latches } := by
  rw [respond_frame]
  dsimp only [responded]
  rw [tripStopped_frame]
theorem respond_fuses : (respond n night seconds d).fuses = d.fuses := by
  rw [respond_frame, responded_frame, tripStopped_frame]
theorem respond_time : (respond n night seconds d).time = d.time := by
  rw [respond_frame, responded_frame, tripStopped_frame]
theorem respond_tamper : (respond n night seconds d).tamper = (alarmed n d).tamper := by
  rw [respond_frame, responded_frame, tripStopped_frame]
theorem respond_roots : (respond n night seconds d).custody.root0 = (alarmed n d).custody.root0 ∧
    (respond n night seconds d).custody.root1 = (alarmed n d).custody.root1 ∧
    (respond n night seconds d).custody.scrambleKey = (alarmed n d).custody.scrambleKey := by
  rw [respond_frame]
  dsimp only [responded]
  rw [tripStopped_frame]
  exact ⟨rfl, rfl, rfl⟩
theorem respond_slots : (respond n night seconds d).keys.slots = (alarmed n d).keys.slots := by
  rw [respond_frame, responded_frame, tripStopped_frame]
  rfl

end

/-! ### The lock of a trip (17 R583, R584) -/

theorem lockable_iff (d : Device) : lockable d = true ↔ state d = .owned ∨ state d = .operational := by simp [lockable]
theorem lifecycle_of_lockable (h : lockable d = true) : lifecycle d.fuses = .owned ∨ lifecycle d.fuses = .operational := by
  rw [lockable_iff] at h
  unfold state at h
  dsimp only at h
  split at h
  · simp at h
  · exact h
/-- A part whose lock is called for is Locked before its fuse is burned. -/
theorem state_of_lockPending (hlife : lifecycle d.fuses = .owned ∨ lifecycle d.fuses = .operational) (hpending : lockPending d.battery = true) :
    state d = .locked := by
  unfold state
  rcases hlife with h | h <;> simp [h, hpending]
theorem state_respond (n night seconds) (h : lockable d = true) : state (respond n night seconds d) = .locked := by
  refine state_of_lockPending (by rw [respond_fuses]; exact lifecycle_of_lockable h) ?_
  rw [respond_battery]
  simp [latchesAfterTrip, lockPending, h]
theorem causeAfterTrip_of_breach {n : Nat} (hn : n < 6) (h : lockable d = true) (c : LockCause) : causeAfterTrip n d c = .breach := by
  simp [causeAfterTrip, tripCause, isBreach, h, hn]
theorem causeAfterTrip_of_excursion {n : Nat} (hn : 6 ≤ n) (h : lockable d = true) {c : LockCause} (hc : c ≠ .breach) :
    causeAfterTrip n d c = .excursion := by
  simp [causeAfterTrip, tripCause, isBreach, h, hc, Nat.not_lt.mpr hn]

/-! ### DETECTOR_TRIP (17 R580) -/

section
variable {n : Nat} {det : Detector} {s : State}

theorem watched_iff (n : Nat) (d : Device) : sourceWatched n d = true ↔
    outOfReset d = true ∧ d.tamper.armed = true ∧ n < 16 ∧ srcEnabled n d = true := by
  simp [sourceWatched, and_assoc]

variable (hwatched : sourceWatched n s.dev = true) (hmask : masked n det s.dev = false)
include hwatched hmask

theorem exec_detectorTrip : exec (.detectorTrip n det) s = .next { s with dev := tripSource n det s.dev } :=
  next_doIf (by rw [hwatched, hmask]; rfl)
theorem exec_detectorTrip_of_quiet (hquiet : (sourceOf n s.dev).state = .quiet) : exec (.detectorTrip n det) s = .next { s with
    dev := respond n false s.dev.battery.opSeconds (setSource n (struck det (sourceOf n s.dev)) s.dev) } := by
  obtain ⟨-, harmed, -, hn⟩ := (watched_iff n s.dev).mp hwatched
  rw [exec_detectorTrip hwatched hmask, tripSource_of_on det hn harmed, if_pos hquiet]
/-- The trip of a source that is not quiet is that of the trip before (17 R580). -/
theorem exec_detectorTrip_of_active (hactive : (sourceOf n s.dev).state ≠ .quiet) : exec (.detectorTrip n det) s = .next { s with
    dev := setSource n (struck det (sourceOf n s.dev)) s.dev } := by
  obtain ⟨-, harmed, -, hn⟩ := (watched_iff n s.dev).mp hwatched
  rw [exec_detectorTrip hwatched hmask, tripSource_of_on det hn harmed, if_neg hactive]
end

theorem sourceOf_setSource_self (n : Nat) (x : TamperSource) (d : Device) : sourceOf n (setSource n x d) = x := by
  rw [sourceOf_setSource, if_pos rfl]
theorem detectorHigh_of_source {n : Nat} {det : Detector} {x : TamperSource} (h : sourceOf n d = struck det x) : detectorHigh n det d = true := by
  cases det <;> simp [detectorHigh, h, struck]

/-- Settles O40: what `respond` leaves, and for a source tripped before its detector alone; the lock in force before its burn is that of the latch
(17 R583, R587). -/
theorem tripsStopThePart : Obligations.TripsStopThePart := by
  unfold Obligations.TripsStopThePart
  intro n det s hwatched hmask
  obtain ⟨-, harmed, -, hn⟩ := (watched_iff n s.dev).mp hwatched
  refine ⟨fun hquiet => ⟨_, exec_detectorTrip_of_quiet hwatched hmask hquiet, ?_⟩, fun htripped =>
    ⟨_, exec_detectorTrip_of_active hwatched hmask (by rw [htripped]; decide), ?_⟩⟩
  · have hlock : lockable (setSource n (struck det (sourceOf n s.dev)) s.dev) = lockable s.dev := rfl
    have hsource := sourceOf_respond n false s.dev.battery.opSeconds n (setSource n (struck det (sourceOf n s.dev)) s.dev)
    rw [if_pos rfl, sourceOf_setSource_self] at hsource
    obtain ⟨hjobs, hstopped, hquorum, hsessions, hrefusing, hports, hseal, hfree, hsweeps, himage, hpool⟩ :=
      respond_stops n false s.dev.battery.opSeconds (setSource n (struck det (sourceOf n s.dev)) s.dev)
    have htrip := trippedBy_tripSource det hn harmed
    rw [tripSource_of_on det hn harmed, if_pos hquiet] at htrip
    obtain ⟨hstate, hhigh⟩ := htrip
    refine ⟨hstate, hhigh, by rw [hsource]; rfl, hjobs, hstopped, hquorum, hsessions, hrefusing, hports, hseal, hfree, hsweeps, himage,
      respond_level _ _ _ _, hpool, fun howned => ?_, respond_fuses _ _ _ _, respond_time _ _ _ _⟩
    have h := hlock.trans ((lockable_iff s.dev).mpr howned)
    refine ⟨state_respond _ _ _ h, fun hbreach => ?_, fun hexcursion hcause => ?_⟩
    · rw [respond_lockCause, causeAfterTrip_of_breach hbreach h]
    · rw [respond_lockCause, alarmed_of_excursion hexcursion, causeAfterTrip_of_excursion hexcursion h]
      exact hcause
  · have hsource := sourceOf_setSource_self n (struck det (sourceOf n s.dev)) s.dev
    exact ⟨detectorHigh_of_source hsource, by rw [hsource]; rfl, by rw [hsource]; rfl, rfl⟩

end Sys2Proof.Machine
end

section
/-! SUPPORT. Burns of fuses, and the latches of trips (16 R552, R559; 17 R583 to R590): O41. -/

namespace Sys2Proof.Machine

variable {d : Device}

/-! ### One burn (16 R552) -/

theorem burn_frame (f : FuseField) (d : Device) : burn f d = { d with
    fuses := fuseSet f (burnTherm (fuseGet f d.fuses)) d.fuses, events := (burn f d).events } := by
  have hevents : ∀ (bs : List Nat) (no : Nat) (e : Device), doEach bs (fun b => emitC .alarm 0x0903 (leBytes 1 no ++ leBytes 1 b)) e =
      { e with events := (doEach bs (fun b => emitC .alarm 0x0903 (leBytes 1 no ++ leBytes 1 b)) e).events } := by
    intro bs no
    induction bs with
    | nil => exact fun _ => rfl
    | cons b bs ih => exact fun e => ih _
  exact hevents _ _ _
theorem fuseGet_fuseSet_self (f : FuseField) (t : Therm) (x : Fuses) : fuseGet f (fuseSet f t x) = t := by
  cases f with
  | evidence n => exact tabGetD_tabSet_self _ _ _ _
  | _ => rfl
theorem thermVal_burnTherm {t : Therm} (h : saturated t = false) : thermVal (burnTherm t) = thermVal t + 1 := by
  unfold burnTherm
  cases hb : burnBit t with
  | none => simp [saturated, hb] at h
  | some b => simp [thermVal]
theorem burn_adds_one {f : FuseField} (h : saturated (fuseGet f d.fuses) = false) :
    thermVal (fuseGet f (burn f d).fuses) = thermVal (fuseGet f d.fuses) + 1 := by
  rw [burn_frame, fuseGet_fuseSet_self, thermVal_burnTherm h]

/-! ### The burn of a lock (16 R559, R560) -/

theorem burnLock_frame (d : Device) : burnLock d = { d with fuses := (burnLock d).fuses, events := (burnLock d).events } := by
  unfold burnLock
  split
  · split
    · rfl
    · rw [burn_frame]
  · rfl
theorem burnLock_evidence (n : Nat) (d : Device) : fuseGet (.evidence n) (burnLock d).fuses = fuseGet (.evidence n) d.fuses := by
  unfold burnLock
  split
  · split
    · rfl
    · rw [burn_frame]
      rfl
  · rfl
theorem burnLock_of_lockable (h : lifecycle d.fuses = .owned ∨ lifecycle d.fuses = .operational) (hsat : saturated d.fuses.lockCount = false) :
    burnLock d = burn .lockCount d := by
  rw [burnLock, if_pos (by simpa using h), hsat]
  rfl

/-! ### The burns of a latch (17 R583, R585, R587) -/

section
variable (l : TripLatch) (d : Device)

theorem burnLatch_frame : burnLatch l d = { d with
    fuses := (burnLatch l d).fuses, events := (burnLatch l d).events
    battery := { d.battery with latches := d.battery.latches.filter (fun x => x ≠ l) } } := by
  unfold burnLatch
  dsimp only
  rw [noteTransition_frame]
  split <;> split
  · rw [burn_frame, burnLock_frame]
  · rw [burn_frame]
  · rw [burnLock_frame]
  · rfl
theorem burnLatch_evidence (h : l.evidenceDue = true) (hsat : saturated (fuseGet (.evidence l.source) d.fuses) = false) :
    thermVal (fuseGet (.evidence l.source) (burnLatch l d).fuses) = thermVal (fuseGet (.evidence l.source) d.fuses) + 1 := by
  unfold burnLatch
  dsimp only
  rw [if_pos h, noteTransition_frame]
  dsimp only
  split
  · rw [burn_adds_one (by rw [burnLock_evidence]; exact hsat), burnLock_evidence]
  · exact burn_adds_one hsat
theorem burnLatch_lock (h : l.lockDue = true) (hlife : lifecycle d.fuses = .operational) (hsat : saturated d.fuses.lockCount = false) :
    thermVal (burnLatch l d).fuses.lockCount = thermVal d.fuses.lockCount + 1 := by
  have hburn : thermVal (burn .lockCount d).fuses.lockCount = thermVal d.fuses.lockCount + 1 := burn_adds_one (f := .lockCount) hsat
  unfold burnLatch
  dsimp only
  rw [if_pos h, noteTransition_frame, burnLock_of_lockable (.inr hlife) hsat]
  dsimp only
  split
  · rw [burn_frame (.evidence l.source)]
    exact hburn
  · exact hburn
theorem burnLatch_nothing (hlock : l.lockDue = false) (hevidence : l.evidenceDue = false) : (burnLatch l d).fuses = d.fuses := by
  unfold burnLatch
  rw [hlock, hevidence, noteTransition_frame]
  rfl
end

/-! ### O41 -/

theorem overwriteEnds_free (i : Nat) (d : Device) : (slotOf i (overwriteEnds d).keys).state = .free := rfl

/-- The latch of the source burns alone, where it is the only one. -/
theorem exec_tripFuseBurn_of_one {l : TripLatch} {s : State} (hreset : outOfReset s.dev = true) (hquiet : suppliesQuiet s.dev = true)
    (hlatches : s.dev.battery.latches = [l]) (hday : l.night = false) :
    exec (.tripFuseBurn l.source) s = .next { s with dev := burnLatch l s.dev } := by
  have h : burnLatches (fun x => decide (x.source = l.source) && !x.night) s.dev = burnLatch l s.dev := by
    unfold burnLatches
    rw [hlatches, List.filter_cons_of_pos (by simp [hday])]
    rfl
  rw [← h]
  exact next_doIf (by rw [hreset, hquiet]; rfl)

/-- Settles O41: `fireCullet` is part of the response to a Breach alone; the burns are those of the one latch. -/
theorem breachErasesAndLatchesBurn : Obligations.BreachErasesAndLatchesBurn := by
  unfold Obligations.BreachErasesAndLatchesBurn
  refine ⟨⟨fun n det s hwatched hmask hquiet => ⟨_, exec_detectorTrip_of_quiet hwatched hmask hquiet, fun hbreach => ?_, fun hexcursion => ?_⟩,
    fun s hreset hactive => ⟨_, next_doIf (by rw [hreset, hactive]; rfl), rfl, rfl, rfl, fun i => overwriteEnds_free i s.dev, rfl⟩⟩,
    fun l s hreset hquiet hlatches hday => ⟨_, exec_tripFuseBurn_of_one hreset hquiet hlatches hday, ?_,
      burnLatch_evidence l s.dev, burnLatch_lock l s.dev, fun hevidence hlock => burnLatch_nothing l s.dev hlock hevidence, ?_⟩⟩
  · obtain ⟨hroot0, hroot1, hscramble⟩ := respond_roots n false s.dev.battery.opSeconds (setSource n (struck det (sourceOf n s.dev)) s.dev)
    rw [hroot0, hroot1, hscramble, respond_tamper, alarmed_of_breach hbreach]
    exact ⟨rfl, rfl, rfl, rfl, rfl, rfl⟩
  · obtain ⟨hroot0, hroot1, hscramble⟩ := respond_roots n false s.dev.battery.opSeconds (setSource n (struck det (sourceOf n s.dev)) s.dev)
    rw [hroot0, hroot1, hscramble, respond_slots, alarmed_of_excursion hexcursion]
    exact ⟨rfl, rfl, rfl, rfl⟩
  · rw [burnLatch_frame]
    dsimp only
    rw [hlatches, List.filter_cons_of_neg (by simp)]
    rfl
  · rw [burnLatch_frame]

end Sys2Proof.Machine
end

section
/-! SUPPORT. Challenges, Notices, the Night check and the clearing of a source (17 R581, R582, R592, R603, R604): O42 and O43. -/

namespace Sys2Proof.Machine

variable {d : Device} {s : State} {n : Nat} {det : Detector}

/-! ### Challenges (17 R581) -/

theorem nextPosition_lt {p : Nat} (h : nextPosition d = some p) : p < 32 := by
  obtain ⟨i, -, rfl⟩ := List.mem_map.mp (List.mem_of_find?_eq_some h)
  exact Nat.mod_lt _ (by decide)
theorem exec_detectorChallenge {p : Nat} (hreset : outOfReset s.dev = true) (harmed : s.dev.tamper.armed = true)
    (hnone : s.dev.tamper.challenge = none) (hdue : s.dev.tamper.lastChallenge + 100 * msTicks ≤ s.dev.time.ticks)
    (hp : nextPosition s.dev = some p) : exec .detectorChallenge s = .next { s with dev := challengeAt p s.dev } := by
  refine (next_doIf (by simp [hreset, harmed, hnone, hdue])).trans ?_
  rw [hp]
  rfl
theorem masked_challengeAt (p : Nat) (d : Device) : masked (p / 2) (if p % 2 = 0 then .detA else .detB) (challengeAt p d) = true := by
  simp only [masked, challengeAt, challengeOf, decide_true, Bool.true_and, Bool.and_eq_true, Nat.le_add_right, and_true]
  split <;> rfl

/-! ### Notices (17 R582, R604) -/

theorem notice_frame (n det) (d : Device) : notice n det d = { d with
    tamper := (notice n det d).tamper, events := (notice n det d).events, power := (notice n det d).power } := by
  unfold notice
  rw [wake_frame]
  rfl
/-- A Notice counts at its source and stretches ALARM_N by 10 s; the state of the source is that before. -/
theorem sourceOf_notice (n det) (d : Device) : sourceOf n (notice n det d) = { sourceOf n d with
    notices := satInc (sourceOf n d).notices, noticeSeen := true, noticeUntil := some (d.time.ticks + 10 * secTicks) } := by
  unfold notice
  rw [wake_frame]
  exact sourceOf_setSource_self n _ d
theorem notice_challenge (n det) (d : Device) : (notice n det d).tamper.challenge = d.tamper.challenge := by
  unfold notice
  rw [wake_frame]
  rfl
theorem exec_challengeEnd {c : Nat × Detector × Nat} (tripped quiet : Bool) (hreset : outOfReset s.dev = true)
    (hc : s.dev.tamper.challenge = some c) : exec (.challengeEnd tripped quiet) s = .next { s with dev := challengeEnds tripped quiet c s.dev } := by
  refine (next_doIf hreset).trans ?_
  rw [hc]
  rfl
theorem challengeEnds_of_failed {tripped quiet : Bool} (h : (tripped && quiet) = false) (c : Nat × Detector × Nat) (d : Device) :
    challengeEnds tripped quiet c d = notice c.1 c.2.1 { d with tamper := { d.tamper with challenge := none } } := by
  unfold challengeEnds
  rw [h]
  rfl

/-! ### The Night check (17 R603; 23 R719) -/

theorem exec_nightMeshCheck (hwatches : batteryWatches s.dev = true) (hn : n ≤ 4) (henabled : srcEnabled n s.dev = true)
    (hnone : ∀ l ∈ s.dev.battery.latches, ¬ (l.source = n ∧ l.night = true)) :
    exec (.nightMeshCheck n true) s = .next { s with dev := { s.dev with battery := { s.dev.battery with
      latches := s.dev.battery.latches ++ [{ source := n, seconds := s.dev.battery.opSeconds, night := true }] } } } := by
  have hany : s.dev.battery.latches.any (fun l => decide (l.source = n) && l.night) = false := by
    simpa [List.any_eq_false] using hnone
  exact next_doIf (by simp [hwatches, hn, henabled, hany])

/-- Settles O42: a challenge stands at the next position, a failed one and a mismatch raise `notice`, and the latch of a Night check is new. -/
theorem challengesAndNotices : Obligations.ChallengesAndNotices := by
  unfold Obligations.ChallengesAndNotices
  refine ⟨fun p s hreset harmed hnone hdue hp => ?_, fun c s hreset hc => ⟨exec_challengeEnd true true hreset hc, fun a b hab => ?_⟩,
    fun n det s hwatched hlow hhigh hA hB => ?_, fun n t s huntil hdue => ?_,
    fun n s hwatches hn henabled hnone => exec_nightMeshCheck hwatches hn henabled hnone⟩
  · have hexec := exec_detectorChallenge hreset harmed hnone hdue hp
    exact ⟨hexec, _, hexec, rfl, masked_challengeAt p s.dev, rfl⟩
  · refine ⟨_, (exec_challengeEnd a b hreset hc).trans (by rw [challengeEnds_of_failed hab]), notice_challenge _ _ _, ?_⟩
    rw [sourceOf_notice]
    exact ⟨rfl, rfl, rfl, notice_frame _ _ _⟩
  · refine ⟨_, next_doIf (by simp [hwatched, hlow, hhigh, hA, hB]), ?_⟩
    beta_reduce
    rw [sourceOf_notice]
    exact ⟨rfl, rfl, rfl, notice_frame _ _ _⟩
  · simp only [exec, execAlarmStretchEnd, runDev, huntil, doIf, hdue, decide_true, if_true]

/-! ### A source clears (17 R592) -/

theorem exec_detectorQuiet (hwatched : sourceWatched n s.dev = true) (htripped : (sourceOf n s.dev).state = .tripped)
    (hhigh : (if det = .detA then (sourceOf n s.dev).detA else (sourceOf n s.dev).detB) = true) :
    exec (.detectorQuiet n det) s = .next { s with dev := detectorQuiets n det s.dev } :=
  next_doIf (by simp only [hwatched, htripped, hhigh]; rfl)
theorem exec_sourceClear (hwatched : sourceWatched n s.dev = true) (hclearing : (sourceOf n s.dev).state = .clearing)
    (hdue : (sourceOf n s.dev).quietSince + secTicks ≤ s.dev.time.ticks) :
    exec (.sourceClear n) s = .next { s with dev := setSource n { sourceOf n s.dev with state := .quiet } s.dev } :=
  next_doIf (by simp [hwatched, hclearing, hdue])
theorem detectorQuiets_detA (hA : (sourceOf n d).detB = false) : detectorQuiets n .detA d = setSource n { sourceOf n d with
    detA := false, state := .clearing, quietSince := d.time.ticks } d := by
  simp [detectorQuiets, hA]
theorem sourceOf_detectorQuiets_detB (n : Nat) (d : Device) : let x := sourceOf n (detectorQuiets n .detB d)
    x.detB = false ∧ x.detA = (sourceOf n d).detA ∧
    x.state = (if (sourceOf n d).detA then (sourceOf n d).state else .clearing) := by
  rw [detectorQuiets, sourceOf_setSource_self]
  cases h : (sourceOf n d).detA <;> simp

/-- Settles O43: the second detector to go quiet begins the clearing, which 1 s ends and a trip breaks off; that this trip responds to nothing anew
is R580 and log entry 43. -/
theorem sourcesClear : Obligations.SourcesClear := by
  unfold Obligations.SourcesClear
  refine ⟨fun n s hwatched htripped hA hB => ?_, fun n s hwatched htripped hB => ?_,
    fun n s hwatched hclearing => ⟨exec_sourceClear hwatched hclearing, fun hearly => next_doIf_of_false ?_⟩, fun n det s hwatched hmask hclearing => ?_⟩
  · exact (exec_detectorQuiet (det := .detA) hwatched htripped hA).trans (by rw [detectorQuiets_detA hB])
  · obtain ⟨hdetB, hdetA, hstate⟩ := sourceOf_detectorQuiets_detB n s.dev
    rw [htripped] at hstate
    exact ⟨_, exec_detectorQuiet (det := .detB) hwatched htripped hB, hdetB, hdetA, hstate, rfl⟩
  · simp [Nat.not_le.mpr hearly]
  · have hsource := sourceOf_setSource_self n (struck det (sourceOf n s.dev)) s.dev
    exact ⟨_, exec_detectorTrip_of_active hwatched hmask (by rw [hclearing]; decide), detectorHigh_of_source hsource, by rw [hsource]; rfl, rfl⟩

end Sys2Proof.Machine
end

section
/-! SUPPORT. The recorder's port and the SMBus target (19): O46 and O47. -/

namespace Sys2Proof.Machine

variable {d : Device} {s : State} {b v : Byte} {t n : Nat}

/-! ### A held-back region's submission (19 R628; 01 R29) -/

theorem servePort_of_all_held (h : ∀ x ∈ d.events.buffers, regionHalted d x.via = true) : servePort d = d := by
  unfold servePort
  rw [List.filter_eq_nil_iff.mpr (fun x hx => by simp [h x hx])]
  rfl

/-- A Tamper submission that waits in the host region's buffer. -/
def hostSubmission : Submission := { severity := .tamper, code := 0x0101, region := .host, via := .host }
/-- A part out of reset whose halted host region has one submission in its buffer. -/
def hostHeld : Device :=
  { pins := { pwrOk := true, rstN := true, mainOn := true }, host := { halted := true }, events := { buffers := [hostSubmission] } }

/-- Refutes O46 by its first clause, which takes the submission that comes first in all the buffers: in `hostHeld` the only one waits in the
buffer of the halted host region, which the port does not serve, so no record is accepted (`servePort_of_all_held`). -/
theorem not_eventsAreAccepted : ¬ Obligations.EventsAreAccepted := by
  rintro ⟨haccept, -, -⟩
  have hexec : exec .eventAccept { dev := hostHeld } = .next { dev := hostHeld } :=
    (next_doIf (by decide)).trans (congrArg (fun d => (.next { dev := d } : Host.Outcome State Fault Refusal)) (servePort_of_all_held (d := hostHeld) (by decide)))
  obtain ⟨hseq, -⟩ := ((haccept hostSubmission { dev := hostHeld } (by decide) (by decide) (.inl rfl)).1 (.inl rfl)).of_exec hexec
  exact absurd hseq (by decide)

/-! ### A transaction resumes alerting (19 R647) -/

theorem raiseCauses_causes (b : Byte) (d : Device) : (raiseCauses b d).events.causes = d.events.causes ||| b := by
  unfold raiseCauses
  dsimp only
  split <;> rfl
theorem raiseCauses_out (b : Byte) (d : Device) : d.out <+: (raiseCauses b d).out := by
  unfold raiseCauses assertAlert
  dsimp only
  split
  · split
    · exact List.prefix_append _ _
    · exact List.prefix_rfl
  · exact List.prefix_rfl
theorem resumeAlert_causes (d : Device) : (resumeAlert d).events.causes = d.events.causes := by
  unfold resumeAlert
  split
  · exact (raiseCauses_causes _ _).trans BitVec.or_zero
  · rfl
theorem resumeAlert_out (d : Device) : d.out <+: (resumeAlert d).out := by
  unfold resumeAlert
  split
  · exact raiseCauses_out 0 { d with events := { d.events with alert := .idle } }
  · exact List.prefix_rfl
/-- Silenced with a cause set, alerting begins a new sequence. -/
theorem resumeAlert_of_silenced (h : d.events.alert = .silenced) (hc : d.events.causes ≠ 0) :
    (resumeAlert d).events.alert = .asserted d.time.ticks 0 := by
  rw [resumeAlert, if_pos h]
  unfold raiseCauses
  dsimp only
  rw [if_pos ⟨by simpa using hc, rfl⟩]
  rfl

theorem smbusTouch_frame (d : Device) : smbusTouch d = { d with events := (smbusTouch d).events, out := (smbusTouch d).out } := by
  unfold smbusTouch
  rw [resumeAlert_frame]
theorem smbusTouch_causes (d : Device) : (smbusTouch d).events.causes = d.events.causes := resumeAlert_causes _
theorem smbusTouch_out (d : Device) : d.out <+: (smbusTouch d).out := resumeAlert_out { d with events := evrCount 10 d.events }
theorem smbusTouch_ring (d : Device) : (smbusTouch d).events.ring = d.events.ring := by
  unfold smbusTouch
  rw [resumeAlert_frame]
  rfl

/-- Every block read sends the block of its command, whatever the block is. -/
theorem smbusRead_sends {c : Instr} (block : Device → Bytes) (hc : exec c s = smbusRead block s) (hreset : outOfReset s.dev = true) :
    Completes c s (fun d => (s.dev.out ++ [.smbus (block s.dev)]) <+: d.out ∧ d.events.alert ≠ .silenced ∧
      d.events.causes = s.dev.events.causes ∧ d.events.ring = s.dev.events.ring ∧ d = { s.dev with events := d.events, out := d.out }) :=
  ⟨_, hc.trans (next_doIf hreset), smbusTouch_out { s.dev with out := s.dev.out ++ [.smbus (block s.dev)] }, resumeAlert_alert_ne_silenced _, smbusTouch_causes _, smbusTouch_ring _,
    smbusTouch_frame _⟩

/-! ### Causes are cleared (19 R645) -/

theorem clearCauses_frame (v : Byte) (d : Device) : clearCauses v d = { d with events := (clearCauses v d).events } := rfl
theorem clearCauses_causes (v : Byte) (d : Device) : (clearCauses v d).events.causes = d.events.causes &&& ~~~v := rfl
theorem clearCauses_alert (h : (clearCauses v d).events.causes = 0) : (clearCauses v d).events.alert = .idle := if_pos h

theorem smbusClearAlertCause_clears (v : Byte) (hreset : outOfReset s.dev = true) : Completes (.smbusClearAlertCause v true) s (fun d =>
    d.events.causes = s.dev.events.causes &&& ~~~v ∧ (d.events.causes = 0 → d.events.alert = .idle) ∧
    d = { s.dev with events := d.events, out := d.out }) := by
  refine ⟨clearCauses v (smbusTouch s.dev), next_doIf hreset, ?_, clearCauses_alert, ?_⟩
  · rw [clearCauses_causes, smbusTouch_causes]
  · rw [clearCauses_frame, smbusTouch_frame]
theorem smbusClearAlertCause_of_bad_pec (v : Byte) (hreset : outOfReset s.dev = true) : Completes (.smbusClearAlertCause v false) s (fun d =>
    d.events.causes = s.dev.events.causes ∧ d = { s.dev with events := d.events, out := d.out }) := by
  refine ⟨{ smbusTouch s.dev with events := evrCount 11 (smbusTouch s.dev).events }, next_doIf hreset, smbusTouch_causes _, ?_⟩
  rw [smbusTouch_frame]

/-! ### The sequence of an alert (19 R646, R647) -/

/-- The recorder's state in a phase of the alert's sequence, with one alert unanswered counted. -/
def unanswered (a : AlertPhase) (e : Events) : Events := { evrCount 9 e with alert := a }

theorem exec_alertUnansweredTimeout (h : s.dev.events.alert = .asserted t n) (hdue : t + secTicks ≤ s.dev.time.ticks) (hn : n < 3) :
    exec .alertUnansweredTimeout s = .next { s with dev := { s.dev with
      events := unanswered (.backoff (s.dev.time.ticks + 2 ^ n * secTicks) (n + 1)) s.dev.events } } := by
  change execAlertUnansweredTimeout s = _
  simp only [execAlertUnansweredTimeout, runDev, h, hdue, hn, if_true]
  rfl
theorem exec_alertUnansweredTimeout_third (h : s.dev.events.alert = .asserted t n) (hdue : t + secTicks ≤ s.dev.time.ticks) (hn : 3 ≤ n) :
    exec .alertUnansweredTimeout s = .next { s with
      dev := emitC .warning 0x0B01 [s.dev.events.causes] { s.dev with events := unanswered .silenced s.dev.events } } := by
  change execAlertUnansweredTimeout s = _
  simp only [execAlertUnansweredTimeout, runDev, h, hdue, Nat.not_lt.mpr hn, if_true, if_false]
  rfl
theorem exec_alertBackoffExpiry (h : s.dev.events.alert = .backoff t n) (hdue : t ≤ s.dev.time.ticks) :
    exec .alertBackoffExpiry s = .next { s with dev := assertAlert n s.dev } := by
  change execAlertBackoffExpiry s = _
  simp only [execAlertBackoffExpiry, runDev, h, hdue, if_true]
theorem submitEvent_alert (x : Submission) (e : Events) : (submitEvent x e).alert = e.alert := by
  unfold submitEvent
  dsimp only
  split <;> split <;> rfl
theorem smbAlertLow_of_silenced {e : Events} (h : e.alert = .silenced) : smbAlertLow e = false := by
  rw [smbAlertLow, h]

/-- Settles O47: the six block reads are one lemma (`smbusRead_sends`); the sequence of an alert is followed state by state. -/
theorem smbusIsAnswered : Obligations.SmbusIsAnswered := by
  refine ⟨fun s hreset => ?_, fun v s hreset => ⟨smbusClearAlertCause_clears v hreset, smbusClearAlertCause_of_bad_pec v hreset⟩,
    fun s hreset hlow => ⟨⟨_, next_doIf (by simp [hreset, hlow]), rfl, rfl, rfl, rfl⟩, next_doIf_of_false (by simp)⟩,
    fun t n s halert => ⟨fun hreset hnotify => ?_, fun hdue hn => ?_, fun hdue hn => ?_⟩, fun t n s halert hdue => ?_,
    fun s hreset hsilenced hcauses => ?_, fun s hreset => next_doIf hreset⟩
  · exact ⟨smbusRead_sends _ rfl hreset, smbusRead_sends _ rfl hreset, smbusRead_sends _ rfl hreset, smbusRead_sends _ rfl hreset,
      smbusRead_sends _ rfl hreset, smbusRead_sends _ rfl hreset⟩
  · exact next_doIf (by simp [hreset, alertOpen, halert, hnotify])
  · exact ⟨_, exec_alertUnansweredTimeout halert hdue hn, rfl, rfl, rfl, rfl⟩
  · have hsilenced := fun x => submitEvent_alert x (unanswered .silenced s.dev.events)
    exact ⟨_, exec_alertUnansweredTimeout_third halert hdue hn, hsilenced _, smbAlertLow_of_silenced (hsilenced _), submitEvent_submitted _ _, rfl⟩
  · exact ⟨_, exec_alertBackoffExpiry halert hdue, rfl, rfl, rfl⟩
  · refine ⟨_, next_doIf hreset, resumeAlert_of_silenced hsilenced hcauses, resumeAlert_causes _, ?_⟩
    rw [resumeAlert_frame]

end Sys2Proof.Machine
end

section
/-! SUPPORT. What no job's end, grant or dispatch moves; supplies, power states and the debug gate: O44 and O45. -/

namespace Sys2Proof.Machine

variable {s : State}

/-! ### The surroundings of the jobs -/

/-- The device without what jobs work on: Gaffer, the shares and ports, the benches with the counters of their draws, the host's region, the
recorder, the flash and what has left the part. -/
def surround (d : Device) : Device :=
  { d with
    keys := { d.keys with ports := [] }, gaffer := {}, shares := {}, benches := [], gather := { d.gather with ctrs := [] }
    host := {}, events := {}, flash := {}, out := [] }

section
variable {d e : Device} (h : surround d = surround e)
include h
theorem power_of_surround : d.power = e.power := congrArg (·.power) h
theorem net_of_surround : d.net = e.net := congrArg (·.net) h
theorem custody_of_surround : d.custody = e.custody := congrArg (·.custody) h
theorem fuses_of_surround : d.fuses = e.fuses := congrArg (·.fuses) h
theorem sources_of_surround : d.gather.sources = e.gather.sources := congrArg (·.gather.sources) h
theorem keys_of_surround : d.keys = { e.keys with ports := d.keys.ports } := congrArg (fun x => { x.keys with ports := d.keys.ports }) h
end

theorem surround_of_jobless {d e : Device} (h : jobless d = jobless e) : surround d = surround e := (congrArg surround h :)
theorem surround_of_ungranted {d e : Device} (h : ungranted d = ungranted e) : surround d = surround e := (congrArg surround h :)

theorem charged_surround (g n) (d : Device) : surround (charged g n d) = surround d := (congrArg surround (charged_frame g n d) :)
theorem endGrant_surround (g park) (d : Device) : surround (endGrant g park d) = surround d :=
  (surround_of_ungranted (endGrant_ungranted g park d)).trans (charged_surround g _ d)
theorem arbitrate_surround (bench kind) (d : Device) : surround (arbitrate bench kind d) = surround d :=
  surround_of_ungranted (arbitrate_ungranted bench kind d)
theorem surround_mk {gaffer shares benches host events flash out : _} (d : Device) :
    surround { d with gaffer, shares, benches, host, events, flash, out } = surround d := rfl
theorem dropGrants_surround (job park) (d : Device) : surround (dropGrants job park d) = surround d := by
  rw [dropGrants, doEach_kept fun _ _ => arbitrate_surround _ _ _, surround_mk, doEach_kept fun _ _ => endGrant_surround _ _ _]
  rfl
theorem modJob_surround (id f) (d : Device) : surround (modJob id f d) = surround d := rfl
theorem lehCount_surround (b k) (d : Device) : surround (lehCount b k d) = surround d := rfl
theorem coreCount_surround (c k n) (d : Device) : surround (coreCount c k n d) = surround d := rfl
theorem gafCount_surround (k) (d : Device) : surround (gafCount k d) = surround d := rfl
theorem modUnit_surround (c f) (d : Device) : surround (modUnit c f d) = surround d := (congrArg surround (modUnit_frame c f d) :)
theorem freeJobCore_surround (j) (d : Device) : surround (freeJobCore j d) = surround d := by
  refine doWith_kept fun c x => ?_
  rw [freeCore, doWith_kept fun _ _ => modJob_surround _ _ _, modUnit_surround]
/-- A job's end counts its draws in its bench's block. -/
theorem settleWork_surround (retired j) (d : Device) : surround (settleWork retired j d) = surround d := by
  unfold settleWork settleDraws
  split
  · exact both_kept (view := surround) rfl rfl
  · rfl
theorem beforeDrop_surround (id j code) (d : Device) : surround (beforeDrop id j code d) = surround d := by
  rw [beforeDrop, doWith_kept fun _ _ => lehCount_surround _ _ _, doWith_kept fun _ _ => coreCount_surround _ _ _ _,
    surround_of_jobless (traceJob_jobless _ _ _ _), settleWork_surround, freeJobCore_surround, dropGrants_surround]
theorem dropJob_surround (id code) (d : Device) : surround (dropJob id code d) = surround d := by
  cases hj : jobOf id d with
  | none => simp only [dropJob, hj]
  | some j => rw [dropJob_eq code hj, surround_of_jobless (answerJob_jobless _ _ _), beforeDrop_surround]
theorem squashJob_surround (id code) (d : Device) : surround (squashJob id code d) = surround d := by
  unfold squashJob
  split
  · rfl
  · rw [dropJob_surround]
    exact ite_kept (view := surround) rfl

/-! ### Jobs are dispatched (04 R135 to R139) -/

theorem fireVector_surround (f v) (d : Device) : surround (fireVector f v d) = surround d := by
  unfold fireVector
  split <;> rfl
theorem denied_surround (f purpose write addr) (d : Device) : surround (denied f purpose write addr d) = surround d :=
  (fireVector_surround _ _ _).trans rfl
theorem decodeRead_surround (j) (d : Device) : surround (decodeRead j d).2 = surround d := by
  unfold decodeRead
  split
  · split
    · exact denied_surround _ _ _ _ d
    · rfl
  · rfl
theorem dispatchJob_surround (c j) (d : Device) : surround (dispatchJob c j d) = surround d := by
  have reset : ∀ (x : Prop) [Decidable x] (code : Code) (k : Job) (e : Device),
      surround (if x then beginReset k e else (code, e)).2 = surround e := by
    intro x _ code k e
    split
    · obtain ⟨ts, heq⟩ := beginReset_frame k e
      rw [heq, surround_mk]
    · rfl
  unfold dispatchJob
  dsimp only
  rw [doIf, ite_kept (dropJob_surround _ _ _), surround_of_jobless (traceJob_jobless _ _ _ _), gafCount_surround, modJob_surround, surround_mk,
    modUnit_surround, coreCount_surround, reset, decodeRead_surround]
theorem dispatchGo_surround (fuel) (d : Device) : surround (dispatchGo fuel d) = surround d := by
  induction fuel generalizing d with
  | zero => rfl
  | succ fuel ih =>
    unfold dispatchGo
    split
    · rfl
    · exact (ih _).trans (dispatchJob_surround _ _ d)
theorem dispatchAll_surround (d : Device) : surround (dispatchAll d) = surround d := by
  unfold dispatchAll
  split
  · exact (dispatchGo_surround _ _).trans (surround_of_jobless (expireHeads_jobless _ d))
  · rfl

/-! ### The main supplies fall (22 R699, R703) -/

theorem tearImage_journals (f : Flash) : (tearImage f).log = f.log ∧ (tearImage f).roots = f.roots ∧ (tearImage f).ceilings = f.ceilings := by
  unfold tearImage setImage setCopy
  split
  · exact ⟨rfl, rfl, rfl⟩
  · dsimp only
    split <;> split <;> exact ⟨rfl, rfl, rfl⟩
theorem mainSuppliesFall_completes (s : State) : Completes .mainSuppliesFall s (fun d => d.pins.mainOn = false ∧ outOfReset d = false ∧
    d.fuses = s.dev.fuses ∧ d.battery = s.dev.battery ∧ d.flash.log = s.dev.flash.log ∧ d.flash.roots = s.dev.flash.roots ∧
    d.flash.ceilings = s.dev.flash.ceilings ∧ d.keys = {} ∧ d.gaffer = {} ∧ d.net = {} ∧ d.custody = {} ∧ d.benches = [] ∧ d.out = s.dev.out) := by
  obtain ⟨hlog, hroots, hceilings⟩ := tearImage_journals s.dev.flash
  exact ⟨_, rfl, rfl, rfl, rfl, rfl, hlog, hroots, hceilings, rfl, rfl, rfl, rfl, rfl, rfl⟩

/-! ### Dusk is entered and left (22 R692 to R698) -/

theorem exec_duskEntry (hreset : outOfReset s.dev = true) (hstarted : started s.dev = true) (hstate : duskState s.dev = true)
    (hmode : s.dev.power.mode = .duskRequested) (hidle : partIdle s.dev = true) (hwake : s.dev.power.wakePending = false) :
    exec .duskEntry s = .next { s with dev := enterDusk s.dev } := by
  refine (next_doIf (by simp [hreset, hstarted, hstate, hmode, hidle])).trans ?_
  rw [hwake]
  rfl
/-- No heartbeat to a bench outlasts the entry to Dusk. -/
theorem heartbeats_enterDusk (d : Device) : ∀ p ∈ (enterDusk d).custody.heartbeats, isBench p.1 = false := fun p hp => by
  simpa using (List.mem_filter.mp hp).2

/-- What a wake does before it begins heartbeats and dispatches. -/
def awoken (d : Device) : Device :=
  { d with
    power := { d.power with mode := .noon }
    gather := { d.gather with sources := tabMap (fun _ x => { x with waking := x.waking || x.state == .healthy }) d.gather.sources }
    benches := tabMap (fun _ b => { b with katLast := b.katLast + (d.time.ticks - d.power.duskSince) }) d.benches }
/-- The surroundings but for the custody partition's state. -/
def uncustodied (d : Device) : Device := { surround d with custody := {} }

theorem uncustodied_of_surround {d e : Device} (h : surround d = surround e) : uncustodied d = uncustodied e :=
  congrArg (fun x => { x with custody := {} }) h
theorem wakes_uncustodied (d : Device) : uncustodied (wakes d) = uncustodied (awoken d) :=
  (uncustodied_of_surround (dispatchAll_surround _)).trans (doEach_kept (view := uncustodied) (d := awoken d) fun _ _ => rfl)
theorem waking_of_healthy {t : Tab Source} {p : Nat × Source}
    (hp : p ∈ tabMap (fun _ x => { x with waking := x.waking || x.state == .healthy }) t) (h : p.2.state = .healthy) : p.2.waking = true := by
  obtain ⟨q, -, rfl⟩ := List.mem_map.mp hp
  have hq : q.2.state = .healthy := h
  simp [hq]

/-- Settles O44: a cold device keeps the journals, and a wake moves only what `awoken` says before it dispatches (a part that is idle
for Dusk is log entry 71's, the latches lost with the battery are 44's). -/
theorem suppliesAndPowerStates : Obligations.SuppliesAndPowerStates := by
  refine ⟨⟨mainSuppliesFall_completes, fun _ _ => rfl, fun _ _ hreset => next_doIf hreset, fun _ hvbat => next_doIf hvbat, fun _ => rfl⟩,
    fun s hreset hstarted hstate hmode hidle => ?_, fun s hreset hstarted hstate hmode hidle hwake => ?_, fun s hreset hmode => ?_,
    fun s hreset hmode hjobs hwrites hflash hbuffers => ?_⟩
  · exact next_doIf (by simp [hreset, hstarted, hstate, hmode, hidle])
  · exact ⟨_, exec_duskEntry hreset hstarted hstate hmode hidle hwake, rfl, rfl, rfl, heartbeats_enterDusk _, rfl⟩
  · have hwakes := wakes_uncustodied s.dev
    refine ⟨wakes s.dev, next_doIf (by simp [hreset, hmode]), congrArg (·.power.mode) hwakes, fun p hp h => ?_, congrArg (·.fuses) hwakes,
      congrArg (fun x => { x.keys with ports := (wakes s.dev).keys.ports }) hwakes, congrArg (·.net) hwakes⟩
    exact waking_of_healthy ((congrArg (fun x : Device => x.gather.sources) hwakes) ▸ hp) h
  · exact next_doIf (by simp [hreset, hmode, hjobs, hwrites, hflash, hbuffers])

/-! ### The debug gate (22 R705, R707; 17 R600) -/

theorem setLevel_completes {c : Instr} {l : DebugLevel} (hexec : exec c s = .next { s with dev := setLevel l 0 s.dev }) :
    Completes c s (fun d => d.power.level = l ∧ d = { s.dev with power := d.power, events := d.events }) := by
  refine ⟨_, hexec, setLevel_level _ _ _, ?_⟩
  rw [setLevel_frame]
theorem exec_tapOpen (hreset : outOfReset s.dev = true) (l : Nat) : exec (.tapOpen l) s = .next { s with
    dev := if l = 2 ∧ fullMayOpen s.dev = true then setLevel .full 0 s.dev else refuseOpen l s.dev } := next_doIf hreset
/-- A burn of a disable fuse burns that of its source and no other. -/
theorem getLsbD_burnDisable {n : Nat} (hn : mayDisable n = true) (w : BitVec 16) (m : Nat) :
    (w ||| (1#16 <<< n)).getLsbD m = (w.getLsbD m || decide (m = n)) := by
  have hlt : n < 16 := by
    simp only [mayDisable, Bool.or_eq_true, Bool.and_eq_true, decide_eq_true_eq] at hn
    omega
  rw [BitVec.getLsbD_or, BitVec.getLsbD_shiftLeft, BitVec.getLsbD_one]
  by_cases hm : m = n
  · simp [hm, hlt]
  · have hzero : (decide (m < 16) && !decide (m < n) && (decide (0 < 16) && decide (m - n = 0))) = false := by
      simp only [Bool.and_eq_false_imp, Bool.and_eq_true, decide_eq_true_eq, decide_eq_false_iff_not, Bool.not_eq_true']
      omega
    rw [hzero, decide_eq_false hm]

/-- Settles O45: `setLevel` moves the level and its records alone, T15 is struck as any detector's source is, and one fuse burns (that a request
for a level other than Full is refused and counted is log entry 72). -/
theorem debugIsGated : Obligations.DebugIsGated := by
  refine ⟨fun l s hreset => ⟨fun hl hopen => ?_, fun hno => ?_⟩, fun s hreset => setLevel_completes (next_doIf hreset),
    fun s hreset hlevel hends => setLevel_completes (next_doIf (by simp [hreset, hlevel, hends])), fun s hreset harmed henabled => ?_,
    fun n s hreset hlevel hmay => ?_⟩
  · exact setLevel_completes ((exec_tapOpen hreset l).trans (by rw [if_pos ⟨hl, hopen⟩]))
  · refine (exec_tapOpen hreset l).trans ?_
    rw [if_neg (fun h => hno.elim (· h.1) (fun hclosed => by simp [hclosed] at h))]
    rfl
  · obtain ⟨hstate, hhigh⟩ := trippedBy_tripSource .detA henabled harmed
    exact ⟨_, next_doIf hreset, hhigh, hstate, tripSource_fuses _ _ _⟩
  · have hbit := getLsbD_burnDisable hmay s.dev.fuses.tamperDisable
    refine ⟨_, next_doIf (by simp [hreset, hlevel, hmay]), ?_, fun m hm => ?_, rfl⟩
    · exact (congrArg (!·) (hbit n)).trans (by simp)
    · exact (congrArg (!·) (hbit m)).trans (by simp [hm, srcEnabled])

end Sys2Proof.Machine
end

section
/-! SUPPORT. Reset, straps and start (14): O4 to O8. -/

namespace Sys2Proof.Machine

variable {d : Device} {s : State} {b : Nat}

/-! ### What a reset keeps (14 R499, R502) -/

theorem coldFlash_journals (f : Flash) :
    (coldFlash f).log = f.log ∧ (coldFlash f).roots = f.roots ∧ (coldFlash f).ceilings = f.ceilings := tearImage_journals f
theorem outOfReset_lowerPin (pin : ResetPin) (d : Device) : outOfReset (lowerPin pin d) = false := by
  cases pin <;> simp [outOfReset, lowerPin]
theorem keys_tabFill {α : Type} (n : Nat) (v : α) : (tabFill n v).map (·.1) = List.range n := by
  simp [tabFill, Function.comp_def]
theorem values_tabFill {α : Type} {n : Nat} {v : α} {p : Nat × α} (h : p ∈ tabFill n v) : p.2 = v := by
  obtain ⟨k, -, rfl⟩ := List.mem_map.mp h
  rfl

theorem cusStart_of_reset (h : d.start = {}) : cusStart d = 0 := by
  unfold cusStart
  rw [h]
  decide

/-- Settles O4: the release starts from the cold device, whose flash keeps the journals (R502 says what a reset keeps, R499 what the release
does). -/
theorem releaseOfResetBeginsAStart : Obligations.ReleaseOfResetBeginsAStart := by
  intro straps s hreset
  obtain ⟨hlog, hroots, hceilings⟩ := coldFlash_journals s.dev.flash
  exact ⟨_, next_doIf (by simp [hreset]), rfl, rfl, rfl, rfl, rfl, rfl, rfl, cusStart_of_reset rfl, rfl, rfl, rfl, hlog, hroots,
    hceilings, keys_tabFill _ _,
    fun p hp => values_tabFill hp, rfl, rfl, rfl, rfl, rfl, rfl, rfl, rfl, rfl, rfl, rfl⟩

/-- Settles O5: the cold device with one input low (14 R502). -/
theorem resetAssertedKeepsOnlyFusesBatteryAndFlash : Obligations.ResetAssertedKeepsOnlyFusesBatteryAndFlash := by
  intro pin s
  obtain ⟨hlog, hroots, hceilings⟩ := coldFlash_journals s.dev.flash
  exact ⟨_, rfl, outOfReset_lowerPin _ _, rfl, rfl, rfl, rfl, rfl, rfl, hlog, hroots, hceilings, rfl, rfl, rfl, rfl, rfl, rfl, rfl, rfl, rfl,
    rfl, rfl, rfl⟩

/-! ### Start stops (14 R517, R518) -/

theorem startEntry_eq (kind subject unit detail) (d : Device) : startEntry kind subject unit detail d =
    { d with start := { d.start with
      trace := (startEntry kind subject unit detail d).start.trace, traceFull := (startEntry kind subject unit detail d).start.traceFull } } := by
  unfold startEntry
  dsimp only
  split
  · rfl
  · split <;> rfl
theorem stopStart_frame (cause : Nat) (d : Device) : stopStart cause d = { d with
    start := (stopStart cause d).start, events := (stopStart cause d).events, host := (stopStart cause d).host
    pins := { d.pins with pfAnswer := (stopStart cause d).pins.pfAnswer }, out := (stopStart cause d).out } := by
  unfold stopStart
  dsimp only
  rw [raiseCauses_frame]
  rfl
/-- A stop notes its cause and the moment beside the trace entry. -/
theorem stopStart_start (cause : Nat) (d : Device) : (stopStart cause d).start = { d.start with
    stopped := true, cause := BitVec.ofNat 8 cause, time := watch d, trace := (stopStart cause d).start.trace
    traceFull := (stopStart cause d).start.traceFull } := by
  unfold stopStart
  dsimp only
  rw [raiseCauses_frame, startEntry_eq]
  rfl
theorem alarmLow_of_stopped (hreset : outOfReset d = true) (hstopped : d.start.stopped = true) : alarmLow d = true := by
  simp [alarmLow, hreset, hstopped]
theorem outOfReset_stopStart (cause : Nat) (d : Device) : outOfReset (stopStart cause d) = outOfReset d := by
  unfold outOfReset
  rw [stopStart_frame]
theorem outOfReset_of_starting (h : starting d = true) : outOfReset d = true := by
  simp only [starting, Bool.and_eq_true] at h
  exact h.1.1
theorem done_of_starting (h : starting d = true) : d.start.done = false := by
  simp only [starting, Bool.and_eq_true, Bool.not_eq_true'] at h
  exact h.1.2
/-- A row that stops start with a cause, from a state that was in start or is out of reset. -/
theorem stopStart_completes {c : Instr} {cause : Nat} (hexec : exec c s = .next { s with dev := stopStart cause d })
    (hreset : outOfReset d = true) (hfuses : d.fuses = s.dev.fuses) (hbattery : d.battery = s.dev.battery) :
    Completes c s (fun e => e.start.stopped = true ∧ e.start.cause = BitVec.ofNat 8 cause ∧ e.fuses = s.dev.fuses ∧
      e.battery = s.dev.battery ∧ alarmLow e = true) := by
  have hstopped : (stopStart cause d).start.stopped = true := by rw [stopStart_start]
  refine ⟨_, hexec, hstopped, by rw [stopStart_start], ?_, ?_, alarmLow_of_stopped ((outOfReset_stopStart _ _).trans hreset) hstopped⟩
  · rw [stopStart_frame]
    exact hfuses
  · rw [stopStart_frame]
    exact hbattery

/-! ### The custody phase begins (14 R501, R503) -/

/-- The count and the phase as the custody phase begins. -/
def custodyBegun (d : Device) : Device :=
  { d with
    battery := { d.battery with cycles := satInc d.battery.cycles }
    start := { d.start with phase := 1, phaseSince := d.time.ticks } }

theorem beginCustody_eq (d : Device) : beginCustody d =
    if reservedStrap d then stopStart 0x0A (custodyBegun d) else beginHeartbeat .keyStore (custodyBegun d) := rfl
theorem exec_startPhaseEnd_of_zero (found : PhaseFindings) (hstarting : starting s.dev = true) (hphase : s.dev.start.phase = 0)
    (hpaused : startPaused s.dev = false) : exec (.startPhaseEnd found) s = .next { s with dev := beginCustody s.dev } := by
  refine (next_doIf (by simp [hstarting, hpaused, phaseReady, pastBound, hphase])).trans ?_
  rw [endPhase, if_pos hphase]
theorem strapBits_eq_iff (d : Device) (lo : Nat) : strapBits d lo 2 = 3 ↔ d.pins.strapSampled.extractLsb' lo 2 = 3 := by
  rw [← BitVec.toNat_inj, BitVec.extractLsb'_toNat, Nat.shiftRight_eq_div_pow]
  rfl

theorem satInc_eq {w : Nat} (v : BitVec w) : satInc v = if v = BitVec.allOnes w then BitVec.allOnes w else v + 1 := by
  unfold satInc
  split
  case isTrue h => exact h
  case isFalse => rfl

/-- Settles O6: both outcomes of the beginning of the custody phase keep `custodyBegun`'s count. -/
theorem custodyPhaseCountsThePowerCycle : Obligations.CustodyPhaseCountsThePowerCycle := by
  intro found s hstarting hphase hpaused
  refine ⟨_, exec_startPhaseEnd_of_zero found hstarting hphase hpaused, ?_⟩
  rw [beginCustody_eq]
  split
  · rw [stopStart_frame, stopStart_start]
    exact ⟨satInc_eq _, rfl, rfl, rfl, rfl, rfl⟩
  · exact ⟨satInc_eq _, rfl, rfl, rfl, rfl, rfl⟩

/-- Settles O7: a reserved strap takes the stopping branch, at the beginning of the custody phase (log entry 48). -/
theorem reservedStrapStopsStart : Obligations.ReservedStrapStopsStart := by
  intro found s hstarting hphase hpaused hstraps
  have hreserved : reservedStrap s.dev = true := by
    simpa only [reservedStrap, Bool.or_eq_true, decide_eq_true_eq, strapBits_eq_iff] using hstraps
  have hexec := exec_startPhaseEnd_of_zero found hstarting hphase hpaused
  rw [beginCustody_eq, if_pos hreserved] at hexec
  have hstopped : (stopStart 0x0A (custodyBegun s.dev)).start.stopped = true := by rw [stopStart_start]
  refine ⟨_, hexec, hstopped, by rw [stopStart_start]; rfl, ?_, alarmLow_of_stopped ?_ hstopped, by simp [starting, hstopped]⟩
  · rw [stopStart_start]
    exact done_of_starting hstarting
  · exact (outOfReset_stopStart _ _).trans (outOfReset_of_starting hstarting)

/-! ### Straps and PERST_N change (14 R500, R502, R514) -/

theorem drainEvery_frame (d : Device) :
    drainEvery d = { d with host := (drainEvery d).host, gaffer := (drainEvery d).gaffer, benches := (drainEvery d).benches } := by
  have hkept : ∀ f x, (fun y : Device => { y with host := {}, gaffer := {}, benches := [] }) (startDrain true f x) =
      { x with host := {}, gaffer := {}, benches := [] } := by
    intro f x
    dsimp only
    rw [startDrain_frame]
  exact congrArg (fun x => { x with host := (drainEvery d).host, gaffer := (drainEvery d).gaffer, benches := (drainEvery d).benches })
    (doEach_kept (view := fun y : Device => { y with host := {}, gaffer := {}, benches := [] }) (d := d) hkept)

theorem strapChanged_completes (live : BitVec 12) (s : State) : Completes (.strapChanged live) s (fun d =>
    d.pins.strapLive = live ∧ d.pins.strapSampled = s.dev.pins.strapSampled ∧
    (outOfReset s.dev = true → live ≠ s.dev.pins.strapSampled → d.pins.strapChanged = true) ∧
    d.fuses = s.dev.fuses ∧ d.battery = s.dev.battery ∧ d.gaffer = s.dev.gaffer ∧ d.keys = s.dev.keys) := by
  refine ⟨_, rfl, ?_⟩
  dsimp only [doIf]
  split
  · exact ⟨rfl, rfl, fun _ _ => rfl, rfl, rfl, rfl, rfl⟩
  case isFalse hno =>
    refine ⟨rfl, rfl, fun hreset hne => ?_, rfl, rfl, rfl, rfl⟩
    simpa [hreset, hne] using hno
theorem perstNAsserted_completes (s : State) : Completes .perstNAsserted s (fun d =>
    d.pins.perstN = false ∧ d.pins.pfAnswer = .silent ∧ d.net = s.dev.net ∧ d.fuses = s.dev.fuses ∧ d.battery = s.dev.battery ∧
    d.keys = s.dev.keys) := by
  refine ⟨_, rfl, ?_⟩
  dsimp only [doIf]
  split
  · rw [drainEvery_frame]
    exact ⟨rfl, rfl, rfl, rfl, rfl, rfl⟩
  · exact ⟨rfl, rfl, rfl, rfl, rfl, rfl⟩
theorem boundExceeded_stops (h1 : d.start.phase ≠ 6) (h2 : d.start.phase ≠ 9) : boundExceeded d = stopStart 0x09 d := by
  unfold boundExceeded
  split
  · contradiction
  · contradiction
  · rfl

/-! ### A bench reports at roll-call (14 R508, R509) -/

/-- Of the device what the tests of a bench's units leave as it is. -/
def rolled (b : Nat) (d : Device) : Bool × Bool × List Nat × Fuses × Battery × KeyStore :=
  ((benchOf b d).inService, (benchOf b d).lehr.ready, d.start.reported, d.fuses, d.battery, d.keys)

theorem rolled_modBench {f : Bench → Bench} (hservice : ∀ x, (f x).inService = x.inService) (hlehr : ∀ x, (f x).lehr = x.lehr)
    (c : Nat) (d : Device) : rolled b (modBench c f d) = rolled b d := by
  have hview : ((benchOf b (modBench c f d)).inService, (benchOf b (modBench c f d)).lehr.ready) =
      ((benchOf b d).inService, (benchOf b d).lehr.ready) := by
    obtain h | h := benchOf_modBench b c f d
    · rw [h]
    · rw [h, hservice, hlehr]
  exact congrArg (fun x => (x.1, x.2, d.start.reported, d.fuses, d.battery, d.keys)) hview
theorem modEngineBlock_inService (k : EngineKind) (f : EngineBlock → EngineBlock) (x : Bench) : (modEngineBlock k f x).inService = x.inService := by
  cases k <;> rfl
theorem rolled_modEngineBlock (c : Nat) (k : EngineKind) (f : EngineBlock → EngineBlock) (d : Device) :
    rolled b (modBench c (modEngineBlock k f) d) = rolled b d :=
  rolled_modBench (modEngineBlock_inService k f) (modEngineBlock_lehr k f) c d
theorem rolled_modCore (c : CoreRef) (f : Core → Core) (d : Device) : rolled b (modCore c f d) = rolled b d := by
  refine rolled_modBench ?_ ?_ _ d
  · exact fun _ => rfl
  · exact fun _ => rfl
theorem rolled_mk {custody gaffer gather events : _} (d : Device) : rolled b { d with custody, gaffer, gather, events } = rolled b d := rfl
theorem rolled_emitVia (via sev code region unit tenant detail) (d : Device) :
    rolled b (emitVia via sev code region unit tenant detail d) = rolled b d := rfl
theorem rolled_openWindow (w : TraceWindow) (d : Device) : rolled b (openWindow w d) = rolled b d := rfl
theorem rolled_noteRetired (c : Nat) (unit : Byte) (detail : BitVec 16) (d : Device) : rolled b (noteRetired c unit detail d) = rolled b d := by
  have hentry : rolled b (startEntry 0x03 (BitVec.ofNat 8 c) unit detail d) = rolled b d := by rw [startEntry_eq]; rfl
  exact Eq.trans rfl hentry
theorem rolled_rollCore (c : Nat) (failed : List Nat) (n : Nat) (d : Device) : rolled b (rollCore c failed n d) = rolled b d := by
  unfold rollCore
  dsimp only
  split
  · rw [rolled_emitVia, rolled_openWindow, rolled_noteRetired, rolled_mk, rolled_modCore]
  · exact rolled_modCore _ _ d
theorem rolled_rollEngine (c : Nat) (k : EngineKind) (failed : List Nat) (n : Nat) (d : Device) :
    rolled b (rollEngine c k failed n d) = rolled b d := by
  have htested : ∀ f, rolled b (modEngine c k n f (engineCount c k n (testRunNo k) d)) = rolled b d := fun f =>
    (rolled_modEngineBlock _ _ _ _).trans (rolled_modEngineBlock _ _ _ d)
  unfold rollEngine
  dsimp only
  split
  · rw [rolled_emitVia, rolled_openWindow, rolled_noteRetired, engineCount, engineAdd, rolled_modEngineBlock, htested]
  · exact htested _
/-- Once the bench is in service, the tests of its units, its generator's seed and its heartbeat keep what `rolled` shows. -/
theorem rolled_benchEnters (c : Nat) (r : RollCall) (d : Device) : rolled b (benchEnters c r d) =
    rolled b (modBench c (fun x => { x with inService := true, lehr := { x.lehr with ready := true }, katLast := d.time.ticks }) d) := by
  have hbeat : ∀ (x : Device), rolled b (beginHeartbeat (.bench c) x) = rolled b x := fun _ => rfl
  unfold benchEnters
  dsimp only
  rw [hbeat, rolled_mk, rolled_mk, doEach_kept (rolled_rollEngine c .punty _), doEach_kept (rolled_rollEngine c .cipher _), doEach_kept (rolled_rollEngine c .marver _),
    doEach_kept (rolled_rollCore c _)]
theorem exec_rollCallReport (r : RollCall) (hstarting : starting s.dev = true) (hphase : s.dev.start.phase = 6)
    (hpresent : (tabGet b s.dev.benches).isSome = true) (hfenced : (benchOf b s.dev).fenced = false)
    (hfirst : s.dev.start.reported.contains b = false) : exec (.rollCallReport b r) s = .next { s with dev := takeReport b r s.dev } :=
  next_doIf (by simp only [hstarting, hphase, hpresent, hfenced, hfirst]; rfl)
/-- The device once a bench's report has been noted. -/
def reporting (b : Nat) (d : Device) : Device := { d with start := { d.start with reported := d.start.reported ++ [b] } }
theorem takeReport_of_passed {r : RollCall} (hdigest : r.digestOk = true)
    (hcores : (List.range 16).all (coreFails (izvi d) r.failedCores) = false) : takeReport b r d = benchEnters b r (reporting b d) := by
  have hizvi : izvi (reporting b d) = izvi d := rfl
  change (if !r.digestOk || (List.range 16).all (coreFails (izvi (reporting b d)) r.failedCores) then _ else _) = _
  rw [hdigest, hizvi, hcores]
  rfl

theorem rollCallReport_completes (r : RollCall) (hstarting : starting s.dev = true) (hphase : s.dev.start.phase = 6)
    (hpresent : (tabGet b s.dev.benches).isSome = true) (hfenced : (benchOf b s.dev).fenced = false)
    (hfirst : s.dev.start.reported.contains b = false) (hdigest : r.digestOk = true)
    (hcores : (List.range 16).all (coreFails (izvi s.dev) r.failedCores) = false) :
    Completes (.rollCallReport b r) s (fun d => (benchOf b d).inService = true ∧ (benchOf b d).lehr.ready = true ∧
      b ∈ d.start.reported ∧ d.fuses = s.dev.fuses ∧ d.battery = s.dev.battery ∧ d.keys = s.dev.keys) := by
  have hexec := exec_rollCallReport r hstarting hphase hpresent hfenced hfirst
  rw [takeReport_of_passed hdigest hcores] at hexec
  have hrolled := rolled_benchEnters (b := b) b r (reporting b s.dev)
  rw [rolled, rolled, benchOf_modBench_self _ (d := reporting b s.dev) hpresent] at hrolled
  simp only [Prod.mk.injEq] at hrolled
  obtain ⟨hservice, hready, hreported, hfuses, hbattery, hkeys⟩ := hrolled
  exact ⟨_, hexec, hservice, hready, hreported ▸ List.mem_append_right _ (List.mem_singleton_self b), hfuses, hbattery, hkeys⟩

/-- Settles O8: each event's row by its own lemma; a stop of start says its cause once (`stopStart_completes`), and what a report leaves is what
the tests of the units keep (`rolled_benchEnters`). -/
theorem startEventsTakeEffect : Obligations.StartEventsTakeEffect := by
  refine ⟨strapChanged_completes, perstNAsserted_completes, fun s hlow hreset => ?_, fun s hreset hstarted hperst hretry => ?_,
    fun s hstarting hphase hmarks hdue => ?_, fun s hstarting hphase h6 h9 hexcursion hbreach hpast => ?_,
    fun b r s hstarting hphase hpresent hfenced hfirst hdigest hcores => ?_⟩
  · change execPerstNDeasserted s = _
    simp [execPerstNDeasserted, runDev, hlow, hreset]
  · exact next_doIf (by simp [hreset, hstarted, hperst, hretry])
  · obtain ⟨e, hexec, hstopped, hcause, hfuses, hbattery, halarm⟩ := stopStart_completes (c := .crystalStartTimeout) (s := s)
      (next_doIf (by simp [hstarting, hphase, hmarks, hdue])) (outOfReset_of_starting hstarting) rfl rfl
    exact ⟨e, hexec, hstopped, hcause, hfuses, hbattery, halarm⟩
  · obtain ⟨e, hexec, hstopped, hcause, hfuses, hbattery, halarm⟩ := stopStart_completes (c := .startPhaseBoundExceeded) (s := s)
      ((next_doIf (by simp [hstarting, pastBound, hphase, hexcursion, hbreach, hpast])).trans (by rw [boundExceeded_stops h6 h9]))
      (outOfReset_of_starting hstarting) rfl rfl
    exact ⟨e, hexec, hstopped, hcause, hfuses, hbattery, halarm⟩
  · exact rollCallReport_completes r hstarting hphase hpresent hfenced hfirst hdigest hcores

end Sys2Proof.Machine
end

section
/-! SUPPORT. Frame numbers and the reception of traffic frames (13 R464, R476, R482): O16. -/

namespace Sys2Proof.Machine

variable {d e : Device} {s : State} {x : Session} {i j k n : Nat} {isB : Bool} {f : Frame} {ks : Bytes} {type : Byte}

/-! ### The window of numbers (13 R476) -/

theorem admits_iff : admits x n = true ↔ x.high < n ∨ (1 ≤ n ∧ n < x.high ∧ x.high ≤ n + 1024 ∧ n ∉ x.seen) := by
  simp only [admits, Bool.or_eq_true, Bool.and_eq_true, decide_eq_true_eq, Bool.not_eq_true', List.contains_eq_mem, decide_eq_false_iff_not]
  tauto
theorem repeated_iff : repeated x n = true ↔ (n = x.high ∧ 1 ≤ n) ∨ n ∈ x.seen := by
  simp only [repeated, Bool.or_eq_true, Bool.and_eq_true, decide_eq_true_eq, List.contains_eq_mem]
theorem high_admitSeq (x : Session) (n : Nat) : (admitSeq n x).high = max x.high n := rfl
/-- The window after a number holds the numbers before it, the old highest and the number itself, so far as they lie in the new window. -/
theorem mem_seen_admitSeq : k ∈ (admitSeq n x).seen ↔
    (k ∈ x.seen ∨ (x.high ≠ 0 ∧ k = x.high) ∨ (n < x.high ∧ k = n)) ∧ k ≠ max x.high n ∧ max x.high n ≤ k + 1024 := by
  have hold : k ∈ (if x.high = 0 then x.seen else x.high :: x.seen) ↔ k ∈ x.seen ∨ (x.high ≠ 0 ∧ k = x.high) := by
    split <;> simp_all [or_comm]
  have hnew : k ∈ (if n < x.high then [n] else []) ↔ n < x.high ∧ k = n := by split <;> simp_all
  simp only [admitSeq, List.mem_eraseDups, List.mem_filter, List.mem_append, hold, hnew, Bool.and_eq_true, decide_eq_true_eq, or_assoc]
theorem not_admits_admitSeq (h : admits x n = true) : admits (admitSeq n x) n = false ∧ repeated (admitSeq n x) n = true := by
  rw [← Bool.not_eq_true, admits_iff, repeated_iff, high_admitSeq, mem_seen_admitSeq]
  rw [admits_iff] at h
  omega
theorem not_admits_of_repeated (n : Nat) (hk : repeated x k = true) (hle : k ≤ x.high) : admits (admitSeq n x) k = false := by
  rw [← Bool.not_eq_true, admits_iff, high_admitSeq, mem_seen_admitSeq]
  rw [repeated_iff] at hk
  by_cases hseen : k ∈ x.seen
  · simp only [hseen, true_or, true_and]
    omega
  · simp only [hseen, or_false, false_or] at hk ⊢
    omega

/-! ### The session table's entries (13 R487, R488) -/

theorem sessionOf_setSession (i j : Nat) (y : Session) (d : Device) : sessionOf j (setSession i y d) = if i = j then y else sessionOf j d :=
  tabGetD_tabSet _ _ _ _ _
@[simp] theorem sessionOf_setSession_self (i : Nat) (y : Session) (d : Device) : sessionOf i (setSession i y d) = y := by
  rw [sessionOf_setSession, if_pos rfl]
theorem sessionOf_setSession_of_ne (h : i ≠ j) (y : Session) (d : Device) : sessionOf j (setSession i y d) = sessionOf j d := by
  rw [sessionOf_setSession, if_neg h]
theorem sessionOf_modPath (i : Nat) (isB : Bool) (g : NetPath → NetPath) (d : Device) : sessionOf i (modPath isB g d) = sessionOf i d := rfl
theorem sessionOf_netCount (i : Nat) (isB : Bool) (k : Nat) (d : Device) : sessionOf i (netCount isB k d) = sessionOf i d := rfl

/-! ### A traffic frame comes in (13 R464, R476) -/

theorem receive_of_hears {handle : Device → Device} (h : htlHears type isB f d) (htype : hostType type = true) :
    receive type isB f handle d = handle (netCount isB 0 d) := by
  obtain ⟨hhears, honline, hlink, hon, hversion, hft, hcheck⟩ := h
  have hpath : ∀ {β : Type} (view : NetPath → β), (∀ p c, view { p with ctr := c } = view p) →
      view (pathOf isB (netCount isB 0 d)) = view (pathOf isB d) := by
    intro β view hview
    rw [netCount, pathOf_modPath_self]
    exact hview _ _
  have hlinked : linkOk isB f (netCount isB 0 d) = true := by
    rw [← hlink]
    exact hpath (fun p => decide (f.link.destMac = p.addr.mac) && vlanOk p f.link && !f.link.fragmentOrOptions && checksumOk f &&
      ownAddress p f.link.source.ipv6 f.link.destIp && decide (f.link.destPort = d.net.htlPort)) (fun _ _ => rfl)
  have honline' : (pathOf isB (netCount isB 0 d)).offline = false := (hpath NetPath.offline fun _ _ => rfl).trans honline
  have hon' : htlOn (netCount isB 0 d) = true := hon
  simp [receive, hhears, hversion, hft, htype, hlinked, honline', hon', hcheck]
/-- What a lookup of the frame's session or key reads is as before the frame was counted. -/
theorem traffic_of_authentic {use : Nat → Bytes → Device → Device} (h : htlAuthentic type isB f x ks d) (htype : hostType type = true) :
    traffic type isB f use d = admitFrame isB (sessionIndex f) f use (framePlain ks f) (htlCrossed isB f x d) := by
  obtain ⟨hhears, hnamed, hkey, hok, hroom, hhalted⟩ := h
  have hnamed' : namedSession f (netCount isB 0 d) = some x := hnamed
  have hkey' : keyFor (netCount isB 0 d) (sessionIndex f) x true f.header.epoch = some ks := hkey
  have hingress : ∀ e, (pathOf isB (crossBridge isB f.link.crossed (setSession (sessionIndex f) e (netCount isB 0 d)))).ingress =
      (pathOf isB d).ingress - f.link.crossed := fun _ => by cases isB <;> rfl
  have hdepth : bridgeDepth .ingress = 512 := rfl
  have hfits : ¬ bridgeDepth .ingress ≤ (pathOf isB d).ingress - f.link.crossed := by omega
  rw [traffic, receive_of_hears hhears htype]
  simp only [hnamed', hkey', hok, Bool.not_true, Bool.false_eq_true, if_false, hingress, if_neg hfits]
  exact (if_neg fun hh => Bool.false_ne_true (hhalted.symm.trans hh)).trans rfl

/-- A traffic frame's row hands an authentic frame to the admission stage. -/
theorem exec_traffic {c : Instr} {use : Nat → Bytes → Device → Device} (hc : exec c s = .next { s with dev := traffic type isB f use s.dev })
    (h : htlAuthentic type isB f x ks s.dev) (htype : hostType type = true) :
    exec c s = .next { s with dev := admitFrame isB (sessionIndex f) f use (framePlain ks f) (htlCrossed isB f x s.dev) } := by
  rw [hc, traffic_of_authentic h htype]

theorem sessionOf_htlCrossed (isB f x) (d : Device) :
    sessionOf (sessionIndex f) (htlCrossed isB f x d) = { learn isB f.link.source x with lastFrame := d.time.ticks } :=
  sessionOf_setSession_self _ _ _
theorem admits_noted (isB f x t n) : admits { learn isB f x with lastFrame := t } n = admits x n := rfl
theorem repeated_noted (isB f x t n) : repeated { learn isB f x with lastFrame := t } n = repeated x n := rfl

/-- A copy of a number that has been admitted is counted as a twin, any other number that is not admitted as stale. -/
theorem admitFrame_of_not_admitted {use : Nat → Bytes → Device → Device} {m : Bytes} (h : admits (sessionOf i d) f.header.seq.toNat = false) :
    admitFrame isB i f use m d = countRepeat isB (repeated (sessionOf i d) f.header.seq.toNat) d := by
  simp [admitFrame, h]
theorem admitFrame_of_closing {use : Nat → Bytes → Device → Device} {m : Bytes} (h : admits (sessionOf i d) f.header.seq.toNat = true)
    (hclosing : (sessionOf i d).state = .closing) : admitFrame isB i f use m d = netCount isB 4 d := by
  simp [admitFrame, h, hclosing]
theorem admitFrame_of_admitted {use : Nat → Bytes → Device → Device} {m : Bytes} (h : admits (sessionOf i d) f.header.seq.toNat = true)
    (hopen : (sessionOf i d).state ≠ .closing) : admitFrame isB i f use m d = use i m (admitOnce i f d) := by
  simp [admitFrame, h, hopen]

/-- Settles O16: the first four clauses are about the window alone, the last goes through `traffic_of_authentic` (a frame after CLOSE counts as
stale by log entry 68). -/
theorem aNumberIsAdmittedOnce : Obligations.ANumberIsAdmittedOnce := by
  refine ⟨fun _ _ => admits_iff, high_admitSeq, fun _ _ => not_admits_admitSeq, fun _ n _ _ => not_admits_of_repeated n, fun isB f x ks s h => ?_⟩
  have hexec := exec_traffic (c := .htlRequest isB f) rfl h rfl
  have hsession := sessionOf_htlCrossed isB f x s.dev
  refine ⟨fun hrep hnot => hexec.trans ?_, fun hrep hnot => hexec.trans ?_, fun hadmits hclosing => hexec.trans ?_⟩
  · rw [admitFrame_of_not_admitted (by rw [hsession, admits_noted, hnot]), hsession, repeated_noted, hrep]
    rfl
  · rw [admitFrame_of_not_admitted (by rw [hsession, admits_noted, hnot]), hsession, repeated_noted, hrep]
    rfl
  · rw [admitFrame_of_closing (by rw [hsession, admits_noted, hadmits]) (by rw [hsession]; exact hclosing)]

end Sys2Proof.Machine
end

section
/-! SUPPORT. Writes of the session table, clear frames, timers, links and authority (13): O13. -/

namespace Sys2Proof.Machine

variable {d e : Device} {s : State} {x : Session} {i j k n : Nat} {isB : Bool} {g : Session → Session}

/-! ### A write of an entry (13 R488) -/

/-- The table has accepted a write under the claim of the path that holds authority. -/
def claimed (d : Device) : Device := { d with net := { d.net with highClaim := (pathOf (authorityB d.net) d).claim } }

theorem pathWrite_of_takes (h : tableTakes d) : pathWrite i g d = setSession i (g (sessionOf i d)) (claimed d) := if_pos h
theorem pathWrite_of_refused (h : ¬ tableTakes d) : pathWrite i g d = netCount (authorityB d.net) 6 d := if_neg h
theorem pathWrite_frame (i : Nat) (g : Session → Session) (d : Device) : pathWrite i g d = { d with net := (pathWrite i g d).net } := by
  unfold pathWrite tableWrite
  split <;> rfl
theorem sessionOf_pathWrite_self (h : tableTakes d) (i : Nat) (g : Session → Session) : sessionOf i (pathWrite i g d) = g (sessionOf i d) := by
  rw [pathWrite_of_takes h, sessionOf_setSession_self]
/-- A refused write leaves the other entries too. -/
theorem sessionOf_pathWrite_of_ne (h : i ≠ j) (g : Session → Session) (d : Device) : sessionOf j (pathWrite i g d) = sessionOf j d := by
  by_cases ht : tableTakes d
  · rw [pathWrite_of_takes ht, sessionOf_setSession_of_ne h]
    rfl
  · rw [pathWrite_of_refused ht]
    rfl

/-! ### What a clear frame leaves as it is (13 R471, R479) -/

/-- The device without what leaves it, and of the paths the claims alone. -/
def tabled (d : Device) : Device := { d with net := { d.net with a := { claim := d.net.a.claim }, b := { claim := d.net.b.claim } }, out := [] }

section
variable (h : tabled d = tabled e)
include h
theorem sessionOf_of_tabled (i : Nat) : sessionOf i d = sessionOf i e := (congrArg (sessionOf i) h :)
theorem authorityB_of_tabled : authorityB d.net = authorityB e.net := (congrArg (fun x => authorityB x.net) h :)
theorem tableTakes_of_tabled : tableTakes d ↔ tableTakes e := by
  have hclaim : ∀ x, (pathOf (authorityB (tabled x).net) (tabled x)).claim = (pathOf (authorityB x.net) x).claim := fun x => by
    change (pathOf (authorityB x.net) (tabled x)).claim = _
    cases authorityB x.net <;> rfl
  have hhigh : d.net.highClaim = e.net.highClaim := congrArg (fun x => x.net.highClaim) h
  rw [tableTakes, tableTakes, ← hclaim d, ← hclaim e, hhigh, h]
theorem frame_of_tabled : d = { e with net := d.net, out := d.out } := congrArg (fun x => { x with net := d.net, out := d.out }) h
end

theorem tabled_modPath {p : NetPath → NetPath} (hp : ∀ x, (p x).claim = x.claim) (isB : Bool) (d : Device) :
    tabled (modPath isB p d) = tabled d := by
  cases isB <;> simp [tabled, modPath, hp]
theorem tabled_netCount (isB : Bool) (k : Nat) (d : Device) : tabled (netCount isB k d) = tabled d := by
  refine tabled_modPath ?_ isB d
  exact fun _ => rfl
theorem tabled_mk {out : _} (d : Device) : tabled { d with out } = tabled d := rfl
theorem tabled_sendClear (isB dest h payload) (d : Device) : tabled (sendClear isB dest h payload d) = tabled d := by
  unfold sendClear
  dsimp only
  split
  · rfl
  · split
    · split
      · rw [tabled_mk, tabled_netCount]
      · exact tabled_netCount _ _ d
    · exact tabled_netCount _ _ d
theorem tabled_sendAbort (isB dest session nonce reason) (d : Device) : tabled (sendAbort isB dest session nonce reason d) = tabled d := by
  unfold sendAbort
  dsimp only
  split <;> simp only [tabled_netCount, tabled_sendClear]
theorem tabled_sendMessage (type session a b m) (d : Device) : tabled (sendMessage type session a b m d) = tabled d :=
  doEach_kept (view := tabled) fun _ _ => by simp only [tabled_sendClear]

/-- What an abort sends before it frees the index. -/
def aborted (i : Nat) (reason : Byte) (d : Device) : Device :=
  let s := sessionOf i d
  let d := { d with net := noteRefused s.nonce reason d.net }
  let d := if s.helloA.isSome then sendAbort false (s.remoteA.or s.helloA) (sessionId i s) s.nonce reason d else d
  if s.helloB.isSome then sendAbort true (s.remoteB.or s.helloB) (sessionId i s) s.nonce reason d else d

theorem abortSession_eq (i : Nat) (reason : Byte) (d : Device) : abortSession i reason d = freeSession i (aborted i reason d) := rfl
theorem tabled_aborted (i : Nat) (reason : Byte) (d : Device) :
    tabled (aborted i reason d) = tabled { d with net := noteRefused (sessionOf i d).nonce reason d.net } := by
  unfold aborted
  dsimp only
  rw [ite_kept (tabled_sendAbort _ _ _ _ _ _), ite_kept (tabled_sendAbort _ _ _ _ _ _)]
/-- An abort frees its index, and leaves the other entries. -/
theorem abortSession_frees (h : tableTakes d) (i : Nat) (reason : Byte) :
    sessionOf i (abortSession i reason d) = { gen := (sessionOf i d).gen + 1 } ∧
    (∀ j, j ≠ i → sessionOf j (abortSession i reason d) = sessionOf j d) ∧
    abortSession i reason d = { d with net := (abortSession i reason d).net, out := (abortSession i reason d).out } := by
  have htabled := tabled_aborted i reason d
  rw [abortSession_eq]
  refine ⟨?_, fun j hj => ?_, ?_⟩
  · rw [freeSession, sessionOf_pathWrite_self ((tableTakes_of_tabled htabled).mpr h), sessionOf_of_tabled htabled]
    rfl
  · rw [freeSession, sessionOf_pathWrite_of_ne hj.symm, sessionOf_of_tabled htabled]
    rfl
  · rw [freeSession, pathWrite_frame, frame_of_tabled htabled]

/-! ### Timers of a session (13 R471, R481, R483, R485) -/

theorem freeSession_completes {c : Instr} (hexec : exec c s = .next { s with dev := freeSession i s.dev }) (h : tableTakes s.dev) :
    Completes c s (fun d => sessionOf i d = { gen := (sessionOf i s.dev).gen + 1 } ∧ (∀ j, j ≠ i → sessionOf j d = sessionOf j s.dev) ∧
      d = { s.dev with net := d.net }) :=
  ⟨_, hexec, sessionOf_pathWrite_self h _ _, fun _ hj => sessionOf_pathWrite_of_ne hj.symm _ _, pathWrite_frame _ _ _⟩
theorem exec_rekeyWindowEnd {t : Nat} (hat : (sessionOf i s.dev).rekeyAt = some t) (hdue : t + 2 * secTicks ≤ s.dev.time.ticks) :
    exec (.rekeyWindowEnd i) s = .next { s with dev := pathWrite i (settleEpoch (sessionOf i s.dev).epoch) s.dev } := by
  change execRekeyWindowEnd i s = _
  simp only [execRekeyWindowEnd, runDev, hat, hdue, if_true]
/-- In its own epoch an entry that still accepts the old one drops it. -/
theorem settleEpoch_of_prev (h : x.prevKeys ≠ none) : settleEpoch x.epoch x =
    { x with prevKeys := none, rekeyAt := none, state := if x.state = .rekeying then .established else x.state } := by
  rw [settleEpoch, if_pos (by simp [Option.isSome_iff_ne_none, h])]
theorem state_settled_ne_rekeying (h : x.prevKeys ≠ none) : (settleEpoch x.epoch x).state ≠ .rekeying := by
  rw [settleEpoch_of_prev h]
  dsimp only
  split
  · decide
  · assumption
theorem rekeyWindowEnd_completes {t : Nat} (hat : (sessionOf i s.dev).rekeyAt = some t) (hdue : t + 2 * secTicks ≤ s.dev.time.ticks)
    (hprev : (sessionOf i s.dev).prevKeys ≠ none) (h : tableTakes s.dev) : Completes (.rekeyWindowEnd i) s (fun d =>
      (sessionOf i d).prevKeys = none ∧ (sessionOf i d).rekeyAt = none ∧ (sessionOf i d).keys = (sessionOf i s.dev).keys ∧
      (sessionOf i d).state ≠ .rekeying ∧ d = { s.dev with net := d.net }) := by
  refine ⟨_, exec_rekeyWindowEnd hat hdue, ?_⟩
  beta_reduce
  rw [sessionOf_pathWrite_self h]
  refine ⟨?_, ?_, ?_, state_settled_ne_rekeying hprev, pathWrite_frame _ _ _⟩ <;> rw [settleEpoch_of_prev hprev]

/-! ### Links, offline and authority (13 R461, R491, R492, R496) -/

theorem serveHeld_of_none (h : d.net.heldHellos = []) : serveHeld d = d := by
  rw [serveHeld, h]
  refine (congrArg (fun l => { d with net := { d.net with heldHellos := l } }) h.symm).trans rfl
theorem linkDown_completes (hreset : outOfReset s.dev = true) (halive : pathAlive (pathOf isB s.dev) = true)
    (hup : (pathOf isB s.dev).linkUp = true) : Completes (.linkDown isB) s (fun d => pathOf isB d = { pathOf isB s.dev with linkUp := false } ∧
      pathOf (!isB) d = pathOf (!isB) s.dev ∧ authorityB d.net = authorityB s.dev.net ∧ d = { s.dev with net := d.net, events := d.events }) := by
  refine ⟨_, next_doIf (by simp [hreset, halive, hup]), ?_⟩
  cases isB <;> exact ⟨rfl, rfl, rfl, rfl⟩
/-- A path goes offline. -/
def offlined (isB : Bool) (d : Device) : Device := modPath isB (fun p => { p with offline := true }) d

theorem exec_pathOfflineWrite (hstarted : started s.dev = true) (halive : pathAlive (pathOf isB s.dev) = true)
    (honline : (pathOf isB s.dev).offline = false) (hother : authorityB s.dev.net ≠ isB) : exec (.pathOfflineWrite isB true) s =
      .next { s with dev := abandonHandover (offlined isB s.dev) } := by
  refine (next_doIf (by simp [hstarted, halive])).trans ?_
  simp [writeOffline, honline, hother, offlined]
theorem abandonHandover_of_none (h : d.net.handover = none) : abandonHandover d = d := by
  rw [abandonHandover, h]
theorem abandonHandover_of_some {h : Handover} (hh : d.net.handover = some h) (hheld : d.net.heldHellos = []) : abandonHandover d =
    modPath h.fromB (fun p => { p with handover := false }) { d with net := { d.net with handover := none } } := by
  rw [abandonHandover, hh]
  exact serveHeld_of_none hheld
theorem pathOfflineWrite_ends_handover (hstarted : started s.dev = true) (halive : pathAlive (pathOf isB s.dev) = true)
    (honline : (pathOf isB s.dev).offline = false) (hother : authorityB s.dev.net = !isB)
    (hhand : s.dev.net.handover = some { fromB := !isB }) (hheld : s.dev.net.heldHellos = []) :
    Completes (.pathOfflineWrite isB true) s (fun d => d.net.handover = none ∧ (pathOf isB d).offline = true ∧
      (pathOf (!isB) d).handover = false ∧ authorityB d.net = !isB ∧ d = { s.dev with net := d.net }) := by
  have hexec := exec_pathOfflineWrite hstarted halive honline (by rw [hother]; cases isB <;> decide)
  rw [abandonHandover_of_some (d := offlined isB s.dev) (h := { fromB := !isB }) hhand hheld] at hexec
  refine ⟨_, hexec, rfl, ?_, ?_, Eq.trans ?_ hother, rfl⟩ <;> cases isB <;> rfl
theorem handover_completes (hstarted : started s.dev = true) (halive : pathAlive (pathOf isB s.dev) = true)
    (hallowed : handoverAllowed isB s.dev = true) : Completes (.handover isB) s (fun d =>
      d.net.handover = some { fromB := isB } ∧ (pathOf isB d).handover = true ∧ d = { s.dev with net := d.net }) := by
  refine ⟨_, (next_doIf (by simp [hstarted, halive])).trans (by rw [orderHandover, if_pos hallowed]), rfl, ?_, rfl⟩
  cases isB <;> rfl

/-- At the end of copy: Y's claim is one above X's, and X no longer hands over. -/
def copied (h : Handover) (d : Device) : Device :=
  let n := (liveSessions d.net).length
  let e := modPath h.fromB (fun p => { p with handover := false, copied := n, offline := p.offline || h.thenOffline })
    (modPath (!h.fromB) (fun p => { p with claim := (pathOf h.fromB d).claim + 1, copied := n }) d)
  { e with net := { e.net with handover := none } }

theorem copied_claims (h : Handover) (d : Device) : (pathOf (!h.fromB) (copied h d)).claim = (pathOf h.fromB d).claim + 1 ∧
    (pathOf h.fromB (copied h d)).claim = (pathOf h.fromB d).claim ∧ (pathOf h.fromB (copied h d)).handover = false := by
  unfold copied
  cases h.fromB <;> exact ⟨rfl, rfl, rfl⟩
/-- A path whose claim is the higher holds authority. -/
theorem authorityB_of_claim (h : (pathOf (!isB) d).claim = (pathOf isB d).claim + 1) : authorityB d.net = !isB := by
  cases isB
  · exact decide_eq_true ((Nat.lt_succ_self _).trans_eq h.symm)
  · exact decide_eq_false (Nat.not_lt.mpr ((Nat.le_succ _).trans_eq h.symm))
/-- The write under the new claim keeps what it does not count or accept. -/
theorem tableWrite_id_keeps (isB isX : Bool) (d : Device) : (pathOf isX (tableWrite isB id d)).claim = (pathOf isX d).claim ∧
    (pathOf isX (tableWrite isB id d)).handover = (pathOf isX d).handover ∧ (tableWrite isB id d).net.handover = d.net.handover ∧
    (tableWrite isB id d).net.sessions = d.net.sessions ∧ (tableWrite isB id d).net.heldHellos = d.net.heldHellos ∧
    tableWrite isB id d = { d with net := (tableWrite isB id d).net } := by
  unfold tableWrite
  split
  · cases isX <;> exact ⟨rfl, rfl, rfl, rfl, rfl, rfl⟩
  · cases isX <;> cases isB <;> exact ⟨rfl, rfl, rfl, rfl, rfl, rfl⟩
/-- Y has written under its new claim, and the hand-over is recorded. -/
def handedOver (h : Handover) (d : Device) : Device :=
  emit .notice 0x0603 (.path (!h.fromB)) (leBytes 4 ((pathOf h.fromB d).claim + 1) ++ leBytes 4 (liveSessions d.net).length)
    (tableWrite (!h.fromB) id (copied h d))
theorem exec_handoverEnd {h : Handover} (hhand : s.dev.net.handover = some h) :
    exec .handoverEnd s = .next { s with dev := serveHeld (handedOver h s.dev) } := by
  change execHandoverEnd s = _
  rw [execHandoverEnd, runDev, hhand]
  rfl
theorem handoverEnd_completes {h : Handover} (hhand : s.dev.net.handover = some h) (hheld : s.dev.net.heldHellos = []) :
    Completes .handoverEnd s (fun d => authorityB d.net = !h.fromB ∧ (pathOf (!h.fromB) d).claim = (pathOf h.fromB s.dev).claim + 1 ∧
      d.net.handover = none ∧ d.net.sessions = s.dev.net.sessions ∧ (pathOf h.fromB d).handover = false ∧
      d = { s.dev with net := d.net, events := d.events }) := by
  obtain ⟨hy, hx, hover⟩ := copied_claims h s.dev
  obtain ⟨hclaimY, -, -, -, -, -⟩ := tableWrite_id_keeps (!h.fromB) (!h.fromB) (copied h s.dev)
  obtain ⟨hclaimX, hoverX, hnone, hsessions, hheld', hframe⟩ := tableWrite_id_keeps (!h.fromB) h.fromB (copied h s.dev)
  have hexec := exec_handoverEnd hhand
  rw [serveHeld_of_none (d := handedOver h s.dev) (hheld'.trans hheld)] at hexec
  refine ⟨_, hexec, authorityB_of_claim (d := tableWrite (!h.fromB) id (copied h s.dev)) ?_, hclaimY.trans hy, hnone, hsessions, hoverX.trans hover, ?_⟩
  · rw [hclaimY, hclaimX, hy, hx]
  · rw [handedOver, hframe]
    rfl

/-! ### Address resolution (13 R459, R461) -/

theorem resolve_of_own {r : Output} {ok : Bool} (hhears : pathHears isB d = true) (honline : (pathOf isB d).offline = false) (hok : ok = true) :
    resolve isB ok r d = { d with out := d.out ++ [r] } := by
  simp [resolve, hhears, honline, hok]
theorem resolve_of_other {r : Output} {ok : Bool} (hhears : pathHears isB d = true) (hok : ok = false) : resolve isB ok r d = netCount isB 7 d := by
  simp [resolve, hhears, hok, linkDrop]

/-- Settles O13: replies by `resolve`, timers by the writes of the table, the ends of a hand-over where no HELLO is held (the end of a hand-over
as its receiving path goes offline is log entry 69, the rise of a freed index's generation 67, the addresses that replies come from 66 and 95). -/
theorem pathsAnswerAndTimersRun : Obligations.PathsAnswerAndTimersRun := by
  refine ⟨⟨fun isB l s hhears honline hvlan hown => ?_, fun isB l s hhears honline hvlan hfrag hown => ?_, fun isB l s hhears hown => ?_⟩,
    ⟨fun i s hstate hdue htakes => ?_, fun i t s hat hdue hprev htakes => rekeyWindowEnd_completes hat hdue hprev htakes,
      fun i s hstate hdue => ?_, fun i s hfree hshake hdue htakes => ?_⟩,
    fun isB s hreset halive => next_doIf (by simp [hreset, halive]), fun isB s => linkDown_completes,
    fun isB s hstarted halive honline hother hnone => ?_, fun isB s => pathOfflineWrite_ends_handover, fun isB s => handover_completes,
    fun h s => handoverEnd_completes⟩
  · exact congrArg (fun d => (.next { s with dev := d } : Host.Outcome State Fault Refusal)) (resolve_of_own hhears honline (by simp [hvlan, hown]))
  · exact congrArg (fun d => (.next { s with dev := d } : Host.Outcome State Fault Refusal))
      (resolve_of_own hhears honline (by simp [hvlan, hfrag, hown]))
  · exact congrArg (fun d => (.next { s with dev := d } : Host.Outcome State Fault Refusal)) (resolve_of_other hhears (by simp [hown]))
  · exact ⟨_, next_doIf (by simp [hstate, hdue]), abortSession_frees htakes i 0x06⟩
  · exact next_doIf (by obtain h | h := hstate <;> simp [h, hdue])
  · exact freeSession_completes (next_doIf (by simp [hfree, hshake, hdue])) htakes
  · exact (exec_pathOfflineWrite hstarted halive honline hother).trans (by rw [abandonHandover_of_none (d := offlined isB s.dev) hnone]; rfl)

end Sys2Proof.Machine
end

section
/-! SUPPORT. An admitted REQUEST beside a job that carries the next identifier (13 R466; 04 R137): O15. -/

namespace Sys2Proof.Machine

/-- A traffic session of tenant 1 at index 0, and its key to the part. -/
def openSession : Session := { state := .established, tenant := 1, keys := List.replicate 120 1, egressNext := 2, egressCeiling := 1024 }
def openKey : Bytes := field (sessionPad (rootOf false {}) 0 0 openSession.keys) 48 36
/-- A step of a background source that a fault re-entered. It carries the identifier that the next job takes. -/
def rival : Job :=
  { id := 0, tenant := 0, stream := .background 0, ticket := 0, arrival := 0, deadline := 0xFFFF, recipe := 0, origin := .background
    reentered := true }
/-- A bench in service with one core, one cipher engine and one of Punty. -/
def oneBench : Bench :=
  { inService := true, cores := [(0, { state := .idle })], cipher := { engines := [(0, { state := .inService })] }
    punty := { engines := [(0, { state := .inService })] }, lehr := { ready := true } }
/-- An Operational part whose one core asks for work, with `rival` on the ready list and that session. -/
def rivalled : Device :=
  { pins := { pwrOk := true, rstN := true, mainOn := true }, start := { done := true }
    fuses := { issued := true, ownCount := { width := 16, blown := [0] }, commissionCount := { width := 16, blown := [0] } }
    gaffer := { ready := true, jobs := [rival], requests := [({ bench := 0, core := 0 }, 0)] }, benches := [(0, oneBench)]
    net := { a := { claim := 2, mode := 1, linkUp := true, addr := { ipv4 := some 7 } }, sessions := [(0, openSession)] } }

/-- The first REQUEST of the session, of no bytes. -/
def emptyRequest : Frame :=
  let h : HtlHeader := { type := 0x10, seq := 1 }
  { link := { destIp := 7 }, header := h, payload := [], tag := gcmTagOf (openKey.take 32) (nonceOf openKey 1) (headerBytes h) [] }

theorem emptyRequest_ok : frameOk openKey emptyRequest = true := by
  simp [frameOk, emptyRequest, gcmTagOf_length, fit_of_length]
theorem emptyRequest_admitted : htlAdmits 0x10 false emptyRequest openSession openKey rivalled :=
  ⟨⟨⟨by decide +kernel, by decide +kernel, by decide +kernel, by decide +kernel, rfl, rfl, rfl⟩, by decide +kernel, rfl, emptyRequest_ok,
    by decide +kernel, rfl⟩, by decide, by decide +kernel⟩
/-- The core takes the background step, and its grant is written over both jobs of that identifier. -/
theorem tenants_emptyRequest : ((takeRequest emptyRequest.header 0 [] (htlTaken false emptyRequest openSession rivalled)).gaffer.jobs.map
    (·.tenant)) = [0, 0] := by decide +kernel

/-- Refutes O15 by its second clause, which says that the entered job stands in Gaffer with the request's tenant, recipe and origin, whatever
jobs stand there before: in `rivalled` a job already carries the next identifier, and the dispatch that follows writes that job over both.
No step leads there (`jobsDistinct` of O59). -/
theorem not_trafficFramesTakeEffect : ¬ Obligations.TrafficFramesTakeEffect := by
  intro h
  have hadmits := emptyRequest_admitted
  obtain ⟨hexec, henters, -⟩ := h false emptyRequest openSession openKey { dev := rivalled }
  obtain ⟨-, -, -, ⟨j, hj, -, htenant, -⟩, -⟩ :=
    (henters hadmits (by decide +kernel) (by decide +kernel) (by decide +kernel)).of_exec (hexec hadmits)
  have hmem : j.tenant ∈ (takeRequest emptyRequest.header 0 [] (htlTaken false emptyRequest openSession rivalled)).gaffer.jobs.map (·.tenant) :=
    List.mem_map_of_mem (f := Job.tenant) hj
  rw [tenants_emptyRequest, htenant] at hmem
  exact absurd hmem (by decide)

end Sys2Proof.Machine
end

section
/-! SUPPORT. The handshake (13 R469 to R473, R488): O14. -/

namespace Sys2Proof.Machine

variable {d e : Device} {s : State} {i j k n : Nat} {isB : Bool} {f : Frame}

/-! ### An ABORT on a path that hears (13 R473) -/

/-- The clear frame of an ABORT for no session. -/
def abortFrame (isB : Bool) (a : RemoteAddr) (nonce : Bytes) (reason : Byte) (d : Device) : Output :=
  let h : HtlHeader := { type := 0x1F, length := 36 }
  .clearFrame isB a (sentAs (pathOf isB d) d.net.htlPort a (headerBytes h ++ abortPlain nonce reason)) h (abortPlain nonce reason)

/-- A path sends under its address and the port; what it counts does not matter. -/
theorem abortFrame_congr (haddr : (pathOf isB d).addr = (pathOf isB e).addr) (hport : d.net.htlPort = e.net.htlPort) (a nonce reason) :
    abortFrame isB a nonce reason d = abortFrame isB a nonce reason e := by
  unfold abortFrame sentAs sentLink
  rw [haddr, hport]
theorem sendAbort_of_open (halive : pathAlive (pathOf isB d) = true) (hup : (pathOf isB d).linkUp = true) (honline : (pathOf isB d).offline = false)
    (a : RemoteAddr) (nonce : Bytes) (reason : Byte) : sendAbort isB (some a) 0 nonce reason d =
      netCount isB 9 { netCount isB 1 d with out := d.out ++ [abortFrame isB a nonce reason d] } := by
  simp only [sendAbort, sendClear, halive, hup, honline, Bool.not_true, Bool.not_false, Bool.and_true, Option.isSome_some, if_true,
    Bool.false_eq_true, if_false]
  rfl

/-- What a path that hears frames shows of itself; counts, claims and bridges do not matter. -/
def answering (isB : Bool) (d e : Device) : Prop :=
  pathAlive (pathOf isB e) = true ∧ (pathOf isB e).linkUp = true ∧ (pathOf isB e).offline = false ∧ (pathOf isB e).addr = (pathOf isB d).addr ∧
  e.net.htlPort = d.net.htlPort ∧ e.out = d.out
/-- A path that has heard a frame can answer it. -/
theorem answering_of_hears {type : Byte} (h : htlHears type isB f d) : answering isB d (netCount isB 0 d) := by
  obtain ⟨hhears, honline, -, -, -, -, -⟩ := h
  simp only [pathHears, Bool.and_eq_true] at hhears
  obtain ⟨⟨-, halive⟩, hup⟩ := hhears
  cases isB <;> exact ⟨halive, hup, honline, rfl, rfl, rfl⟩
theorem sendAbort_answers (h : answering isB d e) (a : RemoteAddr) (nonce : Bytes) (reason : Byte) :
    (sendAbort isB (some a) 0 nonce reason e).out = d.out ++ [abortFrame isB a nonce reason d] := by
  obtain ⟨halive, hup, honline, haddr, hport, hout⟩ := h
  rw [sendAbort_of_open halive hup honline, ← hout, ← abortFrame_congr haddr hport]
  rfl

/-! ### A HELLO is taken (13 R471, R472) -/

theorem exec_hello (h : htlHears 0x01 isB f s.dev) (hseg : f.header.seg = 0) :
    exec (.hello isB f) s = .next { s with dev := takeHello isB f (netCount isB 0 s.dev) } := by
  change execHello isB f s = _
  rw [execHello, runDev, receive_of_hears h rfl, if_pos hseg]
/-- The device that has noted the nonce of a HELLO of a path that hears. -/
def heard (isB : Bool) (f : Frame) (d : Device) : Device := noteNonce isB false (helloNonce f.payload) (netCount isB 0 d)
theorem takeHello_of_new (hlen : 1293 ≤ f.payload.length) (hprep : preparing d = false) (hnew : helloSeen (helloNonce f.payload) d = false)
    (hnone : d.net.handover = none) : takeHello isB f d = openHello isB f none d := by
  have hseen : seenNonce (helloNonce f.payload) d = none := by simpa [helloSeen] using hnew
  rw [takeHello, if_neg (Nat.not_lt.mpr hlen), hprep, hseen, hnone]
  rfl
/-- The search for an index reads the entries alone. -/
theorem freeIndexGo_congr {n m : Net} (h : n.sessions = m.sessions) (fuel i : Nat) : freeIndexGo n fuel i = freeIndexGo m fuel i := by
  induction fuel generalizing i with
  | zero => rfl
  | succ fuel ih => simp only [freeIndexGo, h, ih]
theorem freeIndex_heard (isB : Bool) (f : Frame) (d : Device) : freeIndex (heard isB f d) = freeIndex d := by
  unfold freeIndex
  rw [freeIndexGo_congr (n := (heard isB f d).net) (m := d.net) rfl]
  rfl
theorem helloRefusal_heard (isB : Bool) (f : Frame) (p : Bytes) (d : Device) : helloRefusal p (heard isB f d) = helloRefusal p d := by
  have hauthority : authorityB (heard isB f d).net = authorityB d.net := by cases isB <;> rfl
  unfold helloRefusal
  dsimp only
  rw [hauthority, freeIndex_heard]
  rfl

/-! ### A HELLO is refused (13 R473) -/

theorem openHello_of_refused {reason : Byte} (h : helloRefusal f.payload d = some reason) : openHello isB f none (netCount isB 0 d) =
    sendAbort isB (some f.link.source) 0 (helloNonce f.payload) reason
      { heard isB f d with net := noteRefused (helloNonce f.payload) reason (heard isB f d).net } := by
  have hrefused := (helloRefusal_heard isB f f.payload d).trans h
  have hrest : openHello isB f none (netCount isB 0 d) = match helloRefusal f.payload (heard isB f d) with
      | some reason => sendAbort isB (some f.link.source) 0 (helloNonce f.payload) reason
          { heard isB f d with net := noteRefused (helloNonce f.payload) reason (heard isB f d).net }
      | none => openHello isB f none (netCount isB 0 d) := by
    rw [hrefused]
    unfold openHello
    dsimp only
    rw [show noteNonce isB (none : Option RemoteAddr).isSome (helloNonce f.payload) (netCount isB 0 d) = heard isB f d from rfl, hrefused]
    rfl
  rw [hrest, hrefused]
theorem hello_refused {reason : Byte} (h : htlHears 0x01 isB f s.dev) (hseg : f.header.seg = 0) (hlen : 1293 ≤ f.payload.length)
    (hprep : preparing s.dev = false) (hnew : helloSeen (helloNonce f.payload) s.dev = false) (hnone : s.dev.net.handover = none)
    (hrefused : helloRefusal f.payload s.dev = some reason) : Completes (.hello isB f) s (fun d => d.net.sessions = s.dev.net.sessions ∧
      d.out = s.dev.out ++ [abortFrame isB f.link.source (helloNonce f.payload) reason s.dev] ∧ d = { s.dev with net := d.net, out := d.out }) := by
  have hexec := exec_hello h hseg
  rw [takeHello_of_new (d := netCount isB 0 s.dev) hlen hprep hnew hnone, openHello_of_refused hrefused] at hexec
  have hanswer := answering_of_hears h
  have htabled := tabled_sendAbort isB (some f.link.source) 0 (helloNonce f.payload) reason
    { heard isB f s.dev with net := noteRefused (helloNonce f.payload) reason (heard isB f s.dev).net }
  exact ⟨_, hexec, (congrArg (fun x : Device => x.net.sessions) htabled :), sendAbort_answers (by cases isB <;> exact hanswer) _ _ _,
    (frame_of_tabled htabled).trans rfl⟩

/-- A twin of a refused HELLO is answered as the first copy was. -/
theorem noteTwin_of_refused {seen : HelloSeen} {reason : Byte} (hpath : (if isB then seen.onB else seen.onA) = false)
    (hreason : seen.refused = some reason) (d : Device) : ∃ net : Net, noteTwin isB f seen d =
      sendAbort isB (some f.link.source) 0 seen.nonce reason { d with net } ∧ net.a = d.net.a ∧ net.b = d.net.b ∧ net.htlPort = d.net.htlPort := by
  unfold noteTwin
  rw [hpath, hreason]
  exact ⟨_, rfl, rfl, rfl, rfl⟩
theorem nonce_of_seen {m : Bytes} {seen : HelloSeen} (h : seenNonce m d = some seen) : seen.nonce = m := by
  have hfound := List.find?_some h
  simp only [Bool.and_eq_true, beq_iff_eq] at hfound
  exact hfound.1
theorem hello_twin {reason : Byte} {seen : HelloSeen} (h : htlHears 0x01 isB f s.dev) (hseg : f.header.seg = 0) (hlen : 1293 ≤ f.payload.length)
    (hprep : preparing s.dev = false) (hseen : seenNonce (helloNonce f.payload) s.dev = some seen)
    (hpath : (if isB then seen.onB else seen.onA) = false) (hreason : seen.refused = some reason) : Completes (.hello isB f) s (fun d =>
      d.out = s.dev.out ++ [abortFrame isB f.link.source (helloNonce f.payload) reason s.dev] ∧ d = { s.dev with net := d.net, out := d.out }) := by
  have hseen' : seenNonce (helloNonce f.payload) (netCount isB 0 s.dev) = some seen := hseen
  have hprep' : preparing (netCount isB 0 s.dev) = false := hprep
  have htake : takeHello isB f (netCount isB 0 s.dev) = noteTwin isB f seen (netCount isB 0 s.dev) := by
    rw [takeHello, if_neg (Nat.not_lt.mpr hlen), hprep', hseen']
    rfl
  obtain ⟨net, htwin, ha, hb, hport⟩ := noteTwin_of_refused (f := f) hpath hreason (netCount isB 0 s.dev)
  rw [nonce_of_seen hseen] at htwin
  have hpathOf : ∀ x, pathOf x { netCount isB 0 s.dev with net } = pathOf x (netCount isB 0 s.dev) := fun x => by cases x <;> assumption
  have hanswer : answering isB s.dev { netCount isB 0 s.dev with net } := by
    obtain ⟨halive, hup, honline, haddr, hport', hout⟩ := answering_of_hears h
    unfold answering
    rw [hpathOf]
    exact ⟨halive, hup, honline, haddr, hport.trans hport', hout⟩
  refine ⟨_, (exec_hello h hseg).trans (by rw [htake, htwin]), sendAbort_answers hanswer _ _ _, ?_⟩
  exact (frame_of_tabled (tabled_sendAbort _ _ _ _ _ _)).trans rfl

/-! ### A HELLO opens a session (13 R469, R472) -/

theorem forDraw_net (k n : Nat) (net : Net) (d : Device) : forDraw k n { d with net } = { forDraw k n d with net } :=
  forDraw_comm (f := fun d => { d with net }) rfl rfl
/-- The device whose path's generator has delivered the bytes of a handshake. -/
def helloDrawn (d : Device) : Device := forDraw (pathInst (authorityB d.net)) helloDraw d
/-- The device whose table holds the session of an accepted HELLO. -/
def helloOpened (isB : Bool) (f : Frame) (i : Nat) (d : Device) : Device :=
  pathWrite i (fun _ => (acceptHello isB f none i (helloDrawn (heard isB f d))).1)
    (spend (pathInst (authorityB (helloDrawn (heard isB f d)).net)) helloDraw (helloDrawn (heard isB f d)))

theorem authorityB_heard (isB : Bool) (f : Frame) (d : Device) : authorityB (heard isB f d).net = authorityB d.net := by cases isB <;> rfl
theorem net_helloDrawn (d : Device) : (helloDrawn d).net = d.net := by
  unfold helloDrawn
  rw [forDraw_frame]
/-- What `ACCEPT` is made of changes nothing but the bytes drawn, as if they had been drawn at once. -/
theorem spend_helloDrawn_heard (isB : Bool) (f : Frame) (d : Device) :
    spend (pathInst (authorityB (helloDrawn (heard isB f d)).net)) helloDraw (helloDrawn (heard isB f d)) =
    { spend (pathInst (authorityB d.net)) 192 (forDraw (pathInst (authorityB d.net)) 192 d) with net := (heard isB f d).net } := by
  have hdrawn : helloDrawn (heard isB f d) = { forDraw (pathInst (authorityB d.net)) 192 d with net := (heard isB f d).net } := by
    unfold helloDrawn
    rw [authorityB_heard]
    exact forDraw_net _ _ (heard isB f d).net d
  rw [net_helloDrawn, authorityB_heard, hdrawn]
  rfl
theorem openHello_of_accepted (hrefusal : helloRefusal f.payload d = none) (hfree : freeIndex d = some i) :
    tabled (openHello isB f none (netCount isB 0 d)) = tabled (helloOpened isB f i d) := by
  have hrefusal' := (helloRefusal_heard isB f f.payload d).trans hrefusal
  have hfree' := (freeIndex_heard isB f d).trans hfree
  unfold openHello
  dsimp only
  rw [show noteNonce isB (none : Option RemoteAddr).isSome (helloNonce f.payload) (netCount isB 0 d) = heard isB f d from rfl, hrefusal', hfree']
  exact tabled_sendMessage _ _ _ _ _ _
theorem acceptHello_session (isB : Bool) (f : Frame) (i : Nat) (d : Device) : let x := (acceptHello isB f none i d).1
    x.state = .handshake ∧ x.tenant = helloTenant f.payload ∧ x.nonce = helloNonce f.payload ∧ x.gen = (sessionOf i d).gen ∧
    x.acceptAt = d.time.ticks := ⟨rfl, rfl, rfl, rfl, rfl⟩
theorem hello_accepted (h : htlHears 0x01 isB f s.dev) (hseg : f.header.seg = 0) (hlen : 1293 ≤ f.payload.length)
    (hprep : preparing s.dev = false) (hnew : helloSeen (helloNonce f.payload) s.dev = false) (hnone : s.dev.net.handover = none)
    (hrefusal : helloRefusal f.payload s.dev = none) (hfree : freeIndex s.dev = some i) (htakes : tableTakes s.dev) :
    Completes (.hello isB f) s (fun d => (sessionOf i d).state = .handshake ∧ (sessionOf i d).tenant = helloTenant f.payload ∧
      (sessionOf i d).nonce = helloNonce f.payload ∧ (sessionOf i d).gen = (sessionOf i s.dev).gen ∧
      (sessionOf i d).acceptAt = s.dev.time.ticks ∧ d.draws = s.dev.draws + 192 ∧ (∀ j, j ≠ i → sessionOf j d = sessionOf j s.dev) ∧
      s.dev.out <+: d.out ∧ d = { spend (pathInst (authorityB s.dev.net)) 192 (forDraw (pathInst (authorityB s.dev.net)) 192 s.dev) with
        net := d.net, out := d.out }) := by
  have hexec := exec_hello h hseg
  rw [takeHello_of_new (d := netCount isB 0 s.dev) hlen hprep hnew hnone] at hexec
  have htabled := openHello_of_accepted (isB := isB) hrefusal hfree
  have hopened : helloOpened isB f i s.dev = pathWrite i (fun _ => (acceptHello isB f none i (helloDrawn (heard isB f s.dev))).1)
      { spend (pathInst (authorityB s.dev.net)) 192 (forDraw (pathInst (authorityB s.dev.net)) 192 s.dev) with net := (heard isB f s.dev).net } := by
    rw [helloOpened, spend_helloDrawn_heard]
  have htakes' : tableTakes { spend (pathInst (authorityB s.dev.net)) 192 (forDraw (pathInst (authorityB s.dev.net)) 192 s.dev) with
      net := (heard isB f s.dev).net } := (tableTakes_of_tabled (d := heard isB f s.dev) (e := { s.dev with net := { s.dev.net with nonces := (heard isB f s.dev).net.nonces } })
        (by cases isB <;> rfl)).mpr htakes
  have hsession : sessionOf i (openHello isB f none (netCount isB 0 s.dev)) = (acceptHello isB f none i (helloDrawn (heard isB f s.dev))).1 := by
    rw [sessionOf_of_tabled htabled, hopened, sessionOf_pathWrite_self htakes']
  obtain ⟨hstate, htenant, hnonce, hgen, haccept⟩ := acceptHello_session isB f i (helloDrawn (heard isB f s.dev))
  have htime : (helloDrawn (heard isB f s.dev)).time = s.dev.time := by rw [helloDrawn, forDraw_frame]; rfl
  have hdraws : (forDraw (pathInst (authorityB s.dev.net)) 192 s.dev).draws = s.dev.draws := by rw [forDraw_frame]
  have hframe := frame_of_tabled htabled
  rw [hopened, pathWrite_frame] at hframe
  obtain ⟨e, hexec', hrises⟩ := exec_completes_rises (.hello isB f) s
  obtain ⟨-, -, hout, -⟩ := hrises
  injection hexec.symm.trans hexec' with hstates
  injection hstates with _ he
  refine ⟨_, hexec, ?_, ?_, ?_, ?_, ?_, ?_, fun j hj => ?_, he ▸ hout, hframe⟩
  · rw [hsession, hstate]
  · rw [hsession, htenant]
  · rw [hsession, hnonce]
  · rw [hsession, hgen]
    exact congrArg (fun n : Net => (tabGetD i { gen := n.gen0 } n.sessions).gen) (net_helloDrawn (heard isB f s.dev))
  · rw [hsession, haccept, htime]
  · exact (congrArg Device.draws hframe).trans (congrArg (· + 192) hdraws)
  · rw [sessionOf_of_tabled htabled, hopened, sessionOf_pathWrite_of_ne hj.symm]
    rfl

end Sys2Proof.Machine
end

section
/-! SUPPORT. FINISH and READY (13 R471 to R473, R487): the rest of O14. -/

namespace Sys2Proof.Machine

variable {d e : Device} {s : State} {x y : Session} {i j k n : Nat} {isB : Bool} {f : Frame} {m : Bytes}

/-! ### An encrypted frame of a session leaves (13 R475, R479, R489) -/

theorem tabled_sendOn (isB dest h payload tag) (d : Device) : tabled (sendOn isB dest h payload tag d) = tabled d := by
  unfold sendOn
  dsimp only
  split
  · rfl
  · split
    · split
      · rw [tabled_mk, tabled_netCount]
      · exact tabled_netCount _ _ d
    · exact tabled_netCount _ _ d
theorem claim_noteEncrypted (i n : Nat) (p : NetPath) : (noteEncrypted i n p).claim = p.claim := by
  unfold noteEncrypted
  split <;> rfl
theorem tabled_noteEncrypted (i n : Nat) (d : Device) :
    tabled { d with net := { d.net with a := noteEncrypted i n d.net.a, b := noteEncrypted i n d.net.b } } = tabled d := by
  simp only [tabled, claim_noteEncrypted]
theorem raiseCeiling_of_far (h : 512 < (sessionOf i d).egressCeiling - (sessionOf i d).egressNext) : raiseCeiling i d = d := by
  unfold raiseCeiling
  dsimp only
  rw [decide_eq_false (Nat.not_le.mpr h), Bool.and_false]
  rfl
theorem closeExhausted_of_fresh (h : exhausted (sessionOf i d) = false) : closeExhausted i d = d := by
  unfold closeExhausted
  dsimp only
  rw [h, Bool.and_false]
  rfl
/-- A session that uses the next number. -/
def issued (d : Device) (y : Session) : Session :=
  { y with egressNext := y.egressNext + 1, rekeyDue := rekeyDueNow d.time.ticks d.net.rekeyS y }
/-- Where the ceiling and the epoch's numbers are far, a frame of a session uses one number, and nothing else of the table changes. -/
theorem sendSession_tabled (type : Byte) (plain : Bytes)
    (hceiling : 512 < (sessionOf i d).egressCeiling - ((sessionOf i d).egressNext + 1))
    (hfresh : exhausted (issued d (sessionOf i d)) = false) :
    tabled (sendSession i type plain d) = tabled (setSession i (issued d (sessionOf i d)) d) := by
  unfold sendSession
  dsimp only
  rw [tabled_sendOn, tabled_sendOn]
  have hkept : closeExhausted i (raiseCeiling i (setSession i (issued d (sessionOf i d)) d)) = setSession i (issued d (sessionOf i d)) d := by
    rw [raiseCeiling_of_far (by rw [sessionOf_setSession_self]; exact hceiling), closeExhausted_of_fresh (by rw [sessionOf_setSession_self, hfresh])]
  refine (tabled_noteEncrypted _ _ _).trans ?_
  exact congrArg tabled hkept

/-! ### FINISH (13 R471, R472) -/

/-- The entry once the segment of a FINISH has come. -/
def finishing (isB : Bool) (f : Frame) (x : Session) (d : Device) : Session :=
  learn isB f.link.source { x with
    segments := tabSet (f.header.seg.toNat / 16) (framePlain (handshakeKey x.prk x.th1) f) x.segments, lastFrame := d.time.ticks }
/-- The device that holds it. -/
def finished (isB : Bool) (f : Frame) (x : Session) (d : Device) : Device := setSession (sessionIndex f) (finishing isB f x d) (netCount isB 0 d)

/-- What the whole message of a FINISH leads to. -/
def finishTaken (isB : Bool) (f : Frame) (x : Session) (m : Bytes) (d : Device) : Device :=
  if finishVerifies (finishing isB f x d) m d then establish (sessionIndex f) (finishing isB f x d) (finished isB f x d)
  else abortSession (sessionIndex f) 0x04 (finished isB f x d)

theorem exec_finish (h : htlHears 0x03 isB f s.dev) (hnamed : namedSession f s.dev = some x) (hstate : x.state = .handshake)
    (hok : frameOk (handshakeKey x.prk x.th1) f = true) (hseq : f.header.seq.toNat = f.header.seg.toNat / 16)
    (hlive : s.dev.time.ticks < x.acceptAt + 2 * secTicks)
    (hwhole : wholeMessage (f.header.seg.toNat % 16) (finishing isB f x s.dev).segments = some m) : exec (.finish isB f) s =
      .next { s with dev := finishTaken isB f x m s.dev } := by
  have hnamed' : namedSession f (netCount isB 0 s.dev) = some x := hnamed
  have hopen : ¬ (x.state ≠ .handshake ∨ (!frameOk (handshakeKey x.prk x.th1) f) = true ∨ f.header.seq.toNat ≠ f.header.seg.toNat / 16) := by
    simp [hstate, hok, hseq]
  change execFinish isB f s = _
  rw [execFinish, runDev, receive_of_hears h rfl, takeFinish, hnamed']
  dsimp only
  rw [if_neg hopen, if_neg (show ¬ x.acceptAt + 2 * secTicks ≤ (netCount isB 0 s.dev).time.ticks from Nat.not_le.mpr hlive)]
  rw [show (learn isB f.link.source { x with
    segments := tabSet (f.header.seg.toNat / 16) (framePlain (handshakeKey x.prk x.th1) f) x.segments
    lastFrame := (netCount isB 0 s.dev).time.ticks }) = finishing isB f x s.dev from rfl, hwhole]
  rfl
theorem gen_of_named (h : namedSession f d = some x) : sessionOf (sessionIndex f) d = x := by
  unfold namedSession at h
  dsimp only at h
  split at h
  · injection h
  · cases h
theorem tableTakes_finished (h : tableTakes d) : tableTakes (finished isB f x d) :=
  (tableTakes_of_tabled (e := setSession (sessionIndex f) (finishing isB f x d) d) (by cases isB <;> rfl)).mpr h

/-! ### The session is Established (13 R470, R487, R489) -/

/-- The table as an established session enters it. -/
def tableOpened (i : Nat) (y : Session) (d : Device) : Device :=
  netCount (authorityB d.net) 10 (pathWrite i (fun _ => establishedEntry i y d) d)

theorem establish_eq (i : Nat) (y : Session) (d : Device) : establish i y d = sendSession i 0x04 [] (tableOpened i y d) := rfl
theorem sessionOf_tableOpened (h : tableTakes d) (i : Nat) (y : Session) : sessionOf i (tableOpened i y d) = establishedEntry i y d :=
  sessionOf_pathWrite_self h _ _
/-- An established session before it takes its keys. -/
def keyless (y : Session) (d : Device) : Session :=
  { state := .established, gen := y.gen, tenant := y.tenant, egressNext := 1, egressCeiling := 1025, epochEgress := 1
    remoteA := y.remoteA, remoteB := y.remoteB, lastFrame := d.time.ticks, epochStart := d.time.ticks }

/-- Beside its keys an established session is `keyless`. -/
theorem establishedEntry_eq (i : Nat) (y : Session) (d : Device) : ∃ ks, establishedEntry i y d = withKeys d i ks none (keyless y d) := ⟨_, rfl⟩
theorem withKeys_keyless (d : Device) (i : Nat) (ks : Bytes) (y : Session) : withKeys d i ks none (keyless y d) = { keyless y d with
    keys := (withKeys d i ks none (keyless y d)).keys, keyRoot := (withKeys d i ks none (keyless y d)).keyRoot } := rfl
theorem farCeiling (i : Nat) (y : Session) (d : Device) :
    512 < (establishedEntry i y d).egressCeiling - ((establishedEntry i y d).egressNext + 1) := by
  obtain ⟨ks, hks⟩ := establishedEntry_eq i y d
  rw [hks, withKeys_keyless]
  exact (by decide : 512 < 1025 - (1 + 1))
theorem fresh_established (i : Nat) (y : Session) (d e : Device) : exhausted (issued e (establishedEntry i y d)) = false := by
  obtain ⟨ks, hks⟩ := establishedEntry_eq i y d
  rw [hks, withKeys_keyless]
  exact (by decide : (decide (2 ^ 32 ≤ 0 - 0) || decide (2 ^ 32 ≤ 1 + 1 - 1)) = false)
/-- What an Established session shows once READY has used number 1. -/
theorem issued_established (i : Nat) (y : Session) (d e : Device) : let z := issued e (establishedEntry i y d)
    z.state = .established ∧ z.gen = y.gen ∧ z.tenant = y.tenant ∧ z.epoch = 0 ∧ z.egressNext = 2 ∧ z.prk = [] ∧
    z.keys = (establishedEntry i y d).keys ∧ z.keyRoot = (establishedEntry i y d).keyRoot := by
  obtain ⟨ks, hks⟩ := establishedEntry_eq i y d
  rw [hks, withKeys_keyless]
  exact ⟨rfl, rfl, rfl, rfl, rfl, rfl, rfl, rfl⟩
theorem tabled_establish (h : tableTakes d) (i : Nat) (y : Session) : tabled (establish i y d) =
    tabled (setSession i (issued (tableOpened i y d) (establishedEntry i y d)) (tableOpened i y d)) := by
  have hentry := sessionOf_tableOpened h i y
  have hsent := sendSession_tabled (i := i) (d := tableOpened i y d) 0x04 [] (by rw [hentry]; exact farCeiling _ _ _) (by rw [hentry]; exact fresh_established _ _ _ _)
  rwa [hentry] at hsent
theorem tableOpened_frame (i : Nat) (y : Session) (d : Device) : tableOpened i y d = { d with net := (tableOpened i y d).net } := by
  unfold tableOpened
  rw [pathWrite_frame]
  rfl
theorem establish_frame (h : tableTakes d) (i : Nat) (y : Session) :
    establish i y d = { d with net := (establish i y d).net, out := (establish i y d).out } := by
  have hframe := frame_of_tabled (tabled_establish h i y)
  rw [tableOpened_frame] at hframe
  exact hframe
theorem clearKeys_establishedEntry (i : Nat) (y : Session) (d : Device) : clearKeys d i (establishedEntry i y d) =
    epochKeys (hkdfExpand y.prk (ascii "htl ts".toList ++ handshakeHash2 y) 48) 0 := clearKeys_withKeys _ _ _ _ _

/-- A FINISH leaves the transcript and the secret that the handshake has formed. -/
theorem finishing_transcript (isB : Bool) (f : Frame) (x : Session) (d : Device) : handshakeHash2 (finishing isB f x d) = handshakeHash2 x ∧
    (finishing isB f x d).prk = x.prk := ⟨rfl, rfl⟩
theorem finished_custody (isB : Bool) (f : Frame) (x : Session) (d : Device) : (finished isB f x d).custody = d.custody := rfl
theorem finish_establishes (h : htlHears 0x03 isB f s.dev) (hnamed : namedSession f s.dev = some x) (hstate : x.state = .handshake)
    (hok : frameOk (handshakeKey x.prk x.th1) f = true) (hseq : f.header.seq.toNat = f.header.seg.toNat / 16)
    (hlive : s.dev.time.ticks < x.acceptAt + 2 * secTicks)
    (hwhole : wholeMessage (f.header.seg.toNat % 16) (finishing isB f x s.dev).segments = some m) (htakes : tableTakes s.dev)
    (hverifies : finishVerifies (finishing isB f x s.dev) m s.dev = true) : Completes (.finish isB f) s (fun d =>
      let z := sessionOf (sessionIndex f) d
      z.state = .established ∧ z.gen = x.gen ∧ z.tenant = x.tenant ∧ z.epoch = 0 ∧ z.egressNext = 2 ∧ z.prk = [] ∧
      clearKeys d (sessionIndex f) z = epochKeys (hkdfExpand x.prk (ascii "htl ts".toList ++ handshakeHash2 x) 48) 0 ∧
      d = { s.dev with net := d.net, out := d.out }) := by
  have hexec := exec_finish h hnamed hstate hok hseq hlive hwhole
  rw [finishTaken, hverifies, if_pos rfl] at hexec
  have htabled := tabled_establish (tableTakes_finished (isB := isB) (f := f) (x := x) htakes) (sessionIndex f) (finishing isB f x s.dev)
  have hsession := (sessionOf_of_tabled htabled (sessionIndex f)).trans (sessionOf_setSession_self _ _ _)
  have hframe := establish_frame (tableTakes_finished (isB := isB) (f := f) (x := x) htakes) (sessionIndex f) (finishing isB f x s.dev)
  have hcustody := (congrArg Device.custody hframe).trans (finished_custody isB f x s.dev)
  have hfacts := issued_established (sessionIndex f) (finishing isB f x s.dev)
    (finished isB f x s.dev) (tableOpened (sessionIndex f) (finishing isB f x s.dev) (finished isB f x s.dev))
  have hclear := clearKeys_establishedEntry (sessionIndex f) (finishing isB f x s.dev) (finished isB f x s.dev)
  obtain ⟨hhash, hsecret⟩ := finishing_transcript isB f x s.dev
  rw [← hsession] at hfacts
  obtain ⟨hstate', hgen, htenant, hepoch, hnext, hprk, hkeys, hroot⟩ := hfacts
  rw [hhash, hsecret, clearKeys, finished_custody, ← hkeys, ← hroot, ← hcustody, ← clearKeys] at hclear
  exact ⟨_, hexec, hstate', hgen, htenant, hepoch, hnext, hprk, hclear, hframe⟩
theorem finish_aborts (h : htlHears 0x03 isB f s.dev) (hnamed : namedSession f s.dev = some x) (hstate : x.state = .handshake)
    (hok : frameOk (handshakeKey x.prk x.th1) f = true) (hseq : f.header.seq.toNat = f.header.seg.toNat / 16)
    (hlive : s.dev.time.ticks < x.acceptAt + 2 * secTicks)
    (hwhole : wholeMessage (f.header.seg.toNat % 16) (finishing isB f x s.dev).segments = some m) (htakes : tableTakes s.dev)
    (hfails : finishVerifies (finishing isB f x s.dev) m s.dev = false) : Completes (.finish isB f) s (fun d =>
      (sessionOf (sessionIndex f) d).state = .free ∧ (sessionOf (sessionIndex f) d).gen = x.gen + 1 ∧
      d = { s.dev with net := d.net, out := d.out }) := by
  have hexec := exec_finish h hnamed hstate hok hseq hlive hwhole
  rw [finishTaken, hfails, if_neg Bool.false_ne_true] at hexec
  obtain ⟨hfreed, -, hframe⟩ := abortSession_frees (tableTakes_finished (isB := isB) (f := f) (x := x) htakes) (sessionIndex f) 0x04
  refine ⟨_, hexec, by rw [hfreed], ?_, hframe⟩
  rw [hfreed, finished, sessionOf_setSession_self]
  rfl

/-- Settles O14: a HELLO is new, refused or a twin (`hello_accepted`, `hello_refused`, `hello_twin`), a FINISH establishes or aborts. How many
bytes ACCEPT draws is log entry 81; that HELLO and FINISH do the public-key work in their own rows is 67. -/
theorem handshakeOpensASession : Obligations.HandshakeOpensASession := by
  refine ⟨fun isB f s h hseg hlen hprep => ⟨fun i hnew hnone hrefusal hfree htakes => ?_, fun reason hnew hnone hrefused => ?_,
    fun seen reason hseen hpath hreason => ?_⟩, fun isB f x m s h hnamed hstate hok hseq hlive hwhole htakes => ⟨?_, ?_⟩⟩
  · exact hello_accepted h hseg hlen hprep hnew hnone hrefusal hfree htakes
  · exact hello_refused h hseg hlen hprep hnew hnone hrefused
  · exact hello_twin h hseg hlen hprep hseen hpath hreason
  · exact finish_establishes h hnamed hstate hok hseq hlive hwhole htakes
  · exact finish_aborts h hnamed hstate hok hseq hlive hwhole htakes

end Sys2Proof.Machine
end

section
/-! SUPPORT. Custody verbs: the row of the partition, the lock, quorums, retirement, factory programming (16 R559, R570 to R577): O50. -/

namespace Sys2Proof.Machine

variable {op : BitVec 16} {c : CoreRef} {j : Job} {d : Device} {s : State}

/-! ### The row of a custody verb (16 R570) -/

theorem custodyRow_of_passed {decode : Job → Code} {maxOut : Nat} {act : Nat → Job → Device → Device} (hjob : verbJob op c d = some j)
    (hdecode : decode j = 0) (hroom : maxOut ≤ outRoom d j) (hgate : gateCode d j = 0) :
    custodyRow op decode maxOut act c d = act (lead c d).bench j d := by
  simp [custodyRow, hjob, doWith, firstCode, hdecode, need_of_true (decide_eq_true hroom), hgate]

/-- A custody verb whose checks pass and that stages a result of its own changes nothing else. -/
theorem custodyVerb_completes {i : Instr} {decode : Job → Code} {maxOut : Nat} {act : Nat → Job → Device → Device} {st : Staged}
    (hexec : exec i s = runDev (custodyRow op decode maxOut act c) s) (hjob : verbJob op c s.dev = some j) (hdecode : decode j = 0)
    (hroom : maxOut ≤ outRoom s.dev j) (hgate : gateCode s.dev j = 0)
    (hact : act (lead c s.dev).bench j s.dev = stage (lead c s.dev).bench j.id st s.dev) :
    Completes i s (fun e => jobOf j.id e = some { j with staged := some st } ∧
      e = { s.dev with gaffer := e.gaffer, benches := e.benches }) := by
  have hstaged := stagedOnly_stage (lead c s.dev).bench st rfl (jobOf_of_verbJob hjob)
  exact ⟨_, exec_of_row hexec ((custodyRow_of_passed hjob hdecode hroom hgate).trans hact), hstaged.1, frame_of_stagedOnly hstaged⟩

/-! ### The lock of the manager (16 R559, R577) -/

theorem closeUnpermitted_frame (d : Device) : closeUnpermitted d = { d with
    events := (closeUnpermitted d).events, power := (closeUnpermitted d).power } := by
  have hlevel : ∀ keep : Bool, let e := if keep then d else setLevel .closed 0 d; e = { d with events := e.events, power := e.power } := by
    intro keep
    cases keep with
    | true => rfl
    | false => exact setLevel_frame _ _ d
  exact hlevel _

/-- The work of the part is stopped and its lock burned. -/
def lockBurned (cause : LockCause) (d : Device) : Device := burnLock (stopWork { d with custody := { d.custody with lockCause := cause } })
theorem enterLocked_frame {cause : LockCause} (h : state d = .owned ∨ state d = .operational) :
    enterLocked cause d = { lockBurned cause d with events := (enterLocked cause d).events, power := (enterLocked cause d).power } := by
  have hlocks : enterLocked cause d = wake 3 3 (closeUnpermitted (noteTransition (state d) (lockBurned cause d))) := by
    rcases h with h | h <;> simp [enterLocked, lockBurned, h]
  rw [hlocks, wake_frame, closeUnpermitted_frame, noteTransition_frame]
theorem lockBurned_of_lockable {cause : LockCause} (hlife : lifecycle d.fuses = .owned ∨ lifecycle d.fuses = .operational)
    (hsat : saturated d.fuses.lockCount = false) :
    lockBurned cause d = { stopWork { d with custody := { d.custody with lockCause := cause } } with
      fuses := { d.fuses with lockCount := burnTherm d.fuses.lockCount }, events := (lockBurned cause d).events } := by
  have hfuses : (stopWork { d with custody := { d.custody with lockCause := cause } }).fuses = d.fuses := by rw [stopWork_frame]
  rw [lockBurned, burnLock_of_lockable (by rw [hfuses]; exact hlife) (by rw [hfuses]; exact hsat)]
  refine (burn_frame _ _).trans ?_
  rw [hfuses]
  rfl

/-- One more lock than unlocks: an owned part is Locked (16 R557). -/
theorem lifecycle_of_lockBurn {f : Fuses} (hlife : lifecycle f = .owned ∨ lifecycle f = .operational) (hsat : saturated f.lockCount = false)
    (hequal : thermVal f.unlockCount = thermVal f.lockCount) : lifecycle { f with lockCount := burnTherm f.lockCount } = .locked := by
  have hburned := thermVal_burnTherm hsat
  unfold lifecycle at hlife ⊢
  dsimp only
  rw [hburned, hequal, if_pos (Nat.lt_succ_self _)]
  cases hretired : f.retired with
  | true => simp [hretired] at hlife
  | false =>
    cases hissued : f.issued with
    | false => simp [hretired, hissued] at hlife
    | true =>
      by_cases hown : thermVal f.ownCount = thermVal f.eraseCount
      · simp only [hretired, hissued, hown, Bool.not_true, Bool.false_eq_true, if_false, if_true] at hlife
        split at hlife <;> simp at hlife
      · simp [hown]
theorem state_of_lockedFuses (h : lifecycle d.fuses = .locked) : state d = .locked := by simp [state, h]
theorem state_of_noLatches (h : d.battery.latches = []) : state d = lifecycle d.fuses := by simp [state, lockPending, h]

/-! ### Retirement (16 R559) -/

/-- The fuses and the battery domain. -/
def lasting (d : Device) : Fuses × Battery := (d.fuses, d.battery)
theorem requestRemask_lasting (d : Device) : lasting (requestRemask d) = lasting d := by
  unfold requestRemask
  split
  · rfl
  · split
    · rfl
    · rw [startRemask_frame]
      rfl
theorem remaskOnExit_lasting (l : Lifecycle) (d : Device) : lasting (remaskOnExit l d) = lasting d :=
  ite_kept (view := lasting) (requestRemask_lasting _)

/-- The part is retired: the fuse burned, the vault key destroyed, the lock's cause cleared. -/
def retiring (d : Device) : Device := { d with
  fuses := { d.fuses with retired := true }, battery := { dropLocks d.battery with vaultKey := 0, vaultValid := false }
  custody := { d.custody with lockCause := .none } }
/-- What is recorded of a retirement, with the debug level that it closes. -/
def retirementNoted (d : Device) : Device := closeUnpermitted (noteTransition (state d) (retiring d))
theorem burnRetired_eq (d : Device) : burnRetired d = remaskOnExit (state d) (retirementNoted d) := rfl
theorem retirementNoted_frame (d : Device) : retirementNoted d = { retiring d with
    events := (retirementNoted d).events, power := (retirementNoted d).power } := by
  rw [retirementNoted, closeUnpermitted_frame, noteTransition_frame]
theorem burnRetired_lasting (d : Device) : lasting (burnRetired d) = lasting (retiring d) := by
  rw [burnRetired_eq, remaskOnExit_lasting, retirementNoted_frame]
  rfl
theorem burnRetired_keys (h : state d ≠ .locked) : (burnRetired d).keys = d.keys := by
  rw [burnRetired_eq, remaskOnExit, if_neg (by simpa using h), retirementNoted_frame]
  rfl
theorem state_of_retired (h : d.fuses.retired = true) : state d = .retired := by simp [state, lifecycle, h]

/-! ### QUORUM_EXPIRY and COMPONENT_SESSION_EXPIRY (16 R572; 11 R397) -/

theorem quorumBusy_of_some {q : Quorum} (h : d.custody.quorum = some q) : quorumBusy d = decide (d.time.ticks < quorumEnds q) := by
  simp [quorumBusy, h]
theorem exec_quorumExpiry_of_over {q : Quorum} (hreset : outOfReset s.dev = true) (hq : s.dev.custody.quorum = some q)
    (hover : quorumEnds q ≤ s.dev.time.ticks) :
    exec .quorumExpiry s = .next { s with dev := { s.dev with custody := { s.dev.custody with quorum := none } } } :=
  next_doIf (by simp [hreset, hq, quorumBusy_of_some hq, Nat.not_lt.mpr hover])
theorem exec_quorumExpiry_of_live {q : Quorum} (hq : s.dev.custody.quorum = some q) (hlive : s.dev.time.ticks < quorumEnds q) :
    exec .quorumExpiry s = .next s :=
  next_doIf_of_false (by simp [quorumBusy_of_some hq, hlive])

/-- The sessions without those of a number that have lasted 300 s. -/
def sessionsKept (n tick : Nat) (xs : List CompSession) : List CompSession :=
  xs.filter (fun x => !(decide (x.number.toNat = n) && sessionOver x tick))
theorem mem_sessionsKept {n tick : Nat} {xs : List CompSession} {x : CompSession} :
    x ∈ sessionsKept n tick xs ↔ x ∈ xs ∧ ¬(x.number.toNat = n ∧ x.opened + 300 * secTicks ≤ tick) := by
  simp [sessionsKept, sessionOver, imp_iff_not_or]
theorem exec_componentSessionExpiry (n : Nat) (hreset : outOfReset s.dev = true) : exec (.componentSessionExpiry n) s = .next { s with
    dev := { s.dev with custody := { s.dev.custody with sessions := sessionsKept n s.dev.time.ticks s.dev.custody.sessions } } } :=
  next_doIf hreset

/-! ### Keabor factory programming (16 R551, R559; 22 R705) -/

theorem closeFull_frame (d : Device) : closeFull d = { d with events := (closeFull d).events, power := (closeFull d).power } := by
  unfold closeFull
  split
  · exact setLevel_frame _ _ d
  · rfl
theorem closeFull_level (d : Device) : (closeFull d).power.level ≠ .full := by
  unfold closeFull
  split
  · rw [setLevel_level]
    decide
  · assumption

/-- The fuses of a part as the factory leaves them. -/
def factoryFuses (root : Bytes) (cal : FactoryCalibration) (p : Part) (f : Fuses) : Fuses := { f with
  part := p, deviceRoot := bytesBv 256 root, romKeyDigest := cal.romKeyDigest, watchTrim := cal.watchTrim
  gatherTrim := (List.range 16).zip cal.gatherTrims, monitorTrims := cal.monitorTrims, issued := true }
theorem programFactory_eq (root : Bytes) (cal : FactoryCalibration) (p : Part) (d : Device) : programFactory root cal p d =
    noteTransition .blank { closeFull d with fuses := factoryFuses root cal p (closeFull d).fuses } := rfl
theorem programFactory_frame (root : Bytes) (cal : FactoryCalibration) (p : Part) (d : Device) : programFactory root cal p d = { d with
    fuses := factoryFuses root cal p d.fuses, power := (closeFull d).power, events := (programFactory root cal p d).events } := by
  rw [programFactory_eq, noteTransition_frame]
  have h := closeFull_frame d
  generalize closeFull d = e at h ⊢
  rw [h]
theorem retired_of_blank (h : state d = .blank) : d.fuses.retired = false := by
  cases hretired : d.fuses.retired with
  | true => simp [state_of_retired hretired] at h
  | false => rfl
theorem lifecycle_factoryFuses {f : Fuses} (root : Bytes) (cal : FactoryCalibration) (p : Part) (hretired : f.retired = false)
    (hown : f.ownCount.blown = []) (herase : f.eraseCount.blown = []) : lifecycle (factoryFuses root cal p f) = .issued := by
  simp [lifecycle, factoryFuses, hretired, thermVal, hown, herase]
theorem state_of_issued (h : lifecycle d.fuses = .issued) : state d = .issued := by simp [state, h]
theorem exec_keaborFactoryProgramming (root : Bytes) (cal : FactoryCalibration) (hblank : state s.dev = .blank) (hmain : s.dev.pins.mainOn = true) :
    exec (.keaborFactoryProgramming 640 root cal) s = .next { s with dev := programFactory root cal .ky0640 s.dev } :=
  next_doIf (by simp [hblank, hmain])

/-! ### O50 -/

/-- What the lock of the manager leaves of an owned part whose locks can all be burned (16 R577). -/
theorem enterLocked_locks (hstate : state d = .owned ∨ state d = .operational) (hlatches : d.battery.latches = [])
    (hsat : saturated d.fuses.lockCount = false) (hequal : thermVal d.fuses.unlockCount = thermVal d.fuses.lockCount) :
    let e := enterLocked .managerLock d
    state e = .locked ∧ e.custody.lockCause = .managerLock ∧ e.custody.quorum = none ∧ e.custody.sessions = [] ∧
    e.keys.refusing = true ∧ e.keys.slots = d.keys.slots ∧ e.gaffer.jobs = [] ∧ e.battery = d.battery ∧
    thermVal e.fuses.lockCount = thermVal d.fuses.lockCount + 1 ∧ e.custody.root0 = d.custody.root0 ∧ e.custody.root1 = d.custody.root1 := by
  have hlife : lifecycle d.fuses = .owned ∨ lifecycle d.fuses = .operational := by rwa [← state_of_noLatches hlatches]
  rw [enterLocked_frame hstate, lockBurned_of_lockable hlife hsat, stopWork_frame]
  exact ⟨state_of_lockedFuses (lifecycle_of_lockBurn hlife hsat hequal), rfl, rfl, rfl, rfl, rfl, rfl, rfl, thermVal_burnTherm hsat, rfl, rfl⟩

theorem askQuorum_of_free {b : Nat} (hmay : procedureMay (par j 0 1) (field j.params 4 32) d = true) (hfree : quorumBusy d = false) :
    askQuorum b j d = stage b j.id { intents := [.openQuorum (parByte j 0) (field j.params 4 32)
      (procedureM (par j 0 1) (field j.params 4 32) d.custody.record)] } d := by
  simp [askQuorum, hmay, hfree]
theorem askQuorum_of_busy {b : Nat} (hmay : procedureMay (par j 0 1) (field j.params 4 32) d = true) (hbusy : quorumBusy d = true) :
    askQuorum b j d = stage b j.id { code := 0x040D } d := by
  simp [askQuorum, hmay, hbusy]

/-- Settles O50: each verb by the row of the partition, what Retire writes by the burns that it makes. The factory fields are burned with
`issued` and the device root (log entry 73); what retirement drops is that of log entry 50. -/
theorem custodyChangesState : Obligations.CustodyChangesState := by
  unfold Obligations.CustodyChangesState
  refine ⟨?lock, ?locks, ?openQuorum, fun j p q m n d => ⟨rfl, rfl⟩, ?abandon, ?info, ?retire, ?retires, ?expiry, ?session, ?factory⟩
  case lock =>
    intro c j s hjob hgate hzero
    exact custodyVerb_completes rfl hjob (reserved_of_zeros hzero) (Nat.zero_le _) hgate rfl
  case locks => exact fun j d hstate hlatches hsat hequal => enterLocked_locks hstate hlatches hsat hequal
  case openQuorum =>
    intro c j s hjob hdecode hgate hmay
    exact ⟨fun hfree => custodyVerb_completes rfl hjob hdecode (Nat.zero_le _) hgate (askQuorum_of_free hmay hfree),
      fun hbusy => custodyVerb_completes rfl hjob hdecode (Nat.zero_le _) hgate (askQuorum_of_busy hmay hbusy)⟩
  case abandon =>
    intro c j q s hjob hgate hzero hopen
    exact custodyVerb_completes rfl hjob (reserved_of_zeros hzero) (Nat.zero_le _) hgate (by rw [hopen])
  case info =>
    intro c j s hjob hgate hzero hroom
    exact custodyVerb_completes rfl hjob (reserved_of_zeros hzero) hroom hgate rfl
  case retire =>
    intro c j s hjob hgate hzero
    exact custodyVerb_completes rfl hjob (reserved_of_zeros hzero) (Nat.zero_le _) hgate rfl
  case retires =>
    intro j d
    obtain ⟨hfuses, hbattery⟩ := Prod.ext_iff.mp (burnRetired_lasting d)
    exact ⟨state_of_retired (congrArg Fuses.retired hfuses), congrArg Battery.vaultKey hbattery, congrArg Battery.vaultValid hbattery, hfuses,
      burnRetired_keys⟩
  case expiry => exact fun q s hreset hq => ⟨exec_quorumExpiry_of_over hreset hq, exec_quorumExpiry_of_live hq⟩
  case session =>
    intro n s hreset
    refine ⟨_, exec_componentSessionExpiry n hreset, fun x hx => ?_, fun x => mem_sessionsKept.mp, rfl⟩
    by_cases hover : x.number.toNat = n ∧ x.opened + 300 * secTicks ≤ s.dev.time.ticks
    · exact .inr hover
    · exact .inl (mem_sessionsKept.mpr ⟨hx, hover⟩)
  case factory =>
    intro root cal s hblank hmain hown herase
    refine ⟨_, exec_keaborFactoryProgramming root cal hblank hmain, ?_⟩
    rw [programFactory_frame]
    exact ⟨state_of_issued (lifecycle_factoryFuses root cal .ky0640 (retired_of_blank hblank) hown herase), closeFull_level _, rfl, rfl⟩

end Sys2Proof.Machine
end

section
/-! SUPPORT. Card ports and the presentation of a card (16 R566 to R568, R573; 23 R726): O49. -/

namespace Sys2Proof.Machine

variable {op : BitVec 16} {c : CoreRef} {j : Job} {portB : Bool} {d : Device} {s : State}

/-! ### A card port (16 R566) -/

theorem portFor_setPortOf_self (portB : Bool) (f : CardPort → CardPort) (d : Device) : portFor portB (setPortOf portB f d) = f (portFor portB d) := by
  cases portB <;> rfl
theorem portFor_setPortOf_other (portB : Bool) (f : CardPort → CardPort) (d : Device) :
    portFor (!portB) (setPortOf portB f d) = portFor (!portB) d := by
  cases portB <;> rfl
/-- A port shows of the custody partition alone. -/
theorem portFor_of_custody {e : Device} (h : e.custody = d.custody) (portB : Bool) : portFor portB e = portFor portB d :=
  congrArg (fun x : Custody => if portB then x.portB else x.portA) h
theorem setPortOf_frame (portB : Bool) (f : CardPort → CardPort) (d : Device) :
    setPortOf portB f d = { d with custody := (setPortOf portB f d).custody } := rfl
theorem portFault_frame (portB : Bool) (fault : BitVec 3) (d : Device) :
    portFault portB fault d = { d with custody := (portFault portB fault d).custody, events := (portFault portB fault d).events } := rfl
theorem portFor_portFault_self (portB : Bool) (fault : BitVec 3) (d : Device) :
    portFor portB (portFault portB fault d) = { portFor portB d with lastFault := fault } :=
  portFor_setPortOf_self portB (fun p => { p with lastFault := fault }) d
theorem portFor_portFault_other (portB : Bool) (fault : BitVec 3) (d : Device) : portFor (!portB) (portFault portB fault d) = portFor (!portB) d :=
  portFor_setPortOf_other portB (fun p => { p with lastFault := fault }) d

/-! ### The end of an exchange (16 R567) -/

theorem stage_frame (b id : Nat) (st : Staged) (d : Device) : stage b id st d = { d with
    gaffer := (stage b id st d).gaffer, benches := (stage b id st d).benches } := by
  have h := eq_of_benchless (noteStaged_benchless b id st d)
  rw [stage]
  generalize noteStaged b id st d = e at h ⊢
  rw [h]
  rfl
theorem endExchange_frame (portB : Bool) (d : Device) : endExchange portB d = { d with
    gaffer := (endExchange portB d).gaffer, benches := (endExchange portB d).benches } := by
  unfold endExchange
  split
  · split
    · exact stage_frame _ _ _ d
    · rfl
  · rfl
theorem portFor_endExchange (p portB : Bool) (d : Device) : portFor p (endExchange portB d) = portFor p d :=
  portFor_of_custody (by rw [endExchange_frame]) p
theorem endExchange_of_holder {b k : Nat} (hholder : cardHolder portB d = some j) (hplace : j.place = .core b k) :
    endExchange portB d = stage b j.id { code := 0x040B } d := by
  simp [endExchange, hholder, hplace]

/-! ### Cards come and go (16 R566; 23 R726) -/

/-- The port without its card, the exchange that it carried ended. -/
def emptied (portB : Bool) (d : Device) : Device := endExchange portB (setPortOf portB (fun p => { p with present := false, active := false }) d)
theorem emptied_frame (portB : Bool) (d : Device) : emptied portB d = { d with
    custody := (setPortOf portB (fun p => { p with present := false, active := false }) d).custody
    gaffer := (emptied portB d).gaffer, benches := (emptied portB d).benches } :=
  endExchange_frame portB _
theorem portFor_emptied_self (portB : Bool) (d : Device) : portFor portB (emptied portB d) = { portFor portB d with present := false, active := false } :=
  (portFor_endExchange _ _ _).trans (portFor_setPortOf_self portB _ d)
theorem portFor_emptied_other (portB : Bool) (d : Device) : portFor (!portB) (emptied portB d) = portFor (!portB) d :=
  (portFor_endExchange _ _ _).trans (portFor_setPortOf_other portB _ d)
theorem removeCard_of_running (hactive : (portFor portB d).active = true) (hholder : (cardHolder portB d).isSome = true) :
    removeCard portB d = portFault portB 4 (emptied portB d) := by
  simp [removeCard, emptied, hactive, hholder]
theorem removeCard_of_idle (h : (portFor portB d).active = false ∨ cardHolder portB d = none) : removeCard portB d = emptied portB d := by
  rcases h with h | h <;> simp [removeCard, emptied, h]

theorem exec_cardInserted (hreset : outOfReset s.dev = true) (habsent : (portFor portB s.dev).present = false) :
    exec (.cardInserted portB) s = .next { s with dev := setPortOf portB (fun p => { p with present := true, active := true }) s.dev } :=
  next_doIf (by simp [hreset, habsent])
theorem exec_cardRemoved (hreset : outOfReset s.dev = true) (hpresent : (portFor portB s.dev).present = true) :
    exec (.cardRemoved portB) s = .next { s with dev := removeCard portB s.dev } :=
  next_doIf (by simp [hreset, hpresent])
theorem exec_atrTimeout (hreset : outOfReset s.dev = true) (hactive : (portFor portB s.dev).active = true) :
    exec (.atrTimeout portB) s = .next { s with dev := portFault portB 1 (setPortOf portB (fun p => { p with active := false }) s.dev) } :=
  next_doIf (by simp [hreset, hactive])
theorem exec_cardExchangeTimeout (hreset : outOfReset s.dev = true) (hactive : (portFor portB s.dev).active = true)
    (hholder : cardHolder portB s.dev = some j) (hlate : 2 * secTicks ≤ ticksSince j.dispatch s.dev) :
    exec (.cardExchangeTimeout portB) s = .next { s with dev := portFault portB 2 (endExchange portB s.dev) } :=
  next_doIf (by simp [exchangeLate, hreset, hactive, hholder, hlate])

theorem cardInserted_completes (hreset : outOfReset s.dev = true) (habsent : (portFor portB s.dev).present = false) :
    Completes (.cardInserted portB) s (fun d => portFor portB d = { portFor portB s.dev with present := true, active := true } ∧
      portFor (!portB) d = portFor (!portB) s.dev ∧ d = { s.dev with custody := d.custody }) :=
  ⟨_, exec_cardInserted hreset habsent, portFor_setPortOf_self _ _ _, portFor_setPortOf_other _ _ _, setPortOf_frame _ _ _⟩
theorem cardRemoved_completes_of_idle (hreset : outOfReset s.dev = true) (hpresent : (portFor portB s.dev).present = true)
    (hidle : (portFor portB s.dev).active = false ∨ cardHolder portB s.dev = none) : Completes (.cardRemoved portB) s (fun d =>
      (portFor portB d).present = false ∧ (portFor portB d).active = false ∧ portFor (!portB) d = portFor (!portB) s.dev ∧
      d.fuses = s.dev.fuses ∧ d.keys = s.dev.keys ∧ d.custody.quorum = s.dev.custody.quorum) := by
  refine ⟨_, exec_cardRemoved hreset hpresent, ?_⟩
  beta_reduce
  rw [removeCard_of_idle hidle, portFor_emptied_self, portFor_emptied_other, emptied_frame]
  exact ⟨rfl, rfl, rfl, rfl, rfl, rfl⟩
theorem cardRemoved_completes_of_running (hreset : outOfReset s.dev = true) (hpresent : (portFor portB s.dev).present = true)
    (hactive : (portFor portB s.dev).active = true) (hholder : (cardHolder portB s.dev).isSome = true) :
    Completes (.cardRemoved portB) s (fun d =>
      (portFor portB d).present = false ∧ (portFor portB d).active = false ∧ (portFor portB d).lastFault = 4 ∧
      d.fuses = s.dev.fuses ∧ d.keys = s.dev.keys ∧ d.custody.quorum = s.dev.custody.quorum) := by
  refine ⟨_, exec_cardRemoved hreset hpresent, ?_⟩
  beta_reduce
  rw [removeCard_of_running hactive hholder, portFor_portFault_self, portFor_emptied_self, emptied_frame]
  exact ⟨rfl, rfl, rfl, rfl, rfl, rfl⟩
theorem atrTimeout_completes (hreset : outOfReset s.dev = true) (hactive : (portFor portB s.dev).active = true) :
    Completes (.atrTimeout portB) s (fun d => portFor portB d = { portFor portB s.dev with active := false, lastFault := 1 } ∧
      portFor (!portB) d = portFor (!portB) s.dev ∧ d = { s.dev with custody := d.custody, events := d.events }) := by
  refine ⟨_, exec_atrTimeout hreset hactive, ?_, ?_, rfl⟩
  · rw [portFor_portFault_self, portFor_setPortOf_self]
  · rw [portFor_portFault_other, portFor_setPortOf_other]
/-- The 2 s are those since the job was dispatched (log entry 49). -/
theorem cardExchangeTimeout_completes {b k : Nat} (hreset : outOfReset s.dev = true) (hactive : (portFor portB s.dev).active = true)
    (hholder : cardHolder portB s.dev = some j) (hj : jobOf j.id s.dev = some j) (hplace : j.place = .core b k)
    (hlate : 2 * secTicks ≤ ticksSince j.dispatch s.dev) : Completes (.cardExchangeTimeout portB) s (fun d =>
      (portFor portB d).lastFault = 2 ∧ jobOf j.id d = some { j with staged := some { code := 0x040B } } ∧
      d = { s.dev with custody := d.custody, events := d.events, gaffer := d.gaffer, benches := d.benches }) := by
  have hstaged := stagedOnly_stage b { code := 0x040B } rfl hj
  have hframe := frame_of_stagedOnly hstaged
  refine ⟨_, exec_cardExchangeTimeout hreset hactive hholder hlate, by rw [portFor_portFault_self], ?_, ?_⟩
  · rw [endExchange_of_holder hholder hplace, portFault_frame]
    exact hstaged.1
  · rw [endExchange_of_holder hholder hplace]
    generalize stage b j.id { code := 0x040B } s.dev = e at hframe ⊢
    rw [hframe]
    rfl

/-! ### A presentation (16 R568, R573) -/

theorem afterReading_of_fetched {v : Verb} {row : Device → Device} (hjob : verbJob op c d = some j) (hkeys : keysMissing v d j = []) :
    afterReading op v c row d = row d := by
  simp [afterReading, hjob, doWith, doIf, fetchKeys_of_fetched hkeys, hkeys]

/-- The custody partition after an identity has been read: the port keeps the status word. -/
def identified (portB : Bool) (reply : CardReply) (x : Custody) : Custody := { x with
  portA := if portB then x.portA else { x.portA with lastSw := reply.status }
  portB := if portB then { x.portB with lastSw := reply.status } else x.portB }
theorem readIdentity_frame (portB : Bool) (reply : CardReply) (d : Device) : readIdentity portB reply d = { d with
    custody := identified portB reply d.custody, out := d.out ++ [.cardCommand portB 0xA4 cardAid] ++ [.cardCommand portB 0x10 []] } := rfl
/-- The card has been sent a challenge of 32 drawn bytes, after its identity. -/
def challenged (portB : Bool) (reply : CardReply) (digest : Bytes) (d : Device) : Device :=
  sendCard portB 0x20 digest (readIdentity portB reply (spend 8 32 (forDraw 8 32 d)))
theorem challenged_frame (portB : Bool) (reply : CardReply) (digest : Bytes) (d : Device) : ∃ gather out, challenged portB reply digest d =
    { d with custody := identified portB reply d.custody, gather := gather, out := out, draws := d.draws + 32 } := by
  rw [challenged, readIdentity_frame, forDraw_frame]
  exact ⟨_, _, rfl⟩

/-- The key of the card that a reply tells, and the digest that the card is to sign. -/
def cardKey (reply : CardReply) : Bytes := fit 65 reply.publicKey
def signedDigest (q : Quorum) (d : Device) : Bytes := cardDigest d q.number q.procedure q.params (drawn 8 32 (forDraw 8 32 d))
/-- The job presents a new card. -/
def presentsNew (j : Job) : Bool := decide (par j 5 1 % 2 = 1)

section
variable {b : Nat} {q : Quorum} {reply : CardReply}

theorem presentCard_of_served (hopen : quorumOpen (par j 0 4) d = some q) (hserves : portServes (decide (par j 4 1 = 1)) j d = true)
    (hstatus : reply.status = 0x9000) (hservice : d.gather.service = true) :
    presentCard reply b j d = presentIdentity b j (decide (par j 4 1 = 1)) q reply (readIdentity (decide (par j 4 1 = 1)) reply d) := by
  have hdraws : (readIdentity (decide (par j 4 1 = 1)) reply d).gather.service = true := hservice
  simp only [presentCard, hopen, hserves, hstatus, hdraws, ne_eq, not_true_eq_false, Bool.not_true, Bool.false_eq_true, if_false]

theorem presentIdentity_of_code (hcode : cardCode q (presentsNew j) (cardKey reply) d ≠ 0) :
    presentIdentity b j portB q reply (readIdentity portB reply d) =
      stage b j.id { code := cardCode q (presentsNew j) (cardKey reply) d } (readIdentity portB reply d) := if_pos hcode
/-- A card that passes the checks is challenged. -/
theorem presentIdentity_of_passed (hcode : cardCode q (presentsNew j) (cardKey reply) d = 0) :
    presentIdentity b j portB q reply (readIdentity portB reply d) =
      (let e := challenged portB reply (signedDigest q d) d
       if !cardSigned reply (signedDigest q d) then stage b j.id { code := 0x040E } e
       else match exchangeComponent portB (countCard q (presentsNew j) (cardOfReply reply) e.time.ticks) reply e with
        | (x, some y) => finishPresent b j y x
        | (x, none) => stage b j.id { code := 0x040B } x) := by
  have hcode' : cardCode q (presentsNew j) (cardKey reply) (readIdentity portB reply d) = 0 := hcode
  have hdigest : cardDigest (spend 8 32 (forDraw 8 32 (readIdentity portB reply d))) q.number q.procedure q.params
      (drawn 8 32 (forDraw 8 32 (readIdentity portB reply d))) = signedDigest q d := by
    rw [cardDigest_drawn, forDraw_readIdentity, drawn_readIdentity]
    rfl
  refine (if_neg (not_not.mpr hcode')).trans ?_
  dsimp only
  rw [hdigest, forDraw_readIdentity, spend_readIdentity]
  rfl
theorem presentIdentity_of_unsigned (hcode : cardCode q (presentsNew j) (cardKey reply) d = 0) (hsigned : cardSigned reply (signedDigest q d) = false) :
    presentIdentity b j portB q reply (readIdentity portB reply d) =
      stage b j.id { code := 0x040E } (challenged portB reply (signedDigest q d) d) := by
  rw [presentIdentity_of_passed hcode]
  simp only [hsigned, Bool.not_false, if_true]

/-- The quorum with one more card counted. -/
def cardCounted (q : Quorum) (reply : CardReply) (tick : Nat) : Quorum :=
  { q with presented := q.presented ++ [{ serial := reply.serial, key := cardKey reply }], first := some (q.first.getD tick) }
theorem countCard_of_held {new : Bool} {tick : Nat} (hp : q.procedure ≠ 0x04) :
    countCard q new (cardOfReply reply) tick = cardCounted q reply tick := by
  have hheld : (new && q.procedure == 0x04) = false := by rw [beq_eq_false_iff_ne.mpr hp, Bool.and_false]
  simp only [countCard, hheld, Bool.false_eq_true, if_false]
  rfl
theorem exchangeComponent_of_none (h8 : q.procedure ≠ 0x08) (h9 : q.procedure ≠ 0x09) : exchangeComponent portB q reply d = (d, some q) :=
  (if_neg h8).trans (if_neg h9)
theorem finishPresent_of_open (hmore : q.presented.length ≠ q.required) : finishPresent b j q d =
    stage b j.id { aux := presentAux q } { d with custody := { d.custody with quorum := some q } } := by
  simp [finishPresent, quorumFull, hmore]
theorem presentIdentity_of_signed (hcode : cardCode q (presentsNew j) (cardKey reply) d = 0) (hsigned : cardSigned reply (signedDigest q d) = true)
    (h8 : q.procedure ≠ 0x08) (h9 : q.procedure ≠ 0x09) (h4 : q.procedure ≠ 0x04) (hmore : q.presented.length + 1 < q.required) :
    presentIdentity b j portB q reply (readIdentity portB reply d) =
      (let e := challenged portB reply (signedDigest q d) d
       let y := cardCounted q reply e.time.ticks
       stage b j.id { aux := presentAux y } { e with custody := { e.custody with quorum := some y } }) := by
  rw [presentIdentity_of_passed hcode]
  simp only [hsigned, Bool.not_true, Bool.false_eq_true, if_false, countCard_of_held h4]
  rw [exchangeComponent_of_none (by exact h8) (by exact h9)]
  exact finishPresent_of_open (by simpa [cardCounted] using hmore.ne)
theorem presentAux_count (hnew : q.newCard = none) : (presentAux q).toNat % 256 = q.presented.length % 256 := by
  simp only [presentAux, hnew, Option.isSome_none, b2n, Bool.false_eq_true, if_false]
  rw [BitVec.toNat_ofNat]
  omega

/-! ### What PRESENT_CARD leaves -/

theorem presentCard_completes {st : Staged} {e : Device} (hjob : verbJob 0x0B03 c s.dev = some j) (hdecode : presentDecode j = 0)
    (hgate : gateCode s.dev j = 0) (hkeys : keysMissing presentReads s.dev j = [])
    (hact : presentCard reply (lead c s.dev).bench j s.dev = stage (lead c s.dev).bench j.id st e) (hgaffer : e.gaffer = s.dev.gaffer) :
    Completes (.presentCard c reply) s (fun x => jobOf j.id x = some { j with staged := some st } ∧
      x = { e with gaffer := x.gaffer, benches := x.benches }) := by
  have hj : jobOf j.id e = some j := by
    rw [jobOf, hgaffer]
    exact jobOf_of_verbJob hjob
  have hstaged := stagedOnly_stage (lead c s.dev).bench st rfl hj
  refine ⟨_, exec_of_row (f := afterReading 0x0B03 presentReads c _) rfl ?_, hstaged.1, frame_of_stagedOnly hstaged⟩
  rw [afterReading_of_fetched hjob hkeys, custodyRow_of_passed hjob hdecode (Nat.zero_le _) hgate, hact]
end

/-! ### O49 -/

section
variable {q : Quorum} {key : Bytes}

/-- A card counted before is refused (16 R573). -/
theorem cardCode_of_counted (hcounted : ∃ x ∈ q.presented, x.key = key) (henrolled : enrolled d key = true) (hp : q.procedure ≠ 0x01) :
    cardCode q false key d = 0x040F := by
  have hany : q.presented.any (fun x => x.key == key) = true := by simpa using hcounted
  simp only [cardCode, need, Bool.not_false, Bool.true_or, Bool.false_or, bne_iff_ne.mpr hp, henrolled, hany, Bool.not_true, Bool.false_and,
    Bool.false_eq_true, if_false, if_true]
  rfl
/-- A card that is not enrolled is refused. -/
theorem cardCode_of_unknown (hunknown : enrolled d key = false) (hp : q.procedure ≠ 0x01) : cardCode q false key d = 0x040E := by
  simp only [cardCode, need, Bool.not_false, Bool.true_or, Bool.false_or, bne_iff_ne.mpr hp, hunknown, Bool.false_eq_true, if_false, if_true]
  rfl
end

/-- Settles O49: the ports by their transitions, of which the 2 s of an exchange count from the dispatch of its job (log entry 49), and a
presentation by the checks that its card passes, of which the draw of the challenge leaves the quorum as it is. -/
theorem cardsAreActivatedAndCounted : Obligations.CardsAreActivatedAndCounted := by
  unfold Obligations.CardsAreActivatedAndCounted
  refine ⟨fun portB s hreset => ⟨cardInserted_completes hreset, cardRemoved_completes_of_idle hreset, cardRemoved_completes_of_running hreset,
    atrTimeout_completes hreset, fun j b k => cardExchangeTimeout_completes hreset⟩, ?_⟩
  intro c reply j q s hjob hdecode hgate hopen hserves hstatus hservice hkeys
  have hact (b : Nat) := presentCard_of_served (b := b) hopen hserves hstatus hservice
  have hrow {st e} := presentCard_completes (c := c) (reply := reply) (st := st) (e := e) hjob hdecode hgate hkeys
  refine ⟨fun hcode hsigned => ?unsigned, fun hcode hsigned h8 h9 h4 hnew hmore => ?counted, fun hcounted hnew henrolled hp => ?twice,
    fun hnew hunknown hp => ?unknown⟩
  case unsigned =>
    obtain ⟨gather, out, hframe⟩ := challenged_frame (decide (par j 4 1 = 1)) reply (signedDigest q s.dev) s.dev
    obtain ⟨x, hexec, hx, hkept⟩ := hrow ((hact _).trans (presentIdentity_of_unsigned hcode hsigned)) (by rw [hframe])
    refine ⟨x, hexec, hx, ?_⟩
    rw [hkept, hframe]
    exact ⟨rfl, rfl, rfl⟩
  case counted =>
    obtain ⟨gather, out, hframe⟩ := challenged_frame (decide (par j 4 1 = 1)) reply (signedDigest q s.dev) s.dev
    obtain ⟨x, hexec, hx, hkept⟩ := hrow ((hact _).trans (presentIdentity_of_signed hcode hsigned h8 h9 h4 hmore)) (by rw [hframe])
    refine ⟨x, hexec, ?_, ⟨_, hx, rfl, ?_⟩, ?_⟩
    · rw [hkept, hframe]
      rfl
    · exact (presentAux_count (q := cardCounted q reply _) hnew).trans (congrArg (· % 256) List.length_append)
    · rw [hkept, hframe]
      exact ⟨rfl, rfl, rfl⟩
  case twice =>
    have hcode : cardCode q (presentsNew j) (cardKey reply) s.dev = 0x040F := by
      rw [presentsNew, hnew]
      exact cardCode_of_counted hcounted henrolled hp
    obtain ⟨x, hexec, hx, hkept⟩ := hrow ((hact _).trans (presentIdentity_of_code (by rw [hcode]; decide))) rfl
    refine ⟨x, hexec, hcode ▸ hx, ?_⟩
    rw [hkept]
    exact ⟨rfl, rfl⟩
  case unknown =>
    have hcode : cardCode q (presentsNew j) (cardKey reply) s.dev = 0x040E := by
      rw [presentsNew, hnew]
      exact cardCode_of_unknown hunknown hp
    obtain ⟨x, hexec, hx, hkept⟩ := hrow ((hact _).trans (presentIdentity_of_code (by rw [hcode]; decide))) rfl
    refine ⟨x, hexec, hcode ▸ hx, ?_⟩
    rw [hkept]
    exact ⟨rfl, rfl⟩

end Sys2Proof.Machine
end

section
/-! SUPPORT. Power control, and the end of a flash write (15 R540; 22 R693): O55. -/

namespace Sys2Proof.Machine

variable {c : CoreRef} {j : Job} {d e : Device} {s : State}

/-! ### The rows of the verbs that stage an image or an answer -/

theorem writeCopyVerb_row : VerbRow 0x0A10 writeCopyVerb .writeConfigurationCopy := ⟨fun _ _ => rfl, fun _ _ _ => rfl⟩
theorem mirrorVerb_row : VerbRow 0x0A11 mirrorVerb .mirrorConfigurationCopy := ⟨fun _ _ => rfl, fun _ _ _ => rfl⟩
theorem firmwareVerb_row : VerbRow 0x0A12 firmwareVerb .writeFirmwareImage := ⟨fun _ _ => rfl, fun _ _ _ => rfl⟩
theorem chainVerb_row : VerbRow 0x0A21 chainVerb .readCertificateChain := ⟨fun _ _ => rfl, fun _ _ _ => rfl⟩
theorem eventLogVerb_row : VerbRow 0x0A30 eventLogVerb .readEventLog := ⟨fun _ _ => rfl, fun _ _ _ => rfl⟩

/-! ### Power control (22 R693) -/

section
variable {i : Instr} {action : Nat}

/-- A Power control job whose checks pass asks for one of the five actions. -/
theorem action_of_ready (h : verbReady 0x0A50 powerVerb c j d) : 1 ≤ par j 0 1 ∧ par j 0 1 ≤ 5 := by
  obtain ⟨⟨⟨-, -, -, -, hcode⟩, -⟩, -⟩ := h
  by_contra haction
  have hdecode : firstCode [reserved j 1 3, reserved j 8 40, need (decide (1 ≤ par j 0 1 ∧ par j 0 1 ≤ 5)) 0x0110,
      need (decide (par j 0 1 ≠ 4 ∨ par j 4 4 ≤ 60000)) 0x0110] = 0 :=
    (firstCode_pair_eq_zero.mp (firstCode_pair_eq_zero.mp hcode).1).1
  simp only [decide_eq_false haction, reserved, need, firstCode] at hdecode
  split at hdecode <;> simp_all
theorem powerRow_of_asked (h : verbReady 0x0A50 powerVerb c j d) (hasked : par j 0 1 = action) :
    powerRow action c d = runStaged powerVerb (lead c d) j d := by
  have hjob := verbJob_of_ready h
  rw [← runVerb_of_ready h]
  simp only [powerRow, execVerb, hjob, doIf, doWith, hasked, decide_true, Bool.true_or, if_true]
theorem powerRow_of_other (h : verbReady 0x0A50 powerVerb c j d) (hother : par j 0 1 ≠ action) : powerRow action c d = d := by
  have hjob := verbJob_of_ready h
  simp only [powerRow, hjob, doIf, decide_eq_false hother, decide_eq_true (action_of_ready h), Bool.not_true, Bool.and_false, Bool.or_false,
    Bool.false_eq_true, if_false]

theorem powerAction_completes (hexec : exec i s = runDev (powerRow action c) s) (h : verbReady 0x0A50 powerVerb c j s.dev)
    (hasked : par j 0 1 = action) : Completes i s (stagedOnly j { intents := [.power action (par j 4 4)] } s.dev) := by
  refine ⟨_, exec_of_row hexec (powerRow_of_asked h hasked), ?_⟩
  subst hasked
  exact stagedOnly_stage _ _ (noteDerived_benchless _ _ _ _) (jobOf_of_verbJob (verbJob_of_ready h))
theorem powerAction_passes (hexec : exec i s = runDev (powerRow action c) s) (h : verbReady 0x0A50 powerVerb c j s.dev)
    (hother : par j 0 1 ≠ action) : exec i s = .next s := exec_of_row hexec (powerRow_of_other h hother)
end

/-! ### The copies in flash, through the end of a job -/

/-- The write of an image that is in progress, and the two copies of the configuration. -/
def copies (d : Device) : Option ImageWrite × Option FlashCopy × Option FlashCopy := (d.flash.imageWrite, d.flash.morning, d.flash.evening)

theorem copies_of_ungranted (h : ungranted d = ungranted e) : copies d = copies e := (congrArg copies h :)
theorem endGrant_copies (g park) (d : Device) : copies (endGrant g park d) = copies d :=
  (copies_of_ungranted (endGrant_ungranted g park d)).trans (congrArg copies (charged_frame g _ d) :)
theorem dropGrants_copies (job park) (d : Device) : copies (dropGrants job park d) = copies d := by
  rw [dropGrants, doEach_kept fun _ _ => copies_of_ungranted (arbitrate_ungranted _ _ _)]
  exact (doEach_kept (view := copies) fun _ _ => endGrant_copies _ _ _).trans rfl
theorem coreCount_copies (c k n) (d : Device) : copies (coreCount c k n d) = copies d := rfl
theorem noteRetire_copies (j b code last) (d : Device) : copies (noteRetire j b code last d) = copies d := by
  refine noteRetire_kept ?_ ?_ ?_ ?_ ?_ ?_ j b code last d
  · exact fun _ _ _ => rfl
  · exact coreCount_copies
  · exact fun _ _ => rfl
  · exact fun _ _ _ => rfl
  · exact fun _ _ _ _ => rfl
  · exact fun _ _ _ _ => ite_kept rfl
theorem settleWork_copies (retired j) (d : Device) : copies (settleWork retired j d) = copies d := by
  unfold settleWork settleDraws
  split
  · exact both_kept (view := copies) rfl rfl
  · rfl
theorem copies_of_result (kind result) (d : Device) : copies { d with flash := { d.flash with wrKind := kind, wrResult := result } } = copies d := rfl
theorem noteImage_copies (j code) (d : Device) : copies (noteImage j code d) = copies d := by
  unfold noteImage
  split
  · exact copies_of_result _ _ d
  · rfl
theorem modJob_copies (id f) (d : Device) : copies (modJob id f d) = copies d := rfl
theorem modBench_copies (b f) (d : Device) : copies (modBench b f d) = copies d := rfl
theorem modUnit_copies (c f) (d : Device) : copies (modUnit c f d) = copies d := (congrArg copies (modUnit_frame c f d) :)
theorem freeJobCore_copies (j) (d : Device) : copies (freeJobCore j d) = copies d := by
  refine doWith_kept fun c x => ?_
  rw [freeCore, doWith_kept fun _ _ => modJob_copies _ _ _, modUnit_copies]
theorem dropState_copies (id) (d : Device) : copies (dropState id d) = copies d := by
  unfold dropState
  split
  · rfl
  · exact (modJob_copies _ _ _).trans (doWith_kept fun _ _ => modBench_copies _ _ _)
theorem settled_copies (j b code) (d : Device) : copies (settled j b code d) = copies d := by
  simp only [settled]
  rw [ite_kept (doWith_kept fun _ _ => coreCount_copies _ _ _ _), noteImage_copies, noteRetire_copies, settleWork_copies, dropGrants_copies]
  exact ite_kept (view := copies) rfl
theorem left_copies (j at_) (d : Device) : copies (left j at_ d) = copies d := by
  simp only [left]
  rw [dropState_copies]
  exact ite_kept (view := copies) (freeJobCore_copies _ _)
theorem advanceGo_copies (st fuel) (d : Device) : copies (advanceGo st fuel d) = copies d := by
  induction fuel generalizing d with
  | zero => rfl
  | succ fuel ih =>
    unfold advanceGo
    split
    · exact (ih _).trans rfl
    · rfl
theorem advancePtr_copies (st) (d : Device) : copies (advancePtr st d) = copies d := advanceGo_copies st _ d
theorem finishJob_copies (j b code staged) (d : Device) : copies (finishJob j b code staged d) = copies d := by
  rw [finishJob_eq]
  dsimp only
  rw [advancePtr_copies]
  exact (left_copies _ _ _).trans (settled_copies _ _ _ _)

/-! ### The entries of a commit -/

theorem applyWrites_frame (id : Nat) (d : Device) : applyWrites id d = { d with flash := (applyWrites id d).flash } := by
  have heach : ∀ (ws : List PendingWrite) (x : Device), doEach ws (fun w => applyWrite w.write) x =
      { x with flash := (doEach ws (fun w => applyWrite w.write) x).flash } := by
    intro ws
    induction ws with
    | nil => exact fun _ => rfl
    | cons w ws ih => exact fun x => ih (applyWrite w.write x)
  exact heach _ _
theorem applyWrite_copies (w) (d : Device) : copies (applyWrite w d) = copies d := by
  cases w with
  | ceiling x =>
    show copies { d with flash := appendCeiling d x d.flash } = copies d
    unfold appendCeiling
    dsimp only
    split <;> rfl
  | root x => rfl
  | closeRoot t v => rfl
theorem applyWrites_copies (id : Nat) (d : Device) : copies (applyWrites id d) = copies d :=
  doEach_kept (view := copies) fun w => applyWrite_copies w.write

/-! ### The end of an image write (15 R540) -/

section
variable {w : ImageWrite} {b : Nat} {st : Staged}

theorem exec_flashWriteReadbackEnd (matched : Bool) (hw : s.dev.flash.imageWrite = some w) (hreset : outOfReset s.dev = true)
    (hserves : nvmServes s.dev = true) :
    exec (.flashWriteReadbackEnd matched) s = .next { s with dev := imageWritten w matched s.dev } := by
  show execFlashWriteReadbackEnd matched s = _
  rw [execFlashWriteReadbackEnd, runDev]
  simp only [hw, hreset, hserves]
  rfl
theorem endImage_of_matched (hj : jobOf w.job d = some j) (hplace : j.place = .pending b) (hst : j.staged = some st) :
    endImage 0 w d = commitJob j b st d := by
  simp [endImage, hj, hplace, hst]
theorem endImage_of_failed (hj : jobOf w.job d = some j) (hplace : j.place = .pending b) (hst : j.staged = some st) :
    endImage 0x0509 w d = finishJob j b 0x0509 none d := by
  simp [endImage, hj, hplace, hst]

/-- Where a copy goes: to Evening or Morning, by the copy that was selected. -/
theorem placeImage_morning (hkind : w.kind ≠ 3) (hmorning : targetEvening d.flash = false) :
    copies { d with flash := placeImage w d.flash } = (none, some (copyOf w.image), d.flash.evening) := by
  have htarget : targetEvening { d.flash with imageWrite := none } = false := hmorning
  simp [copies, placeImage, hkind, setCopy, htarget]
theorem placeImage_evening (hkind : w.kind ≠ 3) (hevening : targetEvening d.flash = true) :
    copies { d with flash := placeImage w d.flash } = (none, d.flash.morning, some (copyOf w.image)) := by
  have htarget : targetEvening { d.flash with imageWrite := none } = true := hevening
  simp [copies, placeImage, hkind, setCopy, htarget]
theorem placeImage_firmware (hkind : w.kind = 3) :
    copies { d with flash := placeImage w d.flash } = (none, d.flash.morning, d.flash.evening) := by
  unfold copies placeImage setImage
  dsimp only
  rw [if_pos hkind]
  split <;> rfl
theorem placeImage_imageWrite (w : ImageWrite) (f : Flash) : (placeImage w f).imageWrite = none := by
  unfold placeImage setImage setCopy
  dsimp only
  split <;> split <;> rfl
theorem tearImage_morning (hw : d.flash.imageWrite = some w) (hkind : w.kind ≠ 3) (hmorning : targetEvening d.flash = false) :
    (tearImage d.flash).morning = some { bytes := w.image, ecOk := false, mlOk := false } := by
  have htarget : targetEvening { d.flash with imageWrite := none } = false := hmorning
  simp [tearImage, hw, hkind, setCopy, htarget]

/-- The job of an image write that has been read back leaves with code 0, and its commit writes nothing but its entries. -/
theorem commitJob_of_image (hj : jobOf j.id d = some j) (hhalf : st.half = false) (hmore : st.more = false)
    (hintents : st.intents = [.flashImage w.kind w.image]) : ∃ m, commitJob j b st d =
      finishJob j b 0 (some m) (modJob j.id (fun x => { x with progress := progressAfter j st }) (applyWrites j.id d)) := by
  have hwritten : (writeIntents j st.intents (applyWrites j.id d)).1 = applyWrites j.id d := by rw [hintents]; rfl
  have hthere : jobOf j.id (applyWrites j.id d) = some j := by
    rw [applyWrites_frame]
    exact hj
  refine ⟨resultOf j st d, ?_⟩
  rw [commitJob_of_last b hhalf hmore (by rw [hwritten]; exact Option.isSome_of_eq_some hthere), hwritten]

/-- What the last job of a write leaves beside the flash: its result with the code, and all else but its work. -/
def imageEnded (w : ImageWrite) (b : Nat) (code : Code) (d e : Device) : Prop :=
  (∃ k, jobOf w.job e = some k ∧ k.place = .retired b ∧ k.code = code) ∧ e.fuses = d.fuses ∧ e.keys = { d.keys with ports := e.keys.ports } ∧
  e.custody = d.custody

theorem imageEnded_finishJob {staged : Option Staged} {code : Code} (hid : j.id = w.job) (hj : (jobOf j.id d).isSome = true) :
    imageEnded w b code d (finishJob j b code staged d) := by
  obtain ⟨k, hk, hplace, hcode, -, -⟩ := finishJob_hasLeft b code staged hj
  obtain ⟨hkeys, hfuses, hcustody, -⟩ := finishJob_keepsRest j b code staged d
  exact ⟨⟨k, hid ▸ hk, hplace, hcode⟩, hfuses, hkeys, hcustody⟩

/-- The job of an image write that has been read back: its commit writes nothing but its entries. -/
theorem imageWritten_matched (hj : jobOf w.job d = some j) (hplace : j.place = .pending b) (hst : j.staged = some st) (hhalf : st.half = false)
    (hmore : st.more = false) (hintents : st.intents = [.flashImage w.kind w.image]) : let e := imageWritten w true d
      imageEnded w b 0 d e ∧ copies e = copies { d with flash := placeImage w d.flash } := by
  let x : Device := { d with flash := placeImage w d.flash }
  have hid := jobOf_id hj
  have hx : jobOf j.id x = some j := hid ▸ hj
  obtain ⟨m, hcommit⟩ := commitJob_of_image (b := b) hx hhalf hmore hintents
  have hend : imageWritten w true d = _ := (endImage_of_matched (d := x) hj hplace hst).trans hcommit
  have hkept := applyWrites_frame j.id x
  have hcopies := applyWrites_copies j.id x
  rw [hend]
  generalize applyWrites j.id x = y at hkept hcopies ⊢
  have hy : jobOf j.id y = some j := by
    rw [hkept]
    exact hx
  have hthere : (jobOf j.id (modJob j.id (fun x => { x with progress := progressAfter j st }) y)).isSome = true := by
    refine Option.isSome_of_eq_some (jobOf_modJob_self ?_ hy)
    exact fun _ _ => rfl
  obtain ⟨hleft, hfuses, hkeys, hcustody⟩ := imageEnded_finishJob (b := b) (staged := some m) (code := 0) hid hthere
  refine ⟨⟨hleft, hfuses.trans ?_, hkeys.trans ?_, hcustody.trans ?_⟩, (finishJob_copies _ _ _ _ _).trans hcopies⟩
  · rw [hkept]
    rfl
  · rw [hkept]
    rfl
  · rw [hkept]
    rfl
/-- One that failed leaves its area torn, its job with 0x0509. -/
theorem imageWritten_failed (hj : jobOf w.job d = some j) (hplace : j.place = .pending b) (hst : j.staged = some st) :
    let e := imageWritten w false d
    imageEnded w b 0x0509 d e ∧ copies e = copies { d with flash := tearImage d.flash } := by
  have hid := jobOf_id hj
  let x := emit .alarm 0x0803 .nvm (leBytes 4 (imageArea w.kind d.flash) ++ leBytes 4 (Config.flashOffset d.events.submitted))
    { d with flash := tearImage d.flash }
  have hx : jobOf j.id x = some j := hid ▸ hj
  have hend : imageWritten w false d = finishJob j b 0x0509 none x := endImage_of_failed (d := x) hj hplace hst
  rw [hend]
  obtain ⟨hleft, hfuses, hkeys, hcustody⟩ := imageEnded_finishJob (b := b) (staged := none) (code := 0x0509) hid (Option.isSome_of_eq_some hx)
  exact ⟨⟨hleft, hfuses, hkeys, hcustody⟩, finishJob_copies _ _ _ _ _⟩
end

/-! ### O55 -/

/-- What the copies are after a write. -/
theorem imageWrite_of_copies {x : Option ImageWrite} {m n : Option FlashCopy} (h : copies e = (x, m, n)) :
    e.flash.imageWrite = x ∧ e.flash.morning = m ∧ e.flash.evening = n := by
  obtain ⟨himage, hcopies⟩ := Prod.ext_iff.mp h
  exact ⟨himage, Prod.ext_iff.mp hcopies⟩

/-- Settles O55: each verb by its row, an action of Power control by the row that its job asks for (log entry 71), and the end of a write by the
end of its job, through which the copies in flash stand as the write has left them; one that fails leaves its area torn (log entry 63). -/
theorem managementVerbsAndFlashWrites : Obligations.ManagementVerbsAndFlashWrites := by
  unfold Obligations.ManagementVerbsAndFlashWrites
  refine ⟨fun c j s => ⟨writeCopyVerb_row.completes c j s, mirrorVerb_row.completes c j s, firmwareVerb_row.completes c j s,
      chainVerb_row.completes c j s, eventLogVerb_row.completes c j s⟩,
    writeCopyVerb_row.waits, mirrorVerb_row.waits, firmwareVerb_row.waits, chainVerb_row.waits, eventLogVerb_row.waits, ?power, ?image⟩
  case power =>
    intro c j s hready
    exact ⟨powerAction_completes rfl hready, powerAction_passes rfl hready, powerAction_completes rfl hready, powerAction_passes rfl hready,
      powerAction_completes rfl hready, powerAction_passes rfl hready, powerAction_completes rfl hready, powerAction_passes rfl hready,
      powerAction_completes rfl hready, powerAction_passes rfl hready⟩
  case image =>
    intro w j b st s hw hreset hserves hj hplace hst hhalf hmore hintents
    refine ⟨⟨_, exec_flashWriteReadbackEnd true hw hreset hserves, ?_⟩, ⟨_, exec_flashWriteReadbackEnd false hw hreset hserves, ?_⟩⟩
    · obtain ⟨⟨hleft, hfuses, hkeys, hcustody⟩, hcopies⟩ := imageWritten_matched hj hplace hst hhalf hmore hintents
      refine ⟨(imageWrite_of_copies hcopies).1.trans (placeImage_imageWrite _ _), hleft, fun hkind hmorning => ?_, fun hkind hevening => ?_,
        fun hkind => ?_, hfuses, hkeys, hcustody⟩
      · exact (imageWrite_of_copies (hcopies.trans (placeImage_morning hkind hmorning))).2
      · obtain ⟨-, hm, hn⟩ := imageWrite_of_copies (hcopies.trans (placeImage_evening hkind hevening))
        exact ⟨hn, hm⟩
      · exact (imageWrite_of_copies (hcopies.trans (placeImage_firmware hkind))).2
    · obtain ⟨⟨hleft, hfuses, hkeys, hcustody⟩, hcopies⟩ := imageWritten_failed hj hplace hst
      obtain ⟨himage, hmorning, -⟩ := imageWrite_of_copies hcopies
      exact ⟨himage.trans (tearImage_imageWrite _), hleft,
        fun hkind htarget => ⟨_, hmorning.trans (tearImage_morning hw hkind htarget), rfl, rfl⟩, hfuses, hkeys, hcustody⟩

end Sys2Proof.Machine
end
